-- ==== Sys2Proof/Word.lean ====
section
/-! DEFINITION. Words of the Molset VM-9620: the byte, the F32 bit pattern and the plainest conversions
between little-endian bytes and numbers (R10). -/

namespace Sys2Proof

/-- One byte. -/
abbrev Byte := BitVec 8

/-- The bits of an F32 (IEEE 754 binary32, R83). -/
abbrev F32 := BitVec 32

/-- A 64-bit word: digests, tags and masks. -/
abbrev W64 := BitVec 64

/-- `n` little-endian bytes of a number (R10). -/
def leBytes : Nat → Nat → List Byte
  | 0, _ => []
  | n + 1, v => BitVec.ofNat 8 v :: leBytes n (v / 256)

/-- The number that little-endian bytes spell (R10). -/
def leNat : List Byte → Nat
  | [] => 0
  | b :: bs => b.toNat + 256 * leNat bs

/-- The field [hi:lo] of a number (R10). -/
def field (v hi lo : Nat) : Nat := v / 2 ^ lo % 2 ^ (hi - lo + 1)

/-- Bit `i` of a number (R10). -/
def bit (v i : Nat) : Bool := v.testBit i

/-- 1 for true, 0 for false, as a BOOL is encoded (R489). -/
def b2n (b : Bool) : Nat := if b then 1 else 0

/-- Division rounded up. -/
def cdiv (a b : Nat) : Nat := (a + (b - 1)) / b

/-- The number of a dictionary entry: index × 256 + sub-index (R15). -/
abbrev Key := Nat

/-- The key of index:sub-index (R15). -/
def key (i s : Nat) : Key := i * 256 + s

/-- The key of entry `n` of a paged object with base index `base` (R486). -/
def pagedKey (base n : Nat) : Key := base * 256 + n

end Sys2Proof
end

