-- ==== Sys2Proof/Syntax.lean ====
section
/-! DEFINITION. The commands of the Molset VM-9620, one constructor per row of the opcode table, and the
records that they carry: entries, messages, shingles, hanks, images, map changes, datagrams. A record's docstring
names the rule that lays it out. -/

namespace Sys2Proof

/-! ### Queries -/

/-- The name of a query: home node, skein, query index (R143). -/
structure QName where
  home : Nat
  skein : Nat
  qidx : Nat
  deriving DecidableEq, Repr

/-- A shingle: the header of R119 and the items of R118, as the streamer delivers them. `res1` is bytes 18 to 19,
`res2` bytes 30 to 59. -/
structure Shingle where
  layout : Nat
  thatch : Nat
  num : Nat
  list : Nat
  count : Nat
  m : Nat
  shape : Nat
  d : Nat
  res1 : Nat
  cbset : Nat
  idOff : Nat
  signOff : Nat
  codeOff : Nat
  res2 : Nat
  check : BitVec 32
  ids : List Nat
  signs : List (List Byte)
  codes : List (List Nat)
  deriving DecidableEq, Repr

/-- A hank entry (R171). -/
structure HEntry where
  id : Nat
  delta : Bool
  score : F32
  shingle : Nat
  deriving DecidableEq, Repr

/-- A hank: the header of R172 and its entries. `res` is the sum of its reserved fields (bytes 18 to 19, 44 to 47,
58 to 63, flags [15:2] and home [15:12]), which a receiver checks to be 0 (R187). -/
structure Hank where
  name : QName
  shard : Nat
  level : Nat
  pass : Nat
  boundary : Nat
  nan : Nat
  low : Nat
  high : Nat
  items : Nat
  offered : Nat
  integrity : Bool
  missing : Bool
  digest : W64
  res : Nat
  entries : List HEntry
  deriving DecidableEq, Repr

/-- The query parameters that a dispatch carries (R139, R145). -/
structure QParams where
  tenant : Nat
  index : Nat
  k : Nat
  r : Nat
  p : Nat
  ceil : Nat
  prefilter : Nat
  filterMode : Nat
  filter : Nat
  bound : F32
  metric : Nat
  dim : Nat
  sign : Nat
  bulk : Bool
  widen : Bool
  deriving DecidableEq, Repr

/-- A dispatch (R145): the query's name, its parameters, its vector and the composition epoch. -/
structure Dispatch where
  name : QName
  shard : Nat
  par : QParams
  vec : List F32
  epoch : Nat
  deriving DecidableEq, Repr

/-- A step report (R156). -/
structure StepRep where
  name : QName
  shard : Nat
  step : Nat
  status : Nat
  pass : Nat
  deriving DecidableEq, Repr

/-- A re-rank candidate sent to the copy that supplied it (R160). -/
structure Cand where
  name : QName
  shard : Nat
  id : Nat
  delta : Bool
  shingle : Nat
  deriving DecidableEq, Repr

/-- A re-rank answer: a score, or none when the vector could not be read (R160, R161), and whether its stream was abandoned (R108). -/
structure CandScore where
  name : QName
  shard : Nat
  id : Nat
  score : Option F32
  integrity : Bool := false
  deriving DecidableEq, Repr

/-- The content of a filter bitmap (R152): base, bit count, outside rule, and the bits from the base on. -/
structure Bitmap where
  base : Nat
  count : Nat
  outside : Nat
  bits : List Bool
  deriving DecidableEq, Repr

/-- What the fetcher read of a streamed filter for one table slot (R154): the bitmap, whether its header could be
read, and the numbers of its 64-byte lines that were poisoned. -/
structure StreamRead where
  tslot : Nat
  map : Bitmap
  headerBad : Bool
  badLines : List Nat
  deriving DecidableEq, Repr

/-- What a spindle meets while an item runs: corrected and uncorrectable bobbin errors (R59), and the cycles for which it waited for the item's stream
(R56). -/
structure ItemEv where
  corrected : Nat
  bad : Bool
  stall : Nat
  deriving DecidableEq, Repr

/-- How an access ends (R56, R302): corrected errors, and the cycles for which the waiting spindle had no context to run. -/
structure AccessEnd where
  corrected : Nat
  stall : Nat
  deriving DecidableEq, Repr

/-- A request to steal (R63, R65): the thief, and the cycles since the tick. -/
structure StealReq where
  thief : Nat
  cycle : Nat
  deriving DecidableEq, Repr

/-- What a refetch took (R107, R56): the cycles since the detection, and those for which the spindle had no context to run. -/
structure RefetchWait where
  cycles : Nat
  stall : Nat
  deriving DecidableEq, Repr

/-- How a conversion item ran (R232): whether its input was unreadable, and what the spindle met meanwhile. -/
structure ConvRun where
  bad : Bool
  ev : ItemEv
  deriving DecidableEq, Repr

/-- How a tile item ran: the cycles stalled on weight data after the first 0x5000:0B cycles of the step (R242), and what the spindle met meanwhile. -/
structure TileRun where
  stall : Nat
  ev : ItemEv
  deriving DecidableEq, Repr

/-- How a gather item ran (R262): the item (a bag, or 64 consecutive entries when g = 1), and what the spindle met meanwhile. -/
structure BagRun where
  bag : Nat
  ev : ItemEv
  deriving DecidableEq, Repr

/-- A threshold compaction that an engine asks of the selection unit (R192): element format (0 F16, 1 F32, 2 I32), elements and threshold by their bits, and the
output limit. -/
structure Compaction where
  fmt : Nat
  xs : List (BitVec 32)
  t : BitVec 32
  limit : Nat
  deriving DecidableEq, Repr

/-- How an element item ran (R233): its context, what the spindle met meanwhile, and the compactions that the engine asks of the spindle with it (R192). -/
structure ElemRun where
  ctx : Nat
  ev : ItemEv
  comps : List Compaction
  deriving DecidableEq, Repr

/-- One placement choice of the planner (R148): a query of the pass and the spindles where it becomes resident. -/
structure Place where
  name : QName
  spindles : List Nat
  deriving DecidableEq, Repr

/-- What a coarse scan finds (R147, R148): where the planner makes the pass's queries resident, and by shingle number the deliveries of centroid shingles before
those of the thatch's own (R121). -/
structure ScanIn where
  plan : List Place
  wrong : List (Nat × List Shingle)
  deriving DecidableEq, Repr

/-! ### Thatches and updates -/

/-- The index descriptor (R195). `res` is the sum of the reserved fields. -/
structure IdxDesc where
  tenant : Nat
  index : Nat
  shards : Nat
  lists : Nat
  m : Nat
  shape : Nat
  d : Nat
  dim : Nat
  rr : Nat
  spill : Bool
  margin : F32
  deltaLimit : Nat
  deriving DecidableEq, Repr

/-- A descriptor as it is distributed (R195): its home node, and itself. -/
structure DescMsg where
  home : Nat
  desc : IdxDesc
  deriving DecidableEq, Repr

/-- Reports of staging that have reached the sequencer (R219): the index, and by shard a node that has staged it. -/
structure StagedReports where
  index : Nat
  reports : List (Nat × Nat)
  deriving DecidableEq, Repr

/-- What a publish decision says (R220, R223): the version, and a status other than 0 if the build or the publish has failed. -/
structure Verdict where
  version : Nat
  status : Nat
  deriving DecidableEq, Repr

/-- One part of a delta record (R206): the lists and codes under one thatch version. -/
structure DPart where
  version : Nat
  list : Nat
  spill : Nat
  codes : List Nat
  sign : List Byte
  deriving DecidableEq, Repr

/-- A delta record (R206). -/
structure DeltaRec where
  tenant : Nat
  index : Nat
  seq : Nat
  id : Nat
  op : Nat
  home : Nat
  ringSeq : Nat
  parts : List DPart
  vec : List Byte
  deriving DecidableEq, Repr

/-- A seal record (R208). -/
structure SealRec where
  tenant : Nat
  index : Nat
  tick : Nat
  first : Nat
  sealed : Nat
  count : Nat
  digest : W64
  live : Nat
  deriving DecidableEq, Repr

/-- An entry of the list table (R200, section 4). -/
structure ListRow where
  list : Nat
  first : Nat
  count : Nat
  items : Nat
  deriving DecidableEq, Repr

/-- An entry of the item map (R200, section 7). -/
structure ItemRow where
  id : Nat
  pos : Nat
  shingle : Nat
  addr : Nat
  deriving DecidableEq, Repr

/-- A thatch image of one shard (R199, R200): the header's fields, the reserved ones as one number, and the sections' contents. -/
structure Image where
  layout : Nat := 1
  sections : Nat := 7
  reserved : Nat := 0
  version : Nat
  index : Nat
  tenant : Nat
  shard : Nat
  shards : Nat
  lists : Nat
  m : Nat
  shape : Nat
  d : Nat
  dim : Nat
  rr : Nat
  kind : Nat
  fold : Nat
  items : Nat
  cbset : Nat
  margin : F32
  digest : List Byte
  codebook : List Nat
  centroids : List Nat
  listShard : List Nat
  listTable : List ListRow
  centShingles : List Shingle
  shingles : List Shingle
  itemMap : List ItemRow
  deriving DecidableEq, Repr

/-- An update on its way from the home to the sequencer (R205). -/
structure UpdReq where
  tenant : Nat
  index : Nat
  op : Nat
  id : Nat
  vec : List F32
  home : Nat
  ringSeq : Nat
  deriving DecidableEq, Repr

/-- A build on its way from the home to the sequencer (R216, R217), with the retrain inputs; `fold` is the fold sequence, once the
sequencer has set it. -/
structure BuildReq where
  tenant : Nat
  index : Nat
  kind : Nat
  lend : Nat
  publish : Nat
  home : Nat
  ringSeq : Nat
  codebook : List Nat
  centroids : List Nat
  listShard : List Nat
  margin : F32
  fold : Nat
  deriving DecidableEq, Repr

/-! ### Dense layers and embedding tables -/

/-- One block of a block-scaled stream as read: the header of R103, the scale record of R102 and the payload. -/
structure Block where
  header : Nat
  record : Nat
  payload : List Byte
  deriving DecidableEq, Repr

/-- How a block-scaled stream comes in (R106 to R109): the deliveries of a block before those that bring the stream's own, by block number; whether the check at
its end failed; and the cycles from the detection of mismatches to the end of their refetches. -/
structure StreamIn where
  wrong : List (Nat × List Block)
  endBad : Bool
  cycles : Nat
  deriving DecidableEq, Repr

/-- How the vector of a candidate was read (R133): whether it could not be, how its stream came in, and the spindle that scores it. -/
structure VectorRead where
  bad : Bool
  inp : StreamIn
  sp : Nat
  deriving DecidableEq, Repr

/-- What a retrain reads beside this Molset's own items (R218): the items of shards that it does not hold, with their re-rank vectors and addresses, and by
item ID how the stored vectors' streams came in (R133). -/
structure RetrainIn where
  extra : List (Nat × List Byte × Nat)
  inp : List (Nat × StreamIn)
  deriving DecidableEq, Repr

/-- What the merge of a step met (R270): the cycles waited for overlay room, and by row how the stored row's stream came in (R106 to R109). -/
structure MergeIn where
  waited : Nat
  inp : List (Nat × StreamIn)
  deriving DecidableEq, Repr

/-- What a mirror has written (R254, R271): the images of a step, or the staged rows of a shard (step 0). -/
structure MirrorDone where
  step : Nat
  shard : Nat
  deriving DecidableEq, Repr

/-- A row image (R252): the row slot's blocks or elements, the scale records and the channel exponent. -/
structure RowImg where
  data : List Byte
  scales : List Nat
  exp : Int
  deriving DecidableEq, Repr

/-- A contribution record (R268). -/
structure Contrib where
  tenant : Nat
  table : Nat
  step : Nat
  row : Nat
  node : Nat
  pos : Nat
  grad : List F32
  deriving DecidableEq, Repr

/-- A scatter summary (R268). -/
structure Summary where
  tenant : Nat
  table : Nat
  step : Nat
  node : Nat
  version : Nat
  eta : F32
  c : Nat
  count : Nat
  deriving DecidableEq, Repr

/-- A migration decision (R273). -/
structure Migration where
  tenant : Nat
  table : Nat
  a : Nat
  b : Nat
  rows : List Nat
  tick : Nat
  deriving DecidableEq, Repr

/-- An entry of an overlay chain: the step that made it, the tick from which it is visible, once sealed, and the image (R265). -/
structure ChainEnt where
  step : Nat
  v : Option Nat
  img : RowImg
  deriving DecidableEq, Repr

/-- One row on the move or on its way to a mirror: its number, base image and overlay chain (R271, R274). -/
structure RowState where
  row : Nat
  base : RowImg
  chain : List ChainEnt
  deriving DecidableEq, Repr

/-! ### Fabric -/

/-- An entry of the composition map (R365). -/
structure MapEntry where
  kind : Nat
  action : Nat
  tenant : Nat
  object : Nat
  shard : Nat
  a : Nat
  b : Nat
  c : Nat
  value : Nat
  deriving DecidableEq, Repr

/-- A map change or full map (R367). -/
structure MapChange where
  epoch : Nat
  eff : Nat
  origin : Nat
  digest : W64
  entries : List MapEntry
  deriving DecidableEq, Repr

/-- A link-state record (R347): one adjacency is (local port, peer port, peer node). -/
structure LinkRec where
  origin : Nat
  tray : Nat
  seq : Nat
  digest : List Byte
  adj : List (Nat × Nat × Nat)
  deriving DecidableEq, Repr

/-- A tick marker (R343), with its receive time `t4` and this Molset's own tick time, in 1/16 ns. -/
structure Marker where
  sender : Nat
  reference : Nat
  hops : Nat
  align : Nat
  tick : Nat
  t1 : Int
  t2 : Int
  t3 : Int
  phase : Int
  t4 : Int
  own : Int
  deriving DecidableEq, Repr

/-- A fault protocol message (R380). -/
structure FaultMsg where
  subtype : Nat
  code : Nat
  sender : Nat
  case : Nat
  s : Nat
  node : Nat
  partKind : Nat
  partNo : Nat
  verdict : Nat
  reference : Nat
  epoch : Nat
  d : Nat
  detail : Nat
  deriving DecidableEq, Repr

/-- A data flit as received (R337, R338): its sequence and what FEC and tag checks gave (R340, R341). -/
structure Flit where
  seq : Nat
  ack : Nat
  creditBuf : Nat
  credits : Nat
  fecOk : Bool
  corrected : Bool
  tagOk : Bool
  deriving DecidableEq, Repr

/-- A transport header (R352). -/
structure Packet where
  dst : Nat
  src : Nat
  tenant : Nat
  system : Bool
  kind : Nat
  hops : Nat
  cls : Nat
  roleRouted : Bool
  epoch : Nat
  seq : Nat
  ack : Nat
  len : Nat
  tag : Nat
  target : Nat
  deriving DecidableEq, Repr

/-- A flit of the host link (R426): type (0 idle, 1 data, 2 retry), sequence, and acknowledged sequence (a retry: the expected one). -/
structure HostFlit where
  ty : Nat
  seq : Nat
  ack : Nat
  deriving DecidableEq, Repr

/-- How the retraining of a module ends (R425): whether it carries flits, and whether with repaired lanes. -/
structure RetrainEnd where
  ok : Bool
  repaired : Bool
  deriving DecidableEq, Repr

/-- A memory operation (R356, R357): `op` 0 load, 8 store, 1 to 4 the atomics. -/
structure MemOp where
  src : Nat
  dst : Nat
  tenant : Nat
  system : Bool
  addr : Nat
  size : Nat
  op : Nat
  ty : Nat
  data : List Byte
  tag : Nat
  deriving DecidableEq, Repr

/-- A hello packet (R345). -/
structure Hello where
  node : Nat
  assigned : Bool
  tray : Nat
  fabric : Nat
  port : Nat
  digest : List Byte
  deriving DecidableEq, Repr

/-- A bounce (R374). -/
structure Bounce where
  src : Nat
  cls : Nat
  reason : Nat
  epoch : Nat
  tag : Nat
  seq : Nat
  redirect : Nat
  deriving DecidableEq, Repr

/-- What the peer sends in the securing exchange of a link (R476): its nonce, certificates, KEM public key, quote over this end's nonce and KEM
ciphertext, and the highest witnessed value of each of this end's counters (R481). -/
structure Securing where
  nonce : List Byte
  endorse : List Byte
  attest : List Byte
  kem : List Byte
  quote : List Byte
  ct : List Byte
  witnessed : List (Nat × Nat)
  deriving DecidableEq, Repr

/-- What the ends of a rekey have agreed (R477): this end's nonce, and the switch count that the peer names. -/
structure RekeyEnd where
  own : List Byte
  rxSwitch : Nat
  deriving DecidableEq, Repr

/-! ### Dictionary, security and host -/

/-- The value of a dictionary entry: a number of its type's width, or bytes (R489). -/
inductive DVal where
  | num (n : Nat)
  | bytes (b : List Byte)
  deriving DecidableEq, Repr

/-- A write as it reaches the dictionary: index, sub-index and the value's bytes (R489). -/
structure DWrite where
  index : Nat
  sub : Nat
  value : List Byte
  deriving DecidableEq, Repr

/-- A key record (R468). -/
structure KeyRecord where
  format : Nat
  tenant : Nat
  node : Nat
  res : Nat
  nonce : List Byte
  ct : List Byte
  wrapped : List Byte
  tag : List Byte
  deriving DecidableEq, Repr

/-- A DAP request datagram (R503). `res` is the sum of the reserved bits. -/
structure DapReq where
  port : Nat
  format : Nat
  op : Nat
  whole : Bool
  more : Bool
  client : Nat
  res : Nat
  target : Nat
  num : Nat
  nonce : List Byte
  index : Nat
  sub : Nat
  offset : Nat
  value : List Byte
  tag : List Byte
  deriving DecidableEq, Repr

/-- A dense layer's record in decoded form is read from memory (R228); a model entry carries none of it. A layer. -/
structure Layer where
  op : Nat
  inFmt : Nat
  outFmt : Nat
  fn : Nat
  inBuf : Nat
  in2 : Nat
  outBuf : Nat
  tier : Nat
  n : Nat
  l : Nat
  eps : F32
  param : Nat
  dataAddr : Nat
  scaleAddr : Nat
  blocks : Nat
  fmt : Nat
  tagBase : Nat
  chanLen : Nat
  expAddr : Nat
  res : Nat
  deriving DecidableEq, Repr

/-- What a tick finds: nanoseconds since the last tick, the excess of each edge step over its slot in cycles (R23),
the mean input power of the frame in W (R513), the temperatures read in m°C (R284, R552), and the slack measured in each
voltage domain in 0.1 ps (R532). -/
structure TickIn where
  ns : Nat
  excess : List Nat
  power : Nat
  temps : List (Nat × Option Int)
  slack : List (Nat × Int)
  deriving DecidableEq, Repr

/-- What the parameter page of a flash target says (R309, R310). -/
structure ParamPage where
  pageBytes : Nat
  spareBytes : Nat
  pages : Nat
  blocks : Nat
  luns : Nat
  planes : Nat
  cell : Nat
  retryLevels : Nat
  endurance : Nat
  suspend : Bool
  deriving DecidableEq, Repr

/-- What a start finds (R520): the three-reading sets of the strap; whether the PUF reconstructs; the security version of each firmware slot
that verifies; the outcome of the later boot stages; the firmware release, measurement registers and boot nonce (drawn at a cold start); the board channels
with the highest rate in MT/s at which they train, 0 for none; each DIMM (2c + s for DIMM s of channel c) with its capacity in GiB; the channels that hold a
refused DIMM; the
populated flash targets (channel × 8 + target) with their parameter pages; the UCIe modules with the highest rate in GT/s at which they train, 0 for none,
and those with repaired lanes; the input voltage, and POWER_FAIL_N. -/
structure BootIn where
  strap : List (List Nat)
  pufOk : Bool
  slotAOk : Option Nat
  slotBOk : Option Nat
  mainOk : Bool
  microOk : Bool
  confOk : Bool
  selfTestOk : Bool
  release : Nat
  mrs : List (List Byte)
  nonce : List Byte
  ddr : List (Nat × Nat)
  dimms : List (Nat × Nat)
  ddrRefused : List Nat
  flashTargets : List (Nat × ParamPage)
  ucie : List (Nat × Nat)
  repaired : List Nat := []
  inputMv : Nat
  powerFailHigh : Bool
  deriving DecidableEq, Repr

/-- The commands of the Molset: one constructor per row of the opcode table, named after its mnemonic. Each docstring
names the rule of the row and what the operands are; a cycle count or a nanosecond count is what the environment measures. -/
inductive Instr where
  /-- R22: the tick edge. -/
  | tick (t : TickIn)
  /-- R301, R28: the deadline of stage 1 to 4 (R49's counter numbers) passes for a query; cycles from the deadline to the
  completion of the earliest outstanding access. -/
  | stageDeadline (stage : Nat) (q : QName) (cycles : Nat)
  /-- R33: the carry limit passes for a skein. -/
  | frameOverrun (skein : Nat)
  /-- R37: period in µs and switch tick of one signed command. -/
  | periodChange (period switch : Nat)
  /-- R37: source node, period and switch tick. -/
  | periodChangeReceive (src period switch : Nat)
  /-- R38: the acknowledging peer. -/
  | periodChangeAck (src : Nat)
  /-- R38. -/
  | periodChangeCancel
  /-- R343: the marker. -/
  | tickMarker (m : Marker)
  /-- R41. -/
  | markerLost
  /-- R41. -/
  | alignmentLock
  /-- R42. -/
  | acquireTimeout
  /-- R41: the estimated holdover error in ns. -/
  | holdoverTimeout (err : Nat)
  /-- R41. -/
  | freeRunTimeout
  /-- R48: the value written to 0x2001:06. -/
  | clearPeakPhase (v : Nat)
  /-- R121: spindle, shingle slot and the shingle. -/
  | shingleArrival (sp slot : Nat) (sh : Shingle)
  /-- R151, R154: spindle, shingle slot, streamed filters read from their homes, lines of resident filters that were uncorrectable
  (table slot, line), and the cycles for which the spindle had no context to run meanwhile (R56). -/
  | filterWordsArrival (sp slot : Nat) (streamed : List StreamRead) (bad : List (Nat × Nat)) (stall : Nat)
  /-- R130: spindle, context, and what the spindle met meanwhile: corrected errors and an uncorrectable one (R59), cycles stalled (R56). -/
  | scoreItem (sp ctx corrected : Nat) (bad : Bool) (stall : Nat)
  /-- R56: access number, nanoseconds since issue, uncorrectable on first read and on reread, and how it ends. -/
  | accessComplete (id ns : Nat) (bad badAgain : Bool) (x : AccessEnd)
  /-- R63: thief, cycles since the tick. -/
  | stealRequest (thief cycle : Nat)
  /-- R64: thief, cycles since the tick. -/
  | stealRechoose (thief cycle : Nat)
  /-- R65: the request that the controller answers. -/
  | stealGrant (r : StealReq)
  /-- R67: number of the copy. -/
  | tableCopyDone (id : Nat)
  /-- R69. -/
  | redealOnSlotFree
  /-- R70: spindle. -/
  | zeroingDone (sp : Nat)
  /-- R72, R73: number of the page zeroing, pages whose write failed. -/
  | pageZeroingDone (id : Nat) (failed : List Nat)
  /-- R74: spindle. -/
  | roleChangeZeroing (sp : Nat)
  /-- R77: number of the check. -/
  | digestCompare (id : Nat)
  /-- R78: number of the check, and the third spindle, whose digest is here. -/
  | thirdDigestCompare (id third : Nat)
  /-- R107: spindle, context, the refetched block, and what the refetch took. -/
  | mismatchRefetchDone (sp ctx : Nat) (b : Block) (w : RefetchWait)
  /-- R146: skein, tenant, index and the builder spindle that the planner names. -/
  | buildPassClose (skein tenant index builder : Nat)
  /-- R146: as above. -/
  | passGatherTimeout (skein tenant index builder : Nat)
  /-- R122: number of the pass. -/
  | tableBuild (pass : Nat)
  /-- R147, R148: number of the pass, and what the scan finds. -/
  | coarseScan (pass : Nat) (x : ScanIn)
  /-- R160: the candidate. -/
  | rerankCandidate (c : Cand)
  /-- R133: the candidate, and how its vector was read. -/
  | rerankReadDone (c : Cand) (r : VectorRead)
  /-- R160. -/
  | rerankScoreReceive (a : CandScore)
  /-- R141: ring tenant, submission sequence, whether the entry was unreadable. -/
  | query (tenant seq : Nat) (bad : Bool)
  /-- R145: query index and whether the read met an uncorrectable error. -/
  | vectorReadDone (q : QName) (bad : Bool)
  /-- R145. -/
  | dispatch (d : Dispatch)
  /-- R153: tenant, handle, index, tick from which the content serves, content, cycles that items waited. -/
  | residentFilterCopy (tenant handle index tick : Nat) (map : Option Bitmap) (waited : Nat)
  /-- R157. -/
  | stepReport (r : StepRep)
  /-- R157: query and step. -/
  | widenDecision (q : QName) (step : Nat)
  /-- R157. -/
  | stopDecision (q : QName)
  /-- R160. -/
  | rerankDispatch (q : QName)
  /-- R162: query, whether a write of the result area met an uncorrectable error. -/
  | resultDelivery (q : QName) (bad : Bool)
  /-- R179: the hank, the die of its ply, the sending spindle or node. -/
  | hankArrival (h : Hank) (die src : Nat)
  /-- R178: query, die. -/
  | diePly (q : QName) (shard die : Nat)
  /-- R180: query, shard, whether the stage ended after its deadline (R28). -/
  | modulePly (q : QName) (shard : Nat) (late : Bool)
  /-- R178: query, whether the stage ended after its deadline. -/
  | fabricPly (q : QName) (late : Bool)
  /-- R189: query, whether the stage ended after its deadline. -/
  | rerankedPly (q : QName) (late : Bool)
  /-- R195: ring tenant, sequence, entry unreadable. -/
  | indexRegister (tenant seq : Nat) (bad : Bool)
  /-- R195: sender, and the descriptor with its home. -/
  | indexDescriptor (src : Nat) (m : DescMsg)
  /-- R195: answering node, tenant, index, whether it took a slot. -/
  | indexAck (src tenant index : Nat) (ok : Bool)
  /-- R204. -/
  | updateInsert (tenant seq : Nat) (bad : Bool)
  /-- R204. -/
  | updateDelete (tenant seq : Nat) (bad : Bool)
  /-- R205: ring tenant, sequence, read error. -/
  | updateVectorRead (tenant seq : Nat) (bad : Bool)
  /-- R205. -/
  | sequencerUpdate (u : UpdReq)
  /-- R205: sender and record. -/
  | deltaRecord (src : Nat) (r : DeltaRec)
  /-- R205: log holder that acknowledges, tenant, index, sequence. -/
  | deltaCommit (src tenant index seq : Nat)
  /-- R209: the record; the (ring sequence, delta sequence) pairs of this home's updates that it seals, and the (ring sequence, status)
  pairs of those that the sequencer refused (entry 16); cycles that items waited for it. -/
  | sealRecord (r : SealRec) (covers refused : List (Nat × Nat)) (waited : Nat)
  /-- R209: tenant, index and the fetched records. -/
  | logFetchDone (tenant index : Nat) (records : List DeltaRec) (seals : List SealRec)
  /-- R216. -/
  | buildFold (tenant seq : Nat) (bad : Bool)
  /-- R216. -/
  | buildRetrain (tenant seq : Nat) (bad : Bool)
  /-- R217. -/
  | buildReceive (b : BuildReq)
  /-- R218: tenant, index, shard; by item ID the flash addresses at which the vectors of delta items stand; what a retrain reads; the shingle counts of the
  lists of other shards (R200). -/
  | imageBuildDone (tenant index shard : Nat) (addrs : List (Nat × Nat)) (r : RetrainIn) (others : List (Nat × Nat))
  /-- R202: sender and image. -/
  | imageReceive (src : Nat) (im : Image)
  /-- R219, R220: tenant, and the reports of an index that have reached the sequencer. -/
  | allStaged (tenant : Nat) (r : StagedReports)
  /-- R220, R223: sender, tenant, index, publish tick, and what is decided. -/
  | publishDecision (src tenant index p : Nat) (v : Verdict)
  /-- R220. -/
  | publishAckTimeout (tenant index : Nat)
  /-- R230. -/
  | modelRegister (tenant seq : Nat) (bad : Bool)
  /-- R227. -/
  | modelRelease (tenant seq : Nat) (bad : Bool)
  /-- R244. -/
  | denseJob (tenant seq : Nat) (bad : Bool)
  /-- R237: job slot, whether the output area was unwritable. -/
  | stepDeal (job : Nat) (bad : Bool)
  /-- R232: spindle, context, and how the conversion ran. -/
  | conversionItem (sp ctx : Nat) (r : ConvRun)
  /-- R240: spindle, context, the blocks of the weight stream that were delivered otherwise than the stream has them (block number and
  block), whether the end-of-stream check failed (R109), and how the tile ran. -/
  | tileItem (sp ctx : Nat) (wrong : List (Nat × Block)) (endBad : Bool) (r : TileRun)
  /-- R233, R192: spindle, and how the item ran. -/
  | elementItem (sp : Nat) (r : ElemRun)
  /-- R241: job slot, layer, cycles past the due instant. -/
  | layerStaged (job layer late : Nat)
  /-- R250. -/
  | tableRegister (tenant seq : Nat) (bad : Bool)
  /-- R250. -/
  | tableRelease (tenant seq : Nat) (bad : Bool)
  /-- R254. -/
  | tableStage (tenant seq : Nat) (bad : Bool)
  /-- R254: tenant, table, shard. -/
  | shardStageDone (tenant table shard : Nat)
  /-- R255. -/
  | tableSwitch (tenant seq : Nat) (bad : Bool)
  /-- R255: coordinator, tenant, table, switch tick, version. -/
  | switchDecision (src tenant table p version : Nat)
  /-- R255. -/
  | switchAckTimeout (tenant table : Nat)
  /-- R258. -/
  | gather (tenant seq : Nat) (bad : Bool)
  /-- R262: job slot, and how the item ran. -/
  | gatherItem (job : Nat) (r : BagRun)
  /-- R259: job slot, index position, the row image that a home on another Molset answers, unreadable, view expired (R266), whether the check at the end of
  the stream failed (R109), cycles from the detection of a mismatch to the arrival of its refetch (R107). -/
  | rowLineArrival (job pos : Nat) (img : RowImg) (bad expired endBad : Bool) (refetch : Nat)
  /-- R259: die, cycles the read waited. -/
  | readSlotFree (die waited : Nat)
  /-- R266: reader node, tenant, table, row, skein, bulk class, cycles waited for a seal (R266) and for a hand-off (R276), operation tag and
  sequence of the packet that carries it. -/
  | rowRead (src tenant table row skein : Nat) (bulk : Bool) (sealWait moveWait tag seq : Nat)
  /-- R267. -/
  | scatter (tenant seq : Nat) (bad : Bool)
  /-- R268: job slot, list unreadable, gradients unreadable. -/
  | scatterSend (job : Nat) (badList badGrad : Bool)
  /-- R269: the record, whether the old home of a migrated row forwarded it (R275), sequence of the packet that carries it. -/
  | contributionRecord (r : Contrib) (forwarded : Bool) (seq : Nat)
  /-- R269. -/
  | scatterSummary (m : Summary)
  /-- R269: tenant, table, step, and the held counts that the other homes reported (home, count). -/
  | stepClose (tenant table step : Nat) (held : List (Nat × Nat))
  /-- R269: as above. -/
  | stepWaitTimeout (tenant table step : Nat) (held : List (Nat × Nat))
  /-- R270: tenant, table, step, participants whose records count (empty: all), the step's version and η, and what the merge met. -/
  | closeStepMerge (tenant table step : Nat) (only : List Nat) (version : Nat) (eta : F32) (m : MergeIn)
  /-- R254, R271: mirror, tenant, table, and what it has written. -/
  | mirrorAck (src tenant table : Nat) (w : MirrorDone)
  /-- R271, R275: home, tenant, table, step, the delegates that it names. -/
  | readyReceive (src tenant table step : Nat) (delegates : List Nat)
  /-- R271: tenant, table, step, visible tick, version, step incomplete; for a participant whose summary the coordinator refused, the status
  (0: taken). -/
  | stepSeal (tenant table step v version : Nat) (incomplete : Bool) (refused : Nat)
  /-- R266: tenant, table, row. -/
  | overlayWriteback (tenant table row : Nat)
  /-- R272. -/
  | loadWindowEnd
  /-- R273: home, tenant, table, load, its top rows with their lines. -/
  | loadReport (src tenant table load : Nat) (top : List (Nat × Nat))
  /-- R274. -/
  | migrationDecision (m : Migration)
  /-- R274: tenant, table, rows with their final images and chains, replica holders, cycles reads waited. -/
  | migrationHandoff (tenant table : Nat) (rows : List RowState) (holders : List (Nat × Nat)) (waited : Nat)
  /-- R275: tenant, table, step, records forwarded. -/
  | forwardComplete (tenant table step count : Nat)
  /-- R279: home, tenant, table, row. -/
  | replicaDrop (src tenant table row : Nat)
  /-- R279: holder, tenant, table, row. -/
  | replicaDropAck (src tenant table row : Nat)
  /-- R290. -/
  | regionAllocate (tenant seq : Nat) (bad : Bool)
  /-- R290. -/
  | regionFree (tenant seq : Nat) (bad : Bool)
  /-- R295. -/
  | regionMove (tenant seq : Nat) (bad : Bool)
  /-- R295: tenant, page number, the byte of the page in whose line the source read was uncorrectable, cycles that its waiting writes
  waited in all. -/
  | pageMove (tenant page : Nat) (bad : Option Nat) (waited : Nat)
  /-- R294: tenant, address, bytes written. -/
  | boardBlockWrite (tenant addr : Nat) (data : List Byte)
  /-- R294: tenant, page number. -/
  | boardPageRepack (tenant page : Nat)
  /-- R303: true for a board channel, false for a stack; its number. -/
  | tierPartFail (board : Bool) (n : Nat)
  /-- R306: window bit. -/
  | windowOpen (w : Nat)
  /-- R306: window bit. -/
  | windowClose (w : Nat)
  /-- R308: window bit. -/
  | housekeepingLimit (w : Nat)
  /-- R307: tenant, first logical block, block contents, window bits that allow the writer. -/
  | flashWrite (tenant block : Nat) (data : List (List Byte)) (windows : Nat)
  /-- R319: tenant, logical block, retry levels used, soft decode, decoded, tag valid, nanoseconds, suspended, latency class. -/
  | flashRead (tenant block retries : Nat) (soft ok tagOk : Bool) (ns : Nat) (suspended latency : Bool)
  /-- R318: map page, record page number, record version, tag valid, its entries. -/
  | coldMapRecord (page recPage version : Nat) (tagOk : Bool) (entries : List W64)
  /-- R318: map page. -/
  | coldMapTimeout (page : Nat)
  /-- R320: block, highest correction used in 1/256, whether retry or soft decode was needed. -/
  | disturbScan (block used : Nat) (ladder : Bool)
  /-- R320: block. -/
  | refresh (block : Nat)
  /-- R321. -/
  | slcFlush
  /-- R322. -/
  | reclaim
  /-- R323. -/
  | wearLevelling
  /-- R324: program number, success. -/
  | copyProgramDone (id : Nat) (ok : Bool)
  /-- R315. -/
  | journalPageProgrammed
  /-- R324: block, success. -/
  | eraseDone (block : Nat) (ok : Bool)
  /-- R326: tenant, byte address, byte length. -/
  | discard (tenant addr len : Nat)
  /-- R327. -/
  | directoryCheckpoint
  /-- R329: the count of programmed journal pages lost to a bad CRC. -/
  | powerLossRecovery (lostPages : Nat)
  /-- R335: port, kind. -/
  | portKind (port kind : Nat)
  /-- R342: port. -/
  | pcsLock (port : Nat)
  /-- R342: port. -/
  | trainingTimeout (port : Nat)
  /-- R342: port. -/
  | lockLoss (port : Nat)
  /-- R342: port. -/
  | silenceTimeout (port : Nat)
  /-- R476: port, the exchange, this end's nonce. -/
  | linkSecuring (port : Nat) (x : Securing) (own : List Byte)
  /-- R345: port, the packet. -/
  | hello (port : Nat) (h : Hello)
  /-- R340: port, the flit. -/
  | flit (port : Nat) (f : Flit)
  /-- R340: port, the sequence named. -/
  | retryRequest (port seq : Nat)
  /-- R347: port, the record. -/
  | linkStateRecord (port : Nat) (r : LinkRec)
  /-- R347. -/
  | linkStateRefresh
  /-- R347: origin. -/
  | linkStateExpiry (origin : Nat)
  /-- R349. -/
  | routeRecompute
  /-- R354: the header; the name of a request that it carries (R395). -/
  | packet (p : Packet) (name : Option (Nat × Nat))
  /-- R354: source, class. -/
  | ackDelay (src cls : Nat)
  /-- R355: destination, class, sequence. -/
  | resend (dst cls seq : Nat)
  /-- R360: tenant of the issuing work, issued by a protocol engine, role-routed (R371), the operation. -/
  | memoryOpIssue (work : Nat) (engine role : Bool) (op : MemOp)
  /-- R356. -/
  | load (op : MemOp) (bad badAgain : Bool)
  /-- R356. -/
  | store (op : MemOp)
  /-- R357. -/
  | fetchAdd (op : MemOp)
  /-- R357. -/
  | compareSwap (op : MemOp)
  /-- R357. -/
  | atomicMin (op : MemOp)
  /-- R357. -/
  | atomicMax (op : MemOp)
  /-- R361: source, tag, status, data. -/
  | loadResponse (src tag status : Nat) (data : List Byte)
  /-- R361: source, tag, status. -/
  | storeDone (src tag status : Nat)
  /-- R361: source, tag, status, old value. -/
  | atomicResponse (src tag status : Nat) (data : List Byte)
  /-- R362: operation tag. -/
  | deadTarget (dst tag : Nat)
  /-- R374. -/
  | bounce (b : Bounce)
  /-- R372: source, class, sequence. -/
  | behindHoldExpiry (src cls seq : Nat)
  /-- R368. -/
  | mapChange (c : MapChange)
  /-- R367: sender and change. -/
  | mapChangeReceive (src : Nat) (c : MapChange)
  /-- R367: sender and the full map. -/
  | fullMapFetchDone (src : Nat) (c : MapChange)
  /-- R368: acknowledging node, epoch. -/
  | mapAck (src epoch : Nat)
  /-- R368. -/
  | mapAckTimeout
  /-- R379. -/
  | faultReport (f : FaultMsg)
  /-- R381: the case. -/
  | caseOpen (case : Nat)
  /-- R381. -/
  | probeRequest (f : FaultMsg)
  /-- R381: the case. -/
  | witnessProbe (case : Nat)
  /-- R381. -/
  | probe (f : FaultMsg)
  /-- R381. -/
  | probeAnswer (f : FaultMsg)
  /-- R381. -/
  | vote (f : FaultMsg)
  /-- R381: the case. -/
  | votesDue (case : Nat)
  /-- R381: the case. -/
  | decide (case : Nat)
  /-- R383: the decision and its map change. -/
  | decision (f : FaultMsg) (c : Option MapChange)
  /-- R383. -/
  | decisionAck (f : FaultMsg)
  /-- R382: the case. -/
  | backupTakeover (case : Nat)
  /-- R385: the message and its HMAC. -/
  | managementCopy (f : FaultMsg) (mac : List Byte)
  /-- R386. -/
  | scoreWindow
  /-- R378: tray ID. -/
  | drainRequest (tray : Nat)
  /-- R390: tenant, index, shard. -/
  | respareImageDone (tenant index shard : Nat)
  /-- R390. -/
  | restoreReady (f : FaultMsg) (tenant index shard : Nat)
  /-- R391: tenant, index, shard, the image or none when unreadable. -/
  | restoreFromFlash (tenant index shard : Nat) (im : Option Image)
  /-- R396: sequence of the logged request. -/
  | ownershipQuery (req : Nat)
  /-- R396: the query; the state kind of R394, tenant, index or table, and name of the request that it asks about (R380's layout carries none). -/
  | ownershipQueryReceive (f : FaultMsg) (kind tenant object : Nat) (name : Nat × Nat)
  /-- R396: sequence of the logged request, the answering node, its tag. -/
  | ownershipAnswer (req src tag : Nat)
  /-- R398: cause, 7 fatal, 8 watchdog, 9 thermal. -/
  | fatalFault (cause : Nat)
  /-- R422: the value written to 0xB000:0C. -/
  | clearPeaks (v : Nat)
  /-- R425: module, and how its retraining ends. -/
  | ucieModuleRetrain (m : Nat) (r : RetrainEnd)
  /-- R426: module, whether the flit's CRC is right, the flit. -/
  | ucieFlit (m : Nat) (crcOk : Bool) (f : HostFlit)
  /-- R428: module, host address, length, tag, uncorrectable. -/
  | hostRead (m addr len tag : Nat) (bad badAgain : Bool)
  /-- R428: module, host address, data as it crosses the link, tag. -/
  | hostWrite (m addr : Nat) (data : List Byte) (tag : Nat)
  /-- R431: tag of the Molset-issued request, data. -/
  | hostMemoryCompletion (tag : Nat) (data : List Byte)
  /-- R521: what the warm reach measures. -/
  | hostLinkResetRequest (b : BootIn)
  /-- R441. -/
  | filterRegister (tenant seq : Nat) (bad : Bool)
  /-- R441. -/
  | filterReplace (tenant seq : Nat) (bad : Bool)
  /-- R441. -/
  | filterRelease (tenant seq : Nat) (bad : Bool)
  /-- R449. -/
  | mailboxRead (seq : Nat) (bad : Bool)
  /-- R449. -/
  | mailboxWrite (seq : Nat) (bad badBuf : Bool)
  /-- R449. -/
  | mailboxSignedCommand (seq : Nat) (bad badBuf : Bool)
  /-- R490: the write, and whether it arrives in a signed command. -/
  | registerWrite (w : DWrite) (signed : Bool)
  /-- R494. -/
  | saveSettings
  /-- R494. -/
  | discardSettings
  /-- R503. -/
  | dapRead (d : DapReq)
  /-- R503. -/
  | dapWrite (d : DapReq)
  /-- R503. -/
  | dapSignedCommand (d : DapReq)
  /-- R503. -/
  | dapHello (d : DapReq)
  /-- R460: offset and data. -/
  | firmwareImagePiece (off : Nat) (data : List Byte)
  /-- R460: the failing stage, 0 if the slot verifies. -/
  | firmwareActivate (fail : Nat)
  /-- R462: slot, nonce, tenant. -/
  | quoteRequest (slot : Nat) (nonce : List Byte) (tenant : Nat)
  /-- R462: slot. -/
  | quoteReady (slot : Nat)
  /-- R466: the record, whether it came inside an operator-signed command. -/
  | operatorKeyRecord (r : KeyRecord) (signed : Bool)
  /-- R466. -/
  | dapKeyRecord (r : KeyRecord)
  /-- R468. -/
  | tenantKeyRecord (r : KeyRecord)
  /-- R467: tenant. -/
  | tenantCreate (t : Nat)
  /-- R467: tenant. -/
  | enterService (t : Nat)
  /-- R472: tenant. -/
  | teardown (t : Nat)
  /-- R472: tenant. -/
  | forcedTeardown (t : Nat)
  /-- R467: tenant. -/
  | tenantRelease (t : Nat)
  /-- R472: tenant. -/
  | teardownComplete (t : Nat)
  /-- R477: port, the exchange, and what the ends have agreed. -/
  | rekey (port : Nat) (x : Securing) (r : RekeyEnd)
  /-- R477: port. -/
  | rekeyTimeout (port : Nat)
  /-- R478: epoch, key, tick from which it is used. -/
  | managementKey (epoch : Nat) (k : List Byte) (from_ : Nat)
  /-- R480: counter and new value. -/
  | counterAdvance (n v : Nat)
  /-- R480: peer, counter, value. -/
  | witnessRequest (src n v : Nat)
  /-- R480: witness, counter. -/
  | witnessAck (src n : Nat)
  /-- R479: new floor. -/
  | raiseFloor (v : Nat)
  /-- R482: check code 1, 2, 4 or 5, and whether it failed. -/
  | runtimeCheck (code : Nat) (failed : Bool)
  /-- R482. -/
  | glitchDetected
  /-- R511. -/
  | coldStart (b : BootIn)
  /-- R511: input in mV. -/
  | inputTrip (mv : Nat)
  /-- R511: input in mV. -/
  | inputExcursion (mv : Nat)
  /-- R516. -/
  | powerFail
  /-- R516: whether the input is present. -/
  | holdUpEnd (present : Bool)
  /-- R518. -/
  | moduleReset (b : BootIn)
  /-- R518. -/
  | sidebandResetRequest (b : BootIn)
  /-- R518. -/
  | warmResetCommand (b : BootIn)
  /-- R518. -/
  | powerCycleCommand (b : BootIn)
  /-- R518. -/
  | watchdogExpiry
  /-- R522: sub-index of the sensor and its reading in m°C. -/
  | thermalTrip (sensor : Nat) (reading : Int)
  /-- R522. -/
  | thermalHoldExit
  /-- R521. -/
  | fatalResetTimeout (b : BootIn)
  /-- R527. -/
  | trayUnseated
  /-- R527. -/
  | boardThermalAlert (asserted : Bool)
  /-- R527: timer. -/
  | sidebandTimer (t : Nat)
  /-- R527: value of 0xD200:25. -/
  | locate (v : Nat)
  /-- R528: sub-index of 0xD100 and the mask. -/
  | perBlockReset (sub mask : Nat)
  /-- R530: monitor slacks (sub-index, 0.1 ps) and oscillator frequencies (sub-index, kHz). -/
  | monitorSample (slack : List (Nat × Int)) (freq : List (Nat × Nat))
  /-- R531. -/
  | replan
  /-- R531: value written to 0xD300:07. -/
  | replanRequest (v : Nat)
  /-- R535: value written to 0xD000:0A. -/
  | clearPeakPower (v : Nat)
  /-- R552: sub-index of the sensor. -/
  | sensorSilent (sensor : Nat)
  /-- R220: acknowledging node, tenant, index, shard, its shingle count. -/
  | publishAck (src tenant index shard shingles : Nat)
  /-- R255: acknowledging node, tenant, table. -/
  | switchAck (src tenant table : Nat)
  /-- R271: home, tenant, table, step (0 for staged rows), rows. -/
  | mirrorImages (src tenant table step version : Nat) (rows : List RowState)
  /-- R274: tenant, table, rows. -/
  | warmCopy (tenant table : Nat) (rows : List RowState)
  /-- R187: asking node, query, shard. -/
  | hankResendRequest (src : Nat) (q : QName) (shard pass : Nat)
  /-- R202: receiver, tenant, index, shard. -/
  | imageResendRequest (src tenant index shard : Nat)
  /-- R209: asking node, tenant, index, first and last sequence. -/
  | logFetchRequest (src tenant index first last : Nat)
  /-- R367: asking node. -/
  | mapFetchRequest (src : Nat)
  /-- R277: home, tenant, table, row, view tick, image. -/
  | replicaReceive (src tenant table row view : Nat) (img : RowImg)
  /-- R315: program number, success. -/
  | pageProgramDone (id : Nat) (ok : Bool)
  /-- R309: flash channel. -/
  | flashChannelRetrain (ch : Nat)
  deriving DecidableEq, Repr

end Sys2Proof
end

