-- ==== Sys2Proof/WellFormed.lean ====
section
/-! DEFINITION. Which commands are well formed: every operand lies in the range that the spec gives the thing that it names. A command that is not names
something that the part does not have; the meanings leave the state as it is for most of them (entry 3), and no rule speaks of them. -/

namespace Sys2Proof

/-- A threshold compaction (R192): its format, 1 to 2^24 elements of that format, and the output limit. -/
def compOk (c : Compaction) : Bool :=
  let elemOk (x : BitVec 32) : Bool := c.fmt != 0 || x.toNat < 65536
  c.fmt ≤ 2 && 1 ≤ c.xs.length && c.xs.length ≤ 2 ^ 24 && c.xs.all elemOk && elemOk c.t && 1 ≤ c.limit && c.limit ≤ 2 ^ 24

/-- A node ID has 12 bits (R344, R352). -/
def nodeOk (n : Nat) : Bool := n < 4096

/-- A tenant ID has 10 bits (R352). -/
def tenantOk (t : Nat) : Bool := t < 1024

/-- An owner of memory: a tenant, or the system (R448). -/
def ownerOk (t : Nat) : Bool := t ≤ 1024

/-- A spindle's global number (R51). -/
def spindleOk (n : Nat) : Bool := n < 384

/-- A hardware context (R54). -/
def ctxOk (n : Nat) : Bool := n < 8

/-- A shingle slot (R57). -/
def shSlotOk (n : Nat) : Bool := n < 4

/-- A die with spindles (R51). -/
def dieOk (n : Nat) : Bool := n < 2

/-- A U16: an index, table, shard or version number (R195, R250). -/
def u16Ok (n : Nat) : Bool := n < 65536

/-- A U32 (R153, R367). -/
def u32Ok (n : Nat) : Bool := n < 2 ^ 32

/-- A U64: ticks, sequences and rows (R46, R205, R250). -/
def u64Ok (n : Nat) : Bool := n < 2 ^ 64

/-- A ring sequence counts from 1 (R435). -/
def ringSeqOk (n : Nat) : Bool := 1 ≤ n && n < 2 ^ 64

/-- A job slot: 1,024 dense (R244), 2,048 gather and scatter (R258). -/
def jobOk (n : Nat) : Bool := n < 2048

/-- A fabric port (R335). -/
def portOk (n : Nat) : Bool := n < 16

/-- A traffic class (R352). -/
def clsOk (n : Nat) : Bool := n < 4

/-- A UCIe module (R425). -/
def moduleOk (n : Nat) : Bool := n < 4

/-- A write window (R306). -/
def windowOk (n : Nat) : Bool := n < 4

/-- A stage of R26 by its counter number (R49). -/
def stageOk (n : Nat) : Bool := 1 ≤ n && n ≤ 4

/-- A local address has 48 bits (R287). -/
def addrOk (n : Nat) : Bool := n < 2 ^ 48

/-- An item ID has 48 bits (R171). -/
def itemOk (n : Nat) : Bool := n < 2 ^ 48

/-- A temperature sensor (R536). -/
def sensorOk (n : Nat) : Bool := 1 ≤ n && n ≤ 33

/-- A query's name (R143). -/
def QName.wf (q : QName) : Bool := nodeOk q.home && u64Ok q.skein && q.qidx < 8192

/-- A hank (R172): its entries and its level. -/
def Hank.wf (h : Hank) : Bool := h.name.wf && u16Ok h.shard && h.level ≤ 3 && h.entries.all fun e => itemOk e.id && u32Ok e.shingle

/-- A memory operation (R356, R357): operation code, type and size. -/
def MemOp.wf (o : MemOp) : Bool :=
  nodeOk o.src && nodeOk o.dst && tenantOk o.tenant && addrOk o.addr && u16Ok o.tag &&
  match o.op with
  | 0 => [8, 16, 32, 64].contains o.size
  | 8 => [8, 16, 32, 64].contains o.size
  | 1 => o.size == 8 && o.ty == 0
  | 2 => (o.size == 8 || o.size == 16) && o.ty == 0
  | 3 => (o.size == 8 && o.ty ≤ 1) || (o.size == 16 && o.ty == 2)
  | 4 => (o.size == 8 && o.ty ≤ 1) || (o.size == 16 && o.ty == 2)
  | _ => false

/-- A transport header (R352). -/
def Packet.wf (p : Packet) : Bool :=
  nodeOk p.dst && nodeOk p.src && tenantOk p.tenant && p.kind < 256 && p.hops < 16 && clsOk p.cls && u32Ok p.epoch && u32Ok p.seq && u32Ok p.ack &&
  u16Ok p.len && u16Ok p.tag

/-- A fault protocol message (R380). -/
def FaultMsg.wf (f : FaultMsg) : Bool :=
  1 ≤ f.subtype && f.subtype ≤ 10 && nodeOk f.sender && u32Ok f.case && u64Ok f.s && nodeOk f.node && f.partKind ≤ 8 && f.partNo < 4096 && u16Ok f.reference

/-- A data flit: sequence and ack have 12 bits (R338). -/
def Flit.wf (f : Flit) : Bool := f.seq < 4096 && f.ack < 4096 && f.creditBuf < 32 && f.credits < 2048

/-- A write: its index, sub-index and a value that its length field can tell (R485, R489). -/
def DWrite.wf (w : DWrite) : Bool := u16Ok w.index && w.sub < 256 && w.value.length < 65536

/-- A DAP request arrives on one of the two SGMII ports, with a value that its length field can tell (R502, R503). -/
def DapReq.wf (d : DapReq) : Bool := d.port < 2 && u16Ok d.client && u16Ok d.target && u64Ok d.num && u16Ok d.index && d.sub < 256 && u32Ok d.value.length

/-- A key record's fields (R468). -/
def KeyRecord.wf (r : KeyRecord) : Bool := u16Ok r.tenant && u16Ok r.node && r.tag.length == 16

/-- A map change: its entries name nodes or 0xFFFF, and its epoch is a U32 (R365, R367). -/
def MapChange.wf (c : MapChange) : Bool :=
  u32Ok c.epoch && u64Ok c.eff && c.entries.all fun e => e.kind < 256 && u16Ok e.a && u16Ok e.b && u16Ok e.c && e.value < 256

/-- A row image: its channel exponent is an I8 (R252). -/
def RowImg.wf (r : RowImg) : Bool := decide (-128 ≤ r.exp) && decide (r.exp ≤ 127)

/-- What a start finds (R520, R525): each strap set has readings of 8 bits or more out of range, three sets at least. -/
def BootIn.wf (b : BootIn) : Bool := 3 ≤ b.strap.length && b.nonce.length == 16

/-- The well-formed commands. -/
def Instr.wf (i : Instr) : Bool :=
  match i with
  | .tick t => t.excess.length ≤ 9
  | .stageDeadline stage q _ => stageOk stage && q.wf
  | .frameOverrun skein => u64Ok skein
  | .periodChange period switch => u64Ok switch && u32Ok period
  | .periodChangeReceive src _ switch => nodeOk src && u64Ok switch
  | .periodChangeAck src => nodeOk src
  | .periodChangeCancel => true
  | .tickMarker m => nodeOk m.sender && nodeOk m.reference && u64Ok m.tick
  | .markerLost => true
  | .alignmentLock => true
  | .acquireTimeout => true
  | .holdoverTimeout _ => true
  | .freeRunTimeout => true
  | .clearPeakPhase _ => true
  | .shingleArrival sp slot _ => spindleOk sp && shSlotOk slot
  | .filterWordsArrival sp slot _ _ _ => spindleOk sp && shSlotOk slot
  | .scoreItem sp ctx _ _ _ => spindleOk sp && ctxOk ctx
  | .accessComplete _ _ _ _ _ => true
  | .stealRequest thief _ => spindleOk thief
  | .stealRechoose thief _ => spindleOk thief
  | .stealGrant r => spindleOk r.thief
  | .tableCopyDone _ => true
  | .redealOnSlotFree => true
  | .zeroingDone sp => spindleOk sp
  | .pageZeroingDone _ _ => true
  | .roleChangeZeroing sp => spindleOk sp
  | .digestCompare _ => true
  | .thirdDigestCompare _ third => spindleOk third
  | .mismatchRefetchDone sp ctx _ _ => spindleOk sp && ctxOk ctx
  | .buildPassClose skein tenant index builder => u64Ok skein && tenantOk tenant && u16Ok index && spindleOk builder
  | .passGatherTimeout skein tenant index builder => u64Ok skein && tenantOk tenant && u16Ok index && spindleOk builder
  | .tableBuild _ => true
  | .coarseScan _ _ => true
  | .rerankCandidate c => c.name.wf && u16Ok c.shard && itemOk c.id
  | .rerankReadDone c _ => c.name.wf && u16Ok c.shard && itemOk c.id
  | .rerankScoreReceive a => a.name.wf && u16Ok a.shard && itemOk a.id
  | .query tenant seq _ => tenantOk tenant && ringSeqOk seq
  | .vectorReadDone q _ => q.wf
  | .dispatch d => d.name.wf && u16Ok d.shard
  | .residentFilterCopy tenant handle index at_ _ _ => tenantOk tenant && u32Ok handle && u16Ok index && u64Ok at_
  | .stepReport r => r.name.wf && u16Ok r.shard
  | .widenDecision q _ => q.wf
  | .stopDecision q => q.wf
  | .rerankDispatch q => q.wf
  | .resultDelivery q _ => q.wf
  | .hankArrival h die src => h.wf && dieOk die && nodeOk src
  | .diePly q shard die => q.wf && u16Ok shard && dieOk die
  | .modulePly q shard _ => q.wf && u16Ok shard
  | .fabricPly q _ => q.wf
  | .rerankedPly q _ => q.wf
  | .indexRegister tenant seq _ => tenantOk tenant && ringSeqOk seq
  | .indexDescriptor src m => nodeOk src && nodeOk m.home && tenantOk m.desc.tenant && u16Ok m.desc.index
  | .indexAck src tenant index _ => nodeOk src && tenantOk tenant && u16Ok index
  | .updateInsert tenant seq _ => tenantOk tenant && ringSeqOk seq
  | .updateDelete tenant seq _ => tenantOk tenant && ringSeqOk seq
  | .updateVectorRead tenant seq _ => tenantOk tenant && ringSeqOk seq
  | .sequencerUpdate u => tenantOk u.tenant && u16Ok u.index && itemOk u.id && nodeOk u.home
  | .deltaRecord src r => nodeOk src && tenantOk r.tenant && u16Ok r.index && itemOk r.id && nodeOk r.home
  | .deltaCommit src tenant index seq => nodeOk src && tenantOk tenant && u16Ok index && u64Ok seq
  | .sealRecord r _ _ _ => tenantOk r.tenant && u16Ok r.index && u64Ok r.tick
  | .logFetchDone tenant index _ _ => tenantOk tenant && u16Ok index
  | .buildFold tenant seq _ => tenantOk tenant && ringSeqOk seq
  | .buildRetrain tenant seq _ => tenantOk tenant && ringSeqOk seq
  | .buildReceive b => tenantOk b.tenant && u16Ok b.index && nodeOk b.home
  | .imageBuildDone tenant index shard _ _ _ => tenantOk tenant && u16Ok index && u16Ok shard
  | .imageReceive src im => nodeOk src && tenantOk im.tenant && u16Ok im.index && u16Ok im.shard
  | .allStaged tenant r => tenantOk tenant && u16Ok r.index
  | .publishDecision src tenant index p v => nodeOk src && tenantOk tenant && u16Ok index && u64Ok p && u16Ok v.version
  | .publishAckTimeout tenant index => tenantOk tenant && u16Ok index
  | .modelRegister tenant seq _ => tenantOk tenant && ringSeqOk seq
  | .modelRelease tenant seq _ => tenantOk tenant && ringSeqOk seq
  | .denseJob tenant seq _ => tenantOk tenant && ringSeqOk seq
  | .stepDeal job _ => jobOk job
  | .conversionItem sp ctx _ => spindleOk sp && ctxOk ctx
  | .tileItem sp ctx _ _ _ => spindleOk sp && ctxOk ctx
  | .elementItem sp r => spindleOk sp && ctxOk r.ctx && r.comps.all compOk
  | .layerStaged job _ _ => jobOk job
  | .tableRegister tenant seq _ => tenantOk tenant && ringSeqOk seq
  | .tableRelease tenant seq _ => tenantOk tenant && ringSeqOk seq
  | .tableStage tenant seq _ => tenantOk tenant && ringSeqOk seq
  | .shardStageDone tenant table shard => tenantOk tenant && u16Ok table && u16Ok shard
  | .tableSwitch tenant seq _ => tenantOk tenant && ringSeqOk seq
  | .switchDecision src tenant table p version => nodeOk src && tenantOk tenant && u16Ok table && u64Ok p && u16Ok version
  | .switchAckTimeout tenant table => tenantOk tenant && u16Ok table
  | .gather tenant seq _ => tenantOk tenant && ringSeqOk seq
  | .gatherItem job _ => jobOk job
  | .rowLineArrival job _ img _ _ _ _ => jobOk job && img.wf
  | .readSlotFree die _ => dieOk die
  | .rowRead src tenant table row skein _ _ _ _ seq => nodeOk src && tenantOk tenant && u16Ok table && u64Ok row && u64Ok skein && u64Ok seq
  | .scatter tenant seq _ => tenantOk tenant && ringSeqOk seq
  | .scatterSend job _ _ => jobOk job
  | .contributionRecord r _ seq => u64Ok seq && tenantOk r.tenant && u16Ok r.table && u64Ok r.row && nodeOk r.node
  | .scatterSummary m => tenantOk m.tenant && u16Ok m.table && nodeOk m.node
  | .stepClose tenant table _ _ => tenantOk tenant && u16Ok table
  | .stepWaitTimeout tenant table _ _ => tenantOk tenant && u16Ok table
  | .closeStepMerge tenant table _ _ version _ _ => tenantOk tenant && u16Ok table && u16Ok version
  | .mirrorAck src tenant table _ => nodeOk src && tenantOk tenant && u16Ok table
  | .readyReceive src tenant table _ _ => nodeOk src && tenantOk tenant && u16Ok table
  | .stepSeal tenant table _ _ version _ _ => tenantOk tenant && u16Ok table && u16Ok version
  | .overlayWriteback tenant table row => tenantOk tenant && u16Ok table && u64Ok row
  | .loadWindowEnd => true
  | .loadReport src tenant table _ _ => nodeOk src && tenantOk tenant && u16Ok table
  | .migrationDecision m => tenantOk m.tenant && u16Ok m.table && nodeOk m.a && nodeOk m.b
  | .migrationHandoff tenant table _ _ _ => tenantOk tenant && u16Ok table
  | .forwardComplete tenant table _ _ => tenantOk tenant && u16Ok table
  | .replicaDrop src tenant table row => nodeOk src && tenantOk tenant && u16Ok table && u64Ok row
  | .replicaDropAck src tenant table row => nodeOk src && tenantOk tenant && u16Ok table && u64Ok row
  | .regionAllocate tenant seq _ => tenantOk tenant && ringSeqOk seq
  | .regionFree tenant seq _ => tenantOk tenant && ringSeqOk seq
  | .regionMove tenant seq _ => tenantOk tenant && ringSeqOk seq
  | .pageMove tenant _ _ _ => ownerOk tenant
  | .boardBlockWrite tenant addr _ => ownerOk tenant && addrOk addr
  | .boardPageRepack tenant _ => ownerOk tenant
  | .tierPartFail board n => n < (if board then 8 else 12)
  | .windowOpen w => windowOk w
  | .windowClose w => windowOk w
  | .housekeepingLimit w => windowOk w
  | .flashWrite tenant _ _ _ => tenantOk tenant
  | .flashRead tenant _ _ _ _ _ _ _ _ => tenantOk tenant
  | .coldMapRecord _ _ version _ _ => u16Ok version
  | .coldMapTimeout _ => true
  | .disturbScan _ _ _ => true
  | .refresh _ => true
  | .slcFlush => true
  | .reclaim => true
  | .wearLevelling => true
  | .copyProgramDone _ _ => true
  | .journalPageProgrammed => true
  | .eraseDone _ _ => true
  | .discard tenant addr _ => tenantOk tenant && addrOk addr
  | .directoryCheckpoint => true
  | .powerLossRecovery _ => true
  | .portKind port kind => portOk port && kind < 4
  | .pcsLock port => portOk port
  | .trainingTimeout port => portOk port
  | .lockLoss port => portOk port
  | .silenceTimeout port => portOk port
  | .linkSecuring port _ _ => portOk port
  | .hello port h => portOk port && nodeOk h.node && portOk h.port
  | .flit port f => portOk port && f.wf
  | .retryRequest port seq => portOk port && u64Ok seq
  | .linkStateRecord port r => portOk port && nodeOk r.origin
  | .linkStateRefresh => true
  | .linkStateExpiry origin => nodeOk origin
  | .routeRecompute => true
  | .packet p _ => p.wf
  | .ackDelay src cls => nodeOk src && clsOk cls
  | .resend dst cls seq => nodeOk dst && clsOk cls && u64Ok seq
  | .memoryOpIssue work _ _ op => ownerOk work && op.wf
  | .load op _ _ => op.wf
  | .store op => op.wf
  | .fetchAdd op => op.wf
  | .compareSwap op => op.wf
  | .atomicMin op => op.wf
  | .atomicMax op => op.wf
  | .loadResponse src _ _ _ => nodeOk src
  | .storeDone src _ _ => nodeOk src
  | .atomicResponse src _ _ _ => nodeOk src
  | .deadTarget dst _ => nodeOk dst
  | .bounce b => nodeOk b.src && clsOk b.cls && 1 ≤ b.reason && b.reason ≤ 3
  | .behindHoldExpiry src cls seq => nodeOk src && clsOk cls && u64Ok seq
  | .mapChange c => c.wf
  | .mapChangeReceive src c => nodeOk src && c.wf
  | .fullMapFetchDone src c => nodeOk src && c.wf
  | .mapAck src epoch => nodeOk src && u32Ok epoch
  | .mapAckTimeout => true
  | .faultReport f => f.wf
  | .caseOpen case => u32Ok case
  | .probeRequest f => f.wf
  | .witnessProbe case => u32Ok case
  | .probe f => f.wf
  | .probeAnswer f => f.wf
  | .vote f => f.wf
  | .votesDue case => u32Ok case
  | .decide case => u32Ok case
  | .decision f c => f.wf && (match c with | some c => c.wf | none => true)
  | .decisionAck f => f.wf
  | .backupTakeover case => u32Ok case
  | .managementCopy f _ => f.wf
  | .scoreWindow => true
  | .drainRequest tray => u32Ok tray
  | .respareImageDone tenant index shard => tenantOk tenant && u16Ok index && u16Ok shard
  | .restoreReady f tenant index shard => f.wf && tenantOk tenant && u16Ok index && u16Ok shard
  | .restoreFromFlash tenant index shard _ => tenantOk tenant && u16Ok index && u16Ok shard
  | .ownershipQuery _ => true
  | .ownershipQueryReceive f _ tenant _ _ => f.wf && tenantOk tenant
  | .ownershipAnswer _ src _ => nodeOk src
  | .fatalFault cause => (cause == 7 || cause == 8 || cause == 9)
  | .clearPeaks _ => true
  | .ucieModuleRetrain m _ => moduleOk m
  | .ucieFlit m _ f => moduleOk m && f.ty < 16 && f.seq < 4096 && f.ack < 4096
  | .hostRead m addr _ _ _ _ => moduleOk m && u64Ok addr
  | .hostWrite m addr _ _ => moduleOk m && u64Ok addr
  | .hostMemoryCompletion _ _ => true
  | .hostLinkResetRequest b => b.wf
  | .filterRegister tenant seq _ => tenantOk tenant && ringSeqOk seq
  | .filterReplace tenant seq _ => tenantOk tenant && ringSeqOk seq
  | .filterRelease tenant seq _ => tenantOk tenant && ringSeqOk seq
  | .mailboxRead seq _ => ringSeqOk seq
  | .mailboxWrite seq _ _ => ringSeqOk seq
  | .mailboxSignedCommand seq _ _ => ringSeqOk seq
  | .registerWrite w _ => w.wf
  | .saveSettings => true
  | .discardSettings => true
  | .dapRead d => d.wf
  | .dapWrite d => d.wf
  | .dapSignedCommand d => d.wf
  | .dapHello d => d.wf
  | .firmwareImagePiece _ _ => true
  | .firmwareActivate _ => true
  | .quoteRequest slot nonce tenant => u16Ok tenant && 1 ≤ slot && slot ≤ 16 && nonce.length == 32
  | .quoteReady slot => 1 ≤ slot && slot ≤ 16
  | .operatorKeyRecord r _ => r.wf
  | .dapKeyRecord r => r.wf
  | .tenantKeyRecord r => r.wf
  | .tenantCreate t => tenantOk t
  | .enterService t => tenantOk t
  | .teardown t => tenantOk t
  | .forcedTeardown t => tenantOk t
  | .tenantRelease t => tenantOk t
  | .teardownComplete t => tenantOk t
  | .rekey port _ r => portOk port && u64Ok r.rxSwitch
  | .rekeyTimeout port => portOk port
  | .managementKey epoch k _ => u32Ok epoch && k.length == 32
  | .counterAdvance i _ => 1 ≤ i && i ≤ 3
  | .witnessRequest src i _ => nodeOk src && 1 ≤ i && i ≤ 3
  | .witnessAck src i => nodeOk src && 1 ≤ i && i ≤ 3
  | .raiseFloor _ => true
  | .runtimeCheck code _ => [1, 2, 4, 5].contains code
  | .glitchDetected => true
  | .coldStart b => b.wf
  | .inputTrip _ => true
  | .inputExcursion _ => true
  | .powerFail => true
  | .holdUpEnd _ => true
  | .moduleReset b => b.wf
  | .sidebandResetRequest b => b.wf
  | .warmResetCommand b => b.wf
  | .powerCycleCommand b => b.wf
  | .watchdogExpiry => true
  | .thermalTrip sensor _ => sensorOk sensor
  | .thermalHoldExit => true
  | .fatalResetTimeout b => b.wf
  | .trayUnseated => true
  | .boardThermalAlert _ => true
  | .sidebandTimer t => t < 4
  | .locate v => v ≤ 1
  | .perBlockReset sub mask => 1 ≤ sub && sub ≤ 6 && u32Ok mask
  | .monitorSample _ _ => true
  | .replan => true
  | .replanRequest _ => true
  | .clearPeakPower _ => true
  | .sensorSilent sensor => sensorOk sensor
  | .publishAck src tenant index shard _ => nodeOk src && tenantOk tenant && u16Ok index && u16Ok shard
  | .switchAck src tenant table => nodeOk src && tenantOk tenant && u16Ok table
  | .mirrorImages src tenant table _ version _ => nodeOk src && tenantOk tenant && u16Ok table && u16Ok version
  | .warmCopy tenant table _ => tenantOk tenant && u16Ok table
  | .hankResendRequest src q shard _ => nodeOk src && q.wf && u16Ok shard
  | .imageResendRequest src tenant index shard => nodeOk src && tenantOk tenant && u16Ok index && u16Ok shard
  | .logFetchRequest src tenant index _ _ => nodeOk src && tenantOk tenant && u16Ok index
  | .mapFetchRequest src => nodeOk src
  | .replicaReceive src tenant table row _ img => nodeOk src && tenantOk tenant && u16Ok table && u64Ok row && img.wf
  | .pageProgramDone _ _ => true
  | .flashChannelRetrain ch => ch < 32

end Sys2Proof
end

