-- ==== Sys2Proof/Decode.lean ====
section
/-! DEFINITION. The words of the opcode table. The table gives no row any bits: a command reaches the Molset as an event of its links, its rings, its
dictionary or its engines, and no word spells one (entry 1). -/

namespace Sys2Proof

/-- The command that a table word spells: none, since no row has bits. -/
def decodeTableWord (_nbits _w : Nat) : Option Instr := none

end Sys2Proof
end

