-- ==== Sys2Proof/Config.lean ====
section
/-! DEFINITION. What this Molset's build fixes, and the free values: functions without a body. The cryptographic functions are
uninterpreted functions of their inputs (entry 8); a free value replaces a result that the spec leaves open (entry 12). -/

namespace Sys2Proof.Config

/-- A free value by its number: nothing is known of it (entry 12). -/
opaque freeNat : Nat → Nat

/-- A free F32 by its number (entry 12). -/
opaque freeF32 : Nat → BitVec 32

/-- What a layer finds in a buffer that no layer has filled: tenant, model handle, buffer, element (R228 does not say; entry 12). -/
opaque unfilled : Nat → Nat → Nat → Nat → BitVec 32

/-- What a layer takes for a poisoned parameter: tenant, address (R230 does not say; entry 12). -/
opaque poisonedParam : Nat → Nat → BitVec 32

/-- The reciprocal square root of zero: its exact result does not exist (R233; entry 12). -/
opaque rsqrtZero : BitVec 32

/-- The codebook set number that a retrained thatch version gets: tenant, index, version (R116 does not say which; entry 12). -/
opaque codebookSet : Nat → Nat → Nat → Nat

/-- SHA-256 of a byte string (R453). -/
opaque sha256 : List Byte → List Byte

/-- HMAC-SHA-256 under a key (R453). -/
opaque hmac : List Byte → List Byte → List Byte

/-- HKDF-Expand with SHA-256: pseudo-random key, info, output length (R455). HKDF-Extract is HMAC under the salt. -/
opaque hkdf : List Byte → List Byte → Nat → List Byte

/-- ML-KEM-1024 decapsulation (R453): the seeds d and z of the key, the ciphertext; the shared secret. -/
opaque kemOpen : List Byte → List Byte → List Byte

/-- ML-KEM-1024: the public key of a pair of seeds (R453). -/
opaque kemPublic : List Byte → List Byte

/-- ML-KEM-1024: the shared secret that this end encapsulates to a peer's KEM public key, with this end's nonce (R476). -/
opaque kemShare : List Byte → List Byte → List Byte

/-- AES-256-GCM opening: key, nonce, associated data, ciphertext, tag; none if the tag is wrong (R453). -/
opaque gcmOpen : List Byte → List Byte → List Byte → List Byte → List Byte → Option (List Byte)

/-- AES-256-GCM sealing: key, nonce, associated data, plain text; the ciphertext and the tag (R453). -/
opaque gcmSeal : List Byte → List Byte → List Byte → List Byte → List Byte × List Byte

/-- AES-256-XTS decryption of one 16-byte unit: key, unit number, unit (R473). -/
opaque xtsOpen : List Byte → Nat → List Byte → List Byte

/-- AES-256-XTS encryption of one 16-byte unit: key, unit number, unit (R473). -/
opaque xtsSeal : List Byte → Nat → List Byte → List Byte

/-- The logical capacity of the flash, from its raw capacity (R332 gives no rule; entry 12). -/
opaque flashLogical : Nat → Nat

/-- SLH-DSA: the public key of a seed (R453, R455); 96 bytes name SLH-DSA-SHA2-256s, 48 bytes SLH-DSA-SHA2-128f. -/
opaque slhPublic : List Byte → List Byte

/-- SLH-DSA: the signature of a message under the key of a seed (R453, R455). -/
opaque slhSign : List Byte → List Byte → List Byte

/-- Does a peer's chain verify (R461, R476): endorsement certificate, attestation certificate, quoted bytes, signature? -/
opaque verify : List Byte → List Byte → List Byte → List Byte → Bool

/-- Are measurement registers MR0 to MR2, concatenated, those of an image that Vidawyn signed (R476)? -/
opaque signedImage : List Byte → Bool

/-- The mean oscillator frequency of a voltage domain at enrolment, in kHz (R534). -/
opaque oscEnrolled : Nat → Nat

/-- The drop that enrolment predicts for a voltage domain after ten years, in 0.01 % (R534). -/
opaque delta10 : Nat → Nat

/-- The device secret that the boot ROM reconstructs from the PUF (R454); no object reads it. -/
opaque deviceSecret : List Byte

/-- The bytes of an attestation certificate from what it binds and the signature under the identity key (R461 does not lay it out; entry 12). -/
opaque certificate : List Byte → List Byte → List Byte

/-- The endorsement certificate (R461). -/
opaque endorsement : List Byte

/-- The payload bytes of a stage packet whose layout the spec does not give, by packet kind and sequence (R352; entry 12). -/
opaque payloadLen : Nat → Nat → Nat

/-- The flits of credit that a peer grants for a buffer when a link comes up (R351 states none; entry 12). -/
opaque startCredits : Nat → Nat

/-- The time of the local oscillator at which a tick's marker leaves a port, in 1/16 ns (R343; entry 12). -/
opaque oscTime : Nat → Nat → Nat

/-- The serial number of the part (R509). -/
opaque serial : List Byte

/-- The die identifiers: I/O die, search die 0, search die 1 (R509). -/
opaque dieId : Nat → Nat

/-- Random bytes of the entropy source, by draw number and length (R453). -/
opaque random : Nat → Nat → List Byte

end Sys2Proof.Config
end

