-- ==== Sys2Proof/Machine/State.lean ====
section
/-! DEFINITION. The state of one Molset VM-9620 as plain data, the reasons a step can stop, and the state after a cold
power-on. Every dictionary object is a register of `regs` or `blobs` (R19); every counter has its three views (R50);
the engines' own state follows by chapter. A field's docstring names the rule that gives it. -/

namespace Sys2Proof.Machine

/-- Why the machine stops with a fault. The spec describes no stop of the Molset: a fault is a report to the fault
decision protocol (R378), a status or a power state (R515). No meaning raises a fault; the one reason is kept so that the
type is inhabited. Safe: nothing answers with it. -/
inductive Fault where
  /-- Raised by no meaning. Safe. -/
  | none
  deriving DecidableEq, Repr

/-- Why a command has no meaning here. -/
inductive Refusal where
  /-- Raised by an arm of Machine/Dispatch.lean whose command has no meaning yet, by its mnemonic. Safe: the model stops
  where the hardware goes on. -/
  | notModelled (mnemonic : String)
  deriving DecidableEq, Repr

/-! ### Spindles (R51 to R82) -/

/-- The owner of a structure: tenant, work kind (0 search, 1 dense, 2 gather, 3 rebuild) and role (R70). -/
structure Owner where
  tenant : Nat
  kind : Nat
  role : Nat
  deriving DecidableEq, Repr

/-- A queue item (R60): skein, shingle or tile number, mask or job slot, stolen, check. The rest is what the number refers
to: work kind, tenant, the role under which it was dealt (R74), index, shard, thatch version, selection pass, the die whose ply takes its segments (R65,
R69), and the errors it has met (R59, R108). -/
structure Item where
  skein : Nat
  shingle : Nat
  mask : Nat
  stolen : Bool
  check : Bool
  kind : Nat
  tenant : Nat
  role : Nat
  index : Nat
  shard : Nat
  version : Nat
  pass : Nat
  die : Nat
  errors : Nat
  deriving DecidableEq, Repr

/-- A hardware context (R54): 0 idle, 1 ready, 2 running, 3 waiting; its item, the stamp since when it is ready, its
shingle slot, whether it is blocked on the streamer (R55), the owner of its registers (R71), and whether the board data that its
item loads is here (R55). -/
structure Ctx where
  st : Nat := 0
  item : Option Item := none
  since : Nat := 0
  slot : Nat := 4
  blocked : Bool := false
  owner : Option Owner := none
  loaded : Bool := false
  deriving DecidableEq, Repr

/-- The distance tables of a query (R123 to R126): entries by sub-quantizer, the scale, the offset, and the query's sign code. -/
structure Table where
  entries : List (List Int)
  sigma : F32
  offset : F32
  sign : List Byte
  digest : BitVec 32
  deriving DecidableEq, Repr

/-- A table slot (R57): the resident query with its shard, whether only stolen, checked or redealt items use it, its tables, the descriptor that
the staging region holds for it (R126), and the slot's owner where it is not the bobbin's (R71). -/
structure TSlot where
  q : Option (QName × Nat) := none
  temp : Bool := false
  table : Option Table := none
  desc : List Byte := []
  owner : Option Owner := none
  deriving DecidableEq, Repr

/-- A shingle slot (R57, R121, R151): the item it serves, the delivered shingle, deliveries that failed the check, the
tombstone word and the filter word per table slot, and the owner. -/
structure ShSlot where
  item : Option Item := none
  sh : Option Shingle := none
  fails : Nat := 0
  tomb : Option (List Bool) := none
  words : List (Nat × List Bool) := []
  owner : Option Owner := none
  deriving DecidableEq, Repr

/-- A hank set (R57, R174): the query and shard it is bound to, the pass, the keep count, the floor, the kept entries and
the counts. -/
structure HSet where
  q : Option (QName × Nat) := none
  pass : Nat := 0
  keep : Nat := 0
  floor : Option (F32 × Nat) := none
  entries : List HEntry := []
  boundary : Nat := 0
  nan : Nat := 0
  offered : Nat := 0
  items : Nat := 0
  low : Nat := 0xFFFFFFFF
  high : Nat := 0
  integrity : Bool := false
  die : Nat := 0
  deriving DecidableEq, Repr

/-- What a dense item keeps in the regions of the bobbin (R239): in the table region the converted input by vector, in the shingle region the weight blocks
or an element item's inputs, in the hank region the F32 accumulators or the output before it is written, in the filter region bias, γ and β slices and channel
exponents, in the staging region weight scale records and digests. Gather work (R260) has its pooling or merge accumulators in `acc`, the lines of rows in
`rows`, their scale records and exponents in `scales` and `exps`, and its index entries in `index`. `pairs` holds what each threshold compaction wrote there, index
and value, with the total that passed (R192). -/
structure DenseBob where
  input : List (Nat × RowImg) := []
  weights : List Block := []
  elems : List (List F32) := []
  acc : List (List F32) := []
  params : List F32 := []
  exps : List Int := []
  scales : List Nat := []
  digest : Option W64 := none
  rows : List RowImg := []
  index : List Nat := []
  pairs : List (List (Nat × BitVec 32) × Nat) := []
  deriving DecidableEq, Repr

/-- A spindle (R51). Sub-structures are listed sparsely: an unlisted slot is empty. `bobOwner` holds every structure of the bobbin that has no owner of its
own since the last whole zeroing (R71); `lut`: the two register-table sets of the lookup-accumulate unit, with the table slot each was loaded from (R125);
`dense`: the regions in dense work (R239); `macOwner` holds the accumulators and the channel-scale registers `chanExps` (R71, R93); `roleZero`: work of an
old role is carried (R74). -/
structure Spindle where
  queue : List Item := []
  ctxs : List Ctx := [{}, {}, {}, {}, {}, {}, {}, {}]
  tslots : List (Nat × TSlot) := []
  shslots : List (Nat × ShSlot) := []
  hsets : List (Nat × HSet) := []
  bobOwner : Option Owner := none
  filterOwner : Option Owner := none
  stagingOwner : Option Owner := none
  macOwner : Option Owner := none
  zeroing : Bool := false
  roleZero : Bool := false
  noTake : Bool := false
  steal : Option Nat := none
  chanExps : List Int := List.replicate 256 0
  lut : List (Nat × List (List Int)) := []
  dense : DenseBob := {}
  deriving DecidableEq, Repr

/-- A table copy between bobbins (R58): 0 steal (R67), 1 checker or third spindle (R76, R78), 2 placement (R122), 3 redeal (R69). -/
structure TCopy where
  id : Nat
  kind : Nat
  src : Nat
  dst : Nat
  slots : List (Nat × Nat)
  bytes : Nat
  deriving DecidableEq, Repr

/-- The check of a sampled item (R75 to R79). Digests are by spindle; `out` is 0 open, 1 agreed, 2 decided by the third,
3 all differ or no third; `cands` the candidates that the checker offered; of a dense item, `outs` its outputs (buffer, vector, first row, values), `conv`
its converted vector, and `sums1` and `sums2` what the first spindle and the checker counted for the job (saturations, NaN results, escapes, overflows; R78,
R245). -/
structure Check where
  id : Nat
  item : Item
  first : Nat
  checker : Nat
  d1 : Option W64
  d2 : Option W64
  third : Option Nat
  d3 : Option W64 := none
  out : Nat
  queries : List (QName × Nat)
  cands : List ((QName × Nat) × List HEntry) := []
  outs : List (Nat × Nat × Nat × List F32) := []
  conv : Option (Nat × RowImg) := none
  sums1 : List Nat := []
  sums2 : List Nat := []
  deriving DecidableEq, Repr

/-- A page zeroing that an allocation waits for (R72): the owner (1024 is the system), the tier, the pages left, and the ring entry that waits, with its
kind and admission tick (sequence 0: none); `region`: the first page of its region, or of a model entry the slot of the model. -/
structure PageZero where
  id : Nat
  tenant : Nat
  board : Bool
  pages : List Nat
  region : Nat
  seq : Nat
  tag : Nat
  tick : Nat
  kind : Nat := 0x0D
  deriving DecidableEq, Repr

/-- A scale and data mismatch being refetched (R107, R108): the block, counted from the item's first one. `applied`: the blocks that were paired and are
applied already. -/
structure Mismatch where
  sp : Nat
  ctx : Nat
  block : Nat
  expected : Nat
  fmt : Nat
  refetches : Nat
  applied : List Block := []
  deriving DecidableEq, Repr

/-- The controllers' own records: copies, items that wait to be dealt with their queries and the powered ns since when (R69, R420), checks, page zeroings,
mismatches, the dense and gather sets of the frame (R246, R260), the spindles lent to each build (R217), and the owner of the ply buffers of each die, of the
module and of the fabric merge: 0, 1, 2, 3 (R179). -/
structure CtlS where
  next : Nat := 0
  stamp : Nat := 0
  copies : List TCopy := []
  redeal : List (Item × List (QName × Nat) × Nat) := []
  checks : List Check := []
  zeroings : List PageZero := []
  mismatches : List Mismatch := []
  denseSet : List Nat := []
  gatherSet : List Nat := []
  lent : List (Nat × Nat × Nat) := []
  lendWait : List (Nat × Nat) := []
  plyOwners : List (Nat × Owner) := []
  deriving DecidableEq, Repr

/-! ### The ridge tick (R21 to R50) -/

/-- A pending period change (R37, R38). -/
structure PeriodChange where
  period : Nat
  switch : Nat
  origin : Bool
  peers : List Nat
  acks : List Nat
  deriving DecidableEq, Repr

/-- What the last marker of a peer said (R343), times in 1/16 ns: the measured link delay, alignment state, hops and phase error; `age`: ticks since
it came. -/
structure PeerMark where
  node : Nat
  age : Nat
  t1 : Int
  t4 : Int
  delay : Int
  align : Nat
  hops : Nat
  phase : Int
  deriving DecidableEq, Repr

/-- Tick alignment and the edge (R21 to R46). `edgeExcess`: cycles by which this frame's edge window ended late (R23); `lockCount`: ticks in a row within
100 ns, `acquire`: ticks in the acquiring state, `markerLost`: ticks in a row without a marker of the upstream peer, `markerSeen`: it came in this frame,
`noLink`: ticks in a row without a link (R41); `slew`: the phase correction of this frame in ns and `resid` the phase error left after it (R41); `joining`:
no map has been fetched since the fabric was joined (R348), `offsetDue`: its tick offset is not set yet (R46); `overrun`: skeins whose overrun was
raised (R33); `guard`: the guard of this frame has begun (R29). -/
structure TimeS where
  edgeExcess : Nat := 0
  change : Option PeriodChange := none
  lockCount : Nat := 0
  acquire : Nat := 0
  markerLost : Nat := 0
  noLink : Nat := 0
  markerSeen : Bool := false
  upstream : Option Nat := none
  hops : Nat := 0xFF
  marks : List PeerMark := []
  slew : Int := 0
  resid : Int := 0
  joining : Bool := false
  offsetDue : Bool := false
  overrun : List Nat := []
  guard : Bool := false
  deriving DecidableEq, Repr

/-! ### Queries (R138 to R194) -/

/-- A query at its home (R141 to R165). `phase`: 0 checked, 1 admitted, 2 dispatched, 3 merged, 4 re-rank sent, 5 re-ranked,
6 delivered. -/
structure HomeQ where
  name : QName
  seq : Nat
  tag : Nat
  par : QParams
  vecAddr : Nat
  vecFmt : Nat
  resAddr : Nat
  version : Nat
  weight : Nat
  phase : Nat
  vec : List F32 := []
  copies : List (Nat × Nat) := []
  missing : List Nat := []
  reports : List StepRep := []
  step : Nat := 0
  total : Nat := 0
  stopped : Bool := false
  widened : Bool := false
  ceiling : Bool := false
  integrity : Bool := false
  gap : Bool := false
  short : Bool := false
  refusal : Nat := 0
  hanks : List Hank := []
  asked : List (Nat × Nat) := []
  merged : Option Hank := none
  sent : List Cand := []
  scores : List CandScore := []
  ranked : Option Hank := none
  ret : Nat := 0
  epoch : Nat := 0
  late : Bool := false
  deriving DecidableEq, Repr

/-- A query on a shard copy (R144 to R157, R173 to R181). `phase`: 0 held, 1 in a pass, 2 tables built, 3 placed, 4 closed. `epoch` is that of the
dispatch (R371), `rrLate` that a re-rank deadline miss was counted (R28); `headerRead` and `headerBad`: the header of its streamed filter was read, and
could not be (R154); `deltaTo`: its items were dealt before the view of its skein was installed, with that many delta shingles (R210, R211). -/
structure CopyQ where
  name : QName
  shard : Nat
  par : QParams
  vec : List F32
  version : Nat
  phase : Nat := 0
  builder : Nat := 0
  plan : List Nat := []
  table : Option Table := none
  coarse : List Nat := []
  step : Nat := 0
  pass : Nat := 1
  floor : Option (F32 × Nat) := none
  waiting : List Item := []
  dealt : List (Nat × Nat) := []
  plySp : List (Nat × Nat) := []
  left : Nat := 0
  offered : Nat := 0
  segs : List (Nat × Nat × Hank) := []
  dieHanks : List (Nat × Hank) := []
  open_ : Option Hank := none
  passes : List Hank := []
  sent : Option Hank := none
  stop : Bool := false
  integrity : Bool := false
  status : Nat := 0
  epoch : Nat := 0
  rrLate : Bool := false
  headerRead : Bool := false
  headerBad : Bool := false
  deltaTo : Option Nat := none
  deriving DecidableEq, Repr

/-- A build pass (R122, R146): its queries with their shard and table slot of the builder. -/
structure Pass where
  id : Nat
  skein : Nat
  tenant : Nat
  index : Nat
  builder : Nat
  queries : List (QName × Nat × Nat)
  built : Bool
  deriving DecidableEq, Repr

/-- A resident filter (R153): content, from which tick it serves and until which, if replaced or released; on a shard copy the stack pages that hold it. -/
structure Filter where
  tenant : Nat
  handle : Nat
  index : Nat
  map : Bitmap
  start : Nat
  stop : Option Nat
  pages : List Nat := []
  deriving DecidableEq, Repr

/-- Re-rank reads in progress on this copy (R160), and hanks asked for again (R187). -/
structure RerankS where
  reads : List Cand := []
  resent : List (QName × Nat × Nat) := []
  deriving DecidableEq, Repr

/-! ### Thatches and updates (R195 to R225) -/

/-- A delta entry (R213): insert and removal sequence (none while live), ID, shingle and position, and the address of the re-rank vector in the copy's stack
memory. -/
structure DeltaEnt where
  ins : Nat
  rem : Option Nat
  id : Nat
  shingle : Nat
  pos : Nat
  list : Nat
  addr : Nat
  deriving DecidableEq, Repr

/-- A thatch of one shard held by a copy (R199 to R222): the image, its delta segment and tombstones; `st`: 0 staged,
1 live, 2 old. A tombstone is (shingle, position, sequence that set it), so that every view is readable (R210). `pages`: the pages of the stacks that hold it,
one after another (R72): the image, the tombstone bitmap, and from `vecs` on the delta segment's vectors. -/
structure Thatch where
  im : Image
  st : Nat
  pages : List Nat := []
  vecs : Nat := 0
  delta : List Shingle := []
  entries : List DeltaEnt := []
  tomb : List (Nat × Nat × Nat) := []
  since : Nat := 0
  deriving DecidableEq, Repr

/-- What a sequencer encodes with (R198, R205): a thatch version's codebook, centroids, list-to-shard table and spill margin. -/
structure ThatchPars where
  version : Nat
  codebook : List Nat
  centroids : List Nat
  listShard : List Nat
  margin : F32
  deriving DecidableEq, Repr

/-- The sequencer's own records of one index (R197, R205, R208, R214): acknowledgements by log holder, delta items sent by version and shard,
what it encodes with, the refusals (home, ring sequence, status) that its next seal record carries (entry 16); after a change of role, whether the records of another holder
are awaited and the own ones then compared with them (true) or taken over (false), and the updates that wait (R389). -/
structure Seqr where
  next : Nat := 1
  committed : Nat := 0
  captured : Nat := 0
  lastSeal : Nat := 0
  acks : List (Nat × Nat) := []
  counts : List (Nat × Nat × Nat) := []
  live : Option ThatchPars := none
  succ : Option ThatchPars := none
  refused : List (Nat × Nat × Nat) := []
  resume : Option Bool := none
  waitUpd : List UpdReq := []
  deriving DecidableEq, Repr

/-- A build (R216 to R223): its request, fold sequence, started, staged (shard, node), the publish tick once chosen and
the acknowledgements. -/
structure Build where
  req : BuildReq
  fold : Nat
  started : Bool
  staged : List (Nat × Nat)
  p : Option Nat
  acks : List Nat
  shingles : List (Nat × Nat)
  sent : List (Nat × Nat)
  fails : List (Nat × Nat)
  deriving DecidableEq, Repr

/-- An index in one slot of this Molset (R195, R224): `log` the records kept (R392), `held` the images that it keeps in flash as flash holder,
`heldWait` those that it has received and writes in the next window (R306),
`imgFails` the failed checks of an image by shard (R202), `shingleReports` the shingle counts by shard (R409). -/
structure Idx where
  slot : Nat
  desc : IdxDesc
  home : Nat
  regTick : Nat
  lambda : Nat := 1
  thatches : List Thatch := []
  seqr : Seqr := {}
  log : List DeltaRec := []
  seals : List SealRec := []
  pendRecs : List DeltaRec := []
  pendSeals : List SealRec := []
  views : List (Nat × Nat) := []
  applied : Nat := 0
  build : Option Build := none
  publish : Option (Nat × Nat) := none
  fetch : Bool := false
  imgFails : List (Nat × Nat) := []
  held : List Image := []
  heldWait : List Image := []
  shingleReports : List (Nat × Nat) := []
  deriving DecidableEq, Repr

/-- An index registration awaiting answers at the home (R195). -/
structure RegWait where
  tenant : Nat
  seq : Nat
  index : Nat
  nodes : List Nat
  yes : List Nat
  no : List Nat
  tick : Nat
  deriving DecidableEq, Repr

/-- An update at its home (R204, R205, R211). -/
structure UpdHome where
  tenant : Nat
  seq : Nat
  tag : Nat
  index : Nat
  op : Nat
  id : Nat
  addr : Nat
  fmt : Nat
  dim : Nat
  tick : Nat
  sent : Bool := false
  dseq : Option Nat := none
  sealedAt : Option Nat := none
  deriving DecidableEq, Repr

/-- A build entry waiting at its home (R217, R221, R223). -/
structure BuildHome where
  tenant : Nat
  seq : Nat
  tag : Nat
  index : Nat
  tick : Nat
  deriving DecidableEq, Repr

/-! ### Dense layers (R226 to R249) -/

/-- A model in its slot (R227 to R231): its layers, the tick from which it serves and that of its release, the regions that it pins and
the hidden pages of its buffers; `ready`: they are zeroed (R72). -/
structure Model where
  slot : Nat
  tenant : Nat
  handle : Nat
  bmax : Nat
  layers : List Layer
  params : Nat
  start : Nat
  stop : Option Nat
  pins : List Nat
  pages : List Nat
  ready : Bool := true
  deriving DecidableEq, Repr

/-- A dense job (R243 to R247). `model` is the slot of its model. `layer` and `conv1`: the step in hand, a conversion step or not, once `started`; `conv`: the converted input
of the linear layer in hand, per vector; `bufs`: buffer number and its vectors as F32 patterns, `ins` the buffers as the step in hand found them; `left`: items of the step that have not
written their output; `staged`: layers that have been staged, `area`: those that the staging area still holds, with their pages (R241); `due`: a tile step waits for its layer (R242); `done`: the output is written. -/
structure DJob where
  slot : Nat
  model : Nat
  seq : Nat
  tag : Nat
  tenant : Nat
  handle : Nat
  inAddr : Nat
  outAddr : Nat
  b : Nat
  first : Nat
  last : Nat
  inFmt : Nat
  bulk : Bool
  adm : Nat
  frames : Nat
  cost : Nat
  ratio : Nat
  limit : Nat
  layer : Nat
  conv1 : Bool := false
  started : Bool := false
  left : List Nat := []
  conv : List (Nat × RowImg) := []
  bufs : List (Nat × List (List F32)) := []
  ins : List (Nat × List (List F32)) := []
  staged : List Nat := []
  area : List (Nat × List Nat) := []
  due : Bool := false
  done : Bool := false
  status : Nat := 0
  integrity : Bool := false
  sat : Nat := 0
  nan : Nat := 0
  esc : Nat := 0
  ovf : Nat := 0
  boardStall : Nat := 0
  stackStall : Nat := 0
  deriving DecidableEq, Repr

structure DenseS where
  models : List Model := []
  jobs : List DJob := []
  deriving DecidableEq, Repr

/-! ### Embedding tables (R250 to R281) -/

/-- A table in its slot (R250, R255): its descriptor, tick of registration and of release, live and staged version, the shards known to be
staged, replaced versions with the tick P that replaced each (R256), directory overrides (version, row, node) (R251), the hidden pages of each
version, and the last closed step. -/
structure Tab where
  slot : Nat
  tenant : Nat
  table : Nat
  fmt : Nat
  e : Nat
  z : Nat
  rows : Nat
  shardRows : Nat
  start : Nat
  stop : Option Nat := none
  live : Nat := 0
  staged : Option Nat := none
  stagedShards : List Nat := []
  old : List (Nat × Nat) := []
  dirOver : List (Nat × Nat × Nat) := []
  pages : List (Nat × Nat) := []
  lastClosed : Option Nat := none
  deriving DecidableEq, Repr

/-- A stored row (R252). `mirror` marks the mirror's copy. -/
structure RowRec where
  tenant : Nat
  table : Nat
  version : Nat
  row : Nat
  img : RowImg
  mirror : Bool
  deriving DecidableEq, Repr

/-- An overlay entry (R265): the step that made it, and the tick from which it is visible, once sealed. -/
structure Overlay where
  tenant : Nat
  table : Nat
  version : Nat
  row : Nat
  step : Nat
  v : Option Nat
  img : RowImg
  mirror : Bool
  deriving DecidableEq, Repr

/-- A replica in the store (R277): the view tick, the stamp of its last read, the image. -/
structure Replica where
  tenant : Nat
  table : Nat
  row : Nat
  view : Nat
  used : Nat
  img : RowImg
  deriving DecidableEq, Repr

/-- A gather or scatter job (R257 to R263, R267). `rows`: what each position has read so far, an image or unreadable; `items`: gather items
that are not pooled yet; `tab`: the slot of its table; `sent`: a scatter's summary is sent; `done`: a gather's output is written. -/
structure GJob where
  slot : Nat
  seq : Nat
  tag : Nat
  tenant : Nat
  table : Nat
  scatter : Bool
  listAddr : Nat
  dataAddr : Nat
  n : Nat
  g : Nat
  pool : Nat
  fmt : Nat
  bulk : Bool
  step : Nat
  eta : F32
  parts : Nat
  adm : Nat
  frames : Nat
  cost : Nat
  version : Nat
  tab : Nat := 0
  idxs : List Nat := []
  rows : List (Nat × Option RowImg) := []
  items : List Nat := []
  padding : Nat := 0
  range : Nat := 0
  lines : Nat := 0
  status : Nat := 0
  integrity : Bool := false
  expired : Bool := false
  nanOut : Bool := false
  sent : Bool := false
  done : Bool := false
  deriving DecidableEq, Repr

/-- A step of scatter jobs (R268 to R271). As participant: `joined`, a job of it was admitted here. As home: records, records forwarded (and how many to
whom), the count a delegate must hold, the tick at which its close came, merged, how many records are `folded` into their rows, the mirrors and the
replica drops awaited, ready sent. As coordinator: summaries, closed, the homes that must be ready and those that are.
`sealAt` is the tick V of the seal, `version` that of the step, `only` the participants that count (empty: all). -/
structure EStep where
  tenant : Nat
  table : Nat
  step : Nat
  records : List Contrib := []
  forwardedIn : Nat := 0
  forwarded : Nat := 0
  delegates : List (Nat × Nat) := []
  joined : Bool := false
  closeTick : Option Nat := none
  folded : Nat := 0
  expect : Option Nat := none
  summaries : List Summary := []
  firstTick : Option Nat := none
  closed : Bool := false
  incomplete : Bool := false
  only : List Nat := []
  merged : Bool := false
  mirrors : List Nat := []
  drops : List (Nat × Nat) := []
  dropsSent : Bool := false
  readied : Bool := false
  readyNeed : List Nat := []
  ready : List Nat := []
  sealAt : Option Nat := none
  version : Nat := 0
  deriving DecidableEq, Repr

/-- A shard being staged at its home (R254): its ring entry, whether the mirror's copy is written, its source and settings (R100), and whether its rows are
encoded. -/
structure TStage where
  tenant : Nat
  table : Nat
  shard : Nat
  version : Nat
  seq : Nat
  tag : Nat
  tick : Nat
  mirrorOk : Bool
  src : Nat := 0
  fmt : Nat := 9
  ratio : Nat := 0
  limit : Nat := 0
  encoded : Bool := false
  deriving DecidableEq, Repr

/-- A switch pending at the coordinator or a receiver (R255): the ring entry at the coordinator (sequence, tag, admission tick). -/
structure TSwitch where
  tenant : Nat
  table : Nat
  version : Nat
  p : Nat
  ring : Option (Nat × Nat × Nat)
  need : List Nat
  acks : List Nat
  deriving DecidableEq, Repr

/-- A migration known here (R274): switched at M; handed off, sent by the old home or come to the new one. -/
structure Mig where
  m : Migration
  switched : Bool := false
  handed : Bool := false
  deriving DecidableEq, Repr

/-- A home's load report at the coordinator (R272): its total and its top rows with their lines. -/
structure LoadRep where
  home : Nat
  tenant : Nat
  table : Nat
  load : Nat
  top : List (Nat × Nat)
  deriving DecidableEq, Repr

/-- Embedding work of this Molset. `holders`: replica holders of a homed row (tenant, table, row, node); `loads` by tenant, table and shard,
`rowLoads` by row, `reads` latency-class reads by row and reader (R272, R277); `reports` of the homes at the coordinator; `outstanding`
line reads (die, job, position, lines), `waitReads` those that wait for a slot (R259); `tries` mismatches of a row read (job, position,
count); `sealWaits` steps already counted as needed before installed (R266); `warm` the warm copies (R274). -/
structure EmbS where
  tabs : List Tab := []
  rows : List RowRec := []
  overlays : List Overlay := []
  replicas : List Replica := []
  holders : List (Nat × Nat × Nat × Nat) := []
  jobs : List GJob := []
  steps : List EStep := []
  stages : List TStage := []
  switches : List TSwitch := []
  migs : List Mig := []
  loads : List ((Nat × Nat × Nat) × Nat) := []
  rowLoads : List ((Nat × Nat × Nat) × Nat) := []
  reads : List ((Nat × Nat × Nat × Nat) × Nat) := []
  reports : List LoadRep := []
  warm : List (Nat × Nat × RowState) := []
  outstanding : List (Nat × Nat × Nat × Nat) := []
  waitReads : List (Nat × Nat × Nat) := []
  tries : List (Nat × Nat × Nat) := []
  sealWaits : List (Nat × Nat × Nat) := []
  windowStart : Nat := 0
  stamp : Nat := 0
  deriving DecidableEq, Repr

/-! ### Memory tiers (R282 to R305) -/

/-- Where a page lives: a stack, or a board channel with its block map (mode, sectors, first sector) of 512 entries, its
chunks and dead sectors (R283, R293, R294). -/
inductive PHome where
  | stack (n : Nat)
  | board (ch : Nat) (map : List (Nat × Nat × Nat)) (chunks dead endSector : Nat)
  deriving DecidableEq, Repr

/-- A page held by an owner (1024 is the system): local page number and home; `inMove` of R295; `poisoned` if it has held a
poisoned line (R302); `zero` while its zeroing runs (R72). -/
structure Page where
  tenant : Nat
  page : Nat
  home : PHome
  inMove : Bool := false
  poisoned : Bool := false
  zero : Bool := false
  deriving DecidableEq, Repr

/-- A region (R287): first page, page count, number of models that pin it (R231). -/
structure Region where
  tenant : Nat
  page : Nat
  count : Nat
  pins : Nat
  deriving DecidableEq, Repr

/-- A placement move (R295): its ring entry and admission tick, region, target tier, the pages still to move, and whether the region was
freed under it (R296). -/
structure Move where
  tenant : Nat
  seq : Nat
  tag : Nat
  tick : Nat
  page : Nat
  board : Bool
  left : List Nat
  freed : Bool := false
  deriving DecidableEq, Repr

/-- A write that waits for the switch of its page (R296): for the host its module and tag (R428), for a peer its operation (R361). -/
structure MWait where
  tenant : Nat
  addr : Nat
  data : List Byte
  host : Option (Nat × Nat)
  peer : Option MemOp
  deriving DecidableEq, Repr

/-- An access outstanding at a tier (R55, R300, R301): tier 0 stacks, 1 board, 2 flash, 3 peer; the stamp of its issue, the spindle and
context that wait for it, the address, and the stage (a counter number of R49) and query that it serves. -/
structure Access where
  id : Nat
  tier : Nat
  issued : Nat
  ctx : Option (Nat × Nat)
  tenant : Nat
  addr : Nat
  stage : Nat
  q : Option QName
  deriving DecidableEq, Repr

structure TierS where
  regions : List Region := []
  pages : List Page := []
  free : List Nat := List.replicate 12 65536
  bfree : List (Nat × Nat) := []
  moves : List Move := []
  waits : List MWait := []
  accesses : List Access := []
  deriving DecidableEq, Repr

/-! ### Flash (R306 to R333) -/

/-- A map entry (R313) in fields; mode 0 with every field 0 is the all-zero entry. -/
structure FEntry where
  mode : Nat
  sectors : Nat
  block : Nat
  page : Nat
  sector : Nat
  discarded : Bool
  slc : Bool
  deriving DecidableEq, Repr

/-- A physical block (R313 to R325): its address (bits [54:28] of an entry), SLC or native, the next page to program, erases, reads since
the erase, retired, in the pool, erase in progress, refresh due, and the journal sequence at which it was opened. An unlisted block is in the
pool and has never been erased. -/
structure FBlock where
  addr : Nat
  slc : Bool := false
  next : Nat := 0
  erases : Nat := 0
  reads : Nat := 0
  retired : Bool := false
  free : Bool := true
  erasing : Bool := false
  due : Bool := false
  opened : Nat := 0
  deriving DecidableEq, Repr

/-- A packed block and its entry in a page's footer (R314): place, sector count, packer mode, logical block, write sequence, the tenant whose
region it lies in (1024: none), and the packed bytes. -/
structure FStored where
  block : Nat
  page : Nat
  sector : Nat
  count : Nat
  mode : Nat
  logical : Nat
  wseq : Nat
  tenant : Nat
  data : List Byte
  deriving DecidableEq, Repr

/-- A journal record (R327), and the number of the journal page that it was programmed in. -/
structure JRec where
  seq : Nat
  kind : Nat
  subject : Nat
  value : Nat
  page : Nat := 0
  deriving DecidableEq, Repr

/-- A page program in progress (R315, R324): the packed blocks that it writes, and for a copy the source block. `why` is 0 for a write, 1 reclaim,
2 refresh, 3 SLC flush, 4 wear levelling. -/
structure FProg where
  id : Nat
  block : Nat
  page : Nat
  slc : Bool
  stored : List FStored
  src : Option Nat
  why : Nat
  deriving DecidableEq, Repr

/-- The flash translation layer. `targets`: enabled targets as channel × 8 + target (R310). `map`: what reads see; `stored`: programmed pages by
their packed blocks; `buffer`, `inPage`, `journal`: journal records in memory, in the page being programmed, and programmed since the checkpoint
(R327); `discards`: queued (first block, count) (R326); `dirVer`: directory versions; `cache`: cached map pages, the most recently used last;
`hostSlots`: cold-map slots with page and version (R317); `asked`: map pages awaited from the host; `ckptMap`, `ckptSeq`, `ckpt`, `ckptReads`: the newest
checkpoint, with the read counts of its blocks (R320); `eraseQ`: source blocks with the journal sequence that frees them (R324); `winTicks`: the tick from which each window's housekeeping limit counts;
`trained`: the tick of each channel's last training (R309); `recovering`: recovery has not run since the channels were trained (R329); `waitDiscards`: discards
that found the queue full and wait in their issuers (R326). -/
structure FlashS where
  targets : List Nat := []
  map : List (Nat × FEntry) := []
  blocks : List (Nat × FBlock) := []
  stored : List FStored := []
  progs : List FProg := []
  buffer : List JRec := []
  inPage : List JRec := []
  journal : List JRec := []
  nextRec : Nat := 1
  nextPage : Nat := 0
  nextProg : Nat := 0
  wseq : Nat := 0
  discards : List (Nat × Nat) := []
  dirVer : List (Nat × Nat) := []
  dirty : List Nat := []
  cache : List Nat := []
  hostSlots : List (Nat × Nat × Nat) := []
  asked : List Nat := []
  ckpt : Nat := 0
  ckptSeq : Nat := 0
  ckptMap : List (Nat × FEntry) := []
  ckptVer : List (Nat × Nat) := []
  ckptReads : List (Nat × Nat) := []
  eraseQ : List (Nat × Nat) := []
  levelled : Nat := 0
  winTicks : List (Nat × Nat) := []
  hkStopped : Bool := false
  reclaiming : Bool := false
  trained : List (Nat × Nat) := []
  recovering : Bool := false
  waitDiscards : List (Nat × Nat) := []
  deriving DecidableEq, Repr

/-! ### Fabric (R334 to R377) -/

/-- A fabric port (R342): training attempts in a row, flit sequences, flits held for replay, retry requests this frame,
whether the link key is set and the keys, the peer's digest and node, send credits by credit buffer (R351), flits sent, a rekey in
progress with its switch count and start tick (R477), the next keys with their switch counts and the flits accepted, the tick of the last rekey, and the hello that this end has sent (R345). -/
structure Port where
  attempts : Nat := 0
  txSeq : Nat := 0
  rxSeq : Nat := 0
  rxDrop : Bool := false
  held : Nat := 0
  retries : Nat := 0
  keySet : Bool := false
  txKey : List Byte := []
  rxKey : List Byte := []
  nextTx : Option (Nat × List Byte) := none
  nextRx : Option (Nat × List Byte) := none
  rcvd : Nat := 0
  peerDigest : List Byte := []
  peer : Option Nat := none
  credits : List (Nat × Nat) := []
  sent : Nat := 0
  rekey : Option (Nat × Nat) := none
  lastRekey : Nat := 0
  hello : Option Hello := none
  deriving DecidableEq, Repr

/-- What this Molset sends to a peer (R353): the payloads of stage, control and memory packets, as records. -/
inductive Msg where
  | dispatch (d : Dispatch)
  | stepReport (r : StepRep)
  | widen (q : QName) (step : Nat)
  | stop (q : QName)
  | hank (h : Hank)
  | cand (c : Cand)
  | candScore (c : CandScore)
  | askHank (q : QName) (shard pass : Nat)
  | filter (tenant handle index tick : Nat) (m : Option Bitmap)
  | idxDesc (home : Nat) (d : IdxDesc)
  | idxAck (tenant index : Nat) (ok : Bool)
  | update (u : UpdReq)
  | delta (r : DeltaRec)
  | deltaAck (tenant index seq : Nat)
  | seal (r : SealRec) (covers refused : List (Nat × Nat))
  | logFetch (tenant index first last : Nat)
  | logRecords (tenant index : Nat) (rs : List DeltaRec) (ss : List SealRec)
  | build (b : BuildReq)
  | image (im : Image)
  | askImage (tenant index shard : Nat)
  | staged (tenant index shard : Nat)
  | publish (tenant index p version : Nat)
  | publishAck (tenant index shard shingles : Nat)
  | publishCancel (tenant index status : Nat)
  | rowRead (src tenant table row skein : Nat)
  | rowAnswer (tenant table row : Nat) (img : Option RowImg) (expired : Bool)
  | contrib (r : Contrib) (forwarded : Bool)
  | summary (m : Summary)
  | held (tenant table step count : Nat)
  | close (tenant table step : Nat) (only : List Nat) (version : Nat) (eta : F32)
  | images (tenant table step version : Nat) (rows : List RowState)
  | imagesAck (tenant table step shard : Nat)
  | ready (tenant table step : Nat) (delegates : List Nat)
  | stepSeal (tenant table step v version : Nat) (incomplete : Bool) (refused : Nat)
  | load (tenant table load : Nat) (top : List (Nat × Nat))
  | migration (m : Migration)
  | warm (tenant table : Nat) (rows : List RowState)
  | handoff (tenant table : Nat) (rows : List RowState) (holders : List (Nat × Nat))
  | fwdComplete (tenant table step count : Nat)
  | replica (tenant table row view : Nat) (img : RowImg)
  | drop (tenant table row : Nat)
  | dropAck (tenant table row : Nat)
  | switch (tenant table p version : Nat)
  | switchAck (tenant table : Nat)
  | memOp (op : MemOp)
  | memResp (tag kind status : Nat) (data : List Byte)
  | bounce (b : Bounce)
  | hello (h : Hello)
  | linkState (r : LinkRec)
  | mapChange (c : MapChange)
  | mapAck (epoch : Nat)
  | mapFetch
  | fault (f : FaultMsg)
  | period (period switch : Nat)
  | periodAck (switch : Nat)
  | periodCancel (switch : Nat)
  | witness (i v : Nat)
  | witnessAck (i : Nat)
  | mgmtKey (epoch : Nat) (k : List Byte) (start : Nat)
  | restored (tenant index shard : Nat)
  deriving DecidableEq, Repr

/-- An unacknowledged packet (R352, R355): destination, class, kind, sequence, epoch, role routing, the resend interval in
ns, bounces (R374) and the payload. -/
structure Sent where
  dst : Nat
  cls : Nat
  kind : Nat
  seq : Nat
  tenant : Nat
  epoch : Nat
  role : Bool
  interval : Nat
  bounces : Nat
  msg : Msg
  deriving DecidableEq, Repr

/-- A packet that waits for its port (R350, R402, R415): its tenant (1024 is the system queue) and class of work, its flits, since when it waits, and which
packet it is; `hops`: its hop count (R350). -/
structure Egress where
  port : Nat
  tenant : Nat
  bulk : Bool
  flits : Nat
  since : Nat
  src : Nat
  dst : Nat
  cls : Nat
  seq : Nat
  hops : Nat := 0
  deriving DecidableEq, Repr

/-- A tick marker as this Molset sends it (R343), times in 1/16 ns: `t2` and `t3` the send and receive time of the last marker of the peer. -/
structure MarkerOut where
  sender : Nat
  ref : Nat
  hops : Nat
  align : Nat
  tick : Nat
  t1 : Nat
  t2 : Int
  t3 : Int
  phase : Int
  deriving DecidableEq, Repr

/-- A memory operation outstanding at its issuer (R362). -/
structure OpenOp where
  op : MemOp
  seq : Nat
  deriving DecidableEq, Repr

/-- A memory operation that completed at its issuer (R362): tag, status, poison flag, value. -/
structure DoneOp where
  tag : Nat
  status : Nat
  poison : Bool
  data : List Byte
  deriving DecidableEq, Repr

/-- Discovery, routing, transport and memory operations. `lsdb` holds records with the tick of their last refresh; `tx`
the next sequence per destination and class; `rx` the highest sequence delivered per source and class; `rxHeld` packets
held out of order; `epochHeld` packets of a future epoch with the tick of arrival (R372); `owed` acknowledgements owed; `egress` the packets that wait for
their ports (R350, R415); `markers` the marker of the last tick on each port (R343); `forwarded` packets of others that wait for a port (R350); `ackOnly` ack-only packets sent (destination, class, acknowledged sequence). -/
structure NetS where
  lsdb : List (LinkRec × Nat) := []
  ownSeq : Nat := 0
  ownTick : Nat := 0
  dirty : Bool := false
  tx : List ((Nat × Nat) × Nat) := []
  unacked : List Sent := []
  rx : List ((Nat × Nat) × Nat) := []
  rxHeld : List Packet := []
  epochHeld : List (Packet × Nat) := []
  owed : List (Nat × Nat) := []
  ops : List OpenOp := []
  doneOps : List DoneOp := []
  nextTag : Nat := 0
  resendNext : List (Nat × Nat × Nat) := []
  forwarded : List (Nat × Packet) := []
  ackOnly : List (Nat × Nat × Nat) := []
  egress : List Egress := []
  markers : List (Nat × MarkerOut) := []
  deriving DecidableEq, Repr

/-- The composition map (R364 to R374): entries of the map in effect, the map of the epoch before and the tick at which
it gave way, the pending change with who must acknowledge, held later changes. -/
structure MapS where
  entries : List MapEntry := []
  prev : List MapEntry := []
  applied : Nat := 0
  pending : Option MapChange := none
  own : Bool := false
  need : List Nat := []
  acks : List Nat := []
  later : List MapChange := []
  fetching : Bool := false
  deriving DecidableEq, Repr

/-! ### Faults (R378 to R401) -/

/-- A case held as arbiter, backup or witness (R379 to R382). `role` 0 arbiter, 1 backup, 2 witness; `rank` 0 for the arbiter, from 1 for those
that may take the case over; `st` 0 reported, 1 open, 2 votes counted, 3 decided. A vote is (witness, vote); `reached` and `locked` are what a witness
found, `start` the tick of its probe request. -/
structure Case where
  num : Nat
  code : Nat
  s : Nat
  node : Nat
  partKind : Nat
  partNo : Nat
  role : Nat
  rank : Nat := 0
  st : Nat
  witnesses : List Nat := []
  votes : List (Nat × Nat) := []
  mgmt : Bool := false
  reached : Bool := false
  locked : Bool := false
  start : Nat := 0
  verdict : Nat := 0
  d : Nat := 0
  need : List Nat := []
  acks : List Nat := []
  deriving DecidableEq, Repr

/-- A respare (R390, R391): source, target, whether the image ended, restored from flash. -/
structure Respare where
  tenant : Nat
  index : Nat
  shard : Nat
  z : Nat
  y : Nat
  staged : Bool
  restore : Bool
  x : Option Nat
  deriving DecidableEq, Repr

/-- A replay log entry (R395): request sequence, its name, where it went, class, payload, the tick of the epoch that moved
its role, and the answers of an ownership query. -/
structure LogReq where
  req : Nat
  name : Nat × Nat
  oldDst : Nat
  dst : Nat
  msg : Msg
  moved : Option Nat
  answers : List (Nat × Nat)
  asked : Bool
  deriving DecidableEq, Repr

/-- The fault protocol (R378 to R401): serial number of cases, cases held, earlier cases (code, node, part, S), decisions to apply, the events of the score
window (part, unused, weight), trays with a drain decided, respares, lost shards, owner tags (state kind, tenant, object, tag), the replay log, requests
served (name, tick), messages taken, failed nodes, and the trays that this Molset drains as arbiter. -/
structure FaultS where
  serial : Nat := 0
  cases : List Case := []
  past : List (Nat × Nat × Nat × Nat) := []
  decisions : List FaultMsg := []
  events : List (Nat × Nat × Nat) := []
  drains : List Nat := []
  respares : List Respare := []
  lost : List (Nat × Nat × Nat) := []
  tags : List (Nat × Nat × Nat × Nat) := []
  log : List LogReq := []
  served : List ((Nat × Nat) × Nat) := []
  nextReq : Nat := 1
  seen : List FaultMsg := []
  failed : List Nat := []
  draining : List Nat := []
  windowStart : Nat := 0
  deriving DecidableEq, Repr

/-! ### Scheduling (R402 to R423) -/

/-- One queue of a resource (R404, R405): its last finish tag, the head's tags and the weight that gave them, asleep. -/
structure WQ where
  res : Nat
  tenant : Nat
  bulk : Bool
  flast : Nat := 0
  head : Option (Nat × Nat × Nat) := none
  asleep : Bool := true
  deriving DecidableEq, Repr

/-- What a read waits for (R417): a re-rank vector (R160), an access of a context (R55), or a layer that the stager reads (R241). -/
inductive ReadFor where
  | rerank (c : Cand)
  | access (id : Nat)
  | stage (job layer : Nat)
  deriving DecidableEq, Repr

/-- A read that waits in a queue of the flash controllers (resource 2) or of board memory (3): tenant (1024 is the system queue), class, cost in 4 KiB blocks,
since when it waits, and what it is for (R402, R417). -/
structure ReadReq where
  res : Nat
  tenant : Nat
  bulk : Bool
  blocks : Nat
  since : Nat
  what : ReadFor
  deriving DecidableEq, Repr

/-- Fair queueing and admission (R402 to R423): virtual times by resource, queues, the next query index, units admitted, updates forwarded per index
this tick (R204), waiting reasons, the filter operations that this tick accepted: tenant, sequence, handle, index, operation (R153), the index and build entries that
it accepted: kind, tenant, sequence, index (R195, R216), the reads that wait
(R417), and what the system queue of a resource was served in this frame (R417). -/
structure SchedS where
  v : List (Nat × Nat) := []
  queues : List WQ := []
  queryNext : Nat := 0
  admitted : Nat := 0
  updates : List (Nat × Nat × Nat) := []
  reasons : List (Nat × Nat) := []
  filterOps : List (Nat × Nat × Nat × Nat × Nat) := []
  claims : List (Nat × Nat × Nat × Nat) := []
  reads : List ReadReq := []
  sysServed : List (Nat × Nat) := []
  deriving DecidableEq, Repr

/-! ### Rings and the host link (R424 to R452) -/

/-- An entry that passed its check and waits for admission (R412): sequence, kind, cost in units, class, the tick that
first captured it. -/
structure Ready where
  seq : Nat
  kind : Nat
  cost : Nat
  bulk : Bool
  since : Nat
  deriving DecidableEq, Repr

/-- A completion written and not yet published (R443, R445): its sequences, status, publish tick, and the ticks by which a
query is late (R31). -/
structure Compl where
  j : Nat
  seq : Nat
  status : Nat
  tick : Nat
  late : Nat
  deriving DecidableEq, Repr

/-- A ring area (R433 to R446); tenant 1024 is the mailbox. `first` holds the entries with the tick and the powered nanoseconds at which a capture first
covered them (R420), `held` the head that step 8 held, `writtenBefore` the completions written before the last cycle 0 (R445). -/
structure Ring where
  tenant : Nat
  p : Nat := 0
  h : Nat := 0
  c : Nat := 0
  q : Nat := 0
  t : Nat := 0
  nextJ : Nat := 1
  cLive : Nat := 0
  tLive : Nat := 0
  gone : List Nat := []
  ready : List Ready := []
  first : List (Nat × Nat × Nat) := []
  held : Nat := 0
  writtenBefore : Nat := 0
  recent : List Compl := []
  deriving DecidableEq, Repr

/-- A UCIe module (R425, R426). -/
structure Ucie where
  fails : Nat := 0
  rxSeq : Nat := 0
  txSeq : Nat := 0
  retries : Nat := 0
  held : Nat := 0
  rxDrop : Bool := false
  deriving DecidableEq, Repr

/-- A host request outstanding, or a response: module, tag, operation, status, data (R427, R430). -/
structure HReq where
  m : Nat
  tag : Nat
  op : Nat
  status : Nat
  data : List Byte
  addr : Nat := 0
  deriving DecidableEq, Repr

structure LinkS where
  modules : List Ucie := [{}, {}, {}, {}]
  error : Bool := false
  outstanding : List HReq := []
  responses : List HReq := []
  toHost : List HReq := []
  nextTag : Nat := 0
  bufs : List (Nat × Nat × Nat) := []
  taken : Nat := 0
  deriving DecidableEq, Repr

/-! ### Security (R453 to R484) -/

/-- A tenant record (R467 to R472): the lock (binding of the first key), release held, the tick of teardown. -/
structure TRec where
  tenant : Nat
  lock : Option (List Byte) := none
  release : Bool := false
  down : Bool := false
  deriving DecidableEq, Repr

/-- A firmware slot (R460): pieces by offset, whether it is tried first. -/
structure FwSlot where
  pieces : List (Nat × List Byte) := []
  first : Bool := false
  deriving DecidableEq, Repr

/-- The security block (R453 to R484). The configuration area keeps `opKey`, `dapKey`, the tenant records and the firmware slots (0 A, 1 B); the key
store holds `rootKeys`. `quotes`: requests not answered yet (slot, nonce, tenant). The management key in use, the next one (epoch, key, tick from which it
is used) and the one before (key, tick at which it stops being accepted) (R478). The replay-protected region holds `advance`, counter advances pending
(counter, value, witnesses, acknowledgements), and `witness`, the values of peers (node, counter, value); `waitAdv`: advances not written yet (R480);
`cfgTaken`: how many unstored values the pending advance of counter 2 covers. -/
structure SecS where
  opKey : Option (List Byte) := none
  dapKey : Option (List Byte) := none
  rootKeys : List (Nat × List Byte) := []
  tenants : List TRec := []
  slots : List (Nat × FwSlot) := []
  quotes : List (Nat × List Byte × Nat) := []
  mgmtKey : Option (List Byte) := none
  mgmtNext : Option (Nat × List Byte × Nat) := none
  mgmtOld : Option (List Byte × Nat) := none
  advance : List (Nat × Nat × List Nat × List Nat) := []
  waitAdv : List (Nat × Nat) := []
  witness : List (Nat × Nat × Nat) := []
  cfgTaken : Nat := 0
  deriving DecidableEq, Repr

/-! ### Dictionary access (R485 to R510) -/

/-- A pending write (R492, R493): the entry, the value, the tick it names (a tick count of this Molset), and whether it came
in a signed command. -/
structure PWrite where
  k : Key
  v : DVal
  tick : Nat
  signed : Bool
  deriving DecidableEq, Repr

/-- A DAP response (R504). -/
structure DapResp where
  op : Nat
  client : Nat
  target : Nat
  num : Nat
  status : Nat
  failing : Nat
  detail : Nat
  effect : Nat
  total : Nat
  offset : Nat
  value : List Byte
  tagged : Bool
  deriving DecidableEq, Repr

/-- A DAP client (R505): the tag of its last accepted request, the last response, the segments gathered. -/
structure DapClient where
  client : Nat
  tag : List Byte := []
  resp : Option DapResp := none
  gathered : List Byte := []
  deriving DecidableEq, Repr

structure DictS where
  pend : List PWrite := []
  saved : List (Key × Nat) := []
  stored : List (Key × DVal) := []
  unstored : List (Key × DVal) := []
  clients : List DapClient := []
  dapCount : Nat := 0
  dapOut : List (Nat × DapResp) := []
  deriving DecidableEq, Repr

/-! ### Power and reset (R511 to R536) -/

/-- A domain of a re-plan (R532): 0 raising, 1 lowering, 2 stopped, 3 lowered too far: one step up and stop; 4 not begun. -/
structure Domain where
  n : Nat
  mode : Nat
  deriving DecidableEq, Repr

/-- Power, reset, sideband and ageing (R511 to R536). `powers`: mean input power of the last 16 frames, newest first; `energyRem`: input energy in nJ
below the next J; `hostRst`: the level of HOST_RST_N; which parts are switched on; `seqRank`: the rank of the sequence under way (R523), 0 for
none; `source`: the code that it will report (R518); `outs`: the toggled or pulsed sideband functions, asserted or not (R527); `blocks`: blocks in
quiesce or reset (sub-index of 0xD100, bit, tick of the write's effect); `domains` of the running re-plan; `replanTemp`: die temperatures at the last one;
`tempTicks`: ticks for which a domain's die has stayed far from it; `replanDue`: a start has completed (R531); `silent`: ticks in a row
without a reading, by sensor (R552); `alert`: the board thermal alert input. -/
structure PwrS where
  powers : List Nat := []
  energyRem : Nat := 0
  hostRst : Bool := true
  searchOn : Bool := true
  stacksOn : Bool := true
  boardOn : Bool := true
  hostOn : Bool := true
  seqRank : Nat := 0
  source : Nat := 1
  outs : List (Nat × Bool) := []
  blocks : List (Nat × Nat × Nat) := []
  domains : List Domain := []
  replanTemp : List (Nat × Int) := []
  tempTicks : List (Nat × Nat) := []
  replanDue : Bool := false
  silent : List (Nat × Nat) := []
  alert : Bool := false
  spindlesStopped : Bool := false
  txStopped : Bool := false
  deriving DecidableEq, Repr

/-- The state of one Molset. -/
structure State where
  /-- Commands that wait, first in first out. -/
  pending : List Instr
  /-- Registers by dictionary number; an unlisted one holds its start-up default (R19, R494). -/
  regs : List (Key × Nat)
  /-- BLOB and STR registers; an unlisted one is empty. -/
  blobs : List (Key × List Byte)
  /-- Counters, cumulative from cold power-on (R50). -/
  cum : List (Key × Nat)
  /-- Counters, running view of the frame (R50). -/
  run : List (Key × Nat)
  /-- Counters, last-frame view (R50). -/
  last : List (Key × Nat)
  /-- Dictionary access. -/
  dict : DictS
  /-- Memory bytes by tenant × 2^48 + local address (R287), in canonical form. -/
  mem : List Host.Cell
  /-- Poisoned 64-byte lines, as (tenant × 2^48 + address) / 64 (R302). -/
  poison : List Nat
  time : TimeS
  spin : List (Nat × Spindle)
  ctl : CtlS
  home : List HomeQ
  copy : List CopyQ
  passes : List Pass
  filters : List Filter
  rerank : RerankS
  idx : List Idx
  regWait : List RegWait
  upd : List UpdHome
  builds : List BuildHome
  dense : DenseS
  emb : EmbS
  tier : TierS
  flash : FlashS
  ports : List (Nat × Port)
  net : NetS
  map : MapS
  fault : FaultS
  sched : SchedS
  rings : List Ring
  link : LinkS
  sec : SecS
  pwr : PwrS
  /-- Copies of fault messages sent on the management network (R385). -/
  mgmtOut : List (FaultMsg × List Byte)
  /-- The model's own counter of free values (entry 12). -/
  free : Nat
  deriving DecidableEq, Repr

/-- The state at the end of a cold power-on with nothing stored in boot storage: the power state is running, the last reset
source is 1, every page of the stacks is free (R282), every other register is at its default, memory lists nothing and every engine is idle (entries 2, 5 and 6). -/
def State.reset : State where
  pending := []
  regs := [(0x600004, 786432), (0xD00001, 2), (0xD01001, 1)]
  blobs := []
  cum := []
  run := []
  last := []
  dict := {}
  mem := []
  poison := []
  time := {}
  spin := []
  ctl := {}
  home := []
  copy := []
  passes := []
  filters := []
  rerank := {}
  idx := []
  regWait := []
  upd := []
  builds := []
  dense := {}
  emb := {}
  tier := {}
  flash := {}
  ports := []
  net := {}
  map := {}
  fault := {}
  sched := {}
  rings := []
  link := {}
  sec := {}
  pwr := {}
  mgmtOut := []
  free := 0

end Sys2Proof.Machine
end

