-- ==== Sys2Proof/Machine/Objects.lean ====
section
/-! DEFINITION. The object dictionary's entries and counters as tables (R485 to R490, R508), one row per run of
entries, taken from the object tables of the chapters: type, access right, start-up value and range. -/

namespace Sys2Proof.Machine

/-- The types of R489. -/
inductive Ty where
  | bool | u8 | u16 | u32 | u64 | i32 | i64 | f32 | str | blob
  deriving DecidableEq, Repr

/-- The access rights of R490. -/
inductive Acc where
  | ro | rw | wo | rwt | sig
  deriving DecidableEq, Repr

/-- A run of entries, by their numbers (index × 256 + sub-index), with one description. `lo`, `hi` and `mult` are the range that a write is
checked against: from `lo` to `hi` and a multiple of `mult`. -/
structure ObjRow where
  first : Key
  last : Key
  ty : Ty
  acc : Acc
  dflt : Nat
  lo : Nat
  hi : Nat
  mult : Nat
  deriving DecidableEq, Repr

/-- A run of counters: first and last entry, and whether it has the per-tick views (R50). -/
structure CntRow where
  first : Key
  last : Key
  perTick : Bool
  deriving DecidableEq, Repr

/-- Objects of 01_ridge_tick (R48). -/
def objsRidgeTick : List ObjRow := [
  ⟨0x200001, 0x200001, .u32, .ro, 250, 0, 0, 0⟩,
  ⟨0x200002, 0x200002, .u32, .sig, 250, 125, 2000, 1⟩,
  ⟨0x200003, 0x200003, .u64, .sig, 0, 0, 0xFFFFFFFFFFFFFFFF, 1⟩,
  ⟨0x200004, 0x200004, .u8, .ro, 0, 0, 0, 0⟩,
  ⟨0x200101, 0x200101, .u16, .ro, 0, 0, 0, 0⟩,
  ⟨0x200102, 0x200102, .i32, .ro, 0, 0, 0, 0⟩,
  ⟨0x200103, 0x200103, .u32, .ro, 0, 0, 0, 0⟩,
  ⟨0x200104, 0x200104, .u8, .ro, 0, 0, 0, 0⟩,
  ⟨0x200105, 0x200105, .u32, .ro, 0, 0, 0, 0⟩,
  ⟨0x200106, 0x200106, .bool, .wo, 0, 0, 1, 1⟩,
  ⟨0x200107, 0x200107, .u16, .rwt, 1024, 64, 16384, 1⟩,
  ⟨0x200201, 0x200201, .u32, .ro, 3000, 0, 0, 0⟩,
  ⟨0x200202, 0x200202, .u32, .ro, 5000, 0, 0, 0⟩,
  ⟨0x200203, 0x200203, .u32, .ro, 242000, 0, 0, 0⟩,
  ⟨0x200204, 0x200204, .u16, .rwt, 16, 4, 64, 1⟩,
  ⟨0x200205, 0x200205, .u32, .ro, 459800, 0, 0, 0⟩,
  ⟨0x200206, 0x200206, .u32, .ro, 72600, 0, 0, 0⟩,
  ⟨0x200207, 0x200207, .u64, .ro, 0x5E88000, 0, 0, 0⟩,
  ⟨0x200208, 0x200208, .u64, .ro, 0x11B9800, 0, 0, 0⟩,
  ⟨0x200209, 0x200209, .u64, .ro, 0x17143400, 0, 0, 0⟩,
  ⟨0x201001, 0x201001, .u64, .ro, 0, 0, 0, 0⟩,
  ⟨0x201002, 0x201002, .u64, .ro, 0, 0, 0, 0⟩,
  ⟨0x201003, 0x201003, .i64, .ro, 0, 0, 0, 0⟩,
  ⟨0x201004, 0x201004, .u64, .ro, 0, 0, 0, 0⟩]

/-- Objects of 02_spindles (R81). -/
def objsSpindles : List ObjRow := [
  ⟨0x300001, 0x300001, .u16, .ro, 384, 0, 0, 0⟩,
  ⟨0x300002, 0x300002, .u16, .ro, 384, 0, 0, 0⟩,
  ⟨0x300003, 0x300003, .u32, .ro, 1900, 0, 0, 0⟩,
  ⟨0x300004, 0x300004, .u16, .ro, 0, 0, 0, 0⟩,
  ⟨0x300101, 0x3001C0, .u8, .ro, 0, 0, 0, 0⟩,
  ⟨0x300201, 0x3002C0, .u8, .ro, 0, 0, 0, 0⟩,
  ⟨0x301001, 0x301001, .bool, .rwt, 1, 0, 1, 1⟩,
  ⟨0x301002, 0x301002, .u16, .rwt, 4, 2, 64, 1⟩,
  ⟨0x301003, 0x301003, .u16, .rwt, 16, 2, 256, 1⟩,
  ⟨0x301004, 0x301004, .u16, .rwt, 8, 1, 64, 1⟩,
  ⟨0x301005, 0x301005, .u16, .ro, 512, 0, 0, 0⟩,
  ⟨0x301101, 0x301101, .u16, .ro, 2048, 0, 0, 0⟩,
  ⟨0x301102, 0x301102, .u8, .ro, 2, 0, 0, 0⟩,
  ⟨0x302000, 0x3023FF, .u16, .sig, 64, 0, 8192, 1⟩,
  ⟨0x303001, 0x303001, .u16, .ro, 512, 0, 0, 0⟩,
  ⟨0x303002, 0x303002, .u16, .ro, 256, 0, 0, 0⟩,
  ⟨0x303003, 0x303003, .u16, .ro, 16, 0, 0, 0⟩,
  ⟨0x303004, 0x303004, .u32, .ro, 0x200000, 0, 0, 0⟩]

/-- Objects of 03_number_formats (R113). -/
def objsNumberFormats : List ObjRow := [
  ⟨0x304001, 0x304001, .u16, .ro, 2047, 0, 0, 0⟩,
  ⟨0x304002, 0x304002, .u8, .ro, 32, 0, 0, 0⟩,
  ⟨0x304003, 0x304003, .u16, .ro, 256, 0, 0, 0⟩,
  ⟨0x304004, 0x304004, .u8, .rwt, 2, 1, 8, 1⟩,
  ⟨0x304005, 0x304005, .u8, .ro, 64, 0, 0, 0⟩,
  ⟨0x304006, 0x304006, .u8, .ro, 32, 0, 0, 0⟩,
  ⟨0x304400, 0x3047FF, .u8, .rwt, 64, 32, 64, 1⟩,
  ⟨0x304800, 0x304BFF, .u8, .rwt, 1, 0, 32, 1⟩]

/-- Objects of 04_codes_and_distance (R136). -/
def objsCodesAndDistance : List ObjRow := [
  ⟨0x401001, 0x401001, .u8, .ro, 8, 0, 0, 0⟩,
  ⟨0x401002, 0x401002, .u8, .ro, 128, 0, 0, 0⟩,
  ⟨0x401003, 0x401003, .u8, .ro, 3, 0, 0, 0⟩,
  ⟨0x401004, 0x401004, .u16, .ro, 4096, 0, 0, 0⟩,
  ⟨0x401005, 0x401005, .u16, .ro, 512, 0, 0, 0⟩,
  ⟨0x401006, 0x401006, .u8, .ro, 7, 0, 0, 0⟩,
  ⟨0x401007, 0x401007, .u8, .ro, 64, 0, 0, 0⟩,
  ⟨0x401008, 0x401008, .u32, .ro, 65536, 0, 0, 0⟩,
  ⟨0x401009, 0x401009, .u8, .ro, 64, 0, 0, 0⟩,
  ⟨0x40100A, 0x40100A, .u8, .ro, 16, 0, 0, 0⟩,
  ⟨0x40100B, 0x40100B, .u8, .ro, 118, 0, 0, 0⟩,
  ⟨0x40100C, 0x40100C, .u8, .ro, 1, 0, 0, 0⟩,
  ⟨0x40100D, 0x40100D, .u32, .ro, 2000, 0, 0, 0⟩]

/-- Objects of 05_query_life (R166). -/
def objsQueryLife : List ObjRow := [
  ⟨0x402001, 0x402001, .u16, .ro, 8192, 0, 0, 0⟩,
  ⟨0x402002, 0x402002, .u8, .ro, 16, 0, 0, 0⟩,
  ⟨0x402003, 0x402003, .u16, .ro, 6144, 0, 0, 0⟩,
  ⟨0x402004, 0x402004, .u16, .ro, 4096, 0, 0, 0⟩,
  ⟨0x402005, 0x402005, .u16, .ro, 4096, 0, 0, 0⟩,
  ⟨0x402006, 0x402006, .u16, .ro, 1024, 0, 0, 0⟩,
  ⟨0x402007, 0x402007, .u8, .ro, 64, 0, 0, 0⟩,
  ⟨0x402008, 0x402008, .u8, .ro, 16, 0, 0, 0⟩,
  ⟨0x402009, 0x402009, .u32, .ro, 0xFFFFFFFF, 0, 0, 0⟩,
  ⟨0x402201, 0x402201, .u32, .ro, 0x4000000, 0, 0, 0⟩,
  ⟨0x402202, 0x402202, .u8, .ro, 16, 0, 0, 0⟩,
  ⟨0x402400, 0x4027FF, .u16, .rwt, 64, 1, 1024, 1⟩]

/-- Objects of 06_selection_and_merge (R193). -/
def objsSelectionAndMerge : List ObjRow := [
  ⟨0x403001, 0x403001, .u16, .ro, 256, 0, 0, 0⟩,
  ⟨0x403002, 0x403002, .u8, .ro, 16, 0, 0, 0⟩,
  ⟨0x403003, 0x403003, .u8, .ro, 64, 0, 0, 0⟩,
  ⟨0x403004, 0x403004, .u8, .ro, 64, 0, 0, 0⟩,
  ⟨0x403005, 0x403005, .u8, .ro, 32, 0, 0, 0⟩,
  ⟨0x403006, 0x403006, .u8, .ro, 64, 0, 0, 0⟩,
  ⟨0x403007, 0x403007, .u8, .ro, 16, 0, 0, 0⟩,
  ⟨0x403008, 0x403008, .u8, .ro, 64, 0, 0, 0⟩,
  ⟨0x403009, 0x403009, .u32, .ro, 0x1000000, 0, 0, 0⟩]

/-- Objects of 07_thatches_and_updates (R224). -/
def objsThatchesAndUpdates : List ObjRow := [
  ⟨0x404001, 0x404001, .u16, .ro, 256, 0, 0, 0⟩,
  ⟨0x404002, 0x404002, .u32, .ro, 0x1000000, 0, 0, 0⟩,
  ⟨0x404003, 0x404003, .u16, .ro, 4096, 0, 0, 0⟩,
  ⟨0x404004, 0x404004, .u16, .ro, 16384, 0, 0, 0⟩,
  ⟨0x404005, 0x404005, .u16, .ro, 1024, 0, 0, 0⟩,
  ⟨0x404006, 0x404006, .u16, .rwt, 16, 16, 4096, 1⟩,
  ⟨0x404007, 0x404007, .u8, .ro, 4, 0, 0, 0⟩,
  ⟨0x404008, 0x404008, .u16, .rwt, 96, 0, 192, 1⟩,
  ⟨0x404009, 0x404009, .u32, .ro, 0x80000000, 0, 0, 0⟩,
  ⟨0x40400A, 0x40400A, .u32, .ro, 0xFFFFFFFE, 0, 0, 0⟩,
  ⟨0x40400B, 0x40400B, .u32, .ro, 0x7F000000, 0, 0, 0⟩,
  ⟨0x404100, 0x4041FF, .u32, .ro, 0, 0, 0, 0⟩,
  ⟨0x404200, 0x4042FF, .u16, .ro, 0, 0, 0, 0⟩,
  ⟨0x404300, 0x4043FF, .u8, .ro, 0, 0, 0, 0⟩,
  ⟨0x404400, 0x4044FF, .u64, .ro, 0, 0, 0, 0⟩,
  ⟨0x404500, 0x4045FF, .u64, .ro, 0, 0, 0, 0⟩,
  ⟨0x404600, 0x4046FF, .u32, .ro, 0, 0, 0, 0⟩,
  ⟨0x404700, 0x4047FF, .u64, .ro, 0, 0, 0, 0⟩,
  ⟨0x404800, 0x4048FF, .u8, .ro, 0, 0, 0, 0⟩,
  ⟨0x404900, 0x4049FF, .u64, .ro, 0, 0, 0, 0⟩]

/-- Objects of 08_dense_layers (R248). -/
def objsDenseLayers : List ObjRow := [
  ⟨0x500001, 0x500001, .u8, .ro, 64, 0, 0, 0⟩,
  ⟨0x500002, 0x500002, .u32, .ro, 32768, 0, 0, 0⟩,
  ⟨0x500003, 0x500003, .u32, .ro, 262144, 0, 0, 0⟩,
  ⟨0x500004, 0x500004, .u16, .ro, 128, 0, 0, 0⟩,
  ⟨0x500005, 0x500005, .u16, .ro, 4096, 0, 0, 0⟩,
  ⟨0x500006, 0x500006, .u32, .ro, 262144, 0, 0, 0⟩,
  ⟨0x500007, 0x500007, .u64, .ro, 0x1D1A94A2000, 0, 0, 0⟩,
  ⟨0x500008, 0x500008, .u64, .ro, 0x746A5288000, 0, 0, 0⟩,
  ⟨0x500009, 0x500009, .u16, .rwt, 64, 0, 256, 1⟩,
  ⟨0x50000A, 0x50000A, .u64, .rwt, 0x200000000, 0, 0x4000000000, 2097152⟩,
  ⟨0x50000B, 0x50000B, .u16, .ro, 4096, 0, 0, 0⟩,
  ⟨0x50000C, 0x50000C, .u16, .ro, 64, 0, 0, 0⟩,
  ⟨0x50000D, 0x50000D, .u16, .ro, 256, 0, 0, 0⟩,
  ⟨0x50000E, 0x50000E, .u16, .ro, 1024, 0, 0, 0⟩,
  ⟨0x501000, 0x50103F, .u64, .ro, 0, 0, 0, 0⟩,
  ⟨0x501100, 0x50113F, .u64, .ro, 0, 0, 0, 0⟩,
  ⟨0x501200, 0x50123F, .u8, .ro, 0, 0, 0, 0⟩]

/-- Objects of 09_embedding_tables (R280). -/
def objsEmbeddingTables1 : List ObjRow := [
  ⟨0x580001, 0x580001, .u16, .ro, 4096, 0, 0, 0⟩,
  ⟨0x580002, 0x580002, .u16, .ro, 4096, 0, 0, 0⟩,
  ⟨0x580003, 0x580003, .u64, .ro, 0x10000000000, 0, 0, 0⟩,
  ⟨0x580004, 0x580004, .u32, .ro, 0x100000, 0, 0, 0⟩,
  ⟨0x580005, 0x580005, .u16, .ro, 256, 0, 0, 0⟩,
  ⟨0x580006, 0x580006, .u16, .ro, 512, 0, 0, 0⟩,
  ⟨0x580007, 0x580007, .u16, .ro, 2048, 0, 0, 0⟩,
  ⟨0x580008, 0x580008, .u16, .ro, 4096, 0, 0, 0⟩,
  ⟨0x580009, 0x580009, .u16, .rwt, 32, 0, 192, 1⟩,
  ⟨0x58000A, 0x58000A, .u16, .rwt, 16, 4, 256, 1⟩,
  ⟨0x58000B, 0x58000B, .u32, .ro, 0x100000, 0, 0, 0⟩,
  ⟨0x58000C, 0x58000C, .u16, .rwt, 64, 4, 4096, 1⟩,
  ⟨0x58000D, 0x58000D, .u16, .rwt, 4, 2, 64, 1⟩,
  ⟨0x58000E, 0x58000E, .u16, .rwt, 256, 16, 65535, 1⟩,
  ⟨0x58000F, 0x58000F, .u16, .rwt, 320, 257, 1024, 1⟩,
  ⟨0x580010, 0x580010, .u32, .rwt, 4096, 1, 65536, 1⟩,
  ⟨0x580011, 0x580011, .u32, .rwt, 64, 0, 0xFFFFFFFF, 1⟩,
  ⟨0x580012, 0x580012, .u64, .rwt, 0x40000000, 0, 0xFFFFFFFFFFFFFFFF, 2097152⟩,
  ⟨0x580013, 0x580013, .u8, .ro, 64, 0, 0, 0⟩,
  ⟨0x580014, 0x580014, .u16, .rwt, 16, 8, 4096, 1⟩,
  ⟨0x581000, 0x58103F, .u32, .ro, 0, 0, 0, 0⟩,
  ⟨0x581100, 0x58113F, .u16, .ro, 0, 0, 0, 0⟩,
  ⟨0x581200, 0x58123F, .u8, .ro, 0, 0, 0, 0⟩,
  ⟨0x581300, 0x58133F, .u64, .ro, 0, 0, 0, 0⟩]

/-- Objects of 09_embedding_tables (R280). -/
def objsEmbeddingTables2 : List ObjRow := [
  ⟨0x581400, 0x58143F, .u32, .ro, 0, 0, 0, 0⟩,
  ⟨0x581500, 0x58153F, .u64, .ro, 0, 0, 0, 0⟩,
  ⟨0x581600, 0x58163F, .u64, .ro, 0, 0, 0, 0⟩]

/-- Objects of 10_memory_tiers (R304). -/
def objsMemoryTiers1 : List ObjRow := [
  ⟨0x600001, 0x600001, .u8, .ro, 12, 0, 0, 0⟩,
  ⟨0x600002, 0x600002, .u64, .ro, 0x2000000000, 0, 0, 0⟩,
  ⟨0x600003, 0x600003, .u32, .ro, 1638, 0, 0, 0⟩,
  ⟨0x600004, 0x600004, .u32, .ro, 0, 0, 0, 0⟩,
  ⟨0x600101, 0x60010C, .u8, .ro, 0, 0, 0, 0⟩,
  ⟨0x601001, 0x601001, .u8, .ro, 0, 0, 0, 0⟩,
  ⟨0x601002, 0x601002, .u16, .ro, 0, 0, 0, 0⟩,
  ⟨0x601003, 0x601003, .u64, .ro, 0, 0, 0, 0⟩,
  ⟨0x601004, 0x601004, .u32, .ro, 0, 0, 0, 0⟩,
  ⟨0x601005, 0x601005, .u32, .ro, 0, 0, 0, 0⟩,
  ⟨0x601101, 0x601108, .u8, .ro, 0, 0, 0, 0⟩,
  ⟨0x601201, 0x601210, .u32, .ro, 0, 0, 0, 0⟩,
  ⟨0x602001, 0x602001, .u32, .ro, 2000, 0, 0, 0⟩,
  ⟨0x602002, 0x602002, .u32, .ro, 6000, 0, 0, 0⟩,
  ⟨0x602003, 0x602003, .u32, .rwt, 200000, 100000, 0x1E8480, 1⟩,
  ⟨0x602004, 0x602004, .u16, .ro, 4096, 0, 0, 0⟩,
  ⟨0x602005, 0x602005, .u16, .ro, 64, 0, 0, 0⟩,
  ⟨0x602006, 0x602006, .u16, .rwt, 64, 0, 128, 1⟩,
  ⟨0x602007, 0x602007, .u32, .ro, 65536, 0, 0, 0⟩,
  ⟨0x602008, 0x602008, .u32, .ro, 0x100000, 0, 0, 0⟩,
  ⟨0x604000, 0x6043FF, .u32, .sig, 0, 0, 0xFFFFFFFF, 1⟩,
  ⟨0x604400, 0x6047FF, .u32, .sig, 0, 0, 0xFFFFFFFF, 1⟩,
  ⟨0x604800, 0x604BFF, .u32, .ro, 0, 0, 0, 0⟩,
  ⟨0x604C00, 0x604FFF, .u32, .ro, 0, 0, 0, 0⟩]

/-- Objects of 10_memory_tiers (R304). -/
def objsMemoryTiers2 : List ObjRow := [
  ⟨0x605000, 0x6053FF, .u8, .rwt, 0, 0, 1, 1⟩]

/-- Objects of 11_flash_media (R332). -/
def objsFlashMedia1 : List ObjRow := [
  ⟨0x700001, 0x700001, .u8, .ro, 0, 0, 0, 0⟩,
  ⟨0x700002, 0x700002, .u8, .ro, 8, 0, 0, 0⟩,
  ⟨0x700003, 0x700003, .u8, .ro, 0, 0, 0, 0⟩,
  ⟨0x700004, 0x700004, .u8, .ro, 0, 0, 0, 0⟩,
  ⟨0x700005, 0x700005, .u16, .ro, 0, 0, 0, 0⟩,
  ⟨0x700006, 0x700006, .u16, .ro, 0, 0, 0, 0⟩,
  ⟨0x700007, 0x700007, .u8, .ro, 0, 0, 0, 0⟩,
  ⟨0x700008, 0x700008, .u64, .ro, 0, 0, 0, 0⟩,
  ⟨0x700009, 0x700009, .u64, .ro, 0, 0, 0, 0⟩,
  ⟨0x70000A, 0x70000A, .u32, .ro, 1500, 0, 0, 0⟩,
  ⟨0x700101, 0x700120, .u8, .ro, 0, 0, 0, 0⟩,
  ⟨0x701001, 0x701001, .u8, .ro, 1, 0, 0, 0⟩,
  ⟨0x701002, 0x701002, .u32, .ro, 0, 0, 0, 0⟩,
  ⟨0x701003, 0x701003, .u32, .ro, 0, 0, 0, 0⟩,
  ⟨0x701004, 0x701004, .u32, .ro, 0, 0, 0, 0⟩,
  ⟨0x701005, 0x701005, .u32, .ro, 0, 0, 0, 0⟩,
  ⟨0x701006, 0x701006, .u32, .ro, 0, 0, 0, 0⟩,
  ⟨0x701007, 0x701007, .u32, .ro, 0, 0, 0, 0⟩,
  ⟨0x701008, 0x701008, .u64, .ro, 0, 0, 0, 0⟩,
  ⟨0x701009, 0x701009, .u32, .ro, 0, 0, 0, 0⟩,
  ⟨0x70100A, 0x70100A, .u16, .ro, 0, 0, 0, 0⟩,
  ⟨0x702001, 0x702001, .u32, .rwt, 2048, 256, 65536, 1⟩,
  ⟨0x702002, 0x702002, .u32, .rwt, 4096, 0, 131072, 1⟩,
  ⟨0x702003, 0x702003, .u32, .ro, 1024, 0, 0, 0⟩]

/-- Objects of 11_flash_media (R332). -/
def objsFlashMedia2 : List ObjRow := [
  ⟨0x702004, 0x702004, .u32, .rwt, 8192, 0, 65536, 1⟩,
  ⟨0x702005, 0x702005, .u16, .rwt, 256, 32, 4096, 1⟩,
  ⟨0x702006, 0x702006, .u16, .rwt, 64, 0, 4096, 1⟩,
  ⟨0x702007, 0x702007, .u8, .ro, 0, 0, 0, 0⟩,
  ⟨0x702008, 0x702008, .u32, .rwt, 65536, 4096, 0x100000, 1⟩,
  ⟨0x702009, 0x702009, .u8, .rwt, 160, 64, 240, 1⟩,
  ⟨0x70200A, 0x70200A, .u32, .ro, 0, 0, 0, 0⟩,
  ⟨0x70200C, 0x70200C, .u32, .ro, 0x100000, 0, 0, 0⟩,
  ⟨0x70200D, 0x70200D, .u16, .rwt, 4096, 64, 65535, 1⟩,
  ⟨0x703001, 0x703001, .u64, .rwt, 0x400000000, 0, 0xFFFFFFFFFFFFFFFF, 2097152⟩,
  ⟨0x703002, 0x703002, .u64, .rwt, 0, 0, 0xFFFFFFFFFFFFFFFF, 1⟩,
  ⟨0x703003, 0x703003, .u32, .rwt, 0, 0, 0xFFFFFFFF, 1⟩,
  ⟨0x703004, 0x703004, .u32, .rwt, 5000, 1000, 50000, 1⟩,
  ⟨0x703005, 0x703005, .u32, .ro, 0, 0, 0, 0⟩,
  ⟨0x704000, 0x7043FF, .u64, .sig, 0, 0, 0xFFFFFFFFFFFFFFFF, 4096⟩,
  ⟨0x704400, 0x7047FF, .u64, .sig, 0, 0, 0xFFFFFFFFFFFFFFFF, 4096⟩,
  ⟨0x704800, 0x704BFF, .u8, .ro, 0, 0, 0, 0⟩,
  ⟨0x704C00, 0x704FFF, .u64, .ro, 0, 0, 0, 0⟩]

/-- Objects of 12_fabric (R376). -/
def objsFabric1 : List ObjRow := [
  ⟨0x800001, 0x800001, .u16, .sig, 0, 0, 4095, 1⟩,
  ⟨0x800002, 0x800002, .bool, .ro, 0, 0, 0, 0⟩,
  ⟨0x800003, 0x800003, .u16, .sig, 0, 0, 65535, 1⟩,
  ⟨0x800004, 0x800004, .u32, .sig, 0, 0, 0xFFFFFFFF, 1⟩,
  ⟨0x800005, 0x800005, .u8, .ro, 0, 0, 0, 0⟩,
  ⟨0x800006, 0x800006, .u8, .ro, 0, 0, 0, 0⟩,
  ⟨0x800007, 0x800007, .u32, .ro, 0, 0, 0, 0⟩,
  ⟨0x800008, 0x800008, .u16, .ro, 1, 0, 0, 0⟩,
  ⟨0x800101, 0x800110, .u8, .ro, 0, 0, 0, 0⟩,
  ⟨0x800201, 0x800210, .u32, .ro, 0, 0, 0, 0⟩,
  ⟨0x800301, 0x800310, .u8, .rwt, 1, 0, 3, 1⟩,
  ⟨0x801001, 0x801001, .u16, .ro, 256, 0, 0, 0⟩,
  ⟨0x801002, 0x801002, .u32, .ro, 1000, 0, 0, 0⟩,
  ⟨0x801003, 0x801003, .u16, .rwt, 16, 1, 1024, 1⟩,
  ⟨0x801004, 0x801004, .u32, .ro, 100000, 0, 0, 0⟩,
  ⟨0x801005, 0x801005, .u8, .ro, 3, 0, 0, 0⟩,
  ⟨0x801006, 0x801006, .u16, .ro, 1024, 0, 0, 0⟩,
  ⟨0x801007, 0x801007, .u16, .ro, 4, 0, 0, 0⟩,
  ⟨0x802001, 0x802001, .u8, .ro, 8, 0, 0, 0⟩,
  ⟨0x802002, 0x802002, .u16, .rwt, 4096, 256, 16383, 1⟩,
  ⟨0x802004, 0x802004, .u8, .ro, 2, 0, 0, 0⟩,
  ⟨0x802005, 0x802005, .u32, .ro, 100000, 0, 0, 0⟩,
  ⟨0x803001, 0x803001, .u32, .rwt, 16000, 4000, 19000, 1⟩,
  ⟨0x803002, 0x803002, .u32, .ro, 4000, 0, 0, 0⟩]

/-- Objects of 12_fabric (R376). -/
def objsFabric2 : List ObjRow := [
  ⟨0x803003, 0x803003, .u32, .ro, 65536, 0, 0, 0⟩,
  ⟨0x803004, 0x803004, .u32, .ro, 500, 0, 0, 0⟩,
  ⟨0x803005, 0x803005, .u16, .ro, 1024, 0, 0, 0⟩,
  ⟨0x803006, 0x803006, .u16, .ro, 4096, 0, 0, 0⟩,
  ⟨0x804001, 0x804001, .blob, .sig, 0, 0, 0, 0⟩,
  ⟨0x804002, 0x804002, .u16, .rwt, 16, 8, 4096, 1⟩,
  ⟨0x804003, 0x804003, .u8, .ro, 4, 0, 0, 0⟩,
  ⟨0x804004, 0x804004, .u8, .ro, 4, 0, 0, 0⟩,
  ⟨0x804005, 0x804005, .u8, .ro, 0, 0, 0, 0⟩,
  ⟨0x804006, 0x804006, .u16, .ro, 0, 0, 0, 0⟩,
  ⟨0x804007, 0x804007, .u64, .ro, 0, 0, 0, 0⟩,
  ⟨0x804008, 0x804008, .u32, .ro, 0, 0, 0, 0⟩,
  ⟨0x804009, 0x804009, .u8, .ro, 2, 0, 0, 0⟩,
  ⟨0x804101, 0x804101, .blob, .ro, 0, 0, 0, 0⟩,
  ⟨0x805000, 0x805FFF, .u8, .ro, 255, 0, 0, 0⟩,
  ⟨0x806000, 0x806FFF, .u32, .ro, 0, 0, 0, 0⟩]

/-- Objects of 13_faults_and_spares (R400). -/
def objsFaultsAndSpares1 : List ObjRow := [
  ⟨0x900001, 0x900001, .u16, .ro, 0, 0, 0, 0⟩,
  ⟨0x900002, 0x900002, .u16, .ro, 65535, 0, 0, 0⟩,
  ⟨0x900003, 0x900003, .u16, .ro, 0, 0, 0, 0⟩,
  ⟨0x900004, 0x900004, .u32, .ro, 50000, 0, 0, 0⟩,
  ⟨0x900005, 0x900005, .u32, .rwt, 4096, 256, 0x100000, 1⟩,
  ⟨0x900006, 0x900006, .u8, .rwt, 3, 2, 16, 1⟩,
  ⟨0x900007, 0x900007, .u16, .rwt, 8, 4, 256, 1⟩,
  ⟨0x900008, 0x900008, .u16, .sig, 0, 0, 65535, 1⟩,
  ⟨0x900009, 0x900009, .blob, .sig, 0, 0, 0, 0⟩,
  ⟨0x90000A, 0x90000A, .u16, .sig, 0, 0, 65535, 1⟩,
  ⟨0x90000B, 0x90000B, .u16, .ro, 64, 0, 0, 0⟩,
  ⟨0x902001, 0x902001, .u32, .rwt, 4096, 256, 0x100000, 1⟩,
  ⟨0x902002, 0x902002, .u32, .rwt, 4096, 0, 0xFFFFFFFF, 1⟩,
  ⟨0x902003, 0x902003, .u32, .rwt, 65536, 0, 0xFFFFFFFF, 1⟩,
  ⟨0x902004, 0x902004, .u32, .ro, 0, 0, 0, 0⟩,
  ⟨0x902101, 0x9021C0, .u32, .ro, 0, 0, 0, 0⟩,
  ⟨0x902201, 0x9022C0, .u32, .ro, 0, 0, 0, 0⟩,
  ⟨0x902301, 0x902352, .u32, .ro, 0, 0, 0, 0⟩,
  ⟨0x903001, 0x903001, .u16, .rwt, 25, 1, 90, 1⟩,
  ⟨0x903002, 0x903002, .u16, .rwt, 128, 16, 256, 1⟩,
  ⟨0x903003, 0x903003, .u16, .ro, 0, 0, 0, 0⟩,
  ⟨0x903004, 0x903004, .u16, .ro, 0, 0, 0, 0⟩,
  ⟨0x903005, 0x903005, .u32, .ro, 0, 0, 0, 0⟩,
  ⟨0x903006, 0x903006, .u32, .ro, 0, 0, 0, 0⟩]

/-- Objects of 13_faults_and_spares (R400). -/
def objsFaultsAndSpares2 : List ObjRow := [
  ⟨0x903007, 0x903007, .u16, .ro, 0, 0, 0, 0⟩]

/-- Objects of 14_scheduling (R422). -/
def objsScheduling : List ObjRow := [
  ⟨0xB00001, 0xB00001, .u32, .ro, 0, 0, 0, 0⟩,
  ⟨0xB00002, 0xB00002, .u32, .rwt, 0xFFFFFFFF, 0, 0xFFFFFFFF, 1⟩,
  ⟨0xB00003, 0xB00003, .u16, .rwt, 208, 64, 256, 1⟩,
  ⟨0xB00004, 0xB00004, .u64, .ro, 0, 0, 0, 0⟩,
  ⟨0xB00005, 0xB00005, .u16, .rwt, 64, 1, 256, 1⟩,
  ⟨0xB00006, 0xB00006, .u16, .rwt, 1024, 1, 65535, 1⟩,
  ⟨0xB00007, 0xB00007, .u32, .ro, 65536, 0, 0, 0⟩,
  ⟨0xB00008, 0xB00008, .u16, .ro, 2432, 0, 0, 0⟩,
  ⟨0xB00009, 0xB00009, .u16, .ro, 1024, 0, 0, 0⟩,
  ⟨0xB0000A, 0xB0000A, .u64, .ro, 0, 0, 0, 0⟩,
  ⟨0xB0000B, 0xB0000B, .u16, .ro, 0, 0, 0, 0⟩,
  ⟨0xB0000C, 0xB0000C, .bool, .wo, 0, 0, 1, 1⟩,
  ⟨0xB01000, 0xB013FF, .u16, .sig, 256, 1, 65535, 1⟩,
  ⟨0xB01400, 0xB017FF, .u64, .ro, 0, 0, 0, 0⟩,
  ⟨0xB10000, 0xB11FFF, .u64, .sig, 0xFFFFFFFFFFFFFFFF, 0, 0xFFFFFFFFFFFFFFFF, 1⟩,
  ⟨0xB12000, 0xB13FFF, .i64, .ro, 0xFFFFFFFF, 0, 0, 0⟩,
  ⟨0xB20000, 0xB227FF, .u64, .ro, 0, 0, 0, 0⟩,
  ⟨0xB24000, 0xB267FF, .u64, .ro, 0, 0, 0, 0⟩,
  ⟨0xB28000, 0xB2A7FF, .u64, .ro, 0, 0, 0, 0⟩]

/-- Objects of 15_host_rings (R451). -/
def objsHostRings : List ObjRow := [
  ⟨0xC00001, 0xC00001, .u8, .ro, 4, 0, 0, 0⟩,
  ⟨0xC00002, 0xC00002, .u8, .ro, 32, 0, 0, 0⟩,
  ⟨0xC00003, 0xC00003, .u8, .ro, 0, 0, 0, 0⟩,
  ⟨0xC00004, 0xC00004, .u32, .ro, 960, 0, 0, 0⟩,
  ⟨0xC00005, 0xC00005, .u16, .ro, 512, 0, 0, 0⟩,
  ⟨0xC00006, 0xC00006, .u16, .ro, 256, 0, 0, 0⟩,
  ⟨0xC00007, 0xC00007, .u16, .ro, 4096, 0, 0, 0⟩,
  ⟨0xC00008, 0xC00008, .u16, .ro, 64, 0, 0, 0⟩,
  ⟨0xC00009, 0xC00009, .u8, .ro, 3, 0, 0, 0⟩,
  ⟨0xC00101, 0xC00104, .u8, .ro, 0, 0, 0, 0⟩,
  ⟨0xC01000, 0xC013FF, .u64, .sig, 0, 0, 0xFFFFFFFFFFFFFFFF, 2097152⟩,
  ⟨0xC01400, 0xC017FF, .u16, .sig, 1542, 0, 65535, 1⟩,
  ⟨0xC01800, 0xC01BFF, .u64, .ro, 0, 0, 0, 0⟩,
  ⟨0xC01C00, 0xC01FFF, .u64, .ro, 0, 0, 0, 0⟩,
  ⟨0xC02000, 0xC023FF, .u64, .ro, 0, 0, 0, 0⟩,
  ⟨0xC02400, 0xC027FF, .u64, .ro, 0, 0, 0, 0⟩,
  ⟨0xC10000, 0xC10FFF, .u64, .sig, 0, 0, 0xFFFFFFFFFFFFFFFF, 1⟩]

/-- Objects of 16_security (R483). -/
def objsSecurity1 : List ObjRow := [
  ⟨0xA00001, 0xA00001, .u8, .ro, 0, 0, 0, 0⟩,
  ⟨0xA00002, 0xA00002, .u32, .ro, 0, 0, 0, 0⟩,
  ⟨0xA00003, 0xA00003, .u8, .ro, 0, 0, 0, 0⟩,
  ⟨0xA00004, 0xA00004, .blob, .ro, 0, 0, 0, 0⟩,
  ⟨0xA00005, 0xA00005, .blob, .ro, 0, 0, 0, 0⟩,
  ⟨0xA00006, 0xA00006, .blob, .ro, 0, 0, 0, 0⟩,
  ⟨0xA00007, 0xA00007, .blob, .ro, 0, 0, 0, 0⟩,
  ⟨0xA00008, 0xA00008, .blob, .ro, 0, 0, 0, 0⟩,
  ⟨0xA00009, 0xA00009, .blob, .ro, 0, 0, 0, 0⟩,
  ⟨0xA0000A, 0xA0000A, .u32, .ro, 10000, 0, 0, 0⟩,
  ⟨0xA0000B, 0xA0000B, .u32, .ro, 1500, 0, 0, 0⟩,
  ⟨0xA0000C, 0xA0000C, .u8, .ro, 0, 0, 0, 0⟩,
  ⟨0xA0000D, 0xA0000D, .u32, .ro, 65536, 0, 0, 0⟩,
  ⟨0xA00101, 0xA00108, .blob, .ro, 0, 0, 0, 0⟩,
  ⟨0xA00201, 0xA00201, .blob, .wo, 0, 0, 0, 0⟩,
  ⟨0xA00202, 0xA00202, .bool, .ro, 0, 0, 0, 0⟩,
  ⟨0xA00203, 0xA00203, .blob, .sig, 0, 0, 0, 0⟩,
  ⟨0xA00205, 0xA00205, .u64, .ro, 0, 0, 0, 0⟩,
  ⟨0xA00301, 0xA00301, .blob, .sig, 0, 0, 0, 0⟩,
  ⟨0xA00302, 0xA00302, .u8, .sig, 0, 1, 1, 1⟩,
  ⟨0xA00303, 0xA00303, .u8, .ro, 0, 0, 0, 0⟩,
  ⟨0xA01001, 0xA01010, .blob, .wo, 0, 0, 0, 0⟩,
  ⟨0xA01101, 0xA01110, .blob, .ro, 0, 0, 0, 0⟩,
  ⟨0xA02001, 0xA02004, .u64, .ro, 0, 0, 0, 0⟩]

/-- Objects of 16_security (R483). -/
def objsSecurity2 : List ObjRow := [
  ⟨0xA02005, 0xA02005, .u32, .sig, 0, 0, 0xFFFFFFFF, 1⟩,
  ⟨0xA03001, 0xA03001, .u32, .ro, 0, 0, 0, 0⟩,
  ⟨0xA04001, 0xA04001, .u32, .rwt, 262144, 4096, 0x1000000, 1⟩,
  ⟨0xA04002, 0xA04002, .u32, .ro, 4096, 0, 0, 0⟩,
  ⟨0xA10000, 0xA103FF, .blob, .wo, 0, 0, 0, 0⟩,
  ⟨0xA10400, 0xA107FF, .u8, .ro, 0, 0, 0, 0⟩,
  ⟨0xA10800, 0xA10BFF, .u8, .sig, 0, 1, 5, 1⟩,
  ⟨0xA10C00, 0xA10FFF, .u64, .ro, 0, 0, 0, 0⟩,
  ⟨0xA11000, 0xA113FF, .u64, .ro, 0, 0, 0, 0⟩]

/-- Objects of 17_object_dictionary (R509). -/
def objsObjectDictionary1 : List ObjRow := [
  ⟨0x100001, 0x100001, .str, .ro, 0, 0, 0, 0⟩,
  ⟨0x100002, 0x100002, .str, .ro, 0, 0, 0, 0⟩,
  ⟨0x100003, 0x100003, .str, .ro, 0, 0, 0, 0⟩,
  ⟨0x100004, 0x100004, .u8, .ro, 1, 0, 0, 0⟩,
  ⟨0x100005, 0x100005, .str, .ro, 0, 0, 0, 0⟩,
  ⟨0x100006, 0x100006, .u32, .ro, 0, 0, 0, 0⟩,
  ⟨0x100101, 0x100101, .u64, .ro, 0, 0, 0, 0⟩,
  ⟨0x100102, 0x100102, .u64, .ro, 0, 0, 0, 0⟩,
  ⟨0x100103, 0x100103, .u64, .ro, 0, 0, 0, 0⟩,
  ⟨0x100104, 0x100104, .bool, .ro, 0, 0, 0, 0⟩,
  ⟨0x1F0001, 0x1F0001, .u32, .ro, 0, 0, 0, 0⟩,
  ⟨0x1F0002, 0x1F0002, .u16, .ro, 1, 0, 0, 0⟩,
  ⟨0x1F0003, 0x1F0003, .blob, .ro, 0, 0, 0, 0⟩,
  ⟨0x1F0004, 0x1F0004, .u8, .sig, 0, 1, 2, 1⟩,
  ⟨0x1F0005, 0x1F0005, .u32, .ro, 0, 0, 0, 0⟩,
  ⟨0x1F0006, 0x1F0006, .u16, .ro, 0, 0, 0, 0⟩,
  ⟨0x1F1001, 0x1F1001, .u16, .sig, 4620, 1024, 65535, 1⟩,
  ⟨0x1F1002, 0x1F1002, .blob, .sig, 0, 0, 0, 0⟩,
  ⟨0x1F1003, 0x1F1003, .blob, .sig, 0, 0, 0, 0⟩,
  ⟨0x1F1005, 0x1F1005, .u16, .rwt, 256, 16, 4096, 1⟩,
  ⟨0x1F1006, 0x1F1006, .bool, .ro, 0, 0, 0, 0⟩,
  ⟨0x1F1007, 0x1F1007, .u8, .ro, 32, 0, 0, 0⟩,
  ⟨0x1F1008, 0x1F1008, .u32, .ro, 50, 0, 0, 0⟩,
  ⟨0x1F1101, 0x1F1120, .u64, .ro, 0, 0, 0, 0⟩]

/-- Objects of 17_object_dictionary (R509). -/
def objsObjectDictionary2 : List ObjRow := [
  ⟨0x1F2001, 0x1F2001, .u64, .ro, 0x800000000, 0, 0, 0⟩,
  ⟨0x1F2002, 0x1F2002, .u64, .ro, 0x440000000, 0, 0, 0⟩,
  ⟨0x1F2101, 0x1F2108, .u32, .ro, 0, 0, 0, 0⟩,
  ⟨0x1F2109, 0x1F210C, .u32, .ro, 0, 0, 0, 0⟩]

/-- Objects of 18_reset_power_ageing (R535). -/
def objsResetPowerAgeing1 : List ObjRow := [
  ⟨0xD00001, 0xD00001, .u8, .ro, 0, 0, 0, 0⟩,
  ⟨0xD00002, 0xD00002, .u32, .ro, 0, 0, 0, 0⟩,
  ⟨0xD00003, 0xD00003, .u32, .ro, 0, 0, 0, 0⟩,
  ⟨0xD00004, 0xD00004, .u32, .ro, 0, 0, 0, 0⟩,
  ⟨0xD00005, 0xD00005, .u64, .ro, 0, 0, 0, 0⟩,
  ⟨0xD00006, 0xD00006, .u16, .rwt, 2500, 1500, 2500, 1⟩,
  ⟨0xD00007, 0xD00007, .u32, .ro, 0, 0, 0, 0⟩,
  ⟨0xD00008, 0xD00008, .u8, .ro, 64, 0, 0, 0⟩,
  ⟨0xD00009, 0xD00009, .u32, .ro, 0, 0, 0, 0⟩,
  ⟨0xD0000A, 0xD0000A, .bool, .wo, 0, 0, 1, 1⟩,
  ⟨0xD0000B, 0xD0000B, .u32, .ro, 2000, 0, 0, 0⟩,
  ⟨0xD0000C, 0xD0000C, .u32, .ro, 200, 0, 0, 0⟩,
  ⟨0xD0000D, 0xD0000D, .u32, .ro, 38000, 0, 0, 0⟩,
  ⟨0xD0000E, 0xD0000E, .u32, .ro, 61000, 0, 0, 0⟩,
  ⟨0xD0000F, 0xD0000F, .u32, .ro, 40000, 0, 0, 0⟩,
  ⟨0xD01001, 0xD01001, .u8, .ro, 0, 0, 0, 0⟩,
  ⟨0xD01002, 0xD01002, .u8, .sig, 0, 1, 2, 1⟩,
  ⟨0xD01003, 0xD01003, .u32, .rwt, 10000, 1000, 600000, 1⟩,
  ⟨0xD02001, 0xD02001, .u8, .ro, 0, 0, 0, 0⟩,
  ⟨0xD02002, 0xD02002, .u8, .ro, 0, 0, 0, 0⟩,
  ⟨0xD02003, 0xD02003, .bool, .ro, 0, 0, 0, 0⟩,
  ⟨0xD10001, 0xD10001, .u32, .sig, 0, 0, 0xFFFFFFFF, 1⟩,
  ⟨0xD10002, 0xD10002, .u16, .sig, 0, 0, 65535, 1⟩,
  ⟨0xD10003, 0xD10003, .u8, .sig, 0, 0, 255, 1⟩]

/-- Objects of 18_reset_power_ageing (R535). -/
def objsResetPowerAgeing2 : List ObjRow := [
  ⟨0xD10004, 0xD10004, .u32, .sig, 0, 0, 0xFFFFFFFF, 1⟩,
  ⟨0xD10005, 0xD10005, .u16, .sig, 0, 0, 65535, 1⟩,
  ⟨0xD10006, 0xD10006, .u8, .sig, 0, 0, 255, 1⟩,
  ⟨0xD20001, 0xD20020, .u16, .rwt, 0, 0, 65535, 1⟩,
  ⟨0xD20021, 0xD20024, .u32, .rwt, 500000, 10, 0x989680, 1⟩,
  ⟨0xD20025, 0xD20025, .bool, .rwt, 0, 0, 1, 1⟩,
  ⟨0xD30001, 0xD30001, .u16, .ro, 4096, 0, 0, 0⟩,
  ⟨0xD30002, 0xD30002, .u32, .ro, 0x100000, 0, 0, 0⟩,
  ⟨0xD30003, 0xD30003, .u16, .rwt, 400, 200, 1000, 1⟩,
  ⟨0xD30004, 0xD30004, .u8, .rwt, 15, 5, 40, 1⟩,
  ⟨0xD30005, 0xD30005, .u16, .ro, 700, 0, 0, 0⟩,
  ⟨0xD30006, 0xD30006, .u16, .ro, 850, 0, 0, 0⟩,
  ⟨0xD30007, 0xD30007, .bool, .wo, 0, 0, 1, 1⟩,
  ⟨0xD30008, 0xD30008, .u8, .ro, 0, 0, 0, 0⟩,
  ⟨0xD30009, 0xD30009, .u64, .ro, 0, 0, 0, 0⟩,
  ⟨0xD3000A, 0xD3000C, .u16, .ro, 750, 0, 0, 0⟩,
  ⟨0xD3000D, 0xD3000F, .i32, .ro, 0, 0, 0, 0⟩,
  ⟨0xD30010, 0xD30012, .u16, .ro, 0, 0, 0, 0⟩,
  ⟨0xD30013, 0xD30015, .u32, .ro, 0, 0, 0, 0⟩,
  ⟨0xD30016, 0xD30018, .u16, .ro, 0, 0, 0, 0⟩,
  ⟨0xD30019, 0xD3001B, .bool, .ro, 0, 0, 0, 0⟩,
  ⟨0xD3001C, 0xD3007B, .i32, .ro, 0, 0, 0, 0⟩,
  ⟨0xD3007C, 0xD30093, .u32, .ro, 0, 0, 0, 0⟩,
  ⟨0xD40001, 0xD4000C, .i32, .ro, 0, 0, 0, 0⟩]

/-- Objects of 18_reset_power_ageing (R535). -/
def objsResetPowerAgeing3 : List ObjRow := [
  ⟨0xD4000D, 0xD4000F, .i32, .ro, 0, 0, 0, 0⟩,
  ⟨0xD40010, 0xD40010, .i32, .ro, 0, 0, 0, 0⟩,
  ⟨0xD40011, 0xD40020, .i32, .ro, 0, 0, 0, 0⟩,
  ⟨0xD40021, 0xD40021, .i32, .ro, 0, 0, 0, 0⟩]

/-- Every entry outside the counter range (R508). -/
def objTable : List ObjRow :=
  objsRidgeTick ++ objsSpindles ++ objsNumberFormats ++ objsCodesAndDistance ++ objsQueryLife ++
  objsSelectionAndMerge ++ objsThatchesAndUpdates ++ objsDenseLayers ++ objsEmbeddingTables1 ++ objsEmbeddingTables2 ++
  objsMemoryTiers1 ++ objsMemoryTiers2 ++ objsFlashMedia1 ++ objsFlashMedia2 ++ objsFabric1 ++
  objsFabric2 ++ objsFaultsAndSpares1 ++ objsFaultsAndSpares2 ++ objsScheduling ++ objsHostRings ++
  objsSecurity1 ++ objsSecurity2 ++ objsObjectDictionary1 ++ objsObjectDictionary2 ++ objsResetPowerAgeing1 ++
  objsResetPowerAgeing2 ++ objsResetPowerAgeing3

/-- Counters of 01_ridge_tick (R49). -/
def cntsRidgeTick : List CntRow := [
  ⟨0xE01001, 0xE01001, false⟩,
  ⟨0xE01002, 0xE01002, false⟩,
  ⟨0xE01003, 0xE01003, false⟩,
  ⟨0xE01004, 0xE01004, false⟩,
  ⟨0xE01005, 0xE01005, false⟩,
  ⟨0xE01006, 0xE01006, false⟩,
  ⟨0xE01007, 0xE01007, false⟩,
  ⟨0xE01008, 0xE01008, false⟩,
  ⟨0xE01009, 0xE01009, false⟩,
  ⟨0xE0100A, 0xE0100A, false⟩,
  ⟨0xE0100B, 0xE0100B, false⟩,
  ⟨0xE0100C, 0xE0100C, false⟩,
  ⟨0xE0100D, 0xE0100D, false⟩]

/-- Counters of 02_spindles (R82). -/
def cntsSpindles : List CntRow := [
  ⟨0xE02001, 0xE02001, true⟩,
  ⟨0xE02002, 0xE02002, true⟩,
  ⟨0xE02003, 0xE02003, true⟩,
  ⟨0xE02004, 0xE02004, true⟩,
  ⟨0xE02005, 0xE02005, true⟩,
  ⟨0xE02006, 0xE02006, true⟩,
  ⟨0xE02007, 0xE02007, true⟩,
  ⟨0xE02008, 0xE02008, true⟩,
  ⟨0xE02009, 0xE02009, true⟩,
  ⟨0xE0200A, 0xE0200A, true⟩,
  ⟨0xE0200B, 0xE0200B, true⟩,
  ⟨0xE0200C, 0xE0200C, false⟩,
  ⟨0xE0200D, 0xE0200D, false⟩,
  ⟨0xE0200E, 0xE0200E, false⟩,
  ⟨0xE0200F, 0xE0200F, false⟩,
  ⟨0xE02010, 0xE02010, false⟩,
  ⟨0xE02011, 0xE02011, true⟩,
  ⟨0xE02012, 0xE02012, false⟩,
  ⟨0xE02013, 0xE02013, false⟩,
  ⟨0xE02014, 0xE02014, false⟩,
  ⟨0xE02015, 0xE02015, true⟩,
  ⟨0xE02016, 0xE02016, false⟩,
  ⟨0xE02101, 0xE021C0, false⟩,
  ⟨0xE02201, 0xE022C0, false⟩]

/-- Counters of 03_number_formats (R114). -/
def cntsNumberFormats : List CntRow := [
  ⟨0xE03001, 0xE03001, true⟩,
  ⟨0xE03002, 0xE03002, true⟩,
  ⟨0xE03003, 0xE03003, true⟩,
  ⟨0xE03004, 0xE03004, true⟩,
  ⟨0xE03005, 0xE03005, true⟩,
  ⟨0xE03006, 0xE03006, true⟩,
  ⟨0xE03007, 0xE03007, true⟩,
  ⟨0xE03008, 0xE03008, true⟩,
  ⟨0xE03009, 0xE03009, true⟩,
  ⟨0xE0300A, 0xE0300A, true⟩,
  ⟨0xE0300B, 0xE0300B, true⟩,
  ⟨0xE0300C, 0xE0300C, true⟩,
  ⟨0xE0300D, 0xE0300D, true⟩,
  ⟨0xE0300E, 0xE0300E, false⟩,
  ⟨0xE0300F, 0xE0300F, false⟩,
  ⟨0xE03010, 0xE03010, true⟩,
  ⟨0xE03011, 0xE03011, false⟩,
  ⟨0xE03101, 0xE031C0, true⟩,
  ⟨0xE03201, 0xE032C0, true⟩,
  ⟨0xE03301, 0xE033C0, true⟩,
  ⟨0xE03401, 0xE034C0, true⟩]

/-- Counters of 04_codes_and_distance (R137). -/
def cntsCodesAndDistance : List CntRow := [
  ⟨0xE04001, 0xE04001, true⟩,
  ⟨0xE04002, 0xE04002, true⟩,
  ⟨0xE04003, 0xE04003, true⟩,
  ⟨0xE04004, 0xE04004, true⟩,
  ⟨0xE04005, 0xE04005, true⟩,
  ⟨0xE04006, 0xE04006, true⟩,
  ⟨0xE04007, 0xE04007, true⟩,
  ⟨0xE04008, 0xE04008, false⟩,
  ⟨0xE04009, 0xE04009, false⟩,
  ⟨0xE0400A, 0xE0400A, false⟩,
  ⟨0xE0400B, 0xE0400B, false⟩,
  ⟨0xE0400C, 0xE0400C, false⟩,
  ⟨0xE0400D, 0xE0400D, false⟩,
  ⟨0xE0400E, 0xE0400E, true⟩,
  ⟨0xE0400F, 0xE0400F, true⟩,
  ⟨0xE04010, 0xE04010, true⟩,
  ⟨0xE04011, 0xE04011, false⟩,
  ⟨0xE04012, 0xE04012, true⟩]

/-- Counters of 05_query_life (R165, R167). -/
def cntsQueryLife1 : List CntRow := [
  ⟨0xE05001, 0xE05001, true⟩,
  ⟨0xE05002, 0xE05002, true⟩,
  ⟨0xE05003, 0xE05003, true⟩,
  ⟨0xE05004, 0xE05004, false⟩,
  ⟨0xE05005, 0xE05005, true⟩,
  ⟨0xE05006, 0xE05006, true⟩,
  ⟨0xE05007, 0xE05007, true⟩,
  ⟨0xE05008, 0xE05008, true⟩,
  ⟨0xE05009, 0xE05009, true⟩,
  ⟨0xE0500A, 0xE0500A, true⟩,
  ⟨0xE0500B, 0xE0500B, true⟩,
  ⟨0xE0500C, 0xE0500C, true⟩,
  ⟨0xE0500D, 0xE0500D, true⟩,
  ⟨0xE0500E, 0xE0500E, true⟩,
  ⟨0xE0500F, 0xE0500F, false⟩,
  ⟨0xE05010, 0xE05010, true⟩,
  ⟨0xE05011, 0xE05011, true⟩,
  ⟨0xE05012, 0xE05012, true⟩,
  ⟨0xE05013, 0xE05013, true⟩,
  ⟨0xE05014, 0xE05014, true⟩,
  ⟨0xE05015, 0xE05015, true⟩,
  ⟨0xE05016, 0xE05016, true⟩,
  ⟨0xE05017, 0xE05017, false⟩,
  ⟨0xE05018, 0xE05018, false⟩]

/-- Counters of 05_query_life (R165, R167). -/
def cntsQueryLife2 : List CntRow := [
  ⟨0xE05019, 0xE05019, false⟩,
  ⟨0xE0501A, 0xE0501A, false⟩,
  ⟨0xE0501B, 0xE0501B, true⟩,
  ⟨0xE0501C, 0xE0501C, true⟩]

/-- Counters of 06_selection_and_merge (R194). -/
def cntsSelectionAndMerge : List CntRow := [
  ⟨0xE06001, 0xE06001, true⟩,
  ⟨0xE06002, 0xE06002, true⟩,
  ⟨0xE06003, 0xE06003, true⟩,
  ⟨0xE06004, 0xE06004, true⟩,
  ⟨0xE06005, 0xE06005, true⟩,
  ⟨0xE06006, 0xE06006, true⟩,
  ⟨0xE06007, 0xE06007, true⟩,
  ⟨0xE06008, 0xE06008, false⟩,
  ⟨0xE06009, 0xE06009, false⟩,
  ⟨0xE0600A, 0xE0600A, true⟩,
  ⟨0xE0600B, 0xE0600B, true⟩,
  ⟨0xE0600C, 0xE0600C, true⟩,
  ⟨0xE0600D, 0xE0600D, false⟩,
  ⟨0xE0600E, 0xE0600E, false⟩,
  ⟨0xE0600F, 0xE0600F, true⟩,
  ⟨0xE06010, 0xE06010, false⟩,
  ⟨0xE06011, 0xE06011, true⟩,
  ⟨0xE06012, 0xE06012, true⟩,
  ⟨0xE06013, 0xE06013, false⟩,
  ⟨0xE06014, 0xE06014, false⟩]

/-- Counters of 07_thatches_and_updates (R225). -/
def cntsThatchesAndUpdates : List CntRow := [
  ⟨0xE07001, 0xE07001, true⟩,
  ⟨0xE07002, 0xE07002, true⟩,
  ⟨0xE07003, 0xE07003, true⟩,
  ⟨0xE07004, 0xE07004, true⟩,
  ⟨0xE07005, 0xE07005, true⟩,
  ⟨0xE07006, 0xE07006, true⟩,
  ⟨0xE07007, 0xE07007, true⟩,
  ⟨0xE07008, 0xE07008, true⟩,
  ⟨0xE07009, 0xE07009, true⟩,
  ⟨0xE0700A, 0xE0700A, false⟩,
  ⟨0xE0700B, 0xE0700B, true⟩,
  ⟨0xE0700C, 0xE0700C, true⟩,
  ⟨0xE0700D, 0xE0700D, true⟩,
  ⟨0xE0700E, 0xE0700E, false⟩,
  ⟨0xE0700F, 0xE0700F, false⟩,
  ⟨0xE07010, 0xE07010, false⟩,
  ⟨0xE07011, 0xE07011, false⟩,
  ⟨0xE07012, 0xE07012, false⟩]

/-- Counters of 08_dense_layers (R249). -/
def cntsDenseLayers : List CntRow := [
  ⟨0xE08001, 0xE08001, true⟩,
  ⟨0xE08002, 0xE08002, true⟩,
  ⟨0xE08003, 0xE08003, true⟩,
  ⟨0xE08004, 0xE08004, true⟩,
  ⟨0xE08005, 0xE08005, true⟩,
  ⟨0xE08006, 0xE08006, true⟩,
  ⟨0xE08007, 0xE08007, true⟩,
  ⟨0xE08008, 0xE08008, true⟩,
  ⟨0xE08009, 0xE08009, true⟩,
  ⟨0xE0800A, 0xE0800A, true⟩,
  ⟨0xE0800B, 0xE0800B, true⟩,
  ⟨0xE0800C, 0xE0800C, true⟩,
  ⟨0xE0800D, 0xE0800D, false⟩,
  ⟨0xE0800E, 0xE0800E, false⟩,
  ⟨0xE0800F, 0xE0800F, false⟩,
  ⟨0xE08010, 0xE08010, false⟩,
  ⟨0xE08011, 0xE08011, true⟩]

/-- Counters of 09_embedding_tables (R281). -/
def cntsEmbeddingTables1 : List CntRow := [
  ⟨0xE09001, 0xE09001, true⟩,
  ⟨0xE09002, 0xE09002, true⟩,
  ⟨0xE09003, 0xE09003, true⟩,
  ⟨0xE09004, 0xE09004, true⟩,
  ⟨0xE09005, 0xE09005, true⟩,
  ⟨0xE09006, 0xE09006, true⟩,
  ⟨0xE09007, 0xE09007, false⟩,
  ⟨0xE09008, 0xE09008, true⟩,
  ⟨0xE09009, 0xE09009, true⟩,
  ⟨0xE0900C, 0xE0900C, true⟩,
  ⟨0xE0900D, 0xE0900D, true⟩,
  ⟨0xE0900F, 0xE0900F, true⟩,
  ⟨0xE09010, 0xE09010, false⟩,
  ⟨0xE09011, 0xE09011, false⟩,
  ⟨0xE09012, 0xE09012, false⟩,
  ⟨0xE09014, 0xE09014, true⟩,
  ⟨0xE09015, 0xE09015, true⟩,
  ⟨0xE09016, 0xE09016, false⟩,
  ⟨0xE09017, 0xE09017, true⟩,
  ⟨0xE09018, 0xE09018, true⟩,
  ⟨0xE09019, 0xE09019, false⟩,
  ⟨0xE0901A, 0xE0901A, true⟩,
  ⟨0xE0901B, 0xE0901B, true⟩,
  ⟨0xE0901C, 0xE0901C, false⟩]

/-- Counters of 09_embedding_tables (R281). -/
def cntsEmbeddingTables2 : List CntRow := [
  ⟨0xE0901D, 0xE0901D, true⟩,
  ⟨0xE0901E, 0xE0901E, true⟩,
  ⟨0xE0901F, 0xE0901F, true⟩,
  ⟨0xE09101, 0xE09101, false⟩,
  ⟨0xE09102, 0xE09102, true⟩,
  ⟨0xE09103, 0xE09103, true⟩,
  ⟨0xE09104, 0xE09104, true⟩,
  ⟨0xE09105, 0xE09105, true⟩,
  ⟨0xE09106, 0xE09106, true⟩,
  ⟨0xE09107, 0xE09107, true⟩]

/-- Counters of 10_memory_tiers (R305). -/
def cntsMemoryTiers1 : List CntRow := [
  ⟨0xE0A001, 0xE0A001, true⟩,
  ⟨0xE0A002, 0xE0A002, true⟩,
  ⟨0xE0A003, 0xE0A003, true⟩,
  ⟨0xE0A004, 0xE0A004, true⟩,
  ⟨0xE0A005, 0xE0A005, true⟩,
  ⟨0xE0A006, 0xE0A006, true⟩,
  ⟨0xE0A007, 0xE0A007, true⟩,
  ⟨0xE0A008, 0xE0A008, true⟩,
  ⟨0xE0A009, 0xE0A009, true⟩,
  ⟨0xE0A00A, 0xE0A00A, false⟩,
  ⟨0xE0A00B, 0xE0A00B, false⟩,
  ⟨0xE0A00C, 0xE0A00C, false⟩,
  ⟨0xE0A00D, 0xE0A00D, false⟩,
  ⟨0xE0A00E, 0xE0A00E, true⟩,
  ⟨0xE0A00F, 0xE0A00F, true⟩,
  ⟨0xE0A010, 0xE0A010, true⟩,
  ⟨0xE0A011, 0xE0A011, true⟩,
  ⟨0xE0A012, 0xE0A012, true⟩,
  ⟨0xE0A013, 0xE0A013, true⟩,
  ⟨0xE0A014, 0xE0A014, false⟩,
  ⟨0xE0A015, 0xE0A015, false⟩,
  ⟨0xE0A016, 0xE0A016, false⟩,
  ⟨0xE0A017, 0xE0A017, false⟩,
  ⟨0xE0A018, 0xE0A018, false⟩]

/-- Counters of 10_memory_tiers (R305). -/
def cntsMemoryTiers2 : List CntRow := [
  ⟨0xE0A019, 0xE0A019, false⟩]

/-- Counters of 11_flash_media (R333). -/
def cntsFlashMedia1 : List CntRow := [
  ⟨0xE0B001, 0xE0B001, true⟩,
  ⟨0xE0B002, 0xE0B002, true⟩,
  ⟨0xE0B003, 0xE0B003, true⟩,
  ⟨0xE0B004, 0xE0B004, true⟩,
  ⟨0xE0B005, 0xE0B005, false⟩,
  ⟨0xE0B006, 0xE0B006, false⟩,
  ⟨0xE0B007, 0xE0B007, false⟩,
  ⟨0xE0B008, 0xE0B008, true⟩,
  ⟨0xE0B009, 0xE0B009, true⟩,
  ⟨0xE0B00A, 0xE0B00A, true⟩,
  ⟨0xE0B00B, 0xE0B00B, false⟩,
  ⟨0xE0B00C, 0xE0B00C, true⟩,
  ⟨0xE0B00D, 0xE0B00D, false⟩,
  ⟨0xE0B00E, 0xE0B00E, false⟩,
  ⟨0xE0B00F, 0xE0B00F, false⟩,
  ⟨0xE0B010, 0xE0B010, false⟩,
  ⟨0xE0B011, 0xE0B011, false⟩,
  ⟨0xE0B012, 0xE0B012, false⟩,
  ⟨0xE0B013, 0xE0B013, true⟩,
  ⟨0xE0B014, 0xE0B014, true⟩,
  ⟨0xE0B015, 0xE0B015, true⟩,
  ⟨0xE0B016, 0xE0B016, false⟩,
  ⟨0xE0B017, 0xE0B017, true⟩,
  ⟨0xE0B018, 0xE0B018, true⟩]

/-- Counters of 11_flash_media (R333). -/
def cntsFlashMedia2 : List CntRow := [
  ⟨0xE0B019, 0xE0B019, true⟩,
  ⟨0xE0B01A, 0xE0B01A, false⟩,
  ⟨0xE0B01B, 0xE0B01B, false⟩,
  ⟨0xE0B01C, 0xE0B01C, false⟩,
  ⟨0xE0B01D, 0xE0B01D, false⟩,
  ⟨0xE0B01E, 0xE0B01E, false⟩,
  ⟨0xE0B01F, 0xE0B01F, false⟩,
  ⟨0xE0B020, 0xE0B020, false⟩]

/-- Counters of 12_fabric (R377). -/
def cntsFabric1 : List CntRow := [
  ⟨0xE0C001, 0xE0C001, true⟩,
  ⟨0xE0C002, 0xE0C002, true⟩,
  ⟨0xE0C003, 0xE0C003, true⟩,
  ⟨0xE0C004, 0xE0C004, false⟩,
  ⟨0xE0C005, 0xE0C005, false⟩,
  ⟨0xE0C006, 0xE0C006, false⟩,
  ⟨0xE0C007, 0xE0C007, false⟩,
  ⟨0xE0C008, 0xE0C008, true⟩,
  ⟨0xE0C009, 0xE0C009, false⟩,
  ⟨0xE0C00A, 0xE0C00A, false⟩,
  ⟨0xE0C00B, 0xE0C00B, false⟩,
  ⟨0xE0C00C, 0xE0C00C, true⟩,
  ⟨0xE0C00D, 0xE0C00D, true⟩,
  ⟨0xE0C00E, 0xE0C00E, true⟩,
  ⟨0xE0C00F, 0xE0C00F, true⟩,
  ⟨0xE0C010, 0xE0C010, false⟩,
  ⟨0xE0C011, 0xE0C011, false⟩,
  ⟨0xE0C012, 0xE0C012, false⟩,
  ⟨0xE0C013, 0xE0C013, false⟩,
  ⟨0xE0C014, 0xE0C014, false⟩,
  ⟨0xE0C015, 0xE0C015, false⟩,
  ⟨0xE0C016, 0xE0C016, false⟩,
  ⟨0xE0C017, 0xE0C017, false⟩,
  ⟨0xE0C018, 0xE0C018, true⟩]

/-- Counters of 12_fabric (R377). -/
def cntsFabric2 : List CntRow := [
  ⟨0xE0C019, 0xE0C019, true⟩,
  ⟨0xE0C01A, 0xE0C01A, false⟩,
  ⟨0xE0C01B, 0xE0C01B, false⟩,
  ⟨0xE0C01C, 0xE0C01C, false⟩,
  ⟨0xE0C01D, 0xE0C01D, false⟩,
  ⟨0xE0C01E, 0xE0C01E, false⟩]

/-- Counters of 13_faults_and_spares (R401). -/
def cntsFaultsAndSpares : List CntRow := [
  ⟨0xE0D001, 0xE0D001, false⟩,
  ⟨0xE0D002, 0xE0D002, false⟩,
  ⟨0xE0D003, 0xE0D003, false⟩,
  ⟨0xE0D004, 0xE0D004, false⟩,
  ⟨0xE0D005, 0xE0D005, false⟩,
  ⟨0xE0D006, 0xE0D006, false⟩,
  ⟨0xE0D007, 0xE0D007, false⟩,
  ⟨0xE0D008, 0xE0D008, false⟩,
  ⟨0xE0D009, 0xE0D009, false⟩,
  ⟨0xE0D00A, 0xE0D00A, false⟩,
  ⟨0xE0D00B, 0xE0D00B, false⟩,
  ⟨0xE0D00C, 0xE0D00C, false⟩,
  ⟨0xE0D00D, 0xE0D00D, false⟩,
  ⟨0xE0D00E, 0xE0D00E, true⟩,
  ⟨0xE0D00F, 0xE0D00F, false⟩,
  ⟨0xE0D010, 0xE0D010, true⟩,
  ⟨0xE0D011, 0xE0D011, true⟩,
  ⟨0xE0D012, 0xE0D012, false⟩]

/-- Counters of 14_scheduling (R423). -/
def cntsScheduling : List CntRow := [
  ⟨0xE0E001, 0xE0E001, true⟩,
  ⟨0xE0E002, 0xE0E002, true⟩,
  ⟨0xE0E003, 0xE0E003, true⟩,
  ⟨0xE0E004, 0xE0E004, true⟩,
  ⟨0xE0E005, 0xE0E005, true⟩,
  ⟨0xE0E006, 0xE0E006, true⟩,
  ⟨0xE0E007, 0xE0E007, true⟩,
  ⟨0xE0E008, 0xE0E008, true⟩,
  ⟨0xE0E009, 0xE0E009, false⟩,
  ⟨0xE0E00A, 0xE0E00A, true⟩]

/-- Counters of 15_host_rings (R452). -/
def cntsHostRings : List CntRow := [
  ⟨0xE0F001, 0xE0F001, true⟩,
  ⟨0xE0F002, 0xE0F002, true⟩,
  ⟨0xE0F003, 0xE0F003, true⟩,
  ⟨0xE0F004, 0xE0F004, false⟩,
  ⟨0xE0F005, 0xE0F005, false⟩,
  ⟨0xE0F006, 0xE0F006, true⟩,
  ⟨0xE0F007, 0xE0F007, true⟩,
  ⟨0xE0F008, 0xE0F008, false⟩,
  ⟨0xE0F009, 0xE0F009, true⟩,
  ⟨0xE0F00A, 0xE0F00A, true⟩,
  ⟨0xE0F00B, 0xE0F00B, false⟩,
  ⟨0xE0F00C, 0xE0F00C, true⟩,
  ⟨0xE0F00D, 0xE0F00D, false⟩,
  ⟨0xE0F00E, 0xE0F00E, false⟩,
  ⟨0xE0F00F, 0xE0F00F, true⟩,
  ⟨0xE0F010, 0xE0F010, true⟩,
  ⟨0xE0F011, 0xE0F011, false⟩,
  ⟨0xE0F012, 0xE0F012, false⟩,
  ⟨0xE0F013, 0xE0F013, false⟩]

/-- Counters of 16_security (R484). -/
def cntsSecurity : List CntRow := [
  ⟨0xE10001, 0xE10001, false⟩,
  ⟨0xE10002, 0xE10002, false⟩,
  ⟨0xE10003, 0xE10003, false⟩,
  ⟨0xE10004, 0xE10004, false⟩,
  ⟨0xE10005, 0xE10005, false⟩,
  ⟨0xE10006, 0xE10006, false⟩,
  ⟨0xE10007, 0xE10007, false⟩,
  ⟨0xE10008, 0xE10008, false⟩,
  ⟨0xE10009, 0xE10009, false⟩,
  ⟨0xE1000A, 0xE1000A, false⟩,
  ⟨0xE1000B, 0xE1000B, false⟩,
  ⟨0xE1000C, 0xE1000C, false⟩,
  ⟨0xE1000D, 0xE1000D, false⟩,
  ⟨0xE1000E, 0xE1000E, false⟩,
  ⟨0xE1000F, 0xE1000F, false⟩,
  ⟨0xE10010, 0xE10010, false⟩,
  ⟨0xE10011, 0xE10011, false⟩]

/-- Counters of 17_object_dictionary (R510). -/
def cntsObjectDictionary : List CntRow := [
  ⟨0xE11001, 0xE11001, true⟩,
  ⟨0xE11002, 0xE11002, true⟩,
  ⟨0xE11003, 0xE11003, true⟩,
  ⟨0xE11004, 0xE11004, false⟩,
  ⟨0xE11005, 0xE11005, false⟩,
  ⟨0xE11006, 0xE11006, false⟩,
  ⟨0xE11007, 0xE11007, true⟩,
  ⟨0xE11008, 0xE11008, false⟩,
  ⟨0xE11009, 0xE11009, false⟩,
  ⟨0xE1100A, 0xE1100A, false⟩,
  ⟨0xE1100B, 0xE1100B, false⟩,
  ⟨0xE1100C, 0xE1100C, false⟩]

/-- Counters of 18_reset_power_ageing (R536). -/
def cntsResetPowerAgeing : List CntRow := [
  ⟨0xE12001, 0xE12001, false⟩,
  ⟨0xE12002, 0xE12002, false⟩,
  ⟨0xE12003, 0xE12003, false⟩,
  ⟨0xE12004, 0xE12004, false⟩,
  ⟨0xE12005, 0xE12005, false⟩,
  ⟨0xE12006, 0xE12006, true⟩,
  ⟨0xE12007, 0xE12007, true⟩,
  ⟨0xE12008, 0xE12008, true⟩,
  ⟨0xE12009, 0xE12009, false⟩,
  ⟨0xE1200A, 0xE1200A, false⟩,
  ⟨0xE1200B, 0xE1200B, false⟩]

/-- Every counter (R508). -/
def cntTable : List CntRow :=
  cntsRidgeTick ++ cntsSpindles ++ cntsNumberFormats ++ cntsCodesAndDistance ++ cntsQueryLife1 ++
  cntsQueryLife2 ++ cntsSelectionAndMerge ++ cntsThatchesAndUpdates ++ cntsDenseLayers ++ cntsEmbeddingTables1 ++
  cntsEmbeddingTables2 ++ cntsMemoryTiers1 ++ cntsMemoryTiers2 ++ cntsFlashMedia1 ++ cntsFlashMedia2 ++
  cntsFabric1 ++ cntsFabric2 ++ cntsFaultsAndSpares ++ cntsScheduling ++ cntsHostRings ++
  cntsSecurity ++ cntsObjectDictionary ++ cntsResetPowerAgeing

/-- The row that describes an entry of the dictionary (R487). -/
def objRow (k : Key) : Option ObjRow := objTable.find? fun r => Nat.ble r.first k && Nat.ble k r.last

/-- The row that describes a counter. -/
def cntRow (k : Key) : Option CntRow := cntTable.find? fun r => Nat.ble r.first k && Nat.ble k r.last

/-- Does an object table or a counter table fill the index (R487)? -/
def indexExists (i : Nat) : Bool :=
  objTable.any (fun r => Nat.ble (r.first / 256) i && Nat.ble i (r.last / 256)) ||
  cntTable.any (fun r => Nat.ble (r.first / 256) i && Nat.ble i (r.last / 256))

/-- Is the index a page of a paged object, which has no count entry (R486)? Its entries begin at sub-index 0x00. -/
def indexPaged (i : Nat) : Bool :=
  objTable.any fun r => Nat.ble (r.first / 256) i && Nat.ble i (r.last / 256) && r.first % 256 == 0

/-- The count entry of a plain object: its highest sub-index in use (R485). -/
def countEntry (i : Nat) : Nat :=
  let a := objTable.foldl (fun m r => if r.first / 256 == i then max m (r.last % 256) else m) 0
  cntTable.foldl (fun m r => if r.first / 256 == i then max m (r.last % 256) else m) a

/-- Does the sub-index exist under its index (R485, R487)? -/
def subExists (i s : Nat) : Bool :=
  (objRow (key i s)).isSome || (cntRow (key i s)).isSome || (s == 0 && indexExists i && !indexPaged i)

/-- The type code of R489. -/
def Ty.code : Ty → Nat
  | .bool => 1 | .u8 => 2 | .u16 => 3 | .u32 => 4 | .u64 => 5 | .i32 => 6 | .i64 => 7 | .f32 => 8 | .str => 9 | .blob => 10

/-- The length of a value of a fixed type in bytes, 0 for STR and BLOB (R489). -/
def Ty.width : Ty → Nat
  | .bool => 1 | .u8 => 1 | .u16 => 2 | .u32 => 4 | .u64 => 8 | .i32 => 4 | .i64 => 8 | .f32 => 4 | .str => 0 | .blob => 0

/-- The right's code in the catalogue (R509). -/
def Acc.code : Acc → Nat
  | .ro => 0 | .rw => 1 | .wo => 2 | .rwt => 3 | .sig => 4

/-- The start-up value of an entry whose value is a number (R494). Sideband functions take the table of R527: pin in [3:0],
timer in [7:4], active low in bit 8. -/
def dfltOf (k : Key) : Nat :=
  if Nat.ble 0xD20001 k && Nat.ble k 0xD20020 then
    if k == 0xD20001 then 0x01F0 else if k == 0xD20003 then 0x0005 else if k == 0xD20004 then 0x01F2 else if k == 0xD20006 then 0x00F1
    else if k == 0xD2000A then 0x01F3 else if k == 0xD2000B then 0x01F4 else 0x00FF
  else match objRow k with | some r => r.dflt | none => 0

/-- The start-up value of a STR or BLOB entry (R494, R509). -/
def blobDfltOf (k : Key) : List Byte :=
  let str (t : String) : List Byte := t.toList.map fun c => BitVec.ofNat 8 c.toNat
  if k == 0x100001 then str "Vidawyn" else if k == 0x100002 then str "Rhazhamet" else if k == 0x100003 then str "VM-9620"
  else []

/-- The paging code of an index in the catalogue (R486, R509): 0 none, 1 tenant, 2 node, 3 aperture, 4 slot. -/
def pagingCode (i : Nat) : Nat :=
  match objTable.find? fun r => Nat.ble (r.first / 256) i && Nat.ble i (r.last / 256) && r.first % 256 == 0 with
  | none => 0
  | some r =>
    if r.first / 256 == 0xC100 then 3 else
    match r.last / 256 - r.first / 256 with | 0 => 4 | 15 => 2 | _ => 1

/-- The record of one index in the catalogue 0x1F00:03: type, right and default are those of the first entry that its
table lists (DESIGN CHOICE, entry 18: the record has room for one). -/
def catalogueRecord (i : Nat) : List Byte :=
  let paged := indexPaged i
  let (ty, acc, d, lo, hi) :=
    match objTable.find? fun r => Nat.ble (r.first / 256) i && Nat.ble i (r.last / 256) with
    | some r => (r.ty.code, r.acc.code, r.dflt, (if paged then 0 else r.first % 256),
        (if paged then r.last % 256 else countEntry i))
    | none => (5, 0, 0, 1, countEntry i)
  leBytes 2 i ++ leBytes 1 lo ++ leBytes 1 hi ++ leBytes 1 ty ++ leBytes 1 acc ++ leBytes 2 (pagingCode i) ++ leBytes 8 d

/-- The indices in use, ascending: those of the objects, each paged run spread, and those of the counters. -/
def indicesInUse : List Nat :=
  let spread (a b : Key) : List Nat := (List.range (b / 256 - a / 256 + 1)).map (· + a / 256)
  let all := (objTable.flatMap fun r => spread r.first r.last) ++ (cntTable.flatMap fun r => spread r.first r.last)
  (all.mergeSort (· ≤ ·)).dedup

/-- The number of a sub-index 0 of R485 for a plain object. -/
def isCount (k : Key) : Bool := k % 256 == 0 && (objRow k).isNone && (cntRow k).isNone && indexExists (k / 256)

end Sys2Proof.Machine
end

