-- ==== Sys2Proof/Machine/Ops.lean ====
section
/-! DEFINITION. The shared operations: sparse maps, registers and counters, memory and poison, the guard of a running Molset,
the composition map's queries, sending to a peer, part scoring and fault reports. -/

namespace Sys2Proof.Machine

/-- The three outcomes of a command. -/
abbrev Res := Host.Outcome State Fault Refusal

/-! ### Sparse maps -/

/-- The value at a key of a sparse map. -/
def lk {α : Type} (l : List (Nat × α)) (k : Nat) : Option α := (l.find? fun p => p.1 == k).map (·.2)

/-- Store a value under a key, keeping the keys ascending. -/
def put {α : Type} : List (Nat × α) → Nat → α → List (Nat × α)
  | [], k, v => [(k, v)]
  | (a, x) :: r, k, v =>
    if k < a then (k, v) :: (a, x) :: r else if k == a then (k, v) :: r else (a, x) :: put r k v

/-- Drop a key. -/
def del {α : Type} (l : List (Nat × α)) (k : Nat) : List (Nat × α) := l.filter fun p => p.1 != k

/-- Apply a function to the elements that satisfy a test. -/
def updIf {α : Type} (p : α → Bool) (f : α → α) (l : List α) : List α := l.map fun x => if p x then f x else x

/-- The least element of a list of numbers, if any. -/
def minOf (l : List Nat) : Option Nat := l.foldl (fun m x => match m with | none => some x | some y => some (min x y)) none

/-- Insert into a list kept ascending under an order, after its equals. -/
def insertBy {α : Type} (lt : α → α → Bool) (x : α) : List α → List α
  | [] => [x]
  | y :: r => if lt x y then x :: y :: r else y :: insertBy lt x r

/-- Sort ascending under an order, equals in their first order. -/
def sortBy {α : Type} (lt : α → α → Bool) (l : List α) : List α := l.foldl (fun acc x => insertBy lt x acc) []

/-! ### Registers and counters (R19, R50, R491) -/

/-- The value of a register in effect (R491). -/
def State.reg (s : State) (k : Key) : Nat := (lk s.regs k).getD (dfltOf k)

/-- Set a register. -/
def State.setReg (s : State) (k : Key) (v : Nat) : State := { s with regs := put s.regs k v }

/-- Two's complement: the integer that a pattern of `w` bits spells (R489). -/
def toInt (w v : Nat) : Int := if v < 2 ^ (w - 1) then (v : Int) else (v : Int) - 2 ^ w

/-- Two's complement: the pattern of `w` bits of an integer (R489). -/
def ofInt (w : Nat) (i : Int) : Nat := (i % (2 ^ w : Int)).toNat

/-- A signed register of `w` bits. -/
def State.regI (s : State) (w : Nat) (k : Key) : Int := toInt w (s.reg k)

/-- Set a signed register of `w` bits. -/
def State.setRegI (s : State) (w : Nat) (k : Key) (i : Int) : State := s.setReg k (ofInt w i)

/-- A BLOB or STR register. -/
def State.blob (s : State) (k : Key) : List Byte := (lk s.blobs k).getD (blobDfltOf k)

/-- Set a BLOB or STR register. -/
def State.setBlob (s : State) (k : Key) (b : List Byte) : State := { s with blobs := put s.blobs k b }

/-- Add to a counter: its cumulative count and its running view (R50). -/
def State.bump (s : State) (k : Key) (n : Nat) : State :=
  if n == 0 then s else
  { s with cum := put s.cum k ((lk s.cum k).getD 0 + n), run := put s.run k ((lk s.run k).getD 0 + n) }

/-- The cumulative value of a counter. -/
def State.cnt (s : State) (k : Key) : Nat := (lk s.cum k).getD 0

/-- Add 1 to a counter if a condition holds. -/
def State.bumpIf (s : State) (b : Bool) (k : Key) : State := if b then s.bump k 1 else s

/-- Draw the number of a fresh free value (entry 12). -/
def State.draw (s : State) : Nat × State := (s.free, { s with free := s.free + 1 })

/-- Issue an access that completes later (R55, R300): tier 0 stacks, 1 board, 2 flash, 3 peer. Accesses that one command issues are
issued at one instant. -/
def State.issue (s : State) (tier : Nat) (ctx : Option (Nat × Nat)) (tenant addr stage : Nat) (q : Option QName) : State :=
  let a : Access := { id := s.ctl.next, tier, issued := s.ctl.stamp, ctx, tenant, addr, stage, q }
  { s with tier := { s.tier with accesses := s.tier.accesses ++ [a] }, ctl := { s.ctl with next := s.ctl.next + 1 } }

/-- The instant of later accesses is a later one. -/
def State.stampUp (s : State) : State := { s with ctl := { s.ctl with stamp := s.ctl.stamp + 1 } }

/-! ### Time and identity -/

/-- The tick counter (R45). -/
def State.now (s : State) : Nat := s.reg 0x201002

/-- The fabric tick number (R46). -/
def State.ftick (s : State) : Nat := ((s.now : Int) + s.regI 64 0x201003).toNat

/-- The powered-nanoseconds counter (R45). -/
def State.ns (s : State) : Nat := s.reg 0x201001

/-- The node ID in effect (R344). -/
def State.node (s : State) : Nat := s.reg 0x800001 % 4096

/-! ### The guard -/

/-- Power state 2, running (R515). -/
def State.running (s : State) : Bool := s.reg 0xD00001 == 2

/-- A command whose effect is `f` in every power state. The queue is the step's (entry 1). -/
def always (s : State) (f : State → State) : Res := .next { f s with pending := s.pending }

/-- A command of the running Molset: in any other power state no engine acts and nothing changes (R515, entry 4). -/
def live (s : State) (f : State → State) : Res := .next (if s.running then { f s with pending := s.pending } else s)

/-- Is a block in quiesce or reset (R528)? -/
def State.resetting (s : State) (sub b : Nat) : Bool := s.pwr.blocks.any fun x => x.1 == sub && x.2.1 == b

/-- Does the Molset take work: neither acquiring nor out of phase (R43), nor joining without a map (R348)? -/
def State.admits (s : State) : Bool := let a := s.reg 0x200104; a != 1 && a != 4 && !s.time.joining

/-! ### Memory (R72, R287, R302) -/

/-- The number of the system as an owner of memory: the address space of aperture 0 (R448). -/
def systemTenant : Nat := 1024

/-- The bytes of an allocation page (R72). -/
def pageSize : Nat := 2097152

/-- The cell of a tenant's local address. -/
def memKey (tenant addr : Nat) : Nat := tenant * 2 ^ 48 + addr

/-- One byte of memory. A byte that nothing has written reads 0 (R72). -/
def Memory.get (m : List Host.Cell) (a : Nat) : Byte := (lk m a).getD 0

/-- Write one byte, keeping the canonical form: ascending addresses and no byte of 0. -/
def Memory.set : List Host.Cell → Nat → Byte → List Host.Cell
  | [], a, b => if b == 0 then [] else [(a, b)]
  | (k, v) :: r, a, b =>
    if a < k then (if b == 0 then (k, v) :: r else (a, b) :: (k, v) :: r)
    else if a == k then (if b == 0 then r else (a, b) :: r)
    else (k, v) :: Memory.set r a b

/-- Write successive bytes. -/
def Memory.setAll : List Host.Cell → Nat → List Byte → List Host.Cell
  | m, _, [] => m
  | m, a, b :: bs => Memory.setAll (Memory.set m a b) (a + 1) bs

/-- Drop every byte in a range: it reads 0 again. -/
def Memory.clear (m : List Host.Cell) (a n : Nat) : List Host.Cell := m.filter fun p => p.1 < a || a + n ≤ p.1

/-- The canonical form: addresses strictly ascending, no byte of 0. -/
def Memory.wf : List Host.Cell → Bool
  | [] => true
  | [(_, v)] => v != 0
  | (k, v) :: (k', v') :: r => k < k' && v != 0 && Memory.wf ((k', v') :: r)

/-- Bytes of a tenant's local address space. -/
def State.load (s : State) (tenant addr n : Nat) : List Byte :=
  (List.range n).map fun i => Memory.get s.mem (memKey tenant (addr + i))

/-- A little-endian number of a tenant's local address space. -/
def State.loadNat (s : State) (tenant addr n : Nat) : Nat := leNat (s.load tenant addr n)

/-- Store bytes. Every line that the write covers whole loses its poison (R302). -/
def State.store (s : State) (tenant addr : Nat) (bs : List Byte) : State :=
  let a := memKey tenant addr
  { s with
    mem := Memory.setAll s.mem a bs
    poison := s.poison.filter fun l => !(a ≤ l * 64 && l * 64 + 64 ≤ a + bs.length) }

/-- The 64-byte lines of a range. -/
def linesOf (tenant addr n : Nat) : List Nat :=
  if n == 0 then [] else
  let a := memKey tenant addr
  (List.range ((a + n - 1) / 64 - a / 64 + 1)).map (· + a / 64)

/-- Has the stack or board channel of a home failed (R303)? -/
def State.homeFailed (s : State) (h : PHome) : Bool :=
  match h with | .stack n => s.reg (0x600101 + n) == 2 | .board ch _ _ _ _ => s.reg (0x601101 + ch) == 3

/-- Does a read of the range return poison: a line is poisoned (R302), or a page's stack or channel has failed (R303)? -/
def State.poisoned (s : State) (tenant addr n : Nat) : Bool :=
  if n == 0 then false else
  let a := memKey tenant addr
  (s.poison.any fun l => a / 64 ≤ l && l ≤ (a + n - 1) / 64) ||
  s.tier.pages.any fun p => p.tenant == tenant && addr / pageSize ≤ p.page && p.page ≤ (addr + n - 1) / pageSize && s.homeFailed p.home

/-- Poison one line (R302): its page is one that has held a poisoned line. -/
def State.poisonLine (s : State) (tenant addr : Nat) : State :=
  let l := memKey tenant addr / 64
  let pages := updIf (fun p => p.tenant == tenant && p.page == addr / pageSize) (fun p => { p with poisoned := true }) s.tier.pages
  { s with poison := if s.poison.contains l then s.poison else s.poison ++ [l], tier := { s.tier with pages } }

/-- Zero a range of whole pages: its bytes read 0 and no line stays poisoned (R72, R302). -/
def State.zeroRange (s : State) (tenant addr n : Nat) : State :=
  let a := memKey tenant addr
  { s with mem := Memory.clear s.mem a n, poison := s.poison.filter fun l => l * 64 < a || a + n ≤ l * 64 }

/-- The page of a tenant at a local page number. -/
def State.pageAt (s : State) (tenant page : Nat) : Option Page :=
  s.tier.pages.find? fun p => p.tenant == tenant && p.page == page

/-- Is the page in the stacks? -/
def Page.inStacks (p : Page) : Bool := match p.home with | .stack _ => true | .board .. => false

/-- Does every page of the range satisfy the test? An empty range satisfies every test. -/
def State.rangePages (s : State) (tenant addr n : Nat) (p : Page → Bool) : Bool :=
  if n == 0 then true else
  (List.range ((addr + n - 1) / pageSize - addr / pageSize + 1)).all fun i =>
    match s.pageAt tenant (addr / pageSize + i) with | some g => p g && !g.zero | none => false

/-- Does the range lie wholly in pages that the tenant owns (R141)? Aperture 0 is the system's own. -/
def State.owned (s : State) (tenant addr n : Nat) : Bool :=
  if tenant == systemTenant then addr + n ≤ 0x200000 else s.rangePages tenant addr n fun _ => true

/-- Does the range lie wholly in pages of the tenant in the stacks (R288)? -/
def State.ownedStacks (s : State) (tenant addr n : Nat) : Bool :=
  if tenant == systemTenant then addr + n ≤ 0x200000 else s.rangePages tenant addr n Page.inStacks

/-! ### The composition map (R364 to R370) -/

/-- The order of the canonical map: kind, tenant, object, shard, node A (R365). -/
def entrySortKey (e : MapEntry) : Nat :=
  (((e.kind * 1024 + e.tenant) * 2 ^ 32 + e.object) * 2 ^ 32 + e.shard) * 65536 + (if e.kind ≤ 2 then e.a else 0)

/-- Two entries for one thing: a later entry of the same kind and names replaces the earlier one. A node is named by its node A, a tenant's reach by
its tenant and node A (its object and shard carry the binding, R471), the others by object and shard. -/
def entrySame (e f : MapEntry) : Bool :=
  e.kind == f.kind && e.tenant == f.tenant && (if e.kind ≤ 2 then e.a == f.a else e.object == f.object && e.shard == f.shard)

/-- The entry of a node. -/
def nodeEntry (m : List MapEntry) (n : Nat) : Option MapEntry := m.find? fun e => e.kind == 1 && e.a == n

/-- A node's role: 0 spare, 1 search, 2 rank, 3 mixed (R364). -/
def nodeRole (m : List MapEntry) (n : Nat) : Nat := match nodeEntry m n with | some e => e.value % 4 | none => 0

/-- A node's state: 0 absent, 1 in service, 2 draining (R364). -/
def nodeState (m : List MapEntry) (n : Nat) : Nat := match nodeEntry m n with | some e => e.value / 4 % 4 | none => 0

/-- Is the tenant in service at the node under the map (R364)? -/
def reaches (m : List MapEntry) (t n : Nat) : Bool :=
  m.any fun e => e.kind == 2 && e.tenant == t && e.a == n && e.value == 1

/-- The entry of an index's service (R365). -/
def idxService (m : List MapEntry) (t i : Nat) : Option MapEntry :=
  m.find? fun e => e.kind == 3 && e.tenant == t && e.object == i

/-- The entries of an index's shards (R365). -/
def idxShards (m : List MapEntry) (t i : Nat) : List MapEntry :=
  m.filter fun e => e.kind == 4 && e.tenant == t && e.object == i

/-- The entry of an index shard. -/
def idxShard (m : List MapEntry) (t i sh : Nat) : Option MapEntry :=
  m.find? fun e => e.kind == 4 && e.tenant == t && e.object == i && e.shard == sh

/-- The entry of a table's service. -/
def tabService (m : List MapEntry) (t i : Nat) : Option MapEntry :=
  m.find? fun e => e.kind == 5 && e.tenant == t && e.object == i

/-- The entries of a table's shards. -/
def tabShards (m : List MapEntry) (t i : Nat) : List MapEntry :=
  m.filter fun e => e.kind == 6 && e.tenant == t && e.object == i

/-- The entry of a table shard. -/
def tabShard (m : List MapEntry) (t i sh : Nat) : Option MapEntry :=
  m.find? fun e => e.kind == 6 && e.tenant == t && e.object == i && e.shard == sh

/-- The named nodes of an entry: 0xFFFF names none. -/
def entryNodes (e : MapEntry) : List Nat := [e.a, e.b, e.c].filter (· != 0xFFFF)

/-- Both copies of a shard, those that are named. -/
def entryCopies (e : MapEntry) : List Nat := [e.a, e.b].filter (· != 0xFFFF)

/-- The binding that a kind-2 entry carries (R471). -/
def entryBinding (e : MapEntry) : Nat := e.object + e.shard * 2 ^ 32

/-- Does this Molset count a tenant as in service on a node (R471): the map's entry carries the binding that it holds itself, and it has the
tenant in service? Its own node needs no entry. -/
def State.counts (s : State) (t n : Nat) : Bool :=
  s.reg (pagedKey 0xA104 t) == 3 && (n == s.node ||
    s.map.entries.any fun e => e.kind == 2 && e.tenant == t && e.a == n && e.value == 1 && entryBinding e == s.reg (pagedKey 0xA10C t))

/-- Does the map reach the tenant there under another binding (R471)? -/
def State.bindingDiffers (s : State) (t n : Nat) : Bool :=
  s.map.entries.any fun e => e.kind == 2 && e.tenant == t && e.a == n && e.value == 1 && entryBinding e != s.reg (pagedKey 0xA10C t)

/-- A packet of a tenant's work arrives: one whose binding in the map is not the binding held here is treated as of a tenant that is not in service, and
is not served (R471). -/
def liveFor (t : Nat) (s : State) (f : State → State) : Res := live s fun s => if s.bindingDiffers t s.node then s.bump 0xE1000F 1 else f s

/-- The copy that serves a dispatch (R370): copy 0 in service, copy 1 in service, copy 0 draining, copy 1 draining; a node where the tenant is
not in service serves none (R471). -/
def State.serveCopy (s : State) (e : MapEntry) : Option Nat :=
  let ok (n st : Nat) : Bool := n != 0xFFFF && nodeState s.map.entries n == st && s.counts e.tenant n
  if ok e.a 1 then some e.a else if ok e.b 1 then some e.b
  else if ok e.a 2 then some e.a else if ok e.b 2 then some e.b else none

/-- Every node with a role in an index: sequencer, log holders, copies and flash holders. -/
def idxNodes (m : List MapEntry) (t i : Nat) : List Nat :=
  (((idxService m t i).toList ++ idxShards m t i).flatMap entryNodes).eraseDups

/-- Every node with a role in a table. -/
def tabNodes (m : List MapEntry) (t i : Nat) : List Nat :=
  (((tabService m t i).toList.map fun e => e.a) ++ (tabShards m t i).flatMap entryCopies).eraseDups

/-- The current epoch (R364). -/
def State.epoch (s : State) : Nat := s.reg 0x800007

/-- The live set (R348): this Molset and every node whose route is reachable. -/
def State.liveSet (s : State) : List Nat :=
  let others := s.regs.filterMap fun p =>
    if 0x805000 ≤ p.1 && p.1 < 0x806000 && p.2 != 0xFF then some (p.1 - 0x805000) else none
  sortBy (· < ·) ((s.node :: others).eraseDups)

/-- Is a node in the live set? -/
def State.alive (s : State) (n : Nat) : Bool := n == s.node || s.reg (0x805000 + n) != 0xFF

/-- Has the fault protocol declared the node failed (R384)? -/
def State.hasFailed (s : State) (n : Nat) : Bool := s.fault.failed.contains n

/-! ### Sending to a peer (R352, R353, R371) -/

/-- The class of a packet kind (R353). -/
def kindClass (kind : Nat) : Nat :=
  if kind == 1 || kind == 3 || kind == 5 then 2
  else if kind == 2 || kind == 4 || kind == 6 || kind == 7 then 1
  else if kind ≥ 0x20 then 3 else 0

/-- Does a message carry a tenant's data from one protocol engine to another: images, delta records, rows and replicas (R471)? -/
def carriesData (m : Msg) : Bool :=
  match m with
  | .image _ | .delta _ | .logRecords .. | .rowAnswer .. | .contrib .. | .images .. | .warm .. | .handoff .. | .replica .. => true
  | _ => false

/-! ### The egress queue of a packet (R402, R415) -/

/-- Is there a usable next hop: the route table names one, and that port is up (R350)? -/
def State.usable (s : State) (n : Nat) : Bool := let p := s.reg (0x805000 + n); p != 0xFF && s.reg (0x800101 + p) == 3

/-- The class of a query's work: that of its descriptor, kept at its home and on its copies (R403). -/
def State.queryBulk (s : State) (q : QName) : Bool :=
  match s.home.find? fun h => h.name == q with
  | some h => h.par.bulk
  | none => s.copy.any fun c => c.name == q && c.par.bulk

/-- The class of the work that a message serves (R403): that of the query or the job; work without a class field is latency class. -/
def State.msgBulk (s : State) (m : Msg) : Bool :=
  match m with
  | .dispatch d => d.par.bulk
  | .stepReport r => s.queryBulk r.name
  | .widen q _ => s.queryBulk q
  | .stop q => s.queryBulk q
  | .askHank q _ _ => s.queryBulk q
  | .hank h => s.queryBulk h.name
  | .cand c => s.queryBulk c.name
  | .candScore c => s.queryBulk c.name
  | .rowRead _ t n _ skein => s.emb.jobs.any fun j => j.tenant == t && j.table == n && j.adm == skein && j.bulk
  | .contrib r _ => s.emb.jobs.any fun j => j.tenant == r.tenant && j.table == r.table && j.scatter && j.step == r.step && j.bulk
  | _ => false

/-- Does a message belong to a restore of the fault protocol (R390, R391, R402)? -/
def State.restores (s : State) (m : Msg) : Bool :=
  match m with
  | .image im => s.fault.respares.any fun r => r.tenant == im.tenant && r.index == im.index && r.shard == im.shard
  | .logRecords t i _ _ => s.fault.respares.any fun r => r.tenant == t && r.index == i
  | _ => false

/-- The payload bytes of a message; a free value where the spec gives no layout (R171, R172, R268, R352). -/
def payloadBytes (kind seq : Nat) (m : Msg) : Nat :=
  match m with
  | .memOp op => op.data.length
  | .hank h => 64 + 16 * h.entries.length
  | .contrib r _ => 24 + 4 * r.grad.length
  | _ => Config.payloadLen kind seq

/-- The port that a packet leaves by: that of its route (R350); a link-state record goes to a neighbour on the port of that link (R347). -/
def State.portOf (s : State) (p : Sent) : Option Nat :=
  if p.dst == s.node then none
  else if p.kind == 0x11 then (List.range 16).find? fun q => s.reg (0x800101 + q) == 3 && s.reg (0x800201 + q) % 4096 == p.dst
  else if s.usable p.dst then some (s.reg (0x805000 + p.dst))
  else none

/-- A packet waits for its port; one of the system has the system queue (R350, R402, R415). -/
def State.egressOf (s : State) (p : Sent) : List Egress :=
  (s.portOf p).toList.map fun port =>
    { port, tenant := if s.restores p.msg then systemTenant else p.tenant, bulk := s.msgBulk p.msg
      flits := cdiv (32 + payloadBytes p.kind p.seq p.msg) 232, since := s.ns, src := s.node, dst := p.dst, cls := p.cls, seq := p.seq }

/-- Hand a packet to the transport: the next sequence of its destination and class, held until it is acknowledged (R355). The
first sequence is 1 (DESIGN CHOICE, entry 19). A tenant's data go to no node where the tenant does not count as in service (R471). An
acknowledgement owed in the class travels with the packet. Without a usable next hop it is dropped and resent later (R350); a link-state record
is flooded on a port and needs no route. The packet waits for its port (R350, R415). -/
def State.sendAt (s : State) (dst kind tenant epoch : Nat) (role : Bool) (m : Msg) : State :=
  if carriesData m && !s.counts tenant dst then s.bumpIf (s.bindingDiffers tenant dst) 0xE1000F else
  let cls := kindClass kind
  let seq := ((s.net.tx.find? fun p => p.1 == (dst, cls)).map (·.2)).getD 1
  let tx := ((dst, cls), seq + 1) :: s.net.tx.filter fun p => p.1 != (dst, cls)
  let pkt : Sent := { dst, cls, kind, seq, tenant, epoch, role, interval := s.reg 0x803002, bounces := 0, msg := m }
  let s := s.bumpIf (kind != 0x11 && dst != s.node && !s.usable dst) 0xE0C00B
  { s with net := { s.net with
    tx := tx, unacked := s.net.unacked ++ [pkt], owed := s.net.owed.filter fun o => o != (dst, cls), egress := s.net.egress ++ s.egressOf pkt } }

/-- Send a packet that continues work already placed (R371). -/
def State.send (s : State) (dst kind tenant : Nat) (m : Msg) : State := s.sendAt dst kind tenant s.epoch false m

/-- Send a role-routed packet: it carries the current epoch (R371). -/
def State.sendRole (s : State) (dst kind tenant : Nat) (m : Msg) : State := s.sendAt dst kind tenant s.epoch true m

/-- Send to each of several peers, this Molset left out. -/
def State.sendAll (s : State) (dsts : List Nat) (kind tenant : Nat) (role : Bool) (m : Msg) : State :=
  (dsts.filter (· != s.node)).foldl (fun s d => s.sendAt d kind tenant s.epoch role m) s

/-- Send a packet that continues placed work to each of several peers, with the epoch of the work's admission (R371). -/
def State.sendEach (s : State) (dsts : List Nat) (kind tenant epoch : Nat) (m : Msg) : State :=
  (dsts.filter (· != s.node)).foldl (fun s d => s.sendAt d kind tenant epoch false m) s

/-- Keep a role-routed request in the replay log until it completes (R395). -/
def State.logReq (s : State) (name : Nat × Nat) (dst : Nat) (m : Msg) : State :=
  let r : LogReq := { req := s.fault.nextReq, name, oldDst := dst, dst, msg := m, moved := none, answers := [], asked := false }
  { s with fault := { s.fault with log := s.fault.log ++ [r], nextReq := s.fault.nextReq + 1 } }

/-! ### Part scoring (R386) -/

/-- Add a weighted event to the window of a part: kind and number of R380. -/
def State.score (s : State) (kind no weight : Nat) : State :=
  let k := kind * 4096 + no
  let ev := match s.fault.events.find? fun e => e.1 == k with
    | some _ => s.fault.events.map fun e => if e.1 == k then (e.1, e.2.1, e.2.2 + weight) else e
    | none => s.fault.events ++ [(k, 0, weight)]
  { s with fault := { s.fault with events := ev } }

/-- Part kinds of R380. -/
def partSpindle : Nat := 1
def partStack : Nat := 2
def partBoard : Nat := 3
def partFlash : Nat := 4
def partPort : Nat := 5
def partIoDie : Nat := 6
def partHost : Nat := 7
def partTray : Nat := 8

/-! ### Fault messages (R378 to R380, R385) -/

/-- The 48 bytes of a fault protocol message (R380). -/
def faultBytes (m : FaultMsg) : List Byte :=
  leBytes 1 m.subtype ++ leBytes 1 m.code ++ leBytes 2 m.sender ++ leBytes 4 m.case ++ leBytes 8 m.s ++ leBytes 2 m.node ++
  leBytes 2 (m.partKind * 4096 + m.partNo % 4096) ++ leBytes 1 m.verdict ++ [0] ++ leBytes 2 m.reference ++
  leBytes 4 m.epoch ++ leBytes 4 0 ++ leBytes 8 m.d ++ leBytes 8 m.detail

/-- Send a copy on the management network, if a management key is held (R385, R478). -/
def State.mgmtCopy (s : State) (m : FaultMsg) : State :=
  match s.sec.mgmtKey with
  | some k => { s with mgmtOut := s.mgmtOut ++ [(m, Config.hmac k (faultBytes m))] }
  | none => s

/-- Send a fault protocol message to peers: the fabric packet and its management copy (R380, R385). -/
def State.sendFault (s : State) (dsts : List Nat) (m : FaultMsg) : State :=
  (s.sendAll dsts 0x14 0 false (.fault m)).mgmtCopy m

/-- The nodes that may decide a case, in order: the live nodes other than the subject, lowest first (R379, R382). -/
def State.deciders (s : State) (subject : Nat) : List Nat := s.liveSet.filter (· != subject)

/-- The arbiter and the backup for a subject: the two lowest live nodes other than it (R379). -/
def State.arbiters (s : State) (subject : Nat) : List Nat := (s.deciders subject).take 2

/-- A report comes to this Molset: it joins the open case of its subject, or waits for CASE_OPEN at the next tick under a new case number. The
arbiter, the backup and the next two live nodes, which may take the case over, keep it (R379, R381, R382). -/
def State.takeReport (s : State) (m : FaultMsg) : State :=
  let l := (s.deciders m.node).take 4
  match (List.range 4).find? fun i => l[i]? == some s.node with
  | none => s
  | some r =>
    if s.fault.cases.any fun c => c.role != 2 && c.node == m.node && c.partKind == m.partKind && c.partNo == m.partNo && c.st < 3 then s else
    let c : Case := {
      num := s.node * 2 ^ 20 + s.fault.serial % 2 ^ 20, code := m.code, s := m.s, node := m.node, partKind := m.partKind, partNo := m.partNo,
      role := if r == 0 then 0 else 1, rank := r, st := 0, start := m.s + 1 }
    { s with fault := { s.fault with cases := s.fault.cases ++ [c], serial := s.fault.serial + 1 } }

/-- Raise a fault against a subject: the report goes to the arbiter and the backup, and on the management network (R378 to
R380, R385). -/
def State.raiseFault (s : State) (code node partKind partNo detail : Nat) : State :=
  let m : FaultMsg := {
    subtype := 1, code, sender := s.node, case := 0, s := s.ftick, node, partKind, partNo, verdict := 0, reference := 0, epoch := 0, d := 0, detail }
  let dsts := s.arbiters node
  let s := s.sendFault dsts m
  s.takeReport m

/-- Entry to the out-of-phase state (R41, R43): counted, and reported as a code-3 fault. -/
def State.outOfPhase (s : State) : State :=
  if s.reg 0x200104 == 4 then s else
  let s := (s.setReg 0x200104 4).bump 0xE01009 1
  let s := { s with time := { s.time with noLink := 0, lockCount := 0 } }
  s.raiseFault 3 s.node 0 0 0

/-- The tick reference changes: the alignment state stays, and in the acquiring state the count of ticks in a row starts again (R42). -/
def State.setReference (s : State) (ref : Nat) : State :=
  if ref == s.reg 0x200101 then s
  else { s with time := { s.time with lockCount := if s.reg 0x200104 == 1 then 0 else s.time.lockCount } }.setReg 0x200101 ref

/-- A decision that arrives after its tick (R25): not applied, counted, and the out-of-phase state entered. -/
def State.stale (s : State) : State := (s.bump 0xE0100B 1).outOfPhase

end Sys2Proof.Machine
end

