-- ==== Sys2Proof/Machine/Numbers.lean ====
section
/-! DEFINITION. Number formats, rounding, scales, blocks and checks (R83 to R112, R553). Every expression is evaluated exactly in
rationals and rounded once, to the nearest value with ties away from zero (R87). -/

namespace Sys2Proof.Machine

/-! ### Check codes (R553) -/

/-- One bit of CRC-64, ECMA-182, non-reflected. -/
def crc64Bit (r : BitVec 64) : BitVec 64 := if r.msb then (r <<< 1) ^^^ 0x42F0E1EBA9EA3693#64 else r <<< 1

/-- One byte of CRC-64, most significant bit first. -/
def crc64Byte (r : BitVec 64) (b : Byte) : BitVec 64 :=
  (List.range 8).foldl (fun r _ => crc64Bit r) (r ^^^ (b.setWidth 64 <<< 56))

/-- CRC-64 of a byte string: initial value 0, no final XOR. -/
def crc64 (bs : List Byte) : BitVec 64 := bs.foldl crc64Byte 0

/-- One bit of CRC-32C, reflected. -/
def crc32cBit (r : BitVec 32) : BitVec 32 := if r.getLsbD 0 then (r >>> 1) ^^^ 0x82F63B78#32 else r >>> 1

/-- One byte of CRC-32C. -/
def crc32cByte (r : BitVec 32) (b : Byte) : BitVec 32 :=
  (List.range 8).foldl (fun r _ => crc32cBit r) (r ^^^ b.setWidth 32)

/-- CRC-32C of a byte string: initial value and final XOR all ones. -/
def crc32c (bs : List Byte) : BitVec 32 := (bs.foldl crc32cByte 0xFFFFFFFF#32) ^^^ 0xFFFFFFFF#32

/-! ### What conversions and operations count (R91, R114) -/

/-- Counts of one piece of work: elements converted, clipped, saturated conversions, overflows to infinity, saturated I32
results, NaN results, NaN converted to zero or +1, escape blocks written and read, blocks flushed, invalid T2 codes. -/
structure NumCnt where
  conv : Nat := 0
  clip : Nat := 0
  sat : Nat := 0
  ovf : Nat := 0
  isat : Nat := 0
  nan : Nat := 0
  nanz : Nat := 0
  escW : Nat := 0
  escR : Nat := 0
  flush : Nat := 0
  badT2 : Nat := 0
  deriving DecidableEq, Repr

/-- The sum of two counts. -/
def addCnt (a b : NumCnt) : NumCnt :=
  { conv := a.conv + b.conv, clip := a.clip + b.clip, sat := a.sat + b.sat, ovf := a.ovf + b.ovf, isat := a.isat + b.isat,
    nan := a.nan + b.nan, nanz := a.nanz + b.nanz, escW := a.escW + b.escW, escR := a.escR + b.escR,
    flush := a.flush + b.flush, badT2 := a.badT2 + b.badT2 }

/-- The counter of a spindle in a pair of objects, one per die: sub-index s + 1 (R81, R91). -/
def perSpindle (die0 die1 sp : Nat) : Key := if sp < 192 then die0 * 256 + sp + 1 else die1 * 256 + (sp - 192) + 1

/-- Charge counts to the Molset and, for saturation and overflow, to the spindle that performed the work (R91). -/
def State.charge (s : State) (sp : Option Nat) (c : NumCnt) : State :=
  let s := (((s.bump 0xE03001 c.conv).bump 0xE03002 c.clip).bump 0xE03003 c.sat).bump 0xE03004 c.ovf
  let s := (((s.bump 0xE03005 c.isat).bump 0xE03006 c.nan).bump 0xE03007 c.nanz).bump 0xE03008 c.escW
  let s := ((s.bump 0xE03009 c.escR).bump 0xE0300A c.flush).bump 0xE0300B c.badT2
  match sp with
  | some n => (s.bump (perSpindle 0xE031 0xE032 n) (c.clip + c.sat)).bump (perSpindle 0xE033 0xE034 n) (c.ovf + c.isat)
  | none => s

/-- A descriptor that carries a reserved format code is counted as it is refused (R83). -/
def State.reservedFmt (s : State) (fmt : Nat) : State := s.bumpIf (0xB ≤ fmt && fmt ≤ 0xF) 0xE03011

/-! ### Numbers -/

/-- What a code stands for: NaN, a signed infinity, or a sign and an exact magnitude. -/
inductive Num where
  | nan
  | inf (neg : Bool)
  | fin (neg : Bool) (m : Rat)
  deriving DecidableEq, Repr

/-- 2 to an integer power. -/
def pow2 (e : Int) : Rat := if 0 ≤ e then ((2 ^ e.toNat : Nat) : Rat) else 1 / ((2 ^ (-e).toNat : Nat) : Rat)

/-- ⌊log2 q⌋ of a positive rational. -/
def log2Floor (q : Rat) : Int :=
  let l : Int := (Nat.log2 q.num.toNat : Int) - (Nat.log2 q.den : Int)
  if pow2 l ≤ q then l else l - 1

/-- ⌈log2 q⌉ of a positive rational. -/
def log2Ceil (q : Rat) : Int := let l := log2Floor q; if pow2 l == q then l else l + 1

/-- Round a non-negative rational to the nearest integer, ties upward: away from zero on a magnitude (R87). -/
def roundNat (q : Rat) : Nat := (2 * q.num.toNat + q.den) / (2 * q.den)

/-- Round a non-negative rational up to an integer. -/
def ceilNat (q : Rat) : Nat := cdiv q.num.toNat q.den

/-- Round a rational to the nearest integer, ties away from zero (R87). -/
def roundInt (q : Rat) : Int := if q < 0 then -(roundNat (-q) : Int) else (roundNat q : Int)

/-- A float layout: exponent bits, mantissa bits, bias, and its specials: 0 IEEE infinities and NaN, 1 NaN only as the
all-ones code (F8E4), 2 none (F4) (R84). -/
structure FFmt where
  e : Nat
  m : Nat
  bias : Nat
  kind : Nat
  deriving DecidableEq, Repr

/-- The float layout of a format code, if it is a float (R83, R84). -/
def floatOf (fmt : Nat) : Option FFmt :=
  match fmt with
  | 3 => some ⟨2, 1, 1, 2⟩
  | 5 => some ⟨4, 3, 7, 1⟩
  | 6 => some ⟨5, 2, 15, 0⟩
  | 7 => some ⟨5, 10, 15, 0⟩
  | 8 => some ⟨8, 7, 127, 0⟩
  | 9 => some ⟨8, 23, 127, 0⟩
  | _ => none

/-- The F32 layout. -/
def fmtF32 : FFmt := ⟨8, 23, 127, 0⟩

/-- The F8E4 layout. -/
def fmtF8E4 : FFmt := ⟨4, 3, 7, 1⟩

/-- The bits of an element of a format (R83). -/
def fmtBits (fmt : Nat) : Nat := [1, 2, 4, 4, 8, 8, 8, 16, 16, 32, 32].getD fmt 0

/-- Is the format block-scaled (R83)? -/
def blockScaled (fmt : Nat) : Bool := fmt < 7

/-- Decode a float code (R84). -/
def decodeF (f : FFmt) (c : Nat) : Num :=
  let neg := c / 2 ^ (f.e + f.m) % 2 == 1
  let ex := c / 2 ^ f.m % 2 ^ f.e
  let mant := c % 2 ^ f.m
  if f.kind == 0 && ex == 2 ^ f.e - 1 then (if mant == 0 then .inf neg else .nan)
  else if f.kind == 1 && ex == 2 ^ f.e - 1 && mant == 2 ^ f.m - 1 then .nan
  else if ex == 0 then .fin neg ((mant : Rat) * pow2 (1 - (f.bias : Int) - f.m))
  else .fin neg (((2 ^ f.m + mant : Nat) : Rat) * pow2 ((ex : Int) - f.bias - f.m))

/-- The magnitude code of a magnitude, by a rounding of the significand to an integer; unbounded above. -/
def encodeMag (f : FFmt) (rnd : Rat → Nat) (q : Rat) : Nat :=
  if q == 0 then 0 else
  let emin : Int := 1 - (f.bias : Int)
  let e := max emin (log2Floor q)
  (e - emin).toNat * 2 ^ f.m + rnd (q / pow2 (e - f.m))

/-- The code of the largest finite magnitude. -/
def maxCode (f : FFmt) : Nat :=
  if f.kind == 0 then (2 ^ f.e - 1) * 2 ^ f.m - 1
  else if f.kind == 1 then 2 ^ (f.e + f.m) - 2 else 2 ^ (f.e + f.m) - 1

/-- The largest finite magnitude. -/
def maxMag (f : FFmt) : Rat := match decodeF f (maxCode f) with | .fin _ m => m | _ => 0

/-- The sign bit of a float code. -/
def signCode (f : FFmt) (neg : Bool) : Nat := if neg then 2 ^ (f.e + f.m) else 0

/-- The canonical NaN (R86). -/
def nanCode (f : FFmt) : Nat :=
  if f.kind == 1 then 2 ^ (f.e + f.m) - 1 else (2 ^ f.e - 1) * 2 ^ f.m + 2 ^ (f.m - 1)

/-- Convert to a float format (R87 to R90): a finite value beyond the largest finite one, and an infinity in F8E4, saturates and
is counted; in F4 a NaN becomes 0. -/
def toFloat (f : FFmt) (x : Num) : Nat × NumCnt :=
  match x with
  | .nan => if f.kind == 2 then (0, { nanz := 1 }) else (nanCode f, {})
  | .inf neg =>
    if f.kind == 0 then (signCode f neg + (2 ^ f.e - 1) * 2 ^ f.m, {}) else (signCode f neg + maxCode f, { sat := 1 })
  | .fin neg m =>
    if maxMag f < m then (signCode f neg + maxCode f, { sat := 1 })
    else (signCode f neg + min (maxCode f) (encodeMag f roundNat m), {})

/-- Convert an exact value to F32 (R87, R90). -/
def toF32 (x : Num) : F32 × NumCnt := let (c, n) := toFloat fmtF32 x; (BitVec.ofNat 32 c, n)

/-- The value of an F32. -/
def numOf (x : F32) : Num := decodeF fmtF32 x.toNat

/-- The canonical F32 NaN (R86). -/
def f32NaN : F32 := 0x7FC00000#32

/-- +∞. -/
def f32Inf : F32 := 0x7F800000#32

/-- Is the F32 a NaN? -/
def isNaN (x : F32) : Bool := numOf x == .nan

/-- Is the F32 finite? -/
def isFinite (x : F32) : Bool := match numOf x with | .fin _ _ => true | _ => false

/-- The signed exact value of a finite number, 0 for the others. -/
def ratOf (x : Num) : Rat := match x with | .fin true m => -m | .fin false m => m | _ => 0

/-- A number from a signed exact value; zero is +0 (entry 11). -/
def numOfRat (q : Rat) : Num := if q < 0 then .fin true (-q) else .fin false q

/-- The result of an F32 add or multiply: rounded once, with overflow to infinity at the midpoint above the largest finite
value (R90). -/
def roundOp (neg : Bool) (m : Rat) : F32 × NumCnt :=
  let c := encodeMag fmtF32 roundNat m
  if maxCode fmtF32 < c then (BitVec.ofNat 32 (signCode fmtF32 neg + maxCode fmtF32 + 1), { ovf := 1 })
  else (BitVec.ofNat 32 (signCode fmtF32 neg + c), {})

/-- An F32 operation with the result NaN (R89). -/
def nanResult : F32 × NumCnt := (f32NaN, { nan := 1 })

/-- F32 addition (R87, R89, R90). An exact zero sum of unlike signs is +0, as IEEE 754 has it. -/
def fAdd (a b : F32) : F32 × NumCnt :=
  match numOf a, numOf b with
  | .nan, _ => (f32NaN, {})
  | _, .nan => (f32NaN, {})
  | .inf x, .inf y => if x == y then (a, {}) else nanResult
  | .inf _, _ => (a, {})
  | _, .inf _ => (b, {})
  | .fin x p, .fin y q =>
    let r := ratOf (.fin x p) + ratOf (.fin y q)
    if r == 0 then ((if x && y then 0x80000000#32 else 0#32), {})
    else if r < 0 then roundOp true (-r) else roundOp false r

/-- The negation of an F32. -/
def fNeg (a : F32) : F32 := a ^^^ 0x80000000#32

/-- F32 subtraction. -/
def fSub (a b : F32) : F32 × NumCnt := if isNaN b then (f32NaN, {}) else fAdd a (fNeg b)

/-- F32 multiplication (R87, R89, R90). -/
def fMul (a b : F32) : F32 × NumCnt :=
  match numOf a, numOf b with
  | .nan, _ => (f32NaN, {})
  | _, .nan => (f32NaN, {})
  | .inf x, .inf y => ((if x != y then 0xFF800000#32 else f32Inf), {})
  | .inf x, .fin y q => if q == 0 then nanResult else ((if x != y then 0xFF800000#32 else f32Inf), {})
  | .fin x p, .inf y => if p == 0 then nanResult else ((if x != y then 0xFF800000#32 else f32Inf), {})
  | .fin x p, .fin y q => roundOp (x != y) (p * q)

/-- Fold F32 additions over a list, in order, from an accumulator. -/
def fSumFrom (acc : F32) (xs : List F32) : F32 × NumCnt :=
  xs.foldl (fun (a, c) x => let (r, n) := fAdd a x; (r, addCnt c n)) (acc, {})

/-- Σ of F32 values in ascending order: the first value starts the sum, so that one element is its own sum (entry 11). -/
def fSum (xs : List F32) : F32 × NumCnt := match xs with | [] => (0#32, {}) | x :: r => fSumFrom x r

/-- Map an F32 operation over a list, summing its counts. -/
def fMapCnt {α : Type} (f : α → F32 × NumCnt) (xs : List α) : List F32 × NumCnt :=
  let rs := xs.map f
  (rs.map (·.1), rs.foldl (fun c r => addCnt c r.2) {})

/-- The place of a score in the order of R168: ±0 are equal; a NaN has no place and is never asked. -/
def fKey (x : F32) : Int := if x.msb then -((x.setWidth 31).toNat : Int) else (x.toNat : Int)

/-- Does a precede b by value? -/
def fLt (a b : F32) : Bool := fKey a < fKey b

/-! ### Codes of every format -/

/-- Decode an element code (R84, R86): its value, and 1 if it is the invalid T2 code. -/
def decodeElem (fmt c : Nat) : Num × Nat :=
  match floatOf fmt with
  | some f => (decodeF f c, 0)
  | none =>
    if fmt == 0 then (.fin (c % 2 == 1) 1, 0)
    else if fmt == 1 then
      (match c % 4 with | 0 => (.fin false 0, 0) | 1 => (.fin false 1, 0) | 3 => (.fin true 1, 0) | _ => (.fin false 0, 1))
    else (numOfRat ((toInt (fmtBits fmt) c : Int) : Rat), 0)

/-- Unpack bytes into element codes, least significant first (R85). -/
def unpackBits (bits : Nat) (bs : List Byte) : List Nat :=
  if bits ≥ 8 then
    let w := bits / 8
    (List.range (bs.length / w)).map fun i => leNat ((bs.drop (i * w)).take w)
  else bs.flatMap fun b => (List.range (8 / bits)).map fun i => b.toNat / 2 ^ (i * bits) % 2 ^ bits

/-- Pack element codes into bytes, least significant first (R85). -/
def packBits (bits : Nat) (cs : List Nat) : List Byte :=
  if bits ≥ 8 then cs.flatMap (leBytes (bits / 8)) else
  let per := 8 / bits
  (List.range (cdiv cs.length per)).map fun i =>
    BitVec.ofNat 8 (((cs.drop (i * per)).take per).foldr (fun c a => a * 2 ^ bits + c) 0)

/-- Read `n` plain elements of a format from bytes as F32 (R83, R84): F16 and BF16 widen exactly, I32 rounds once. -/
def readPlain (fmt n : Nat) (bs : List Byte) : List F32 :=
  ((unpackBits (fmtBits fmt) bs).take n).map fun c =>
    if fmt == 9 then BitVec.ofNat 32 c else (toF32 (decodeElem fmt c).1).1

/-- The code of an F32 in a format that is not block-scaled (R87 to R90). -/
def toPlain (fmt : Nat) (x : F32) : Nat × NumCnt :=
  if fmt == 9 then ((if isNaN x then 0x7FC00000 else x.toNat), {})
  else match floatOf fmt with
  | some f => toFloat f (numOf x)
  | none =>
    match numOf x with
    | .nan => (0, { nanz := 1 })
    | .inf neg => (ofInt 32 (if neg then -(2 ^ 31 : Int) else 2 ^ 31 - 1), { sat := 1 })
    | .fin neg m =>
      let i := roundInt (ratOf (.fin neg m))
      if i < -(2 ^ 31 : Int) then (ofInt 32 (-(2 ^ 31 : Int)), { sat := 1 })
      else if (2 ^ 31 - 1 : Int) < i then (ofInt 32 (2 ^ 31 - 1), { sat := 1 }) else (ofInt 32 i, {})

/-- Write F32 values as bytes of a format that is not block-scaled. -/
def writePlain (fmt : Nat) (xs : List F32) : List Byte × NumCnt :=
  let rs := xs.map (toPlain fmt)
  (rs.flatMap fun r => leBytes (fmtBits fmt / 8) r.1, rs.foldl (fun c r => addCnt c r.2) {})

/-! ### Scales (R92 to R99) -/

/-- Qmax of a target format (R96). -/
def qmaxOf (fmt : Nat) : Rat := [1, 1, 7, 6, 127, 448, 57344].getD fmt 1

/-- The clip point, for the formats that have one and may escape (R96). -/
def clipPoint (fmt : Nat) : Option Rat :=
  match fmt with | 1 => some (3 / 2) | 2 => some (15 / 2) | 3 => some 7 | _ => none

/-- The largest finite magnitude of a set (R95). -/
def maxFinite (xs : List Num) : Rat := xs.foldl (fun b x => match x with | .fin _ m => max b m | _ => b) 0

/-- The channel exponent of a channel whose largest finite magnitude is `c` (R96). -/
def chanExp (fmt : Nat) (c : Rat) : Int :=
  if c == 0 then 0 else max (-126) (min 127 (log2Ceil (c / (qmaxOf fmt * 448))))

/-- The F8E4 code of a block scale (R97): `up` rounds up, else to nearest; a positive scale never rounds to 0. -/
def scaleCode (up : Bool) (u : Rat) : Nat :=
  if u == 0 then 0 else max 1 (min (maxCode fmtF8E4) (encodeMag fmtF8E4 (if up then ceilNat else roundNat) u))

/-- The value of an F8E4 scale code. -/
def scaleVal (c : Nat) : Rat := ratOf (decodeF fmtF8E4 c)

/-- Encode one element against d = s × 2^e (R88, R89, R98): its code, whether it is clipped, and the counts. A quotient between Qmax and the clip point counts
neither in 0xE030:02 nor in :03 (entry 52). -/
def encodeElem (fmt : Nat) (d : Rat) (x : Num) : Nat × Bool × NumCnt :=
  let q (m : Rat) : Rat := if d == 0 then 0 else m / d
  let int (neg : Bool) (v : Nat) : Nat := ofInt (fmtBits fmt) (if neg then -(v : Int) else v)
  if fmt == 0 then
    match x with
    | .nan => (0, false, { nanz := 1 })
    | .inf neg => (b2n neg, true, {})
    | .fin neg m => (b2n (neg && m != 0), false, {})
  else match floatOf fmt with
  | some f =>
    match x with
    | .nan => if fmt == 3 then (0, false, { nanz := 1 }) else (nanCode f, false, {})
    | .inf neg => if fmt == 3 then (signCode f neg + maxCode f, true, {}) else let (c, n) := toFloat f x; (c, false, n)
    | .fin neg m =>
      match clipPoint fmt with
      | some p => if p ≤ q m then (signCode f neg + maxCode f, true, {})
          else (signCode f neg + min (maxCode f) (encodeMag f roundNat (q m)), false, {})
      | none => let (c, n) := toFloat f (.fin neg (q m)); (c, false, n)
  | none =>
    match x with
    | .nan => (0, false, { nanz := 1 })
    | .inf neg => (int neg (qmaxOf fmt).num.toNat, true, {})
    | .fin neg m =>
      match clipPoint fmt with
      | some p => if p ≤ q m then (int neg (qmaxOf fmt).num.toNat, true, {}) else (int neg (roundNat (q m)), false, {})
      | none => (int neg (min (qmaxOf fmt).num.toNat (roundNat (q m))), false, {})

/-- The F8E4 scale code of a block whose largest finite magnitude is `b`, in a channel with exponent `e` and a clip ratio of
`ratio` / 64 (R97). -/
def blockScale (fmt : Nat) (ratio : Nat) (e : Int) (b : Rat) : Nat :=
  match clipPoint fmt with
  | some _ => scaleCode false ((ratio : Rat) / 64 * b / (qmaxOf fmt * pow2 e))
  | none => scaleCode true (b / (qmaxOf fmt * pow2 e))

/-- Encode one block of up to 32 elements (R92, R97 to R99, R102, R103): the block and the counts. The padding of a short block does not count in 0xE030:01
(entry 52). -/
def encodeBlock (fmt ratio limit tag : Nat) (e : Int) (xs : List Num) : Block × NumCnt :=
  let pad := xs ++ List.replicate (32 - xs.length) (Num.fin false 0)
  let b := maxFinite xs
  let run (f sc : Nat) := pad.map (encodeElem f (scaleVal sc * pow2 e))
  let sc := blockScale fmt ratio e b
  let rs := run fmt sc
  let clipped := (rs.filter (·.2.1)).length
  let cnts (rs : List (Nat × Bool × NumCnt)) : NumCnt := rs.foldl (fun c r => addCnt c r.2.2) { conv := xs.length }
  if (clipPoint fmt).isSome && limit < clipped then
    let sc8 := scaleCode true (b / (127 * pow2 e))
    let r8 := run 4 sc8
    let c := cnts r8
    ({ header := tag + fmt * 256 + 4096, record := sc8 + tag * 256 + 65536 + fmt * 2 ^ 24, payload := packBits 8 (r8.map (·.1)) },
     { c with escW := 1, flush := b2n (b != 0 && r8.all (fun r => r.1 == 0)) })
  else
    let zero (c : Nat) : Bool := match (decodeElem fmt c).1 with | .fin _ m => m == 0 | _ => false
    let c := cnts rs
    ({ header := tag + fmt * 256, record := sc + tag * 256 + clipped * 2 ^ 17 + fmt * 2 ^ 24,
       payload := packBits (fmtBits fmt) (rs.map (·.1)) },
     { c with clip := clipped, flush := b2n (b != 0 && rs.all (fun r => zero r.1)) })

/-- Cut a list into runs of `n`, the last one shorter. -/
def chunks {α : Type} (n : Nat) (xs : List α) : List (List α) :=
  if n == 0 then [] else (List.range (cdiv xs.length n)).map fun i => (xs.drop (i * n)).take n

/-- Encode one channel (R92 to R99, R105): its exponent, its blocks with tags from `tag0`, and the counts. -/
def encodeChannel (fmt ratio limit tag0 : Nat) (xs : List F32) : Int × List Block × NumCnt :=
  let ns := xs.map numOf
  let e := chanExp fmt (maxFinite ns)
  let bs := ((chunks 32 ns).zipIdx).map fun (b, i) => encodeBlock fmt ratio limit ((tag0 + i) % 256) e b
  (e, bs.map (·.1), bs.foldl (fun c b => addCnt c b.2) {})

/-- The bytes of a block in the data stream (R103). -/
def blockBytes (b : Block) : List Byte := leBytes 2 b.header ++ b.payload

/-- The payload length of a block (R92, R103). -/
def payloadLen (fmt : Nat) (esc : Bool) : Nat := if esc then 32 else 4 * fmtBits fmt

/-- Does a block's header agree with its record and with what is expected (R102, R103, R106)? -/
def paired (fmt tag : Nat) (b : Block) : Bool :=
  b.header % 256 == tag && b.record / 256 % 256 == tag && b.header / 4096 % 2 == b.record / 65536 % 2 &&
  b.header / 256 % 16 == fmt && b.record / 2 ^ 24 % 16 == fmt && b.record / 128 % 2 == 0 && b.record % 128 != 127

/-- Is the block an escape block? -/
def isEscape (b : Block) : Bool := b.header / 4096 % 2 == 1

/-- The 32 decoded elements of a block, without its scales (R84, R85), and the invalid T2 codes. -/
def blockElems (fmt : Nat) (b : Block) : List Num × Nat :=
  let f := if isEscape b then 4 else fmt
  let rs := ((unpackBits (fmtBits f) b.payload).take 32).map (decodeElem f)
  (rs.map (·.1), rs.foldl (fun n r => n + r.2) 0)

/-- Multiply a number by a non-negative exact factor. -/
def scaleNum (k : Rat) (x : Num) : Num :=
  match x with | .nan => .nan | .inf neg => if k == 0 then .fin false 0 else .inf neg | .fin neg m => .fin neg (m * k)

/-- The values of a block: q × s × 2^e; a scale of 0x00 decodes to zeros (R94). -/
def blockVals (fmt : Nat) (e : Int) (b : Block) : List Num :=
  if b.record % 256 == 0 then List.replicate 32 (.fin false 0)
  else (blockElems fmt b).1.map (scaleNum (scaleVal (b.record % 256) * pow2 e))

/-- The values of one channel of `n` elements from its blocks (R94), each rounded once to F32. -/
def channelVals (fmt n : Nat) (e : Int) (bs : List Block) : List F32 × NumCnt :=
  let vs := (bs.flatMap (blockVals fmt e)).take n
  let (xs, c) := fMapCnt toF32 vs
  (xs, { c with escR := (bs.filter isEscape).length, badT2 := bs.foldl (fun a b => a + (blockElems fmt b).2) 0 })

/-- Split a data stream and its scale records into blocks, header by header (R103). -/
def splitBlocks (fmt : Nat) : Nat → List Byte → List Nat → List Block
  | 0, _, _ => []
  | n + 1, data, recs =>
    let header := leNat (data.take 2)
    let len := payloadLen fmt (header / 4096 % 2 == 1)
    { header, record := recs.headD 0, payload := (data.drop 2).take len } :: splitBlocks fmt n (data.drop (2 + len)) (recs.drop 1)

/-! ### Products of scaled blocks (R111) -/

/-- The exact sum of products of two element lists, as R89 treats their NaN and infinities: none if the result is NaN. -/
def sumProducts (xs ys : List Num) : Num :=
  let ps := List.zipWith (fun x y => match x, y with
    | .nan, _ => Num.nan
    | _, .nan => .nan
    | .inf a, .inf b => .inf (a != b)
    | .inf a, .fin b m => if m == 0 then .nan else .inf (a != b)
    | .fin a m, .inf b => if m == 0 then .nan else .inf (a != b)
    | .fin a m, .fin b n => .fin (a != b) (m * n)) xs ys
  ps.foldl (fun a p => match a, p with
    | .nan, _ => .nan
    | _, .nan => .nan
    | .inf x, .inf y => if x == y then .inf x else .nan
    | .inf x, _ => .inf x
    | _, .inf y => .inf y
    | .fin x m, .fin y n => numOfRat (ratOf (.fin x m) + ratOf (.fin y n))) (.fin false 0)

/-- Round an exact result to F32 as an add or multiply does (R90). -/
def roundNum (x : Num) : F32 × NumCnt :=
  match x with
  | .nan => (f32NaN, {})
  | .inf neg => ((if neg then 0xFF800000#32 else f32Inf), {})
  | .fin neg m => roundOp neg m

/-- The elements of a block as operands of a product: zeros under a scale of 0x00, whatever the payload holds (R94). -/
def operands (fmt : Nat) (b : Block) : List Num :=
  if b.record % 256 == 0 then List.replicate 32 (.fin false 0) else (blockElems fmt b).1

/-- One block pair of a dot product (R111, steps 1 and 2): the new accumulator. -/
def dotBlock (fx fy : Nat) (acc : F32) (bx yb : Block) : F32 × NumCnt :=
  let ex := operands fx bx
  let ey := operands fy yb
  let srcNaN := ex.contains .nan || ey.contains .nan
  let sum := sumProducts ex ey
  let (p, c1) := roundNum sum
  let c1 := if sum == .nan && !srcNaN then { c1 with nan := 1 } else c1
  let t := scaleVal (bx.record % 256) * scaleVal (yb.record % 256)
  let (pt, c2) := match numOf p with
    | .nan => (f32NaN, ({} : NumCnt))
    | .inf neg => if t == 0 then nanResult else roundNum (.inf neg)
    | .fin neg m => roundOp neg (m * t)
  let (a, c3) := fAdd acc pt
  (a, addCnt (addCnt c1 c2) c3)

/-- A dot product of two channels (R111): ascending blocks, then the channel exponents. -/
def dotChannels (fx fy : Nat) (ex ey : Int) (xs ys : List Block) : F32 × NumCnt :=
  let (acc, c) := (xs.zip ys).foldl (fun (a, c) p => let (r, n) := dotBlock fx fy a p.1 p.2; (r, addCnt c n)) (0#32, ({} : NumCnt))
  match numOf acc with
  | .fin neg m => let (r, n) := roundOp neg (m * pow2 (ex + ey)); (r, addCnt c n)
  | _ => (acc, c)

/-- I32 addition: exact, saturating at the limits (R90, R112). -/
def iAdd (a b : Int) : Int × NumCnt :=
  let r := a + b
  if (2 ^ 31 - 1 : Int) < r then (2 ^ 31 - 1, { isat := 1 })
  else if r < -(2 ^ 31 : Int) then (-(2 ^ 31 : Int), { isat := 1 }) else (r, {})

/-! ### Roots, exponentials and quotients: exact expressions rounded once -/

/-- Round a positive real to F32 from a test that says, of a rational, whether the real is at or above it: nearest, ties away
(R87). `approx` is a rational from which the search starts: the nearest F32 magnitude code of it, give or take one. -/
def roundReal (approx : Rat) (atLeast : Rat → Bool) : F32 :=
  let c := encodeMag fmtF32 roundNat approx
  let v (n : Nat) : Rat := match decodeF fmtF32 n with | .fin _ m => m | _ => 2 ^ 128
  let mid (n : Nat) : Rat := (v n + v (n + 1)) / 2
  BitVec.ofNat 32 (if 0 < c && !atLeast (mid (c - 1)) then c - 1 else if atLeast (mid c) then c + 1 else c)

/-- 1 / √x for a positive rational, rounded once to F32 (R129): 1/√x ≥ q exactly when q²x ≤ 1. -/
def rsqrtF32 (x : Rat) : F32 :=
  -- an approximation to about 2^-40 from the integer root of a scaled reciprocal
  let k : Nat := 64 + Nat.log2 x.den + Nat.log2 x.num.toNat
  let root := Nat.sqrt (x.den * 4 ^ k / x.num.toNat)
  roundReal ((root : Rat) / ((2 ^ k : Nat) : Rat)) fun q => q ≤ 0 || q * q * x ≤ 1

/-- e^x for x ≥ 0 in units of 2^-320: the series of x / 2^16, squared 16 times. -/
def expFix (x : Rat) : Nat :=
  let one : Nat := 2 ^ 320
  let t : Nat := x.num.toNat * 2 ^ 304 / x.den
  let sum := (List.range 40).foldl (fun (a : Nat × Nat) i => let d := a.2 * t / one / (i + 1); (a.1 + d, d)) (one, one)
  (List.range 16).foldl (fun a _ => a * a / one) sum.1

/-- e^x to within 2^-290 of its size for |x| ≤ 104: near enough to decide its rounding (entry 11). -/
def expApprox (q : Rat) : Rat :=
  let one : Rat := ((2 ^ 320 : Nat) : Rat)
  if 0 ≤ q then (expFix q : Rat) / one else one / (expFix (-q) : Rat)

/-- The exponential, rounded once (R233). One that overflows gives +∞ and is counted (R235). -/
def fExp (x : F32) : F32 × NumCnt :=
  match numOf x with
  | .nan => (f32NaN, {})
  | .inf neg => ((if neg then 0#32 else f32Inf), {})
  | .fin neg m =>
    let q := ratOf (.fin neg m)
    if 89 ≤ q then (f32Inf, { ovf := 1 }) else if q ≤ -104 then (0#32, {}) else roundOp false (expApprox q)

/-- The reciprocal, rounded once (R233). The reciprocal of +∞ is +0 (R235); that of a zero is an infinity, as IEEE 754 has it. -/
def fRecip (x : F32) : F32 × NumCnt :=
  match numOf x with
  | .nan => (f32NaN, {})
  | .inf neg => ((if neg then 0x80000000#32 else 0#32), {})
  | .fin neg m => if m == 0 then ((if neg then 0xFF800000#32 else f32Inf), {}) else roundOp neg (1 / m)

/-- The reciprocal square root, rounded once (R233). That of zero is a free value (entry 12). -/
def fRsqrt (x : F32) : F32 × NumCnt :=
  match numOf x with
  | .nan => (f32NaN, {})
  | .inf neg => if neg then nanResult else (0#32, {})
  | .fin neg m => if m == 0 then (Config.rsqrtZero, {}) else if neg then nanResult else (rsqrtF32 m, {})

end Sys2Proof.Machine
end

