-- ==== Sys2Proof/Machine/Codes.lean ====
section
/-! DEFINITION. Product codes and distance computation (R115 to R134): shapes, shingles, encoding, the distance tables, scoring. -/

namespace Sys2Proof.Machine

/-! ### Shapes and shingles (R115 to R121) -/

/-- Codewords per sub-quantizer, K, of a shape byte (R115, R119). -/
def shapeK (shape : Nat) : Nat := if bit shape 0 then 256 else 16

/-- Sign width W of a code 0 to 3 (R119). -/
def signBits (code : Nat) : Nat := [0, 64, 128, 256].getD code 0

/-- Sign width of a shape byte. -/
def shapeW (shape : Nat) : Nat := signBits (field shape 2 1)

/-- Metric of a shape byte: 0 squared Euclidean, 1 inner product, 2 cosine. -/
def shapeMetric (shape : Nat) : Nat := field shape 4 3

/-- Code bytes of an item (R118). -/
def codeBytes (m shape : Nat) : Nat := if bit shape 0 then m else m / 2

/-- Is the shape one that R115 supports? -/
def shapeOk (m shape d dim : Nat) : Bool :=
  8 ≤ m && m ≤ 128 && m % 8 == 0 && 1 ≤ d && d ≤ 512 && dim == m * d && 8 ≤ dim && dim ≤ 4096 &&
  shapeMetric shape != 3 && shape < 32 && shapeW shape ≤ dim

/-- Round up to a multiple of 64. -/
def up64 (n : Nat) : Nat := cdiv n 64 * 64

/-- Do `n` items fit in one shingle (R120)? -/
def fitsShingle (m shape n : Nat) : Bool :=
  64 + up64 (6 * n) + up64 (shapeW shape / 8 * n) + up64 (codeBytes m shape * n) ≤ 65536

/-- The capacity of a shape: the largest item count that fits (R120). -/
def capacity (m shape : Nat) : Nat :=
  let per := 6 + shapeW shape / 8 + codeBytes m shape
  let top := 65472 / per
  -- the section padding takes less than 3 × 64 bytes, so the largest count is within 32 of the unpadded bound
  ((List.range 40).map (top - ·)).find? (fitsShingle m shape) |>.getD 0

/-- Pad with zero bytes to a multiple of 64. -/
def pad64 (bs : List Byte) : List Byte := bs ++ List.replicate (up64 bs.length - bs.length) 0

/-- The bytes of one item's codes (R118, R85). -/
def itemCodes (shape : Nat) (cs : List Nat) : List Byte := packBits (if bit shape 0 then 8 else 4) cs

/-- Section offsets of a shingle of `n` items: sign section (0 if none) and code section (R118, R119). -/
def sectionOffs (shape n : Nat) : Nat × Nat :=
  let idEnd := 64 + up64 (6 * n)
  if shapeW shape == 0 then (0, idEnd) else (idEnd, idEnd + up64 (shapeW shape / 8 * n))

/-- The 65,536 bytes of a shingle with its check field given (R118, R119). -/
def shingleBytes (sh : Shingle) (check : Nat) : List Byte :=
  let h := leBytes 2 sh.layout ++ leBytes 2 sh.thatch ++ leBytes 4 sh.num ++ leBytes 4 sh.list ++ leBytes 2 sh.count ++
    leBytes 1 sh.m ++ leBytes 1 sh.shape ++ leBytes 2 sh.d ++ leBytes 2 sh.res1 ++ leBytes 4 sh.cbset ++ leBytes 2 sh.idOff ++
    leBytes 2 sh.signOff ++ leBytes 2 sh.codeOff ++ leBytes 30 sh.res2 ++ leBytes 4 check
  let body := pad64 (sh.ids.flatMap (leBytes 6)) ++ pad64 (sh.signs.flatMap fun b => b) ++
    pad64 (sh.codes.flatMap (itemCodes sh.shape))
  let all := h ++ body
  (all ++ List.replicate (65536 - all.length) 0).take 65536

/-- The check of a shingle: CRC-32C with bytes 60 to 63 read as zero (R119). -/
def shingleCheck (sh : Shingle) : BitVec 32 := crc32c (shingleBytes sh 0)

/-- A shingle as a build writes it: items in ascending ID, sections in place, check computed (R118, R119). -/
def mkShingle (version num list cbset m shape d : Nat) (items : List (Nat × List Byte × List Nat)) : Shingle :=
  let (so, co) := sectionOffs shape items.length
  let sh : Shingle := {
    layout := 1, thatch := version, num, list, count := items.length, m, shape, d, res1 := 0, cbset, idOff := 64,
    signOff := so, codeOff := co, res2 := 0, check := 0, ids := items.map (·.1), signs := items.map (·.2.1),
    codes := items.map (·.2.2) }
  { sh with check := shingleCheck sh }

/-- The streamer's check of a shingle against what the work item and the codebook descriptor expect (R121). -/
def shingleOk (sh : Shingle) (num version cbset m shape d : Nat) : Bool :=
  let (so, co) := sectionOffs sh.shape sh.count
  sh.check == shingleCheck sh && sh.res1 == 0 && sh.res2 == 0 && sh.idOff == 64 && sh.signOff == so &&
  sh.codeOff == co && sh.num == num && sh.thatch == version && sh.cbset == cbset && sh.m == m && sh.shape == shape &&
  sh.d == d && 1 ≤ sh.count && fitsShingle sh.m sh.shape sh.count && sh.ids.length == sh.count && sh.codes.length == sh.count

/-! ### Normalization and encoding (R117, R123, R129) -/

/-- Normalize under the cosine metric (R129): none if the norm is 0 or not finite. -/
def normalize (xs : List F32) : Option (List F32) × NumCnt :=
  let (sq, c1) := fMapCnt (fun x => fMul x x) xs
  let (n, c2) := fSum sq
  match numOf n with
  | .fin _ m =>
    if m == 0 then (none, addCnt c1 c2) else
    let r := rsqrtF32 m
    let (ys, c3) := fMapCnt (fun x => fMul x r) xs
    (some ys, addCnt (addCnt c1 c2) c3)
  | _ => (none, addCnt c1 c2)

/-- An F16 codeword element widened exactly to F32 (R116, R123). -/
def widen16 (c : Nat) : F32 := (toF32 (decodeElem 7 c).1).1

/-- Codeword k of sub-quantizer m as F32 (R116). -/
def codeword (cb : List Nat) (k d m i : Nat) : List F32 := ((cb.drop ((m * k + i) * d)).take d).map widen16

/-- The entry of a sub-vector and a codeword (R123): squared distance under metric 0, else the negated inner product; a NaN is the canonical one (R86). -/
def tableEntry (metric : Nat) (q c : List F32) : F32 × NumCnt :=
  let terms := (q.zip c).map fun (a, b) =>
    if metric == 0 then
      let (d, c1) := fSub a b
      let (p, c2) := fMul d d
      (p, addCnt c1 c2)
    else fMul a b
  let (s, c) := fSum (terms.map (·.1))
  let c0 := terms.foldl (fun c t => addCnt c t.2) {}
  (if metric == 0 then s else if isNaN s then 0x7FC00000#32 else fNeg s, addCnt c0 c)

/-- The sub-vector m of a vector. -/
def subVec (xs : List F32) (d m : Nat) : List F32 := (xs.drop (m * d)).take d

/-- The nearest codeword of a sub-vector by squared distance, lowest number on ties (R117). -/
def nearestCode (cb : List Nat) (k d m : Nat) (x : List F32) : Nat × NumCnt :=
  let ds := (List.range k).map fun i => tableEntry 0 x (codeword cb k d m i)
  let c := ds.foldl (fun c r => addCnt c r.2) {}
  let best := (ds.zipIdx).foldl (fun (b : Option (F32 × Nat)) (r, i) =>
    match b with
    | none => some (r.1, i)
    | some (v, j) => if fLt r.1 v then some (r.1, i) else some (v, j)) none
  ((best.map (·.2)).getD 0, c)

/-- The sign code of a vector: bit i is the B1 code of element i, W bits packed (R117, R126). -/
def signCodeOf (w : Nat) (xs : List F32) : List Byte :=
  packBits 1 ((xs.take w).map fun x => (encodeElem 0 1 (numOf x)).1)

/-- The vector that is encoded or searched: normalized under cosine (R117, R123). -/
def metricVec (metric : Nat) (xs : List F32) : Option (List F32) × NumCnt :=
  if metric == 2 then normalize xs else (some xs, {})

/-- Encode a vector (R117): its sub-codes and sign code, or none where an element is not finite or the norm is 0. -/
def encodeVector (cb : List Nat) (m shape d : Nat) (xs : List F32) : Option (List Nat × List Byte) × NumCnt :=
  if xs.any (fun x => !isFinite x) then (none, {}) else
  let (ys, c0) := metricVec (shapeMetric shape) xs
  match ys with
  | none => (none, c0)
  | some ys =>
    let rs := (List.range m).map fun i => nearestCode cb (shapeK shape) d i (subVec ys d i)
    (some (rs.map (·.1), if shapeW shape == 0 then [] else signCodeOf (shapeW shape) ys),
      rs.foldl (fun c r => addCnt c r.2) c0)

/-! ### The distance tables (R122 to R128) -/

/-- The least and the greatest of a list of F32 values. -/
def fRange (xs : List F32) : F32 × F32 :=
  match xs with
  | [] => (0#32, 0#32)
  | x :: r => r.foldl (fun (lo, hi) y => (if fLt y lo then y else lo, if fLt hi y then y else hi)) (x, x)

/-- What a table build gives for one query: its tables, or the refusal status of R165. -/
inductive Built where
  | table (t : Table)
  | refused (status : Nat)
  deriving DecidableEq, Repr

/-- The exact value of an F32. -/
def f32Rat (x : F32) : Rat := ratOf (numOf x)

/-- The bytes that the table digest covers after σ and L: the entries in slot order (R126). -/
def tableBytes (entries : List (List Int)) : List Byte := entries.flatMap fun es => es.map fun e => BitVec.ofInt 8 e

/-- Build the tables of one query (R122 to R128). -/
def buildTable (cb : List Nat) (m shape d : Nat) (xs : List F32) : Built × NumCnt :=
  if xs.any (fun x => !isFinite x) then (.refused 0x0009, {}) else
  let metric := shapeMetric shape
  let (ys, c0) := metricVec metric xs
  match ys with
  | none => (.refused 0x000A, c0)
  | some ys =>
    let k := shapeK shape
    let rows := (List.range m).map fun i => (List.range k).map fun j => tableEntry metric (subVec ys d i) (codeword cb k d i j)
    let c := rows.foldl (fun c r => r.foldl (fun c t => addCnt c t.2) c) c0
    let ts := rows.map fun r => r.map (·.1)
    if ts.any (fun r => r.any fun t => !isFinite t || ratOf (numOf t) ≥ pow2 118 || ratOf (numOf t) ≤ -(pow2 118)) then
      (.refused 0x000B, c)
    else
      let ranges := ts.map fRange
      let width := ranges.foldl (fun w (lo, hi) => max w (f32Rat hi - f32Rat lo)) 0
      let sigma : F32 := BitVec.ofNat 32 (encodeMag fmtF32 ceilNat (width / 254))
      let sv := f32Rat sigma
      let entries := List.zipWith (fun r (lo, _) => r.map fun t =>
        if sv == 0 then -127 else roundInt ((f32Rat t - f32Rat lo) / sv) - 127) ts ranges
      let offset := (toF32 (numOfRat (ranges.foldl (fun a (lo, _) => a + f32Rat lo) 0))).1
      let sign := if shapeW shape == 0 then [] else signCodeOf (shapeW shape) ys
      let digest := crc32c (leBytes 4 sigma.toNat ++ leBytes 4 offset.toNat ++ tableBytes entries)
      (.table { entries, sigma, offset, sign, digest }, c)

/-- The compute cycles of a build for one query (R127): each term rounded up. -/
def buildCycles (m shape d dim : Nat) : Nat :=
  let k := shapeK shape
  let metric := shapeMetric shape
  cdiv ((if metric == 0 then 3 else 2) * m * k * d) 64 + (if metric == 2 then cdiv (3 * dim) 64 + 16 else 0) +
  (cdiv (m * k) 64 + m) + cdiv (m * k) 32 + cdiv (m * k) 64

/-- The cycles of the codebook stream at the even share of the stack bandwidth: 65,536 bytes in 2,432 cycles (R127). -/
def codebookCycles (m shape d : Nat) : Nat := cdiv (2 * m * shapeK shape * d * 2432) 65536

/-! ### Scoring (R130 to R132) -/

/-- The sum S of an item (R131). -/
def codeSum (t : Table) (codes : List Nat) : Int :=
  (List.zipWith (fun (es : List Int) c => es.getD c 0) t.entries codes).foldl (· + ·) 0

/-- The reported score: σ × (S + 127 × M) + L, rounded once (R131). -/
def codeScore (t : Table) (codes : List Nat) : F32 :=
  (toF32 (numOfRat (f32Rat t.sigma * ((codeSum t codes + 127 * (codes.length : Int) : Int) : Rat) + f32Rat t.offset))).1

/-- The number of one bits of a byte. -/
def popByte (b : Byte) : Nat := (List.range 8).foldl (fun n i => n + b2n (b.getLsbD i)) 0

/-- The Hamming distance of two sign codes (R132). -/
def hamming (a b : List Byte) : Nat := (List.zipWith (fun x y => popByte (x ^^^ y)) a b).foldl (· + ·) 0

/-- Lane cycles of `n` items for one query (R130, R135). -/
def laneCycles (m n : Nat) : Nat := if m ≤ 64 then cdiv n (64 / m) else n * cdiv m 64

/-- The lane cycles of `n` items for a query, with those of its prefilter if it has one (R132, R135). -/
def pairCycles (m shape n : Nat) (par : QParams) : Nat :=
  laneCycles m n + if par.prefilter == 0xFFFF then 0 else cdiv (n * shapeW shape) 4096

/-! ### Re-rank scores (R133) -/

/-- The re-rank score of a vector under a metric, for a query already normalized under cosine. -/
def rerankScore (metric : Nat) (q v : List F32) : F32 × NumCnt := tableEntry metric q v

end Sys2Proof.Machine
end

