-- ==== Sys2Proof/Machine/Media.lean ====
section
/-! DEFINITION. What lies in the tiers as a read finds it: the block packer (R292), logical flash blocks and their content (R312 to R316), stored vectors in the
re-rank format (R200, R205), and block-scaled streams as they are delivered (R106 to R108). -/

namespace Sys2Proof.Machine

/-! ### The block packer (R292) -/

/-- Mode 2 of R292: a mask of the non-zero 8-byte words, then those words. -/
def wordSparse (bs : List Byte) : List Byte :=
  let ws := chunks 8 bs
  packBits 1 (ws.map fun w => b2n (w.any (· != 0))) ++ (ws.filter fun w => w.any (· != 0)).flatMap fun w => w

/-- Mode 3 of R292: a mask of the non-zero bytes, then those bytes. -/
def byteSparse (bs : List Byte) : List Byte := packBits 1 (bs.map fun b => b2n (b != 0)) ++ bs.filter (· != 0)

/-- Pack one 4 KiB block (R292): its mode, and its sectors with the padding of the last. -/
def packBlock (bs : List Byte) : Nat × List Byte :=
  if bs.all (· == 0) then (0, []) else
  let c2 := pad64 (wordSparse bs)
  let c3 := pad64 (byteSparse bs)
  if bs.length ≤ c2.length && bs.length ≤ c3.length then (1, bs)
  else if c2.length ≤ c3.length then (2, c2) else (3, c3)

/-- Undo a mask: a piece for each set bit, zeros for each clear one. -/
def unmask (n : Nat) : List Nat → List Byte → List Byte
  | [], _ => []
  | m :: ms, bs => if m == 1 then bs.take n ++ unmask n ms (bs.drop n) else List.replicate n 0 ++ unmask n ms bs

/-- Unpack a block of `n` bytes from its mode and sectors (R292). -/
def unpackBlock (n mode : Nat) (bs : List Byte) : List Byte :=
  match mode with
  | 0 => List.replicate n 0
  | 1 => bs.take n
  | 2 => unmask 8 (unpackBits 1 (bs.take (n / 64))) (bs.drop (n / 64))
  | _ => unmask 1 (unpackBits 1 (bs.take (n / 8))) (bs.drop (n / 8))

/-! ### Logical flash blocks (R312 to R316) -/

/-- An entry of all zeros: a mode-0 block (R313). -/
def zeroEntry : FEntry := { mode := 0, sectors := 0, block := 0, page := 0, sector := 0, discarded := false, slc := false }

/-- The map entry of a logical block, as reads see it. -/
def State.fentry (s : State) (b : Nat) : FEntry := (lk s.flash.map b).getD zeroEntry

/-- The map page of a logical block (R316). -/
def mapPage (b : Nat) : Nat := b / 512

/-- Does a run of logical blocks lie in a tenant's region? -/
def State.inRegion (s : State) (t block n : Nat) : Bool :=
  let base := s.reg (pagedKey 0x7040 t)
  base ≤ block * 4096 && (block + n) * 4096 ≤ base + s.reg (pagedKey 0x7044 t)

/-- The tenant in whose region a logical block lies; 1024 if in none. -/
def State.regionTenant (s : State) (b : Nat) : Nat := ((List.range 1024).find? fun t => s.inRegion t b 1).getD systemTenant

/-- Does the Molset hold the keys of a tenant (R467, R475)? -/
def State.keyed (s : State) (t : Nat) : Bool := t == systemTenant || (let k := s.reg (pagedKey 0xA104 t); 2 ≤ k && k ≤ 4)

/-- The content of a logical block as reads see it: 4,096 bytes (R313, R315). -/
def State.flashContent (s : State) (b : Nat) : List Byte :=
  let e := s.fentry b
  match s.flash.stored.find? fun x => x.logical == b && x.block == e.block && x.page == e.page && x.sector == e.sector with
  | some x => if e.mode == 0 then List.replicate 4096 0 else unpackBlock 4096 e.mode x.data
  | none => List.replicate 4096 0

/-- Bytes of the logical flash space at an address (R200, R312). -/
def State.flashBytes (s : State) (a n : Nat) : List Byte :=
  if n == 0 then [] else
  let bs := (List.range ((a + n - 1) / 4096 - a / 4096 + 1)).flatMap fun i => s.flashContent (a / 4096 + i)
  (bs.drop (a % 4096)).take n

/-! ### Vectors in the re-rank format (R205, R206) -/

/-- A vector in the re-rank format, as a record and the flash carry it (R205, R206): F16 elements, or for F8E4 the channel exponent, the scale records and the
blocks of the one channel (their order is a DESIGN CHOICE, entry 24). -/
def rerankBytes (ratio limit rr : Nat) (xs : List F32) : List Byte × NumCnt :=
  if rr == 5 then
    let (e, bs, c) := encodeChannel 5 ratio limit 0 xs
    (leBytes 1 (ofInt 8 e) ++ bs.flatMap (fun b => leBytes 4 b.record) ++ bs.flatMap blockBytes, c)
  else
    let (b, c) := writePlain 7 xs
    (b, { c with conv := xs.length })

/-- The length of such a vector; no escape block makes an F8E4 block longer or shorter (R102). -/
def rerankLen (rr dim : Nat) : Nat := if rr == 5 then 1 + 38 * cdiv dim 32 else 2 * dim

/-- The exponent and the blocks that such bytes spell; F16 elements are no blocks. -/
def vectorBlocks (rr dim : Nat) (bs : List Byte) : Int × List Block :=
  let n := cdiv dim 32
  if rr == 5 then (toInt 8 (leNat (bs.take 1)), splitBlocks 5 n (bs.drop (1 + 4 * n)) ((List.range n).map fun i => leNat ((bs.drop (1 + 4 * i)).take 4))) else (0, [])

/-! ### Streams as they are delivered (R106 to R108) -/

/-- What the check of a delivered stream counts (R107 to R109): mismatches detected, blocks fetched again, refetch limits reached, end checks failed. -/
structure StreamCnt where
  mism : Nat := 0
  again : Nat := 0
  spent : Nat := 0
  ends : Nat := 0
  deriving DecidableEq, Repr

/-- The block that is applied at one place of a stream, if any: the first of its deliveries that is paired. After the refetch limit the item runs once more;
after a second exhaustion there is none (R107, R108). `ds` are the deliveries before those that bring the stream's own block. -/
def deliverBlock (fmt tag limit : Nat) (own : Block) (ds : List Block) : Option Block × StreamCnt :=
  let at_ (i : Nat) : Block := ds.getD i own
  let try_ (from_ : Nat) : Option Nat := (List.range (limit + 1)).find? fun i => paired fmt tag (at_ (from_ + i))
  match try_ 0 with
  | some i => (some (at_ i), { mism := b2n (i != 0), again := i })
  | none =>
    match try_ (limit + 1) with
    | some i => (some (at_ (limit + 1 + i)), { mism := 1 + b2n (i != 0), again := limit + i, spent := 1 })
    | none => (none, { mism := 2, again := 2 * limit, spent := 2 })

/-- Add two counts. -/
def addStream (a b : StreamCnt) : StreamCnt := { mism := a.mism + b.mism, again := a.again + b.again, spent := a.spent + b.spent, ends := a.ends + b.ends }

/-- A whole stream of one vector, with its tags from a base (R105): its blocks if every one is applied. A failed check at its end counts as a mismatch of the
last block, which is fetched once more (R109). -/
def deliverStream (fmt base limit : Nat) (own : List Block) (i : StreamIn) : Option (List Block) × StreamCnt :=
  let ds (k : Nat) : List Block := ((i.wrong.find? fun w => w.1 == k).map (·.2)).getD []
  let l := (own.zipIdx).map fun (b, k) => deliverBlock fmt ((base + k) % 256) limit b (ds k)
  let c := l.foldl (fun c x => addStream c x.2) {}
  (if l.all fun x => x.1.isSome then some (l.filterMap (·.1)) else none,
    if i.endBad then addStream c { mism := 1, again := 1, ends := 1 } else c)

/-- Count what the check of a delivered stream met (R107 to R109). A second exhaustion raises a fault against the spindle that read it (R108). -/
def State.countStream (s : State) (sp : Nat) (c : StreamCnt) (cycles : Nat) : State :=
  let s := (((s.bump 0xE0300C c.mism).bump 0xE0300D c.again).bump 0xE0300E c.spent).bump 0xE0300F c.ends
  let s := if c.again == 0 then s else s.bump 0xE03010 cycles
  if 2 ≤ c.spent then s.raiseFault 2 s.node partSpindle sp 0 else s

/-! ### Room and windows (R306, R307, R321, R325, R330) -/

/-- A block by its address. -/
def State.fblock (s : State) (a : Nat) : FBlock := (lk s.flash.blocks a).getD { addr := a }

/-- The blocks of every enabled target of the channels in service. -/
def State.flashTotal (s : State) : Nat :=
  (s.flash.targets.filter fun t => s.reg (0x700101 + t / 8) == 0).length * s.reg 0x700003 * s.reg 0x700004 * s.reg 0x700006

/-- The listed blocks that are not in the pool. -/
def State.usedBlocks (s : State) : List FBlock := (s.flash.blocks.map (·.2)).filter fun b => !b.free

/-- Free blocks, the reserve included (R321). -/
def State.freeBlocks (s : State) : Nat := s.flashTotal - s.usedBlocks.length

/-- Spare blocks that are neither retired nor holding data (R325). -/
def State.unworn (s : State) : Nat := s.flashTotal - (s.usedBlocks.filter fun b => b.retired || !b.erasing).length

/-- The pool outside the reserve is empty and no unworn spare remains beyond it (R330). -/
def State.flashFull (s : State) : Bool := s.freeBlocks ≤ s.reg 0x702003 && s.unworn ≤ s.reg 0x702003

/-- Is a window of a mask open? -/
def State.windowIn (s : State) (mask : Nat) : Bool := s.reg 0x701001 &&& mask != 0

/-- Refuse a flash write (R307). -/
def State.refuseWrite (s : State) (status : Nat) : State := (s.setReg 0x70100A status).bump 0xE0B007 1

end Sys2Proof.Machine
end

