-- ==== Sys2Proof/Machine/Flags.lean ====
section
/-! DEFINITION. Flag words: query and record flags (R164), job flags (R245, R263), owner tags (R394), conflict details (R499). -/

namespace Sys2Proof.Machine

/-- A flag word from its bits, lowest first. -/
def flagWord (bs : List Bool) : Nat := bs.foldr (fun b a => a * 2 + b2n b) 0

/-- The query flags, bits [15:0] of R164: late, integrity, shard missing, short, widened, ceiling reached, tie beyond k,
re-ranked, re-rank gap. -/
def queryFlags (late integrity missing short widened ceiling tie reranked gap : Bool) : Nat :=
  flagWord [late, integrity, missing, short, widened, ceiling, tie, reranked, gap]

/-- The flags word of a result record: the query flags with padding (bit 16), at k-th score (17) and delta item (18) (R164). -/
def recordFlags (qf : Nat) (padding atK delta : Bool) : Nat :=
  qf + b2n padding * 2 ^ 16 + b2n atK * 2 ^ 17 + b2n delta * 2 ^ 18

/-- An owner tag (R394). -/
def ownerTag (epoch node kind : Nat) : Nat := epoch * 2 ^ 32 + node * 2 ^ 20 + kind * 2 ^ 16

/-- The detail word of a conflict (R499): kind 1 an entry in effect, 2 a pending write. -/
def detailEntry (kind : Nat) (k : Key) : Nat := kind * 2 ^ 28 + k % 2 ^ 24

/-- The detail word of a conflict with a mailbox request (R499). -/
def detailRequest (seq : Nat) : Nat := 3 * 2 ^ 28 + seq % 2 ^ 28

end Sys2Proof.Machine
end

