-- ==== Sys2Proof/Machine/Operands.lean ====
section
/-! DEFINITION. Operand forms: the fields of a 128-byte ring entry and of memory records, little-endian (R10, R438). -/

namespace Sys2Proof.Machine

/-- A record as bytes: a ring entry or a record in memory. -/
abbrev Entry := List Byte

/-- The `n`-byte field at an offset. -/
def eNat (e : Entry) (off n : Nat) : Nat := leNat ((e.drop off).take n)

/-- Are bytes `off` to `off + n − 1` all zero? -/
def eZero (e : Entry) (off n : Nat) : Bool := ((e.drop off).take n).all (· == 0)

/-- The bytes of a field. -/
def eBytes (e : Entry) (off n : Nat) : List Byte := (e.drop off).take n

/-- An F32 field. -/
def eF32 (e : Entry) (off : Nat) : F32 := BitVec.ofNat 32 (eNat e off 4)

/-- The kind of a ring entry (R438). -/
def entryKind (e : Entry) : Nat := eNat e 8 1

/-- The tag of an entry: bytes 16 to 23 of its descriptor; index, model and table entries have none (R195, R227, R250, R443). -/
def entryTag (e : Entry) : Nat := if entryKind e == 3 || entryKind e == 6 || entryKind e == 8 then 0 else eNat e 16 8

/-- Is the kind one of R439 on a tenant's ring, or of R449 on the mailbox? -/
def kindValid (mailbox : Bool) (k : Nat) : Bool := if mailbox then 0x20 ≤ k && k ≤ 0x22 else 1 ≤ k && k ≤ 0x0D

/-- What the check of a kind finds (R412): refused with a status, with query flags in the completion (R443), held by a kind limit, or passed with its cost in units and
its class. -/
inductive Chk where
  | refuse (status : Nat)
  | refuseFlags (status flags : Nat)
  | hold
  | pass (cost : Nat) (bulk : Bool)
  deriving DecidableEq, Repr

end Sys2Proof.Machine
end

