-- ==== Sys2Proof/Machine/Rings.lean ====
section
/-! DEFINITION. Ring areas: slots, entries, the ring checks, leaving the ring and completions (R433 to R446). -/

namespace Sys2Proof.Machine

/-- The ring of a tenant; 1024 is the mailbox (R448). -/
def State.ring (s : State) (t : Nat) : Ring := (s.rings.find? fun r => r.tenant == t).getD { tenant := t }

/-- Store a ring, keeping them in ascending tenant order. -/
def State.setRing (s : State) (r : Ring) : State :=
  { s with rings := insertBy (fun (a b : Ring) => a.tenant < b.tenant) r (s.rings.filter fun x => x.tenant != r.tenant) }

/-- The base of a ring area (R433, R448). -/
def State.ringBase (s : State) (t : Nat) : Nat := if t == systemTenant then 0 else s.reg (pagedKey 0xC010 t)

/-- Submission slots, 2^a: the mailbox has 256 (R433, R448). -/
def State.ringA (s : State) (t : Nat) : Nat := if t == systemTenant then 256 else 2 ^ (s.reg (pagedKey 0xC014 t) % 256)

/-- Completion slots, 2^b. -/
def State.ringB (s : State) (t : Nat) : Nat := if t == systemTenant then 256 else 2 ^ (s.reg (pagedKey 0xC014 t) / 256)

/-- The address of submission entry `seq` (R435). -/
def State.slotAddr (s : State) (t seq : Nat) : Nat := s.ringBase t + 256 + (seq - 1) % s.ringA t * 128

/-- The address of completion entry `j` (R435). -/
def State.complAddr (s : State) (t j : Nat) : Nat := s.ringBase t + 256 + s.ringA t * 128 + (j - 1) % s.ringB t * 128

/-- The 128 bytes of submission entry `seq`. -/
def State.entryOf (s : State) (t seq : Nat) : Entry := s.load t (s.slotAddr t seq) 128

/-- Is the tenant in service here (R467)? The system always is. -/
def State.inService (s : State) (t : Nat) : Bool := t == systemTenant || s.reg (pagedKey 0xA104 t) == 3

/-- The highest sequence up to which every entry has left, starting from `c` (R435). -/
def consumerFrom (gone : List Nat) : Nat → Nat → Nat
  | 0, c => c
  | n + 1, c => if gone.contains (c + 1) then consumerFrom gone n (c + 1) else c

/-- An entry leaves the ring: it counts in t at once, and in c once every earlier entry has left (R435). -/
def State.leave (s : State) (t seq : Nat) : State :=
  let r := s.ring t
  let gone := seq :: r.gone
  let c := consumerFrom gone gone.length r.cLive
  s.setRing { r with
    gone := gone.filter (c < ·), cLive := c, tLive := r.tLive + 1, ready := r.ready.filter (·.seq != seq),
    first := r.first.filter (·.1 != seq), held := if r.held == seq then 0 else r.held }

/-- Write one completion entry (R443 to R445). A tenant in teardown gets none (R442). The publish tick is the next tick (R27,
R445). -/
def State.complete (s : State) (t seq kind status flags tag skein : Nat) (detail : List Byte) (late : Nat) : State :=
  if s.sec.tenants.any (fun r => r.tenant == t && r.down) then s else
  let r := s.ring t
  let j := r.nextJ
  let e := leBytes 8 j ++ leBytes 8 seq ++ leBytes 1 kind ++ [0] ++ leBytes 2 status ++ leBytes 2 flags ++ leBytes 2 0 ++
    leBytes 8 tag ++ leBytes 8 (s.ftick + 1) ++ leBytes 8 skein ++ (detail ++ List.replicate 16 0).take 16 ++ leBytes 64 0
  let s := (s.store t (s.complAddr t j) e).bump 0xE0F00C 1
  s.setRing { r with nextJ := j + 1, recent := r.recent ++ [{ j, seq, status, tick := s.ftick + 1, late }] }

/-- A completion's detail bytes 48 to 63 (R444). -/
def detail16 (lo hi : Nat) : List Byte := leBytes 8 lo ++ leBytes 8 hi

/-- Refuse an entry at its check: it leaves at once, and its completion carries the status (R412, R442). -/
def State.refuse (s : State) (t seq kind status flags tag : Nat) : State :=
  (s.leave t seq).complete t seq kind status flags tag 0 [] 0

/-- Is there room for the completion of one more entry that leaves (R442)? -/
def State.room (s : State) (t : Nat) : Bool := let r := s.ring t; r.tLive - r.h < s.ringB t

/-- May the entry be checked: the ring exists and is sampled, the last accepted p covers the entry, and it has not left? -/
def State.covered (s : State) (t seq : Nat) : Bool :=
  let r := s.ring t
  (t == systemTenant || s.rings.any (·.tenant == t)) && r.cLive < seq && seq ≤ r.p &&
  !r.gone.contains seq && !s.sec.tenants.any (fun x => x.tenant == t && x.down)

/-- Mark an entry as passed: it waits for admission (R412). An entry checked again keeps the time it entered the queue. -/
def State.markReady (s : State) (t seq kind cost : Nat) (bulk : Bool) : State :=
  let r := s.ring t
  let x : Ready := { seq, kind, cost, bulk, since := s.now }
  s.setRing { r with ready := insertBy (fun (a b : Ready) => a.seq < b.seq) x (r.ready.filter (·.seq != seq)) }

/-- The ring checks (R440): the status and the tag reported, if the entry fails one. -/
def ringCheck (mailbox : Bool) (seq : Nat) (bad : Bool) (e : Entry) : Option (Nat × Nat × Nat) :=
  if bad then some (0x0F04, 0, 0)
  else if !kindValid mailbox (entryKind e) then some (0x0F01, 0, 0)
  else if eNat e 0 8 != seq then some (0x0F02, entryKind e, entryTag e)
  else if !eZero e 9 7 then some (0x0F03, entryKind e, entryTag e)
  else none

/-- Check one entry of a tenant's ring in step 8: room for its completion (R442), the ring checks (R440), then the check of its
kind. `bad` says that the read of the entry met an uncorrectable error; a poisoned line is one too (R302). -/
def State.checkEntry (s : State) (t seq : Nat) (bad : Bool) (check : State → Entry → State × Chk) : State :=
  if !s.covered t seq then s else
  if !s.room t then (s.setRing { s.ring t with held := seq }).bump 0xE0F00F 1 else
  let s := (s.setRing { s.ring t with held := 0 }).bump 0xE0F00A 1
  let e := s.entryOf t seq
  match ringCheck false seq (bad || s.poisoned t (s.slotAddr t seq) 128) e with
  | some (status, kind, tag) => (s.bump 0xE0F00B 1).refuse t seq kind status 0 tag
  | none =>
    match check s e with
    | (s, .refuse status) => s.refuse t seq (entryKind e) status 0 (entryTag e)
    | (s, .refuseFlags status flags) => s.refuse t seq (entryKind e) status flags (entryTag e)
    | (s, .hold) => s.setRing { s.ring t with held := seq, ready := (s.ring t).ready.filter (·.seq != seq) }
    | (s, .pass cost bulk) => s.markReady t seq (entryKind e) cost bulk

/-- A ring row: its entry's kind, and which of the kind's operations it stands for. An entry that fails a ring check belongs to
every row; one of another kind or operation to none (entry 3). -/
def State.ringRow (s : State) (t seq : Nat) (bad : Bool) (kind : Nat) (mine : Entry → Bool)
    (check : State → Entry → State × Chk) : State :=
  let e := s.entryOf t seq
  if bad || s.poisoned t (s.slotAddr t seq) 128 || !kindValid false (entryKind e) || (entryKind e == kind && mine e) then
    s.checkEntry t seq bad check
  else s

/-- Every descriptor of the kind belongs to the row. -/
def anyEntry (_ : Entry) : Bool := true

/-- The descriptor's operation field, at an offset, is one of the given values; a value that no row has belongs to all. -/
def opIs (off mask v : Nat) (known : List Nat) (e : Entry) : Bool :=
  let op := eNat e off 1 % mask
  op == v || !known.contains op

end Sys2Proof.Machine
end

