-- ==== Sys2Proof/Machine/Share.lean ====
section
/-! DEFINITION. Weighted fair queueing (R402 to R408, R415 to R417): the queues of a resource, their tags, the token buckets, and the serving of fabric egress,
flash reads and board memory. -/

namespace Sys2Proof.Machine

/-! ### Queues and tags (R402 to R405) -/

/-- The key of a resource in the lists of queues and virtual times: each port has an egress of its own (R402). -/
def egressRes (port : Nat) : Nat := 8 + port

/-- The resource code of R402 that a key belongs to. -/
def resCode (res : Nat) : Nat := if 8 ≤ res then 1 else res

/-- A queue of a shared resource (R402). -/
def State.wq (s : State) (res tenant : Nat) (bulk : Bool) : WQ :=
  (s.sched.queues.find? fun q => q.res == res && q.tenant == tenant && q.bulk == bulk).getD { res, tenant, bulk }

/-- Store a queue. -/
def State.setWq (s : State) (q : WQ) : State :=
  let rest := s.sched.queues.filter fun x => !(x.res == q.res && x.tenant == q.tenant && x.bulk == q.bulk)
  let lt (a b : WQ) : Bool := a.res < b.res || (a.res == b.res && (a.tenant < b.tenant || (a.tenant == b.tenant && !a.bulk && b.bulk)))
  { s with sched := { s.sched with queues := insertBy lt q rest } }

/-- The weight of a tenant's queue of a class (R403). -/
def State.weightOf (s : State) (tenant : Nat) (bulk : Bool) : Nat :=
  if tenant == systemTenant then s.reg 0xB00006 else
  let w := s.reg (pagedKey 0xB010 tenant)
  if bulk then max 1 (w * s.reg 0xB00005 / 256) else w

/-- The virtual time of a resource (R404). -/
def State.vtime (s : State) (res : Nat) : Nat := if res == 0 then s.reg 0xB0000A else (lk s.sched.v res).getD 0

/-- Tag the head of a queue, if it has no tags yet (R404); a queue that wakes is counted (R405). -/
def State.tagHead (s : State) (res tenant : Nat) (bulk : Bool) (cost : Nat) : State :=
  let q := s.wq res tenant bulk
  if q.head.isSome then s else
  let w := s.weightOf tenant bulk
  let start := max (s.vtime res) q.flast
  (s.setWq { q with head := some (start, start + cdiv (cost * 65536) w, w), asleep := false }).bumpIf q.asleep 0xE0E008

/-- A queue without an eligible head sleeps (R405). -/
def State.sleepQueue (s : State) (res tenant : Nat) (bulk : Bool) : State :=
  let q := s.wq res tenant bulk
  if q.asleep && q.head.isNone then s else s.setWq { q with head := none, asleep := true }

/-! ### Token buckets (R407) -/

/-- The bucket of a tenant, resource and class. -/
def bucketKey (base t res : Nat) (bulk : Bool) : Key := pagedKey (base + 8 * res + 4 * b2n bulk) t

/-- The rate of a bucket. -/
def State.bucketRate (s : State) (t res : Nat) (bulk : Bool) : Nat := s.reg (bucketKey 0xB100 t res bulk) % 2 ^ 32

/-- The level of a bucket; it starts at the burst (R407). -/
def State.bucketLevel (s : State) (t res : Nat) (bulk : Bool) : Int :=
  let k := bucketKey 0xB120 t res bulk
  match lk s.regs k with
  | some v => toInt 64 v
  | none => (s.reg (bucketKey 0xB100 t res bulk) / 2 ^ 32 : Nat)

/-- Refill a bucket: min(burst, level + rate). -/
def State.refillOne (s : State) (t res : Nat) (bulk : Bool) : State :=
  let b := s.reg (bucketKey 0xB100 t res bulk)
  s.setRegI 64 (bucketKey 0xB120 t res bulk) (min ((b / 2 ^ 32 : Nat) : Int) (s.bucketLevel t res bulk + (b % 2 ^ 32 : Nat)))

/-- The tenants in service here. -/
def State.serviceTenants (s : State) : List Nat :=
  s.regs.filterMap fun r => if pagedKey 0xA104 0 ≤ r.1 && r.1 < pagedKey 0xA108 0 && r.2 == 3 then some (r.1 - pagedKey 0xA104 0) else none

/-- Refill the buckets of every tenant in service, of the given resources. -/
def State.refill (s : State) (res : List Nat) : State :=
  s.serviceTenants.foldl (fun s t => res.foldl (fun s r => (s.refillOne t r false).refillOne t r true) s) s

/-- May a head pass its bucket: the level is above 0, or there is no limit? The system queue has no bucket. -/
def State.bucketOk (s : State) (t res : Nat) (bulk : Bool) : Bool :=
  t == systemTenant || s.bucketRate t res bulk == 0xFFFFFFFF || 0 < s.bucketLevel t res bulk

/-- Take a cost from a bucket; the level may go below 0. -/
def State.bucketTake (s : State) (t res : Nat) (bulk : Bool) (cost : Nat) : State :=
  if t == systemTenant then s else s.setRegI 64 (bucketKey 0xB120 t res bulk) (s.bucketLevel t res bulk - cost)

/-! ### Serving (R404, R415, R417) -/

/-- A request of a resource, as the tags see it: tenant, class, cost. -/
abbrev Want := Nat × Bool × Nat

/-- Serve the head of a queue: its tags count, and the bucket of its tenant pays (R404, R407). Resources 0 and 4 are served elsewhere. -/
def State.serveWant (s : State) (res : Nat) (w : Want) : State :=
  let (t, bulk, cost) := w
  let s := s.tagHead res t bulk cost
  let q := s.wq res t bulk
  match q.head with
  | none => s
  | some h =>
    let s := s.setWq { q with flast := h.2.1, head := none }
    let s := { s with sched := { s.sched with
      v := put s.sched.v res (max (s.vtime res) h.1)
      sysServed := if t == systemTenant then put s.sched.sysServed res ((lk s.sched.sysServed res).getD 0 + cost) else s.sched.sysServed } }
    s.bucketTake t (resCode res) bulk cost

/-- A request that a queue has at once and that is served at once, with nothing waiting before it. -/
def State.serveNow (s : State) (res : Nat) (w : Want) : State :=
  (s.serveWant res w).sleepQueue res w.1 w.2.1

/-- How much of a resource the system queue may take in a frame (R417): of the flash reads the restore share while a restore reads; of board memory the
mover's share (R298). -/
def State.sysLimit (s : State) (res cap : Nat) : Nat :=
  if res == 2 && s.fault.respares.any (fun r => r.restore && !r.staged) then cap * s.reg 0x903002 / 256
  else if res == 3 then cap * s.reg 0x602006 / 256 else cap

/-- The queues that hold requests, in order of arrival. -/
def queuesOf (l : List Want) : List (Nat × Bool) := (l.map fun w => (w.1, w.2.1)).eraseDups

/-- Tag the heads of the queues that may pass, and let the others sleep (R405, R407, R408, R417). -/
def State.tagWants (s : State) (res cap : Nat) (l : List Want) : State :=
  (queuesOf l).foldl (fun s q =>
    let sys := q.1 == systemTenant && s.sysLimit res cap ≤ (lk s.sched.sysServed res).getD 0
    match l.find? fun w => w.1 == q.1 && w.2.1 == q.2 with
    | some w => if s.bucketOk q.1 (resCode res) q.2 && !sys then s.tagHead res q.1 q.2 w.2.2 else s.sleepQueue res q.1 q.2
    | none => s) s

/-- Is one head served before another (R404): the smaller finish tag, latency before bulk, the lower tenant, the system queue last? -/
def headBefore (a b : Nat × Bool × Nat) : Bool :=
  a.1 < b.1 || (a.1 == b.1 && ((!a.2.1 && b.2.1) || (a.2.1 == b.2.1 && a.2.2 < b.2.2)))

/-- The position of the request that a resource serves next (R404). -/
def State.nextWant (s : State) (res : Nat) (l : List Want) : Option Nat :=
  let heads := (queuesOf l).filterMap fun q => (s.wq res q.1 q.2).head.bind fun h =>
    (l.findIdx? fun w => w.1 == q.1 && w.2.1 == q.2).map fun i => ((h.2.1, q.2, q.1), i)
  ((sortBy (fun (a b : (Nat × Bool × Nat) × Nat) => headBefore a.1 b.1) heads).head?).map (·.2)

/-- Serve the requests of a resource while the frame has room for them (R404, R405): what stays. Fuel: the number of requests. -/
def serveLoop (res cap : Nat) : Nat → Nat → List Want → List Nat → State → State × List Nat
  | 0, _, _, left, s => (s, left)
  | n + 1, used, l, left, s =>
    let s := s.tagWants res cap l
    match (if used < cap then s.nextWant res l else none) with
    | none => (s, left)
    | some i =>
      let w := l.getD i (0, false, 0)
      serveLoop res cap n (used + w.2.2) (l.eraseIdx i) (left.eraseIdx i) (s.serveWant res w)

/-- Serve a resource for one frame: the positions of the requests that stay. A queue that is left empty sleeps. -/
def State.serveAll (s : State) (res cap : Nat) (l : List Want) : State × List Nat :=
  if l.isEmpty then (s, []) else
  let (s, left) := serveLoop res cap l.length 0 l (List.range l.length) s
  let stays := left.map fun i => l.getD i (0, false, 0)
  (((queuesOf l).filter fun q => !(queuesOf stays).contains q).foldl (fun s q => s.sleepQueue res q.1 q.2) s, left)

/-- A request of an egress queue. -/
def Egress.want (e : Egress) : Want := (e.tenant, e.bulk, e.flits)

/-- A request for a read. -/
def ReadReq.want (r : ReadReq) : Want := (r.tenant, r.bulk, r.blocks)

/-- The flits that a port sends in a frame: its share of 0x2002:09, in flits of 256 bytes (R30, R336). -/
def State.portFlits (s : State) : Nat := s.reg 0x200209 / 16 / 256

/-- The credit buffer of a packet at the next Molset: class and hop class (R338, R350). -/
def Egress.buf (e : Egress) : Nat := e.cls * 8 + e.hops

/-- Credits of a buffer at a port (R351). -/
def Port.creditsOf (x : Port) (buf : Nat) : Nat := (lk x.credits buf).getD (Config.startCredits buf)

/-- The keys of a port once its flit counts have come to a switch count (R477). -/
def Port.switched (x : Port) : Port :=
  let x := match x.nextTx with | some (n, k) => if n ≤ x.sent then { x with txKey := k, nextTx := none } else x | none => x
  match x.nextRx with | some (n, k) => if n ≤ x.rcvd then { x with rxKey := k, nextRx := none } else x | none => x

/-- Packets leave a port (R340, R350, R351): their flits are counted, stay in the replay buffer and take their credits; a packet of another Molset is held
here no more. -/
def State.leavePort (s : State) (e : Egress) : State :=
  let x := (lk s.ports e.port).getD {}
  let x := { x with
    txSeq := (x.txSeq + e.flits) % 4096, held := min (s.reg 0x801006) (x.held + e.flits), sent := x.sent + e.flits
    credits := put x.credits e.buf (x.creditsOf e.buf - e.flits) }
  let gone (p : Nat × Packet) : Bool := p.2.src == e.src && p.2.dst == e.dst && p.2.cls == e.cls && p.2.seq == e.seq
  { s with
    ports := put s.ports e.port x.switched
    net := { s.net with egress := s.net.egress.filter (· != e), forwarded := if e.src == s.node then s.net.forwarded else s.net.forwarded.filter (!gone ·) } }.bump
    0xE0C001 e.flits

/-- The packets of a port that its credits carry, in their order (R351). -/
def credited (x : Port) (l : List Egress) : List Egress :=
  (l.foldl (fun (acc : List Egress × List (Nat × Nat)) e =>
    let used := (lk acc.2 e.buf).getD 0 + e.flits
    if used ≤ x.creditsOf e.buf then (acc.1 ++ [e], put acc.2 e.buf used) else acc) ([], [])).1

/-- The packets, in their order, that a number of flits carries. -/
def fitting (cap : Nat) (l : List Egress) : List Egress :=
  (l.foldl (fun (acc : List Egress × Nat) e => if acc.2 + e.flits ≤ cap then (acc.1 ++ [e], acc.2 + e.flits) else acc) ([], 0)).1

/-- The flits of several packets. -/
def flitsOf (l : List Egress) : Nat := l.foldl (fun n e => n + e.flits) 0

/-- Send what waits for one port in a frame (R350, R415): class 0 within its share, then class 1; the rest goes to classes 2 and 3 in fair order. -/
def State.serveEgress (s : State) (port : Nat) : State :=
  let mine := credited ((lk s.ports port).getD {}) (s.net.egress.filter fun e => e.port == port)
  let c0 := fitting (s.portFlits * s.reg 0x801007 / 256) (mine.filter (·.cls == 0))
  let c1 := fitting (s.portFlits - flitsOf c0) (mine.filter (·.cls == 1))
  let s := (c0 ++ c1).foldl State.leavePort s
  let rest := mine.filter (2 ≤ ·.cls)
  let (s, left) := s.serveAll (egressRes port) (s.portFlits - flitsOf (c0 ++ c1)) (rest.map Egress.want)
  let stays := left.filterMap fun i => rest[i]?
  (rest.filter fun e => !stays.contains e).foldl State.leavePort s

/-- Serve the reads of flash (2) or board memory (3) for a frame, up to what the work window carries (R30, R417). -/
def State.serveReads (s : State) (res : Nat) : State :=
  let mine := s.sched.reads.filter fun r => r.res == res
  let cap := s.reg (if res == 2 then 0x200208 else 0x200207) / 4096
  let (s, left) := s.serveAll res cap (mine.map ReadReq.want)
  let stays := left.filterMap fun i => mine[i]?
  { s with sched := { s.sched with reads := s.sched.reads.filter fun r => r.res != res || stays.contains r } }

/-- What the frame that ends has served of resources 1 to 3 (R415, R417; entry 53). -/
def State.serveFrame (s : State) : State :=
  let s := (List.range 16).foldl State.serveEgress s
  let s := (s.serveReads 2).serveReads 3
  { s with sched := { s.sched with sysServed := [] } }

/-- A packet of this Molset that its destination has acknowledged has left its port before (R415). -/
def State.sentOut (s : State) (gone : Egress → Bool) : State :=
  (s.net.egress.filter fun e => e.src == s.node && gone e).foldl (fun s e =>
    let s := s.leavePort e
    if e.cls < 2 then s else
    let s := s.serveWant (egressRes e.port) e.want
    if s.net.egress.any fun x => x.port == e.port && 2 ≤ x.cls && x.tenant == e.tenant && x.bulk == e.bulk then s else s.sleepQueue (egressRes e.port) e.tenant e.bulk) s

/-- Does the read of an older skein go ahead of another's (R32)? -/
def readFirst (a b : ReadReq) : Bool :=
  match a.what, b.what with
  | .rerank x, .rerank y => a.res == b.res && a.tenant == b.tenant && a.bulk == b.bulk && x.name.skein < y.name.skein
  | _, _ => false

/-- Ask for a read (R32, R417). -/
def State.askRead (s : State) (res tenant : Nat) (bulk : Bool) (blocks : Nat) (what : ReadFor) : State :=
  { s with sched := { s.sched with reads := insertBy readFirst { res, tenant, bulk, blocks, since := s.ns, what } s.sched.reads } }

/-- May a read be answered now: it has been served, or nothing keeps it from being served (R407, R417)? -/
def State.readOk (s : State) (what : ReadFor) : Bool :=
  match s.sched.reads.find? fun r => r.what == what with
  | some r => s.bucketOk r.tenant r.res r.bulk
  | none => true

/-- A read is answered: it has left its queue (R404, R417). -/
def State.readDone (s : State) (what : ReadFor) : State :=
  match s.sched.reads.find? fun r => r.what == what with
  | none => s
  | some r =>
    let s := { s with sched := { s.sched with reads := s.sched.reads.filter fun x => x.what != what } }
    let s := s.serveWant r.res r.want
    if s.sched.reads.any fun x => x.res == r.res && x.tenant == r.tenant && x.bulk == r.bulk then s else s.sleepQueue r.res r.tenant r.bulk

/-- A read that nobody awaits any more leaves its queue unserved. -/
def State.dropRead (s : State) (p : ReadFor → Bool) : State :=
  { s with sched := { s.sched with reads := s.sched.reads.filter fun x => !p x.what } }

/-! ### Spindle time (R404, R416) -/

/-- Serve one request of a queue of spindle time at once: its tags count as served (R404, R416). -/
def State.dealTag (s : State) (tenant : Nat) (bulk : Bool) (cost : Nat) : State :=
  let s := s.tagHead 4 tenant bulk cost
  let q := s.wq 4 tenant bulk
  match q.head with
  | none => s
  | some h =>
    let s := s.setWq { q with flast := h.2.1, head := none }
    { s with sched := { s.sched with v := put s.sched.v 4 (max (s.vtime 4) h.1) } }

/-- After a deal the queues of spindle time that no item waits in sleep (R405). -/
def State.dealtOut (s : State) (tenant : Nat) : State := (s.sleepQueue 4 tenant false).sleepQueue 4 tenant true

end Sys2Proof.Machine
end

