-- ==== Sys2Proof/Machine/Pages.lean ====
section
/-! DEFINITION. Pages of the tiers and their homes, the Molset's own pages, and writes and reads of memory (R72, R282, R283, R288, R289, R293, R294, R302 to
R304). -/

namespace Sys2Proof.Machine

/-- The 32 bits of a block map entry (R293). -/
def mapBits (e : Nat × Nat × Nat) : Nat := e.1 * 2 ^ 30 + e.2.1 * 2 ^ 23 + e.2.2

/-- A whole page packed in ascending block number: its block map and its sectors in all (R293). -/
def State.packPage (s : State) (t page : Nat) : List (Nat × Nat × Nat) × Nat :=
  (List.range 512).foldl (fun (m, first) b =>
    let (mode, bs) := packBlock (s.load t (page * pageSize + b * 4096) 4096)
    (m ++ [(mode, bs.length / 64, first)], first + bs.length / 64)) ([], 0)

/-- The chunks of 64 KiB that hold a number of sectors. -/
def chunksFor (sectors : Nat) : Nat := cdiv sectors 1024

/-! ### Pages (R72, R282, R283, R289, R302, R303) -/

/-- The part with the most free pages, ties to the lowest number (R283). -/
def mostFree (l : List (Nat × Nat)) : Option Nat :=
  (l.foldl (fun (b : Option (Nat × Nat)) x =>
    match b with
    | none => if 0 < x.2 then some x else none
    | some y => if y.2 < x.2 then some x else some y) none).map (·.1)

/-- The free pages of each stack or board channel that has not failed (R303). -/
def State.freeParts (s : State) (board : Bool) : List (Nat × Nat) :=
  if board then s.tier.bfree.filter fun x => s.reg (0x601101 + x.1) == 0
  else (s.tier.free.zipIdx.map fun (n, i) => (i, n)).filter fun x => s.reg (0x600101 + x.1) != 2

/-- The free pages of a tier. -/
def State.freePages (s : State) (board : Bool) : Nat := (s.freeParts board).foldl (fun a x => a + x.2) 0

/-- The pages that a tenant holds in a tier, its structures included (R289). -/
def State.heldPages (s : State) (t : Nat) (board : Bool) : Nat := (s.tier.pages.filter fun p => p.tenant == t && p.inStacks != board).length

/-- The quota of a tenant in a tier (R289). -/
def State.quota (s : State) (t : Nat) (board : Bool) : Nat := s.reg (pagedKey (if board then 0x6044 else 0x6040) t)

/-- Are the quota and the free pages of the tier enough for `n` more pages? -/
def State.canTake (s : State) (t : Nat) (board : Bool) (n : Nat) : Bool := s.heldPages t board + n ≤ s.quota t board && n ≤ s.freePages board

/-- Report the free and held pages (R304). -/
def State.tierRegs (s : State) (t : Nat) : State :=
  let a := s.heldPages t false
  let b := s.heldPages t true
  (((s.setReg 0x600004 (s.freePages false)).setReg 0x601005 (s.freePages true)).setReg (pagedKey 0x6048 t) a).setReg (pagedKey 0x604C t) b

/-- Add to the free pages of a part. -/
def State.addFree (s : State) (h : PHome) (n : Int) : State :=
  let f (x : Nat) : Nat := ((x : Int) + n).toNat
  match h with
  | .stack i => { s with tier := { s.tier with free := s.tier.free.modify i f } }
  | .board ch _ _ _ _ => { s with tier := { s.tier with bfree := s.tier.bfree.map fun x => if x.1 == ch then (x.1, f x.2) else x } }

/-- A board home whose 512 blocks are all zero. -/
def emptyBoard (ch : Nat) : PHome := .board ch (List.replicate 512 (0, 0, 0)) 0 0 0

/-- Take one free page of a tier (R283). -/
def State.takePage (s : State) (board : Bool) : Option (State × PHome) :=
  (mostFree (s.freeParts board)).map fun n =>
    let h := if board then emptyBoard n else .stack n
    (s.addFree h (-1), h)

/-- The part of a home (R380). -/
def homePart (h : PHome) : Nat × Nat := match h with | .stack n => (partStack, n) | .board ch _ _ _ _ => (partBoard, ch)

/-- Give a page's home up: freed, or retired if it has held a poisoned line (R302). -/
def State.giveHome (s : State) (h : PHome) (poisoned : Bool) : State :=
  if poisoned then (s.bump 0xE0A014 1).score (homePart h).1 (homePart h).2 1024 else s.addFree h 1

/-- The memory of the Molset's own structures under a tenant's key lies beside that of the tenants: no host address reaches it (R288). -/
def hidMem (t : Nat) : Nat := 1025 + t

/-- Read such memory; addresses count from the page 2^27. -/
def State.hidLoad (s : State) (t addr n : Nat) : List Byte := s.load (hidMem t) (addr % 2 ^ 48) n

/-- Write such memory. -/
def State.hidStore (s : State) (t addr : Nat) (bs : List Byte) : State := s.store (hidMem t) (addr % 2 ^ 48) bs

/-- An owner gives a page up (R72, R302). Page numbers from 2^27 on are those of the Molset's own structures: no address names them. -/
def State.dropPage (s : State) (p : Page) : State :=
  let s := s.giveHome p.home p.poisoned
  let s := if p.page < 2 ^ 27 then s.zeroRange p.tenant (p.page * pageSize) pageSize
    else s.zeroRange (hidMem p.tenant) (p.page * pageSize % 2 ^ 48) pageSize
  { s with tier := { s.tier with pages := s.tier.pages.filter fun q => !(q.tenant == p.tenant && q.page == p.page) } }

/-- Allocate pages to an owner, to be zeroed before they are handed over (R72, R283). -/
def State.allocPages (s : State) (t : Nat) (board : Bool) (pages : List Nat) : State :=
  pages.foldl (fun s n =>
    match s.takePage board with
    | some (s, h) => { s with tier := { s.tier with pages := s.tier.pages ++ [{ tenant := t, page := n, home := h, zero := true }] } }
    | none => s) s

/-- Start the zeroing of pages (R72). -/
def State.zeroPages (s : State) (z : PageZero) : State :=
  { s with ctl := { s.ctl with next := s.ctl.next + 1, zeroings := s.ctl.zeroings ++ [{ z with id := s.ctl.next }] } }

/-- The first free page numbers of a tenant's hidden pages (R288). -/
def State.hiddenPages (s : State) (t n : Nat) : List Nat :=
  let top := s.tier.pages.foldl (fun a p => if p.tenant == t && a ≤ p.page then p.page + 1 else a) (2 ^ 27)
  (List.range n).map (top + ·)

/-- Take `n` pages of a tier for a structure of the Molset under a tenant's key (R72, R288): zeroed and counted at their handover, which falls into the
command that needs them (entry 54). An allocation beyond the quota or the free pages is refused and counted (R289): no page is taken. -/
def State.takeHidden (s : State) (t : Nat) (board : Bool) (n : Nat) : State × List Nat :=
  if !s.canTake t board n then (s.bump 0xE0A016 1, []) else
  let pages := s.hiddenPages t n
  let s := s.allocPages t board pages
  let mine (p : Page) : Bool := p.tenant == t && pages.contains p.page
  let s := { s with tier := { s.tier with pages := updIf mine (fun p => { p with zero := false }) s.tier.pages } }
  (((s.bump (if board then 0xE0200D else 0xE0200C) pages.length).tierRegs t), pages)

/-- Give such pages back. -/
def State.dropHidden (s : State) (t : Nat) (pages : List Nat) : State :=
  if pages.isEmpty then s else ((s.tier.pages.filter fun p => p.tenant == t && pages.contains p.page).foldl State.dropPage s).tierRegs t

/-! ### Writes (R294, R296, R303) -/

/-- Repack a board page into fresh sectors (R294, R295): into another board page, or into its own chunks if none is free. -/
def State.repackPage (s : State) (p : Page) : State :=
  let (map, n) := s.packPage p.tenant p.page
  let home (h : PHome) : PHome := match h with | .board ch _ _ _ _ => .board ch map (chunksFor n) 0 n | x => x
  let (s, h) := match s.takePage true with
    | some (s', h) => ((s'.giveHome p.home p.poisoned).bump 0xE0200D 1, h)
    | none => (s, p.home)
  let s := ((s.bump 0xE0A015 1).bump 0xE0A010 512).bump 0xE0A011 n
  { s with tier := { s.tier with pages := updIf (fun q => q.tenant == p.tenant && q.page == p.page) (fun q => { q with home := home h }) s.tier.pages } }

/-- Pack one written block of a board page again (R294). -/
def State.repackBlock (s : State) (t page b : Nat) : State :=
  match s.pageAt t page with
  | none => s
  | some p =>
    match p.home with
    | .stack _ => s
    | .board ch map chunks dead endS =>
      let (mode, bs) := packBlock (s.load t (page * pageSize + b * 4096) 4096)
      let n := bs.length / 64
      let (_, old, first) := map.getD b (0, 0, 0)
      let stay := n ≤ old
      let endS' := if stay then endS else endS + n
      if 32 < chunksFor endS' then s.repackPage p else
      let e := (mode, n, if stay then first else endS)
      let home := PHome.board ch (map.set b e) (max chunks (chunksFor endS')) (if stay then dead else dead + old) endS'
      let s := (s.bump 0xE0A010 1).bump 0xE0A011 n
      { s with tier := { s.tier with pages := updIf (fun q => q.tenant == t && q.page == page) (fun q => { q with home }) s.tier.pages } }

/-- Is a page of the range on a stack or channel that has failed? -/
def State.rangeFailed (s : State) (t addr n : Nat) : Bool :=
  s.tier.pages.any fun p => p.tenant == t && addr / pageSize ≤ p.page && p.page ≤ (addr + n - 1) / pageSize && s.homeFailed p.home

/-- Can a range of such memory not be read: poisoned, or on a part that has failed (R302, R303)? -/
def State.hidBad (s : State) (t addr n : Nat) : Bool := s.poisoned (hidMem t) (addr % 2 ^ 48) n || s.rangeFailed t addr n

/-- Is a page of the range in move? -/
def State.rangeMoving (s : State) (t addr n : Nat) : Bool :=
  s.tier.pages.any fun p => p.tenant == t && addr / pageSize ≤ p.page && p.page ≤ (addr + n - 1) / pageSize && p.inMove

/-- Write memory: the bytes, and the packed blocks of a board page (R294). A write to a failed part is discarded and counted (R303). -/
def State.memWrite (s : State) (t addr : Nat) (bs : List Byte) : State :=
  if bs.isEmpty then s
  else if s.rangeFailed t addr bs.length then s.bump 0xE0A019 1
  else
    let s := s.store t addr bs
    (List.range ((addr + bs.length - 1) / 4096 - addr / 4096 + 1)).foldl (fun s i =>
      let k := addr / 4096 + i
      s.repackBlock t (k / 512) (k % 512)) s

/-! ### Reads (R302) -/

/-- The uncorrectable-error counter of a page's tier. -/
def errCounter (h : PHome) : Key := match h with | .stack _ => 0xE0A00B | .board .. => 0xE0A00D

/-- A read of a line: `bad` says that the first read was uncorrectable, `badAgain` that the second was too. The read returns poison if the
line is poisoned, before or after (R302). -/
def State.readLine (s : State) (t addr n : Nat) (bad badAgain : Bool) : State × Bool :=
  if s.poisoned t addr n then (s, true)
  else if !bad then (s, false)
  else
    let h := ((s.pageAt t (addr / pageSize)).map (·.home)).getD (.stack 0)
    let s := (s.bump (errCounter h) 1).score (homePart h).1 (homePart h).2 1024
    if badAgain then (s.poisonLine t addr, true) else (s, false)

end Sys2Proof.Machine
end

