-- ==== Sys2Proof/Machine/Select.lean ====
section
/-! DEFINITION. The order of candidates, hanks, the selection unit and the ply (R168 to R192). -/

namespace Sys2Proof.Machine

/-- The padding ID (R14). -/
def paddingId : Nat := 0xFFFFFFFFFFFF

/-- Key order: score by value, then item ID (R168). -/
def keyLt (a b : F32 × Nat) : Bool := fKey a.1 < fKey b.1 || (fKey a.1 == fKey b.1 && a.2 < b.2)

/-- The key of an entry. -/
def entKey (e : HEntry) : F32 × Nat := (e.score, e.id)

/-- Does one entry precede another? -/
def entLt (a b : HEntry) : Bool := keyLt (entKey a) (entKey b)

/-- Equal scores by value. -/
def scoreEq (a b : F32) : Bool := fKey a == fKey b

/-- A U32 that saturates (R172). -/
def sat32 (n : Nat) : Nat := min n 0xFFFFFFFF

/-- Merge two entries of one ID (R183): the merged entry, and whether their scores differ. -/
def mergeDup (a b : HEntry) : HEntry × Bool :=
  if scoreEq a.score b.score then
    let score :=
      if a.shingle < b.shingle then a.score else if b.shingle < a.shingle then b.score
      else if a.score.toNat ≤ b.score.toNat then a.score else b.score
    ({ a with delta := a.delta || b.delta, score, shingle := min a.shingle b.shingle }, false)
  else (if entLt a b then a else b, true)

/-- The score of the last entry. -/
def lastScore (es : List HEntry) : Option F32 := es.getLast?.map (·.score)

/-- What one offer to a selection unit counts: merged with equal scores, merged with unequal scores. -/
structure DupCnt where
  eq : Nat := 0
  ne : Nat := 0
  deriving DecidableEq, Repr

/-- Offer a candidate that is not NaN to a hank set (R169, R173, R174, R183). One that does not follow the floor is not
offered. -/
def offer (h : HSet) (c : HEntry) : HSet × Bool × DupCnt :=
  let follows := match h.floor with | some f => keyLt f (entKey c) | none => true
  if !follows then (h, false, {}) else
  let h := { h with offered := h.offered + 1 }
  let old := lastScore h.entries
  match h.entries.find? fun e => e.id == c.id with
  | some e =>
    let (m, ne) := mergeDup e c
    let es := insertBy entLt m (h.entries.filter fun x => x.id != c.id)
    let b := if (lastScore es).map fKey == old.map fKey then h.boundary else 0
    ({ h with entries := es, boundary := b, integrity := h.integrity || ne }, true, { eq := b2n (!ne), ne := b2n ne })
  | none =>
    let all := insertBy entLt c h.entries
    if all.length ≤ h.keep then ({ h with entries := all }, true, {}) else
    let es := all.take h.keep
    let dropped := (all.drop h.keep).head?.map (·.score)
    let new := lastScore es
    let add := b2n (dropped.map fKey == new.map fKey)
    let base := if new.map fKey == old.map fKey then h.boundary else 0
    ({ h with entries := es, boundary := sat32 (base + add) }, true, {})

/-- The passes that a keep count needs (R173). -/
def passCount (kappa : Nat) : Nat := max 1 (cdiv kappa 256)

/-- The keep count κ (R173). -/
def keepCount (p : QParams) : Nat := if p.r == 0 then p.k else p.r

/-- The entries that pass j keeps (R173). -/
def passKeep (kappa j : Nat) : Nat := min 256 (kappa - 256 * (j - 1))

/-- Merge every duplicate of a union (R183), in the order of the inputs. -/
def dedup (es : List HEntry) : List HEntry × DupCnt :=
  es.foldl (fun (acc, n) e =>
    match acc.find? fun (x : HEntry) => x.id == e.id with
    | none => (acc ++ [e], n)
    | some x =>
      let (m, ne) := mergeDup x e
      (acc.map fun y => if y.id == e.id then m else y, { eq := n.eq + b2n (!ne), ne := n.ne + b2n ne })) ([], {})

/-- The bytes of a hank entry (R171). -/
def entryBytes (e : HEntry) : List Byte :=
  leBytes 6 e.id ++ leBytes 2 (b2n e.delta) ++ leBytes 4 e.score.toNat ++ leBytes 4 e.shingle

/-- The digest of a hank: CRC-64 of header bytes 0 to 47 and the entries (R172). -/
def hankDigest (h : Hank) : W64 :=
  crc64 (leBytes 2 h.name.home ++ leBytes 2 h.name.qidx ++ leBytes 8 h.name.skein ++ leBytes 2 h.shard ++ leBytes 1 h.level ++
    leBytes 1 h.pass ++ leBytes 2 h.entries.length ++ leBytes 2 0 ++ leBytes 4 h.boundary ++ leBytes 4 h.nan ++
    leBytes 4 h.low ++ leBytes 4 h.high ++ leBytes 4 h.items ++ leBytes 4 h.offered ++ leBytes 4 0 ++
    h.entries.flatMap entryBytes)

/-- A hank with its digest. -/
def sealHank (h : Hank) : Hank := { h with digest := hankDigest h }

/-- The entries of a hank that a ply reads: padding entries are skipped (R170). -/
def realEntries (h : Hank) : List HEntry := h.entries.filter fun e => e.id != paddingId

/-- The suppliers of entries of one ID with unequal scores in a union, each entry beside its supplier (R183). -/
def unequalFrom (l : List (Nat × HEntry)) : List Nat :=
  (l.filter fun x => l.any fun y => y.2.id == x.2.id && !scoreEq y.2.score x.2.score).map (·.1)

/-- A ply (R177): the inputs in their order, the entries to keep, and the header fields that the ply gives its output. -/
def ply (name : QName) (shard level pass keep : Nat) (all : List Hank) : Hank × DupCnt :=
  let ins := all.map fun h => { h with entries := realEntries h }
  let union := ins.flatMap (·.entries)
  let (u, dups) := dedup union
  let sorted := sortBy entLt u
  let out := sorted.take keep
  let last := lastScore out
  let eqLast (s : Option F32) : Bool := s.map fKey == last.map fKey && last.isSome
  let fromIns := ins.foldl (fun n h => if h.entries.length == keep && eqLast (lastScore h.entries) then n + h.boundary else n) 0
  let beyond := ((sorted.drop keep).filter fun e => eqLast (some e.score)).length
  let boundary := if out.length < keep then 0 else sat32 (fromIns + beyond)
  let total (f : Hank → Nat) : Nat := sat32 (ins.foldl (fun n h => n + f h) 0)
  let h : Hank := {
    name, shard, level, pass, boundary, nan := total (·.nan),
    low := ins.foldl (fun m h => min m h.low) 0xFFFFFFFF, high := ins.foldl (fun m h => max m h.high) 0,
    items := total (·.items), offered := total (·.offered),
    integrity := ins.any (·.integrity) || dups.ne > 0, missing := ins.any (·.missing), digest := 0, res := 0, entries := out }
  (sealHank h, dups)

/-- The cycles of a ply: 0x4030:05 per input and one per 0x4030:04 entries read, rounded up (R179). -/
def plyCycles (s : State) (ins : List Hank) : Nat :=
  s.reg 0x403005 * ins.length + cdiv (ins.foldl (fun n h => n + (realEntries h).length) 0) (s.reg 0x403004)

/-- A hank without entries. -/
def emptyHank (name : QName) (shard level pass : Nat) : Hank :=
  sealHank { name, shard, level, pass, boundary := 0, nan := 0, low := 0xFFFFFFFF, high := 0, items := 0, offered := 0,
             integrity := false, missing := false, digest := 0, res := 0, entries := [] }

/-- Report duplicates inside one shard to part scoring (R183, R184, R386): with unequal scores at the weight of R386; one with equal scores has no weight
there, and weighs a free value (entry 12). -/
def State.scoreDups (s : State) (d : DupCnt) (sps : List Nat) : State :=
  let (n, s) := if d.eq == 0 then (0, s) else s.draw
  sps.eraseDups.foldl (fun s sp =>
    let s := if d.ne == 0 then s else s.score partSpindle sp (1024 * d.ne)
    if d.eq == 0 then s else s.score partSpindle sp (Config.freeNat n)) s

/-- Count the duplicates that a ply met: inside one shard each shows a fault of the shard's data (R183, R184). -/
def State.countDups (s : State) (d : DupCnt) (oneShard : Bool) : State :=
  let s := (s.bump 0xE06007 d.eq).bump 0xE06008 d.ne
  if oneShard then s.bump 0xE06009 (d.eq + d.ne) else s

/-! ### Element operations (R191, R192) -/

/-- Index of maximum: the lowest index of a largest element, none if no element takes part; and the NaN elements met (R191). -/
def indexOfMax (xs : List Num) : Option Nat × Nat :=
  let best := (xs.zipIdx).foldl (fun (b : Option (Num × Nat)) (x, i) =>
    if x == .nan then b else
    match b with
    | none => some (x, i)
    | some (y, j) =>
      let lt : Bool := match y, x with
        | .inf true, .inf true => false
        | .inf true, _ => true
        | .inf false, _ => false
        | _, .inf false => true
        | _, .inf true => false
        | p, q => ratOf p < ratOf q
      if lt then some (x, i) else some (y, j)) none
  (best.map (·.2), (xs.filter (· == .nan)).length)

/-- Is a number strictly greater than another? A NaN never is (R192). -/
def numGt (x t : Num) : Bool :=
  match x, t with
  | .nan, _ => false
  | _, .nan => false
  | .inf false, .inf false => false
  | .inf false, _ => true
  | .inf true, _ => false
  | .fin _ _, .inf n => n
  | p, q => ratOf q < ratOf p

/-- Threshold compaction: the index-value pairs above a threshold, the total that pass, the NaN elements met (R192). -/
def compact (t : Num) (limit : Nat) (xs : List Num) : List (Nat × Num) × Nat × Nat :=
  let ps := ((xs.zipIdx).filter fun (x, _) => numGt x t).map fun (x, i) => (i, x)
  (ps.take limit, ps.length, (xs.filter (· == .nan)).length)

end Sys2Proof.Machine
end

