-- ==== Sys2Proof/Machine/Search.lean ====
section
/-! DEFINITION. The shared operations of searching: spindles and their queues (R51 to R79), indexes and their thatches, queries on
a shard copy and at their home (R138 to R190). -/

namespace Sys2Proof.Machine

/-! ### Spindles -/

/-- A spindle by its global number (R51). -/
def State.sp (s : State) (n : Nat) : Spindle := (lk s.spin n).getD {}

/-- Store a spindle. -/
def State.setSp (s : State) (n : Nat) (p : Spindle) : State := { s with spin := put s.spin n p }

/-- Has the deadline of a stage of frame `f` passed: the guard of the frame has begun, or the frame is over (R26, R28)? -/
def State.pastDeadline (s : State) (f : Nat) : Bool := f < s.ftick || (f == s.ftick && s.time.guard)

/-- The die of a spindle. -/
def dieOf (n : Nat) : Nat := n / 192

/-- The state of a spindle (R68). -/
def State.spState (s : State) (n : Nat) : Nat := s.reg (perSpindle 0x3001 0x3002 n)

/-- Is the spindle in service? -/
def State.spUp (s : State) (n : Nat) : Bool := n < 384 && s.spState n == 0

/-- The spindles in service, ascending. -/
def State.upSpindles (s : State) : List Nat := (List.range 384).filter s.spUp

/-- The owner of work of a tenant and kind on this Molset (R70). -/
def State.ownerOf (s : State) (tenant kind : Nat) : Owner := { tenant, kind, role := nodeRole s.map.entries s.node }

/-- The owner that an item works for: the role is that under which it was dealt (R70, R74). -/
def itemOwner (it : Item) : Owner := { tenant := it.tenant, kind := it.kind, role := it.role }

/-- The table slot of a spindle. -/
def slotOf (p : Spindle) (n : Nat) : TSlot := (lk p.tslots n).getD {}

/-- The free table slots, ascending (R65). -/
def freeSlots (p : Spindle) : List Nat := (List.range 16).filter fun n => (slotOf p n).q.isNone

/-- The slot of a query's shard on a spindle. -/
def slotFor (p : Spindle) (q : QName × Nat) : Option Nat := (p.tslots.find? fun t => t.2.q == some q).map (·.1)

/-- Does no context hold an item? -/
def quiet (p : Spindle) : Bool := p.ctxs.all fun c => c.item.isNone

/-- Has the bobbin been zeroed for work of this kind and role (R71), and is that zeroing over (R70)? -/
def prepared (p : Spindle) (o : Owner) : Bool :=
  !p.zeroing && (match p.bobOwner with | some b => b.kind == o.kind && b.role == o.role | none => false)

/-- Does a search item still on the spindle name the table slot, by a test on the item? -/
def slotHas (p : Spindle) (slot : Nat) (test : Item → Bool) : Bool :=
  let names (i : Item) : Bool := i.kind == 0 && i.mask.testBit slot && test i
  p.queue.any names || p.ctxs.any fun c => match c.item with | some i => names i | none => false

/-- Does an item still on the spindle name the table slot, other than as a check? -/
def slotBusy (p : Spindle) (slot die : Nat) : Bool := slotHas p slot fun i => !i.check && i.die == die

/-- Does any item on the spindle name the slot? -/
def slotNamed (p : Spindle) (slot : Nat) : Bool := slotHas p slot fun _ => true

/-- A zeroing of a whole bobbin, a slot or a region is counted with its cycles (R71, R74). -/
def State.countZero (s : State) (cycles : Nat) : State := (s.bump 0xE02009 1).bump 0xE0200A cycles

/-- A structure of a bobbin that comes to an owner is zeroed first if the owner changes (R71): `held` is its own holder, if it has one since the last whole
zeroing of the bobbin. -/
def State.zeroFor (s : State) (p : Spindle) (held : Option Owner) (o : Owner) (cycles : Nat) : State :=
  if (held.orElse fun _ => p.bobOwner) == some o then s else s.countZero cycles

/-! ### Queries on a shard copy -/

/-- A query's shard on this copy. -/
def State.findCopy (s : State) (q : QName) (sh : Nat) : Option CopyQ := s.copy.find? fun c => c.name == q && c.shard == sh

/-- Store it. -/
def State.setCopy (s : State) (c : CopyQ) : State :=
  { s with copy := updIf (fun x => x.name == c.name && x.shard == c.shard) (fun _ => c) s.copy }

/-- The bytes of a query's tables, 0 before they are built. -/
def State.tableLen (s : State) (q : QName × Nat) : Nat :=
  (((s.findCopy q.1 q.2).bind (·.table)).map fun t => (t.entries.map List.length).foldl (· + ·) 0).getD 0

/-- Start a copy of the tables of queries into slots of a spindle (R58, R67). -/
def State.startCopy (s : State) (kind src dst : Nat) (to_ : List ((QName × Nat) × Nat)) : State :=
  if to_.isEmpty then s else
  let c : TCopy := { id := s.ctl.next, kind, src, dst, slots := to_.map fun x => (x.2, x.2), bytes := to_.foldl (fun n x => n + s.tableLen x.1) 0 }
  { s with ctl := { s.ctl with next := s.ctl.next + 1, copies := s.ctl.copies ++ [c] } }

/-! ### Hank sets (R57, R62, R172, R175) -/

/-- The segment of a hank set (R172, R175). -/
def segmentOf (hs : HSet) (q : QName × Nat) : Hank :=
  sealHank {
    name := q.1, shard := q.2, level := 0, pass := hs.pass, boundary := if hs.entries.length < hs.keep then 0 else hs.boundary,
    nan := hs.nan, low := hs.low, high := hs.high, items := hs.items, offered := sat32 hs.offered, integrity := hs.integrity,
    missing := false, digest := 0, res := 0, entries := hs.entries }

/-- Send the segment of a hank set to the die's ply that takes it; the set is free again (R62). -/
def State.flushSet (s : State) (sp k : Nat) : State :=
  let p := s.sp sp
  match lk p.hsets k with
  | none => s
  | some hs =>
    let s := s.setSp sp { p with hsets := del p.hsets k }
    match hs.q.bind fun q => (s.findCopy q.1 q.2).map fun c => (q, c) with
    | some (q, c) => s.setCopy { c with segs := c.segs ++ [(hs.die, sp, segmentOf hs q)] }
    | none => s

/-- Send every segment that a spindle holds. -/
def State.flushSets (s : State) (sp : Nat) : State := (s.sp sp).hsets.foldl (fun s x => s.flushSet sp x.1) s

/-! ### Zeroing (R70, R71, R74) -/

/-- Zero a whole bobbin for an owner (R71, R74): counted, and no item is taken until it is done (R70). The segments in it have gone to their plies. A query
that no item and no copy on the spindle awaits is resident there no longer; tables that are still awaited are copied again. -/
def State.zeroBobbin (s : State) (n : Nat) (o : Owner) : State :=
  let s := s.flushSets n
  let p := s.sp n
  let stays (t : Nat × TSlot) : Bool :=
    o.kind == 0 || slotNamed p t.1 || s.ctl.copies.any fun c => c.dst == n && c.slots.any fun x => x.2 == t.1
  let kept := p.tslots.filter stays
  let gone := (p.tslots.filter fun t => !stays t).filterMap fun t => t.2.q
  let lost := kept.filterMap fun t => if t.2.table.isSome then t.2.q.map fun q => (q, t.1) else none
  let p := { p with
    tslots := kept.map fun t => (t.1, { t.2 with table := none, desc := [], owner := none })
    shslots := [], hsets := [], bobOwner := some o, filterOwner := none, stagingOwner := none, dense := {}, zeroing := true }
  let s := ((s.setSp n p).countZero 2048).startCopy 3 n n lost
  { s with copy := s.copy.map fun c => if gone.contains (c.name, c.shard) then { c with plan := c.plan.filter (· != n) } else c }

/-- A spindle whose bobbin is zeroed for work that no queued item asks for: short of the zeroing's end no reader comes (R70, R71; entry 54). -/
def State.zeroNow (s : State) (n : Nat) (o : Owner) : State :=
  let s := s.zeroBobbin n o
  s.setSp n { s.sp n with zeroing := false }

/-- A change of work kind or role zeroes the bobbin before the first item of the new owner (R70, R71): at once where no context works for the old one, else
when the first item of the new owner is taken. -/
def State.prepareSp (s : State) (n : Nat) (o : Owner) : State :=
  let p := s.sp n
  let same := match p.bobOwner with | some b => b.kind == o.kind && b.role == o.role | none => false
  if same || !quiet p || p.roleZero then s else s.zeroBobbin n o

/-- Make a query resident in a slot. Its table comes by a build or a copy; `temp`: for stolen, checked or redealt items only. -/
def State.bindSlot (s : State) (n slot : Nat) (q : QName × Nat) (temp : Bool) : State :=
  let p := s.sp n
  s.setSp n { p with tslots := put p.tslots slot { slotOf p slot with q := some q, temp, table := none, desc := [] } }

/-- The 64-byte table descriptor (R126). -/
def descBytes (im : Image) (c : CopyQ) (t : Table) : List Byte :=
  leBytes 4 t.sigma.toNat ++ leBytes 4 t.offset.toNat ++ leBytes 4 t.digest.toNat ++ leBytes 1 im.m ++ leBytes 1 im.shape ++ leBytes 2 0 ++
  leBytes 8 c.name.skein ++ leBytes 2 c.name.qidx ++ leBytes 2 (c.par.tenant % 1024) ++ leBytes 2 c.par.prefilter ++ leBytes 2 0 ++
  (t.sign ++ List.replicate 32 0).take 32

/-- The 32 KiB of a table slot: the entries in the order of R125, the rest zero. -/
def slotBytes (t : TSlot) : List Byte :=
  let b := match t.table with | some x => tableBytes x.entries | none => []
  (b ++ List.replicate (32768 - b.length) 0).take 32768

/-- The staging region's descriptors, 64 bytes a slot from offset 0xF0000 (R126). -/
def stagingDescs (p : Spindle) : List (Nat × List Byte) := p.tslots.filterMap fun t => if t.2.desc.isEmpty then none else some (0xF0000 + 64 * t.1, t.2.desc)

/-- Load a query's tables into its slot, and the queue controller's descriptor into the staging region (R122, R126). A slot of another owner is zeroed first
(R71). -/
def State.loadSlot (s : State) (n k : Nat) (c : CopyQ) (desc : List Byte) (t : Table) : State :=
  let o := s.ownerOf c.par.tenant 0
  let s := s.zeroFor (s.sp n) (slotOf (s.sp n) k).owner o 64
  let p := s.sp n
  s.setSp n { p with tslots := put p.tslots k { slotOf p k with table := some t, desc, owner := some o } }

/-- Free a table slot. Its owner stays until another tenant's query comes. -/
def State.freeOne (s : State) (n k : Nat) : State :=
  let p := s.sp n
  s.setSp n { p with tslots := put p.tslots k { slotOf p k with q := none, temp := false, table := none, desc := [] } }

/-- Free the slots of a query on a spindle. -/
def State.freeSlot (s : State) (n : Nat) (q : QName × Nat) : State :=
  (s.sp n).tslots.foldl (fun s t => if t.2.q == some q then s.freeOne n t.1 else s) s

/-- Free a query's slots on every spindle. -/
def State.freeSlotsAll (s : State) (q : QName × Nat) : State := s.spin.foldl (fun s (n, _) => s.freeSlot n q) s

/-- The shingle slot that serves an item. -/
def shslotOf (p : Spindle) (it : Item) : Option (Nat × ShSlot) := p.shslots.find? fun x => x.2.item == some it

/-- How many contexts hold shingle items. -/
def heldShingles (p : Spindle) : Nat := (p.ctxs.filter fun c => match c.item with | some i => i.kind == 0 | none => false).length

/-- The slot numbers of a mask. -/
def maskSlots (m : Nat) : List Nat := (List.range 16).filter fun n => m.testBit n

/-- The queries that an item names on a spindle. -/
def itemQueries (p : Spindle) (it : Item) : List (QName × Nat) := (maskSlots it.mask).filterMap fun n => (slotOf p n).q

/-- Does an item read the lines of a streamed filter from another Molset (R154)? -/
def State.streams (s : State) (p : Spindle) (it : Item) : Bool :=
  (itemQueries p it).any fun q => q.1.home != s.node && (match s.findCopy q.1 q.2 with | some c => c.par.filterMode == 2 && !c.headerBad | none => false)

/-- Where an item goes (R54): a shingle item to the context once its shingle is delivered; whether its words have not come, and whether they come by
memory-semantic loads, for which the context waits (R55, R154). Any other item needs no slot. -/
def State.placeOf (s : State) (p : Spindle) (it : Item) : Option (Nat × Bool × Bool) :=
  if it.kind == 0 then
    match shslotOf p it with
    | some (k, x) => if x.sh.isSome && heldShingles p < 4 - s.reg 0x301102 then some (k, x.tomb.isNone, x.tomb.isNone && s.streams p it) else none
    | none => none
  else some (4, false, false)

/-- May the spindle take an item now: in service, its bobbin not being zeroed (R70), no second bobbin error (R59), not an item of the new role while one of
the old is carried (R74), and no new shingle of the current skein in the guard (R29)? -/
def State.mayTake (s : State) (n : Nat) (p : Spindle) (it : Item) : Bool :=
  !p.zeroing && !p.noTake && s.spState n == 0 && !(p.roleZero && it.role == nodeRole s.map.entries s.node) &&
  !(s.time.guard && it.kind == 0 && it.skein == s.ftick)

/-- Take the item at the head of the queue into an idle context, under the conditions of R54. The first item of another work kind or role has the whole
bobbin zeroed once the contexts have finished; one of another tenant has the staging region zeroed, and the context's registers (R71). -/
def State.takeItem (s : State) (n : Nat) : State :=
  let p := s.sp n
  match p.queue.head?, p.ctxs.findIdx? (fun c => c.st == 0) with
  | some it, some c =>
    if !s.mayTake n p it then s else
    let o := itemOwner it
    if !prepared p o then (if quiet p then s.zeroBobbin n o else s) else
    match s.placeOf p it with
    | none => s
    | some (slot, blocked, waits) =>
      let old := (p.ctxs.getD c {}).owner
      let s := (s.zeroFor p p.stagingOwner o 128).bumpIf (old != some o) 0xE0200B
      let ctx : Ctx := { st := if waits then 3 else 1, item := some it, since := s.ctl.stamp, slot, blocked, owner := some o }
      let s := { s with ctl := { s.ctl with stamp := s.ctl.stamp + 1 } }
      s.setSp n { p with queue := p.queue.drop 1, ctxs := p.ctxs.set c ctx, stagingOwner := some o }
  | _, _ => s

/-- Which context runs next: the one that has been ready longest and is not blocked, ties to the lowest number (R54). -/
def nextCtx (p : Spindle) : Option Nat :=
  ((p.ctxs.zipIdx).foldl (fun (b : Option (Nat × Nat)) (c, i) =>
    if c.st == 1 && !c.blocked then
      match b with
      | none => some (c.since, i)
      | some (t, j) => if c.since < t then some (c.since, i) else some (t, j)
    else b) none).map (·.2)

/-- Fill the idle contexts from the queue and, if none runs, switch to the next one (R54, R56). Every start of a context counts as a switch (entry 52). -/
def State.schedule (s : State) (n : Nat) : State :=
  let s := (List.range 8).foldl (fun s _ => s.takeItem n) s
  let p := s.sp n
  if p.ctxs.any (fun c => c.st == 2) then s else
  match nextCtx p with
  | some i => (s.setSp n { p with ctxs := p.ctxs.modify i fun c => { c with st := 2 } }).bump 0xE02001 1
  | none => s

/-- The stall of a spindle on which no context can run (R56): counted by whether every context that holds an item waits, or one is blocked on the streamer.
`but` is the context whose own stream the cycles went to, if one does. -/
def State.countStall (s : State) (n : Nat) (but : Option Nat) (cycles : Nat) : State :=
  let cs := (((s.sp n).ctxs.zipIdx).filter fun c => c.1.item.isSome).map fun c => if some c.2 == but then { c.1 with st := 1, blocked := true } else c.1
  if cs.isEmpty || cs.any (fun c => c.st == 2 || (c.st == 1 && !c.blocked)) then s
  else s.bump (if cs.all fun c => c.st == 3 then 0xE02002 else 0xE02003) cycles

/-- Make a context idle, free its shingle slot, and drop a mismatch that it waited for (R109). -/
def State.freeCtx (s : State) (n c : Nat) : State :=
  let p := s.sp n
  let x := p.ctxs.getD c {}
  let sl := if x.slot < 4 then p.shslots.map fun (k, v) => if k == x.slot then (k, { v with item := none, sh := none, fails := 0, tomb := none, words := [] }) else (k, v)
    else p.shslots
  let s := { s with ctl := { s.ctl with mismatches := s.ctl.mismatches.filter fun m => !(m.sp == n && m.ctx == c) } }
  s.setSp n { p with shslots := sl, ctxs := p.ctxs.set c { x with st := 0, item := none, slot := 4, blocked := false } }

/-- The stealable items of a spindle: outside the prefetch window and not stolen (R61). -/
def State.stealable (s : State) (n : Nat) : Nat := (((s.sp n).queue.drop (s.reg 0x301102)).filter fun i => !i.stolen).length

/-- Put an item into a queue: ahead of the items of later skeins, and behind those of another role, which are carried (R32, R74). -/
def queueIn (it : Item) (q : List Item) : List Item := insertBy (fun (a b : Item) => a.skein < b.skein && a.role == b.role) it q

/-- Has a spindle's queue room for one more item (R60)? -/
def State.queueRoom (s : State) (n : Nat) : Bool := (s.sp n).queue.length < s.reg 0x301101

/-! ### Indexes and thatches on this Molset -/

/-- The index of a tenant, if it is registered here (R195). -/
def State.findIdx (s : State) (t i : Nat) : Option Idx := s.idx.find? fun x => x.desc.tenant == t && x.desc.index == i

/-- Store an index. -/
def State.setIdx (s : State) (x : Idx) : State := { s with idx := updIf (fun y => y.slot == x.slot) (fun _ => x) s.idx }

/-- The version of the index's live thatch, 0 if none (0x4042). -/
def State.liveVersion (s : State) (x : Idx) : Nat := s.reg (pagedKey 0x4042 x.slot)

/-- The thatch of a shard with a version on this copy. -/
def thatchOf (x : Idx) (shard version : Nat) : Option Thatch :=
  x.thatches.find? fun h => h.im.shard == shard && h.im.version == version

/-- Store a thatch in its index. -/
def setThatch (x : Idx) (h : Thatch) : Idx :=
  { x with thatches := updIf (fun g => g.im.shard == h.im.shard && g.im.version == h.im.version) (fun _ => h) x.thatches }

/-- The sealed sequence of the view of a skein (R210). -/
def viewOf (x : Idx) (skein : Nat) : Option Nat := lk x.views skein

/-- The shape byte of an index with its sign width and metric. -/
def imShape (im : Image) : Nat := im.shape

/-- Shingle numbers of a list of a shard (R200). -/
def listShingles (im : Image) (l : Nat) : List Nat :=
  match im.listTable.find? fun r => r.list == l with
  | some r => (List.range r.count).map (· + r.first)
  | none => []

/-- The tombstone word of a list shingle in the view of a sealed sequence (R151, R210, R215). -/
def tombWord (h : Thatch) (view : Nat) (sh : Shingle) : List Bool :=
  (List.range sh.count).map fun i => h.tomb.any fun t => t.1 == sh.num && t.2.1 == i && t.2.2 ≤ view

/-- The removal word of a delta shingle in a view: removed at or before it (R151, R213), or not yet inserted, which counts as
removed in the view of an older skein (R210). -/
def deltaWord (h : Thatch) (view : Nat) (sh : Shingle) : List Bool :=
  (List.range sh.count).map fun i =>
    match h.entries.find? fun e => e.shingle == sh.num && e.pos == i with
    | some e => view < e.ins || (match e.rem with | some r => r ≤ view | none => false)
    | none => true

/-! ### Queries at their home -/

/-- A query at its home. -/
def State.findHome (s : State) (q : QName) : Option HomeQ := s.home.find? fun h => h.name == q

/-- Store it. -/
def State.setHome (s : State) (h : HomeQ) : State := { s with home := updIf (fun x => x.name == h.name) (fun _ => h) s.home }

/-- Can the query widen (R155)? -/
def canWiden (p : QParams) : Bool := p.filterMode != 0 && p.widen

/-- The target τ (R155). -/
def target (p : QParams) : Nat := max p.k p.r

/-- The size of the probe set of step `n` (R155). -/
def probeSize (p : QParams) (n : Nat) : Nat := min (p.p * 2 ^ n) p.ceil

/-- Is it the last step (R155)? -/
def lastStep (p : QParams) (n : Nat) : Bool := probeSize p n == p.ceil

/-- The home takes a refusal or a missing shard, or the pass count of a step report (R156, R157, R159, R165). -/
def noteReport (h : HomeQ) (r : StepRep) : HomeQ × Bool :=
  if h.reports.any (fun x => x.shard == r.shard && x.step == r.step) then (h, false) else
  let h := { h with reports := h.reports ++ [r] }
  if r.status == 0x000E then
    ({ h with missing := if h.missing.contains r.shard then h.missing else h.missing ++ [r.shard] }, h.missing.isEmpty)
  else if r.status != 0 then
    ({ h with refusal := if h.refusal == 0 then r.status else min h.refusal r.status }, false)
  else (h, false)

/-- The shards whose reports and hanks the home waits for. -/
def waitedShards (h : HomeQ) : List Nat := (h.copies.map (·.1)).filter fun x => !h.missing.contains x

/-- Does the home hold the step's report of every shard copy it waits for? -/
def reportsIn (h : HomeQ) : Bool :=
  (waitedShards h).all fun sh => h.reports.any fun r => r.shard == sh && r.step == h.step

/-- Charge a widening to the budget debt and to the ring's place in line (R413). -/
def State.widenCharge (s : State) (h : HomeQ) (n : Nat) : State :=
  let lam := ((s.findIdx h.par.tenant h.par.index).map (·.lambda)).getD 1
  let units := (probeSize h.par n - probeSize h.par (n - 1)) * lam * passCount (keepCount h.par)
  let s := (s.setReg 0xB00004 (s.reg 0xB00004 + units)).bump 0xE0E007 units
  let inc := cdiv (units * 65536) h.weight
  { s with sched := { s.sched with
      queues := updIf (fun q => q.res == 0 && q.tenant == h.par.tenant) (fun q => { q with flast := q.flast + inc }) s.sched.queues } }

/-- The local copy learns that the query stops (R157). -/
def State.stopLocal (s : State) (q : QName) : State :=
  { s with copy := updIf (fun c => c.name == q) (fun c => { c with stop := true }) s.copy }

/-- Decide, once every awaited report of the step is in: stop or widen (R157). A query that cannot widen needs no decision; its
total is taken. A decision to this Molset's own copy is not a packet: a stop applies at once, a widening comes as
WIDEN_DECISION (entry 23). -/
def State.decideOnce (s : State) (q : QName) : State :=
  match s.findHome q with
  | none => s
  | some h =>
    if h.phase != 2 || h.stopped || !reportsIn h then s else
    let sum := (h.reports.filter fun r => r.step == h.step && r.status == 0).foldl (fun n r => n + r.pass) 0
    let h := { h with total := sat32 (h.total + sum) }
    if !canWiden h.par then s.setHome { h with stopped := true } else
    let dsts := (waitedShards h).filterMap fun sh => (h.copies.find? fun c => c.1 == sh).map (·.2)
    let nodes := dsts.eraseDups
    if target h.par ≤ h.total || lastStep h.par h.step || h.refusal != 0 then
      let low := h.total < target h.par && lastStep h.par h.step
      let s := s.setHome { h with stopped := true, ceiling := low }
      let s := (s.bump 0xE05015 dsts.length).bumpIf low 0xE05012
      (s.sendEach nodes 0x20 h.par.tenant h.epoch (.stop q)).stopLocal q
    else
      let s := s.setHome { h with step := h.step + 1, widened := true }
      let s := ((s.bump 0xE05015 dsts.length).bump 0xE05010 1).bumpIf (!h.widened) 0xE05011
      (s.widenCharge h (h.step + 1)).sendEach nodes 0x20 h.par.tenant h.epoch (.widen q (h.step + 1))

/-- Decide a query's steps: one decision, and where no copy is left to report, the steps after it too (R157, R159). Fuel: the steps there can be. -/
def decideLoop : Nat → QName → State → State
  | 0, _, s => s
  | n + 1, q, s =>
    let s := s.decideOnce q
    match s.findHome q with
    | some h => if h.phase == 2 && !h.stopped && (waitedShards h).isEmpty then decideLoop n q s else s
    | none => s

/-- Decide a query's step, if it can be decided (R157). -/
def State.decideStep (s : State) (q : QName) : State := decideLoop 32 q s

/-- The home receives a step report (R157, R159, R375). -/
def State.homeReport (s : State) (r : StepRep) : State :=
  match s.findHome r.name with
  | none => s
  | some h =>
    if !(h.copies.any fun c => c.1 == r.shard) then s else
    let (h', newlyMissing) := noteReport h r
    ((s.setHome h').bumpIf newlyMissing 0xE05018).decideStep r.name

/-- A copy has scored the last item of a step: it reports to the home (R156). A query that cannot widen closes its hank without
waiting. -/
def State.stepDone (s : State) (q : QName) (sh : Nat) : State :=
  match s.findCopy q sh with
  | none => s
  | some c =>
    let r : StepRep := { name := q, shard := sh, step := c.step, status := c.status, pass := sat32 c.offered }
    let s := s.setCopy { c with stop := c.stop || !canWiden c.par || c.status != 0 }
    let s := s.bump 0xE05014 1
    if q.home == s.node then s.homeReport r else s.sendAt q.home 0x20 c.par.tenant c.epoch false (.stepReport r)

/-! ### Sampling, checkers (R75 to R79) -/

/-- The sampling value's low 16 bits (R75). -/
def samplingValue (tenant skein num : Nat) : Nat :=
  (crc32c (leBytes 2 tenant ++ leBytes 8 skein ++ leBytes 4 num)).toNat % 65536

/-- Is an item sampled (R75)? -/
def State.sampled (s : State) (it : Item) : Bool :=
  samplingValue it.tenant it.skein it.shingle < s.reg (pagedKey 0x3020 it.tenant)

/-- The first in-service spindle of a die from a start number on, wrapping, other than those given (R76, R79). -/
def State.searchDie (s : State) (die start : Nat) (not : List Nat) : Option Nat :=
  ((List.range 192).map fun i => die * 192 + (start + i) % 192).find? fun n => s.spUp n && !not.contains n

/-- The third spindle's rule (R78): 96 above on the given die. -/
def State.search96 (s : State) (die first : Nat) (not : List Nat) : Option Nat :=
  s.searchDie die ((first % 192 + 96) % 192) not

/-- The checker of an item that `first` scores (R76, R79). -/
def State.checkerOf (s : State) (first : Nat) : Option Nat :=
  match s.searchDie (1 - dieOf first) (first % 192) [first] with
  | some n => some n
  | none => s.search96 (dieOf first) first [first]

/-- The third spindle (R78, R79). -/
def State.thirdOf (s : State) (first checker : Nat) : Option Nat :=
  match s.search96 (dieOf first) first [first, checker] with
  | some n => some n
  | none => s.search96 (1 - dieOf first) first [first, checker]

/-- The thatch that a copy's query is bound to. -/
def State.copyThatch (s : State) (c : CopyQ) : Option Thatch :=
  (s.findIdx c.par.tenant c.par.index).bind fun x => thatchOf x c.shard c.version

/-- Give queries table slots on a spindle and start the copy of their tables (R58, R67): the free slots in ascending number, in the order given. A steal
gives every query a slot of its own; otherwise a query that is resident there keeps its slot. None if they do not fit. -/
def State.lendTables (s : State) (kind src dst : Nat) (qs : List (QName × Nat)) : Option (State × List ((QName × Nat) × Nat)) :=
  let need := if kind == 0 then qs else qs.filter fun q => (slotFor (s.sp dst) q).isNone
  if (freeSlots (s.sp dst)).length < need.length then none else
  let tenant := ((qs.head?.bind fun q => s.findCopy q.1 q.2).map (·.par.tenant)).getD 0
  let s := s.prepareSp dst (s.ownerOf tenant 0)
  let pairs := need.zip (freeSlots (s.sp dst))
  let s := pairs.foldl (fun s x => s.bindSlot dst x.2 x.1 (kind != 2)) s
  let all := qs.filterMap fun q => ((pairs.find? fun x => x.1 == q).map (·.2)).orElse (fun _ => slotFor (s.sp dst) q) |>.map fun d => (q, d)
  some (s.startCopy kind src dst pairs, all)

/-- Copy the tables of a spindle's slots to another, in ascending source slot (R67): the map from source slot to slot there. -/
def State.copyTables (s : State) (kind src dst : Nat) (slots : List Nat) : Option (State × List (Nat × Nat)) :=
  let qs := (sortBy (· < ·) slots).filterMap fun n => (slotOf (s.sp src) n).q.map fun q => (n, q)
  (s.lendTables kind src dst (qs.map (·.2))).map fun (s, l) =>
    (s, qs.filterMap fun (n, q) => (l.find? fun x => x.1 == q).map fun x => (n, x.2))

/-- Rewrite a mask by a slot map (R67). -/
def mapMask (m : Nat) (f : List (Nat × Nat)) : Nat :=
  (maskSlots m).foldl (fun a n => match lk f n with | some d => a ||| 2 ^ d | none => a) 0

/-- The mask of the slots that queries were given. -/
def maskOf (l : List ((QName × Nat) × Nat)) : Nat := l.foldl (fun m x => m ||| 2 ^ x.2) 0

/-- Insert an item directly after the prefetch window (R76). -/
def afterWindow (w : Nat) (q : List Item) (it : Item) : List Item := q.take w ++ it :: q.drop w

/-- Place a further copy of an item on a spindle, to be run there for its digest (R76, R78). None without room for it or for its tables. -/
def State.placeCopy (s : State) (src c : Nat) (it : Item) (qs : List (QName × Nat)) : Option State :=
  if !s.queueRoom c then none else
  (if it.kind == 0 then s.lendTables 1 src c qs else some (s, [])).map fun (s, f) =>
    let it := { it with stolen := true, check := true, mask := if it.kind == 0 then maskOf f else it.mask }
    s.setSp c { s.sp c with queue := afterWindow (s.reg 0x301102) (s.sp c).queue it }

/-- Place the checker copy of a sampled item that spindle `n` scores first, or leave the item unchecked (R76, R79). A checker
without room for the item or the tables counts as none (entry 21). -/
def State.placeChecker (s : State) (n : Nat) (it : Item) : State :=
  let qs := itemQueries (s.sp n) it
  match (s.checkerOf n).bind fun c => (s.placeCopy n c it qs).map fun s => (c, s) with
  | none => s.bump 0xE02015 1
  | some (c, s) =>
    let k : Check := { id := s.ctl.next, item := it, first := n, checker := c, d1 := none, d2 := none, third := none, out := 0, queries := qs }
    { s with ctl := { s.ctl with next := s.ctl.next + 1, checks := s.ctl.checks ++ [k] } }.schedule c

/-- Sample an item at its dealing (R75 to R77, R79). -/
def State.sampleItem (s : State) (n : Nat) (it : Item) : State :=
  if it.check || !s.sampled it then s else
  let before := s.ctl.checks.length
  let s := s.placeChecker n it
  s.bumpIf (before < s.ctl.checks.length) 0xE02011

/-! ### Dealing (R148, R416) -/

/-- An item waits to be dealt, with its queries (R69, R420). -/
def State.waitItem (s : State) (it : Item) (qs : List (QName × Nat)) : State :=
  { s with ctl := { s.ctl with redeal := s.ctl.redeal ++ [(it, qs, s.ns)] } }

/-- Put an item into a spindle's queue (R32, R60). An item that finds the queue full waits to be dealt. -/
def State.enqueue (s : State) (n : Nat) (it : Item) : State :=
  let p := s.sp n
  if s.queueRoom n then s.setSp n { p with queue := queueIn it p.queue }
  else s.waitItem it (itemQueries p it)

/-- What one query asks for: its shard copy and the shingle numbers of a step, ascending. -/
abbrev Ask := CopyQ × List Nat

/-- The shingles that a step or a pass of a query scans on this shard (R155, R181): its lists' shingles and, at step 0 and on later
passes, the delta shingles. -/
def stepShingles (h : Thatch) (c : CopyQ) : List Nat :=
  let hi := probeSize c.par c.step
  let lo := if c.pass > 1 || c.step == 0 then 0 else probeSize c.par (c.step - 1)
  let lists := (c.coarse.take hi).drop lo
  let nums := lists.flatMap (listShingles h.im)
  let delta := if c.pass > 1 || c.step == 0 then h.delta.map (·.num) else []
  sortBy (· < ·) (nums ++ delta)

/-- Count a dealt item for a query: items of its die, and items left of the step. -/
def noteDealt (c : CopyQ) (n : Nat) : CopyQ :=
  let d := dieOf n
  let cnt := (lk c.dealt d).getD 0
  let sp := match lk c.plySp d with | some m => min m n | none => n
  { c with dealt := put c.dealt d (cnt + 1), plySp := put c.plySp d sp, left := c.left + 1 }

/-- The spindles where a query is resident that take search items now: in service and in no set of the frame (R148, R246, R260). -/
def State.homesOf (s : State) (c : CopyQ) : List Nat :=
  c.plan.filter fun n => s.spUp n && !s.ctl.denseSet.contains n && !s.ctl.gatherSet.contains n && (slotFor (s.sp n) (c.name, c.shard)).isSome

/-- Share one shingle out among the queries that ask for it, each with its homes and its turn: queries that are resident on one spindle go into one item
(R148). A query without a home has no spindle. -/
def shareOut (l : List ((QName × Nat) × List Nat × Nat)) : List (Option Nat × List (QName × Nat)) :=
  l.foldl (fun acc (q, homes, i) =>
    match acc.findIdx? fun a => match a.1 with | some n => homes.contains n | none => homes.isEmpty with
    | some j => acc.modify j fun a => (a.1, a.2 ++ [q])
    | none => acc ++ [(homes[i % max 1 homes.length]?, [q])]) []

/-- The items of what queries of a skein and thatch ask for, in ascending shingle number: shingle, spindle, queries. The choice of the spindle is the
planner's (entry 7): the shingles of a query go to its homes by turns. -/
def State.stepDeals (s : State) (l : List Ask) : List (Nat × Option Nat × List (QName × Nat)) :=
  let asks := l.flatMap fun (c, nums) => nums.zipIdx.map fun (num, i) => (num, ((c.name, c.shard), s.homesOf c, i))
  (sortBy (· < ·) ((asks.map (·.1)).eraseDups)).flatMap fun num =>
    (shareOut ((asks.filter fun a => a.1 == num).map (·.2))).map fun (n, l) => (num, n, l)

/-- Deal one item (R60, R148, R416): its share of spindle time is tagged, and it is sampled (R75). An item whose queries have no home waits to be dealt as
R69 deals (State.redealItem). -/
def State.dealItem (h : Thatch) (c : CopyQ) (s : State) (d : Nat × Option Nat × List (QName × Nat)) : State :=
  let (num, at_, mine) := d
  let die := dieOf (at_.getD c.builder)
  let mask := match at_ with | some n => mine.foldl (fun m q => match slotFor (s.sp n) q with | some k => m ||| 2 ^ k | none => m) 0 | none => 0
  let it : Item := {
    skein := c.name.skein, shingle := num, mask, stolen := false, check := false, kind := 0, tenant := c.par.tenant,
    role := nodeRole s.map.entries s.node, index := c.par.index, shard := c.shard, version := c.version, pass := c.pass, die, errors := 0 }
  let s := match at_ with
    | some n => s.enqueue n it
    | none => s.waitItem it mine
  let s := mine.foldl (fun s q => match s.findCopy q.1 q.2 with | some c => s.setCopy (noteDealt c (at_.getD c.builder)) | none => s) s
  let cnt := ((h.im.shingles ++ h.delta).find? fun x => x.num == num).map (·.count)
  let pars := mine.filterMap fun q => (s.findCopy q.1 q.2).map (·.par)
  let s := [false, true].foldl (fun s b =>
    let own := pars.filter (·.bulk == b)
    if own.isEmpty then s
    else s.dealTag c.par.tenant b (own.foldl (fun a p => a + pairCycles h.im.m (imShape h.im) (cnt.getD 0) p) 0)) s
  match at_ with | some n => s.sampleItem n it | none => s

/-- Deal what queries of a skein and thatch ask for (R148); a step without items is done at once (R156), but not before the view is here (R210). -/
def State.dealAsks (s : State) (h : Thatch) (l : List Ask) : State :=
  let ds := s.stepDeals l
  let s := match l.head? with | some c => ds.foldl (State.dealItem h c.1) s | none => s
  let s := l.foldl (fun s a => match s.findCopy a.1.name a.1.shard with
    | some c => if c.left == 0 && c.pass == 1 && c.deltaTo.isNone then s.stepDone c.name c.shard else s
    | none => s) s
  let s := match l.head? with | some c => if ds.isEmpty then s else s.dealtOut c.1.par.tenant | none => s
  ds.foldl (fun s d => match d.2.1 with | some n => s.schedule n | none => s) s

/-- Deal the items of one step of the queries of a skein and thatch (R148). Where the view of the skein is not installed yet, the delta shingles that it
makes follow with it (R210, R211). -/
def State.deal (s : State) (h : Thatch) (qs : List CopyQ) : State :=
  let early (c : CopyQ) : Bool := c.step == 0 && c.pass == 1 &&
    (match s.findIdx c.par.tenant c.par.index with | some x => (viewOf x c.name.skein).isNone | none => false)
  let s := (qs.filter early).foldl (fun s c => match s.findCopy c.name c.shard with
    | some c => s.setCopy { c with deltaTo := some h.delta.length }
    | none => s) s
  s.dealAsks h (qs.map fun c => (c, stepShingles h c))

/-- The view of a skein is installed: the delta shingles that it made are dealt to the queries whose items were dealt before (R148, R210). -/
def State.dealView (s : State) (t i skein : Nat) : State :=
  let cs := s.copy.filter fun c => c.phase == 3 && c.name.skein == skein && c.par.tenant == t && c.par.index == i && c.deltaTo.isSome
  ((cs.map (·.shard)).eraseDups).foldl (fun s sh =>
    let mine := cs.filter fun c => c.shard == sh
    match mine.head?.bind s.copyThatch with
    | none => s
    | some h =>
      let s := mine.foldl (fun s c => match s.findCopy c.name sh with | some c => s.setCopy { c with deltaTo := none } | none => s) s
      s.dealAsks h (mine.map fun c => (c, (h.delta.drop (c.deltaTo.getD 0)).map (·.num)))) s

/-- Start a step or a pass of a query: nothing dealt yet. -/
def resetStep (c : CopyQ) : CopyQ := { c with dealt := [], left := 0, offered := 0, segs := [], dieHanks := [] }

/-- A query that waits for placement takes a freed slot of a spindle: its table is copied there from its builder and its items are
dealt (R148). -/
def State.placeWaiting (s : State) (n : Nat) : State :=
  if !s.spUp n || s.ctl.denseSet.contains n || s.ctl.gatherSet.contains n then s else
  match s.copy.find? fun c => c.phase == 2 && c.status == 0 && c.plan.isEmpty && c.coarse != [] with
  | none => s
  | some c =>
    let q := (c.name, c.shard)
    match s.copyThatch c with
    | none => s
    | some h =>
      let done (s : State) : State := let c := { c with phase := 3, plan := [n] }; (s.setCopy c).deal h [c]
      if (slotFor (s.sp n) q).isSome then done s else
      match slotFor (s.sp c.builder) q with
      | none => s
      | some k => match s.copyTables 2 c.builder n [k] with | some (s, _) => done s | none => s

/-- The spindle that encodes what no work item of a spindle asks for: the lowest one in service (R91, R198; entry 7). -/
def State.encodeSp (s : State) : Option Nat := s.upSpindles.head?

/-- Resident queries on this Molset (R148). -/
def State.residents (s : State) : Nat := s.spin.foldl (fun n (_, p) => n + (p.tslots.filter fun t => t.2.q.isSome).length) 0

/-! ### Module hanks and the home (R180, R186, R187) -/

/-- The home receives a module hank of a shard (R172, R180, R186, R187). -/
def State.homeHank (s : State) (h : Hank) (src : Nat) : State :=
  let refuse (s : State) (q : HomeQ) : State :=
    let s := s.bump 0xE06014 1
    if q.asked.contains (h.shard, h.pass) then
      s.setHome { q with integrity := true, hanks := if q.hanks.any (·.shard == h.shard) then q.hanks else q.hanks ++ [emptyHank q.name h.shard 2 h.pass] }
    else
      let s := s.setHome { q with asked := q.asked ++ [(h.shard, h.pass)] }
      if src == s.node then s else s.sendAt src 0x20 q.par.tenant q.epoch false (.askHank q.name h.shard h.pass)
  match s.findHome h.name with
  | none =>
    let s := s.bump 0xE06014 1
    let k := (h.name, h.shard, h.pass)
    if s.rerank.resent.contains k || src == s.node then s else
    { s with rerank := { s.rerank with resent := s.rerank.resent ++ [k] } }.sendAt src 0x20 systemTenant s.epoch false (.askHank h.name h.shard h.pass)
  | some q =>
    if h.res != 0 || h.level != 2 || !(q.copies.any fun c => c.1 == h.shard) || h.digest != hankDigest h then refuse s q else
    match q.hanks.find? fun x => x.shard == h.shard && x.pass == h.pass with
    | some x =>
      if x.digest == h.digest then s.bump 0xE0600D 1 else (s.setHome { q with integrity := true }).bump 0xE0600E 1
    | none => s.setHome { q with hanks := q.hanks ++ [h] }

/-- The hank of a copy's finished passes: they follow in pass order, and the boundary count is the last pass's (R181). -/
def joinPasses (c : CopyQ) (ps : List Hank) : Hank :=
  match ps with
  | [] => emptyHank c.name c.shard 2 0
  | [h] => sealHank { h with level := 2, pass := if passCount (keepCount c.par) == 1 then 1 else 0, integrity := h.integrity || c.integrity }
  | h :: rest =>
    let l := rest.getLastD h
    sealHank { h with
      level := 2, pass := 0, boundary := l.boundary, entries := h.entries ++ rest.flatMap (·.entries),
      nan := sat32 (rest.foldl (fun n x => n + x.nan) h.nan), offered := sat32 (rest.foldl (fun n x => n + x.offered) h.offered),
      items := sat32 (rest.foldl (fun n x => n + x.items) h.items), low := rest.foldl (fun m x => min m x.low) h.low,
      high := rest.foldl (fun m x => max m x.high) h.high, integrity := rest.any (·.integrity) || h.integrity || c.integrity }

/-- The copy sends the module hank to the home and frees what the query held (R180). A shard of the home is merged locally. -/
def State.sendModule (s : State) (c : CopyQ) (late : Bool) : State :=
  let h := joinPasses c c.passes
  let s := s.setCopy { c with sent := some h, phase := 4, waiting := [] }
  let s := (s.freeSlotsAll (c.name, c.shard)).bumpIf (late || s.pastDeadline c.name.skein) 0xE01001
  let s := if c.name.home == s.node then s.homeHank h s.node else s.sendAt c.name.home 0x20 c.par.tenant c.epoch false (.hank h)
  s.spin.foldl (fun s (n, _) => s.placeWaiting n) s

end Sys2Proof.Machine
end

