-- ==== Sys2Proof/Machine/Spindle.lean ====
section
/-! DEFINITION. The commands of the spindles: shingle and filter arrival, scoring, stealing, table copies, zeroing and sampled dual
execution (R51 to R82, R121, R130 to R132, R150 to R154). -/

namespace Sys2Proof.Machine

/-! ### The streamer and the filter fetcher (R61, R121, R151 to R154) -/

/-- The items of the prefetch window that wait for a shingle slot (R61). -/
def windowItems (s : State) (p : Spindle) : List Item :=
  (p.queue.take (s.reg 0x301102)).filter fun i => i.kind == 0 && (shslotOf p i).isNone

/-- The item whose shingle a delivery into a free slot brings: the window's item of that number, else its first. -/
def arrivalItem (s : State) (p : Spindle) (x : ShSlot) (num : Nat) : Option Item :=
  match x.item with
  | some it => if x.sh.isNone then some it else none
  | none =>
    let w := windowItems s p
    match w.find? fun i => i.shingle == num with | some i => some i | none => w.head?

/-- Set the integrity flag of queries on this copy (R78, R108, R121, R154). -/
def State.flagIntegrity (s : State) (qs : List (QName × Nat)) : State :=
  { s with copy := updIf (fun c => qs.contains (c.name, c.shard)) (fun c => { c with integrity := true }) s.copy }

/-- R121: the streamer delivers a shingle into a slot and checks it. A failed check refetches once; after a second one the shingle is
abandoned: no candidate, the integrity flag, a report to part scoring of a weight that the table of R386 does not give (entry 12). -/
def execShingleArrival (sp slot : Nat) (sh : Shingle) (s : State) : Res := live s fun s =>
  let p := s.sp sp
  let x := (lk p.shslots slot).getD {}
  if sp ≥ 384 || slot ≥ 4 || p.zeroing then s else
  match arrivalItem s p x sh.num with
  | none => s
  | some it =>
    if it.stolen && s.ctl.copies.any (fun c => c.dst == sp) then s else
    match (s.findIdx it.tenant it.index).bind fun i => (thatchOf i it.shard it.version) with
    | none => s
    | some h =>
      let im := h.im
      let o := itemOwner it
      let own := some o
      let s := if x.item.isSome then s else s.zeroFor p x.owner o 128
      if shingleOk sh it.shingle it.version im.cbset im.m im.shape im.d then
        (s.setSp sp { p with shslots := put p.shslots slot { x with item := some it, sh := some sh, tomb := none, words := [], owner := own } }).schedule sp
      else
        let s := s.bump 0xE04007 1
        if x.fails < s.reg 0x40100C then
          s.setSp sp { p with shslots := put p.shslots slot { x with item := some it, sh := none, fails := x.fails + 1, owner := own } }
        else
          let none_ : Shingle := { sh with num := it.shingle, count := 0, ids := [], signs := [], codes := [] }
          let (n, s) := s.draw
          let s := ((s.bump 0xE04008 1).flagIntegrity (itemQueries p it)).score partSpindle sp (Config.freeNat n)
          (s.setSp sp { p with shslots := put p.shslots slot { x with item := some it, sh := some none_, tomb := none, words := [], fails := x.fails + 1, owner := own } }).schedule sp

/-- The bit of an item ID in a filter bitmap (R152). -/
def filterBit (f : Bitmap) (id : Nat) : Bool :=
  if f.base ≤ id && id < f.base + f.count then f.bits.getD (id - f.base) false else f.outside == 1

/-- The content of a resident filter in effect at a tick (R153). -/
def State.filterAt (s : State) (tenant handle index tick : Nat) : Option Filter :=
  s.filters.find? fun f => f.tenant == tenant && f.handle == handle && f.index == index && f.start ≤ tick &&
    (match f.stop with | some e => tick < e | none => true)

/-- The line of a bitmap that holds the bit of an item ID, counted from its header (R152). -/
def filterLine (f : Bitmap) (id : Nat) : Nat := (32 + (id - f.base) / 8) / 64

/-- The IDs that a bitmap covers. -/
def mapIds (f : Bitmap) (ids : List Nat) : List Nat := ids.filter fun id => f.base ≤ id && id < f.base + f.count

/-- The 64-byte lines read for the items of a shingle (R153, R154). -/
def filterLines (f : Bitmap) (ids : List Nat) : List Nat := ((mapIds f ids).map (filterLine f)).eraseDups

/-- The filter word of a shingle: the IDs of an unreadable line fail (R151, R154). -/
def filterWord (f : Bitmap) (bad : List Nat) (ids : List Nat) : List Bool :=
  ids.map fun id => filterBit f id && !(f.base ≤ id && id < f.base + f.count && bad.contains (filterLine f id))

/-- The streamed filter of a query of this Molset, from its own stack memory (R152, R154). -/
def State.ownFilter (s : State) (c : CopyQ) (slot : Nat) (ids : List Nat) : StreamRead :=
  let t := c.par.tenant
  let a := c.par.filter
  let map : Bitmap := { base := s.loadNat t a 6, count := s.loadNat t (a + 8) 8, outside := s.loadNat t (a + 16) 1, bits := [] }
  let bit (id : Nat) : Bool := (s.loadNat t (a + 32 + (id - map.base) / 8) 1).testBit ((id - map.base) % 8)
  let ns := mapIds map ids
  let bits := if ns.isEmpty then [] else (List.range (ns.foldl (fun m id => max m (id - map.base)) 0 + 1)).map fun i => ns.contains (map.base + i) && bit (map.base + i)
  { tslot := slot, map := { map with bits }, headerBad := s.poisoned t a 32
    badLines := (filterLines map ids).filter fun l => s.poisoned t (a + 64 * l) 64 }

/-- What the words of one table slot cost and show: the word if the query has a filter, lines read, whether a header was unreadable, and how many lines
were. -/
structure SlotWord where
  word : Option (List Bool) := none
  lines : Nat := 0
  headerBad : Bool := false
  bad : Nat := 0
  deriving DecidableEq, Repr

/-- The word of one table slot; none if the content is not here yet (R151 to R154). A filter whose header could not be read stays unread. -/
def slotWord (s : State) (c : CopyQ) (ids : List Nat) (slot : Nat) (streamed : List StreamRead) (bad : List (Nat × Nat)) : Option SlotWord :=
  let read (f : Bitmap) (l : List Nat) : SlotWord :=
    { word := some (filterWord f l ids), lines := (filterLines f ids).length, bad := ((filterLines f ids).filter l.contains).length }
  match c.par.filterMode with
  | 1 =>
    (s.filterAt c.par.tenant (c.par.filter % 2 ^ 32) c.par.index c.name.skein).map fun f => read f.map ((bad.filter fun x => x.1 == slot).map (·.2))
  | 2 =>
    if c.headerBad then some { word := some (ids.map fun _ => false) } else
    let r := if c.name.home == s.node then some (s.ownFilter c slot ids) else streamed.find? fun r => r.tslot == slot
    r.map fun r => if r.headerBad then { word := some (ids.map fun _ => false), headerBad := true } else read r.map r.badLines
  | _ => some {}

/-- Count what the words of one query cost, and note what its filter showed (R153, R154). -/
def State.noteWord (s : State) (c : CopyQ) (w : SlotWord) : State :=
  let mode2 := c.par.filterMode == 2
  let s := (s.bump (if mode2 then 0xE0500E else 0xE0500D) w.lines).bump 0xE0500F (w.bad + b2n w.headerBad)
  s.setCopy { c with headerRead := c.headerRead || mode2, headerBad := c.headerBad || w.headerBad, integrity := c.integrity || w.headerBad || 0 < w.bad }

/-- R151, R154: the filter fetcher writes the tombstone word and the filter words of a shingle slot. Nothing is written while the
content of a resident filter is not here (R153). -/
def execFilterWordsArrival (sp slot : Nat) (streamed : List StreamRead) (bad : List (Nat × Nat)) (stall : Nat) (s : State) : Res := live s fun s =>
  let p := s.sp sp
  match (lk p.shslots slot).bind fun x => x.item.bind fun it => x.sh.map fun sh => (x, it, sh) with
  | none => s
  | some (x, it, sh) =>
    if x.tomb.isSome then s else
    match (s.findIdx it.tenant it.index).bind fun i => (thatchOf i it.shard it.version).bind fun h => (viewOf i it.skein).map fun v => (h, v) with
    | none => s
    | some (h, view) =>
      let qs := (maskSlots it.mask).filterMap fun k => (slotOf p k).q.bind fun q => (s.findCopy q.1 q.2).map fun c => (k, c)
      let ws := qs.map fun (k, c) => (k, c, slotWord s c sh.ids k streamed bad)
      if ws.any fun w => w.2.2.isNone then s else
      let s := s.countStall sp none stall
      let tomb := if h.delta.any fun d => d.num == sh.num then deltaWord h view sh else tombWord h view sh
      let words := ws.filterMap fun (k, _, w) => w.bind fun r => r.word.map fun b => (k, b)
      let s := ws.foldl (fun s (_, c, w) => match w with | some w => s.noteWord c w | none => s) s
      let o := itemOwner it
      let s := s.zeroFor p p.filterOwner o 256
      let p := { p with
        shslots := put p.shslots slot { x with tomb := some tomb, words := words }
        filterOwner := some o
        ctxs := p.ctxs.map fun c => if c.slot == slot && c.item.isSome then
          { c with blocked := false, st := if c.st == 3 then 1 else c.st, since := if c.st == 3 then s.ctl.stamp else c.since } else c }
      (s.stampUp.setSp sp p).schedule sp

/-! ### Scoring (R130 to R132, R150, R168 to R175) -/

/-- What the tests of R150 exclude, and the pairs scored. -/
structure Tally where
  tomb : Nat := 0
  delta : Nat := 0
  filter : Nat := 0
  sign : Nat := 0
  bound : Nat := 0
  scored : Nat := 0
  deriving DecidableEq, Repr

/-- One item-query pair: the tests in their order, then the score and the bound (R130 to R132, R150). -/
def scorePair (isDelta : Bool) (sh : Shingle) (tomb : List Bool) (word : Option (List Bool)) (t : Table) (par : QParams) (i : Nat)
    (acc : Tally × List HEntry) : Tally × List HEntry :=
  let (n, es) := acc
  if tomb.getD i false then (if isDelta then { n with delta := n.delta + 1 } else { n with tomb := n.tomb + 1 }, es)
  else if (match word with | some w => !w.getD i false | none => false) then ({ n with filter := n.filter + 1 }, es)
  else if shapeW sh.shape != 0 && par.prefilter != 0xFFFF && par.prefilter < hamming (sh.signs.getD i []) t.sign then
    ({ n with sign := n.sign + 1 }, es)
  else
    let v := codeScore t (sh.codes.getD i [])
    let n := { n with scored := n.scored + 1 }
    if par.r == 0 && fLt par.bound v then ({ n with bound := n.bound + 1 }, es)
    else (n, es ++ [{ id := sh.ids.getD i 0, delta := isDelta, score := v, shingle := sh.num }])

/-- Every pair of one shingle and one query, in ascending position. -/
def scoreShingle (isDelta : Bool) (sh : Shingle) (tomb : List Bool) (word : Option (List Bool)) (t : Table) (par : QParams) : Tally × List HEntry :=
  (List.range sh.count).foldl (fun acc i => scorePair isDelta sh tomb word t par i acc) ({}, [])

/-- Does an entry follow the floor of its pass (R173)? -/
def followsFloor (f : Option (F32 × Nat)) (e : HEntry) : Bool := match f with | some k => keyLt k (entKey e) | none => true

/-- The digest of a scored item: for each query in ascending home and query index, its name, its candidates and its counts (R77,
R176). -/
def itemDigest (rs : List (QName × List HEntry)) : W64 :=
  let sorted := sortBy (fun (a b : QName × List HEntry) => a.1.home < b.1.home || (a.1.home == b.1.home && a.1.qidx < b.1.qidx)) rs
  crc64 (sorted.flatMap fun (q, es) => leBytes 2 q.home ++ leBytes 2 q.qidx ++
    es.flatMap (fun e => leBytes 6 e.id ++ leBytes 4 e.score.toNat) ++ leBytes 4 es.length ++ leBytes 4 0)

/-- Does a check belong to an item? -/
def checkOf (k : Check) (it : Item) : Bool :=
  k.item.kind == it.kind && k.item.skein == it.skein && k.item.tenant == it.tenant && k.item.index == it.index &&
  k.item.shard == it.shard && k.item.shingle == it.shingle && k.item.pass == it.pass

/-- What an item puts out: candidates by query, or of a dense item parts of buffers (buffer, vector, first row, values), a converted vector, and what it
counts for its job. -/
structure ItemOut where
  cands : List ((QName × Nat) × List HEntry) := []
  outs : List (Nat × Nat × Nat × List F32) := []
  conv : Option (Nat × RowImg) := none
  sums : List Nat := []
  deriving DecidableEq, Repr

/-- Record the digest that a spindle forms of a sampled item (R77, R78), with what the checker puts out. -/
def State.noteDigest (s : State) (sp : Nat) (it : Item) (d : W64) (o : ItemOut) : State :=
  let f (k : Check) : Check :=
    if it.check then
      (if k.checker == sp then { k with d2 := some d, cands := o.cands, outs := o.outs, conv := o.conv, sums2 := o.sums }
       else if k.third == some sp then { k with d3 := some d } else k)
    else if k.first == sp then { k with d1 := some d, sums1 := o.sums } else k
  { s with ctl := { s.ctl with checks := updIf (fun k => checkOf k it) f s.ctl.checks } }

/-- Offer the candidates of one item for one query to the hank set of its table slot (R57, R173, R174, R183). A set that another die's ply takes, or that is
bound to another query or pass, is sent first. Duplicates inside one shard show a fault of the shard's data (R184). -/
def State.select (s : State) (sp slot : Nat) (c : CopyQ) (it : Item) (es : List HEntry) : State :=
  let q := (c.name, c.shard)
  let same (h : HSet) : Bool := h.q == some q && h.pass == it.pass && h.die == it.die
  let s := match lk (s.sp sp).hsets slot with | some h => if same h then s else s.flushSet sp slot | none => s
  let p := s.sp sp
  let old := lk p.hsets slot
  let hs : HSet := old.getD { q := some q, pass := it.pass, keep := passKeep (keepCount c.par) it.pass, floor := c.floor, die := it.die }
  let hs := { hs with items := hs.items + 1, low := min hs.low it.shingle, high := max hs.high it.shingle }
  let (hs, off, d) := es.foldl (fun (h, n, d) e =>
    let (h, o, k) := offer h e
    (h, n + b2n o, { eq := d.eq + k.eq, ne := d.ne + k.ne })) (hs, 0, ({} : DupCnt))
  let s := s.setSp sp { p with hsets := put p.hsets slot hs }
  let s := ((s.bumpIf old.isNone 0xE06002).bump 0xE06001 off).countDups d true
  let s := s.scoreDups d [sp]
  match s.findCopy c.name c.shard with
  | some c => s.setCopy { c with offered := c.offered + off }
  | none => s

/-- Is a query done with its residences, but for items that still name its slots: it takes no further step and no further pass (R148, R155, R181)? -/
def lastItems (c : CopyQ) : Bool := (c.stop || !canWiden c.par) && passCount (keepCount c.par) ≤ c.pass

/-- Send the segments whose last item is scored, and free the table slots that no item of their query will use again (R62, R148, R175). -/
def State.sendSegments (s : State) (sp : Nat) (slots : List Nat) : State :=
  slots.foldl (fun s k =>
    let s := match lk (s.sp sp).hsets k with | some hs => if slotBusy (s.sp sp) k hs.die then s else s.flushSet sp k | none => s
    let x := slotOf (s.sp sp) k
    let needed := s.ctl.copies.any fun y => y.src == sp && y.slots.any fun z => (slotOf (s.sp y.dst) z.2).q == x.q
    match x.q.bind fun q => s.findCopy q.1 q.2 with
    | some c => if !slotNamed (s.sp sp) k && !needed && (x.temp || (lastItems c && 3 ≤ c.phase)) then s.freeOne sp k else s
    | none => s) s

/-- An item leaves its context unfinished and goes back to the head of the queue (R59, R108). -/
def State.putBack (s : State) (sp ctx : Nat) (it : Item) : State :=
  let s := s.freeCtx sp ctx
  let p := s.sp sp
  s.setSp sp { p with queue := { it with errors := it.errors + 1 } :: p.queue }

/-- An uncorrectable bobbin error in the item in hand (R59): it runs again; a second one raises a fault, and the spindle takes no
further item. -/
def State.bobbinError (s : State) (sp ctx : Nat) (it : Item) : State :=
  let s := ((s.bump 0xE0200F 1).score partSpindle sp 1024).putBack sp ctx it
  if it.errors == 0 then s.bump 0xE02010 1 else
  let p := s.sp sp
  (s.setSp sp { p with noTake := true }).raiseFault 2 s.node partSpindle sp 0

/-- What a spindle meets while an item runs: its stall (R56), the corrected errors of its bobbin (R59, R386), and an uncorrectable one, after which the item
does not go on. -/
def State.withEv (s : State) (sp ctx : Nat) (it : Item) (ev : ItemEv) (go : State → State) : State :=
  let s := s.countStall sp (some ctx) ev.stall
  let s := if ev.corrected == 0 then s else s.score partSpindle sp ev.corrected
  if ev.bad then (s.bobbinError sp ctx it).schedule sp else go s

/-- The lookup-accumulate unit loads the entries of 4-bit sub-codes of a table slot into one of its two register-table sets (R125). -/
def State.loadLut (s : State) (sp k : Nat) (t : Table) : State :=
  let p := s.sp sp
  let l := p.lut ++ [(k, t.entries)]
  s.setSp sp { p with lut := l.drop (l.length - 2) }

/-- The scores of an item's shingle against the queries of its mask, in ascending slot (R130): slot, query, what was excluded, candidates. -/
def State.scoreAll (s : State) (p : Spindle) (it : Item) (h : Thatch) (sh : Shingle) (tomb : List Bool) (words : List (Nat × List Bool)) :
    List (Nat × (QName × Nat) × Tally × List HEntry) :=
  (maskSlots it.mask).filterMap fun k =>
    (slotOf p k).q.bind fun q => (s.findCopy q.1 q.2).bind fun c => (slotOf p k).table.map fun t =>
      let (n, es) := scoreShingle (h.delta.any fun d => d.num == sh.num) sh tomb (lk words k) t c.par
      (k, q, n, es.filter (followsFloor c.floor))

/-- An item is scored on its spindle (R130 to R132, R150): it is counted, its digest formed if it is sampled (R77), its candidates offered, its context
freed, and the segments that it completes sent; a checker's copy offers nothing. -/
def State.scoreRun (s : State) (sp ctx : Nat) (it : Item) (h : Thatch) (sh : Shingle) (tomb : List Bool) (words : List (Nat × List Bool)) : State :=
  let runs := s.scoreAll (s.sp sp) it h sh tomb words
  let s := if shapeK h.im.shape == 16 then
      runs.foldl (fun s r => match (slotOf (s.sp sp) r.1).table with | some t => s.loadLut sp r.1 t | none => s) s
    else s
  let s := runs.foldl (fun s (_, _, n, _) =>
    let s := (((s.bump 0xE05009 n.tomb).bump 0xE0500A n.delta).bump 0xE0500B n.filter).bump 0xE04006 n.sign
    ((s.bump 0xE0500C n.bound).bump 0xE04005 n.scored).bump 0xE04004 (n.scored * h.im.m)) s
  let s := if s.ctl.checks.any (fun k => checkOf k it) then
      s.noteDigest sp it (itemDigest (runs.map fun r => (r.2.1.1, r.2.2.2))) { cands := runs.map fun r => (r.2.1, r.2.2.2) }
    else s
  let slots := runs.map (·.1)
  if it.check then ((s.freeCtx sp ctx).sendSegments sp slots).schedule sp else
  let s := runs.foldl (fun s (k, q, _, es) =>
    match s.findCopy q.1 q.2 with | some c => s.select sp k c it es | none => s) s
  let s := (s.freeCtx sp ctx).sendSegments sp slots
  let s := runs.foldl (fun s (_, q, _, _) =>
    match s.findCopy q.1 q.2 with
    | some c =>
      let s := s.setCopy { c with left := c.left - 1 }
      if c.left == 1 && c.pass == 1 then s.stepDone q.1 q.2 else s
    | none => s) s
  (s.schedule sp).placeWaiting sp

/-- R130: the running context scores its shingle against the queries of the mask in ascending slot, offers the candidates, and
sends the segments that its item completes. -/
def execScoreItem (sp ctx corrected : Nat) (bad : Bool) (stall : Nat) (s : State) : Res := live s fun s =>
  let p := s.sp sp
  let c := p.ctxs.getD ctx {}
  match c.item, lk p.shslots c.slot with
  | some it, some x =>
    match x.sh, x.tomb, (s.findIdx it.tenant it.index).bind fun i => thatchOf i it.shard it.version with
    | some sh, some tomb, some h =>
      if ctx ≥ 8 || c.st != 2 || it.kind != 0 || p.zeroing then s else
      if (maskSlots it.mask).any fun k => (slotOf p k).q.isSome && (slotOf p k).table.isNone then s else
      s.withEv sp ctx it ⟨corrected, bad, stall⟩ fun s => s.scoreRun sp ctx it h sh tomb x.words
    | _, _, _ => s
  | _, _ => s

/-! ### Stealing (R61 to R67) -/

/-- The victim of a steal (R64): the die's in-service spindle with the most stealable items, if they reach the threshold, then the other
die's. -/
def State.victim (s : State) (thief : Nat) : Option Nat :=
  let best (die th : Nat) : Option Nat :=
    let c := ((List.range 192).map (· + die * 192)).filter fun n => n != thief && s.spUp n
    match c.foldl (fun (b : Option (Nat × Nat)) n =>
      let k := s.stealable n
      match b with
      | none => some (n, k)
      | some (_, m) => if m < k then some (n, k) else b) none with
    | some (n, k) => if th ≤ k then some n else none
    | none => none
  match best (dieOf thief) (s.reg 0x301002) with
  | some n => some n
  | none => best (1 - dieOf thief) (s.reg 0x301003)

/-- The cycle at which the guard of the frame begins (R29). -/
def State.guardCycle (s : State) : Nat := (s.reg 0x200001 * 1000 - s.reg 0x200202) * s.reg 0x300003 / 1000

/-- May the spindle request a steal (R63)? Search items go only to spindles outside the dense and gather sets (R246, R260). -/
def State.maySteal (s : State) (thief cycle : Nat) : Bool :=
  let p := s.sp thief
  thief < 384 && p.queue.isEmpty && p.ctxs.all (fun c => c.item.isNone) && p.hsets.isEmpty && s.spUp thief && !p.noTake && s.reg 0x301001 == 1 &&
  cycle < s.guardCycle && !s.time.guard && !p.zeroing && !s.ctl.denseSet.contains thief && !s.ctl.gatherSet.contains thief

/-- A thief chooses its victim, if R63 holds (R64). -/
def State.chooseVictim (s : State) (thief cycle : Nat) : State :=
  if s.maySteal thief cycle && (s.sp thief).steal.isNone then s.setSp thief { s.sp thief with steal := s.victim thief } else s

/-- R63: an idle spindle requests a steal. -/
def execStealRequest (thief cycle : Nat) (s : State) : Res := live s fun s => s.chooseVictim thief cycle

/-- R64: a thief without a victim chooses again after 0x3010:05 cycles. -/
def execStealRechoose (thief cycle : Nat) (s : State) : Res := live s fun s => s.chooseVictim thief cycle

/-- The items that a grant takes, from the tail toward the head (R65): at most `n`, and while the queries of their masks fit. -/
def takeTail (p : Spindle) (free : Nat) : List Item → Nat → List (QName × Nat) → List Item
  | [], _, _ => []
  | it :: r, n, qs =>
    if n == 0 then [] else
    let u := (qs ++ itemQueries p it).eraseDups
    if free < u.length then [] else it :: takeTail p free r (n - 1) u

/-- The check of a stolen item: it follows the thief. A cross-die thief's checker is chosen relative to the thief, and so is that of a thief that is the
checker itself (R76, R79): the copy that the old checker holds, or its digest, goes. -/
def State.followThief (s : State) (victim thief : Nat) (it stolen : Item) : State :=
  match s.ctl.checks.find? fun k => checkOf k it && k.first == victim with
  | none => s
  | some k =>
    if dieOf thief == dieOf victim && thief != k.checker then
      { s with ctl := { s.ctl with checks := updIf (fun x => x.id == k.id) (fun (k : Check) => { k with first := thief }) s.ctl.checks } }
    else
      let q := (s.sp k.checker).queue
      let s := s.setSp k.checker { s.sp k.checker with queue := q.filter fun i => !(i.check && checkOf k i) }
      let s := { s with ctl := { s.ctl with checks := s.ctl.checks.filter fun x => x.id != k.id } }
      s.placeChecker thief stolen

/-- The items that a grant moves (R65, R66): half of the stealable ones, at most 0x3010:04, from the tail. -/
def State.grantItems (s : State) (v thief : Nat) : List Item :=
  let pv := s.sp v
  let tail := ((pv.queue.drop (s.reg 0x301102)).filter fun i => !i.stolen).reverse
  (takeTail pv (freeSlots (s.sp thief)).length tail (min (s.stealable v / 2) (s.reg 0x301004)) []).reverse

/-- The mask of all queries that a list of items names. -/
def itemsMask (l : List Item) : Nat := l.foldl (fun m i => m ||| i.mask) 0

/-- The items of a grant go from the victim to the thief, with their checks, and the victim's segments that they leave complete are sent (R66, R67,
R175). -/
def State.moveItems (s : State) (v thief : Nat) (taken : List Item) (f : List (Nat × Nat)) : State :=
  let pv := s.sp v
  let s := s.setSp v { pv with queue := pv.queue.filter fun i => !taken.contains i }
  let mine := taken.map fun i => { i with stolen := true, mask := mapMask i.mask f }
  let pt := s.sp thief
  let s := s.setSp thief { pt with queue := pt.queue ++ mine }
  let s := (s.bump (if dieOf v == dieOf thief then 0xE02004 else 0xE02005) 1).bump 0xE02006 taken.length
  let s := (taken.zip mine).foldl (fun s (a, b) => s.followThief v thief a b) s
  s.sendSegments v (maskSlots (itemsMask taken))

/-- R65 to R67: the controller, after the head take of the victim, grants half of the victim's stealable items, or refuses. -/
def execStealGrant (r : StealReq) (s : State) : Res := live s fun s =>
  let p := s.sp r.thief
  match p.steal with
  | none => s
  | some v =>
    let s := (s.setSp r.thief { p with steal := none }).schedule v
    if s.stealable v < s.reg (if dieOf v == dieOf r.thief then 0x301002 else 0x301003) || !s.spUp v then
      (s.bump 0xE02007 1).chooseVictim r.thief r.cycle
    else
      let taken := s.grantItems v r.thief
      if taken.isEmpty then s.bump 0xE02007 1 else
      match s.copyTables 0 v r.thief (maskSlots (itemsMask taken)) with
      | none => s.bump 0xE02007 1
      | some (s, f) => s.moveItems v r.thief taken f

/-- The tables of a copy reach one receiving slot, with the descriptor (R122, R126). -/
def State.receiveTable (s : State) (n k : Nat) : State :=
  match (slotOf (s.sp n) k).q.bind fun q => s.findCopy q.1 q.2 with
  | some c => match c.table, s.copyThatch c with | some t, some h => s.loadSlot n k c (descBytes h.im c t) t | _, _ => s
  | none => s

/-- R67, R122: a table copy ends. The receiving slots hold the tables, and the bytes are counted. The engine writes only once the bobbin is zeroed for the
owner (R58, R70). A builder on which a query of the pass is not resident gives its slot up once the copies are made (R148). -/
def execTableCopyDone (id : Nat) (s : State) : Res := live s fun s =>
  match s.ctl.copies.find? fun c => c.id == id with
  | none => s
  | some c =>
    if !prepared (s.sp c.dst) (s.ownerOf 0 0) then s else
    let s := { s with ctl := { s.ctl with copies := s.ctl.copies.filter fun x => x.id != id } }
    let s := s.bump (if c.kind == 2 then 0xE04012 else 0xE02008) c.bytes
    let s := c.slots.foldl (fun s x => s.receiveTable c.dst x.2) s
    let s := if c.kind != 2 then s else c.slots.foldl (fun s (_, d) =>
      match (slotOf (s.sp c.dst) d).q with
      | none => s
      | some q =>
        match s.findCopy q.1 q.2 with
        | some x =>
          let more := s.ctl.copies.any fun y => y.kind == 2 && y.src == c.src && y.slots.any fun z => (slotOf (s.sp y.dst) z.2).q == some q
          if x.plan.contains c.src || more then s else s.freeSlot c.src q
        | none => s) s
    (s.schedule c.dst).placeWaiting c.src

/-! ### Leaving service (R69) -/

/-- The queued lane cycles of a spindle (R69, R135). -/
def State.laneLoad (s : State) (n : Nat) : Nat :=
  (s.sp n).queue.foldl (fun a i =>
    if i.kind != 0 then a else
    match (s.findIdx i.tenant i.index).bind fun x => thatchOf x i.shard i.version with
    | some h =>
      let cnt := ((h.im.shingles ++ h.delta).find? fun x => x.num == i.shingle).map (·.count)
      ((itemQueries (s.sp n) i).filterMap fun q => (s.findCopy q.1 q.2).map (·.par)).foldl (fun a q =>
        a + pairCycles h.im.m (imShape h.im) (cnt.getD 0) q) a
    | none => a) 0

/-- The spindles that a copy of a sampled item may not go to: those of its other copies (R78, R79). -/
def keepApart (it : Item) (k : Check) : List Nat :=
  if !it.check then k.checker :: k.third.toList else if k.third.isSome then [k.first, k.checker] else [k.first]

/-- The copy of a sampled item is on another spindle now. -/
def moveCheck (it : Item) (n : Nat) (k : Check) : Check :=
  if !it.check then { k with first := n } else if k.third.isSome then { k with third := some n } else { k with checker := n }

/-- Deal one item again: to the eligible spindle with the fewest queued lane cycles, its tables copied and its mask rewritten; or it
waits for a table slot (R69). The check of a sampled item follows it; the first spindle and the checker stay distinct (R79). An item that
had no spindle before is sampled now. -/
def State.redealItem (s : State) (it : Item) (qs : List (QName × Nat)) : Option State :=
  let mine (k : Check) : Bool := checkOf k it && k.out == 0 && k.queries.any qs.contains
  let apart := ((s.ctl.checks.find? mine).map (keepApart it)).getD []
  let fits := s.upSpindles.filter fun n =>
    !apart.contains n && !s.ctl.denseSet.contains n && !s.ctl.gatherSet.contains n && !(s.sp n).noTake &&
    (qs.filter fun q => (slotFor (s.sp n) q).isNone).length ≤ (freeSlots (s.sp n)).length && s.queueRoom n
  match fits.foldl (fun (b : Option (Nat × Nat)) n =>
    let l := s.laneLoad n
    match b with | none => some (n, l) | some (_, m) => if l < m then some (n, l) else b) none with
  | none => none
  | some (n, _) =>
    (s.lendTables 3 n n qs).map fun (s, f) =>
      let s := { s with ctl := { s.ctl with checks := updIf mine (moveCheck it n) s.ctl.checks } }
      let it := { it with stolen := true, mask := maskOf f }
      let s := (s.setSp n { s.sp n with queue := queueIn it (s.sp n).queue })
      (if s.ctl.checks.any mine then s else s.sampleItem n it).schedule n

/-- Put a dense or gather item into a spindle's queue: dense items of the job admitted first run first, ties to the lower job slot (R247). -/
def queueSet (it : Item) (q : List Item) : List Item :=
  let before (a b : Item) : Bool := a.role == b.role && (a.skein < b.skein || (a.skein == b.skein && a.kind == 1 && b.kind == 1 && a.mask < b.mask))
  insertBy before it q

/-- The spindle of a set with the shortest queue that has room, ties to the lowest number (R60; the choice among the set is the planner's, entry 7). -/
def State.shortest (s : State) (set : List Nat) : Option Nat :=
  ((set.filter fun n => s.spUp n && s.queueRoom n).foldl (fun (b : Option (Nat × Nat)) n =>
    let k := (s.sp n).queue.length
    match b with | none => some (n, k) | some (m, l) => if k < l || (k == l && n < m) then some (n, k) else b) none).map (·.1)

/-- Does the role of this Molset allow dense work (kind 1) or gather work (kind 2; R246, R260)? -/
def State.roleAllows (s : State) (kind : Nat) : Bool :=
  let r := nodeRole s.map.entries s.node
  if kind == 1 then r == 2 || r == 3 else r == 1 || r == 3

/-- The spindles that take items of a kind: the set of the frame, which may be empty (R261), or, where the role no longer allows the kind, every spindle in
service, so that admitted work finishes (R74, R246, R247, R260). -/
def State.setOf (s : State) (kind : Nat) : List Nat :=
  if s.roleAllows kind then (if kind == 1 then s.ctl.denseSet else s.ctl.gatherSet).filter s.spUp else s.upSpindles

/-- Deal a dense or gather item among the spindles of its set (R246, R260). A sampled item's check follows it: the first spindle and the checker stay
distinct (R79); a dense item that has none is sampled (R75, R238). None without room. -/
def State.redealSet (s : State) (it : Item) : Option State :=
  let open_ (k : Check) : Bool := checkOf k it && k.out == 0
  let apart := ((s.ctl.checks.find? open_).map (keepApart it)).getD []
  (s.shortest ((s.setOf it.kind).filter fun n => !apart.contains n)).map fun n =>
    let s := { s with ctl := { s.ctl with checks := updIf open_ (moveCheck it n) s.ctl.checks } }
    let s := s.setSp n { s.sp n with queue := queueSet it (s.sp n).queue }
    (if s.ctl.checks.any open_ || it.kind != 1 then s else s.sampleItem n it).schedule n

/-- Deal a dense or gather item, or let it wait (R246, R260). -/
def State.dealSet (s : State) (it : Item) : State := (s.redealSet it).getD (s.waitItem it [])

/-- Deal the waiting items again, in ascending shingle number (R69). -/
def State.redealAll (s : State) : State :=
  let items := sortBy (fun (a b : Item × List (QName × Nat) × Nat) => a.1.shingle < b.1.shingle) s.ctl.redeal
  let s := { s with ctl := { s.ctl with redeal := [] } }
  items.foldl (fun s x =>
    match if x.1.kind != 0 then s.redealSet x.1 else s.redealItem x.1 x.2.1 with
    | some s => s
    | none => { s with ctl := { s.ctl with redeal := s.ctl.redeal ++ [x] } }) s

/-- R69: items that found no room go by the same rule once a table slot frees. -/
def execRedealOnSlotFree (s : State) : Res := live s fun s => s.redealAll

/-- Count the spindles by state (R81). -/
def State.countSpindles (s : State) : State :=
  let n (st : Nat) : Nat := ((List.range 384).filter fun i => s.spState i == st).length
  (s.setReg 0x300002 (n 0)).setReg 0x300004 (n 1)

/-- A spindle changes state at a tick (R68): one that leaves service has its queue dealt again (R69, R246, R260), the segments that its contexts will not
add to are sent (R62), and its bobbin is zeroed before its first item in the new state (R71). -/
def State.setSpState (s : State) (n st : Nat) : State :=
  if s.spState n == st then s else
  let was := s.spState n
  let p := s.sp n
  let s := (s.setReg (perSpindle 0x3001 0x3002 n) st).countSpindles
  let items := if was == 0 then p.queue else []
  let s := s.setSp n { p with queue := if was == 0 then [] else p.queue, bobOwner := none, noTake := if st == 0 then false else p.noTake, steal := none }
  let s := s.sendSegments n ((List.range 16).filter fun k => (slotOf p k).q.isSome)
  let s := (items.filter fun i => i.kind == 0).foldl (fun s i => s.waitItem i (itemQueries p i)) s
  let s := (items.filter fun i => i.kind != 0).foldl State.dealSet s
  s.redealAll

/-! ### Zeroing (R70, R74) -/

/-- R70: the zeroing of a bobbin ends, and the spindle takes items again. -/
def execZeroingDone (sp : Nat) (s : State) : Res := live s fun s =>
  if !(s.sp sp).zeroing then s else (s.setSp sp { s.sp sp with zeroing := false }).schedule sp

/-- The role of this Molset has changed at a tick: a spindle that still holds work of the old role carries it (R74). -/
def State.roleChanged (s : State) : State :=
  let now := nodeRole s.map.entries s.node
  let carries (p : Spindle) : Bool := p.queue.any (fun i => i.role != now) || p.ctxs.any fun c => match c.item with | some i => i.role != now | none => false
  { s with spin := s.spin.map fun x => (x.1, { x.2 with roleZero := x.2.roleZero || carries x.2 || !x.2.hsets.isEmpty }) }

/-- R74: a spindle that has finished its carried work of an old role zeroes its bobbin and all context registers. -/
def execRoleChangeZeroing (sp : Nat) (s : State) : Res := live s fun s =>
  let p := s.sp sp
  let now := nodeRole s.map.entries s.node
  if !p.roleZero || !quiet p || !p.hsets.isEmpty || p.queue.any (fun i => i.role != now) then s else
  let o : Owner := match p.queue.head? with | some i => itemOwner i | none => s.ownerOf systemTenant 0
  let s := ((s.setSp sp { p with roleZero := false, ctxs := p.ctxs.map fun c => { c with owner := none } }).zeroBobbin sp o)
  (s.bump 0xE02014 1).bump 0xE0200B 8

/-! ### Sampled dual execution (R77 to R79) -/

/-- Charge a disagreement to a spindle (R78, R386). -/
def State.chargeSpindle (s : State) (n : Nat) : State := (s.bump (perSpindle 0xE021 0xE022 n) 1).score partSpindle n 1024

/-- Three digests that differ: no candidate is taken, the integrity flags are set and a fault is raised (R78, R238). -/
def State.allDiffer (s : State) (k : Check) : State :=
  let s := (s.bump 0xE02013 1).flagIntegrity k.queries
  let s := if k.item.kind == 1 then
      { s with dense := { s.dense with jobs := updIf (fun j => j.slot == k.item.mask) (fun j => { j with integrity := true }) s.dense.jobs } }
    else s
  s.raiseFault 2 s.node partSpindle k.first 0

/-- A part of a vector of a job's buffer takes its place there. -/
def setPart (j : DJob) (o : Nat × Nat × Nat × List F32) : DJob :=
  let (b, v, r, xs) := o
  let vs := (lk j.bufs b).getD (List.replicate j.b [])
  let old := vs.getD v []
  let old := old ++ List.replicate (r + xs.length - old.length) 0#32
  { j with bufs := put j.bufs b (vs.set v (old.take r ++ xs ++ old.drop (r + xs.length))) }

/-- The outputs of a dense item take their places in its job. -/
def putOuts (j : DJob) (outs : List (Nat × Nat × Nat × List F32)) (conv : Option (Nat × RowImg)) : DJob :=
  { (outs.foldl setPart j) with conv := match conv with | some (v, img) => put j.conv v img | none => j.conv }

/-- What an item counts for its job comes in place of other counts (R245): saturations, NaN results, escapes, overflows. -/
def putSums (j : DJob) (old new : List Nat) : DJob :=
  let f (i x : Nat) : Nat := x + new.getD i 0 - old.getD i 0
  { j with sat := f 0 j.sat, nan := f 1 j.nan, esc := f 2 j.esc, ovf := f 3 j.ovf }

/-- The outputs of the checker take the place of those of the first spindle in a dense job (R78, R238). -/
def State.takeOuts (s : State) (k : Check) : State :=
  if k.item.kind != 1 then s else
  let f (j : DJob) : DJob := putSums (putOuts j k.outs k.conv) k.sums1 k.sums2
  { s with dense := { s.dense with jobs := updIf (fun j => j.slot == k.item.mask) f s.dense.jobs } }

/-- Store a check. -/
def State.setCheck (s : State) (k : Check) : State := { s with ctl := { s.ctl with checks := updIf (fun x => x.id == k.id) (fun _ => k) s.ctl.checks } }

/-- R77: the die ply compares the two digests; if they differ, the item goes to a third spindle, if there is one (R78, R79). One without room for the item or
its tables counts as none (entry 21). -/
def execDigestCompare (id : Nat) (s : State) : Res := live s fun s =>
  match s.ctl.checks.find? fun k => k.id == id with
  | none => s
  | some k =>
    match k.d1, k.d2 with
    | some a, some b =>
      if k.out != 0 || k.third.isSome then s else
      if a == b then s.setCheck { k with out := 1 } else
      match (s.thirdOf k.first k.checker).bind fun t => (s.placeCopy k.first t k.item k.queries).map fun s => (t, s) with
      | some (t, s) => (s.setCheck { k with third := some t }).schedule t
      | none => ((s.setCheck { k with out := 3 }).bump 0xE02016 1).allDiffer k
    | _, _ => s

/-- R78: the third digest decides: its item has run on the third spindle. -/
def execThirdDigestCompare (id third : Nat) (s : State) : Res := live s fun s =>
  match s.ctl.checks.find? fun k => k.id == id with
  | none => s
  | some k =>
    match k.d1, k.d2, k.d3 with
    | some a, some b, some c =>
      if k.out != 0 || k.third != some third then s
      else if c == a then ((s.setCheck { k with out := 1 }).bump 0xE02012 1).chargeSpindle k.checker
      else if c == b then (((s.setCheck { k with out := 2 }).bump 0xE02012 1).chargeSpindle k.first).takeOuts k
      else (s.setCheck { k with out := 3 }).allDiffer k
    | _, _, _ => s

end Sys2Proof.Machine
end

