-- ==== Sys2Proof/Machine/Query.lean ====
section
/-! DEFINITION. The life of a query: its check and admission, dispatch, build passes, the coarse scan, widening, plies, re-ranking and the
result (R138 to R190). -/

namespace Sys2Proof.Machine

/-! ### The descriptor and its check (R138 to R141) -/

/-- The effective ceiling before the cut to the list count: steps 1 and 2 of R139. -/
def State.ceiling (s : State) (t : Nat) (e : Entry) : Nat :=
  let c := s.reg (pagedKey 0x4024 t)
  let f := eNat e 62 2
  let c := if f != 0 && f < c then f else c
  if eNat e 73 1 % 2 == 0 || eNat e 71 1 % 4 == 0 then eNat e 60 2 else c

/-- The parameters of a query entry (R138, R139) against an index of `lists` lists. -/
def State.queryParams (s : State) (t lists : Nat) (e : Entry) : QParams where
  tenant := t
  index := eNat e 52 2
  k := eNat e 58 2
  r := eNat e 64 2
  p := eNat e 60 2
  ceil := min (s.ceiling t e) lists
  prefilter := eNat e 66 2
  filterMode := eNat e 71 1 % 4
  filter := eNat e 40 8
  bound := eF32 e 48
  metric := eNat e 69 1 % 4
  dim := eNat e 56 2
  sign := eNat e 70 1 % 4
  bulk := eNat e 72 1 % 2 == 1
  widen := eNat e 73 1 % 2 == 1

/-- Bytes of an element of a vector format code 7 to 9 (R83). -/
def vecWidth (fmt : Nat) : Nat := if fmt == 9 then 4 else 2

/-- The extent of a streamed filter by its header; 32 bytes where the header is unreadable (R141, R152). -/
def State.filterExtent (s : State) (t addr : Nat) : Nat :=
  if s.poisoned t addr 32 then 32 else 32 + cdiv (s.loadNat t (addr + 8) 8) 8

/-- Is the result area aligned and wholly in the tenant's pages (R141)? -/
def State.resultOk (s : State) (t : Nat) (e : Entry) : Bool :=
  let a := eNat e 32 8
  a % 64 == 0 && s.ownedStacks t a (64 + 16 * eNat e 58 2)

/-- Row 1 of the check of R141: reserved fields and codes. -/
def queryFormOk (e : Entry) : Bool :=
  let fmt := eNat e 68 1
  let mode := eNat e 71 1
  (fmt == 7 || fmt == 8 || fmt == 9) && eNat e 69 1 < 3 && eNat e 70 1 < 4 && mode < 3 && eNat e 72 1 < 2 && eNat e 73 1 < 4 && eZero e 74 54 &&
  (if mode == 0 then eNat e 40 8 == 0 else if mode == 1 then eNat e 44 4 == 0 else true)

/-- Row 2: the ranges of k, p, r and the ceiling, and p ≤ C. A prefilter limit beyond W is no ground: it excludes nothing (R132). -/
def State.queryRangeOk (s : State) (t : Nat) (e : Entry) : Bool :=
  let k := eNat e 58 2
  let p := eNat e 60 2
  let r := eNat e 64 2
  1 ≤ k && k ≤ s.reg 0x402004 && 1 ≤ p && p ≤ s.reg 0x402006 && eNat e 62 2 ≤ s.reg 0x402006 && (r == 0 || (k ≤ r && r ≤ s.reg 0x402005)) &&
  p ≤ s.ceiling t e && !isNaN (eF32 e 48)

/-- Row 3: the addresses. -/
def State.queryAddrOk (s : State) (t : Nat) (e : Entry) : Bool :=
  s.ownedStacks t (eNat e 24 8) (eNat e 56 2 * vecWidth (eNat e 68 1)) && s.resultOk t e &&
  (eNat e 71 1 != 2 || (s.ownedStacks t (eNat e 40 8) 32 && s.ownedStacks t (eNat e 40 8) (s.filterExtent t (eNat e 40 8))))

/-- The live index that a query names (R141, R195): registered here and with a live thatch. -/
def State.liveIndex (s : State) (t i : Nat) : Option Idx :=
  (s.findIdx t i).bind fun x => if x.regTick ≤ s.ftick && s.liveVersion x != 0 then some x else none

/-- The status of a query entry by the table of R141; 0 passes. -/
def State.queryStatus (s : State) (t : Nat) (e : Entry) : Nat :=
  if !queryFormOk e then 0x0001
  else if !s.queryRangeOk t e then 0x0002
  else if !s.queryAddrOk t e then 0x0003
  else
    match s.liveIndex t (eNat e 52 2) with
    | none => 0x0004
    | some x =>
      if 2 ≤ eNat e 73 1 && s.liveVersion x != eNat e 54 2 then 0x0005
      else if shapeMetric x.desc.shape != eNat e 69 1 || x.desc.dim != eNat e 56 2 || field x.desc.shape 2 1 != eNat e 70 1 then 0x0006
      else if eNat e 71 1 == 1 && (s.filterAt t (eNat e 40 4) (eNat e 52 2) s.ftick).isNone then 0x0007
      else if !s.inService t then 0x0008
      else 0

/-- The result header (R162). -/
def resultHeader (tag skein version status count k ties probes flags pass qidx home scored : Nat) : List Byte :=
  leBytes 8 tag ++ leBytes 8 skein ++ leBytes 2 version ++ leBytes 2 status ++ leBytes 2 count ++ leBytes 2 k ++ leBytes 4 ties ++
  leBytes 2 probes ++ leBytes 2 flags ++ leBytes 4 pass ++ leBytes 2 qidx ++ leBytes 2 home ++ leBytes 4 scored ++ leBytes 20 0

/-- The cost of a query in work units (R409). -/
def State.queryCost (s : State) (t : Nat) (e : Entry) : Nat :=
  let lam := ((s.findIdx t (eNat e 52 2)).map (·.lambda)).getD 1
  let par := s.queryParams t 1 e
  cdiv (par.p * lam * passCount (keepCount par) * (65536 + s.reg (pagedKey 0x3020 t))) 65536

/-- The part that holds an address: its stack or board channel (R380). -/
def State.partAt (s : State) (t addr : Nat) : Nat × Nat :=
  match s.pageAt t (addr / pageSize) with
  | some p => match p.home with | .stack n => (partStack, n) | .board ch _ _ _ _ => (partBoard, ch)
  | none => (partStack, 0)

/-- The check of a query entry in step 8 (R141). A refused query gets the header alone, with the short flag; the skein, the query
index and the probes of a query that enters no skein are values that the spec does not state (entry 12). -/
def checkQuery (t : Nat) (s : State) (e : Entry) : State × Chk :=
  let s := s.bump 0xE05001 1
  let st := s.queryStatus t e
  if st == 0 then (s, .pass (s.queryCost t e) (eNat e 72 1 % 2 == 1)) else
  let s := ((s.bump 0xE05003 1).bumpIf (st == 6) 0xE0400B).reservedFmt (eNat e 68 1)
  let flags := queryFlags false false false (0 < eNat e 58 2) false false false false false
  let s := s.bumpIf (0 < eNat e 58 2) 0xE05013
  if !s.resultOk t e then (s, .refuseFlags st flags) else
  if s.rangeFailed t (eNat e 32 8) 64 then
    let (pk, pn) := s.partAt t (eNat e 32 8)
    ((s.bump 0xE0501A 1).score pk pn 1024, .refuseFlags 0x000D flags)
  else
  let (a, s) := s.draw
  let (b, s) := s.draw
  let (c, s) := s.draw
  let h := resultHeader (entryTag e) (Config.freeNat a) 0 st 0 (eNat e 58 2) 0 (Config.freeNat b) flags 0 (Config.freeNat c) s.node 0
  (s.store t (eNat e 32 8) h, .refuseFlags st flags)

/-- R141: the check of a query entry. -/
def execQuery (tenant seq : Nat) (bad : Bool) (s : State) : Res := live s fun s => s.ringRow tenant seq bad 1 anyEntry (checkQuery tenant)

/-- Admit a checked query into the skein of this tick under its index (R142 to R144). -/
def State.admitQuery (s : State) (t seq qidx : Nat) : State :=
  let e := s.entryOf t seq
  match s.findIdx t (eNat e 52 2) with
  | none => s
  | some x =>
    let par := s.queryParams t x.desc.lists e
    let h : HomeQ := {
      name := { home := s.node, skein := s.ftick, qidx }, seq, tag := entryTag e, par, vecAddr := eNat e 24 8, vecFmt := eNat e 68 1,
      resAddr := eNat e 32 8, version := s.liveVersion x, weight := s.weightOf t par.bulk, phase := 1,
      ret := s.ftick + (if par.r == 0 then 3 else 4), epoch := s.epoch }
    { s with home := s.home ++ [h] }.bump 0xE05002 1

/-! ### Dispatch (R144, R145, R370, R375) -/

/-- The thatch of a shard that was live on this copy after step 6 of a skein's tick (R145, R221). -/
def liveAt (x : Idx) (shard skein : Nat) : Option Thatch :=
  (x.thatches.filter fun h => h.im.shard == shard && h.st != 0 && h.since ≤ skein).foldl (fun b h =>
    match b with | none => some h | some g => if g.since < h.since then some h else some g) none

/-- Does this copy no longer hold the view of a skein (R210, R375)? -/
def viewGone (x : Idx) (skein : Nat) : Bool := (viewOf x skein).isNone && x.views.any fun v => skein < v.1

/-- A shard copy takes a query: it binds it to the thatch of its skein (R144, R145). A copy without the view answers with status 0x000E
(R375). -/
def State.acceptDispatch (s : State) (d : Dispatch) : State :=
  if (s.findCopy d.name d.shard).isSome then s else
  let bound := (s.findIdx d.par.tenant d.par.index).bind fun x => if viewGone x d.name.skein then none else liveAt x d.shard d.name.skein
  match bound with
  | some h =>
    let c : CopyQ := { name := d.name, shard := d.shard, par := d.par, vec := d.vec, version := h.im.version, epoch := d.epoch }
    { s with copy := s.copy ++ [c] }
  | none =>
    let s := (s.bump 0xE0C01D 1).bump 0xE05014 1
    let r : StepRep := { name := d.name, shard := d.shard, step := 0, status := 0x000E, pass := 0 }
    if d.name.home == s.node then s.homeReport r else s.sendAt d.name.home 0x20 d.par.tenant d.epoch false (.stepReport r)

/-- Dispatch a query to one shard copy (R144): to this Molset at once, to another one by a packet whose request is kept (R395). -/
def State.dispatchTo (q : QName) (h : HomeQ) (vec : List F32) (s : State) (c : Nat × Nat) : State :=
  let d : Dispatch := { name := q, shard := c.1, par := h.par, vec, epoch := s.epoch }
  if c.2 == s.node then s.acceptDispatch d
  else ((s.bump 0xE05006 1).sendRole c.2 0x20 h.par.tenant (.dispatch d)).logReq (q.skein, q.qidx) c.2 (.dispatch d)

/-- The copy that serves each shard of a query's index, if any (R370). -/
def State.dests (s : State) (h : HomeQ) : List (Nat × Option Nat) :=
  (idxShards s.map.entries h.par.tenant h.par.index).map fun m => (m.shard, s.serveCopy m)

/-- The shards that a copy serves, and those that none does (R159). -/
def served (l : List (Nat × Option Nat)) : List (Nat × Nat) := l.filterMap fun (sh, n) => n.map fun n => (sh, n)
def unserved (l : List (Nat × Option Nat)) : List Nat := (l.filter fun x => x.2.isNone).map (·.1)

/-- R145: the home has read a query's vector, in ascending query index, and dispatches the query to one copy of every shard. -/
def execVectorReadDone (q : QName) (bad : Bool) (s : State) : Res := live s fun s =>
  match s.findHome q with
  | none => s
  | some h =>
    if h.phase != 1 || h.refusal != 0 || s.home.any (fun g => g.name.skein == q.skein && g.phase == 1 && g.refusal == 0 && g.name.qidx < q.qidx) then s else
    let len := h.par.dim * vecWidth h.vecFmt
    if bad || s.poisoned h.par.tenant h.vecAddr len || !s.ownedStacks h.par.tenant h.vecAddr len then
      (s.setHome { h with refusal := 0x000C }).bump 0xE05004 1
    else
      let vec := readPlain h.vecFmt h.par.dim (s.load h.par.tenant h.vecAddr len)
      let copies := served (s.dests h)
      let missing := unserved (s.dests h)
      let s := s.setHome { h with phase := 2, vec, copies, missing }
      let s := s.bumpIf (!missing.isEmpty) 0xE05018
      (copies.foldl (State.dispatchTo q h vec) s).decideStep q

/-- R145: a shard copy receives a dispatch; the home too, where its own dispatch was routed back to it as the new holder of the shard (R371, R395). -/
def execDispatch (d : Dispatch) (s : State) : Res := liveFor d.par.tenant s fun s =>
  if d.name.home == s.node && (s.findHome d.name).isNone then s else (s.bump 0xE05007 1).acceptDispatch d

/-! ### Build passes (R122, R146 to R148) -/

/-- The held queries of a skein and index on this copy, in ascending home and query index (R146). -/
def State.heldQueries (s : State) (skein tenant index : Nat) : List CopyQ :=
  sortBy (fun (a b : CopyQ) => a.name.home < b.name.home || (a.name.home == b.name.home && a.name.qidx < b.name.qidx))
    (s.copy.filter fun c => c.phase == 0 && c.name.skein == skein && c.par.tenant == tenant && c.par.index == index)

/-- May a spindle build tables: in service, not being zeroed, and neither a dense nor a gather spindle of the frame (R122, R246, R260)? -/
def State.mayBuild (s : State) (n : Nat) : Bool :=
  s.spUp n && !(s.sp n).noTake && !(s.sp n).zeroing && !(s.sp n).roleZero && !s.ctl.denseSet.contains n && !s.ctl.gatherSet.contains n

/-- The queries of the next pass: the copies of at most 0x4010:0A queries (R122, R146). -/
def State.passTake (s : State) (held : List CopyQ) : List CopyQ :=
  let names := ((held.map (·.name)).eraseDups).take (s.reg 0x40100A)
  held.filter fun c => names.contains c.name

/-- Close a build pass with at least `least` held queries of a skein and thatch (R146). The passes of an older skein of the index run first (R32). -/
def State.closePass (s : State) (skein tenant index builder least : Nat) : State :=
  let held := s.heldQueries skein tenant index
  let take := s.passTake held
  if ((held.map (·.name)).eraseDups).length < least || !s.mayBuild builder ||
      s.copy.any (fun c => c.phase == 0 && c.par.tenant == tenant && c.par.index == index && c.name.skein < skein) then s else
  let s := s.prepareSp builder (s.ownerOf tenant 0)
  let slots := freeSlots (s.sp builder)
  if slots.length < take.length then s else
  let pairs := take.zip slots
  let s := pairs.foldl (fun s (c, k) => (s.bindSlot builder k (c.name, c.shard) false).setCopy { c with phase := 1, builder }) s
  let pass : Pass := { id := s.ctl.next, skein, tenant, index, builder, queries := pairs.map fun (c, k) => (c.name, c.shard, k), built := false }
  { s with passes := s.passes ++ [pass], ctl := { s.ctl with next := s.ctl.next + 1 } }

/-- R146: a pass closes once it holds 0x4010:0A queries. -/
def execBuildPassClose (skein tenant index builder : Nat) (s : State) : Res := live s fun s => s.closePass skein tenant index builder (s.reg 0x40100A)

/-- R146: a pass closes once its gather time has passed, with at least one query. -/
def execPassGatherTimeout (skein tenant index builder : Nat) (s : State) : Res := live s fun s => s.closePass skein tenant index builder 1

/-- A query of a pass is refused without tables (R122, R128): it reports, and its slot is free. -/
def State.refuseBuild (s : State) (builder : Nat) (c : CopyQ) (st : Nat) : State :=
  ((s.setCopy { c with status := st, phase := 4, stop := true }).freeSlot builder (c.name, c.shard)).stepDone c.name c.shard

/-- Tables of a query that another shard copy of this Molset has built for the same thatch version: they are built once (R122). -/
def State.builtTable (s : State) (c : CopyQ) : Option Table :=
  (s.copy.find? fun x => x.name == c.name && x.shard != c.shard && x.version == c.version && x.table.isSome).bind (·.table)

/-- The tables of one query of a pass: built into its slot, or the query refused (R122 to R128). -/
def State.buildOne (s : State) (builder : Nat) (h : Thatch) (c : CopyQ) (slot : Nat) : State :=
  let im := h.im
  if c.par.metric != shapeMetric im.shape || c.par.dim != im.dim || c.par.sign != field im.shape 2 1 then (s.bump 0xE0400B 1).refuseBuild builder c 0x0006 else
  let load (s : State) (t : Table) : State :=
    let c := { c with table := some t, phase := 2 }
    (s.setCopy c).loadSlot builder slot c (descBytes im c t) t
  match s.builtTable c with
  | some t => load s t
  | none =>
    let (b, cnt) := buildTable im.codebook im.m im.shape im.d c.vec
    let s := s.charge (some builder) cnt
    match b with
    | .refused st => (s.bump (if st == 9 then 0xE04009 else if st == 10 then 0xE0400A else 0xE0400C) 1).refuseBuild builder c st
    | .table t => load ((s.bump 0xE04001 1).bumpIf (t.sigma == 0#32) 0xE0400D) t

/-- R122: the builder computes and quantizes the tables of the queries of a pass. A query that is refused has its compute cycles counted with the others
(entry 52). -/
def execTableBuild (pass : Nat) (s : State) : Res := live s fun s =>
  match s.passes.find? fun p => p.id == pass with
  | none => s
  | some p =>
    if p.built || !prepared (s.sp p.builder) (s.ownerOf p.tenant 0) then s else
    let s := { s with passes := updIf (fun x => x.id == pass) (fun x => { x with built := true }) s.passes }
    let (s, cyc, stream) := p.queries.foldl (fun (s, cyc, stream) (q, sh, slot) =>
      match (s.findCopy q sh).bind fun c => (s.copyThatch c).map fun h => (c, h) with
      | none => (s, cyc, stream)
      | some (c, h) =>
        let im := h.im
        let own := if (s.builtTable c).isSome then 0 else buildCycles im.m im.shape im.d im.dim
        (s.buildOne p.builder h c slot, cyc + own, codebookCycles im.m im.shape im.d)) (s, 0, 0)
    (s.bump 0xE04002 1).bump 0xE04003 (max cyc stream)

/-- The shingle that the streamer delivers, if one passes its check, and the deliveries that failed (R121): `ds` are those before the stream's own. -/
def takeShingle (ok : Shingle → Bool) (own : Shingle) : Nat → List Shingle → Option Shingle × Nat
  | n, d :: r => if ok d then (some d, 0) else match n with
    | 0 => (none, 1)
    | k + 1 => let (x, m) := takeShingle ok own k r; (x, m + 1)
  | _, [] => if ok own then (some own, 0) else (none, 1)

/-- The centroid shingles of an image as the builder's streamer delivers them (R121, R147): those that pass, and how many failed and were abandoned. A
centroid shingle carries the shape byte without its sign field (entry 52). -/
def centDelivered (im : Image) (limit : Nat) (wrong : List (Nat × List Shingle)) : List Shingle × Nat × Nat :=
  let ok (own sh : Shingle) : Bool := shingleOk sh own.num im.version im.cbset im.m (im.shape - field im.shape 2 1 * 2) im.d
  im.centShingles.foldl (fun (l, bad, lost) own =>
    let (x, n) := takeShingle (ok own) own limit (((wrong.find? fun w => w.1 == own.num).map (·.2)).getD [])
    match x with | some x => (l ++ [x], bad + n, lost) | none => (l, bad + n, lost + 1)) ([], 0, 0)

/-- The coarse order of a query: its C nearest lists by coarse score, then list number (R147). -/
def coarseOrder (cents : List Shingle) (t : Table) (c : Nat) : List Nat :=
  let all := cents.flatMap fun sh => List.zipWith (fun id cs => (codeScore t cs, id)) sh.ids sh.codes
  ((sortBy keyLt all).take c).map (·.2)

/-- The queries of a pass with tables: copy, thatch, table, builder slot. -/
def State.passRuns (s : State) (p : Pass) : List (CopyQ × Thatch × Table × Nat) :=
  p.queries.filterMap fun (q, sh, slot) => (s.findCopy q sh).bind fun c => (s.copyThatch c).bind fun h => c.table.map fun t => (c, h, t, slot)

/-- Count the coarse scan of a pass over one thatch for its queries (R121, R147): an abandoned centroid shingle sets their integrity flag, and weighs a free
value in part scoring (entry 12). -/
def State.countCoarse (s : State) (builder : Nat) (h : Thatch) (wrong : List (Nat × List Shingle)) (qs : List (QName × Nat)) : State :=
  let (cents, bad, lost) := centDelivered h.im (s.reg 0x40100C) wrong
  let pairs := cents.foldl (fun a x => a + x.count) 0
  let s := ((s.bump 0xE05008 cents.length).bump 0xE04005 (pairs * qs.length)).bump 0xE04004 (pairs * qs.length * h.im.m)
  let s := (s.bump 0xE04007 bad).bump 0xE04008 lost
  if lost == 0 then s else
  let (n, s) := s.draw
  (s.flagIntegrity qs).score partSpindle builder (Config.freeNat n)

/-- Make a query of a pass resident where the planner names it (R148, R246, R260): the tables are copied from the builder. -/
def State.reside (builder slot : Nat) (tenant : Nat) (x : State × List Nat) (n : Nat) : State × List Nat :=
  let (s, got) := x
  if !s.spUp n || s.ctl.denseSet.contains n || s.ctl.gatherSet.contains n then (s, got)
  else if n == builder then (s, got ++ [n])
  else
    match (s.prepareSp n (s.ownerOf tenant 0)).copyTables 2 builder n [slot] with
    | some (s, _) => (s, got ++ [n])
    | none => (s, got)

/-- R147, R148: the builder scores the centroid shingles, and the planner makes the queries resident and deals their items. A query for
which it names no spindle waits for a slot. -/
def execCoarseScan (pass : Nat) (x : ScanIn) (s : State) : Res := live s fun s =>
  match s.passes.find? fun p => p.id == pass with
  | none => s
  | some p =>
    if !p.built then s else
    let s := { s with passes := s.passes.filter fun y => y.id != pass }
    let qs := s.passRuns p
    let groups := (qs.map fun y => y.1.shard).eraseDups
    let of_ (sh : Nat) : List (CopyQ × Thatch × Table × Nat) := qs.filter fun y => y.1.shard == sh
    let s := groups.foldl (fun s sh =>
      match of_ sh with | [] => s | y :: _ => s.countCoarse p.builder y.2.1 x.wrong ((of_ sh).map fun y => (y.1.name, sh))) s
    let s := qs.foldl (fun s (c, h, t, slot) =>
      let named := ((x.plan.find? fun y => y.name == c.name).map (·.spindles)).getD []
      let (s, got) := named.eraseDups.foldl (State.reside p.builder slot c.par.tenant) (s, [])
      match s.findCopy c.name c.shard with
      | some c => s.setCopy { c with
          coarse := coarseOrder (centDelivered h.im (s.reg 0x40100C) x.wrong).1 t c.par.ceil, plan := got, phase := if got.isEmpty then 2 else 3 }
      | none => s) s
    groups.foldl (fun s sh =>
      match of_ sh with
      | [] => s
      | y :: _ => s.deal y.2.1 ((of_ sh).filterMap fun y => (s.findCopy y.1.name sh).bind fun c => if c.phase == 3 then some c else none)) s

/-- The skeins with items that wait for the content of a resident filter that serves from a tick (R153). -/
def State.filterWaits (s : State) (tenant handle index tick : Nat) : Nat :=
  let uses (q : QName × Nat) : Bool := match s.findCopy q.1 q.2 with
    | some c => c.par.filterMode == 1 && c.par.tenant == tenant && c.par.filter % 2 ^ 32 == handle && c.par.index == index &&
        tick ≤ c.name.skein && (s.filterAt tenant handle index c.name.skein).isNone
    | none => false
  let waits (p : Spindle) (x : Nat × ShSlot) : Option Nat :=
    if x.2.sh.isNone || x.2.tomb.isSome then none
    else x.2.item.bind fun it => if (itemQueries p it).any uses then some it.skein else none
  (s.spin.flatMap fun n => n.2.shslots.filterMap (waits n.2)).eraseDups.length

/-- Keep a resident filter: on a shard copy its content takes pages of stack memory (R72, R153); a refused allocation leaves it without pages (entry 54). -/
def State.keepFilter (s : State) (f : Filter) : State :=
  if (idxShards s.map.entries f.tenant f.index).any fun e => (entryCopies e).contains s.node then
    let (s, pages) := s.takeHidden f.tenant false (cdiv (32 + f.map.bits.length) pageSize)
    { s with filters := s.filters ++ [{ f with pages }] }
  else { s with filters := s.filters ++ [f] }

/-- R153: a shard copy stores the content of a resident filter that serves from a tick, or learns that the filter is released from a tick. The operand says how
long items waited. -/
def execResidentFilterCopy (tenant handle index tick : Nat) (map : Option Bitmap) (waited : Nat) (s : State) : Res := live s fun s =>
  if s.filters.any fun f => f.tenant == tenant && f.handle == handle && f.start == tick then s else
  let old := updIf (fun f => f.tenant == tenant && f.handle == handle && f.stop.isNone) (fun f => { f with stop := some tick }) s.filters
  match map with
  | none => { s with filters := old }
  | some map =>
  let f : Filter := { tenant, handle, index, map, start := tick, stop := none }
  let waits := if waited == 0 then 0 else max 1 (s.filterWaits tenant handle index tick)
  (({ s with filters := old }.keepFilter f).bump 0xE0501B waits).bump 0xE0501C waited

/-! ### Widening (R155 to R157) -/

/-- R157: the home takes a step report and, once it holds them all, decides. -/
def execStepReport (r : StepRep) (s : State) : Res := live s fun s => if r.name.home == s.node then s.homeReport r else s

/-- One copy of a query widens to a step: the lists of the step are dealt (R157). -/
def State.widenCopy (step : Nat) (s : State) (c : CopyQ) : State :=
  if c.phase != 3 || c.stop || c.left != 0 || c.step + 1 != step || !canWiden c.par then s else
  match s.copyThatch c with
  | none => s
  | some h => (s.setCopy { c with step, offered := 0 }).deal h [{ c with step, offered := 0 }]

/-- R157: a shard copy receives a widen decision and deals the items of the next step. -/
def execWidenDecision (q : QName) (step : Nat) (s : State) : Res := live s fun s =>
  (s.copy.filter fun c => c.name == q).foldl (State.widenCopy step) s

/-- R157: a shard copy receives the stop decision. -/
def execStopDecision (q : QName) (s : State) : Res := live s fun s => s.stopLocal q

/-! ### Plies (R177 to R190) -/

/-- The key under which a die ply's resend is noted: the die and the pass (R187). -/
def dieKey (die pass : Nat) : Nat := die * 256 + pass

/-- R179, R186, R187: a segment or hank arrives at a ply buffer. A module hank goes to the home. The segments and die hanks of this Molset's own spindles stand in
their ply buffers already, so that an arrival below level 2 changes nothing unless it is malformed, or of a query that the ply does not hold: then its sender, one
of this Molset's spindles, is asked once more, and after a second refusal the input counts as one that holds no entries. -/
def execHankArrival (h : Hank) (die src : Nat) (s : State) : Res := live s fun s =>
  if h.level == 2 || h.name.home == s.node && (s.findCopy h.name h.shard).isNone then s.homeHank h src else
  let bad := h.res != 0 || 1 < h.level || 1 < die || (s.findCopy h.name h.shard).isNone
  if !bad then s else
  let s := s.bump 0xE06014 1
  let k := (h.name, h.shard, dieKey die h.pass)
  if !s.rerank.resent.contains k then { s with rerank := { s.rerank with resent := s.rerank.resent ++ [k] } } else
  match s.findCopy h.name h.shard with
  | none => s
  | some c =>
    let blank (x : Hank) : Hank := sealHank { x with entries := [], integrity := true }
    s.setCopy { c with
      integrity := true
      segs := c.segs.map fun x => if h.level == 0 && x.1 == die && x.2.2.low == h.low && x.2.2.pass == h.pass then (x.1, x.2.1, blank x.2.2) else x
      dieHanks := c.dieHanks.map fun x => if h.level == 1 && x.1 == die && x.2.pass == h.pass then (x.1, blank x.2) else x }

/-- The inputs of a die ply after the checks of its sampled items: an item whose digests all differ gives no candidates, and one whose
first digest was wrong gives its checker's (R78, entry 17). -/
def checkedInputs (checks : List Check) (q : QName × Nat) (ins : List Hank) : List Hank :=
  let drop := (checks.filter fun k => 2 ≤ k.out).map fun k => k.item.shingle
  let kept := if drop.isEmpty then ins else ins.map fun h => { h with entries := h.entries.filter fun e => !drop.contains e.shingle }
  let extra := (checks.filter fun k => k.out == 2).flatMap fun k => (k.cands.filter fun c => c.1 == q).flatMap (·.2)
  match kept, extra with
  | h :: _, _ :: _ => kept ++ [{ h with entries := sortBy entLt extra, boundary := 0, nan := 0, items := 0, offered := 0, low := 0xFFFFFFFF, high := 0 }]
  | _, _ => kept

/-- The segments of a die's ply in the input order of R178, with their spindles. -/
def dieFrom (c : CopyQ) (die : Nat) : List (Nat × Hank) :=
  let lt (a b : Nat × Nat × Hank) : Bool :=
    a.2.2.low < b.2.2.low || (a.2.2.low == b.2.2.low && (a.2.2.high < b.2.2.high || (a.2.2.high == b.2.2.high && a.2.1 < b.2.1)))
  (sortBy lt (c.segs.filter fun x => x.1 == die)).map fun x => (x.2.1, x.2.2)

/-- The segments of a die's ply in the input order of R178. -/
def dieSegs (c : CopyQ) (die : Nat) : List Hank := (dieFrom c die).map (·.2)

/-- The suppliers of entries with one ID in the inputs of a ply (R183, R184). -/
def dupFrom (l : List (Nat × Hank)) : List Nat :=
  let es := l.flatMap fun x => (realEntries x.2).map fun e => (x.1, e)
  (es.filter fun x => 1 < (es.filter fun y => y.2.id == x.2.id).length).map (·.1)

/-- The checks of sampled items that a die's ply holds (R77). -/
def State.dieChecks (s : State) (c : CopyQ) (die : Nat) : List Check :=
  s.ctl.checks.filter fun k => k.queries.contains (c.name, c.shard) && k.item.die == die && k.item.pass == c.pass

/-- The checks that a die's ply has taken: the query leaves them, and one that no query is left in goes. -/
def State.dropChecks (s : State) (c : CopyQ) (die : Nat) : State :=
  let f (k : Check) : Option Check :=
    if k.queries.contains (c.name, c.shard) && k.item.die == die && k.item.pass == c.pass then
      let rest := k.queries.filter (· != (c.name, c.shard))
      if rest.isEmpty then none else some { k with queries := rest }
    else some k
  { s with ctl := { s.ctl with checks := s.ctl.checks.filterMap f } }

/-- Is a die's ply complete: every dealt item is covered and every check is settled (R77, R178)? -/
def State.dieComplete (s : State) (die : Nat) (c : CopyQ) : Bool :=
  let dealt := (lk c.dealt die).getD 0
  c.phase == 3 && dealt != 0 && (dieSegs c die).foldl (fun n x => n + x.items) 0 == dealt && !(s.dieChecks c die).any (fun k => k.out == 0)

/-- Does a copy of an older skein wait for the same stage (R32)? Its work runs first. -/
def State.olderCopy (s : State) (k : Nat) (ready : CopyQ → Bool) : Bool := s.copy.any fun c => c.name.skein < k && ready c

/-- The ply buffers of a die, of the module and of the fabric merge (0, 1, 2, 3) hold the inputs of a tenant's ply: when their owner changes their pages are
zeroed first (R71, R179). How many pages a ply takes is not given (entry 54). -/
def State.plyBuf (s : State) (k tenant : Nat) : State :=
  let o := s.ownerOf tenant 0
  if lk s.ctl.plyOwners k == some o then s else
  let (n, s) := s.draw
  { s with ctl := { s.ctl with plyOwners := put s.ctl.plyOwners k o } }.bump 0xE0200C (Config.freeNat n)

/-- R178: the die ply merges the segments of a die once they cover every item dealt there and every check is settled. -/
def execDiePly (q : QName) (shard die : Nat) (s : State) : Res := live s fun s =>
  match s.findCopy q shard with
  | none => s
  | some c =>
    if !s.dieComplete die c || s.olderCopy q.skein (s.dieComplete die) then s else
    let s := s.plyBuf die c.par.tenant
    let ins := checkedInputs (s.dieChecks c die) (q, shard) (dieSegs c die)
    let (h, d) := ply q shard 1 c.pass (passKeep (keepCount c.par) c.pass) ins
    let s := (s.bump 0xE06004 (dieSegs c die).length).bump 0xE0600A (plyCycles s ins)
    let s := ((s.countDups d true).scoreDups d (dupFrom (dieFrom c die))).dropChecks c die
    s.setCopy { c with dealt := put c.dealt die 0, segs := c.segs.filter fun x => x.1 != die, dieHanks := c.dieHanks ++ [(die, h)] }

/-- May the module ply of a copy run: its dies' plies are done (R180, R181)? -/
def moduleReady (c : CopyQ) : Bool :=
  c.phase == 3 && c.left == 0 && !(c.dealt.any fun d => d.2 != 0) && !(c.dieHanks.isEmpty && !c.stop)

/-- R180, R181: the module ply merges the die hanks. While the query may widen, its output stays open; else the next pass starts or the
module hank goes to the home. -/
def execModulePly (q : QName) (shard : Nat) (late : Bool) (s : State) : Res := live s fun s =>
  match s.findCopy q shard with
  | none => s
  | some c =>
    if !moduleReady c || s.olderCopy q.skein moduleReady then s else
    let s := s.plyBuf 2 c.par.tenant
    let n := passKeep (keepCount c.par) c.pass
    let dies := (sortBy (fun (a b : Nat × Hank) => a.1 < b.1) c.dieHanks).map (·.2)
    let ins := c.open_.toList ++ dies
    let (h, d) := ply q shard 2 c.pass n ins
    let h := match dies, c.open_ with | [], some o => o | [], none => emptyHank q shard 2 c.pass | _, _ => h
    let s := (s.bump 0xE06005 dies.length).bump 0xE0600A (if dies.isEmpty then 0 else plyCycles s ins)
    let from_ := (c.open_.toList.map fun x => ((c.plySp.head?.map (·.2)).getD 0, x)) ++ c.dieHanks.map fun x => ((lk c.plySp x.1).getD 0, x.2)
    let s := (s.countDups d true).scoreDups d (dupFrom from_)
    if !c.stop then s.setCopy { c with dieHanks := [], open_ := some h } else
    let c := { c with passes := c.passes ++ [h], open_ := none, dieHanks := [] }
    if h.entries.length == n && c.pass < passCount (keepCount c.par) then
      match s.copyThatch c with
      | none => s
      | some t =>
        let c := { resetStep c with pass := c.pass + 1, floor := h.entries.getLast?.map entKey }
        (s.setCopy c).deal t [c]
    else s.sendModule c late

/-- The module hanks that the fabric ply merges, in ascending shard number (R178). -/
def fabricInputs (h : HomeQ) : List Hank :=
  sortBy (fun (a b : Hank) => a.shard < b.shard) (h.hanks.filter fun x => (waitedShards h).contains x.shard)

/-- Report the Molsets that supplied entries of one ID with unequal scores (R183): a Molset is scored as a whole, under part kind 0 and its node number. -/
def State.scoreNodes (s : State) (h : HomeQ) (ins : List Hank) : State :=
  let es := ins.flatMap fun x => (realEntries x).map fun e => (x.shard, e)
  let nodes := (unequalFrom es).filterMap fun sh => (h.copies.find? fun c => c.1 == sh).map (·.2)
  nodes.eraseDups.foldl (fun s n => s.score 0 n 1024) s

/-- Does an older skein of this home wait for the same stage (R32)? Its work runs first. -/
def State.olderHome (s : State) (k : Nat) (ready : HomeQ → Bool) : Bool := s.home.any fun h => h.name.skein < k && ready h

/-- May the fabric ply start: the query has stopped, and every awaited hank is here (R26, R178)? -/
def State.fabricReady (s : State) (h : HomeQ) : Bool :=
  h.phase == 2 && h.stopped && h.refusal == 0 && h.name.skein < s.ftick && (waitedShards h).all fun sh => h.hanks.any fun x => x.shard == sh

/-- R178, R182: the fabric ply merges the module hanks of every shard that is not missing. -/
def execFabricPly (q : QName) (late : Bool) (s : State) : Res := live s fun s =>
  match s.findHome q with
  | none => s
  | some h =>
    if !s.fabricReady h || s.olderHome q.skein s.fabricReady then s else
    let s := s.plyBuf 3 h.par.tenant
    let ins := fabricInputs h
    let kappa := keepCount h.par
    let (m, d) := ply q 0 3 0 kappa ins
    let m := if ins.isEmpty then emptyHank q 0 3 0 else m
    let m := sealHank { m with missing := m.missing || !h.missing.isEmpty }
    let s := (s.bump 0xE06006 ins.length).bump 0xE0600A
      (s.reg 0x403005 * ins.length * passCount kappa + cdiv (ins.foldl (fun n x => n + (realEntries x).length) 0) (s.reg 0x403004))
    let s := (s.countDups d false).scoreNodes h ins
    let s := s.bumpIf (late || s.pastDeadline (q.skein + 1)) 0xE01002
    let s := s.bumpIf (h.par.r != 0 && m.boundary != 0) 0xE0600C
    s.setHome { h with phase := 3, merged := some m, integrity := h.integrity || m.integrity }

/-! ### Re-ranking (R160, R161, R133, R189) -/

/-- The home marks a candidate as excluded: the re-rank gap (R161). -/
def State.excludeCand (s : State) (q : QName) (shard id : Nat) : State :=
  match s.findHome q with
  | none => s
  | some h =>
    if h.scores.any (fun x => x.shard == shard && x.id == id) then s else
    (s.setHome { h with scores := h.scores ++ [{ name := q, shard, id, score := none }], gap := true }).bump 0xE05017 1

/-- The home takes the answer of a candidate (R160, R161). -/
def State.homeScore (s : State) (a : CandScore) : State :=
  match s.findHome a.name with
  | none => s
  | some h =>
    if h.phase != 4 || !(h.sent.any fun c => c.shard == a.shard && c.id == a.id) || h.scores.any (fun x => x.shard == a.shard && x.id == a.id) then s else
    match a.score with
    | none => (s.setHome { h with integrity := h.integrity || a.integrity }).excludeCand a.name a.shard a.id
    | some _ => s.setHome { h with scores := h.scores ++ [a], integrity := h.integrity || a.integrity }

/-- Where a candidate's vector lies: in flash by the re-rank map of the thatch, or for a delta item where its entry says (R144, R160, R200, R213). -/
def candAddr (h : Thatch) (c : Cand) : Option Nat :=
  if c.delta then
    let es := h.entries.filter fun e => e.id == c.id
    ((es.find? fun e => e.shingle == c.shingle).orElse fun _ => es.head?).map (·.addr)
  else (h.im.itemMap.find? fun r => r.id == c.id).map (·.addr)

/-- A shard copy starts the read of a candidate's vector: from flash, or for a delta item from the stacks (R160). The access is one of the
re-rank read stage, the fourth of R49. A read of flash waits in the queue of its tenant and class (R417). -/
def State.takeCand (s : State) (c : Cand) : State :=
  match s.findCopy c.name c.shard with
  | none => s
  | some x =>
    if s.rerank.reads.contains c then s else
    let h := s.copyThatch x
    let a := (h.bind fun h => candAddr h c).getD 0
    let n := (h.map fun h => rerankLen h.im.rr h.im.dim).getD 1
    let s := s.issue (if c.delta then 0 else 2) none x.par.tenant a 4 (some c.name)
    let s := if c.delta then s else s.askRead 2 x.par.tenant x.par.bulk ((a + n - 1) / 4096 - a / 4096 + 1) (.rerank c)
    { s with rerank := { s.rerank with reads := s.rerank.reads ++ [c] } }.stampUp

/-- The candidates of the re-rank, each with the shard that delivered it (R160). -/
def rerankCands (h : HomeQ) : List Cand :=
  ((h.merged.map (·.entries)).getD []).filterMap fun e =>
    let from_ := h.hanks.filter fun x => x.entries.any fun y => y.id == e.id && y.shingle == e.shingle
    let sh := minOf ((if from_.isEmpty then h.hanks.filter (fun x => x.entries.any fun y => y.id == e.id) else from_).map (·.shard))
    sh.map fun sh => { name := h.name, shard := sh, id := e.id, delta := e.delta, shingle := e.shingle }

/-- Send one candidate to its shard copy; that of a copy that is gone is excluded (R160, R161). -/
def State.sendCand (h : HomeQ) (s : State) (c : Cand) : State :=
  match h.copies.find? fun x => x.1 == c.shard with
  | none => s.excludeCand h.name c.shard c.id
  | some (_, n) =>
    if s.hasFailed n then s.excludeCand h.name c.shard c.id else
    let s := s.bump 0xE05016 1
    if n == s.node then s.takeCand c else s.sendAt n 0x20 h.par.tenant h.epoch false (.cand c)

/-- May the candidates of a query be sent: in frame N+2 (R26, R160)? -/
def State.rerankReady (s : State) (h : HomeQ) : Bool := h.phase == 3 && h.par.r != 0 && h.name.skein + 2 ≤ s.ftick

/-- R160: the home sends each candidate to the copy whose module hank supplied it. -/
def execRerankDispatch (q : QName) (s : State) : Res := live s fun s =>
  match s.findHome q with
  | none => s
  | some h =>
    if !s.rerankReady h || s.olderHome q.skein s.rerankReady then s else
    (rerankCands h).foldl (State.sendCand h) (s.setHome { h with phase := 4, sent := rerankCands h })

/-- R160: a candidate reaches the copy that supplied it. -/
def execRerankCandidate (c : Cand) (s : State) : Res := live s fun s => s.takeCand c

/-- The bytes of a candidate's vector, none where it cannot be read (R160, R161). -/
def State.candBytes (s : State) (h : Thatch) (t : Nat) (c : Cand) : Option (List Byte) :=
  let n := rerankLen h.im.rr h.im.dim
  (candAddr h c).bind fun a =>
    if c.delta then (if s.hidBad t a n then none else some (s.hidLoad t a n))
    else if (List.range ((a + n - 1) / 4096 - a / 4096 + 1)).any fun i => (s.fentry (a / 4096 + i)).discarded then none
    else some (s.flashBytes a n)

/-- Decode a stored vector of a thatch (R94, R133), an F8E4 one as its stream comes in (R106 to R109); none if the stream is abandoned. -/
def State.vectorVals (s : State) (rr dim : Nat) (bs : List Byte) (inp : StreamIn) (sp : Nat) : Option (List F32) × State :=
  if rr != 5 then (some (readPlain 7 dim bs), s) else
  let (e, own) := vectorBlocks 5 dim bs
  let (got, cnt) := deliverStream 5 0 (s.reg 0x304004) own inp
  let s := s.countStream sp cnt inp.cycles
  match got with
  | none => (none, s)
  | some bl => let (xs, n) := channelVals 5 dim e bl; (some xs, s.charge (some sp) n)

/-- Score a vector against a query (R133): a non-finite stored vector is counted. -/
def State.scoreVector (s : State) (im : Image) (query xs : List F32) (sp : Nat) : F32 × State :=
  let (q, _) := metricVec (shapeMetric im.shape) query
  let (r, n) := rerankScore (shapeMetric im.shape) (q.getD query) xs
  (r, ((s.bump 0xE0400E 1).bumpIf (xs.any fun x => !isFinite x) 0xE0400F).charge (some sp) n)

/-- The read of a candidate's vector is over: it leaves the reads under way. -/
def State.candRead (s : State) (c : Cand) (a : Nat) : State :=
  let done (x : Access) : Bool := x.ctx.isNone && x.q == some c.name && x.stage == 4 && x.addr == a
  { s with
    rerank := { s.rerank with reads := s.rerank.reads.filter fun y => y != c }
    tier := { s.tier with accesses := match s.tier.accesses.findIdx? done with | some i => s.tier.accesses.eraseIdx i | none => s.tier.accesses } }.readDone
    (.rerank c)

/-- R133, R160, R161: a candidate's vector is read and scored, or unreadable, and the answer goes to the home. A vector whose stream is abandoned gives no
score, and its query gets the integrity flag (R108). -/
def execRerankReadDone (c : Cand) (r : VectorRead) (s : State) : Res := live s fun s =>
  match s.findCopy c.name c.shard with
  | none => s
  | some x =>
    match s.copyThatch x with
    | none => s
    | some h =>
      if !s.rerank.reads.contains c || !s.readOk (.rerank c) || !s.spUp r.sp then s else
      let s := s.candRead c ((candAddr h c).getD 0)
      let (score, lost, s) := match if r.bad then none else s.candBytes h x.par.tenant c with
        | none => (none, false, s)
        | some bs =>
          match s.vectorVals h.im.rr h.im.dim bs r.inp r.sp with
          | (none, s) => (none, true, s)
          | (some xs, s) => let (v, s) := s.scoreVector h.im x.vec xs r.sp; (some v, false, s)
      let a : CandScore := { name := c.name, shard := c.shard, id := c.id, score, integrity := lost }
      let last := !(s.rerank.reads.any fun y => y.name == c.name && y.shard == c.shard)
      let miss := last && !x.rrLate && s.pastDeadline (c.name.skein + 2)
      let s := if miss then (s.setCopy { x with rrLate := true }).bump 0xE01004 1 else s
      if c.name.home == s.node then s.homeScore a else s.sendAt c.name.home 0x20 x.par.tenant x.epoch false (.candScore a)

/-- R160: the home receives a re-rank score. -/
def execRerankScoreReceive (a : CandScore) (s : State) : Res := live s fun s => if a.name.home == s.node then s.homeScore a else s

/-- May the re-ranked ply run: in frame N+3, every candidate scored or excluded (R26, R189)? -/
def State.rankReady (s : State) (h : HomeQ) : Bool :=
  h.phase == 4 && h.name.skein + 3 ≤ s.ftick && h.sent.all fun c => h.scores.any fun x => x.shard == c.shard && x.id == c.id

/-- R189: once every candidate is scored or excluded, the re-ranked ply selects the k nearest. -/
def execRerankedPly (q : QName) (late : Bool) (s : State) : Res := live s fun s =>
  match s.findHome q with
  | none => s
  | some h =>
    if !s.rankReady h || s.olderHome q.skein s.rankReady then s else
    let rank := h.sent.filterMap fun c =>
      (h.scores.find? fun x => x.shard == c.shard && x.id == c.id).bind fun x => x.score.map fun v =>
        ({ id := c.id, delta := c.delta, score := v, shingle := c.shingle } : HEntry)
    let nans := (rank.filter fun e => isNaN e.score).length
    let es := rank.filter fun e => !isNaN e.score && !fLt h.par.bound e.score
    let input : Hank := { emptyHank q 0 3 0 with nan := nans, offered := es.length, entries := es }
    let (m, d) := ply q 0 3 0 h.par.k [input]
    let m := { m with boundary := if m.entries.length < h.par.k then 0 else
      ((sortBy entLt es).drop h.par.k |>.filter fun e => (lastScore m.entries).map fKey == some (fKey e.score)).length }
    let s := (s.bump 0xE06003 nans).bump 0xE0600A (s.reg 0x403005 * passCount h.par.k + cdiv es.length (s.reg 0x403004))
    let s := s.countDups d false
    let s := s.bumpIf (late || s.pastDeadline (q.skein + 3)) 0xE01004
    s.setHome { h with phase := 5, ranked := some m }

/-- R187: a copy is asked for a module hank once more. -/
def execHankResendRequest (src : Nat) (q : QName) (shard _pass : Nat) (s : State) : Res := live s fun s =>
  match s.findCopy q shard with
  | some c => match c.sent with | some h => s.sendAt src 0x20 c.par.tenant c.epoch false (.hank h) | none => s
  | none => s

/-! ### The result (R162 to R165, R188) -/

/-- A result record (R163). -/
def recordBytes (version : Nat) (e : HEntry) (flags : Nat) : List Byte :=
  leBytes 6 e.id ++ leBytes 2 version ++ leBytes 4 e.score.toNat ++ leBytes 4 flags

/-- The records of a result of `k`: valid entries in key order, then padding (R163, R164, R188). -/
def resultRecords (k version qf : Nat) (es : List HEntry) : List Byte :=
  let es := es.take k
  let at_ := if es.length == k then lastScore es else none
  let full := es.flatMap fun e =>
    recordBytes version e (recordFlags qf false (match at_ with | some v => fKey v == fKey e.score | none => false) e.delta)
  let pad := recordBytes version { id := paddingId, delta := false, score := f32Inf, shingle := 0 } (recordFlags qf true false false)
  full ++ (List.replicate (k - es.length) pad).flatMap id

/-- May the result of a query be delivered now: its last ply is done or it was refused, in the frame of R26? -/
def State.deliverable (s : State) (h : HomeQ) : Bool :=
  if h.refusal != 0 then h.phase ≤ 2 && (h.stopped || h.phase == 1) && h.ret ≤ s.ftick + 1
  else if h.par.r == 0 then h.phase == 3 && h.name.skein + 2 ≤ s.ftick
  else h.phase == 5 && h.name.skein + 3 ≤ s.ftick

/-- The hank that a query delivers from: merged, or re-ranked (R162). -/
def outHank (h : HomeQ) : Option Hank := if h.par.r == 0 then h.merged else h.ranked

/-- The entries that a query delivers (R163). -/
def outEntries (h : HomeQ) : List HEntry := if h.refusal != 0 then [] else (((outHank h).map (·.entries)).getD []).take h.par.k

/-- Is the integrity flag set (R164)? -/
def outIntegrity (h : HomeQ) : Bool := h.integrity || (match outHank h with | some m => m.integrity | none => false)

/-- The ties beyond the k-th place (R163, R189). -/
def outTies (h : HomeQ) : Nat :=
  if h.refusal == 0 && (outEntries h).length == h.par.k then
    (match outHank h with | some m => if h.par.r == 0 || m.entries.length ≤ h.par.k then m.boundary else 0 | none => 0)
  else 0

/-- The ticks by which a query is late (R31). -/
def State.lateBy (s : State) (h : HomeQ) : Nat := s.ftick + 1 - h.ret

/-- The query flags of a delivery (R164). -/
def State.outFlags (s : State) (h : HomeQ) : Nat :=
  queryFlags (0 < s.lateBy h) (outIntegrity h) (!h.missing.isEmpty) ((outEntries h).length < h.par.k) h.widened h.ceiling (outTies h != 0)
    (h.par.r != 0 && h.refusal == 0) h.gap

/-- What a delivery writes: the header and the records (R163). A refused query has no records. -/
def State.resultBytes (s : State) (h : HomeQ) (status : Nat) : List Byte :=
  let scored := (h.scores.filter fun x => x.score.isSome).length
  resultHeader h.tag h.name.skein h.version status (outEntries h).length h.par.k (outTies h) (probeSize h.par h.step) (s.outFlags h) h.total h.name.qidx
    s.node scored ++
  (if h.refusal != 0 then [] else resultRecords h.par.k h.version (s.outFlags h) (outEntries h))

/-- R162, R165, R188: the home writes the result area and the completion. -/
def execResultDelivery (q : QName) (bad : Bool) (s : State) : Res := live s fun s =>
  match s.findHome q with
  | none => s
  | some h =>
    if !s.deliverable h || s.olderHome q.skein s.deliverable then s else
    let t := h.par.tenant
    let k := h.par.k
    let v := (outEntries h).length
    let qf := s.outFlags h
    let late := s.lateBy h
    let bad := bad || !s.ownedStacks t h.resAddr (64 + 16 * k)
    let status := if bad then 0x000D else h.refusal
    let (pk, pn) := s.partAt t h.resAddr
    let s := if bad then ((s.bump 0xE0501A 1).score pk pn 1024) else s.store t h.resAddr (s.resultBytes h status)
    let s := s.bumpIf (h.refusal != 0 && h.refusal != 0x000C) 0xE05004
    let s := ((s.bumpIf (outIntegrity h) 0xE05019).bumpIf (v < k) 0xE05013).bumpIf (outTies h != 0) 0xE0600B
    let s := s.bumpIf (h.par.r == 0 && s.pastDeadline (q.skein + 2)) 0xE01003
    let s := s.complete t h.seq 1 status qf h.tag q.skein (leBytes 2 v ++ leBytes 2 h.version) late
    let s := s.setHome { h with phase := 6, late := 0 < late }
    { s with fault := { s.fault with log := s.fault.log.filter fun r => match r.msg with | .dispatch d => d.name != q | _ => true } }

end Sys2Proof.Machine
end

