-- ==== Sys2Proof/Machine/Tier.lean ====
section
/-! DEFINITION. The memory tiers: memory operations at this Molset as their target, placement, the zeroing of pages, the tier mover, and late and failed
accesses (R72, R73, R290 to R305, R356 to R361). -/

namespace Sys2Proof.Machine

/-! ### Memory operations at their target (R356 to R361) -/

/-- The hank entry that 16 bytes spell (R171). -/
def entryOfBytes (bs : List Byte) : HEntry :=
  { id := leNat (bs.take 6), delta := (leNat ((bs.drop 6).take 2)) % 2 == 1, score := BitVec.ofNat 32 (leNat ((bs.drop 8).take 4)),
    shingle := leNat ((bs.drop 12).take 4) }

/-- What an atomic leaves at its target (R357), from its operation, type, operand and old value; none if a key operand is NaN. -/
def atomicValue (op ty size : Nat) (a old : List Byte) : Option (List Byte) :=
  match op with
  | 1 => some (leBytes 8 (leNat old + leNat a))
  | 2 => some (if old == a.take size then (a.drop size).take size else old)
  | _ =>
    let less (x y : List Byte) : Bool :=
      if ty == 2 then entLt (entryOfBytes x) (entryOfBytes y)
      else if ty == 1 then toInt 64 (leNat x) < toInt 64 (leNat y)
      else leNat x < leNat y
    let v := a.take size
    if ty == 2 && isNaN (entryOfBytes v).score then none
    else if ty == 2 && isNaN (entryOfBytes old).score then some v
    else if op == 3 then some (if less v old then v else old)
    else some (if less old v then v else old)

/-- The response kind of an operation (R353). -/
def respKind (op : Nat) : Nat := if op == 0 then 2 else if op == 8 then 4 else 6

/-- Answer a memory operation (R361): a response with a status from 1 to 7 carries all ones. -/
def State.memAnswer (s : State) (op : MemOp) (status : Nat) (data : List Byte) : State :=
  let size := if op.op == 8 then 0 else op.size
  let data := if status == 0 then data else List.replicate size 0xFF#8
  let s := s.bumpIf (status == 1) 0xE0C013
  s.send op.src (respKind op.op) op.tenant (.memResp op.tag (respKind op.op) status data)

/-- The owner whose address space an operation names. -/
def opSpace (op : MemOp) : Nat := if op.system then systemTenant else op.tenant

/-- Perform a memory operation at its target, past every wait (R356 to R358, R361). -/
def State.memDo (s : State) (op : MemOp) (bad badAgain : Bool) : State :=
  let t := opSpace op
  if !s.inService t then s.memAnswer op 3 []
  else if !s.owned t op.addr op.size then s.memAnswer op 2 []
  else if op.op == 8 then (s.memWrite t op.addr (op.data.take op.size)).memAnswer op 0 []
  else
    let (s, p) := s.readLine t op.addr op.size bad badAgain
    if p then s.memAnswer op 1 []
    else
      let old := s.load t op.addr op.size
      if op.op == 0 then s.memAnswer op 0 old
      else
        match atomicValue op.op op.ty op.size op.data old with
        | none => (s.bump 0xE0C015 1).memAnswer op 6 []
        | some v => ((if v == old then s else s.memWrite t op.addr v).bump 0xE0C00F 1).memAnswer op 0 old

/-- A write waits for the switch of its page (R296). -/
def State.waitMove (s : State) (w : MWait) : State :=
  ({ s with tier := { s.tier with waits := s.tier.waits ++ [w] } }).bump 0xE0A012 1

/-- A memory operation arrives at its target: a store or an atomic on a page in move waits (R296). -/
def State.memArrive (s : State) (op : MemOp) (bad badAgain : Bool) : State :=
  if op.op != 0 && s.owned (opSpace op) op.addr op.size && s.rangeMoving (opSpace op) op.addr op.size then
    s.waitMove { tenant := opSpace op, addr := op.addr, data := [], host := none, peer := some op }
  else s.memDo op bad badAgain

/-- A module's own records. -/
def State.ucie (s : State) (m : Nat) : Ucie := s.link.modules.getD m {}

/-- Store a module's records. -/
def State.setUcie (s : State) (m : Nat) (u : Ucie) : State := { s with link := { s.link with modules := s.link.modules.set m u } }

/-- A transaction leaves on a module, in flits of its own (R426, R427; entry 53); they stay in the replay buffer. -/
def State.hostFlits (s : State) (m bytes : Nat) : State :=
  let n := cdiv (16 + bytes) 240
  let u := s.ucie m
  (s.setUcie m { u with txSeq := (u.txSeq + n) % 4096, held := min (s.reg 0xC00005) (u.held + n) }).bump 0xE0F001 n

/-- The module that the Molset's own requests leave on: the lowest active one. -/
def State.hostModule (s : State) : Nat := ((List.range 4).find? fun m => s.reg (0xC00101 + m) ≤ 1).getD 0

/-- Two requests to host memory, with following tags (R427, R431): operation, and for each its address and data. -/
def State.hostAsk (s : State) (op : Nat) (x y : Nat × List Byte) : State :=
  let m := s.hostModule
  let mk (tag : Nat) (r : Nat × List Byte) : HReq := { m, tag, op, status := 0, data := r.2, addr := r.1 }
  let rs := [mk s.link.nextTag x, mk (s.link.nextTag + 1) y]
  let s := { s with link := { s.link with toHost := s.link.toHost ++ rs, nextTag := s.link.nextTag + 2 } }
  ((s.hostFlits m x.2.length).hostFlits m y.2.length).bump 0xE0F009 2

/-- Answer a host request (R428, R430, R432). Operation 2 is a read completion, 4 a write acknowledgement. A poisoned completion, status 3, is no
refusal. -/
def State.hostAnswer (s : State) (m tag op status : Nat) (data : List Byte) : State :=
  let s := s.hostFlits m data.length
  let s := if status == 0 then s.bump (if op == 2 then 0xE0F006 else 0xE0F007) 1 else s.bump (if status == 3 then 0xE0F013 else 0xE0F008) 1
  { s with link := { s.link with
      responses := s.link.responses ++ [{ m, tag, op, status, data }]
      outstanding := s.link.outstanding.filter fun r => !(r.m == m && r.tag == tag) } }

/-- Perform the writes that waited for a page (R296). -/
def State.runWaits (s : State) (t page : Nat) : State :=
  let mine (w : MWait) : Bool := w.tenant == t && w.addr / pageSize == page
  let ws := s.tier.waits.filter mine
  let s := { s with tier := { s.tier with waits := s.tier.waits.filter fun w => !mine w } }
  ws.foldl (fun s w =>
    match w.host, w.peer with
    | some (m, tag), _ =>
      if s.owned t w.addr w.data.length then (s.memWrite t w.addr w.data).hostAnswer m tag 4 0 [] else s.hostAnswer m tag 4 1 []
    | none, some op => s.memDo op false false
    | none, none => s.memWrite t w.addr w.data) s

/-! ### Placement entries (R290, R291) -/

/-- The region that starts at a page. -/
def State.regionAt (s : State) (t page : Nat) : Option Region := s.tier.regions.find? fun r => r.tenant == t && r.page == page

/-- The pages of a region. -/
def regionPages (r : Region) : List Nat := (List.range r.count).map (r.page + ·)

/-- The pages of a region that are not in a tier yet, ascending. -/
def State.pagesToMove (s : State) (r : Region) (board : Bool) : List Nat :=
  (regionPages r).filter fun n => match s.pageAt r.tenant n with | some p => p.inStacks == board | none => false

/-- Is the region's own allocation still being zeroed? -/
def State.regionNew (s : State) (r : Region) : Bool := s.ctl.zeroings.any fun z => z.tenant == r.tenant && z.region == r.page && z.seq != 0 && z.kind == 0x0D

/-- The status of a placement entry (R290, R291, R286); 0 passes. -/
def State.placeStatus (s : State) (t : Nat) (e : Entry) : Nat :=
  let a := eNat e 24 8
  let n := eNat e 32 4
  let op := eNat e 36 1
  let tier := eNat e 37 1
  let form := a < 2 ^ 48 && 1 ≤ op && op ≤ 3 && (if op == 2 then tier == 0 else tier ≤ 1) && eZero e 38 90 &&
    (if op == 1 then 1 ≤ n && n ≤ s.reg 0x602008 else n == 0)
  let board := tier == 1
  let page := a / pageSize
  if !form then 0x0501
  else if !s.inService t then 0x0506
  else if op == 1 then
    if a % pageSize != 0 || 2 ^ 27 < page + n || s.tier.pages.any (fun p => p.tenant == t && page ≤ p.page && p.page < page + n) then 0x0502
    else if board && s.tier.bfree.isEmpty then 0x0507
    else if !s.canTake t board n then 0x0503 else 0
  else
    match (if a % pageSize == 0 then s.regionAt t page else none) with
    | none => 0x0502
    | some r =>
      if s.regionNew r then 0x0502
      else if op == 2 then (if r.pins != 0 then 0x0504 else 0)
      else if board && s.tier.bfree.isEmpty then 0x0507
      else if !s.canTake t board (s.pagesToMove r board).length then 0x0503
      else if r.pins != 0 || s.tier.moves.any (fun m => m.tenant == t && m.page == page) then 0x0504 else 0

/-- The check of a placement entry (R290). -/
def checkPlacement (t : Nat) (s : State) (e : Entry) : State × Chk :=
  let st := s.placeStatus t e
  if st == 0 then (s, .pass 1 false) else (s.bump 0xE0A016 1, .refuse st)

/-- R290: the check of an allocation. -/
def execRegionAllocate (tenant seq : Nat) (bad : Bool) (s : State) : Res := live s fun s =>
  s.ringRow tenant seq bad 0x0D (opIs 36 4 1 [1, 2, 3]) (checkPlacement tenant)

/-- R290: the check of a free. -/
def execRegionFree (tenant seq : Nat) (bad : Bool) (s : State) : Res := live s fun s =>
  s.ringRow tenant seq bad 0x0D (opIs 36 4 2 [1, 2, 3]) (checkPlacement tenant)

/-- R290: the check of a move. -/
def execRegionMove (tenant seq : Nat) (bad : Bool) (s : State) : Res := live s fun s =>
  s.ringRow tenant seq bad 0x0D (opIs 36 4 3 [1, 2, 3]) (checkPlacement tenant)

/-- Pin or unpin regions (R231). -/
def State.pin (s : State) (t : Nat) (starts : List Nat) (up : Bool) : State :=
  let f (r : Region) : Region := { r with pins := if up then r.pins + 1 else r.pins - 1 }
  { s with tier := { s.tier with regions := updIf (fun r => r.tenant == t && starts.contains r.page) f s.tier.regions } }

/-- Complete a placement entry. -/
def State.placeDone (s : State) (t seq status tag tick : Nat) : State := s.complete t seq 0x0D status 0 tag tick [] 0

/-- Is the region of a move pinned by a model that has registered since (R231)? The mover moves no page of it. -/
def State.movePinned (s : State) (m : Move) : Bool := !m.freed && (match s.regionAt m.tenant m.page with | some r => r.pins != 0 | none => false)

/-- The mover takes the next page in hand: the first page left of the first move (R295). A move with no page left completes; one whose region is pinned now
ends as an entry against a pinned region does (R231, R290). -/
def moverNext : Nat → State → State
  | 0, s => s
  | n + 1, s =>
    match s.tier.moves with
    | [] => s
    | m :: rest =>
      if s.movePinned m then moverNext n ({ s with tier := { s.tier with moves := rest } }.placeDone m.tenant m.seq 0x0504 m.tag m.tick) else
      match m.left with
      | [] => moverNext n ({ s with tier := { s.tier with moves := rest } }.placeDone m.tenant m.seq (if m.freed then 0x0508 else 0) m.tag m.tick)
      | p :: _ =>
        { s with tier := { s.tier with pages := updIf (fun q => q.tenant == m.tenant && q.page == p) (fun q => { q with inMove := true }) s.tier.pages } }

/-- The mover goes on, unless its block is being reset (R529). -/
def State.mover (s : State) : State := if s.resetting 1 0 then s else moverNext (s.tier.moves.length + 1) s

/-- Free a region (R290, R296). The page in hand of a move of it stays with the mover, out of the tenant's reach, until its move ends. -/
def State.freeRegion (s : State) (r : Region) : State :=
  let hand := match s.tier.moves with | m :: _ => if m.tenant == r.tenant && m.page == r.page then m.left.head? else none | [] => none
  let gone := s.tier.pages.filter fun p => p.tenant == r.tenant && r.page ≤ p.page && p.page < r.page + r.count && some p.page != hand
  let s := gone.foldl State.dropPage s
  let s := { s with tier := { s.tier with
      regions := s.tier.regions.filter fun x => !(x.tenant == r.tenant && x.page == r.page)
      pages := updIf (fun p => p.tenant == r.tenant && some p.page == hand) (fun p => { p with zero := true }) s.tier.pages
      moves := updIf (fun m => m.tenant == r.tenant && m.page == r.page) (fun m => { m with freed := true, left := (hand.toList) }) s.tier.moves } }
  (s.tierRegs r.tenant).mover

/-- Perform a placement entry that left its ring (R290). An entry that an earlier one of the same tick overtook is refused now. -/
def State.admitPlacement (s : State) (t seq : Nat) : State :=
  let e := s.entryOf t seq
  let tag := entryTag e
  let st := s.placeStatus t e
  if st != 0 then (s.bump 0xE0A016 1).placeDone t seq st tag 0 else
  let page := eNat e 24 8 / pageSize
  let board := eNat e 37 1 == 1
  match eNat e 36 1 with
  | 1 =>
    let r : Region := { tenant := t, page, count := eNat e 32 4, pins := 0 }
    let s := s.allocPages t board (regionPages r)
    let s := { s with tier := { s.tier with regions := s.tier.regions ++ [r] } }
    (s.zeroPages { id := 0, tenant := t, board, pages := regionPages r, region := page, seq, tag, tick := s.ftick }).tierRegs t
  | 2 =>
    match s.regionAt t page with
    | none => s
    | some r => (s.freeRegion r).placeDone t seq 0 tag s.ftick
  | _ =>
    match s.regionAt t page with
    | none => s
    | some r =>
      let m : Move := { tenant := t, seq, tag, tick := s.ftick, page, board, left := s.pagesToMove r board }
      { s with tier := { s.tier with moves := s.tier.moves ++ [m] } }.mover

/-! ### Zeroing of pages (R72, R73) -/

/-- One page of a zeroing: done, or its write failed, so that it is retired and another is taken in its place. The list keeps the pages
still to zero. -/
def zeroOne (z : PageZero) (failed : List Nat) (st : State × List Nat) (page : Nat) : State × List Nat :=
  let s := st.1
  match s.pageAt z.tenant page with
  | none => st
  | some p =>
    if !failed.contains page then
      let s := { s with tier := { s.tier with pages := updIf (fun q => q.tenant == z.tenant && q.page == page) (fun q => { q with zero := false }) s.tier.pages } }
      let s := if page < 2 ^ 27 then s.zeroRange z.tenant (page * pageSize) pageSize else s.zeroRange (hidMem z.tenant) (page * pageSize % 2 ^ 48) pageSize
      (s.bump (if z.board then 0xE0200D else 0xE0200C) 1, st.2)
    else
      let s := (s.bump 0xE0200E 1).score (homePart p.home).1 (homePart p.home).2 1024
      match s.takePage z.board with
      | some (s, h) =>
        ({ s with tier := { s.tier with pages := updIf (fun q => q.tenant == z.tenant && q.page == page) (fun q => { q with home := h }) s.tier.pages } },
         st.2 ++ [page])
      | none =>
        ({ s with tier := { s.tier with pages := s.tier.pages.filter fun q => !(q.tenant == z.tenant && q.page == page) } }, st.2)

/-- A model's buffers are zeroed (R72): it takes effect at the next tick, and its entry completes; or no page was left for one of them, and the registration is
undone (R230). -/
def State.modelZeroed (s : State) (z : PageZero) : State :=
  match s.dense.models.find? fun m => m.slot == z.region && m.tenant == z.tenant && !m.ready with
  | none => s
  | some m =>
    if m.pages.all fun n => (s.pageAt z.tenant n).isSome then
      let s := { s with dense := { s.dense with models := updIf (fun x => x.slot == m.slot) (fun x => { x with start := s.ftick + 1, ready := true }) s.dense.models } }
      (s.bump 0xE0800E 1).complete z.tenant z.seq 6 0 0 z.tag z.tick [] 0
    else
      let s := { s with dense := { s.dense with models := s.dense.models.filter fun x => x.slot != m.slot } }
      (((s.dropHidden z.tenant m.pages).pin z.tenant m.pins false).bump 0xE08010 1).complete z.tenant z.seq 6 0x0318 0 z.tag z.tick [] 0

/-- R72, R73: the zeroing of allocated pages ends, and the allocation completes. If no page is left to take a failed one's place, an
allocation of a region is undone with status 0x0503. -/
def execPageZeroingDone (id : Nat) (failed : List Nat) (s : State) : Res := live s fun s =>
  match s.ctl.zeroings.find? fun z => z.id == id with
  | none => s
  | some z =>
    let s := { s with ctl := { s.ctl with zeroings := s.ctl.zeroings.filter fun x => x.id != id } }
    let (s, again) := z.pages.foldl (zeroOne z failed) (s, [])
    let s := s.tierRegs z.tenant
    if !again.isEmpty then s.zeroPages { z with pages := again }
    else if z.seq == 0 then s
    else if z.kind == 6 then s.modelZeroed z
    else
      match s.regionAt z.tenant z.region with
      | none => s
      | some r =>
        if (regionPages r).all fun n => (s.pageAt z.tenant n).isSome then s.placeDone z.tenant z.seq 0 z.tag z.tick
        else (s.freeRegion r).placeDone z.tenant z.seq 0x0503 z.tag z.tick

/-! ### The tier mover (R295 to R297) -/

/-- The page in hand leaves the mover; its waiting writes go to its home (R296). -/
def State.moveEnd (s : State) (m : Move) (page waited : Nat) : State :=
  let any := s.tier.waits.any fun w => w.tenant == m.tenant && w.addr / pageSize == page
  let s := if any then s.bump 0xE0A013 waited else s
  let s := { s with tier := { s.tier with pages := updIf (fun q => q.tenant == m.tenant && q.page == page) (fun q => { q with inMove := false }) s.tier.pages } }
  s.runWaits m.tenant page

/-- Has the mover used its share of the board memory of the frame (R298, R417)? -/
def State.moverSpent (s : State) : Bool := s.sysLimit 3 (s.reg 0x200207 / 4096) ≤ (lk s.sched.sysServed 3).getD 0

/-- R295 to R297: the mover moves the page in hand and switches its home in one step; or the source is unreadable or the destination cannot
be taken, and the move fails. The page taken is zeroed at its handover (R72), and the blocks of board memory are the system queue's (R417). -/
def execPageMove (tenant page : Nat) (bad : Option Nat) (waited : Nat) (s : State) : Res := live s fun s =>
  match s.tier.moves with
  | [] => s
  | m :: rest =>
    match s.pageAt tenant page with
    | none => s
    | some p =>
      if m.tenant != tenant || m.left.head? != some page || s.moverSpent then s else
      if s.movePinned m then
        ((s.moveEnd m page waited).tierRegs tenant).mover
      else if m.freed then
        let s := s.dropPage p
        let s := { s with tier := { s.tier with moves := { m with left := [] } :: rest } }
        ((s.moveEnd m page waited).tierRegs tenant).mover
      else
        let poisonedNow := s.poisoned tenant (page * pageSize) pageSize
        let s := match bad with
          | some off => if poisonedNow then s else (s.readLine tenant (page * pageSize + off % pageSize) 1 true true).1
          | none => s
        match (if poisonedNow || bad.isSome || !s.canTake tenant m.board 1 then none else s.takePage m.board) with
        | none =>
          let s := ({ s with tier := { s.tier with moves := rest } }.bump 0xE0A018 1).placeDone tenant m.seq 0x0505 m.tag m.tick
          (s.moveEnd m page waited).mover
        | some (s, h) =>
          let (map, n) := if m.board then s.packPage tenant page else ([], 0)
          let home := match h with | .board ch _ _ _ _ => PHome.board ch map (chunksFor n) 0 n | x => x
          let s := if m.board then ((s.bump 0xE0A00E 1).bump 0xE0A010 512).bump 0xE0A011 n else s.bump 0xE0A00F 1
          let s := ((s.bump (if m.board then 0xE0200D else 0xE0200C) 1).serveNow 3 (systemTenant, true, 512)).giveHome p.home p.poisoned
          let s := { s with tier := { s.tier with
              pages := updIf (fun q => q.tenant == tenant && q.page == page) (fun q => { q with home, poisoned := false }) s.tier.pages
              moves := { m with left := m.left.drop 1 } :: rest } }
          ((s.moveEnd m page waited).tierRegs tenant).mover

/-- R294: a write to a board-homed block. -/
def execBoardBlockWrite (tenant addr : Nat) (data : List Byte) (s : State) : Res := live s fun s =>
  match s.pageAt tenant (addr / pageSize) with
  | none => s
  | some p =>
    if p.inStacks || p.zero || data.isEmpty || addr % 4096 + data.length > 4096 then s
    else if p.inMove then s.waitMove { tenant, addr, data, host := none, peer := none }
    else s.memWrite tenant addr data

/-- R294: the mover repacks a board page whose dead sectors exceed a quarter of its extent. -/
def execBoardPageRepack (tenant page : Nat) (s : State) : Res := live s fun s =>
  match s.pageAt tenant page with
  | none => s
  | some p =>
    match p.home with
    | .board _ _ chunks dead _ => if p.inMove || dead * 4 ≤ chunks * 1024 then s else (s.repackPage p).tierRegs tenant
    | .stack _ => s

/-- R303: a whole stack or board channel stops answering. -/
def execTierPartFail (board : Bool) (n : Nat) (s : State) : Res := live s fun s =>
  let k := (if board then 0x601101 else 0x600101) + n
  let down := if board then 3 else 2
  if n ≥ (if board then 8 else 12) || s.reg k == down then s else
  let s := (s.setReg k down).bump 0xE0A019 1
  let s := (s.setReg 0x600004 (s.freePages false)).setReg 0x601005 (s.freePages true)
  s.raiseFault 6 s.node (if board then partBoard else partStack) n 0

/-! ### Late and failed accesses (R28, R55, R56, R300 to R302) -/

/-- R56, R300, R302: an access completes, late or poisoned or neither, and the context that waits for it becomes ready; for the cycles of `stall` its spindle
had none to run. -/
def execAccessComplete (id ns : Nat) (bad badAgain : Bool) (x : AccessEnd) (s : State) : Res := live s fun s =>
  match s.tier.accesses.find? fun a => a.id == id with
  | none => s
  | some a =>
    if !s.readOk (.access id) then s else
    let s := s.readDone (.access id)
    let s := { s with tier := { s.tier with accesses := s.tier.accesses.filter fun x => x.id != id } }
    let late := decide (a.tier ≤ 2 ∧ s.reg (0x602001 + a.tier) < ns)
    let s := s.bumpIf late (0xE0A001 + a.tier)
    let s := if a.tier ≤ 1 then
        let part := match s.pageAt a.tenant (a.addr / pageSize) with | some p => homePart p.home | none => (partStack, 0)
        let s := (s.bump (if a.tier == 0 then 0xE0A00A else 0xE0A00C) x.corrected).score part.1 part.2 x.corrected
        if a.q.isSome then s else (s.readLine a.tenant a.addr 1 bad badAgain).1
      else s
    match a.ctx with
    | none => s
    | some (sp, c) =>
      let s := s.countStall sp none x.stall
      let p := s.sp sp
      let ctxs := p.ctxs.modify c fun x => if x.st == 3 then { x with st := 1, since := s.ctl.stamp, loaded := true } else x
      (s.stampUp.setSp sp { p with ctxs }).schedule sp

/-- The rank of a tier among accesses issued at one instant: flash, then board, then stacks (R301). -/
def tierRank (t : Nat) : Nat := match t with | 2 => 0 | 1 => 1 | _ => 2

/-- R301: a stage misses its deadline while accesses of it are outstanding: the stall goes to the tier of the earliest one. Every deadline is the instant
at which the guard of the frame begins (R26, R29). -/
def execStageDeadline (stage : Nat) (q : QName) (cycles : Nat) (s : State) : Res := live s fun s =>
  let s := { s with time := { s.time with guard := true } }
  let mine := s.tier.accesses.filter fun a => a.stage == stage && a.q == some q && a.tier ≤ 2
  match (sortBy (fun (a b : Access) => a.issued < b.issued || (a.issued == b.issued && tierRank a.tier < tierRank b.tier)) mine).head? with
  | none => s
  | some a => (s.bump (0xE0A004 + 2 * a.tier) 1).bump (0xE0A005 + 2 * a.tier) cycles

end Sys2Proof.Machine
end

