-- ==== Sys2Proof/Machine/Dense.lean ====
section
/-! DEFINITION. Dense layers: models, jobs, steps, conversion, tile and element items, weight staging and refetches (R107 to R109, R191, R226
to R249). -/

namespace Sys2Proof.Machine

/-! ### Layer records (R228 to R230) -/

/-- A layer record (R228). `res` is the sum of its reserved fields. -/
def layerOf (e : Entry) : Layer where
  op := eNat e 0 1
  inFmt := eNat e 1 1
  outFmt := eNat e 2 1
  fn := eNat e 3 1
  inBuf := eNat e 4 2
  in2 := eNat e 6 2
  outBuf := eNat e 8 2
  tier := eNat e 10 1
  n := eNat e 12 4
  l := eNat e 16 4
  eps := eF32 e 20
  param := eNat e 24 8
  dataAddr := eNat e 32 8
  scaleAddr := eNat e 40 8
  blocks := eNat e 48 4
  fmt := eNat e 52 1 % 16
  tagBase := eNat e 53 1
  chanLen := eNat e 54 2
  expAddr := eNat e 56 8
  res := eNat e 11 1 + eNat e 52 1 / 16 + (if eNat e 0 1 != 1 && !eZero e 32 32 then 1 else 0)

/-- A format code that is not reserved (R83). -/
def fmtKnown (f : Nat) : Bool := f ≤ 0xA

/-- Reserved fields, operation and format codes of a layer (R228, R229): the first check of R230. -/
def layerForm (y : Layer) : Bool :=
  let norm := y.op == 5 || y.op == 6
  y.res == 0 && 1 ≤ y.op && y.op ≤ 8 && (if y.op == 1 then fmtKnown y.inFmt && fmtKnown y.fmt else y.inFmt == 0) &&
  (if y.op == 8 then y.outFmt == 0 else y.outFmt == 7 || y.outFmt == 9) && (if y.op == 4 then 1 ≤ y.fn && y.fn ≤ 4 else y.fn == 0) &&
  y.inBuf ≤ 63 && (if y.op == 2 || y.op == 3 then y.in2 ≤ 63 else y.in2 == 0xFFFF) && 1 ≤ y.outBuf && y.outBuf ≤ 63 &&
  (if y.op == 1 then y.tier ≤ 1 else y.tier == 0) && (y.op == 1 || y.n == y.l) &&
  (if norm then isFinite y.eps && !fLt y.eps 0#32 else y.eps == 0#32) && (y.op == 1 || norm || y.param == 0)

/-- The format code of a buffer that holds the U32 of an index of maximum: no layer reads it as numbers. -/
def fmtU32 : Nat := 11

/-- The length of a layer's output per vector: one for an index of maximum (R229). -/
def outLen (y : Layer) : Nat := if y.op == 8 then 1 else y.n

/-- The format of a layer's output. -/
def outFmtOf (y : Layer) : Nat := if y.op == 8 then fmtU32 else y.outFmt

/-- The bytes of an element of a buffer. -/
def elemWidth (fmt : Nat) : Nat := if fmt == 9 || fmt == fmtU32 then 4 else 2

/-- The buffers that a layer reads. -/
def layerReads (y : Layer) : List Nat := if y.op == 2 || y.op == 3 then [y.inBuf, y.in2] else [y.inBuf]

/-- Lengths and formats of the buffers, and whether every layer agrees with them (R230): a layer reads a filled buffer of length L, and the
job input's length is that of its first reader. -/
def bufferPlan (layers : List Layer) : List (Nat × Nat × Nat) × Bool :=
  layers.foldl (fun (env, ok) y =>
    let (env, ok) := (layerReads y).foldl (fun (e : List (Nat × Nat × Nat) × Bool) b =>
      match lk e.1 b with
      | some (len, f) => (e.1, e.2 && len == y.l && f != fmtU32)
      | none => if b == 0 then (put e.1 0 (y.l, 0), e.2) else (e.1, false)) (env, ok)
    match lk env y.outBuf with
    | some (len, f) => (env, ok && len == outLen y && f == outFmtOf y)
    | none => (put env y.outBuf (outLen y, outFmtOf y), ok)) ([], true)

/-- Blocks of a channel of `l` elements (R92). -/
def chanBlocks (l : Nat) : Nat := cdiv l 32

/-- The end of a data stream by the walk of its headers (R103). -/
def State.walkStream (s : State) (t fmt : Nat) : Nat → Nat → Nat
  | 0, a => a
  | n + 1, a => State.walkStream s t fmt n (a + 2 + payloadLen fmt (s.loadNat t a 2 / 4096 % 2 == 1))

/-- The bytes of a layer's data stream. -/
def State.dataBytes (s : State) (t : Nat) (y : Layer) : Nat :=
  if y.op != 1 then 0 else if blockScaled y.fmt then s.walkStream t y.fmt y.blocks y.dataAddr - y.dataAddr else y.n * y.l * 2

/-- The bytes of a layer's weights: its data stream and its scale records. -/
def State.weightBytes (s : State) (t : Nat) (y : Layer) : Nat :=
  if y.op != 1 then 0 else s.dataBytes t y + (if blockScaled y.fmt then 4 * y.blocks else 0)

/-- The memory that a layer names: weight streams and parameters, as address and length. -/
def State.layerRanges (s : State) (t : Nat) (y : Layer) : List (Nat × Nat) :=
  let w := if y.op != 1 then [] else
    (y.dataAddr, s.dataBytes t y) :: (if blockScaled y.fmt then [(y.scaleAddr, 4 * y.blocks), (y.expAddr, y.n)] else [])
  w ++ (if y.param == 0 then [] else [(y.param, if y.op == 6 then 8 * y.n else 4 * y.n)])

/-- Do weights and input pair (R232), and does the descriptor agree with the layer (R230)? -/
def weightsOk (y : Layer) : Bool :=
  y.op != 1 || ((blockScaled y.fmt && blockScaled y.inFmt || (y.fmt == 7 || y.fmt == 8) && (y.inFmt == 7 || y.inFmt == 8)) &&
    y.chanLen == y.l && y.blocks == y.n * chanBlocks y.l)

/-! ### Model entries (R227, R230, R231) -/

/-- The layer records of a model entry. -/
def State.layersAt (s : State) (t : Nat) (e : Entry) : List Layer :=
  (List.range (eNat e 22 2)).map fun i => layerOf (s.load t (eNat e 28 8 + 64 * i) 64)

/-- The parameter total: the weights of the linear layers (R230). -/
def paramTotal (layers : List Layer) : Nat := layers.foldl (fun a y => if y.op == 1 then a + y.n * y.l else a) 0

/-- The pages of the buffers 2 and above, each for B_max vectors (R228). -/
def bufferPages (bmax : Nat) (plan : List (Nat × Nat × Nat)) : Nat :=
  plan.foldl (fun a (b, len, f) => if b < 2 then a else a + cdiv (bmax * len * elemWidth f) pageSize) 0

/-- The model that a handle names at this tick (R227). -/
def State.modelNow (s : State) (t h : Nat) : Option Model :=
  s.dense.models.find? fun m => m.tenant == t && m.handle == h && m.ready && m.start ≤ s.ftick && (match m.stop with | some e => s.ftick < e | none => true)

/-- The model that a handle names and that is not being released. -/
def State.modelHeld (s : State) (t h : Nat) : Option Model := s.dense.models.find? fun m => m.tenant == t && m.handle == h && m.stop.isNone

/-- The lowest free model slot. -/
def State.modelSlot (s : State) : Option Nat := (List.range 64).find? fun n => !s.dense.models.any (·.slot == n)

/-- The status of a model registration (R230); 0 passes. A layer table that the tenant does not own in the stacks, or that is unreadable, fails
as a stream outside its pages does. -/
def State.modelStatus (s : State) (t : Nat) (e : Entry) : Nat :=
  let cnt := eNat e 22 2
  let nbuf := eNat e 24 2
  let bmax := eNat e 26 2
  let addr := eNat e 28 8
  let head := eNat e 16 4 != 0 && eZero e 21 1 && eZero e 36 92 && 1 ≤ cnt && cnt ≤ s.reg 0x500005 && 2 ≤ nbuf && nbuf ≤ 64 &&
    1 ≤ bmax && bmax ≤ s.reg 0x500001
  if !head then 0x0311
  else if !s.ownedStacks t addr (64 * cnt) || s.poisoned t addr (64 * cnt) then 0x0316
  else
    let ys := s.layersAt t e
    let (plan, planOk) := bufferPlan ys
    if !ys.all layerForm then 0x0311
    else if (s.modelHeld t (eNat e 16 4)).isSome then 0x0312
    else if !ys.all (fun y => 1 ≤ y.l && y.l ≤ s.reg 0x500003 && 1 ≤ y.n && y.n ≤ s.reg 0x500003 &&
        (y.op != 1 || y.l ≤ s.reg 0x500002 && bmax * y.l ≤ s.reg 0x500006)) then 0x0313
    else if !planOk || plan.any (fun b => nbuf ≤ b.1) then 0x0314
    else if !ys.all weightsOk then 0x0315
    else if !ys.all (fun y => (s.layerRanges t y).all fun r => s.rangePages t r.1 r.2 fun p => p.inStacks == (y.tier == 0)) then 0x0316
    else
      let board := ys.any (·.tier == 1)
      if paramTotal ys > s.reg (if board then 0x500008 else 0x500007) || (board && s.tier.bfree.isEmpty) ||
          ys.any (fun y => y.tier == 1 && s.reg 0x50000A < s.weightBytes t y) then 0x0317
      else if !s.canTake t false (bufferPages bmax plan) || s.modelSlot.isNone then 0x0318 else 0

/-- The status of a model entry; a release needs a registered handle. -/
def State.modelEntryStatus (s : State) (t : Nat) (e : Entry) : Nat :=
  match eNat e 20 1 with
  | 1 => s.modelStatus t e
  | 2 => if !eZero e 21 1 || !eZero e 36 92 then 0x0311 else if ((s.modelHeld t (eNat e 16 4)).filter (·.ready)).isNone then 0x0312 else 0
  | _ => 0x0311

/-- The check of a model entry (R230). -/
def checkModel (t : Nat) (s : State) (e : Entry) : State × Chk :=
  let st := s.modelEntryStatus t e
  if st == 0 then (s, .pass 1 false) else
  let bad := eNat e 20 1 == 1 && st == 0x0311 && s.ownedStacks t (eNat e 28 8) (64 * eNat e 22 2)
  let codes := if bad then (s.layersAt t e).flatMap fun y => [y.inFmt, y.outFmt, y.fmt] else []
  ((s.bump 0xE08010 1).bumpIf (codes.any fun c => 0xB ≤ c && c ≤ 0xF) 0xE03011, .refuse st)

/-- R230: the check of a registration. -/
def execModelRegister (tenant seq : Nat) (bad : Bool) (s : State) : Res := live s fun s =>
  s.ringRow tenant seq bad 6 (opIs 20 4 1 [1, 2]) (checkModel tenant)

/-- R227: the check of a release. -/
def execModelRelease (tenant seq : Nat) (bad : Bool) (s : State) : Res := live s fun s =>
  s.ringRow tenant seq bad 6 (opIs 20 4 2 [1, 2]) (checkModel tenant)

/-- Perform a model entry that left its ring (R227, R231): it takes effect at the next tick, once the pages of the buffers are zeroed (R72). -/
def State.admitModel (s : State) (t seq : Nat) : State :=
  let e := s.entryOf t seq
  let h := eNat e 16 4
  let st := s.modelEntryStatus t e
  if st != 0 then (s.bump 0xE08010 1).complete t seq 6 st 0 0 0 [] 0 else
  if eNat e 20 1 == 2 then
    let stop (m : Model) : Model := { m with stop := some (s.ftick + 1) }
    let s := (s.dense.models.filter fun m => m.tenant == t && m.handle == h && m.stop.isNone).foldl (fun s m => s.setReg (0x501200 + m.slot) 2) s
    let s := { s with dense := { s.dense with models := updIf (fun m => m.tenant == t && m.handle == h && m.stop.isNone) stop s.dense.models } }
    (s.bump 0xE0800F 1).complete t seq 6 0 0 0 s.ftick [] 0
  else
    match s.modelSlot with
    | none => s
    | some slot =>
      let ys := s.layersAt t e
      let bmax := eNat e 26 2
      let pages := s.hiddenPages t (bufferPages bmax (bufferPlan ys).1)
      let ranges := ys.flatMap (s.layerRanges t)
      let pins := (s.tier.regions.filter fun r => r.tenant == t && ranges.any fun x =>
        0 < x.2 && x.1 < (r.page + r.count) * pageSize && r.page * pageSize < x.1 + x.2).map (·.page)
      let m : Model := {
        slot, tenant := t, handle := h, bmax, layers := ys, params := paramTotal ys, start := s.ftick + 1, stop := none, pins, pages, ready := pages.isEmpty }
      let s := (s.allocPages t false pages).pin t pins true
      let s := { s with dense := { s.dense with models := s.dense.models ++ [m] } }.tierRegs t
      if pages.isEmpty then (s.bump 0xE0800E 1).complete t seq 6 0 0 0 s.ftick [] 0
      else s.zeroPages { id := 0, tenant := t, board := false, pages, region := slot, seq, tag := 0, tick := s.ftick, kind := 6 }

/-- A tick applies the registrations and releases that name it (R227): a released model leaves once no job uses it, and the pages of its buffers
are zeroed (R231). -/
def State.modelsTick (s : State) : State :=
  let s := (s.dense.models.filter fun m => m.start == s.ftick && m.ready).foldl (fun s m =>
    ((s.setReg (0x501000 + m.slot) (m.tenant + m.handle * 2 ^ 16 + m.layers.length * 2 ^ 48)).setReg (0x501100 + m.slot) m.params).setReg
      (0x501200 + m.slot) (if m.stop.isSome then 2 else 1)) s
  let gone := s.dense.models.filter fun m => (match m.stop with | some e => e ≤ s.ftick | none => false) && !s.dense.jobs.any fun j => j.model == m.slot
  gone.foldl (fun s m =>
    let s := (s.dropHidden m.tenant m.pages).bump 0xE0200C m.pages.length
    let s := { s with dense := { s.dense with models := s.dense.models.filter fun x => x.slot != m.slot } }
    ((((s.pin m.tenant m.pins false).setReg (0x501000 + m.slot) 0).setReg (0x501100 + m.slot) 0).setReg (0x501200 + m.slot) 0).tierRegs m.tenant) s

/-! ### The plan of a job (R240, R409, R411) -/

/-- Stream cycles of a number of bytes: 19 per 512 (R240). -/
def streamCycles (bytes : Nat) : Nat := cdiv (19 * bytes) 512

/-- MACs per cycle of the slower of two formats (R52, R110). -/
def macRate (a b : Nat) : Nat :=
  let r (f : Nat) : Nat := if f ≤ 3 then 128 else if f ≤ 6 then 64 else 32
  min (r a) (r b)

/-- The bytes of one converted or weight channel of `l` elements. -/
def channelBytes (fmt l : Nat) : Nat := if blockScaled fmt then chanBlocks l * (6 + 4 * fmtBits fmt) else 2 * l

/-- The width of a buffer of a model, by its number; buffer 0 has the job's input format. -/
def bufWidth (plan : List (Nat × Nat × Nat)) (inFmt b : Nat) : Nat :=
  if b == 0 then elemWidth inFmt else match lk plan b with | some (_, f) => elemWidth f | none => 4

/-- The cost of a conversion item (R240). -/
def convCost (plan : List (Nat × Nat × Nat)) (inFmt : Nat) (y : Layer) : Nat :=
  max (cdiv y.l 64 + cdiv y.l 32) (streamCycles (y.l * bufWidth plan inFmt y.inBuf + channelBytes y.inFmt y.l))

/-- The cost of tile `j` of a linear layer (R240). -/
def tileCost (y : Layer) (b j : Nat) : Nat :=
  let rows := min 128 (y.n - 128 * j)
  let bias := y.param != 0
  let compute := cdiv (128 * y.l * b) (macRate y.fmt y.inFmt) + (if bias then cdiv rows 64 * b else 0)
  let bytes := rows * channelBytes y.fmt y.l + b * channelBytes y.inFmt y.l + (if bias then 4 * rows else 0) + rows * b * elemWidth y.outFmt
  max compute (streamCycles bytes)

/-- The cost of an element item (R240). -/
def elemCost (plan : List (Nat × Nat × Nat)) (inFmt : Nat) (y : Layer) : Nat :=
  let v := cdiv y.l 64
  let t := cdiv y.l 16
  let compute := match y.op with
    | 4 => if y.fn == 1 then v else cdiv ((if y.fn == 2 then 8 else if y.fn == 3 then 3 else 2) * y.l) 64 + cdiv (2 * y.l) 16
    | 5 => cdiv (4 * y.l) 64 + 2
    | 6 => cdiv (8 * y.l) 64 + 2
    | 7 => cdiv (4 * y.l) 64 + t + 2
    | 8 => v + 8
    | _ => v
  let reads := (layerReads y).foldl (fun a b => a + y.l * bufWidth plan inFmt b) 0
  let params := if y.param == 0 then 0 else if y.op == 6 then 8 * y.l else 4 * y.l
  max compute (streamCycles (reads + params + outLen y * elemWidth (outFmtOf y)))

/-- The tiles of a linear layer. -/
def tileCount (y : Layer) : Nat := cdiv y.n 128

/-- C_job: the item costs of a job's plan (R409). -/
def jobCycles (m : Model) (inFmt b first last : Nat) : Nat :=
  let plan := (bufferPlan m.layers).1
  (((m.layers.take (last + 1)).drop first)).foldl (fun a y =>
    if y.op == 1 then a + b * convCost plan inFmt y + (List.range (tileCount y)).foldl (fun c j => c + tileCost y b j) 0
    else a + b * elemCost plan inFmt y) 0

/-- The planned frame count of a job of `cost` units beside `q` units of the set (R411); none if the set has no capacity. -/
def State.frameCount (s : State) (set q cost : Nat) : Option Nat :=
  let g := s.reg 0x200205 * set * s.reg 0xB00003 / (2432 * 256)
  if g == 0 then none else some (max 1 (cdiv (q + cost) g))

/-- The size of the dense set that the role and the spindles in service give (R246). -/
def State.denseCount (s : State) : Nat :=
  let up := s.upSpindles.length
  match nodeRole s.map.entries s.node with | 2 => up | 3 => s.reg 0x500009 * up / 256 | _ => 0

/-! ### Job entries (R243, R244) -/

/-- The status of a job entry (R244); 0 passes. -/
def State.jobStatus (s : State) (t : Nat) (e : Entry) : Nat :=
  let fmt := eNat e 50 1
  let b := eNat e 44 2
  let first := eNat e 46 2
  let last := eNat e 48 2
  let out := eNat e 32 8
  if !((fmt == 7 || fmt == 8 || fmt == 9) && eNat e 51 1 < 2 && eZero e 52 76) then 0x0301
  else
    match s.modelNow t (eNat e 40 4) with
    | none => 0x0302
    | some m =>
      let plan := (bufferPlan m.layers).1
      let len (b : Nat) : Nat := ((lk plan b).map (·.1)).getD 0
      if !s.owned t (eNat e 24 8) (b * len 0 * elemWidth fmt) || out % 64 != 0 ||
          !s.owned t out (64 + b * len 1 * bufWidth plan fmt 1) then 0x0303
      else if !(1 ≤ b && b ≤ m.bmax && first ≤ last && last < m.layers.length && (m.layers[last]?.map (·.outBuf)) == some 1) then 0x0304
      else if nodeRole s.map.entries s.node ≤ 1 then 0x0305
      else if !s.inService t then 0x0306 else 0

/-- The units of a dense job entry (R409). -/
def State.jobUnits (s : State) (t : Nat) (e : Entry) : Nat :=
  match s.modelNow t (eNat e 40 4) with
  | some m => cdiv (jobCycles m (eNat e 50 1) (eNat e 44 2) (eNat e 46 2) (eNat e 48 2)) 2432
  | none => 0

/-- The units of the dense jobs that are admitted and unfinished (R411). -/
def State.denseLoad (s : State) : Nat := s.dense.jobs.foldl (fun a j => if j.done then a else a + j.cost) 0

/-- The check of a job entry (R244): a plan longer than 65,535 frames is refused too. -/
def checkDense (t : Nat) (s : State) (e : Entry) : State × Chk :=
  let s := s.bump 0xE08001 1
  let st := s.jobStatus t e
  if st != 0 then ((s.bump 0xE08003 1).reservedFmt (eNat e 50 1), .refuse st) else
  let cost := s.jobUnits t e
  let f := s.frameCount s.denseCount s.denseLoad cost
  if 65535 < f.getD 65536 then (s.bump 0xE08003 1, .refuse 0x0309)
  else (s, .pass cost (eNat e 51 1 == 1))

/-- R244: the check of a dense job entry. -/
def execDenseJob (tenant seq : Nat) (bad : Bool) (s : State) : Res := live s fun s => s.ringRow tenant seq bad 7 anyEntry (checkDense tenant)

/-- The lowest free job slot. -/
def State.jobSlot (s : State) : Option Nat := (List.range (s.reg 0x50000E)).find? fun n => !s.dense.jobs.any (·.slot == n)

/-! ### Steps and items (R237, R238, R246, R247) -/

/-- A job by its slot. -/
def State.djob (s : State) (slot : Nat) : Option DJob := s.dense.jobs.find? fun j => j.slot == slot

/-- Store it. -/
def State.setDjob (s : State) (j : DJob) : State := { s with dense := { s.dense with jobs := updIf (fun x => x.slot == j.slot) (fun _ => j) s.dense.jobs } }

/-- The model of a job. -/
def State.modelOf (s : State) (j : DJob) : Option Model := s.dense.models.find? fun m => m.slot == j.model

/-- The layer of a job's step in hand. -/
def State.layerOfJob (s : State) (j : DJob) (n : Nat) : Option Layer := (s.modelOf j).bind fun m => m.layers[n]?

/-- The item numbers of a step (R238): tiles from 0, conversion items from 2^19, element items from 0. -/
def stepItems (j : DJob) (y : Layer) (layer : Nat) (conv : Bool) : List Nat :=
  if y.op == 1 && conv then (List.range j.b).map fun b => layer * 2 ^ 20 + 2 ^ 19 + b
  else if y.op == 1 then (List.range (tileCount y)).map fun i => layer * 2 ^ 20 + i
  else (List.range j.b).map fun b => layer * 2 ^ 20 + b

/-- Deal the items of a job's step, in ascending item number (R237), to the spindles of the dense set (R246; the choice among the set is the planner's, entry
7). The items read the buffers as the step finds them. -/
def State.dealStep (s : State) (j : DJob) (y : Layer) (layer : Nat) (conv : Bool) : State :=
  let items := stepItems j y layer conv
  let s := s.setDjob { j with
    layer, conv1 := conv, started := true, due := false, left := items, conv := if y.op == 1 && !conv then j.conv else [], ins := j.bufs }
  items.foldl (fun s n => s.dealSet {
    skein := j.adm, shingle := n, mask := j.slot, stolen := true, check := false, kind := 1, tenant := j.tenant,
    role := nodeRole s.map.entries s.node, index := 0, shard := 0, version := 0, pass := 0, die := 0, errors := 0 }) s

/-! ### The weight stager (R241) -/

/-- The bytes of the layers that the staging area holds. -/
def State.areaBytes (s : State) : Nat :=
  s.dense.jobs.foldl (fun a j => j.area.foldl (fun a x => a + match s.layerOfJob j x.1 with | some y => s.weightBytes j.tenant y | none => 0) a) 0

/-- The board-tier layer that the stager reads next for a job. -/
def State.nextStage (s : State) (j : DJob) : Option (Nat × Layer) :=
  if j.done || j.status != 0 then none else
  ((List.range (j.last + 1)).filterMap fun n => (s.layerOfJob j n).map fun y => (n, y)).find? fun (n, y) =>
    j.first ≤ n && y.op == 1 && y.tier == 1 && !j.staged.contains n && (lk j.area n).isNone

/-- The stager asks for a job's next layers, in layer order, as long as the staging area and the stacks have room (R241, R417). Fuel: the layers. -/
def stageJob : Nat → Nat → State → State
  | 0, _, s => s
  | n + 1, slot, s =>
    match (s.djob slot).bind fun j => (s.nextStage j).map fun x => (j, x) with
    | none => s
    | some (j, layer, y) =>
      let bytes := s.weightBytes j.tenant y
      let pages := cdiv bytes pageSize
      if s.reg 0x50000A < s.areaBytes + bytes || !s.canTake j.tenant false pages then s else
      let (s, mine) := s.takeHidden j.tenant false pages
      let s := s.setDjob { j with area := j.area ++ [(layer, mine)] }
      stageJob n slot (s.askRead 3 j.tenant j.bulk (cdiv bytes 4096) (.stage slot layer))

/-- The stager goes on, the job admitted first first (R241). -/
def State.stageNext (s : State) : State := s.dense.jobs.foldl (fun s j => stageJob (j.last + 1) j.slot s) s

/-- A staged layer in the staging area: its data stream, then its scale records. -/
def stagedLayer (y : Layer) (pages : List Nat) (dataBytes : Nat) : Layer :=
  let base := (pages.headD 0 * pageSize) % 2 ^ 48
  { y with dataAddr := base, scaleAddr := base + dataBytes }

/-- Copy bytes of a tenant into its hidden pages; a line that cannot be read stays unreadable (R302). -/
def State.stageBytes (s : State) (t src dst n : Nat) : State :=
  let s' := s.hidStore t dst (s.load t src n)
  (List.range (cdiv n 64)).foldl (fun s' i =>
    if s.poisoned t (src + 64 * i) (min 64 (n - 64 * i)) then s'.poisonLine (hidMem t) (dst + 64 * i) else s') s'

/-- The layer is in the staging area, whole. -/
def State.stageIn (s : State) (j : DJob) (y : Layer) (pages : List Nat) : State :=
  let n := s.dataBytes j.tenant y
  let z := stagedLayer y pages n
  let s := s.stageBytes j.tenant y.dataAddr z.dataAddr n
  if blockScaled y.fmt then s.stageBytes j.tenant y.scaleAddr z.scaleAddr (4 * y.blocks) else s

/-- Is no check of a sampled item of the job open (R78, R238)? -/
def State.checksDone (s : State) (slot : Nat) : Bool := !s.ctl.checks.any fun k => k.item.kind == 1 && k.item.mask == slot && k.out == 0

/-- The settled checks of a job's sampled items need not be kept. -/
def State.dropJobChecks (s : State) (slot : Nat) : State :=
  { s with ctl := { s.ctl with checks := s.ctl.checks.filter fun k => !(k.item.kind == 1 && k.item.mask == slot) } }

/-- The stager discards a staged layer whose last tile has ended, the checkers' included (R241). -/
def State.unstage (s : State) (slot : Nat) : State :=
  match s.djob slot with
  | none => s
  | some j =>
    match lk j.area j.layer with
    | none => s
    | some pages =>
      if !j.started || j.conv1 || j.due || !j.left.isEmpty || !s.checksDone slot then s else
      ((s.setDjob { j with area := del j.area j.layer }).dropHidden j.tenant pages).stageNext

/-- A job whose run has ended needs no staged layer any more. -/
def State.endStaging (s : State) (slot : Nat) : State :=
  match s.djob slot with
  | none => s
  | some j =>
    let s := s.dropRead fun w => match w with | .stage k _ => k == slot | _ => false
    let s := (s.setDjob { j with area := [] }).dropHidden j.tenant (j.area.flatMap (·.2))
    if j.area.isEmpty then s else s.stageNext

/-- Admit a dense job into a job slot (R244, R411). -/
def State.admitDense (s : State) (t seq : Nat) : State :=
  let e := s.entryOf t seq
  let st := s.jobStatus t e
  let cost := s.jobUnits t e
  let f := s.frameCount s.denseCount s.denseLoad cost
  match s.modelNow t (eNat e 40 4), s.jobSlot, (if st == 0 then f else none) with
  | some m, some slot, some frames =>
    if 65535 < frames then (s.bump 0xE08003 1).complete t seq 7 0x0309 0 (entryTag e) 0 [] 0 else
    let j : DJob := {
      slot, model := m.slot, seq, tag := entryTag e, tenant := t, handle := m.handle, inAddr := eNat e 24 8, outAddr := eNat e 32 8, b := eNat e 44 2,
      first := eNat e 46 2, last := eNat e 48 2, inFmt := eNat e 50 1, bulk := eNat e 51 1 == 1, adm := s.ftick, frames, cost,
      ratio := s.reg (pagedKey 0x3044 t), limit := s.reg (pagedKey 0x3048 t), layer := eNat e 46 2 }
    ({ s with dense := { s.dense with jobs := s.dense.jobs ++ [j] } }.bump 0xE08002 1).stageNext
  | _, _, _ => (s.bump 0xE08003 1).complete t seq 7 (if st == 0 then 0x0309 else st) 0 (entryTag e) 0 [] 0

/-! ### The output of a job (R245, R247) -/

/-- The flags of a job (R245). -/
def jobFlags (j : DJob) (late : Bool) : Nat := flagWord [late, j.integrity, 0 < j.sat || 0 < j.ovf, 0 < j.nan]

/-- A value of a buffer as bytes of its format (R228). -/
def bufBytes (fmt : Nat) (x : F32) : List Byte := if fmt == 7 then leBytes 2 (toPlain 7 x).1 else leBytes 4 x.toNat

/-- The header of a job's output (R245). -/
def jobHeader (j : DJob) (late : Bool) (n : Nat) : List Byte :=
  leBytes 8 j.tag ++ leBytes 8 j.adm ++ leBytes 4 j.handle ++ leBytes 2 j.status ++ leBytes 2 (jobFlags j late) ++ leBytes 2 j.b ++
  leBytes 2 j.frames ++ leBytes 4 n ++ leBytes 4 (sat32 j.sat) ++ leBytes 4 (sat32 j.nan) ++ leBytes 4 (sat32 j.esc) ++
  leBytes 4 (sat32 j.boardStall) ++ leBytes 4 (sat32 j.stackStall) ++ leBytes 12 0

/-- Complete a job whose output is written, in the frame before its return tick or as soon as it is late (R244, R247). -/
def State.finishJob (s : State) (j : DJob) : State :=
  let ret := j.adm + j.frames
  if !j.done || s.ftick + 1 < ret then s else
  let lateBy := s.ftick + 1 - ret
  let s := (s.bumpIf (0 < lateBy) 0xE0800B).bump 0xE0800C lateBy
  let s := s.bumpIf j.integrity 0xE0800D
  let s := { s with dense := { s.dense with jobs := s.dense.jobs.filter fun x => x.slot != j.slot } }
  s.complete j.tenant j.seq 7 j.status (jobFlags j (0 < lateBy)) j.tag j.adm [] 0

/-- Write the output header and the vectors of a job (R245); an unwritable area gives status 0x0308. -/
def State.jobOutput (s : State) (j : DJob) (bad : Bool) : State :=
  match s.modelOf j with
  | none => s
  | some m =>
    let (len, f) := ((lk (bufferPlan m.layers).1 1).getD (0, 9))
    let vs := ((lk j.bufs 1).getD [])
    let body := if j.status != 0 then [] else vs.flatMap fun v => v.flatMap (bufBytes f)
    let whole := 64 + j.b * len * elemWidth f
    if bad || !s.owned j.tenant j.outAddr whole || s.rangeFailed j.tenant j.outAddr whole then
      let j := { j with status := if j.status == 0 then 0x0308 else j.status, done := true }
      (s.setDjob j).finishJob j
    else
      let j := { j with done := true }
      let s := s.memWrite j.tenant j.outAddr (jobHeader j (j.adm + j.frames ≤ s.ftick) len ++ body)
      (s.setDjob j).finishJob j

/-- R237, R238, R242, R245: once every item of the step in hand has written its output and every check of its sampled items is settled (R78), the next step is
dealt, or the output written. A tile step whose board-tier layer is not staged stalls. -/
def execStepDeal (job : Nat) (bad : Bool) (s : State) : Res := live s fun s =>
  match s.djob job with
  | none => s
  | some j =>
    if j.done || j.due || !j.left.isEmpty || !s.checksDone job then s else
    let s := (s.dropJobChecks job).unstage job
    let j := (s.djob job).getD j
    let (layer, conv) := if !j.started then (j.first, true) else if j.conv1 then (j.layer, false) else (j.layer + 1, true)
    if j.status != 0 || j.last < layer then
      let s := s.endStaging job
      s.jobOutput ((s.djob job).getD j) bad
    else
    match s.layerOfJob j layer with
    | none => s
    | some y =>
      if y.op != 1 then s.dealStep j y layer false
      else if conv then s.dealStep j y layer true
      else if y.tier == 1 && !j.staged.contains layer then
        ((s.setDjob { j with layer, conv1 := true, due := true }).bump 0xE08007 1).bump 0xE0A006 1
      else s.dealStep j y layer false

/-- R241, R242: a board-tier layer is wholly staged; the operand says how many cycles after its tile step was due. -/
def execLayerStaged (job layer late : Nat) (s : State) : Res := live s fun s =>
  match s.djob job with
  | none => s
  | some j =>
    match s.layerOfJob j layer, lk j.area layer with
    | some y, some pages =>
      if j.done || j.staged.contains layer || j.area.any (fun x => x.1 < layer && !j.staged.contains x.1) || !s.readOk (.stage job layer) then s
      else
        let s := ((s.readDone (.stage job layer)).bump 0xE08011 (s.weightBytes j.tenant y)).stageIn j y pages
        let j := { j with staged := j.staged ++ [layer] }
        if j.due && j.layer == layer then
          let s := (s.bump 0xE08008 late).bump 0xE0A007 late
          s.dealStep { j with boardStall := j.boardStall + late } y layer false
        else s.setDjob j
    | _, _ => s

/-! ### Items -/

/-- What an item's arithmetic adds to its job (R245). -/
def addToJob (j : DJob) (c : NumCnt) : DJob :=
  { j with sat := j.sat + c.clip + c.sat, nan := j.nan + c.nan, esc := j.esc + c.escW, ovf := j.ovf + c.ovf }

/-- The bytes of dense outputs, in order of vector and then row (R238). -/
def outBytes (fmt : Nat) (vs : List (List F32)) : List Byte := vs.flatMap fun v => v.flatMap (bufBytes fmt)

/-- The bytes of what a dense item puts out: of a conversion item its data stream and then its scale records. -/
def itemBytes (fmt : Nat) (o : ItemOut) : List Byte :=
  outBytes fmt (o.outs.map fun x => x.2.2.2) ++ (match o.conv with | some (_, img) => img.data ++ img.scales.flatMap (leBytes 4) | none => [])

/-- The digest of a dense item (R238). -/
def denseDigest (outs : List Byte) (c : NumCnt) : W64 :=
  crc64 (outs ++ leBytes 4 (c.clip + c.sat) ++ leBytes 4 (c.ovf + c.isat) ++ leBytes 4 c.nan)

/-- A dense item ends on its spindle: its digest if it is sampled, which lies in the staging region (R239), its context freed; the checker's copy leaves the
job as it is. -/
def State.endDense (s : State) (sp ctx : Nat) (it : Item) (fmt : Nat) (o : ItemOut) (c : NumCnt) (f : DJob → DJob) : State :=
  let s := s.charge (some sp) c
  let d := denseDigest (itemBytes fmt o) c
  let s := if s.ctl.checks.any (fun k => checkOf k it) then
      let p := s.sp sp
      (s.setSp sp { p with dense := { p.dense with digest := some d } }).noteDigest sp it d { o with sums := [c.clip + c.sat, c.nan, c.escW, c.ovf] }
    else s
  let s := if it.check then s else
    match s.djob it.mask with
    | some j => s.setDjob { addToJob (putOuts (f j) o.outs o.conv) c with left := j.left.filter (· != it.shingle) }
    | none => s
  ((s.freeCtx sp ctx).schedule sp).unstage it.mask

/-- The running dense item of a context, with its job and layer. -/
def State.runningDense (s : State) (sp ctx : Nat) : Option (Item × DJob × Layer) :=
  let c := (s.sp sp).ctxs.getD ctx {}
  match c.item with
  | some it =>
    if ctx ≥ 8 || c.st != 2 || it.kind != 1 then none else
    (s.djob it.mask).bind fun j => (s.layerOfJob j (it.shingle / 2 ^ 20)).map fun y => (it, j, y)
  | none => none

/-- One vector of a buffer of a job as its step found it: of the input area for buffer 0, and free values for a buffer that the job has not filled (entry
12). -/
def State.bufVector (s : State) (j : DJob) (b v l : Nat) : List F32 :=
  if b == 0 then
    let w := elemWidth j.inFmt
    readPlain j.inFmt l (s.load j.tenant (j.inAddr + v * l * w) (l * w))
  else
    match ((lk j.ins b).bind fun vs => vs[v]?).filter fun x => x.length == l with
    | some x => x
    | none => (List.range l).map (Config.unfilled j.tenant j.handle b)

/-- Is a vector of the job's input unreadable? -/
def State.inputBad (s : State) (j : DJob) (b v l : Nat) : Bool :=
  let n := l * elemWidth j.inFmt
  b == 0 && (s.poisoned j.tenant (j.inAddr + v * n) n || !s.owned j.tenant (j.inAddr + v * n) n)

/-- A dense item takes the regions of the bobbin that it uses (R239), each zeroed if its owner changes (R71): table slots for a tile's converted input, the
four shingle slots, the filter region for parameters and exponents. The accumulators and the channel-scale registers of a tile are no part of the bobbin:
their zeroing is not counted (R71, R74). -/
def State.useRegions (s : State) (sp : Nat) (o : Owner) (slots : Nat) (filter mac : Bool) (d : DenseBob) (exps : List Int) : State :=
  let p := s.sp sp
  let shslot (k : Nat) : ShSlot := (lk p.shslots k).getD {}
  let s := (List.range slots).foldl (fun s k => s.zeroFor p (slotOf p k).owner o 64) s
  let s := (List.range 4).foldl (fun s k => s.zeroFor p (shslot k).owner o 128) s
  let s := if filter then s.zeroFor p p.filterOwner o 256 else s
  let old := if p.macOwner == some o then p.chanExps else List.replicate 256 0
  s.setSp sp { p with
    tslots := (List.range slots).foldl (fun l k => put l k { slotOf p k with owner := some o }) p.tslots
    shslots := (List.range 4).foldl (fun l k => put l k { shslot k with owner := some o }) p.shslots
    filterOwner := if filter then some o else p.filterOwner
    macOwner := if mac then some o else p.macOwner
    chanExps := if mac then exps ++ old.drop exps.length else p.chanExps
    dense := d }

/-- R232: a conversion item converts one input vector to the layer's input format. The tag base of the converted stream is 0 (entry 52). -/
def execConversionItem (sp ctx : Nat) (r : ConvRun) (s : State) : Res := live s fun s =>
  match s.runningDense sp ctx with
  | none => s
  | some (it, j, y) =>
    let v := it.shingle % 2 ^ 19
    if y.op != 1 || it.shingle % 2 ^ 20 < 2 ^ 19 then s else
    s.withEv sp ctx it r.ev fun s =>
    let s := s.bump 0xE08005 1
    if y.inBuf == 0 && (r.bad || s.inputBad j 0 v y.l) then
      s.endDense sp ctx it 9 {} {} fun j => { j with status := 0x0307 }
    else
      let xs := s.bufVector j y.inBuf v y.l
      let s := s.useRegions sp (itemOwner it) 0 false false { elems := [xs] } []
      let (img, c) := if blockScaled y.inFmt then
          let (e, bs, c) := encodeChannel y.inFmt j.ratio j.limit 0 xs
          (({ data := bs.flatMap blockBytes, scales := bs.map Block.record, exp := e } : RowImg), c)
        else
          let (d, c) := writePlain y.inFmt xs
          ({ data := d, scales := [], exp := 0 }, { c with conv := xs.length })
      s.endDense sp ctx it 9 { conv := some (v, img) } c id

/-- The blocks of a channel stored as an image; F16 and BF16 count as blocks with s = 1 (R232). -/
def imageBlocks (fmt n : Nat) (img : RowImg) : List Block :=
  if blockScaled fmt then splitBlocks fmt n img.data img.scales
  else (chunks 64 img.data).map fun p => { header := 0, record := 0x38, payload := p }

/-- One block of a weight stream as memory has it, at a data address. -/
def State.blockAt (s : State) (t : Nat) (y : Layer) (a b : Nat) : Block :=
  let header := s.loadNat t a 2
  { header, record := s.loadNat t (y.scaleAddr + 4 * b) 4, payload := s.load t (a + 2) (payloadLen y.fmt (header / 4096 % 2 == 1)) }

/-- Successive blocks of a weight stream. A block with a poisoned line can pair with nothing: its header is made to differ. -/
def State.blocksFrom (s : State) (t : Nat) (y : Layer) : Nat → Nat → Nat → List Block
  | 0, _, _ => []
  | n + 1, a, b =>
    let k := s.blockAt t y a b
    let k := if s.poisoned t a (2 + k.payload.length) || s.poisoned t (y.scaleAddr + 4 * b) 4 then { k with header := k.header + 2 ^ 16 } else k
    k :: State.blocksFrom s t y n (a + 2 + k.payload.length) (b + 1)

/-- The weight blocks of rows `r` to `r + n − 1`, in order. -/
def State.weightBlocks (s : State) (t : Nat) (y : Layer) (r n : Nat) : List Block :=
  let per := chanBlocks y.l
  if blockScaled y.fmt then s.blocksFrom t y (n * per) (s.walkStream t y.fmt (r * per) y.dataAddr) (r * per)
  else (List.range n).flatMap fun i =>
    (chunks 64 (s.load t (y.dataAddr + (r + i) * y.l * 2) (y.l * 2))).map fun p => { header := 0, record := 0x38, payload := p }

/-- The exponent of a weight row (R104). -/
def State.rowExp (s : State) (t : Nat) (y : Layer) (r : Nat) : Int :=
  if blockScaled y.fmt then toInt 8 (s.loadNat t (y.expAddr + r) 1) else 0

/-- Round an F32 result once to the output format; a rounding to F16 is a conversion (R101, R232, R233). -/
def roundOut (fmt : Nat) (x : F32) : F32 × NumCnt :=
  if fmt == 7 then let (c, n) := toPlain 7 x; ((toF32 (decodeF ⟨5, 10, 15, 0⟩ c)).1, { n with conv := n.conv + 1 }) else (x, {})

/-- The accumulators of a tile for one vector: a dot product a row (R111). -/
def tileDots (y : Layer) (rows : List (List Block × Int)) (xb : List Block) (xe : Int) : List F32 × NumCnt :=
  fMapCnt (fun (r : List Block × Int) => dotChannels y.fmt y.inFmt r.2 xe r.1 xb) rows

/-- The outputs of a tile for one vector: the bias and the rounding of each accumulator (R232). -/
def tileOuts (y : Layer) (bias : List F32) (acc : List F32) : List F32 × NumCnt :=
  fMapCnt (fun (x : F32 × Nat) =>
    let (d, c1) := match bias[x.2]? with | some b => fAdd x.1 b | none => (x.1, {})
    let (d, c2) := roundOut y.outFmt d
    (d, addCnt c1 c2)) acc.zipIdx

/-- The item contributes nothing: canonical NaN for every output, and the integrity flag (R108, R240). -/
def State.abandonTile (s : State) (sp ctx : Nat) (it : Item) (y : Layer) (b r n : Nat) : State :=
  let outs := (List.range b).map fun v => (y.outBuf, v, r, List.replicate n f32NaN)
  s.endDense sp ctx it y.outFmt { outs } {} fun j => { j with integrity := true }

/-- The memory and the addresses from which a tile's weights stream: the home, or the staging area for a staged layer (R241). -/
def State.weightHome (s : State) (j : DJob) (y : Layer) (layer : Nat) : Nat × Layer :=
  match lk j.area layer with
  | some pages => (hidMem j.tenant, stagedLayer y pages (s.dataBytes j.tenant y))
  | none => (j.tenant, y)

/-- What a tile reads beside its blocks: its bias (a poisoned one has free values, entry 12), and the channel exponents of its rows and of its vectors. -/
def State.tileParams (s : State) (j : DJob) (y : Layer) (r n : Nat) : List F32 × List Int :=
  let a := y.param + 4 * r
  let bias := if y.param == 0 then []
    else if s.poisoned j.tenant a (4 * n) then (List.range n).map fun k => Config.poisonedParam j.tenant (a + 4 * k)
    else readPlain 9 n (s.load j.tenant a (4 * n))
  (bias, (List.range n).map (fun k => s.rowExp j.tenant y (r + k)) ++ (List.range j.b).map fun v => ((lk j.conv v).map (·.exp)).getD 0)

/-- What the bobbin holds of a tile's weights: the blocks that came last into the four shingle slots, and their scale records (R239). -/
def slotBlocks (fmt : Nat) (bs : List Block) : List Block := bs.drop (bs.length - 0x40000 / (2 + payloadLen fmt true))

/-- The tile is computed: its regions hold what R239 says, its accumulators are the dot products, and its outputs go to the job (R111, R232). -/
def State.runTile (s : State) (sp ctx : Nat) (it : Item) (j : DJob) (y : Layer) (r n : Nat) (blocks : List Block) (stall : Nat) : State :=
  let per := chanBlocks y.l
  let (bias, exps) := s.tileParams j y r n
  let slots := cdiv (j.b * channelBytes y.inFmt y.l) 0x8000
  let kept := slotBlocks y.fmt blocks
  let held : DenseBob := { input := j.conv, weights := kept, params := bias, exps, scales := kept.map Block.record }
  let s := s.useRegions sp (itemOwner it) (min 16 slots) true true held exps
  let regs := (s.sp sp).chanExps
  let rows := (chunks per blocks).zipIdx.map fun (bs, k) => (bs, regs.getD k 0)
  let acc := (List.range j.b).map fun v =>
    match lk j.conv v with
    | some img => tileDots y rows (imageBlocks y.inFmt per img) (regs.getD (n + v) 0)
    | none => (List.replicate n f32NaN, ({} : NumCnt))
  let outs := acc.map fun a => tileOuts y bias a.1
  let cnt := (acc ++ outs).foldl (fun a o => addCnt a o.2) {
    escR := if blockScaled y.fmt then (blocks.filter isEscape).length else 0
    badT2 := blocks.foldl (fun a b => a + (blockElems y.fmt b).2) 0 }
  let s := s.setSp sp { s.sp sp with dense := { held with acc := acc.map (·.1) } }
  let s := (s.bump 0xE08004 1).bump 0xE08006 (n * y.l * j.b)
  s.endDense sp ctx it y.outFmt { outs := outs.zipIdx.map fun (o, v) => (y.outBuf, v, r, o.1) } cnt
    fun j => { j with stackStall := j.stackStall + stall }

/-- The context waits: for the bias of a board-tier layer (R55), or for a mismatched block (R107). -/
def State.ctxWaits (s : State) (sp ctx : Nat) : State :=
  let p := s.sp sp
  (s.setSp sp { p with ctxs := p.ctxs.modify ctx fun c => { c with st := 3 } }).schedule sp

/-- The mismatch in hand of a context. -/
def State.mismatchOf (s : State) (sp ctx : Nat) : Option Mismatch := s.ctl.mismatches.find? fun m => m.sp == sp && m.ctx == ctx

/-- Note a context's mismatch, or that it has none. -/
def State.setMismatch (s : State) (sp ctx : Nat) (m : Option Mismatch) : State :=
  { s with ctl := { s.ctl with mismatches := s.ctl.mismatches.filter (fun (x : Mismatch) => !(x.sp == sp && x.ctx == ctx)) ++ m.toList } }

/-- The blocks that a tile's stream delivers from row `r` on for `n` rows: what was applied before a refetch stays (R107); `wrong` come otherwise than memory holds them. -/
def State.tileBlocks (s : State) (sp ctx : Nat) (it : Item) (j : DJob) (y : Layer) (r n : Nat) (wrong : List (Nat × Block)) : List Block :=
  let (t, z) := s.weightHome j y (it.shingle / 2 ^ 20)
  let old := ((s.mismatchOf sp ctx).map (·.applied)).getD []
  let come := ((s.weightBlocks t z r n).zipIdx.map fun (b, k) => (lk wrong (r * chanBlocks y.l + k)).getD b)
  old ++ come.drop old.length

/-- How many blocks of a tile are applied already (R107). -/
def State.tilePast (s : State) (sp ctx : Nat) : Nat := (((s.mismatchOf sp ctx).map (·.applied)).getD []).length

/-- The block number modulo 256 that a block of a tile must carry as its tag (R105). -/
def tileTag (y : Layer) (r k : Nat) : Nat := (y.tagBase + r * chanBlocks y.l + k) % 256

/-- R240: a tile item computes up to 128 output rows for all vectors. The bias of a board-tier layer is loaded first, and the context waits for
it (R55, R417). Every block pairs before it is applied (R106); a mismatched one stalls the item (R107), after which what was paired stays applied; a failed
check at the end of the stream counts as one at its last block (R109). `wrong`: blocks that come otherwise than memory holds them; `stall`: what the streamer
stalled the spindle after the allowance of 0x5000:0B (R242). -/
def execTileItem (sp ctx : Nat) (wrong : List (Nat × Block)) (endBad : Bool) (x : TileRun) (s : State) : Res := live s fun s =>
  match s.runningDense sp ctx with
  | none => s
  | some (it, j, y) =>
    let i := it.shingle % 2 ^ 20
    if y.op != 1 || 2 ^ 19 ≤ i then s else
    let r := 128 * i
    let n := min 128 (y.n - r)
    if y.tier == 1 && y.param != 0 && !((s.sp sp).ctxs.getD ctx {}).loaded then
      let s := s.askRead 3 j.tenant j.bulk 1 (.access s.ctl.next)
      ((s.issue 1 (some (sp, ctx)) j.tenant (y.param + 4 * r) 0 none).stampUp).ctxWaits sp ctx
    else
      let blocks := s.tileBlocks sp ctx it j y r n wrong
      let past := s.tilePast sp ctx
      let tag := tileTag y r
      let last := blocks.length - 1
      let badEnd := endBad && r + n == y.n && past ≤ last
      let fault := if !blockScaled y.fmt then none
        else match (blocks.zipIdx).find? fun b => past ≤ b.2 && !paired y.fmt (tag b.2) b.1 with
          | some b => some (b.2, false)
          | none => if badEnd then some (last, true) else none
      match fault with
      | some (k, atEnd) =>
        let s := (s.bump 0xE0300C 1).bumpIf atEnd 0xE0300F
        (s.setMismatch sp ctx (some { sp, ctx, block := k, expected := tag k, fmt := y.fmt, refetches := 0, applied := blocks.take k })).ctxWaits sp ctx
      | none =>
        s.withEv sp ctx it x.ev fun s =>
        let s := s.setMismatch sp ctx none
        let s := if x.stall == 0 then s else (((s.bump 0xE08009 1).bump 0xE0800A x.stall).bump 0xE0A004 1).bump 0xE0A005 x.stall
        (s.countStall sp (some ctx) x.stall).runTile sp ctx it j y r n blocks x.stall

/-- R107, R108: both refetched parts of a mismatched block arrive. The step resumes if the block is paired; at the refetch limit the item is
abandoned and run once more, and a second exhaustion raises a fault. One detection counts once in 0xE030:0C, whatever its refetches show (entry 52);
`stall`: what the spindle could not run a context for (R56). -/
def execMismatchRefetchDone (sp ctx : Nat) (b : Block) (w : RefetchWait) (s : State) : Res := live s fun s =>
  match s.mismatchOf sp ctx with
  | none => s
  | some m =>
    let p := s.sp sp
    let c := p.ctxs.getD ctx {}
    match c.item with
    | none => s.setMismatch sp ctx none
    | some it =>
      if c.st != 3 then s else
      let s := ((s.countStall sp none w.stall).bump 0xE0300D 1).bump 0xE03010 w.cycles
      if paired m.fmt m.expected b then
        let s := s.setMismatch sp ctx (some { m with applied := m.applied ++ [b] })
        let s := s.setSp sp { p with ctxs := p.ctxs.set ctx { c with st := 1, since := s.ctl.stamp } }
        s.stampUp.schedule sp
      else if m.refetches + 1 < s.reg 0x304004 then s.setMismatch sp ctx (some { m with refetches := m.refetches + 1 })
      else
        let s := (s.setMismatch sp ctx none).bump 0xE0300E 1
        if it.errors == 0 then (s.putBack sp ctx it).schedule sp else
        let s := s.raiseFault 2 s.node partSpindle sp 0
        match s.djob it.mask, (s.djob it.mask).bind fun j => s.layerOfJob j (it.shingle / 2 ^ 20) with
        | some j, some y =>
          let r := 128 * (it.shingle % 2 ^ 20)
          s.abandonTile sp ctx it y j.b r (min 128 (y.n - r))
        | _, _ => (s.freeCtx sp ctx).schedule sp

/-! ### Element operations (R191, R233 to R235) -/

/-- A value with what its computation counts. -/
abbrev Cnted := F32 × NumCnt

/-- A value that costs nothing. -/
def lift0 (x : F32) : Cnted := (x, {})

/-- Add, subtract, multiply counted values: each operand's counts are carried once. -/
def cAdd (a b : Cnted) : Cnted := let (r, n) := fAdd a.1 b.1; (r, addCnt (addCnt a.2 b.2) n)
def cSub (a b : Cnted) : Cnted := let (r, n) := fSub a.1 b.1; (r, addCnt (addCnt a.2 b.2) n)
def cMul (a b : Cnted) : Cnted := let (r, n) := fMul a.1 b.1; (r, addCnt (addCnt a.2 b.2) n)
def cExp (a : Cnted) : Cnted := let (r, n) := fExp a.1; (r, addCnt a.2 n)
def cRecip (a : Cnted) : Cnted := let (r, n) := fRecip a.1; (r, addCnt a.2 n)
def cRsqrt (a : Cnted) : Cnted := let (r, n) := fRsqrt a.1; (r, addCnt a.2 n)

/-- An F32 constant: the rounding of an exact value (R233). -/
def fConst (q : Rat) : Cnted := ((roundOp (q < 0) (if q < 0 then -q else q)).1, {})

/-- The activation functions of R233. -/
def activation (fn : Nat) (x : F32) : Cnted :=
  let v := lift0 x
  match fn with
  | 1 => match numOf x with | .nan => lift0 f32NaN | _ => lift0 (if fLt 0#32 x then x else 0#32)
  | 2 =>
    let z := cMul (fConst (7978845608 / 10000000000)) (cAdd v (cMul (fConst (44715 / 1000000)) (cMul (cMul v v) v)))
    let t := cSub (fConst 1) (cMul (fConst 2) (cRecip (cAdd (cExp (cMul (fConst 2) z)) (fConst 1))))
    cMul (cMul (fConst (1 / 2)) v) (cAdd (fConst 1) t)
  | 3 => cMul v (cRecip (cAdd (fConst 1) (cExp (lift0 (fNeg x)))))
  | _ => cRecip (cAdd (fConst 1) (cExp (lift0 (fNeg x))))

/-- The sum of counted values in ascending order. -/
def cSum (xs : List Cnted) : Cnted := match xs with | [] => lift0 0#32 | x :: r => r.foldl cAdd x

/-- Several results: their counts once, beside those that they share. -/
def cAll (shared : NumCnt) (xs : List Cnted) : List F32 × NumCnt := (xs.map (·.1), xs.foldl (fun c x => addCnt c x.2) shared)

/-- ρ: 1 / L rounded once (R234). -/
def rhoOf (l : Nat) : Cnted := fConst (1 / (l : Rat))

/-- The RMS norm (R234). -/
def rmsNorm (eps : F32) (gamma : Option (List F32)) (xs : List F32) : List F32 × NumCnt :=
  let q := cSum (xs.map fun x => cMul (lift0 x) (lift0 x))
  let sc := cRsqrt (cAdd (cMul q (rhoOf xs.length)) (lift0 eps))
  cAll sc.2 ((xs.zipIdx).map fun (x, i) =>
    let y := cMul (lift0 x) (lift0 sc.1)
    match gamma with | some g => cMul y (lift0 (g.getD i 0#32)) | none => y)

/-- The layer norm (R234). -/
def layerNorm (eps : F32) (gb : Option (List F32 × List F32)) (xs : List F32) : List F32 × NumCnt :=
  let mu := cMul (cSum (xs.map lift0)) (rhoOf xs.length)
  let ds := xs.map fun x => cSub (lift0 x) (lift0 mu.1)
  let v := cMul (cSum (ds.map fun d => cMul (lift0 d.1) (lift0 d.1))) (rhoOf xs.length)
  let sc := cRsqrt (cAdd v (lift0 eps))
  let shared := ds.foldl (fun c d => addCnt c d.2) (addCnt mu.2 sc.2)
  cAll shared ((ds.zipIdx).map fun (d, i) =>
    let y := cMul (lift0 d.1) (lift0 sc.1)
    match gb with | some (g, b) => cAdd (cMul y (lift0 (g.getD i 0#32))) (lift0 (b.getD i 0#32)) | none => y)

/-- Softmax (R235). -/
def softmax (xs : List F32) : List F32 × NumCnt :=
  let m : Option F32 := (indexOfMax (xs.map numOf)).1.bind fun i => xs[i]?
  let es := xs.map fun x => cExp (cSub (lift0 x) (lift0 (m.getD f32NaN)))
  let r := cRecip (cSum es)
  cAll r.2 (es.map fun e => cMul (lift0 e.1) (lift0 r.1))

/-- Apply an element layer to one vector: its outputs as F32 patterns, what they count, and what R191 counts. -/
def elementLayer (y : Layer) (params : List F32) (a b : List F32) : List F32 × NumCnt :=
  let n := y.l
  let gamma := if y.param == 0 then none else some (params.take n)
  match y.op with
  | 2 => cAll {} (List.zipWith (fun p q => cAdd (lift0 p) (lift0 q)) a b)
  | 3 => cAll {} (List.zipWith (fun p q => cMul (lift0 p) (lift0 q)) a b)
  | 4 => cAll {} (a.map (activation y.fn))
  | 5 => rmsNorm y.eps gamma a
  | 6 => layerNorm y.eps (gamma.map fun g => (g, params.drop n)) a
  | 7 => softmax a
  | _ => ([BitVec.ofNat 32 ((indexOfMax (a.map numOf)).1.getD 0xFFFFFFFF)], {})

/-- R191: the counts of an index of maximum. -/
def State.countMax (s : State) (xs : List F32) : State :=
  ((s.bump 0xE0600F 1).bump 0xE06003 (xs.filter isNaN).length).bumpIf (xs.all isNaN) 0xE06010

/-- An element of a compaction as a number, and the value that a pair carries (R192): an F16 is widened exactly to F32. -/
def compVal (fmt : Nat) (x : F32) : Num × F32 :=
  match fmt with
  | 0 => let y := widen16 x.toNat; (numOf y, y)
  | 1 => (numOf x, x)
  | _ => (numOfRat x.toInt, x)

/-- R192: the selection unit runs a compaction: the pairs that it writes, and the total that passes. -/
def runCompaction (c : Compaction) : List (Nat × F32) × Nat × Nat :=
  let (ps, n, nans) := compact (compVal c.fmt c.t).1 c.limit (c.xs.map fun x => (compVal c.fmt x).1)
  (ps.map fun p => (p.1, ((c.xs[p.1]?).map fun x => (compVal c.fmt x).2).getD 0#32), n, nans)

/-- R192: the counts of compactions. -/
def State.countComps (s : State) (cs : List Compaction) : State :=
  cs.foldl (fun s c =>
    let (ps, n, nans) := runCompaction c
    (((s.bump 0xE06011 1).bump 0xE06012 ps.length).bump 0xE06003 nans).bumpIf (c.limit < n) 0xE06013) s

/-- The parameters of an element layer; a poisoned one has a free value (entry 12). -/
def State.elemParams (s : State) (j : DJob) (y : Layer) : List F32 :=
  let n := if y.param == 0 then 0 else if y.op == 6 then 2 * y.n else y.n
  if s.poisoned j.tenant y.param (4 * n) then (List.range n).map fun k => Config.poisonedParam j.tenant (y.param + 4 * k)
  else readPlain 9 n (s.load j.tenant y.param (4 * n))

/-- R233 to R235, R191, R192: an element item runs one layer on one vector. Input and output pass through the shingle and hank regions, the parameters through
the filter region (R239). No layer of R233 asks for a compaction: the operand says which ones the engine has the selection unit run with the item (entry 57). -/
def execElementItem (sp : Nat) (x : ElemRun) (s : State) : Res := live s fun s =>
  match s.runningDense sp x.ctx with
  | none => s
  | some (it, j, y) =>
    let v := it.shingle % 2 ^ 20
    if y.op == 1 then s else
    s.withEv sp x.ctx it x.ev fun s =>
    let s := (s.bump 0xE08005 1).countComps x.comps
    if (layerReads y).any fun b => s.inputBad j b v y.l then
      s.endDense sp x.ctx it 9 {} {} fun j => { j with status := 0x0307 }
    else
      let a := s.bufVector j y.inBuf v y.l
      let b := if y.op == 2 || y.op == 3 then s.bufVector j y.in2 v y.l else []
      let ps := s.elemParams j y
      let s := if y.op == 8 then s.countMax a else if y.op == 7 then s.bump 0xE06003 (a.filter isNaN).length else s
      let (xs, c1) := elementLayer y ps a b
      let (xs, c2) := if y.op == 8 then (xs, ({} : NumCnt)) else fMapCnt (roundOut y.outFmt) xs
      let regions : DenseBob := { elems := if b.isEmpty then [a] else [a, b], params := ps, acc := [xs]
                                  pairs := x.comps.map fun c => let r := runCompaction c; (r.1, r.2.1) }
      let s := s.useRegions sp (itemOwner it) 0 (y.param != 0) false regions []
      s.endDense sp x.ctx it (outFmtOf y) { outs := [(y.outBuf, v, 0, xs)] } (addCnt c1 c2) id

/-! ### The dense set of a frame (R246) -/

/-- The highest-numbered spindles in service, taken alternately from die 1 and die 0, beginning with die 1; a die that has none left is
passed over. -/
def alternate : Nat → List Nat → List Nat → List Nat
  | 0, _, _ => []
  | n + 1, a :: x, y => a :: alternate n y x
  | n + 1, [], b :: y => b :: alternate n y []
  | _ + 1, [], [] => []

/-- Spindles in service of a die, highest first, other than those given. -/
def State.highFirst (s : State) (die : Nat) (not : List Nat) : List Nat :=
  (s.upSpindles.filter fun n => dieOf n == die && !not.contains n).reverse

/-- R246: name the dense spindles of the frame. One that leaves the set has its queued dense items dealt again, and items that wait find what the sets leave. -/
def State.nameDense (s : State) : State :=
  let set := alternate s.denseCount (s.highFirst 1 []) (s.highFirst 0 [])
  let gone := s.ctl.denseSet.filter fun n => !set.contains n
  let s := { s with ctl := { s.ctl with denseSet := set } }
  let s := gone.foldl (fun s n =>
    let p := s.sp n
    let items := p.queue.filter fun i => i.kind == 1 && !i.check
    let s := s.setSp n { p with queue := p.queue.filter fun i => !(i.kind == 1 && !i.check) }
    items.foldl State.dealSet s) s
  s.redealAll

/-- Jobs whose completion is due in this frame (R244). -/
def State.jobsTick (s : State) : State := s.dense.jobs.foldl State.finishJob s

end Sys2Proof.Machine
end

