-- ==== Sys2Proof/Machine/Embed.lean ====
section
/-! DEFINITION. Embedding tables: registration, staging and switching, gather and scatter jobs, what a gather sees, the merge of gradient
steps, row migration and hot rows (R250 to R281). -/

namespace Sys2Proof.Machine

/-! ### Tables, shards and homes (R250 to R252) -/

/-- The table that a number names at this tick (R250). -/
def State.tabNow (s : State) (t n : Nat) : Option Tab :=
  s.emb.tabs.find? fun x => x.tenant == t && x.table == n && x.start ≤ s.ftick && (match x.stop with | some e => s.ftick < e | none => true)

/-- The table that a number names at this tick, or one that is released and still has work under way. -/
def State.tabAny (s : State) (t n : Nat) : Option Tab :=
  (s.tabNow t n).orElse fun _ => s.emb.tabs.find? fun x => x.tenant == t && x.table == n && x.start ≤ s.ftick

/-- The table of a job, also after its release has taken effect. -/
def State.tabJob (s : State) (j : GJob) : Option Tab := s.emb.tabs.find? fun x => x.slot == j.tab

/-- The table that a number names and that is not being released. -/
def State.tabHeld (s : State) (t n : Nat) : Option Tab := s.emb.tabs.find? fun x => x.tenant == t && x.table == n && x.stop.isNone

/-- Store a table. -/
def State.setTab (s : State) (x : Tab) : State :=
  { s with emb := { s.emb with tabs := updIf (fun y => y.slot == x.slot) (fun _ => x) s.emb.tabs } }

/-- The lowest free table slot. -/
def State.tabSlot (s : State) : Option Nat := (List.range 64).find? fun n => !s.emb.tabs.any (·.slot == n)

/-- The blocks of a row (R252). -/
def rowBlocks (x : Tab) : Nat := cdiv x.e 32

/-- The bytes of a row slot (R252). -/
def rowSlotBytes (x : Tab) : Nat :=
  if blockScaled x.fmt then
    let p := payloadLen x.fmt false
    64 * cdiv (rowBlocks x * (2 + p) + x.z * (32 - p)) 64
  else 64 * cdiv (x.e * elemWidth x.fmt) 64

/-- The bytes of a row in the row slot, the scale region and the exponent region (R252). -/
def rowBytes (x : Tab) : Nat := rowSlotBytes x + (if blockScaled x.fmt then 4 * rowBlocks x + 1 else 0)

/-- The lines that a row read fetches (R259). -/
def rowLines (x : Tab) : Nat := rowSlotBytes x / 64 + (if blockScaled x.fmt then cdiv (4 * rowBlocks x) 64 + 1 else 0)

/-- The shard count. -/
def shardCount (x : Tab) : Nat := cdiv x.rows x.shardRows

/-- The rows of a shard, its first row and their count. -/
def shardRange (x : Tab) (shard : Nat) : Nat × Nat := (shard * x.shardRows, min x.shardRows (x.rows - shard * x.shardRows))

/-- The version live in the view of a skein: a switch at P holds for the skeins from P on (R256). -/
def versionAt (x : Tab) (skein : Nat) : Nat := match x.old.find? fun o => skein < o.2 with | some o => o.1 | none => x.live

/-- The home of a row of a version: an override of the directory, or the shard's home (R251). -/
def State.homeOf (s : State) (x : Tab) (version row : Nat) : Option Nat :=
  match x.dirOver.find? fun d => d.1 == version && d.2.1 == row with
  | some d => some d.2.2
  | none => ((tabShard s.map.entries x.tenant x.table (row / x.shardRows)).map (·.a)).filter (· != 0xFFFF)

/-- Is this Molset the home of a row? -/
def State.homesRow (s : State) (x : Tab) (version row : Nat) : Bool := s.homeOf x version row == some s.node

/-- The mirror of a row's shard (R251). -/
def State.mirrorOf (s : State) (x : Tab) (row : Nat) : Option Nat :=
  ((tabShard s.map.entries x.tenant x.table (row / x.shardRows)).map (·.b)).filter (· != 0xFFFF)

/-- The coordinator of a table (R251). -/
def State.coordOf (s : State) (t n : Nat) : Option Nat := ((tabService s.map.entries t n).map (·.a)).filter (· != 0xFFFF)

/-- Every Molset that holds the row directory or a role of the table (R251, R255). -/
def State.dirHolders (s : State) (t n : Nat) : List Nat :=
  (tabNodes s.map.entries t n ++ (s.map.entries.filter fun e => e.kind == 2 && e.tenant == t && e.value == 1).map (·.a)).eraseDups

/-! ### Encoding rows (R252, R253) -/

/-- Encode one row: its image, the counts and the escapes refused for lack of room (R253). -/
def encodeRow (x : Tab) (ratio limit row : Nat) (xs : List F32) : RowImg × NumCnt × Nat :=
  let pad (bs : List Byte) : List Byte := bs ++ List.replicate (rowSlotBytes x - bs.length) 0
  if blockScaled x.fmt then
    let ns := xs.map numOf
    let e := chanExp x.fmt (maxFinite ns)
    let (bs, c, _, refused) := ((chunks 32 ns).zipIdx).foldl (fun (a : List Block × NumCnt × Nat × Nat) (b, i) =>
      let (bs, c, used, refused) := a
      let (k, n) := encodeBlock x.fmt ratio limit ((row + i) % 256) e b
      if !isEscape k then (bs ++ [k], addCnt c n, used, refused)
      else if used < x.z then (bs ++ [k], addCnt c n, used + 1, refused)
      else
        let (k, n) := encodeBlock x.fmt ratio 32 ((row + i) % 256) e b
        (bs ++ [k], addCnt c n, used, refused + 1)) ([], {}, 0, 0)
    ({ data := pad (bs.flatMap blockBytes), scales := bs.map (·.record), exp := e }, c, refused)
  else
    let (d, c) := writePlain x.fmt xs
    ({ data := pad d, scales := [], exp := 0 }, { c with conv := xs.length }, 0)

/-- The blocks of a stored row (R252). -/
def imgBlocks (x : Tab) (img : RowImg) : List Block := splitBlocks x.fmt (rowBlocks x) img.data img.scales

/-- Does every block of a row pair with its scale record, tags counted from the row number modulo 256 (R106, R252)? -/
def rowPaired (x : Tab) (row : Nat) (img : RowImg) : Bool :=
  !blockScaled x.fmt || ((imgBlocks x img).zipIdx).all fun (b, i) => paired x.fmt ((row + i) % 256) b

/-- Decode a row to F32 (R94, R262). -/
def decodeRow (x : Tab) (img : RowImg) : List F32 × NumCnt :=
  if blockScaled x.fmt then channelVals x.fmt x.e img.exp (imgBlocks x img) else (readPlain x.fmt x.e img.data, {})

/-- The spindle that merges or encodes rows: the lowest gather spindle that can take gather work now, zeroed for it (R71, R260; the choice is the planner's,
entry 7). None while the set is empty (R261) or works for others. -/
def State.gatherSp (s : State) (tenant : Nat) : Option (State × Nat) :=
  let o := s.ownerOf tenant 2
  let free (n : Nat) : Bool := s.spUp n && !(s.sp n).zeroing && !(s.sp n).roleZero && (prepared (s.sp n) o || quiet (s.sp n))
  ((sortBy (fun a b => a < b) s.ctl.gatherSet).find? free).map fun n =>
    let s := if prepared (s.sp n) o then s else s.zeroNow n o
    let s := s.zeroFor (s.sp n) (s.sp n).stagingOwner o 128
    let s := s.setSp n { s.sp n with stagingOwner := some o }
    (s.useRegions n o 0 true false {} [], n)

/-- Encode a row on a spindle with settings of a job's start, and charge it (R91, R100, R253). -/
def State.encodeRow (s : State) (x : Tab) (ratio limit sp row : Nat) (xs : List F32) : State × RowImg :=
  let (img, c, refused) := Machine.encodeRow x ratio limit row xs
  ((s.charge (some sp) c).bump 0xE09014 refused, img)

/-! ### Images, views and overlays (R265, R266) -/

/-- The base image of a row, of the home's copy or the mirror's. -/
def State.baseImg (s : State) (x : Tab) (version row : Nat) (mirror : Bool) : Option RowImg :=
  (s.emb.rows.find? fun r => r.tenant == x.tenant && r.table == x.table && r.version == version && r.row == row && r.mirror == mirror).map (·.img)

/-- The overlay chain of a row, in ascending V (R265). -/
def State.chainOf (s : State) (x : Tab) (version row : Nat) (mirror : Bool) : List Overlay :=
  s.emb.overlays.filter fun o => o.tenant == x.tenant && o.table == x.table && o.version == version && o.row == row && o.mirror == mirror

/-- The newest image of a row, visible or not (R270). -/
def State.newestImg (s : State) (x : Tab) (version row : Nat) : Option RowImg :=
  match (s.chainOf x version row false).getLast? with | some o => some o.img | none => s.baseImg x version row false

/-- What the home answers to a read of a skein: the image, and whether the view has expired (R266). -/
def State.rowView (s : State) (x : Tab) (version row skein : Nat) : Option (RowImg × Bool) :=
  let expired : Bool := skein + s.reg 0x58000A < s.ftick
  let top := if expired then s.ftick else skein
  let seen := (s.chainOf x version row false).filter fun o => match o.v with | some v => v ≤ top | none => false
  match seen.getLast? with
  | some o => some (o.img, expired)
  | none => (s.baseImg x version row false).map fun i => (i, expired)

/-- The state of a row as it moves (R274). -/
def State.rowState (s : State) (x : Tab) (version row : Nat) : Option RowState :=
  (s.baseImg x version row false).map fun base =>
    { row, base, chain := (s.chainOf x version row false).map fun o => { step := o.step, v := o.v, img := o.img } }

/-- Store a base image. -/
def State.putRow (s : State) (x : Tab) (version row : Nat) (mirror : Bool) (img : RowImg) : State :=
  let r : RowRec := { tenant := x.tenant, table := x.table, version, row, img, mirror }
  let same (q : RowRec) : Bool := q.tenant == x.tenant && q.table == x.table && q.version == version && q.row == row && q.mirror == mirror
  { s with emb := { s.emb with rows := s.emb.rows.filter (fun (q : RowRec) => !same q) ++ [r] } }

/-- Add an entry to a row's chain; an entry of the same step takes its place. -/
def State.putOverlay (s : State) (x : Tab) (version row : Nat) (mirror : Bool) (e : ChainEnt) : State :=
  let o : Overlay := { tenant := x.tenant, table := x.table, version, row, step := e.step, v := e.v, img := e.img, mirror }
  let same (q : Overlay) : Bool :=
    q.tenant == x.tenant && q.table == x.table && q.version == version && q.row == row && q.mirror == mirror && q.step == e.step
  let os := if s.emb.overlays.any same then updIf same (fun _ => o) s.emb.overlays else s.emb.overlays ++ [o]
  { s with emb := { s.emb with overlays := os } }

/-- Drop what this Molset stores of a row, of the home's copy. -/
def State.dropRow (s : State) (x : Tab) (version row : Nat) : State :=
  { s with emb := { s.emb with
      rows := s.emb.rows.filter fun r => !(r.tenant == x.tenant && r.table == x.table && r.version == version && r.row == row && !r.mirror)
      overlays := s.emb.overlays.filter fun r => !(r.tenant == x.tenant && r.table == x.table && r.version == version && r.row == row && !r.mirror)
      holders := s.emb.holders.filter fun h => !(h.1 == x.tenant && h.2.1 == x.table && h.2.2.1 == row) } }

/-! ### Registers (R280) -/

/-- The rows that this Molset homes. -/
def State.rowsHomed (s : State) (x : Tab) : Nat :=
  let shards := (tabShards s.map.entries x.tenant x.table).filter fun e => e.a == s.node
  let base := shards.foldl (fun a e => a + (shardRange x e.shard).2) 0
  let mine := x.dirOver.filter fun d => d.1 == x.live
  let away := (mine.filter fun d => d.2.2 != s.node && shards.any fun e => e.shard == d.2.1 / x.shardRows).length
  let here := (mine.filter fun d => d.2.2 == s.node && !shards.any fun e => e.shard == d.2.1 / x.shardRows).length
  base + here - away

/-- Report a table in its slot (R280); the last load is LOAD_WINDOW_END's. -/
def State.tabReg (s : State) (x : Tab) : State :=
  let n := s.node
  let sh := tabShards s.map.entries x.tenant x.table
  let roles := flagWord [s.coordOf x.tenant x.table == some n, sh.any (·.a == n) || x.dirOver.any (fun d => d.1 == x.live && d.2.2 == n),
    sh.any (·.b == n), reaches s.map.entries x.tenant n]
  let held := (s.emb.overlays.filter fun o => o.tenant == x.tenant && o.table == x.table && !o.mirror).length
  let s := ((s.setReg (0x581000 + x.slot) (x.tenant + x.table * 65536)).setReg (0x581100 + x.slot) x.live).setReg (0x581200 + x.slot) roles
  ((s.setReg (0x581300 + x.slot) (x.lastClosed.getD 0)).setReg (0x581400 + x.slot) held).setReg (0x581500 + x.slot) (s.rowsHomed x)

/-- Report every table that serves. -/
def State.tabRegs (s : State) : State := (s.emb.tabs.filter fun x => x.start ≤ s.ftick).foldl State.tabReg s

/-- Nothing is in a slot. -/
def State.tabClear (s : State) (slot : Nat) : State := [0, 1, 2, 3, 4, 5, 6].foldl (fun s i => s.setReg (0x581000 + i * 256 + slot) 0) s

/-! ### Table entries (R250) -/

/-- The status of a table entry; 0 passes (R250, R258). -/
def State.tableStatus (s : State) (t : Nat) (e : Entry) : Nat :=
  let n := eNat e 16 2
  let fmt := eNat e 19 1
  let el := eNat e 20 2
  let z := eNat e 22 2
  let rows := eNat e 24 8
  let sr := eNat e 32 8
  match eNat e 18 1 with
  | 1 =>
    if !(eZero e 40 88 && (fmt == 1 || fmt == 2 || (4 ≤ fmt && fmt ≤ 9))) then 0x0411
    else if (s.tabHeld t n).isSome then 0x0412
    else if !(8 ≤ el && el ≤ s.reg 0x580002 && el % 8 == 0 && z ≤ (if blockScaled fmt then cdiv el 32 else 0) && 1 ≤ rows && rows ≤ s.reg 0x580003 &&
        sr != 0 && sr % 4096 == 0 && cdiv rows sr ≤ s.reg 0x580008) then 0x0413
    else if s.tabSlot.isNone then 0x0414 else 0
  | 2 => if !eZero e 40 88 then 0x0411 else if (s.tabHeld t n).isNone then 0x0412 else 0
  | _ => 0x0411

/-- The check of a table entry (R250). -/
def checkTable (t : Nat) (s : State) (e : Entry) : State × Chk :=
  let st := s.tableStatus t e
  if st == 0 then (s, .pass 1 false) else (s.reservedFmt (if eNat e 18 1 == 1 then eNat e 19 1 else 0), .refuse st)

/-- R250: the check of a registration. -/
def execTableRegister (tenant seq : Nat) (bad : Bool) (s : State) : Res := live s fun s =>
  s.ringRow tenant seq bad 8 (opIs 18 4 1 [1, 2]) (checkTable tenant)

/-- R250: the check of a release. -/
def execTableRelease (tenant seq : Nat) (bad : Bool) (s : State) : Res := live s fun s =>
  s.ringRow tenant seq bad 8 (opIs 18 4 2 [1, 2]) (checkTable tenant)

/-- Perform a table entry that left its ring: it takes effect at the next tick (R250). -/
def State.admitTable (s : State) (t seq : Nat) : State :=
  let e := s.entryOf t seq
  let n := eNat e 16 2
  let st := s.tableStatus t e
  if st != 0 then s.complete t seq 8 st 0 0 0 [] 0 else
  if eNat e 18 1 == 2 then
    let stop (x : Tab) : Tab := { x with stop := some (s.ftick + 1) }
    { s with emb := { s.emb with tabs := updIf (fun x => x.tenant == t && x.table == n && x.stop.isNone) stop s.emb.tabs } }.complete t seq 8 0 0 0 s.ftick [] 0
  else
    match s.tabSlot with
    | none => s
    | some slot =>
      let x : Tab := {
        slot, tenant := t, table := n, fmt := eNat e 19 1, e := eNat e 20 2, z := eNat e 22 2, rows := eNat e 24 8, shardRows := eNat e 32 8,
        start := s.ftick + 1 }
      { s with emb := { s.emb with tabs := s.emb.tabs ++ [x] } }.complete t seq 8 0 0 0 s.ftick [] 0

/-- Free the pages of a version (R256). -/
def State.freeVersion (s : State) (x : Tab) (version : Nat) : State :=
  let ns := (x.pages.filter fun p => p.1 == version).map (·.2)
  let s := s.dropHidden x.tenant ns
  let s := s.setTab { x with pages := x.pages.filter (·.1 != version), old := x.old.filter (·.1 != version), dirOver := x.dirOver.filter (·.1 != version) }
  { s with emb := { s.emb with
      rows := s.emb.rows.filter fun r => !(r.tenant == x.tenant && r.table == x.table && r.version == version)
      overlays := s.emb.overlays.filter fun r => !(r.tenant == x.tenant && r.table == x.table && r.version == version) } }

/-- Drop the replicas of a table held here (R279). -/
def State.dropReplicas (s : State) (t n : Nat) (p : Nat → Bool) : State :=
  let gone (r : Replica) : Bool := r.tenant == t && r.table == n && p r.row
  let s := s.bump 0xE09107 (s.emb.replicas.filter gone).length
  { s with emb := { s.emb with replicas := s.emb.replicas.filter fun r => !gone r } }

/-! ### Staging (R254) -/

/-- The version after a version: 65,535 is followed by 1, and the first is 1 (R254). -/
def nextTabVersion (v : Nat) : Nat := if v == 65535 then 1 else v + 1

/-- The bytes of a shard's source (R254). -/
def sourceBytes (x : Tab) (shard fmt : Nat) : Nat := (shardRange x shard).2 * x.e * elemWidth fmt

/-- The pages of a shard's images (R252, R254). -/
def shardPages (x : Tab) (shard : Nat) : Nat := cdiv ((shardRange x shard).2 * rowBytes x) pageSize

/-- The tier in which a tenant's rows are staged (R288): board memory or the stacks. -/
def State.rowTier (s : State) (t : Nat) : Bool := s.reg (pagedKey 0x6050 t) == 1

/-- The status of a stage entry (R254, R258); 0 passes. Only the shard's home can stage it. -/
def State.stageStatus (s : State) (t : Nat) (e : Entry) : Nat :=
  let fmt := eNat e 40 1
  let shard := eNat e 36 4
  if !(eZero e 41 87 && (fmt == 7 || fmt == 8 || fmt == 9)) then 0x0421
  else
    match s.tabNow t (eNat e 32 2) with
    | none => 0x0421
    | some x =>
      if shardCount x ≤ shard || ((tabShard s.map.entries t x.table shard).map (·.a)) != some s.node then 0x0421
      else if !s.owned t (eNat e 24 8) (sourceBytes x shard fmt) || s.poisoned t (eNat e 24 8) (sourceBytes x shard fmt) then 0x0422
      else if eNat e 34 2 != nextTabVersion x.live ||
          s.emb.rows.any (fun r => r.tenant == t && r.table == x.table && r.version == eNat e 34 2 && r.row == (shardRange x shard).1 && !r.mirror) ||
          s.emb.stages.any (fun g => g.tenant == t && g.table == x.table && g.shard == shard) then 0x0423
      else if !s.canTake t (s.rowTier t) (shardPages x shard) then 0x0414 else 0

/-- The check of a stage entry. -/
def checkStage (t : Nat) (s : State) (e : Entry) : State × Chk :=
  let st := s.stageStatus t e
  if st == 0 then (s, .pass 1 false) else (s.reservedFmt (eNat e 40 1), .refuse st)

/-- R254: the check of a stage entry. -/
def execTableStage (tenant seq : Nat) (bad : Bool) (s : State) : Res := live s fun s => s.ringRow tenant seq bad 9 anyEntry (checkStage tenant)

/-- Encode the rows of a shard being staged and send them to its mirror, once a gather spindle can (R254, R260, R261). -/
def State.stageRows (s : State) (g : TStage) : State :=
  match (if g.encoded then none else s.tabAny g.tenant g.table), s.gatherSp g.tenant with
  | some x, some (s, sp) =>
    let (first, n) := shardRange x g.shard
    let w := x.e * elemWidth g.fmt
    let (s, rows) := (List.range n).foldl (fun (a : State × List RowState) i =>
      let xs := readPlain g.fmt x.e (a.1.load g.tenant (g.src + i * w) w)
      let (s, img) := a.1.encodeRow x g.ratio g.limit sp (first + i) xs
      (s.putRow x g.version (first + i) false img, a.2 ++ [{ row := first + i, base := img, chain := [] }])) (s, [])
    let s := s.bump 0xE09010 n
    let s := match s.mirrorOf x first with | some m => s.send m 0x23 g.tenant (.images g.tenant g.table 0 g.version rows) | none => s
    let mine (y : TStage) : Bool := y.tenant == g.tenant && y.table == g.table && y.shard == g.shard
    { s with emb := { s.emb with stages := updIf mine (fun y => { y with encoded := true, mirrorOk := (s.mirrorOf x first).isNone }) s.emb.stages } }
  | _, _ => s

/-- Perform a stage entry (R254): new pages of the tenant are taken and zeroed (R72), and the shard's rows encoded into them. -/
def State.admitStage (s : State) (t seq : Nat) : State :=
  let e := s.entryOf t seq
  let st := s.stageStatus t e
  let version := eNat e 34 2
  let shard := eNat e 36 4
  let detail := detail16 (version + shard * 65536) 0
  match (if st == 0 then s.tabNow t (eNat e 32 2) else none) with
  | none => s.complete t seq 9 st 0 (entryTag e) 0 detail 0
  | some x =>
    let (s, pages) := s.takeHidden t (s.rowTier t) (shardPages x shard)
    let s := s.setTab { x with staged := some version, pages := x.pages ++ pages.map fun p => (version, p) }
    let g : TStage := {
      tenant := t, table := x.table, shard, version, seq, tag := entryTag e, tick := s.ftick, mirrorOk := false, src := eNat e 24 8, fmt := eNat e 40 1
      ratio := s.reg (pagedKey 0x3044 t), limit := s.reg (pagedKey 0x3048 t) }
    { s with emb := { s.emb with stages := s.emb.stages ++ [g] } }.stageRows g

/-- R254: the staged rows and their mirror copy are written. The home completes its entry and tells the coordinator; the coordinator notes the
shard as staged (R255). -/
def execShardStageDone (tenant table shard : Nat) (s : State) : Res := live s fun s =>
  let note (s : State) : State :=
    match s.tabHeld tenant table with
    | some x => if s.coordOf tenant table != some s.node || shardCount x ≤ shard || x.stagedShards.contains shard then s
        else s.setTab { x with stagedShards := x.stagedShards ++ [shard] }
    | none => s
  match s.emb.stages.find? fun g => g.tenant == tenant && g.table == table && g.shard == shard with
  | none => if ((tabShard s.map.entries tenant table shard).map (·.a)) == some s.node then s else note s
  | some g =>
    let mirrorGone := match (s.tabHeld tenant table).bind fun x => s.mirrorOf x (shardRange x shard).1 with | some m => s.hasFailed m | none => true
    if !g.encoded || (!g.mirrorOk && !mirrorGone) then s else
    let s := { s with emb := { s.emb with stages := s.emb.stages.filter fun y => !(y.tenant == tenant && y.table == table && y.shard == shard) } }
    let s := match s.coordOf tenant table with
      | some c => if c == s.node then note s else s.sendRole c 0x23 tenant (.staged tenant table shard)
      | none => s
    s.complete tenant g.seq 9 0 0 g.tag g.tick (detail16 (g.version + shard * 65536) 0) 0

/-! ### Switching (R255, R256) -/

/-- The status of a switch entry (R255, R258); 0 passes. Only the coordinator can switch. -/
def State.switchStatus (s : State) (t : Nat) (e : Entry) : Nat :=
  if !eZero e 36 92 then 0x0421
  else
    match s.tabNow t (eNat e 24 2) with
    | none => 0x0421
    | some x =>
      if s.coordOf t x.table != some s.node then 0x0421
      else if eNat e 26 2 != nextTabVersion x.live || s.emb.switches.any (fun w => w.tenant == t && w.table == x.table) then 0x0423
      else if !(List.range (shardCount x)).all (fun i => x.stagedShards.contains i) then 0x0424 else 0

/-- The check of a switch entry. -/
def checkSwitch (t : Nat) (s : State) (e : Entry) : State × Chk :=
  let st := s.switchStatus t e
  if st == 0 then (s, .pass 1 false) else (s, .refuse st)

/-- R255: the check of a switch entry. -/
def execTableSwitch (tenant seq : Nat) (bad : Bool) (s : State) : Res := live s fun s => s.ringRow tenant seq bad 0xA anyEntry (checkSwitch tenant)

/-- Perform a switch entry (R255): choose P and send the decision. -/
def State.admitSwitch (s : State) (t seq : Nat) : State :=
  let e := s.entryOf t seq
  let st := s.switchStatus t e
  let n := eNat e 24 2
  let version := eNat e 26 2
  if st != 0 then s.complete t seq 0xA st 0 (entryTag e) 0 (detail16 version 0) 0 else
  let p := max (eNat e 28 8) (s.ftick + s.reg 0x580014)
  let need := (s.dirHolders t n).filter (· != s.node)
  let w : TSwitch := { tenant := t, table := n, version, p, ring := some (seq, entryTag e, s.ftick), need, acks := [] }
  { s with emb := { s.emb with switches := s.emb.switches ++ [w] } }.sendAll need 0x23 t false (.switch t n p version)

/-- R255: a receiver takes a switch decision and acknowledges it. A decision of version 0 withdraws the one before (DESIGN CHOICE, entry 43). -/
def execSwitchDecision (src tenant table p version : Nat) (s : State) : Res := live s fun s =>
  let rest := s.emb.switches.filter fun w => !(w.tenant == tenant && w.table == table && w.ring.isNone)
  if version == 0 then { s with emb := { s.emb with switches := rest } }
  else if p ≤ s.ftick then s.stale
  else
    let w : TSwitch := { tenant, table, version, p, ring := none, need := [], acks := [] }
    { s with emb := { s.emb with switches := rest ++ [w] } }.send src 0x23 tenant (.switchAck tenant table)

/-- R255: the coordinator takes an acknowledgement. -/
def execSwitchAck (src tenant table : Nat) (s : State) : Res := live s fun s =>
  let ack (w : TSwitch) : TSwitch := { w with acks := if w.acks.contains src then w.acks else w.acks ++ [src] }
  { s with emb := { s.emb with switches := updIf (fun w => w.tenant == tenant && w.table == table && w.ring.isSome && w.need.contains src) ack s.emb.switches } }

/-- Is an acknowledgement of a switch missing? -/
def switchShort (w : TSwitch) : Bool := w.need.any fun n => !w.acks.contains n

/-- The coordinator cancels a switch (R255): the staged version stays staged. -/
def State.cancelSwitch (s : State) (w : TSwitch) : State :=
  match w.ring with
  | none => s
  | some (seq, tag, tick) =>
    let s := { s with emb := { s.emb with switches := s.emb.switches.filter fun y => !(y.tenant == w.tenant && y.table == w.table) } }
    let s := s.sendAll w.need 0x23 w.tenant false (.switch w.tenant w.table w.p 0)
    s.complete w.tenant seq 0xA 0x0425 0 tag tick (detail16 w.version 0) 0

/-- R255: 4 ticks before P an acknowledgement is missing, and the switch is cancelled. -/
def execSwitchAckTimeout (tenant table : Nat) (s : State) : Res := live s fun s =>
  match s.emb.switches.find? fun w => w.tenant == tenant && w.table == table && w.ring.isSome with
  | some w => if w.p ≤ s.ftick + 4 && switchShort w then s.cancelSwitch w else s
  | none => s

/-- Switch a table's base pointer (R255, R256): the replicas of the old version go. -/
def State.applySwitch (s : State) (w : TSwitch) : State :=
  if w.ring.isSome && switchShort w then s.cancelSwitch w else
  let s := { s with emb := { s.emb with switches := s.emb.switches.filter fun y => !(y.tenant == w.tenant && y.table == w.table) } }
  match s.tabNow w.tenant w.table with
  | none => s
  | some x =>
    let old := if x.live == 0 then x.old else x.old ++ [(x.live, w.p)]
    let s := s.setTab { x with live := w.version, staged := none, stagedShards := [], old }
    let s := (s.bump 0xE09011 1).dropReplicas w.tenant w.table fun _ => true
    let s := { s with emb := { s.emb with holders := s.emb.holders.filter fun h => !(h.1 == w.tenant && h.2.1 == w.table) } }
    match w.ring with
    | some (seq, tag, tick) => s.complete w.tenant seq 0xA 0 0 tag tick (detail16 w.version w.p) 0
    | none => s

/-- The version that is live after step 6 of a tick not before this one. -/
def State.liveAt (s : State) (x : Tab) (tick : Nat) : Nat :=
  match s.emb.switches.find? fun w => w.tenant == x.tenant && w.table == x.table && w.p ≤ tick with | some w => w.version | none => x.live

/-! ### Gather and scatter entries (R257, R258, R267) -/

/-- The size that the gather set would have, and the spindles outside the dense set (R260, R261). -/
def State.gatherShare (s : State) : Nat × Nat :=
  let up := s.upSpindles.length
  let room := (s.upSpindles.filter fun n => !s.ctl.denseSet.contains n).length
  let r := nodeRole s.map.entries s.node
  (if r == 1 || r == 3 then s.reg 0x580009 * up / 256 else 0, room)

/-- The units of the gather and scatter jobs that are admitted and unfinished (R411). -/
def State.gatherLoad (s : State) : Nat := s.emb.jobs.foldl (fun a j => if j.done then a else a + j.cost) 0

/-- The planned frame count of a job, at most the largest F (R258, R411); none while the set has no capacity. -/
def State.gatherFrames (s : State) (cost : Nat) : Option Nat :=
  (s.frameCount s.ctl.gatherSet.length s.gatherLoad cost).map (min (s.reg 0x58000A))

/-- The status of a gather entry (R258); 0 passes. -/
def State.gatherStatus (s : State) (t : Nat) (e : Entry) : Nat :=
  let n := eNat e 40 4
  let g := eNat e 46 2
  let pool := eNat e 48 1
  let fmt := eNat e 49 1
  let out := eNat e 32 8
  if !(pool ≤ 2 && (fmt == 7 || fmt == 9) && eNat e 50 1 < 2 && eZero e 51 77) then 0x0401
  else
    match (s.tabNow t (eNat e 44 2)).filter (·.live != 0) with
    | none => 0x0402
    | some x =>
      if !s.owned t (eNat e 24 8) (8 * n) || out % 64 != 0 || !s.owned t out (64 + n / max 1 g * x.e * elemWidth fmt) then 0x0403
      else if !(1 ≤ n && n ≤ s.reg 0x580004 && 1 ≤ g && g ≤ s.reg 0x580005 && n % max 1 g == 0 && (pool != 0 || g == 1)) then 0x0404
      else if nodeRole s.map.entries s.node != 1 && nodeRole s.map.entries s.node != 3 then 0x0405
      else if !s.inService t then 0x0406 else 0

/-- The units of a gather entry: the lines of all its rows (R409). -/
def State.gatherUnits (s : State) (t : Nat) (e : Entry) : Nat :=
  match s.tabNow t (eNat e 44 2) with | some x => cdiv (eNat e 40 4 * rowLines x) 1024 | none => 0

/-- The check of a gather entry (R258). -/
def checkGather (t : Nat) (s : State) (e : Entry) : State × Chk :=
  let s := s.bump 0xE09001 1
  let st := s.gatherStatus t e
  if st != 0 then ((s.bump 0xE09003 1).reservedFmt (eNat e 49 1), .refuse st)
  else (s, .pass (s.gatherUnits t e) (eNat e 50 1 == 1))

/-- R258: the check of a gather entry. -/
def execGather (tenant seq : Nat) (bad : Bool) (s : State) : Res := live s fun s => s.ringRow tenant seq bad 0xB anyEntry (checkGather tenant)

/-- The status of a scatter entry (R258); 0 passes. -/
def State.scatterStatus (s : State) (t : Nat) (e : Entry) : Nat :=
  let n := eNat e 40 4
  let fmt := eNat e 46 1
  let c := eNat e 60 2
  let step := eNat e 48 8
  if !((fmt == 7 || fmt == 8 || fmt == 9) && eNat e 47 1 < 2 && isFinite (eF32 e 56) && eZero e 62 66) then 0x0401
  else
    match (s.tabNow t (eNat e 44 2)).filter (·.live != 0) with
    | none => 0x0402
    | some x =>
      if !s.owned t (eNat e 24 8) (8 * n) || !s.owned t (eNat e 32 8) (n * x.e * elemWidth fmt) then 0x0403
      else if !(1 ≤ n && n ≤ s.reg 0x580004 && 1 ≤ c && c ≤ 4096) then 0x0404
      else if nodeRole s.map.entries s.node != 1 && nodeRole s.map.entries s.node != 3 then 0x0405
      else if !s.inService t then 0x0406
      else if decide (step ≤ x.lastClosed.getD 0 ∧ x.lastClosed.isSome) then 0x040B
      else if s.emb.steps.any (fun k => k.joined && k.tenant == t && k.table == x.table && k.step == step) then 0x040C else 0

/-- The units of a scatter entry: the lines of its records (R268, R409). -/
def State.scatterUnits (s : State) (t : Nat) (e : Entry) : Nat :=
  match s.tabNow t (eNat e 44 2) with | some x => cdiv (eNat e 40 4 * cdiv (24 + 4 * x.e) 64) 1024 | none => 0

/-- The check of a scatter entry (R258). -/
def checkScatter (t : Nat) (s : State) (e : Entry) : State × Chk :=
  let s := s.bump 0xE09001 1
  let st := s.scatterStatus t e
  if st != 0 then ((s.bump 0xE09003 1).reservedFmt (eNat e 46 1), .refuse st)
  else (s, .pass (s.scatterUnits t e) (eNat e 47 1 == 1))

/-- R267: the check of a scatter entry. -/
def execScatter (tenant seq : Nat) (bad : Bool) (s : State) : Res := live s fun s => s.ringRow tenant seq bad 0xC anyEntry (checkScatter tenant)

/-- A job by its slot. -/
def State.gjob (s : State) (slot : Nat) : Option GJob := s.emb.jobs.find? fun j => j.slot == slot

/-- Store it. -/
def State.setGjob (s : State) (j : GJob) : State := { s with emb := { s.emb with jobs := updIf (fun x => x.slot == j.slot) (fun _ => j) s.emb.jobs } }

/-- The lowest free job slot (R258). -/
def State.gatherSlot (s : State) : Option Nat := (List.range (s.reg 0x580007)).find? fun n => !s.emb.jobs.any (·.slot == n)

/-- The padding index (R257). -/
def paddingIdx : Nat := 0xFFFFFFFFFFFFFFFF

/-- Does the entry at a position name a row? -/
def GJob.reads (j : GJob) (x : Tab) (pos : Nat) : Bool := match j.idxs[pos]? with | some r => r < x.rows | none => false

/-- Entries of an item: a bag, or 64 consecutive entries when g = 1 (R260). -/
def itemSpan (j : GJob) (item : Nat) : List Nat :=
  let w := if j.g == 1 then 64 else j.g
  (List.range w).map (item * w + ·) |>.filter (· < j.n)

/-- The items of a job. -/
def itemCount (j : GJob) : Nat := if j.g == 1 then cdiv j.n 64 else j.n / j.g

/-- The lines outstanding on a die. -/
def State.linesOut (s : State) (die : Nat) : Nat := s.emb.outstanding.foldl (fun a o => if o.1 == die then a + o.2.2.2 else a) 0

/-- Issue the line reads of a row, or let them wait for a slot (R259) or for the reset of the die's gather engine (R529). -/
def State.issueRow (s : State) (x : Tab) (j : GJob) (die pos : Nat) : State :=
  let n := rowLines x
  if s.linesOut die + n ≤ s.reg 0x580001 && !s.resetting 1 (2 + die) then
    let s := { s with emb := { s.emb with outstanding := s.emb.outstanding ++ [(die, j.slot, pos, n)] } }
    let row := j.idxs.getD pos 0
    let rep := !j.bulk && s.emb.replicas.any fun r => r.tenant == j.tenant && r.table == j.table && r.row == row && r.view ≤ j.adm
    match s.homeOf x j.version row with
    | some h => if rep || h == s.node then s else s.sendRole h 1 j.tenant (.rowRead s.node j.tenant j.table row j.adm)
    | none => s
  else { s with emb := { s.emb with waitReads := s.emb.waitReads ++ [(die, j.slot, pos)] } }

/-- The spindle that holds an item of a job: in a context, or queued. -/
def State.gatherHolder (s : State) (slot item : Nat) : Option Nat :=
  let is (i : Item) : Bool := i.kind == 2 && i.mask == slot && i.shingle == item
  (s.spin.find? fun (_, p) => p.queue.any is || p.ctxs.any fun c => match c.item with | some i => is i | none => false).map (·.1)

/-- Deal a gather item among the gather spindles (R237, R260), and issue its reads to the engine of the spindle's die. -/
def State.dealGather (s : State) (x : Tab) (j : GJob) (item : Nat) : State :=
  let s := s.dealSet {
    skein := j.adm, shingle := item, mask := j.slot, stolen := true, check := false, kind := 2, tenant := j.tenant,
    role := nodeRole s.map.entries s.node, index := 0, shard := 0, version := 0, pass := 0, die := 0, errors := 0 }
  let die := ((s.gatherHolder j.slot item).map dieOf).getD 0
  ((itemSpan j item).filter (j.reads x)).foldl (fun s pos => s.issueRow x j die pos) s

/-- Admit a gather job (R258): its index list is read, and its items dealt. -/
def State.admitGather (s : State) (t seq : Nat) : State :=
  let e := s.entryOf t seq
  let st := s.gatherStatus t e
  let cost := s.gatherUnits t e
  match (if st == 0 then s.tabNow t (eNat e 44 2) else none), s.gatherSlot, s.gatherFrames cost with
  | some x, some slot, some frames =>
    let n := eNat e 40 4
    let addr := eNat e 24 8
    let bad := s.poisoned t addr (8 * n)
    let j : GJob := {
      slot, seq, tag := entryTag e, tenant := t, table := x.table, scatter := false, listAddr := addr, dataAddr := eNat e 32 8, n, g := eNat e 46 2,
      pool := eNat e 48 1, fmt := eNat e 49 1, bulk := eNat e 50 1 == 1, step := 0, eta := 0#32, parts := 0, adm := s.ftick, frames, cost,
      version := x.live, tab := x.slot, idxs := if bad then [] else (List.range n).map fun i => s.loadNat t (addr + 8 * i) 8, status := if bad then 0x0407 else 0 }
    let j := { j with items := if bad then [] else List.range (itemCount j) }
    let s := { s with emb := { s.emb with jobs := s.emb.jobs ++ [j] } }.bump 0xE09002 1
    j.items.foldl (fun s i => s.dealGather x j i) s
  | _, _, _ => (s.bump 0xE09003 1).complete t seq 0xB (if st == 0 then 0x0402 else st) 0 (entryTag e) 0 [] 0

/-- Admit a scatter job (R258, R267). -/
def State.admitScatter (s : State) (t seq : Nat) : State :=
  let e := s.entryOf t seq
  let st := s.scatterStatus t e
  let cost := s.scatterUnits t e
  match (if st == 0 then s.tabNow t (eNat e 44 2) else none), s.gatherSlot, s.gatherFrames cost with
  | some x, some slot, some frames =>
    let j : GJob := {
      slot, seq, tag := entryTag e, tenant := t, table := x.table, scatter := true, listAddr := eNat e 24 8, dataAddr := eNat e 32 8, n := eNat e 40 4,
      g := 1, pool := 0, fmt := eNat e 46 1, bulk := eNat e 47 1 == 1, step := eNat e 48 8, eta := eF32 e 56, parts := eNat e 60 2, adm := s.ftick,
      frames, cost, version := x.live, tab := x.slot }
    let k := (s.emb.steps.find? fun k => k.tenant == t && k.table == x.table && k.step == j.step).getD { tenant := t, table := x.table, step := j.step }
    let rest := s.emb.steps.filter fun (q : EStep) => !(q.tenant == t && q.table == x.table && q.step == j.step)
    { s with emb := { s.emb with jobs := s.emb.jobs ++ [j], steps := rest ++ [{ k with joined := true }] } }.bump 0xE09002 1
  | _, _, _ => (s.bump 0xE09003 1).complete t seq 0xC (if st == 0 then 0x0402 else st) 0 (entryTag e) 0 [] 0

/-! ### Row reads (R259, R266, R277, R278) -/

/-- R259: a line read that waited for a slot is issued: the first that waits on the die. -/
def execReadSlotFree (die waited : Nat) (s : State) : Res := live s fun s =>
  match s.emb.waitReads.find? fun w => w.1 == die with
  | none => s
  | some (_, slot, pos) =>
    match s.gjob slot, (s.gjob slot).bind s.tabJob with
    | some j, some x =>
      if s.reg 0x580001 < s.linesOut die + rowLines x || s.resetting 1 (2 + die) then s else
      let s := { s with emb := { s.emb with waitReads := s.emb.waitReads.filter fun w => w != (die, slot, pos) } }
      (s.issueRow x j die pos).bump 0xE09005 waited
    | _, _ => { s with emb := { s.emb with waitReads := s.emb.waitReads.filter fun w => w != (die, slot, pos) } }

/-- A local source of a read, if there is one: a replica for a latency-class read, or this Molset's own pages (R259). -/
def State.localRow (s : State) (x : Tab) (j : GJob) (row : Nat) : State × Option (RowImg × Bool) :=
  let mine (r : Replica) : Bool := r.tenant == j.tenant && r.table == j.table && r.row == row && r.view ≤ j.adm
  match (if j.bulk then none else s.emb.replicas.find? mine) with
  | some r =>
    let used (q : Replica) : Replica := { q with used := s.emb.stamp }
    ({ s with emb := { s.emb with replicas := updIf mine used s.emb.replicas, stamp := s.emb.stamp + 1 } }, some (r.img, false))
  | none => (s, if s.homesRow x j.version row then s.rowView x j.version row j.adm else none)

/-- Add to the count at a key. -/
def addAt {α : Type} [BEq α] (l : List (α × Nat)) (k : α) (n : Nat) : List (α × Nat) :=
  if l.any (fun p => p.1 == k) then l.map fun p => if p.1 == k then (p.1, p.2 + n) else p else l ++ [(k, n)]

/-- Add to the load of a row's shard: lines served to bulk reads, or records merged (R272). -/
def State.addLoad (s : State) (x : Tab) (row n : Nat) : State :=
  { s with emb := { s.emb with loads := addAt s.emb.loads (x.tenant, x.table, row / x.shardRows) n } }

/-- What a home counts of a read that it serves (R272, R277): the lines of bulk reads, by shard and by row; latency-class reads by row and reader. -/
def State.countRead (s : State) (x : Tab) (src row : Nat) (bulk : Bool) : State :=
  if bulk then
    let s := s.addLoad x row (rowLines x)
    { s with emb := { s.emb with rowLoads := addAt s.emb.rowLoads (x.tenant, x.table, row) (rowLines x) } }
  else { s with emb := { s.emb with reads := addAt s.emb.reads (x.tenant, x.table, row, src) 1 } }

/-- The read of a position ends, with an image or unreadable (R259): whatever it took, its lines count once for the job (R264). -/
def State.endRead (s : State) (x : Tab) (j : GJob) (pos : Nat) (img : Option RowImg) (expired : Bool) : State :=
  let j := { j with
    rows := put j.rows pos img, lines := j.lines + rowLines x, integrity := j.integrity || img.isNone, expired := j.expired || expired }
  { s with emb := { s.emb with
      outstanding := s.emb.outstanding.filter fun o => !(o.2.1 == j.slot && o.2.2.1 == pos)
      tries := s.emb.tries.filter fun q => !(q.1 == j.slot && q.2.1 == pos) } }.setGjob j

/-- The lines that the refetch of a block of a row reads: those of its data and that of its record (R107). -/
def refetchLines (x : Tab) (img : RowImg) (k : Nat) : Nat :=
  let bs := imgBlocks x img
  let at_ := (bs.take k).foldl (fun a b => a + 2 + b.payload.length) 0
  let n := match bs[k]? with | some b => 2 + b.payload.length | none => 2
  (at_ + n - 1) / 64 - at_ / 64 + 2

/-- The first block of a row that does not pair, its tags counted from the row number modulo 256, or the last one after a failed check of the stream's end
(R106, R109, R252). -/
def rowFault (x : Tab) (row : Nat) (img : RowImg) (endBad : Bool) : Option Nat :=
  if !blockScaled x.fmt then none else
  match ((imgBlocks x img).zipIdx).find? fun (b, i) => !paired x.fmt ((row + i) % 256) b with
  | some b => some b.2
  | none => if endBad then some (rowBlocks x - 1) else none

/-- The context of a spindle that holds an item of a job. -/
def gatherCtx (p : Spindle) (slot item : Nat) : Option Nat :=
  p.ctxs.findIdx? fun c => match c.item with | some i => i.kind == 2 && i.mask == slot && i.shingle == item | none => false

/-- The item of a row at the refetch limit is abandoned and runs again from its queue's head (R108). -/
def State.rerunGather (s : State) (slot item : Nat) : State :=
  match (s.gatherHolder slot item).bind fun n => (gatherCtx (s.sp n) slot item).bind fun c => (((s.sp n).ctxs.getD c {}).item).map fun it => (n, c, it) with
  | some (n, c, it) => (s.putBack n c it).schedule n
  | none => s

/-- A read of a row is tried again: what its mismatches have been. -/
def State.setTry (s : State) (j : GJob) (pos v : Nat) (expired : Bool) : State :=
  let s := s.setGjob { j with expired := j.expired || expired }
  { s with emb := { s.emb with tries := s.emb.tries.filter (fun (q : Nat × Nat × Nat) => !(q.1 == j.slot && q.2.1 == pos)) ++ [(j.slot, pos, v)] } }

/-- R259, R106 to R109: the lines of a row arrive, from a local source or from the home. An unreadable line, or a mismatch that no refetch mends in two
runs, leaves the row unreadable. One detection counts once in 0xE030:0C, whatever its refetches show (entry 52). -/
def execRowLineArrival (job pos : Nat) (img : RowImg) (bad expired endBad : Bool) (refetch : Nat) (s : State) : Res := live s fun s =>
  match s.gjob job, (s.gjob job).bind s.tabJob with
  | some j, some x =>
    if j.scatter || !s.emb.outstanding.any (fun o => o.2.1 == job && o.2.2.1 == pos) then s else
    let row := j.idxs.getD pos 0
    let seen := match s.emb.tries.find? fun q => q.1 == job && q.2.1 == pos with | some q => q.2.2 | none => 0
    let fetch := seen % 65536
    let (s, own) := s.localRow x j row
    let served := s.homesRow x j.version row && own.isSome
    let s := if served && seen == 0 then s.countRead x s.node row j.bulk else s
    let (img, expired) := own.getD (img, expired)
    let fault := rowFault x row img endBad
    let lines := if fetch == 0 then rowLines x else refetchLines x img (fault.getD 0)
    let s := (s.bump 0xE09004 lines).bumpIf (served && expired && seen == 0) 0xE0901C
    let s := if fetch == 0 then s else (s.bump 0xE0300D 1).bump 0xE03010 refetch
    if bad then (s.bump 0xE09007 1).endRead x j pos none expired
    else match fault with
      | none => s.endRead x j pos (some img) expired
      | some _ =>
        let s := if fetch == 0 then (s.bump 0xE0300C 1).bumpIf (endBad && rowPaired x row img) 0xE0300F else s
        if fetch < s.reg 0x304004 then s.setTry j pos (seen + 1) expired
        else
          let s := s.bump 0xE0300E 1
          let item := pos / (if j.g == 1 then 64 else j.g)
          if seen < 65536 then (s.rerunGather job item).setTry j pos 65536 expired
          else
            let s := match s.gatherHolder job item with | some n => s.raiseFault 2 s.node partSpindle n 0 | none => s
            s.endRead x j pos none expired
  | _, _ => s

/-- The steps whose image of a row a read of a skein sees (R266). -/
def State.seenSteps (s : State) (x : Tab) (version row skein : Nat) : List Nat :=
  ((s.chainOf x version row false).filter fun o => match o.v with | some v => v ≤ skein | none => false).map (·.step)

/-- Has a seal of a tick up to the skein arrived and not been installed for this row (R266)? -/
def State.sealPending (s : State) (x : Tab) (version row skein : Nat) : Bool :=
  (s.chainOf x version row false).any fun o => o.v.isNone && s.emb.steps.any fun k =>
    k.tenant == x.tenant && k.table == x.table && k.step == o.step && (match k.sealAt with | some v => v ≤ skein | none => false)

/-- The migration that moves a row (R274). -/
def State.migOf (s : State) (t n row : Nat) : Option Mig := s.emb.migs.find? fun g => g.m.tenant == t && g.m.table == n && g.m.rows.contains row

/-- Bounce a read or a record of a moved row, naming its new home (R276, R374). -/
def State.bounceMoved (s : State) (src cls tag seq home : Nat) : State :=
  let b : Bounce := { src := s.node, cls, reason := 3, epoch := s.epoch, tag, seq, redirect := home }
  ((s.bump 0xE09105 1).bump 0xE0C018 1).send src 7 0 (.bounce b)

/-- R266, R276: a read reaches a home, which answers it from the view of its skein. A row that has moved is forwarded in the frame of the move, and
bounced later; a read waits for a seal or a hand-off, however late. -/
def execRowRead (src tenant table row skein : Nat) (bulk : Bool) (sealWait moveWait tag seq : Nat) (s : State) : Res := live s fun s =>
  match s.tabAny tenant table with
  | none => s.send src 2 tenant (.rowAnswer tenant table row none false)
  | some x =>
    let version := versionAt x skein
    let answer (s : State) (img : Option RowImg) (expired : Bool) : State :=
      s.send src 2 tenant (.rowAnswer tenant table row img expired)
    if s.inService tenant && !s.bindingDiffers tenant s.node && row < x.rows then
      if s.homesRow x version row then
        let g := s.migOf tenant table row
        let incoming := match g with | some g => g.m.b == s.node && g.m.tick ≤ s.ftick | none => false
        if (match g with | some g => incoming && !g.handed | none => false) || s.sealPending x version row skein then s else
        let s := if incoming && moveWait != 0 then s.bump 0xE09104 moveWait else s
        let s := if sealWait == 0 then s
          else
            match (s.seenSteps x version row skein).getLast? with
            | some k =>
              let s := s.bump 0xE0901E sealWait
              if s.emb.sealWaits.contains (tenant, table, k) then s
              else { s with emb := { s.emb with sealWaits := s.emb.sealWaits ++ [(tenant, table, k)] } }.bump 0xE0901D 1
            | none => s.bump 0xE0901E sealWait
        match s.rowView x version row skein with
        | some (img, expired) => answer ((s.countRead x src row bulk).bumpIf expired 0xE0901C) (some img) expired
        | none => answer s none false
      else
        match s.homeOf x version row with
        | some h =>
          match s.migOf tenant table row with
          | some g =>
            if g.m.a == s.node && g.m.tick == s.ftick then (s.bump 0xE09103 1).sendRole h 1 tenant (.rowRead src tenant table row skein)
            else s.bounceMoved src 2 tag seq h
          | none => if x.dirOver.any (fun d => d.1 == version && d.2.1 == row) then s.bounceMoved src 2 tag seq h else answer s none false
        | none => answer s none false
    else answer s none false

/-! ### Gather items (R262, R263) -/

/-- Pool the rows of a bag in ascending position (R262): the sum from +0, and the count of its valid entries. -/
def poolRows (e : Nat) (rows : List (List F32)) : List F32 × NumCnt :=
  rows.foldl (fun (a : List F32 × NumCnt) r =>
    let (v, c) := fMapCnt (fun (p : F32 × F32) => fAdd p.1 p.2) (a.1.zip r)
    (v, addCnt a.2 c)) (List.replicate e 0#32, {})

/-- The output of one bag (R262): its decoded rows pooled, and rounded once to the output format. -/
def bagOutput (x : Tab) (pool fmt : Nat) (rows : List RowImg) : List F32 × NumCnt :=
  let (vs, c0) := rows.foldl (fun (a : List (List F32) × NumCnt) i => let (v, c) := decodeRow x i; (a.1 ++ [v], addCnt a.2 c)) ([], {})
  let (ys, c1) := if pool == 0 then (vs.headD (List.replicate x.e 0#32), ({} : NumCnt)) else poolRows x.e vs
  let (ys, c2) := if pool == 2 && !rows.isEmpty then
      let (r, cr) := fRecip ((toF32 (.fin false (rows.length : Rat))).1)
      let (zs, cm) := fMapCnt (fun y => fMul y r) ys
      (zs, addCnt cr cm)
    else (ys, {})
  let (ys, c3) := fMapCnt (roundOut fmt) ys
  (ys, addCnt (addCnt c0 c1) (addCnt c2 c3))

/-- The flags of a gather job (R263). -/
def gatherFlags (j : GJob) (late : Bool) : Nat := flagWord [late, j.integrity, 0 < j.padding, 0 < j.range, j.expired, j.nanOut]

/-- The header of a gather's output (R263). -/
def gatherHeader (j : GJob) (e : Nat) (late : Bool) : List Byte :=
  leBytes 8 j.tag ++ leBytes 8 j.adm ++ leBytes 2 j.table ++ leBytes 2 j.version ++ leBytes 2 j.status ++ leBytes 2 (gatherFlags j late) ++
  leBytes 4 (j.n / j.g) ++ leBytes 2 e ++ leBytes 2 0 ++ leBytes 4 j.padding ++ leBytes 4 j.range ++ leBytes 4 (sat32 j.lines) ++ leBytes 20 0

/-- Complete a job that is done, in the frame before its return tick or as soon as it is late (R258, R263). -/
def State.finishGather (s : State) (j : GJob) : State :=
  let ret := j.adm + j.frames
  if !j.done || s.ftick + 1 < ret then s else
  let lateBy := if j.scatter then 0 else s.ftick + 1 - ret
  let s := (s.bumpIf (0 < lateBy) 0xE0900C).bump 0xE0900D lateBy
  let s := { s with emb := { s.emb with jobs := s.emb.jobs.filter fun x => x.slot != j.slot } }
  if j.scatter then s.complete j.tenant j.seq 0xC j.status 0 j.tag j.adm (detail16 j.step 0) 0
  else s.complete j.tenant j.seq 0xB j.status (gatherFlags j (0 < lateBy)) j.tag j.adm [] 0

/-- Write a gather's header once all its items are pooled (R263); an unwritable output gives status 0x0408. -/
def State.gatherEnd (s : State) (j : GJob) : State :=
  if j.scatter || j.done || !j.items.isEmpty then s else
  match s.tabJob j with
  | none => (s.setGjob { j with done := true }).finishGather { j with done := true }
  | some x =>
    let whole := 64 + j.n / j.g * x.e * elemWidth j.fmt
    let lost := !s.owned j.tenant j.dataAddr whole || s.rangeFailed j.tenant j.dataAddr whole
    let j := { j with status := if lost && j.status == 0 then 0x0408 else j.status, done := true }
    let s := if lost then s else s.memWrite j.tenant j.dataAddr (gatherHeader j x.e (j.adm + j.frames ≤ s.ftick))
    (s.setGjob j).finishGather j

/-- The running gather item of a job on some context. -/
def State.runningGather (s : State) (job item : Nat) : Option (Nat × Nat) :=
  (s.spin.findSome? fun (n, p) => ((p.ctxs.zipIdx).find? fun (c, _) =>
    c.st == 2 && (match c.item with | some i => i.kind == 2 && i.mask == job && i.shingle == item | none => false)).map fun c => (n, c.2))

/-- The outputs of the bags of an item (R262): canonical NaN for a bag with an unreadable row (R259). -/
def itemOutputs (x : Tab) (j : GJob) (span : List Nat) : List (List Nat × List F32 × NumCnt) :=
  (chunks j.g span).map fun ps =>
    let rows := (ps.filter (j.reads x)).map fun p => (lk j.rows p).getD none
    (ps, if rows.any Option.isNone then (List.replicate x.e f32NaN, ({} : NumCnt)) else bagOutput x j.pool j.fmt (rows.filterMap id))

/-- What the bobbin holds of an item (R260). -/
def itemRegions (x : Tab) (j : GJob) (span : List Nat) (outs : List (List Nat × List F32 × NumCnt)) : DenseBob :=
  let imgs := (span.filter (j.reads x)).filterMap fun p => (lk j.rows p).getD none
  { acc := outs.map (·.2.1), rows := imgs, scales := imgs.flatMap (·.scales), exps := imgs.map (·.exp), index := span.map fun p => j.idxs.getD p 0 }

/-- R262: a gather spindle pools one item, once every row that it names is read. -/
def execGatherItem (job : Nat) (r : BagRun) (s : State) : Res := live s fun s =>
  match s.gjob job, (s.gjob job).bind s.tabJob, s.runningGather job r.bag with
  | some j, some x, some (sp, ctx) =>
    let span := itemSpan j r.bag
    match ((s.sp sp).ctxs.getD ctx {}).item with
    | none => s
    | some it =>
      if !j.items.contains r.bag || span.any (fun p => j.reads x p && (lk j.rows p).isNone) then s else
      s.withEv sp ctx it r.ev fun s =>
      let w := x.e * elemWidth j.fmt
      let owned := s.owned j.tenant j.dataAddr (64 + j.n / j.g * w)
      let idx (p : Nat) : Nat := j.idxs.getD p 0
      let pad := (span.filter fun p => idx p == paddingIdx).length
      let range := (span.filter fun p => x.rows ≤ idx p && idx p != paddingIdx).length
      let outs := itemOutputs x j span
      let s := s.useRegions sp (itemOwner it) (min 16 (cdiv (outs.length * x.e * 4) 0x8000)) true false (itemRegions x j span outs) []
      let s := if !owned then s else outs.foldl (fun s o =>
        s.memWrite j.tenant (j.dataAddr + 64 + o.1.headD 0 / j.g * w) (o.2.1.flatMap (bufBytes j.fmt))) s
      let cnt := outs.foldl (fun a o => addCnt a o.2.2) {}
      let s := (((s.charge (some sp) cnt).bump 0xE09006 outs.length).bump 0xE09008 pad).bump 0xE09009 range
      let j := { j with
        items := j.items.filter (· != r.bag), padding := j.padding + pad, range := j.range + range, nanOut := j.nanOut || outs.any fun o => 0 < o.2.2.nan }
      (((s.setGjob j).freeCtx sp ctx).schedule sp).gatherEnd j
  | _, _, _ => s

/-! ### Steps of scatter jobs (R267 to R271) -/

/-- The record of a step here. -/
def State.estep (s : State) (t n step : Nat) : EStep :=
  (s.emb.steps.find? fun k => k.tenant == t && k.table == n && k.step == step).getD { tenant := t, table := n, step }

/-- Store it. -/
def State.setStep (s : State) (k : EStep) : State :=
  { s with emb := { s.emb with steps := s.emb.steps.filter (fun (q : EStep) => !(q.tenant == k.tenant && q.table == k.table && q.step == k.step)) ++ [k] } }

/-- The held count of a step (R269, R275): records received, those forwarded away included and those forwarded here not. -/
def heldCount (k : EStep) : Nat := k.records.length + k.forwarded - k.forwardedIn

/-- Is the step closed for a table here? -/
def stepClosed (x : Tab) (step : Nat) : Bool := match x.lastClosed with | some l => step ≤ l | none => false

/-- Forward records to the new home of their rows (R275). -/
def State.forwardRecords (s : State) (b : Nat) (rs : List Contrib) : State :=
  (rs.foldl (fun s r => s.sendRole b 0x23 r.tenant (.contrib r true)) s).bump 0xE09102 rs.length

/-- A record reaches its home: held, forwarded in the frame of its row's move, or bounced later (R269, R275, R276). -/
def State.takeRecord (s : State) (x : Tab) (r : Contrib) (forwarded : Bool) (seq : Nat) : State :=
  let k := s.estep r.tenant r.table r.step
  let late := !forwarded && (stepClosed x r.step || (k.closed && !k.only.isEmpty && !k.only.contains r.node))
  if late then s
  else if s.homesRow x x.live r.row then
    let k := if k.merged then { k with merged := false, readied := false, dropsSent := false } else k
    s.setStep { k with records := k.records ++ [r], forwardedIn := k.forwardedIn + b2n forwarded }
  else
    match s.homeOf x x.live r.row, s.migOf r.tenant r.table r.row with
    | some h, some g =>
      if g.m.a == s.node && g.m.tick == s.ftick then
        (s.setStep { k with forwarded := k.forwarded + 1, delegates := addAt k.delegates h 1 }).forwardRecords h [r]
      else s.bounceMoved r.node 3 0 seq h
    | some h, none => if x.dirOver.any (fun d => d.1 == x.live && d.2.1 == r.row) then s.bounceMoved r.node 3 0 seq h else s
    | none, _ => s

/-- R269: a record of a step reaches a home. -/
def execContributionRecord (r : Contrib) (forwarded : Bool) (seq : Nat) (s : State) : Res := liveFor r.tenant s fun s =>
  match s.tabAny r.tenant r.table with
  | some x => if r.row < x.rows then s.takeRecord x r forwarded seq else s
  | none => s

/-- A participant's job ends with its step's seal, at once (R271), or with the coordinator's refusal of its summary, at its return tick (R258). -/
def State.endScatter (s : State) (t n step status v version : Nat) (incomplete refused : Bool) : State :=
  match s.emb.jobs.find? fun j => j.scatter && j.tenant == t && j.table == n && j.step == step && j.sent && !j.done with
  | none => s
  | some j =>
    let mine (r : LogReq) : Bool := match r.msg with | .contrib c _ => c.tenant == t && c.table == n && c.step == step | _ => false
    let s := { s with fault := { s.fault with log := s.fault.log.filter fun r => !mine r } }
    if refused then
      let j := { j with status, done := true }
      (s.setGjob j).finishGather j
    else
      let s := { s with emb := { s.emb with jobs := s.emb.jobs.filter fun q => q.slot != j.slot } }
      s.complete t j.seq 0xC status (b2n incomplete) j.tag j.adm (detail16 step (v + version * 2 ^ 48)) 0

/-- A participant's summary is refused (R258, R269): a step that is closed is none of its own any more. -/
def State.scatterRefused (s : State) (t n step status : Nat) : State :=
  let s := if status == 0x040B then s.setStep { s.estep t n step with joined := false } else s
  s.endScatter t n step status 0 0 false true

/-- Tell a participant that its summary is refused. -/
def State.refuseSummary (s : State) (m : Summary) (status : Nat) : State :=
  if m.node == s.node then s.scatterRefused m.tenant m.table m.step status
  else s.send m.node 0x23 m.tenant (.stepSeal m.tenant m.table m.step 0 0 false status)

/-- The coordinator takes a summary (R269, R258): refused for a closed or lower step, or if η or the version differs from the first. -/
def State.takeSummary (s : State) (m : Summary) : State :=
  match s.tabAny m.tenant m.table with
  | none => s
  | some x =>
    if s.coordOf m.tenant m.table != some s.node then s else
    let k := s.estep m.tenant m.table m.step
    if k.closed || stepClosed x m.step then s.refuseSummary m 0x040B
    else
      match k.summaries.head? with
      | none => s.setStep { k with summaries := [m], firstTick := some s.ftick, version := m.version }
      | some f =>
        if f.eta != m.eta || f.version != m.version then s.refuseSummary m 0x040D
        else if k.summaries.any (fun q => q.node == m.node) then s
        else s.setStep { k with summaries := k.summaries ++ [m] }

/-- R269: a participant's summary reaches the coordinator. -/
def execScatterSummary (m : Summary) (s : State) : Res := liveFor m.tenant s fun s => s.takeSummary m

/-- R268: a participant reads its list and gradients, sends the records and then the summary. -/
def execScatterSend (job : Nat) (badList badGrad : Bool) (s : State) : Res := live s fun s =>
  match s.gjob job, (s.gjob job).bind s.tabJob with
  | some j, some x =>
    if !j.scatter || j.sent then s else
    let w := x.e * elemWidth j.fmt
    let noList := badList || s.poisoned j.tenant j.listAddr (8 * j.n) || !s.owned j.tenant j.listAddr (8 * j.n)
    let noGrad := badGrad || s.poisoned j.tenant j.dataAddr (j.n * w) || !s.owned j.tenant j.dataAddr (j.n * w)
    let idxs := if noList || noGrad then [] else (List.range j.n).map fun i => s.loadNat j.tenant (j.listAddr + 8 * i) 8
    let pad := (idxs.filter (· == paddingIdx)).length
    let range := (idxs.filter fun r => x.rows ≤ r && r != paddingIdx).length
    let s := (s.bump 0xE09008 pad).bump 0xE09009 range
    let recs := (idxs.zipIdx).filterMap fun (r, i) => if x.rows ≤ r then none else
      some ({ tenant := j.tenant, table := j.table, step := j.step, row := r, node := s.node, pos := i,
              grad := readPlain j.fmt x.e (s.load j.tenant (j.dataAddr + i * w) w) } : Contrib)
    let s := recs.foldl (fun s r =>
      match s.homeOf x x.live r.row with
      | some h => if h == s.node then s.takeRecord x r false 0
          else (s.sendRole h 0x23 j.tenant (.contrib r false)).logReq (j.step, r.pos) h (.contrib r false)
      | none => s) s
    let s := s.bump 0xE0900F recs.length
    let m : Summary := { tenant := j.tenant, table := j.table, step := j.step, node := s.node, version := j.version, eta := j.eta, c := j.parts, count := recs.length }
    let j := { j with sent := true, done := noList || noGrad, status := if noList then 0x0407 else if noGrad then 0x0409 else 0 }
    let s := (s.setGjob j).finishGather j
    match s.coordOf j.tenant j.table with
    | some c => if c == s.node then s.takeSummary m else s.sendRole c 0x23 j.tenant (.summary m)
    | none => s
  | _, _ => s

/-- Close a step (R269): the homes with a non-zero count are told. -/
def State.closeStep (s : State) (x : Tab) (k : EStep) (held : List (Nat × Nat)) (incomplete : Bool) : State :=
  let own := heldCount k
  let homes := ((held.filter fun h => h.2 != 0 && h.1 != s.node).map (·.1)).eraseDups
  let only := if incomplete then k.summaries.map (·.node) else []
  let eta := (k.summaries.head?.map (·.eta)).getD 0#32
  let s := s.setStep { k with closed := true, incomplete, closeTick := some s.ftick, only, readyNeed := if own == 0 then homes else s.node :: homes }
  let s := s.setTab { x with lastClosed := some k.step }
  let s := (s.bump 0xE09015 1).bumpIf incomplete 0xE09016
  s.sendAll homes 0x23 k.tenant false (.close k.tenant k.table k.step only k.version eta)

/-- May the coordinator close a step: it holds a summary of it, it is open, and no lower step is open (R269)? -/
def State.mayClose (s : State) (k : EStep) : Bool :=
  s.coordOf k.tenant k.table == some s.node && !k.closed && !k.summaries.isEmpty &&
  !s.emb.steps.any fun q => q.tenant == k.tenant && q.table == k.table && q.step < k.step && !q.closed && !q.summaries.isEmpty

/-- R269: the coordinator closes a step that is all in. -/
def execStepClose (tenant table step : Nat) (held : List (Nat × Nat)) (s : State) : Res := live s fun s =>
  match s.tabAny tenant table with
  | none => s
  | some x =>
    let k := s.estep tenant table step
    let total := heldCount k + (held.filter fun h => h.1 != s.node).foldl (fun a h => a + h.2) 0
    if s.mayClose k && k.summaries.length == (k.summaries.head?.map (·.c)).getD 0 && total == k.summaries.foldl (fun a m => a + m.count) 0
    then s.closeStep x k held false else s

/-- R269: the step wait limit passes, and the step is closed with what is held. -/
def execStepWaitTimeout (tenant table step : Nat) (held : List (Nat × Nat)) (s : State) : Res := live s fun s =>
  match s.tabAny tenant table with
  | none => s
  | some x =>
    let k := s.estep tenant table step
    let due := match k.firstTick with | some f => f + s.reg 0x58000C ≤ s.ftick | none => false
    if s.mayClose k && due then s.closeStep x k held true else s

/-- The coordinator takes a ready; the delegates that it names are waited for too (R271, R275). -/
def State.takeReady (s : State) (src t n step : Nat) (delegates : List Nat) : State :=
  let k := s.estep t n step
  if !k.closed || s.coordOf t n != some s.node then s else
  let need := k.readyNeed ++ delegates.filter fun d => !k.readyNeed.contains d
  s.setStep { k with ready := if k.ready.contains src then k.ready else k.ready ++ [src], readyNeed := need }

/-- R271: a home is ready. -/
def execReadyReceive (src tenant table step : Nat) (delegates : List Nat) (s : State) : Res := live s fun s => s.takeReady src tenant table step delegates

/-- Go on after a merge (R271): once the mirrors acknowledged, replicas are dropped; once their holders acknowledged, ready is sent. A node that the
fault protocol declared failed is waited for no longer. -/
def State.finishMerge (s : State) (k : EStep) : State :=
  if !k.merged || k.readied || k.mirrors.any fun n => !s.hasFailed n then s else
  let rows := (k.records.map (·.row)).eraseDups
  let (s, k) := if k.dropsSent then (s, k) else
    let hs := s.emb.holders.filter fun h => h.1 == k.tenant && h.2.1 == k.table && rows.contains h.2.2.1
    let s := hs.foldl (fun s h => s.send h.2.2.2 0x23 k.tenant (.drop k.tenant k.table h.2.2.1)) s
    (s, { k with dropsSent := true, drops := hs.map fun h => (h.2.2.1, h.2.2.2) })
  let k := { k with drops := k.drops.filter fun d => !s.hasFailed d.2 }
  if !k.drops.isEmpty then s.setStep k
  else
    let k := { k with readied := true }
    let s := s.setStep k
    match s.coordOf k.tenant k.table with
    | some c => if c == s.node then s.takeReady s.node k.tenant k.table k.step (k.delegates.map (·.1))
        else s.send c 0x23 k.tenant (.ready k.tenant k.table k.step (k.delegates.map (·.1)))
    | none => s

/-- The new image of a row (R270): its records folded from +0 in order of node and position, and w' = w − (η × G). -/
def mergedRow (e : Nat) (eta : F32) (rs : List Contrib) (w : List F32) : List F32 × NumCnt :=
  let ordered := sortBy (fun (a b : Contrib) => a.node < b.node || (a.node == b.node && a.pos < b.pos)) rs
  let (g, c0) := poolRows e (ordered.map (·.grad))
  let (d, c1) := fMapCnt (fun y => fMul eta y) g
  let (w', c2) := fMapCnt (fun (p : F32 × F32) => fSub p.1 p.2) (w.zip d)
  (w', addCnt c0 (addCnt c1 c2))

/-- The old home hands the rows of a migration off, once it has merged every step whose close it held before M (R274). -/
def State.handOff (s : State) (m : Migration) : State :=
  match s.emb.migs.find? fun g => g.m == m, s.tabAny m.tenant m.table with
  | some g, some x =>
    let open_ (k : EStep) : Bool := k.tenant == m.tenant && k.table == m.table && !k.merged && (match k.closeTick with | some c => c < m.tick | none => false)
    if m.a != s.node || !g.switched || g.handed || s.emb.steps.any open_ then s else
    let rows := m.rows.filterMap fun r => s.rowState x x.live r
    let holders := (s.emb.holders.filter fun h => h.1 == m.tenant && h.2.1 == m.table && m.rows.contains h.2.2.1).map fun h => (h.2.2.1, h.2.2.2)
    let s := { s with emb := { s.emb with migs := updIf (fun q => q.m == m) (fun q => { q with handed := true }) s.emb.migs } }
    s.send m.b 0x23 m.tenant (.handoff m.tenant m.table rows holders)
  | _, _ => s

/-- May a home merge a step now (R270, R275): every earlier step of the table with records here is merged, and the forwarded records of its new rows are in.
In the frame of a migration to it a home waits for the notice of the old one (entry 56). -/
def State.mayMerge (s : State) (k : EStep) : Bool :=
  let earlier (q : EStep) : Bool := q.tenant == k.tenant && q.table == k.table && q.step < k.step && !q.merged && (!q.records.isEmpty || q.forwarded != 0)
  let coming (g : Mig) : Bool := g.m.tenant == k.tenant && g.m.table == k.table && g.m.b == s.node && g.m.tick == s.ftick
  !s.emb.steps.any earlier && (match k.expect with | some n => n ≤ k.forwardedIn | none => k.forwardedIn == 0 && !s.emb.migs.any coming)

/-- The stored image of a row as a merge reads it: its blocks as their stream comes in (R106 to R109); none if the stream is abandoned. -/
def State.readRow (s : State) (x : Tab) (version row sp : Nat) (inp : List (Nat × StreamIn)) : Option (List F32 × NumCnt) × State :=
  let img := (s.newestImg x version row).getD { data := [], scales := [], exp := 0 }
  if !blockScaled x.fmt then (some (decodeRow x img), s) else
  let i := (lk inp row).getD { wrong := [], endBad := false, cycles := 0 }
  let (got, cnt) := deliverStream x.fmt (row % 256) (s.reg 0x304004) (imgBlocks x img) i
  (got.map fun bs => channelVals x.fmt x.e img.exp bs, s.countStream sp cnt i.cycles)

/-- Merge the records of one row into a new overlay entry (R270). A row whose stream is abandoned keeps its image (R108; entry 56). -/
def State.mergeRow (s : State) (x : Tab) (sp step version row : Nat) (eta : F32) (rs : List Contrib) (inp : List (Nat × StreamIn)) : State × Option RowState :=
  match s.readRow x version row sp inp with
  | (none, s) => (s, none)
  | (some (w, c0), s) =>
    let (w', c1) := mergedRow x.e eta rs w
    let s := s.charge (some sp) (addCnt c0 c1)
    let s := s.setSp sp { s.sp sp with dense := { (s.sp sp).dense with acc := [w'] } }
    let (s, img) := s.encodeRow x (s.reg (pagedKey 0x3044 x.tenant)) (s.reg (pagedKey 0x3048 x.tenant)) sp row w'
    let e : ChainEnt := { step, v := none, img }
    let s := ((s.putOverlay x version row false e).bump 0xE09017 1).bump 0xE09018 (rs.length - 1)
    (s, some { row, base := (s.baseImg x version row false).getD img, chain := [e] })

/-- New images go to the mirrors of their shards, and to the new home of rows that will move (R271, R274). -/
def State.sendMerged (s : State) (x : Tab) (step version : Nat) (states : List RowState) (mirrors : List Nat) : State :=
  let s := mirrors.foldl (fun s m =>
    s.send m 0x23 x.tenant (.images x.tenant x.table step version (states.filter fun (r : RowState) => s.mirrorOf x r.row == some m))) s
  s.emb.migs.foldl (fun s g =>
    if g.m.tenant == x.tenant && g.m.table == x.table && g.m.a == s.node && !g.switched then
      let moved := states.filter fun r => g.m.rows.contains r.row
      if moved.isEmpty then s else s.send g.m.b 0x23 x.tenant (.warm x.tenant x.table moved)
    else s) s

/-- R270, R275: on close, a home merges every row with records of the step into overlay entries, on a gather spindle (R260). It waits while the overlay has no
room. -/
def execCloseStepMerge (tenant table step : Nat) (only : List Nat) (version : Nat) (eta : F32) (m : MergeIn) (s : State) : Res :=
    live s fun s =>
  match s.tabAny tenant table with
  | none => s
  | some x =>
    let k := s.estep tenant table step
    if k.merged || (k.records.isEmpty && k.forwarded == 0) then s else
    let k := { k with closeTick := if k.closeTick.isSome then k.closeTick else some s.ftick }
    let s := s.setStep k
    let kept := if only.isEmpty then k.records else k.records.filter fun r => only.contains r.node
    let recs := kept.drop k.folded
    let rows := sortBy (· < ·) (recs.map (·.row)).eraseDups
    let held := (s.emb.overlays.filter fun o => !o.mirror).length
    if !s.mayMerge k || s.reg 0x58000B < held + rows.length then s else
    match (if rows.isEmpty then some (s, 0) else s.gatherSp tenant) with
    | none => s
    | some (s, sp) =>
      let s := s.bump 0xE0901A m.waited
      let (s, states) := rows.foldl (fun (a : State × List RowState) row =>
        let (s, r) := a.1.mergeRow x sp step version row eta (recs.filter fun r => r.row == row) m.inp
        (s, a.2 ++ r.toList)) (s, [])
      let mirrors := (states.filterMap fun r => s.mirrorOf x r.row).eraseDups
      let s := s.sendMerged x step version states mirrors
      let s := k.delegates.foldl (fun s d => s.send d.1 0x23 tenant (.fwdComplete tenant table step d.2)) s
      let s := recs.foldl (fun s r => s.addLoad x r.row 1) s
      let s := if recs.isEmpty then s else s.setTab { x with lastClosed := some (max step (x.lastClosed.getD 0)) }
      let k := { k with records := kept, folded := kept.length, merged := true, mirrors, version, only }
      let s := (s.setStep k).finishMerge k
      s.emb.migs.foldl (fun s g => s.handOff g.m) s

/-- R271, R254: a mirror acknowledges new images, or the staged rows of a shard (step 0). -/
def execMirrorAck (src tenant table : Nat) (w : MirrorDone) (s : State) : Res := live s fun s =>
  let mine (g : TStage) : Bool := g.tenant == tenant && g.table == table && g.shard == w.shard && g.encoded &&
    ((tabShard s.map.entries tenant table w.shard).map (·.b)) == some src
  if w.step == 0 && s.emb.stages.any fun g => mine g && !g.mirrorOk then
    { s with emb := { s.emb with stages := updIf mine (fun g => { g with mirrorOk := true }) s.emb.stages } }
  else
    let k := s.estep tenant table w.step
    if !k.mirrors.contains src then s else
    let k := { k with mirrors := k.mirrors.filter fun m => m != src }
    (s.setStep k).finishMerge k

/-- The mirror's copy of a staged shard takes new pages of the tenant (R72, R254, R288). -/
def State.mirrorPages (s : State) (x : Tab) (version row : Nat) : State :=
  if (s.baseImg x version row true).isSome then s else
  let (s, pages) := s.takeHidden x.tenant (s.rowTier x.tenant) (shardPages x (row / x.shardRows))
  s.setTab { x with pages := x.pages ++ pages.map fun p => (version, p) }

/-- R271, R254: the mirror of a shard stores new images or staged rows, and acknowledges. -/
def execMirrorImages (src tenant table step version : Nat) (rows : List RowState) (s : State) : Res := liveFor tenant s fun s =>
  match s.tabAny tenant table with
  | none => s
  | some x =>
    let s := match (if step == 0 then rows.head? else none) with | some r => s.mirrorPages x version r.row | none => s
    let s := rows.foldl (fun s r =>
      let s := if (s.baseImg x version r.row true).isSome && !r.chain.isEmpty then s else s.putRow x version r.row true r.base
      r.chain.foldl (fun s e => s.putOverlay x version r.row true e) s) s
    s.send src 0x23 tenant (.imagesAck tenant table step ((rows.head?.map fun r => r.row / x.shardRows).getD 0))

/-- Install the seals whose tick has come (R256, R271): the entries of the step become visible, or go if the version was replaced. -/
def State.installSteps (s : State) : State :=
  let due := s.emb.steps.filter fun k => match k.sealAt with | some v => v ≤ s.ftick | none => false
  due.foldl (fun s k =>
    let v := k.sealAt.getD 0
    let mine (o : Overlay) : Bool := o.tenant == k.tenant && o.table == k.table && o.step == k.step && o.v.isNone
    let live := match s.tabAny k.tenant k.table with | some x => s.liveAt x v == k.version | none => false
    let os := if live then updIf mine (fun o => { o with v := some v }) s.emb.overlays else s.emb.overlays.filter fun o => !mine o
    { s with emb := { s.emb with
        overlays := os
        steps := s.emb.steps.filter fun q => !(q.tenant == k.tenant && q.table == k.table && q.step == k.step) } }) s

/-- A step seal reaches a home, a mirror or a participant (R271). -/
def State.takeSeal (s : State) (t n step v version : Nat) (incomplete : Bool) (refused : Nat) : State :=
  if refused != 0 then s.scatterRefused t n step refused
  else
    match s.tabAny t n with
    | none => s.endScatter t n step 0 v version incomplete false
    | some x =>
      let status := if s.liveAt x v == version then 0 else 0x040A
      let s := s.endScatter t n step status v version incomplete false
      let s := s.setTab { x with lastClosed := some (max step (x.lastClosed.getD 0)) }
      let k := s.estep t n step
      let s := s.setStep { k with sealAt := some v, version }
      let s := s.emb.migs.foldl (fun s g =>
        if g.m.tenant == t && g.m.table == n && g.m.a == s.node && g.handed then
          let moved := (s.emb.overlays.filter fun o => o.tenant == t && o.table == n && o.step == step && !o.mirror && g.m.rows.contains o.row).map fun o =>
            ({ row := o.row, base := o.img, chain := [{ step, v := some v, img := o.img }] } : RowState)
          if moved.isEmpty then s else s.send g.m.b 0x23 t (.warm t n moved)
        else s) s
      if v ≤ s.ftick then s.installSteps else s

/-- R271: a seal arrives. -/
def execStepSeal (tenant table step v version : Nat) (incomplete : Bool) (refused : Nat) (s : State) : Res := live s fun s =>
  s.takeSeal tenant table step v version incomplete refused

/-- The coordinator seals every closed step whose homes are all ready, for the next tick (R271). -/
def State.sealSteps (s : State) : State :=
  let due := s.emb.steps.filter fun k => k.closed && k.sealAt.isNone && s.coordOf k.tenant k.table == some s.node && k.readyNeed.all k.ready.contains
  (sortBy (fun (a b : EStep) => a.step < b.step) due).foldl (fun s k =>
    let v := s.ftick + 1
    let sh := tabShards s.map.entries k.tenant k.table
    let moved := match s.tabAny k.tenant k.table with | some x => x.dirOver.filterMap fun d => if k.ready.contains d.2.2 then s.mirrorOf x d.2.1 else none | none => []
    let mirrors := ((sh.filter fun e => k.ready.contains e.a).map (·.b)).filter (· != 0xFFFF)
    let dsts := (k.ready ++ mirrors ++ moved ++ k.summaries.map (·.node)).eraseDups
    let s := s.sendAll dsts 0x23 k.tenant false (.stepSeal k.tenant k.table k.step v k.version k.incomplete 0)
    s.takeSeal k.tenant k.table k.step v k.version k.incomplete 0) s

/-- Cycle 0 of a tick (R269, R271): the homes report their held counts, merges that waited for a failed node go on, and steps are sealed. -/
def State.stepsTick (s : State) : State :=
  let s := s.emb.steps.foldl (fun s k =>
    match s.coordOf k.tenant k.table with
    | some c => if c == s.node || k.merged || heldCount k == 0 then s else s.send c 0x23 k.tenant (.held k.tenant k.table k.step (heldCount k))
    | none => s) s
  let s := s.emb.steps.foldl State.finishMerge s
  s.sealSteps

/-- R266: the oldest visible entry of a row is written back into the base slot once the retention has passed, in the home's copy and the mirror's. -/
def execOverlayWriteback (tenant table row : Nat) (s : State) : Res := live s fun s =>
  [false, true].foldl (fun s mirror =>
    match s.emb.overlays.find? fun o => o.tenant == tenant && o.table == table && o.row == row && o.mirror == mirror with
    | some o =>
      match o.v, s.tabAny tenant table with
      | some v, some x =>
        if s.ftick < v + s.reg 0x58000A then s else
        let s := { s with emb := { s.emb with overlays := s.emb.overlays.filter fun q => q != o } }
        (s.putRow x o.version row mirror o.img).bump 0xE0901B 1
      | _, _ => s
    | none => s) s

/-! ### Load and migration (R272 to R276) -/

/-- Decide a migration (R273): the top rows of the busiest home go to the least busy one, as few as bring the totals within the ratio. -/
def State.decideMigration (s : State) (x : Tab) : State :=
  let rs := s.emb.reports.filter fun r => r.tenant == x.tenant && r.table == x.table
  let homes := (((tabShards s.map.entries x.tenant x.table).map (·.a)).filter (· != 0xFFFF) ++ (x.dirOver.filter fun d => d.1 == x.live).map (·.2.2)).eraseDups
  if !homes.all (fun h => rs.any fun r => r.home == h) then s else
  let s := { s with emb := { s.emb with reports := s.emb.reports.filter fun r => !(r.tenant == x.tenant && r.table == x.table) } }
  let hi := rs.foldl (fun (b : Option LoadRep) r => match b with
    | none => some r | some m => if m.load < r.load || (m.load == r.load && r.home < m.home) then some r else b) none
  let lo := rs.foldl (fun (b : Option LoadRep) r => match b with
    | none => some r | some m => if r.load < m.load || (m.load == r.load && r.home < m.home) then some r else b) none
  match hi, lo with
  | some h, some l =>
    let ratio := s.reg 0x58000F
    if h.load * 256 ≤ l.load * ratio then s else
    let (rows, _) := h.top.foldl (fun (a : List Nat × Nat) (r : Nat × Nat) =>
      if (h.load - a.2) * 256 ≤ (l.load + a.2) * ratio then a else (a.1 ++ [r.1], a.2 + r.2)) ([], 0)
    if rows.isEmpty then s else
    let m : Migration := { tenant := x.tenant, table := x.table, a := h.home, b := l.home, rows, tick := s.ftick + s.reg 0x58000D }
    let s := ((s.bump 0xE09019 1).bump 0xE09101 rows.length).sendAll (s.dirHolders x.tenant x.table) 0x23 x.tenant false (.migration m)
    { s with emb := { s.emb with migs := s.emb.migs ++ [({ m := m } : Mig)] } }
  | _, _ => s

/-- The old home streams the rows that will move (R274). -/
def State.startWarm (s : State) (m : Migration) : State :=
  match (if m.a == s.node then s.tabNow m.tenant m.table else none) with
  | some x =>
    let rows := m.rows.filterMap fun r => s.rowState x x.live r
    if rows.isEmpty then s else s.send m.b 0x23 m.tenant (.warm m.tenant m.table rows)
  | none => s

/-- The coordinator takes a report (R272, R273). -/
def State.takeReport' (s : State) (r : LoadRep) : State :=
  match s.tabNow r.tenant r.table with
  | none => s
  | some x =>
    if s.coordOf r.tenant r.table != some s.node then s else
    let rest := s.emb.reports.filter fun q => !(q.home == r.home && q.tenant == r.tenant && q.table == r.table)
    let before := s.emb.migs.length
    let s := { s with emb := { s.emb with reports := rest ++ [r] } }.decideMigration x
    (s.emb.migs.drop before).foldl (fun s g => s.startWarm g.m) s

/-- The top rows of a table in the load window: most lines first, equal counts to the lower row (R272). -/
def State.topRows (s : State) (x : Tab) : List (Nat × Nat) :=
  let mine := (s.emb.rowLoads.filter fun p => p.1.1 == x.tenant && p.1.2.1 == x.table).map fun p => (p.1.2.2, p.2)
  (sortBy (fun (a b : Nat × Nat) => b.2 < a.2 || (a.2 == b.2 && a.1 < b.1)) mine).take (s.reg 0x580010)

/-- Replicate the hot rows of a table (R277): also one that its reader has held before and has dropped since. -/
def State.replicate (s : State) (x : Tab) : State :=
  let hot := s.emb.reads.filter fun p => p.1.1 == x.tenant && p.1.2.1 == x.table && s.reg 0x580011 ≤ p.2 && p.1.2.2.2 != s.node &&
    s.homesRow x x.live p.1.2.2.1
  hot.foldl (fun s p =>
    match s.rowView x x.live p.1.2.2.1 s.ftick with
    | some (img, _) =>
      let s := s.send p.1.2.2.2 0x23 x.tenant (.replica x.tenant x.table p.1.2.2.1 s.ftick img)
      { s with emb := { s.emb with holders := s.emb.holders.filter (fun (h : Nat × Nat × Nat × Nat) => h != p.1) ++ [p.1] } }
    | none => s) s

/-- R272, R277: a load window ends. Homes report their totals, hot rows are replicated and the counts start again. -/
def execLoadWindowEnd (s : State) : Res := live s fun s =>
  if s.ftick < s.emb.windowStart + s.reg 0x58000E then s else
  let tabs := s.emb.tabs.filter fun x => (s.tabNow x.tenant x.table).isSome
  let s := tabs.foldl (fun s x =>
    let load := (s.emb.loads.filter fun p => p.1.1 == x.tenant && p.1.2.1 == x.table).foldl (fun a p => a + p.2) 0
    let s := (s.setReg (0x581600 + x.slot) load).replicate x
    if s.rowsHomed x == 0 then s else
    let r : LoadRep := { home := s.node, tenant := x.tenant, table := x.table, load, top := s.topRows x }
    match s.coordOf x.tenant x.table with
    | some c => if c == s.node then s.takeReport' r else s.sendRole c 0x23 x.tenant (.load x.tenant x.table load r.top)
    | none => s) s
  { s with emb := { s.emb with loads := [], rowLoads := [], reads := [], windowStart := s.ftick } }

/-- R273: a home's report reaches the coordinator. -/
def execLoadReport (src tenant table load : Nat) (top : List (Nat × Nat)) (s : State) : Res := live s fun s =>
  s.takeReport' { home := src, tenant, table, load, top }

/-- R274: a migration decision arrives. One that names a tick already passed is stale (R25, R276). -/
def execMigrationDecision (m : Migration) (s : State) : Res := live s fun s =>
  if m.tick ≤ s.ftick then s.stale
  else if s.emb.migs.any (fun g => g.m == m) then s
  else { s with emb := { s.emb with migs := s.emb.migs ++ [({ m := m } : Mig)] } }.startWarm m

/-- Take the state of rows that move here (R274): an entry that is here already is sealed by the newer word of it. -/
def State.takeRows (s : State) (x : Tab) (rows : List RowState) : State :=
  rows.foldl (fun s r =>
    let s := if (s.baseImg x x.live r.row false).isSome then s else s.putRow x x.live r.row false r.base
    r.chain.foldl (fun s e =>
      if e.v.isNone && (s.chainOf x x.live r.row false).any (fun o => o.step == e.step) then s else s.putOverlay x x.live r.row false e) s) s

/-- R274: streamed rows and later changes reach the new home before the hand-off; a change after it goes to the rows themselves. -/
def execWarmCopy (tenant table : Nat) (rows : List RowState) (s : State) : Res := liveFor tenant s fun s =>
  match s.tabNow tenant table with
  | none => s
  | some x =>
    let (here, warm) := rows.partition fun r => s.homesRow x x.live r.row && (match s.migOf tenant table r.row with | some g => g.handed | none => true)
    let rest := s.emb.warm.filter fun w => !(w.1 == tenant && w.2.1 == table && warm.any fun r => r.row == w.2.2.row)
    { s with emb := { s.emb with warm := rest ++ warm.map fun (r : RowState) => (tenant, table, r) } }.takeRows x here

/-- R274: the hand-off reaches the new home, which serves the rows from then on. -/
def execMigrationHandoff (tenant table : Nat) (rows : List RowState) (holders : List (Nat × Nat)) (waited : Nat) (s : State) : Res := liveFor tenant s fun s =>
  match s.tabNow tenant table with
  | none => s
  | some x =>
    let mine (g : Mig) : Bool := g.m.tenant == tenant && g.m.table == table && g.m.b == s.node && !g.handed && rows.all fun r => g.m.rows.contains r.row
    if !s.emb.migs.any mine then s else
    let s := s.bump 0xE09104 waited
    let s := { s with emb := { s.emb with
        migs := updIf mine (fun g => { g with handed := true }) s.emb.migs
        warm := s.emb.warm.filter fun w => !(w.1 == tenant && w.2.1 == table && rows.any fun r => r.row == w.2.2.row)
        holders := s.emb.holders ++ holders.map fun (h : Nat × Nat) => (tenant, table, h.1, h.2) } }
    s.takeRows x rows

/-- R275: the count of the records that the old home forwarded for a step. -/
def execForwardComplete (tenant table step count : Nat) (s : State) : Res := live s fun s =>
  let k := s.estep tenant table step
  s.setStep { k with expect := some (k.expect.getD 0 + count) }

/-- The directory of a migration switches at M, and the old home forwards the records that it holds of open steps (R274, R275). -/
def State.switchRows (s : State) (x : Tab) (m : Migration) : State :=
  let s := s.setTab { x with
    dirOver := x.dirOver.filter (fun (d : Nat × Nat × Nat) => !(d.1 == x.live && m.rows.contains d.2.1)) ++ m.rows.map fun r => (x.live, r, m.b) }
  let s := { s with emb := { s.emb with migs := updIf (fun q => q.m == m) (fun q => { q with switched := true }) s.emb.migs } }
  if m.a != s.node then s else
  s.emb.steps.foldl (fun s k =>
    if k.tenant != m.tenant || k.table != m.table || k.merged || k.closeTick.isSome then s else
    let (go, stay) := k.records.partition fun r => m.rows.contains r.row
    if go.isEmpty then s
    else (s.setStep { k with records := stay, forwarded := k.forwarded + go.length, delegates := addAt k.delegates m.b go.length }).forwardRecords m.b go) s

/-- A tick of the migrations (R274, R275): at M the directory switches, and the old home hands the rows off once its earlier steps are merged; after that, from
M + 1 on, it frees the rows. -/
def State.migrationsTick (s : State) : State :=
  s.emb.migs.foldl (fun s g =>
    let m := g.m
    match s.tabAny m.tenant m.table with
    | none => s
    | some x =>
      if m.tick == s.ftick then (s.switchRows x m).handOff m
      else if m.tick < s.ftick then
        if (m.a == s.node || m.b == s.node) && !g.handed then s
        else
          let s := if m.a == s.node then m.rows.foldl (fun s r => s.dropRow x x.live r) s else s
          { s with emb := { s.emb with migs := s.emb.migs.filter fun q => q.m != m } }
      else s) s

/-! ### Hot rows (R277 to R279) -/

/-- The bytes of a replica in the store. -/
def replicaBytes (img : RowImg) : Nat := img.data.length + 4 * img.scales.length + 1

/-- Drop the replicas least recently read until an image fits into the store (R277). -/
def makeRoom (limit need : Nat) : Nat → List Replica → List Replica
  | 0, l => l
  | n + 1, l =>
    if l.foldl (fun a r => a + replicaBytes r.img) 0 + need ≤ limit then l else
    match l.foldl (fun (b : Option Replica) r => match b with | none => some r | some m => if r.used < m.used then some r else b) none with
    | some v => makeRoom limit need n (l.filter fun r => r != v)
    | none => l

/-- R277: a replica of a hot row reaches the reading Molset. One of a view before a switch of the table is dropped. -/
def execReplicaReceive (src tenant table row view : Nat) (img : RowImg) (s : State) : Res := liveFor tenant s fun s =>
  match s.tabNow tenant table with
  | none => s
  | some x =>
    if s.homeOf x x.live row != some src || x.old.any (fun o => view < o.2) || s.reg 0x580012 < replicaBytes img then s else
    let rest := s.emb.replicas.filter fun r => !(r.tenant == tenant && r.table == table && r.row == row)
    let kept := makeRoom (s.reg 0x580012) (replicaBytes img) rest.length rest
    let r : Replica := { tenant, table, row, view, used := s.emb.stamp, img }
    ({ s with emb := { s.emb with replicas := kept ++ [r], stamp := s.emb.stamp + 1 } }.bump 0xE09106 1).bump 0xE09107 (rest.length - kept.length)

/-- R279: a holder drops a replica at once and acknowledges. -/
def execReplicaDrop (src tenant table row : Nat) (s : State) : Res := live s fun s =>
  (s.dropReplicas tenant table (· == row)).send src 0x23 tenant (.dropAck tenant table row)

/-- R279: the home takes the acknowledgement of a drop. -/
def execReplicaDropAck (src tenant table row : Nat) (s : State) : Res := live s fun s =>
  let s := { s with emb := { s.emb with holders := s.emb.holders.filter fun h => h != (tenant, table, row, src) } }
  let ks := s.emb.steps.filter fun k => k.tenant == tenant && k.table == table && k.drops.contains (row, src)
  ks.foldl (fun s k => let k := { k with drops := k.drops.filter (· != (row, src)) }; (s.setStep k).finishMerge k) s

/-! ### Ticks -/

/-- May a gather that is bound to a replaced version still read it here (R256): a job of this Molset has a read of it under way, or another Molset may, within
the retention after which no read of an older view comes (R266)? Another Molset's reads are not known here (entry 56). -/
def State.versionRead (s : State) (x : Tab) (v p : Nat) : Bool :=
  let reads (j : GJob) : Bool := (List.range j.n).any fun i => j.reads x i && (lk j.rows i).isNone && s.homesRow x v (j.idxs.getD i 0)
  s.emb.jobs.any (fun j => !j.scatter && j.tab == x.slot && j.version == v && !j.done && reads j) ||
  ((s.dirHolders x.tenant x.table).any (· != s.node) && s.ftick ≤ p + s.reg 0x58000A)

/-- Steps 6 and 7 of a tick: switches and migrations that name it, replaced versions that no gather reads any more, and released tables
(R250, R255, R256, R274). -/
def State.tabsTick (s : State) : State :=
  let s := (s.emb.switches.filter fun w => w.p == s.ftick).foldl State.applySwitch s
  let s := s.migrationsTick
  let s := s.emb.tabs.foldl (fun s x =>
    (x.old.filter fun o => !s.versionRead x o.1 o.2).foldl (fun s o =>
      match s.emb.tabs.find? fun y => y.slot == x.slot with | some y => (s.freeVersion y o.1).bump 0xE09012 1 | none => s) s) s
  let gone := s.emb.tabs.filter fun x => (match x.stop with | some e => e ≤ s.ftick | none => false) &&
    !s.emb.jobs.any (fun j => j.tab == x.slot) &&
    !s.emb.steps.any fun k => k.tenant == x.tenant && k.table == x.table && (k.closed || !k.summaries.isEmpty)
  let s := gone.foldl (fun s x =>
    let vs := (x.pages.map (·.1)).eraseDups
    let s := vs.foldl (fun s v => match s.emb.tabs.find? fun y => y.slot == x.slot with | some y => s.freeVersion y v | none => s) s
    let s := s.dropReplicas x.tenant x.table fun _ => true
    { s with emb := { s.emb with
        tabs := s.emb.tabs.filter fun y => y.slot != x.slot
        steps := s.emb.steps.filter fun k => !(k.tenant == x.tenant && k.table == x.table)
        stages := s.emb.stages.filter fun k => !(k.tenant == x.tenant && k.table == x.table)
        holders := s.emb.holders.filter fun k => !(k.1 == x.tenant && k.2.1 == x.table) } }.tabClear x.slot) s
  s.tabRegs

/-- A change of the map gives a mirror's copy to a new home, or the reverse (R251, R371). -/
def State.rerole (s : State) : State :=
  let side (t n row : Nat) (old : Bool) : Bool :=
    match (s.tabHeld t n).bind fun x => tabShard s.map.entries t n (row / x.shardRows) with
    | some e => if e.a == s.node then false else if e.b == s.node then true else old
    | none => old
  let moved (t n v row : Nat) : Bool := match s.tabHeld t n with | some x => x.dirOver.any fun d => d.1 == v && d.2.1 == row | none => false
  { s with emb := { s.emb with
      rows := s.emb.rows.map fun r => if moved r.tenant r.table r.version r.row then r else { r with mirror := side r.tenant r.table r.row r.mirror }
      overlays := s.emb.overlays.map fun r => if moved r.tenant r.table r.version r.row then r else { r with mirror := side r.tenant r.table r.row r.mirror } } }

/-- Jobs whose completion is due in this frame, and gathers whose list could not be read (R258); shards whose rows no spindle could encode before (R261). -/
def State.gathersTick (s : State) : State :=
  let s := s.emb.stages.foldl State.stageRows s
  s.emb.jobs.foldl (fun s j => if j.done then s.finishGather j else if !j.scatter && j.items.isEmpty then s.gatherEnd j else s) s

/-- Spindles in service of a die, lowest first, outside the dense set. -/
def State.lowFirst (s : State) (die : Nat) : List Nat := s.upSpindles.filter fun n => dieOf n == die && !s.ctl.denseSet.contains n

/-- R260, R261: name the gather spindles of the frame, after the dense set. A share cut to what remains is counted. One that leaves the set has its
queued gather items dealt again, and items that wait find what the sets leave. -/
def State.nameGather (s : State) : State :=
  let (want, room) := s.gatherShare
  let s := s.bumpIf (room < want) 0xE0901F
  let set := alternate (min want room) (s.lowFirst 0) (s.lowFirst 1)
  let gone := s.ctl.gatherSet.filter fun n => !set.contains n
  let s := { s with ctl := { s.ctl with gatherSet := set } }
  let s := gone.foldl (fun s n =>
    let p := s.sp n
    let items := p.queue.filter fun i => i.kind == 2
    let s := s.setSp n { p with queue := p.queue.filter fun i => i.kind != 2 }
    items.foldl State.dealSet s) s
  s.redealAll

end Sys2Proof.Machine
end

