-- ==== Sys2Proof/Machine/Thatch.lean ====
section
/-! DEFINITION. Thatches, inserts and deletes (R195 to R225): registration, the delta sequence, seals, builds and publishes; and resident filters
(R153, R441). -/

namespace Sys2Proof.Machine

/-! ### Registration (R195) -/

/-- The index descriptor of an entry (R195). -/
def descOf (t : Nat) (e : Entry) : IdxDesc where
  tenant := t
  index := eNat e 16 2
  shards := eNat e 18 2
  lists := eNat e 20 4
  m := eNat e 24 1
  shape := eNat e 25 1
  d := eNat e 26 2
  dim := eNat e 28 2
  rr := eNat e 30 1
  spill := eNat e 31 1 == 1
  margin := eF32 e 32
  deltaLimit := eNat e 36 2

/-- Is an F32 finite and 0 or greater (R195)? -/
def nonNeg (x : F32) : Bool := isFinite x && 0 ≤ fKey x

/-- Has an earlier entry of a kind for the same index been accepted in this tick (R195, R216)? -/
def State.claimed (s : State) (kind t seq i : Nat) : Bool := s.sched.claims.any fun c => c.1 == kind && c.2.1 == t && c.2.2.1 < seq && c.2.2.2 == i

/-- An accepted entry counts for the later ones of the tick. -/
def State.claim (s : State) (kind t seq i : Nat) : State :=
  let rest := s.sched.claims.filter fun c => !(c.1 == kind && c.2.1 == t && c.2.2.1 == seq)
  { s with sched := { s.sched with claims := rest ++ [(kind, t, seq, i)] } }

/-- The status of an index entry found in step 8; 0 passes (R195). -/
def State.indexStatus (s : State) (t seq : Nat) (e : Entry) : Nat :=
  let d := descOf t e
  if !eZero e 38 90 || eNat e 31 1 > 1 || !(d.rr == 5 || d.rr == 7) || 32 ≤ d.shape || shapeMetric d.shape == 3 then 0x0211
  else if !(1 ≤ d.shards && d.shards ≤ s.reg 0x404003 && 1 ≤ d.lists && d.lists ≤ s.reg 0x404002 && shapeOk d.m d.shape d.d d.dim &&
    nonNeg d.margin && 16 ≤ d.deltaLimit && d.deltaLimit ≤ s.reg 0x404005) then 0x0212
  else if (s.findIdx t d.index).isSome || s.regWait.any (fun w => w.tenant == t && w.index == d.index) || s.claimed 3 t seq d.index then 0x0213
  else if !s.inService t then 0x0215
  else 0

/-- The roles of a node in an index (0x4048). -/
def rolesOf (m : List MapEntry) (node t i : Nat) : Nat :=
  let svc := (idxService m t i).toList
  let sh := idxShards m t i
  flagWord [svc.any (·.a == node), svc.any (fun e => e.b == node || e.c == node), sh.any (·.a == node), sh.any (·.b == node), sh.any (·.c == node)]

/-- Hold an index descriptor in the lowest free slot (R195, R224): registered from the next tick. None without a free slot. -/
def State.takeIndex (s : State) (d : IdxDesc) (home : Nat) : Option State :=
  ((List.range (s.reg 0x404001)).find? fun n => !s.idx.any fun x => x.slot == n).map fun slot =>
    let x : Idx := { slot, desc := d, home, regTick := s.ftick + 1 }
    ({ s with idx := s.idx ++ [x] }.setReg (pagedKey 0x4041 slot) (d.tenant + d.index * 65536)).setReg (pagedKey 0x4048 slot)
      (rolesOf s.map.entries s.node d.tenant d.index)

/-- A thatch goes: its pages are given back (R72, R222). -/
def State.dropThatches (s : State) (t : Nat) (hs : List Thatch) : State := hs.foldl (fun s h => s.dropHidden t h.pages) s

/-- Drop an index and clear its slot's objects. -/
def State.dropIndex (s : State) (t i : Nat) : State :=
  match s.findIdx t i with
  | none => s
  | some x =>
    let s := s.dropThatches t x.thatches
    let s := { s with idx := s.idx.filter fun y => y.slot != x.slot }
    (List.range 9).foldl (fun s k => s.setReg (pagedKey (0x4041 + k) x.slot) 0) s

/-- Complete a registration once every answer is in (R195). A refusal for want of a slot discards the descriptor, here and on every Molset that has it. -/
def State.finishIndex (s : State) (w : RegWait) : State :=
  if !w.nodes.all (fun n => w.yes.contains n || w.no.contains n) then s else
  let s := { s with regWait := s.regWait.filter fun x => !(x.tenant == w.tenant && x.index == w.index) }
  if w.no.isEmpty then s.complete w.tenant w.seq 3 0 0 0 w.tick [] 0
  else
    let s := (s.dropIndex w.tenant w.index).sendAll w.yes 0x21 w.tenant false (.idxAck w.tenant w.index false)
    (s.bump 0xE07012 1).complete w.tenant w.seq 3 0x0214 0 0 w.tick [] 0

/-- An answer to a registration. -/
def State.answerIndex (s : State) (src t i : Nat) (ok : Bool) : State :=
  match s.regWait.find? fun w => w.tenant == t && w.index == i with
  | none => s
  | some w =>
    if !w.nodes.contains src || w.yes.contains src || w.no.contains src then s else
    let w := if ok then { w with yes := w.yes ++ [src] } else { w with no := w.no ++ [src] }
    { s with regWait := updIf (fun x => x.tenant == t && x.index == i) (fun _ => w) s.regWait }.finishIndex w

/-- Process an index entry: send the descriptor to every Molset where the tenant is in service (R195). -/
def State.admitIndex (s : State) (t seq : Nat) : State :=
  let d := descOf t (s.entryOf t seq)
  let nodes := ((s.map.entries.filter fun e => e.kind == 2 && e.tenant == t && e.value == 1).map (·.a)).eraseDups
  let nodes := if nodes.contains s.node then nodes else nodes ++ [s.node]
  let w : RegWait := { tenant := t, seq, index := d.index, nodes, yes := [], no := [], tick := s.ftick }
  let s := { s with regWait := s.regWait ++ [w] }.sendAll nodes 0x21 t false (.idxDesc s.node d)
  match s.takeIndex d s.node with
  | some s' => s'.answerIndex s.node t d.index true
  | none => s.answerIndex s.node t d.index false

/-- The check of an index entry (R195). -/
def checkIndex (t seq : Nat) (s : State) (e : Entry) : State × Chk :=
  let st := s.indexStatus t seq e
  if st == 0 then (s.claim 3 t seq (eNat e 16 2), .pass 1 false) else ((s.bump 0xE07012 1).reservedFmt (eNat e 30 1), .refuse st)

/-- R195: the check of an index entry. -/
def execIndexRegister (tenant seq : Nat) (bad : Bool) (s : State) : Res := live s fun s => s.ringRow tenant seq bad 3 anyEntry (checkIndex tenant seq)

/-- R195: a Molset of the tenant's service receives a descriptor, takes a slot and answers. -/
def execIndexDescriptor (src : Nat) (m : DescMsg) (s : State) : Res := liveFor m.desc.tenant s fun s =>
  if (s.findIdx m.desc.tenant m.desc.index).isSome then s.send src 0x21 m.desc.tenant (.idxAck m.desc.tenant m.desc.index true) else
  match s.takeIndex m.desc m.home with
  | some s => s.send src 0x21 m.desc.tenant (.idxAck m.desc.tenant m.desc.index true)
  | none => s.send src 0x21 m.desc.tenant (.idxAck m.desc.tenant m.desc.index false)

/-- R195: the home receives an answer. A refusal that the home itself sends tells another Molset to discard the descriptor. -/
def execIndexAck (src tenant index : Nat) (ok : Bool) (s : State) : Res := live s fun s =>
  match s.findIdx tenant index with
  | some x => if !ok && src == x.home && x.home != s.node && x.thatches.isEmpty then s.dropIndex tenant index else s.answerIndex src tenant index ok
  | none => s.answerIndex src tenant index ok

/-- A Molset that enters a tenant's service receives the descriptor of every registered index from the index's sequencer (R195). -/
def State.serviceJoined (s : State) (old : List MapEntry) : State :=
  let fresh := s.map.entries.filter fun e => e.kind == 2 && e.value == 1 && e.a != s.node &&
    !old.any fun y => y.kind == 2 && y.value == 1 && y.tenant == e.tenant && y.a == e.a
  fresh.foldl (fun s e => (s.idx.filter fun x => x.desc.tenant == e.tenant).foldl (fun s x =>
    let first := match idxService s.map.entries e.tenant x.desc.index with | some m => m.a == s.node | none => x.home == s.node
    if first then s.send e.a 0x21 e.tenant (.idxDesc x.home x.desc) else s) s) s

/-! ### Records (R205 to R207) -/

/-- A part of a delta record: its 16-byte head, then codes and sign code padded to a multiple of 16 (R206). -/
def partBytes (shape : Nat) (p : DPart) : List Byte :=
  let body := itemCodes shape p.codes ++ p.sign
  leBytes 2 p.version ++ leBytes 2 0 ++ leBytes 4 p.list ++ leBytes 4 p.spill ++ leBytes 4 0 ++
    body ++ List.replicate (cdiv body.length 16 * 16 - body.length) 0

/-- The bytes of a delta record, its check included (R206). -/
def recordBytesOf (shape : Nat) (r : DeltaRec) : List Byte :=
  let parts := r.parts.flatMap (partBytes shape)
  let head := leBytes 8 r.seq ++ leBytes 6 r.id ++ leBytes 1 r.op ++ leBytes 1 r.parts.length ++ leBytes 2 r.home ++ leBytes 6 r.ringSeq ++
    leBytes 4 (32 + parts.length + r.vec.length)
  let check := crc32c (head ++ leBytes 4 0 ++ parts ++ r.vec)
  head ++ leBytes 4 check.toNat ++ parts ++ r.vec

/-- The digest of sealed records in sequence order (R208). -/
def recordsDigest (shape : Nat) (rs : List DeltaRec) : W64 :=
  crc64 ((sortBy (fun (a b : DeltaRec) => a.seq < b.seq) rs).flatMap (recordBytesOf shape))

/-- Append an item to a delta segment: at the next position of its last shingle, or in a new one (R212). Its vector goes to the next place of the segment's
vectors (R213): the thatch, and what is written where. -/
def appendDelta (h : Thatch) (base deltaList : Nat) (r : DeltaRec) (p : DPart) (list : Nat) : Thatch × Nat × List Byte :=
  let im := h.im
  let cap := capacity im.m im.shape
  let addr := h.vecs + h.entries.length * rerankLen im.rr im.dim
  let open_ := h.delta.getLast?.bind fun l => if l.count < cap then some l else none
  let (num, items) := match open_ with
    | some l => (l.num, (List.range l.count).map fun i => (l.ids.getD i 0, l.signs.getD i [], l.codes.getD i []))
    | none => (base + h.delta.length, [])
  let sh := mkShingle im.version num deltaList im.cbset im.m im.shape im.d (items ++ [(r.id, p.sign, p.codes)])
  let ent : DeltaEnt := { ins := r.seq, rem := none, id := r.id, shingle := num, pos := items.length, list, addr }
  ({ h with delta := (if open_.isSome then h.delta.dropLast else h.delta) ++ [sh], entries := h.entries ++ [ent] }, addr, r.vec)

/-- What applying records counts: tombstone bits set, delta entries removed, delta items appended; and the vectors that it writes. -/
structure ApplyCnt where
  tomb : Nat := 0
  rem : Nat := 0
  app : Nat := 0
  vecs : List (Nat × List Byte) := []
  deriving DecidableEq, Repr

/-- Add two counts. -/
def addApply (a b : ApplyCnt) : ApplyCnt := { tomb := a.tomb + b.tomb, rem := a.rem + b.rem, app := a.app + b.app, vecs := a.vecs ++ b.vecs }

/-- Apply one committed record to a thatch of a shard (R207): records at or below the fold sequence are in the image already. -/
def applyRecord (base deltaList : Nat) (h : Thatch) (r : DeltaRec) : Thatch × ApplyCnt :=
  if r.seq ≤ h.im.fold then (h, {}) else
  let hits := (h.im.itemMap.filter fun i => i.id == r.id && !h.tomb.any fun t => t.1 == i.shingle && t.2.1 == i.pos).map fun i => (i.shingle, i.pos, r.seq)
  let gone := (h.entries.filter fun e => e.id == r.id && e.rem.isNone).length
  let h := { h with
    tomb := h.tomb ++ hits
    entries := updIf (fun e => e.id == r.id && e.rem.isNone) (fun e => { e with rem := some r.seq }) h.entries }
  let c : ApplyCnt := { tomb := hits.length, rem := gone }
  if r.op != 1 then (h, c) else
  match r.parts.find? fun p => p.version == h.im.version with
  | none => (h, c)
  | some p =>
    let mine (l : Nat) : Bool := l != 0xFFFFFFFF && h.im.listShard.getD l 0xFFFF == h.im.shard
    let add (l : Nat) : Thatch × ApplyCnt := let (h, w) := appendDelta h base deltaList r p l; (h, { c with app := 1, vecs := [w] })
    if mine p.list then add p.list else if mine p.spill then add p.spill else (h, c)

/-- Apply records in ascending sequence. -/
def applyRecords (base deltaList : Nat) (h : Thatch) (rs : List DeltaRec) : Thatch × ApplyCnt :=
  (sortBy (fun (a b : DeltaRec) => a.seq < b.seq) rs).foldl (fun (h, c) r =>
    let (h, d) := applyRecord base deltaList h r
    (h, addApply c d)) (h, {})

/-- Count what was applied, and write the vectors (R213, R225). -/
def State.applied (s : State) (t : Nat) (c : ApplyCnt) : State :=
  let s := ((s.bump 0xE0700B c.tomb).bump 0xE0700C c.rem).bump 0xE0700D c.app
  c.vecs.foldl (fun s w => s.hidStore t w.1 w.2) s

/-- The tombstone bitmap of a thatch: the run of the shingle with list-table rank j (R215). -/
def tombRun (h : Thatch) (j : Nat) : List Byte :=
  let num := ((h.im.shingles[j]?).map (·.num)).getD 0
  packBits 1 ((List.range (cdiv (capacity h.im.m h.im.shape) 512 * 512)).map fun i => b2n (h.tomb.any fun t => t.1 == num && t.2.1 == i))

/-- The objects 0x4046 and 0x4047 of an index: delta items and tombstones of the live segment. -/
def State.noteIndex (s : State) (x : Idx) : State :=
  let live := x.thatches.filter fun h => h.st == 1
  let d := live.foldl (fun n h => n + h.entries.length) 0
  let t := live.foldl (fun n h => n + h.tomb.length) 0
  (s.setReg (pagedKey 0x4046 x.slot) d).setReg (pagedKey 0x4047 x.slot) t

/-! ### Installing seals (R208 to R211) -/

/-- The records that a Molset holds of an index: installed and pending. -/
def heldRecords (x : Idx) : List DeltaRec := x.log ++ x.pendRecs.filter fun r => !x.log.any fun y => y.seq == r.seq

/-- The records of a range of sequences. -/
def recordsIn (rs : List DeltaRec) (first last : Nat) : List DeltaRec :=
  sortBy (fun (a b : DeltaRec) => a.seq < b.seq) (rs.filter fun r => first ≤ r.seq && r.seq ≤ last)

/-- Does this Molset hold a copy of a shard of the index, or is it becoming one? -/
def isCopy (x : Idx) : Bool := !x.thatches.isEmpty

/-- The log holders of an index that the map names. -/
def logHolders (m : List MapEntry) (t i : Nat) : List Nat := match idxService m t i with | some e => [e.b, e.c].filter (· != 0xFFFF) | none => []

/-- Install the oldest pending seal of an index if every record it names is here (R209). A wrong digest fetches the records from a log holder. -/
def State.installOne (s : State) (x : Idx) (r : SealRec) : Option State :=
  let held := heldRecords x
  let news := recordsIn held (x.applied + 1) r.sealed
  if r.sealed < x.applied then
    some ((s.setIdx { x with pendSeals := x.pendSeals.filter fun y => y.tick != r.tick, views := put x.views r.tick r.sealed }).dealView r.tenant r.index r.tick)
  else if news.length != r.sealed - x.applied then none
  else
    let named := recordsIn held r.first r.sealed
    if named.length == r.count && recordsDigest x.desc.shape named != r.digest then
      if x.fetch then none else
      let s := (s.setIdx { x with fetch := true }).bump 0xE0700A 1
      match (logHolders s.map.entries r.tenant r.index).find? fun n => n != s.node with
      | some n => some (s.sendRole n 0x21 r.tenant (.logFetch r.tenant r.index r.first r.sealed))
      | none => some s
    else
      let base := s.reg 0x404009
      let dl := s.reg 0x40400A
      let since := x.thatches.foldl (fun m h => if h.st == 1 then max m h.since else m) 0
      let (ths, c) := x.thatches.foldl (fun (hs, c) h =>
        if h.st == 2 && since ≤ r.tick then (hs ++ [h], c) else
        let (h, d) := applyRecords base dl h news
        (hs ++ [h], addApply c d)) ([], ({} : ApplyCnt))
      let x := { x with
        thatches := ths, log := x.log ++ news.filter (fun y => !x.log.any fun z => z.seq == y.seq)
        pendRecs := x.pendRecs.filter fun y => r.sealed < y.seq
        pendSeals := x.pendSeals.filter fun y => y.tick != r.tick
        seals := if x.seals.any (fun y => y.tick == r.tick) then x.seals else x.seals ++ [r]
        views := put x.views r.tick r.sealed, applied := r.sealed }
      let s := ((s.setIdx x).bump 0xE07007 1).applied r.tenant c
      some (((s.setReg (pagedKey 0x4044 x.slot) r.sealed).noteIndex x).dealView r.tenant r.index r.tick)

/-- Install pending seals in ascending tick while they are complete. -/
def State.installSeals (s : State) (t i : Nat) : Nat → State
  | 0 => s
  | n + 1 =>
    match s.findIdx t i with
    | none => s
    | some x =>
      match (sortBy (fun (a b : SealRec) => a.tick < b.tick) x.pendSeals).head? with
      | none => s
      | some r => match s.installOne x r with | some s => s.installSeals t i n | none => s

/-- Install what can be installed. -/
def State.install (s : State) (t i : Nat) : State :=
  match s.findIdx t i with | some x => if isCopy x then s.installSeals t i (x.pendSeals.length + 1) else s | none => s

/-! ### Lending and starting a build (R217) -/

/-- The highest-numbered in-service spindles outside the dense and gather sets, alternately from die 0 and die 1 (R217). -/
def State.lendOrder (s : State) : List Nat :=
  let free (d : Nat) : List Nat := ((List.range 192).reverse.map (· + d * 192)).filter fun n =>
    s.spUp n && !s.ctl.denseSet.contains n && !s.ctl.gatherSet.contains n
  let a := free 0
  let b := free 1
  (List.range 192).flatMap fun i => (a[i]?).toList ++ (b[i]?).toList

/-- Lend spindles for the build of an index slot: as many as the limit leaves; none waits for a return (R217). -/
def State.lend (s : State) (slot count : Nat) : State :=
  let n := min count (s.reg 0x404008 - s.ctl.lent.length)
  let take := s.lendOrder.take n
  if n == 0 || take.isEmpty then
    { s with ctl := { s.ctl with lendWait := s.ctl.lendWait.filter (fun w => w.1 != slot) ++ [(slot, count)] } }
  else
    let s := take.foldl (fun s n => s.setSpState n 1) s
    let ctl := { s.ctl with lent := s.ctl.lent ++ take.map (fun n => (slot, n, 0)), lendWait := s.ctl.lendWait.filter fun w => w.1 != slot }
    { s with ctl }.bump 0xE0700E 1

/-- The spindles lent to a build return at the next tick (R217, R223). -/
def State.lentReturn (s : State) (slot : Nat) : State :=
  { s with ctl := { s.ctl with
      lent := updIf (fun l => l.1 == slot && l.2.2 == 0) (fun l => (l.1, l.2.1, s.ftick + 1)) s.ctl.lent
      lendWait := s.ctl.lendWait.filter fun w => w.1 != slot } }

/-- The shards of an index of which this Molset is copy 0. -/
def State.copy0 (s : State) (t i : Nat) : List Nat := ((idxShards s.map.entries t i).filter fun e => e.a == s.node).map (·.shard)

/-- Start a build whose fold sequence is sealed here (R217). Spindles are lent at a tick only (R68). -/
def State.startBuild (s : State) (x : Idx) : State :=
  match x.build with
  | none => s
  | some b =>
    if b.started || x.applied < b.fold then s else
    let s := (s.setIdx { x with build := some { b with started := true } }).setReg (pagedKey 0x4043 x.slot) 1
    if (s.copy0 x.desc.tenant x.desc.index).isEmpty then s
    else { s with ctl := { s.ctl with lendWait := s.ctl.lendWait.filter (fun w => w.1 != x.slot) ++ [(x.slot, b.req.lend)] } }

/-- A copy takes a seal record. -/
def State.copySeal (s : State) (r : SealRec) : State :=
  match s.findIdx r.tenant r.index with
  | none => s
  | some x =>
    if x.seals.any (fun y => y.tick == r.tick) || x.pendSeals.any (fun y => y.tick == r.tick) then s else
    let role := s.reg (pagedKey 0x4048 x.slot)
    if isCopy x then (s.setIdx { x with pendSeals := x.pendSeals ++ [r] }).install r.tenant r.index
    else if role % 4 != 0 then s.setIdx { x with seals := x.seals ++ [r] }
    else s

/-- The home takes what a seal record says of its updates: their completions are written (R204, R205, R211). -/
def State.homeSeal (s : State) (r : SealRec) (covers refused : List (Nat × Nat)) : State :=
  let s := covers.foldl (fun s (q, d) =>
    match s.upd.find? fun u => u.tenant == r.tenant && u.index == r.index && u.seq == q with
    | none => s
    | some u =>
      let s := { s with upd := s.upd.filter fun y => !(y.tenant == u.tenant && y.seq == q) }
      let s := { s with fault := { s.fault with log := s.fault.log.filter fun l => l.name != (u.tenant, q) } }
      s.complete u.tenant q 2 0 0 u.tag u.tick (detail16 d r.tick) 0) s
  refused.foldl (fun s (q, st) =>
    match s.upd.find? fun u => u.tenant == r.tenant && u.index == r.index && u.seq == q with
    | none => s
    | some u =>
      let s := { s with upd := s.upd.filter fun y => !(y.tenant == u.tenant && y.seq == q) }
      let s := { s with fault := { s.fault with log := s.fault.log.filter fun l => l.name != (u.tenant, q) } }
      s.complete u.tenant q 2 st 0 u.tag u.tick [] 0) s

/-! ### Committing and sealing at the sequencer (R205, R208) -/

/-- The targets of restores of an index: they take its records and seals from the sequencer (R391). -/
def State.restoreYs (s : State) (t i : Nat) : List Nat :=
  ((s.fault.respares.filter fun p => p.tenant == t && p.index == i && p.restore).map (·.y)).eraseDups

/-- Is this Molset the sequencer of the index? -/
def State.isSequencer (s : State) (t i : Nat) : Bool := match idxService s.map.entries t i with | some e => e.a == s.node | none => false

/-- The committed sequence: what the sequencer and both log holders hold (R205). -/
def State.commit (s : State) (t i : Nat) : State :=
  match s.findIdx t i with
  | none => s
  | some x =>
    let q := x.seqr
    let low := (logHolders s.map.entries t i).foldl (fun m n => if n == s.node then m else min m ((lk q.acks n).getD 0)) (q.next - 1)
    if low ≤ q.committed then s
    else (s.setIdx { x with seqr := { q with committed := low } }).bump 0xE07005 (low - q.committed)

/-- Seal at a tick (R208): the captured records become visible; the seal record goes to the copies, the log holders (R392) and the homes. `live` is the
version live after step 6 of that tick. -/
def State.sealIndex (s : State) (x : Idx) (tick live : Nat) : State :=
  let t := x.desc.tenant
  let i := x.desc.index
  let q := x.seqr
  let rs := recordsIn (heldRecords x) (q.lastSeal + 1) q.captured
  let r : SealRec := {
    tenant := t, index := i, tick, first := q.lastSeal + 1, sealed := q.captured, count := q.captured - q.lastSeal,
    digest := recordsDigest x.desc.shape rs, live }
  let covers (h : Nat) : List (Nat × Nat) := (rs.filter fun y => y.home == h).map fun y => (y.ringSeq, y.seq)
  let refused (h : Nat) : List (Nat × Nat) := (q.refused.filter fun y => y.1 == h).map (·.2)
  let copies := ((idxShards s.map.entries t i).flatMap entryCopies) ++ logHolders s.map.entries t i ++ s.restoreYs t i
  let homes := rs.map (·.home) ++ q.refused.map (·.1)
  let dsts := (copies ++ homes).eraseDups
  let x := { x with seqr := { q with lastSeal := q.captured, refused := [] }, seals := if x.seals.any (fun y => y.tick == r.tick) || isCopy x then x.seals else x.seals ++ [r] }
  let s := (s.setIdx x).bump 0xE07006 1
  let s := (dsts.filter (· != s.node)).foldl (fun s n => s.sendRole n 0x21 t (.seal r (covers n) (refused n))) s
  let s := if isCopy x then s.copySeal r else s
  s.homeSeal r (covers s.node) (refused s.node)

/-! ### The update at its home (R204, R205) -/

/-- The status of an update entry found at the home; 0 passes (R204). -/
def State.updateStatus (s : State) (t : Nat) (e : Entry) : Nat :=
  let op := eNat e 40 1
  let fmt := eNat e 41 1
  let form := eZero e 44 84 && (op == 1 || op == 2) &&
    (if op == 1 then fmt == 7 || fmt == 8 || fmt == 9 else fmt == 0 && eNat e 24 8 == 0 && eNat e 42 2 == 0)
  if !form then 0x0101
  else if op == 1 && !s.ownedStacks t (eNat e 24 8) (eNat e 42 2 * vecWidth fmt) then 0x0102
  else
    match (s.findIdx t (eNat e 38 2)).bind fun x => if x.regTick ≤ s.ftick then some x else none with
    | none => 0x0103
    | some x =>
      if eNat e 32 6 == paddingId then 0x0104
      else if op == 1 && eNat e 42 2 != x.desc.dim then 0x0105
      else if !s.inService t then 0x0108
      else if s.liveVersion x == 0 then 0x0109
      else 0

/-- The check of an update entry (R204): beyond the limit of its index, an entry stays in its ring. -/
def checkUpdate (t : Nat) (s : State) (e : Entry) : State × Chk :=
  let s := s.bump 0xE07001 1
  let st := s.updateStatus t e
  if st != 0 then ((s.bump 0xE07002 1).reservedFmt (eNat e 41 1), .refuse st) else
  let i := eNat e 38 2
  let used := ((s.sched.updates.find? fun u => u.1 == t && u.2.1 == i).map (·.2.2)).getD 0
  if s.reg 0x404004 ≤ used then (s, .hold) else
  let rest := s.sched.updates.filter fun u => !(u.1 == t && u.2.1 == i)
  ({ s with sched := { s.sched with updates := (t, i, used + 1) :: rest } }, .pass 1 false)

/-- R204: the check of an insert. -/
def execUpdateInsert (tenant seq : Nat) (bad : Bool) (s : State) : Res := live s fun s => s.ringRow tenant seq bad 2 (opIs 40 4 1 [1, 2]) (checkUpdate tenant)

/-- R204: the check of a delete. -/
def execUpdateDelete (tenant seq : Nat) (bad : Bool) (s : State) : Res := live s fun s => s.ringRow tenant seq bad 2 (opIs 40 4 2 [1, 2]) (checkUpdate tenant)

/-! ### The sequencer (R197, R198, R205, R214) -/

/-- A centroid as F32 (R198). -/
def centroidOf (p : ThatchPars) (dim l : Nat) : List F32 := ((p.centroids.drop (l * dim)).take dim).map widen16

/-- Coarse assignment (R198): the home list and the spill list, 0xFFFFFFFF for none, of a vector already normalized under cosine. A distance that is NaN is
nearer than none (entry 52). -/
def assignLists (d : IdxDesc) (p : ThatchPars) (xs : List F32) : Nat × Nat × NumCnt :=
  let ds := (List.range d.lists).map fun l => (tableEntry (shapeMetric d.shape) xs (centroidOf p d.dim l), l)
  let cnt := ds.foldl (fun c r => addCnt c r.1.2) {}
  let far (a b : F32 × Nat) : Bool := if isNaN a.1 then isNaN b.1 && a.2 < b.2 else isNaN b.1 || keyLt a b
  let near := sortBy far (ds.map fun r => (r.1.1, r.2))
  match near with
  | [] => (0, 0xFFFFFFFF, cnt)
  | [a] => (a.2, 0xFFFFFFFF, cnt)
  | a :: b :: _ =>
    let other := p.listShard.getD a.2 0 != p.listShard.getD b.2 0
    let spill := d.spill && other && !isNaN b.1 && f32Rat b.1 - f32Rat a.1 ≤ f32Rat p.margin
    (a.2, if spill then b.2 else 0xFFFFFFFF, cnt)

/-- What an image's thatch encodes with. -/
def imagePars (im : Image) : ThatchPars :=
  { version := im.version, codebook := im.codebook, centroids := im.centroids, listShard := im.listShard, margin := im.margin }

/-- What a Molset can encode with under the live thatch: the sequencer's own, else those of a thatch that it holds. -/
def liveParsOf (x : Idx) : Option ThatchPars :=
  match x.seqr.live with
  | some p => some p
  | none => (x.thatches.find? fun h => h.st == 1).map fun h => imagePars h.im

/-- Encode an insert under one thatch version: the part, or none if the item is refused (R117, R205). -/
def encodePart (d : IdxDesc) (p : ThatchPars) (xs : List F32) : Option DPart × NumCnt :=
  let (enc, c1) := encodeVector p.codebook d.m d.shape d.d xs
  match enc with
  | none => (none, c1)
  | some (codes, sign) =>
    let (ys, _) := metricVec (shapeMetric d.shape) xs
    let (l, sp, c2) := assignLists d p (ys.getD xs)
    (some { version := p.version, list := l, spill := sp, codes, sign }, addCnt c1 c2)

/-- Delta items sent to a shard of a version since its fold (R214). -/
def sentItems (q : Seqr) (v sh : Nat) : Nat := ((q.counts.find? fun c => c.1 == v && c.2.1 == sh).map (·.2.2)).getD 0

/-- The target shards of a part. -/
def partShards (p : ThatchPars) (d : DPart) : List Nat :=
  ([d.list, d.spill].filter (· != 0xFFFFFFFF)).map fun l => p.listShard.getD l 0

/-- Count a delta item sent to a shard. -/
def noteSent (q : Seqr) (v sh : Nat) : Seqr :=
  { q with counts := (v, sh, sentItems q v sh + 1) :: q.counts.filter fun c => !(c.1 == v && c.2.1 == sh) }

/-- The sequencer refuses an update (R204): it tells the home with its next seal record, or at once if it is the home (entry 16). -/
def State.seqRefuse (s : State) (x : Idx) (u : UpdReq) (status : Nat) : State :=
  let s := s.bump 0xE07003 1
  if u.home == s.node then
    s.homeSeal { tenant := u.tenant, index := u.index, tick := s.ftick, first := 0, sealed := 0, count := 0, digest := 0, live := 0 } [] [(u.ringSeq, status)]
  else s.setIdx { x with seqr := { x.seqr with refused := x.seqr.refused ++ [(u.home, u.ringSeq, status)] } }

/-- Append a delta record and send it to the log holders and the copies (R205). -/
def State.appendRecord (s : State) (x : Idx) (u : UpdReq) (parts : List DPart) (vec : List Byte) : State :=
  let r : DeltaRec := { tenant := u.tenant, index := u.index, seq := x.seqr.next, id := u.id, op := u.op, home := u.home, ringSeq := u.ringSeq, parts, vec }
  let x := { x with
    seqr := { x.seqr with next := x.seqr.next + 1 }
    log := if isCopy x then x.log else x.log ++ [r]
    pendRecs := if isCopy x then x.pendRecs ++ [r] else x.pendRecs }
  let dsts := (logHolders s.map.entries u.tenant u.index ++ (idxShards s.map.entries u.tenant u.index).flatMap entryCopies ++ s.restoreYs u.tenant u.index).eraseDups
  let s := (s.setIdx x).bump 0xE07004 1
  ((s.sendAll dsts 0x21 u.tenant true (.delta r)).install u.tenant u.index).commit u.tenant u.index

/-- A sequencer that holds no thatch has nothing to encode with: it has the update wait, and asks a copy of the first shard for its image (entry 55). -/
def State.askPars (s : State) (x : Idx) (u : UpdReq) : State :=
  let s := s.setIdx { x with seqr := { x.seqr with waitUpd := x.seqr.waitUpd ++ [u] } }
  if !x.seqr.waitUpd.isEmpty then s else
  match (idxShards s.map.entries u.tenant u.index).head? with
  | some e => (entryCopies e).head?.elim s fun n => s.send n 0x22 u.tenant (.askImage u.tenant u.index e.shard)
  | none => s

/-- The sequencer handles one update (R205, R214); one that still takes over its role has it wait (R389). An item whose norm under cosine is 0 or not finite
is counted (R129), and an insert counts in 0xE040:10 once per part that it is encoded under (R117; entry 52). -/
def State.sequence (s : State) (u : UpdReq) : State :=
  match s.findIdx u.tenant u.index with
  | none => s
  | some x =>
    if !s.isSequencer u.tenant u.index then s else
    if x.seqr.resume.isSome then s.setIdx { x with seqr := { x.seqr with waitUpd := x.seqr.waitUpd ++ [u] } } else
    if u.op != 1 then s.appendRecord x u [] [] else
    match liveParsOf x with
    | none => s.askPars x u
    | some live =>
      let pars := live :: x.seqr.succ.toList
      let rs := pars.map fun p => (p, encodePart x.desc p u.vec)
      let s := s.charge s.encodeSp (rs.foldl (fun c r => addCnt c r.2.2) {})
      if rs.any fun r => r.2.1.isNone then
        ((s.bump 0xE04011 1).bumpIf (shapeMetric x.desc.shape == 2) 0xE0400A).seqRefuse x u 0x0106
      else
        let s := s.bump 0xE04010 rs.length
        let limit := x.desc.deltaLimit * capacity x.desc.m x.desc.shape
        let targets := rs.flatMap fun (p, d, _) => match d with | some d => (partShards p d).map fun sh => (p.version, sh) | none => []
        if targets.any fun (v, sh) => limit ≤ sentItems x.seqr v sh then s.seqRefuse x u 0x0107 else
        let (ys, _) := metricVec (shapeMetric x.desc.shape) u.vec
        let (vec, c) := rerankBytes (s.reg (pagedKey 0x3044 u.tenant)) (s.reg (pagedKey 0x3048 u.tenant)) x.desc.rr (ys.getD u.vec)
        let x := { x with seqr := targets.foldl (fun q (v, sh) => noteSent q v sh) x.seqr }
        (s.charge s.encodeSp c).appendRecord x u (rs.filterMap (·.2.1)) vec

/-- Send an update from its home to the sequencer (R205). -/
def State.sendUpdate (s : State) (u : UpdHome) (vec : List F32) : State :=
  let s := { s with upd := updIf (fun y => y.tenant == u.tenant && y.seq == u.seq) (fun y => { y with sent := true }) s.upd }
  let r : UpdReq := { tenant := u.tenant, index := u.index, op := u.op, id := u.id, vec, home := s.node, ringSeq := u.seq }
  match idxService s.map.entries u.tenant u.index with
  | none => s
  | some e =>
    if e.a == s.node then s.sequence r
    else (s.sendRole e.a 0x21 u.tenant (.update r)).logReq (u.tenant, u.seq) e.a (.update r)

/-- Process an update entry that left its ring (R204, R205): a delete goes to the sequencer, an insert waits for the read of its vector. -/
def State.admitUpdate (s : State) (t seq : Nat) : State :=
  let e := s.entryOf t seq
  let u : UpdHome := {
    tenant := t, seq, tag := entryTag e, index := eNat e 38 2, op := eNat e 40 1, id := eNat e 32 6, addr := eNat e 24 8,
    fmt := eNat e 41 1, dim := eNat e 42 2, tick := s.ftick }
  let s := { s with upd := s.upd ++ [u] }
  if u.op == 2 then s.sendUpdate u [] else s

/-- R205: the home has read an insert's vector and sends the update to the sequencer; an unreadable one completes with 0x010A. -/
def execUpdateVectorRead (tenant seq : Nat) (bad : Bool) (s : State) : Res := live s fun s =>
  match s.upd.find? fun u => u.tenant == tenant && u.seq == seq with
  | none => s
  | some u =>
    if u.sent || u.op != 1 then s else
    let len := u.dim * vecWidth u.fmt
    if bad || s.poisoned tenant u.addr len || !s.ownedStacks tenant u.addr len then
      let s := { s with upd := s.upd.filter fun y => !(y.tenant == tenant && y.seq == seq) }
      (s.bump 0xE07002 1).complete tenant seq 2 0x010A 0 u.tag u.tick [] 0
    else s.sendUpdate u (readPlain u.fmt u.dim (s.load tenant u.addr len))

/-- R205: the sequencer receives an update. -/
def execSequencerUpdate (u : UpdReq) (s : State) : Res := liveFor u.tenant s fun s => s.sequence u

/-- The highest record that a log holder holds without a gap. -/
def contiguous (rs : List DeltaRec) : Nat :=
  let ss := sortBy (· < ·) (rs.map (·.seq))
  match ss with | [] => 0 | a :: r => r.foldl (fun m n => if n == m + 1 then n else m) a

/-- R205: a log holder or a copy receives a delta record. The log holder acknowledges; a copy that is the source of a respare forwards it
(R390). -/
def execDeltaRecord (_src : Nat) (r : DeltaRec) (s : State) : Res := liveFor r.tenant s fun s =>
  match s.findIdx r.tenant r.index with
  | none => s
  | some x =>
    if (heldRecords x).any fun y => y.seq == r.seq then s else
    let x := if isCopy x then { x with pendRecs := x.pendRecs ++ [r] } else { x with log := x.log ++ [r] }
    let s := s.setIdx x
    let s := if (logHolders s.map.entries r.tenant r.index).contains s.node then
        match idxService s.map.entries r.tenant r.index with
        | some e => s.send e.a 0x21 r.tenant (.deltaAck r.tenant r.index (contiguous (heldRecords x)))
        | none => s
      else s
    let ys := (s.fault.respares.filter fun p => p.tenant == r.tenant && p.index == r.index && p.z == s.node && p.staged).map (·.y)
    (s.sendAll ys 0x21 r.tenant false (.delta r)).install r.tenant r.index

/-- R205: a log holder's acknowledgement reaches the sequencer. -/
def execDeltaCommit (src tenant index seq : Nat) (s : State) : Res := live s fun s =>
  match s.findIdx tenant index with
  | none => s
  | some x =>
    if !(logHolders s.map.entries tenant index).contains src || !s.isSequencer tenant index then s else
    let old := (lk x.seqr.acks src).getD 0
    (s.setIdx { x with seqr := { x.seqr with acks := put x.seqr.acks src (max old (min seq (x.seqr.next - 1))) } }).commit tenant index

/-- R209, R211: a copy and a home receive a seal record. The operand says how long items waited for it. -/
def execSealRecord (r : SealRec) (covers refused : List (Nat × Nat)) (waited : Nat) (s : State) : Res := liveFor r.tenant s fun s =>
  let s := (s.bumpIf (waited != 0) 0xE07008).bump 0xE07009 waited
  let s := s.copySeal r
  let ys := (s.fault.respares.filter fun p => p.tenant == r.tenant && p.index == r.index && p.z == s.node && p.staged).map (·.y)
  let s := s.sendAll ys 0x21 r.tenant false (.seal r [] [])
  let s := s.homeSeal r covers refused
  match s.findIdx r.tenant r.index with
  | some x => s.startBuild x
  | none => s

/-- A shard is lost (R391): counted, and reported in 0x9030:06. -/
def State.shardLost (s : State) (t i sh : Nat) : State :=
  if s.fault.lost.contains (t, i, sh) then s else
  let s := { s with fault := { s.fault with lost := s.fault.lost ++ [(t, i, sh)], respares := s.fault.respares.filter fun p => !(p.tenant == t && p.index == i && p.shard == sh) } }
  (s.bump 0xE0D00D 1).setReg 0x903006 s.fault.lost.length

/-- The ticks up to this one whose seal record a Molset has not seen, after the last that it has (R211). -/
def missedTicks (x : Idx) (now : Nat) : List Nat :=
  let last := (x.seals.map (·.tick) ++ x.pendSeals.map (·.tick) ++ x.views.map (·.1)).foldl max 0
  if last == 0 then [now] else (List.range (now - last)).map (last + 1 + ·)

/-- A new sequencer has the records of another holder (R389): it commits exactly those that both hold, or takes over what it gets, up to the first
gap; the seal records of the ticks that have none are issued (R211), and the updates that waited follow. -/
def State.takeOver (s : State) (t i : Nat) (records : List DeltaRec) : State :=
  match s.findIdx t i with
  | none => s
  | some x =>
    match x.seqr.resume with
    | none => s
    | some both =>
      let q := x.seqr
      let mine := heldRecords x
      let kept := if both then mine.filter fun r => r.seq ≤ q.lastSeal || records.any fun y => y.seq == r.seq
        else mine ++ records.filter fun r => !mine.any fun y => y.seq == r.seq
      let top := (sortBy (· < ·) (kept.map (·.seq))).foldl (fun m n => if n == m + 1 then n else m) q.lastSeal
      let ok (r : DeltaRec) : Bool := r.seq ≤ top && kept.any fun y => y.seq == r.seq
      let fresh := if isCopy x then [] else (kept.filter fun r => r.seq ≤ top && !mine.any fun y => y.seq == r.seq)
      let pend := if isCopy x then (kept.filter fun r => r.seq ≤ top && !mine.any fun y => y.seq == r.seq) else []
      let x := { x with
        log := x.log.filter ok ++ fresh, pendRecs := x.pendRecs.filter ok ++ pend
        seqr := { q with next := top + 1, committed := top, resume := none, waitUpd := [] } }
      let s := s.setIdx x
      let s := (missedTicks x s.ftick).foldl (fun s v => match s.findIdx t i with
        | some y => s.sealIndex { y with seqr := { y.seqr with captured := y.seqr.committed } } v (s.liveVersion y)
        | none => s) s
      q.waitUpd.foldl State.sequence s

/-- R209, R389, R391: records and seal records fetched from a log holder arrive. A restore that still lacks a record loses its shard. -/
def execLogFetchDone (tenant index : Nat) (records : List DeltaRec) (seals : List SealRec) (s : State) : Res := liveFor tenant s fun s =>
  match s.findIdx tenant index with
  | none => s
  | some x =>
    let fresh := records.filter fun r => x.applied < r.seq
    let pend := x.pendRecs.filter fun r => !fresh.any fun y => y.seq == r.seq
    let more := seals.filter fun r => !x.pendSeals.any (fun y => y.tick == r.tick) && !x.seals.any (fun y => y.tick == r.tick)
    let x := { x with pendRecs := pend ++ fresh, pendSeals := x.pendSeals ++ more, fetch := false }
    let s := ((s.setIdx x).install tenant index).takeOver tenant index records
    match s.fault.respares.find? fun p => p.tenant == tenant && p.index == index && p.y == s.node && p.restore with
    | none => s
    | some p =>
      match s.findIdx tenant index with
      | none => s
      | some x =>
        let last := x.pendSeals.foldl (fun m r => max m r.sealed) x.applied
        if (recordsIn (heldRecords x) (x.applied + 1) last).length != last - x.applied then s.shardLost tenant index p.shard else s

/-- R209: a holder is asked for records. -/
def execLogFetchRequest (src tenant index first last : Nat) (s : State) : Res := liveFor tenant s fun s =>
  match s.findIdx tenant index with
  | none => s
  | some x =>
    let seals := x.seals.filter fun r => first ≤ r.sealed && r.first ≤ last + 1
    s.send src 0x21 tenant (.logRecords tenant index (recordsIn (heldRecords x) first last) seals)

/-! ### Builds (R216 to R219) -/

/-- The status of a build entry; 0 passes (R216). A fold of an index without a live thatch has nothing to fold and is malformed (DESIGN CHOICE,
entry 25). -/
def State.buildStatus (s : State) (t seq : Nat) (e : Entry) : Nat :=
  let kind := eNat e 26 1
  let lend := eNat e 27 1
  let x := (s.findIdx t (eNat e 24 2)).bind fun x => if x.regTick ≤ s.ftick then some x else none
  let form := eZero e 64 64 && kind ≤ 1 && 1 ≤ lend && lend ≤ s.reg 0x404008 &&
    (if kind == 0 then eZero e 36 28 else nonNeg (eF32 e 60))
  let noLive := kind == 0 && (match x with | some x => s.liveVersion x == 0 | none => false)
  if !form || noLive then 0x0201
  else
    match x with
    | none => 0x0203
    | some x =>
      let st := s.reg (pagedKey 0x4043 x.slot)
      let own (a n : Nat) : Bool := s.ownedStacks t a n && !s.poisoned t a n
      if x.build.isSome || (1 ≤ st && st ≤ 3) || s.builds.any (fun b => b.tenant == t && b.index == x.desc.index) ||
          s.claimed 4 t seq x.desc.index then 0x0202
      else if kind == 1 && !(own (eNat e 36 8) (2 * x.desc.dim * shapeK x.desc.shape) && own (eNat e 44 8) (2 * x.desc.lists * x.desc.dim) &&
        own (eNat e 52 8) (2 * x.desc.lists)) then 0x0204
      else 0

/-- The check of a build entry (R216, R217). -/
def checkBuild (t seq : Nat) (s : State) (e : Entry) : State × Chk :=
  let st := s.buildStatus t seq e
  if st == 0 then (s.claim 4 t seq (eNat e 24 2), .pass 1 false) else (s, .refuse st)

/-- R216: the check of a fold. -/
def execBuildFold (tenant seq : Nat) (bad : Bool) (s : State) : Res := live s fun s => s.ringRow tenant seq bad 4 (opIs 26 256 0 [0, 1]) (checkBuild tenant seq)

/-- R216: the check of a retrain. -/
def execBuildRetrain (tenant seq : Nat) (bad : Bool) (s : State) : Res := live s fun s => s.ringRow tenant seq bad 4 (opIs 26 256 1 [0, 1]) (checkBuild tenant seq)

/-- The next thatch version (R201). -/
def nextVersion (v : Nat) : Nat := if v == 65535 then 1 else v + 1

/-- `n` little-endian U16 values in memory. -/
def State.loadU16 (s : State) (t addr n : Nat) : List Nat := (List.range n).map fun i => s.loadNat t (addr + 2 * i) 2

/-- Complete a build at its home (R216, R221, R223). -/
def State.finishBuild (s : State) (t i status version p : Nat) : State :=
  match s.builds.find? fun b => b.tenant == t && b.index == i with
  | none => s
  | some b =>
    let s := { s with builds := s.builds.filter fun y => !(y.tenant == t && y.index == i) }
    s.complete t b.seq 4 status 0 b.tag b.tick (if status == 0 then detail16 version p else []) 0

/-- Has this Molset anything of a build or a publish of an index: a successor, an image, a request or an entry of its ring (R223)? -/
def State.building (s : State) (x : Idx) : Bool :=
  x.build.isSome || x.publish.isSome || x.thatches.any (·.st == 0) || !x.heldWait.isEmpty || !x.imgFails.isEmpty ||
  s.builds.any fun b => b.tenant == x.desc.tenant && b.index == x.desc.index

/-- A publish has applied or failed here: the housekeeping limit of an open publish window counts from now (R306). -/
def State.publishOver (s : State) : State :=
  if bit (s.reg 0x701001) 1 then { s with flash := { s.flash with winTicks := put s.flash.winTicks 1 s.now } } else s

/-- Discard a successor and all that belongs to it (R223): the build failed, counted, and its entry completes if it is this Molset's. -/
def State.dropBuild (s : State) (t i status : Nat) : State :=
  match s.findIdx t i with
  | none => s
  | some x =>
    if !s.building x then s else
    let v := nextVersion (s.liveVersion x)
    let s := s.dropThatches t (x.thatches.filter (·.st == 0))
    let x := { x with
      build := none, publish := none, thatches := x.thatches.filter (·.st != 0), imgFails := [], shingleReports := [], heldWait := []
      held := if x.held.length ≤ 1 then x.held else x.held.filter fun im => im.version != v
      seqr := { x.seqr with succ := none, counts := x.seqr.counts.filter fun c => c.1 != v } }
    let s := (((s.setIdx x).bump 0xE07010 1).setReg (pagedKey 0x4043 x.slot) 4).setReg (pagedKey 0x4049 x.slot) 0
    ((s.lentReturn x.slot).finishBuild t i status 0 0).publishOver

/-- A build or a publish fails (R223): the sequencer tells every Molset of the index and the home of the build; another Molset tells the sequencer. -/
def State.failBuild (s : State) (t i status : Nat) : State :=
  match s.findIdx t i with
  | none => s
  | some x =>
    if !s.building x then s else
    let home := (x.build.map (·.req.home)).toList
    let dsts := if s.isSequencer t i then (idxNodes s.map.entries t i ++ home).eraseDups
      else ((idxService s.map.entries t i).map (·.a)).toList
    (s.dropBuild t i status).sendAll dsts 0x22 t false (.publishCancel t i status)

/-- The sequencer receives a build, sets the fold sequence and tells the copies that build; a copy that builds takes it with the fold sequence
(R217). -/
def State.receiveBuild (s : State) (b : BuildReq) : State :=
  match s.findIdx b.tenant b.index with
  | none => s
  | some x =>
    if s.isSequencer b.tenant b.index then
      if x.build.isSome then 
        (if b.home == s.node then s.finishBuild b.tenant b.index 0x0202 0 0 else s.send b.home 0x22 b.tenant (.publishCancel b.tenant b.index 0x0202))
      else
      let fold := x.seqr.next - 1
      let b := { b with fold }
      let v := nextVersion (s.liveVersion x)
      let succ : Option ThatchPars :=
        if b.kind == 1 then some { version := v, codebook := b.codebook, centroids := b.centroids, listShard := b.listShard, margin := b.margin }
        else (liveParsOf x).map fun p => { p with version := v }
      let bd : Build := { req := b, fold, started := false, staged := [], p := none, acks := [], shingles := [], sent := [], fails := [] }
      let s := (s.setIdx { x with build := some bd, seqr := { x.seqr with succ } }).setReg (pagedKey 0x4043 x.slot) 1
      let dsts := ((idxShards s.map.entries b.tenant b.index).map (·.a)).filter (· != 0xFFFF)
      let s := s.sendAll dsts.eraseDups 0x22 b.tenant false (.build b)
      match s.findIdx b.tenant b.index with | some x => if isCopy x || b.fold == 0 then s.startBuild x else s | none => s
    else if x.build.isSome then s else
      let bd : Build := { req := b, fold := b.fold, started := false, staged := [], p := none, acks := [], shingles := [], sent := [], fails := [] }
      let x := { x with build := some bd }
      (s.setIdx x).startBuild x

/-- Process a build entry: it goes to the sequencer with any retrain inputs (R217). -/
def State.admitBuild (s : State) (t seq : Nat) : State :=
  let e := s.entryOf t seq
  let i := eNat e 24 2
  match s.findIdx t i with
  | none => s
  | some x =>
    let retrain := eNat e 26 1 == 1
    let d := x.desc
    let b : BuildReq := {
      tenant := t, index := i, kind := eNat e 26 1, lend := eNat e 27 1, publish := eNat e 28 8, home := s.node, ringSeq := seq,
      codebook := if retrain then s.loadU16 t (eNat e 36 8) (d.dim * shapeK d.shape) else []
      centroids := if retrain then s.loadU16 t (eNat e 44 8) (d.lists * d.dim) else []
      listShard := if retrain then s.loadU16 t (eNat e 52 8) d.lists else []
      margin := eF32 e 60, fold := 0 }
    let s := { s with builds := s.builds ++ [{ tenant := t, seq, tag := entryTag e, index := i, tick := s.ftick }] }
    match idxService s.map.entries t i with
    | none => s
    | some m => if m.a == s.node then s.receiveBuild b else (s.sendRole m.a 0x21 t (.build b)).logReq (t, seq) m.a (.build b)

/-- R217: the sequencer, or a Molset that builds a shard, receives a build. -/
def execBuildReceive (b : BuildReq) (s : State) : Res := liveFor b.tenant s fun s => s.receiveBuild b

/-- An item of an image under construction. -/
structure BItem where
  id : Nat
  list : Nat
  sign : List Byte
  codes : List Nat
  addr : Nat
  deriving DecidableEq, Repr

/-- The delta entries of a thatch that are visible at F, in ascending item ID (R213, R218). -/
def visibleEntries (h : Thatch) (f : Nat) : List DeltaEnt :=
  sortBy (fun (a b : DeltaEnt) => a.id < b.id) (h.entries.filter fun e => e.ins ≤ f && (match e.rem with | some r => f < r | none => true))

/-- Do the vectors of the folded delta items stand in flash, at the addresses given (R218)? -/
def State.vectorsWritten (s : State) (h : Thatch) (f : Nat) (addrs : List (Nat × Nat)) : Bool :=
  let n := rerankLen h.im.rr h.im.dim
  (visibleEntries h f).all fun e => match lk addrs e.id with | some a => s.flashBytes a n == s.hidLoad h.im.tenant e.addr n | none => false

/-- The items of a thatch that are visible at F with their re-rank vectors and flash addresses: its entries that no tombstone at or below F names, read
through the item map, and its delta entries (R218). -/
def State.visibleItems (s : State) (h : Thatch) (f : Nat) (addrs : List (Nat × Nat)) : List (Nat × List Byte × Nat) :=
  let n := rerankLen h.im.rr h.im.dim
  let old := h.im.itemMap.filter fun m => !h.tomb.any fun t => t.1 == m.shingle && t.2.1 == m.pos && t.2.2 ≤ f
  (old.map fun m => (m.id, s.flashBytes m.addr n, m.addr)) ++
    (visibleEntries h f).map fun e => (e.id, s.hidLoad h.im.tenant e.addr n, (lk addrs e.id).getD 0)

/-- The items of a fold: every entry of the live thatch and of its delta segment that is visible at F, in its list (R218). -/
def foldItems (h : Thatch) (f : Nat) (addrs : List (Nat × Nat)) : List BItem :=
  let old := h.im.shingles.flatMap fun sh => (List.range sh.count).filterMap fun i =>
    if h.tomb.any fun t => t.1 == sh.num && t.2.1 == i && t.2.2 ≤ f then none else
    let addr := ((h.im.itemMap.find? fun m => m.shingle == sh.num && m.pos == i).map (·.addr)).getD 0
    some ({ id := sh.ids.getD i 0, list := sh.list, sign := sh.signs.getD i [], codes := sh.codes.getD i [], addr } : BItem)
  let new := (visibleEntries h f).filterMap fun e =>
    (h.delta.find? fun d => d.num == e.shingle).map fun d =>
      ({ id := e.id, list := e.list, sign := d.signs.getD e.pos [], codes := d.codes.getD e.pos [], addr := (lk addrs e.id).getD 0 } : BItem)
  old ++ new

/-- What a retrain has encoded so far: items, how many were encoded and refused, and the numbers counted. -/
structure Retrained where
  items : List BItem := []
  ok : Nat := 0
  bad : Nat := 0
  cnt : NumCnt := {}
  deriving DecidableEq, Repr

/-- Encode one item anew from its re-rank vector (R198, R218): the stored vector is already normalized under cosine, and that is not repeated (R129). A vector
whose stream is abandoned contributes nothing (R108). -/
def State.retrainOne (d : IdxDesc) (p : ThatchPars) (shard sp : Nat) (inp : List (Nat × StreamIn)) (a : State × Retrained)
    (it : Nat × List Byte × Nat) : State × Retrained :=
  let (s, acc) := a
  let (id, bs, addr) := it
  let (xs, s) := s.vectorVals d.rr d.dim bs ((lk inp id).getD { wrong := [], endBad := false, cycles := 0 }) sp
  match xs with
  | none => (s, acc)
  | some xs =>
    let (part, c) := encodePart (if shapeMetric d.shape == 2 then { d with shape := d.shape - 8 } else d) p xs
    let acc := { acc with cnt := addCnt acc.cnt c }
    match part with
    | none => (s, { acc with bad := acc.bad + 1 })
    | some q =>
      let mine := [q.list, q.spill].filter fun l => l != 0xFFFFFFFF && p.listShard.getD l 0xFFFF == shard
      (s, { acc with items := acc.items ++ (mine.take 1).map fun l => { id, list := l, sign := q.sign, codes := q.codes, addr }, ok := acc.ok + 1 })

/-- The centroid shingles (R147, R200): each centroid encoded with no sign code; the item IDs are list numbers. -/
def centroidShingles (d : IdxDesc) (p : ThatchPars) (cbset base centList : Nat) : List Shingle × Nat × Nat × NumCnt :=
  let shape := d.shape - field d.shape 2 1 * 2
  let (items, bad, c) := (List.range d.lists).foldl (fun (is, bad, c) l =>
    let (enc, n) := encodeVector p.codebook d.m shape d.d (centroidOf p d.dim l)
    match enc with | some (codes, _) => (is ++ [(l, ([] : List Byte), codes)], bad, addCnt c n) | none => (is, bad + 1, addCnt c n)) ([], 0, ({} : NumCnt))
  let shs := ((chunks (capacity d.m shape) items).zipIdx).map fun (is, k) => mkShingle p.version (base + k) centList cbset d.m shape d.d is
  (shs, items.length, bad, c)

/-- The 128-byte header of an image (R199). -/
def imageHeader (im : Image) : List Byte :=
  leBytes 2 im.layout ++ leBytes 2 im.version ++ leBytes 2 im.index ++ leBytes 2 (im.tenant % 1024) ++ leBytes 2 im.shard ++ leBytes 2 im.shards ++
  leBytes 4 im.lists ++ leBytes 1 im.m ++ leBytes 1 im.shape ++ leBytes 2 im.d ++ leBytes 2 im.dim ++ leBytes 1 im.rr ++ leBytes 1 im.kind ++
  leBytes 8 im.fold ++ leBytes 8 im.items ++ leBytes 4 im.shingles.length ++ leBytes 4 im.centShingles.length ++ leBytes 4 im.cbset ++
  leBytes 4 im.margin.toNat ++ leBytes 4 im.sections ++ leBytes 4 im.reserved ++ (im.digest ++ List.replicate 32 0).take 32 ++ leBytes 32 (im.reserved / 2 ^ 32)

/-- The bytes of an image after its header (R199, R200): the section table, then seven sections on 64 KiB boundaries. The codebook address counts from the
start of the image, which three Molsets hold byte for byte (R116, entry 55). -/
def imageBody (im : Image) : List Byte :=
  let cbBytes := im.codebook.flatMap (leBytes 2)
  let desc := leBytes 8 (65536 + 32) ++ leBytes 4 im.cbset ++ leBytes 1 im.m ++ leBytes 1 im.shape ++ leBytes 2 im.d ++ leBytes 2 im.dim ++ leBytes 2 im.version ++
    leBytes 8 0 ++ leBytes 4 (crc32c cbBytes).toNat
  let secs : List (List Byte) := [
    desc ++ cbBytes,
    im.centroids.flatMap (leBytes 2),
    im.listShard.flatMap (leBytes 2),
    im.listTable.flatMap (fun r => leBytes 4 r.list ++ leBytes 4 r.first ++ leBytes 4 r.count ++ leBytes 4 r.items),
    im.centShingles.flatMap (fun s => shingleBytes s s.check.toNat),
    im.shingles.flatMap (fun s => shingleBytes s s.check.toNat),
    im.itemMap.flatMap (fun r => leBytes 6 r.id ++ leBytes 2 r.pos ++ leBytes 4 r.shingle ++ leBytes 4 0 ++ leBytes 8 r.addr)]
  let units := secs.map fun b => cdiv b.length 65536
  let offs := (units.foldl (fun (o, l) u => (o + u, l ++ [(o, u)])) (1, ([] : List (Nat × Nat)))).2
  let tab := (offs.zipIdx).flatMap fun ((o, u), k) => leBytes 4 (k + 1) ++ leBytes 4 0 ++ leBytes 4 o ++ leBytes 4 u
  let pad (b : List Byte) : List Byte := b ++ List.replicate (cdiv b.length 65536 * 65536 - b.length) 0
  tab ++ List.replicate (65536 - 128 - tab.length) 0 ++ secs.flatMap pad

/-- The bytes of a whole image (R199). -/
def imageBytes (im : Image) : List Byte := imageHeader im ++ imageBody im

/-- The length of an image: the header and the section table in the first 64 KiB, then the sections in units of it (R200). -/
def imageLen (im : Image) : Nat :=
  65536 * (1 + cdiv (32 + 2 * im.codebook.length) 65536 + cdiv (2 * im.centroids.length) 65536 + cdiv (2 * im.listShard.length) 65536 +
    cdiv (16 * im.listTable.length) 65536 + im.centShingles.length + im.shingles.length + cdiv (24 * im.itemMap.length) 65536)

/-- The length of a thatch's tombstone bitmap (R215), of its delta shingles and entries (R212, R213), and of the vectors of its delta items. -/
def tombLen (im : Image) : Nat := im.shingles.length * (cdiv (capacity im.m im.shape) 512 * 64)
def deltaLen (im : Image) (limit : Nat) : Nat := limit * 65536 + 32 * (limit * capacity im.m im.shape)
def vecsLen (im : Image) (limit : Nat) : Nat := limit * capacity im.m im.shape * rerankLen im.rr im.dim

/-- Place items into the lists and shingles of a shard (R200): lists ascending, items ascending in each, shingles full but the last, numbered across
the index. -/
def placeItems (d : IdxDesc) (p : ThatchPars) (cbset shard : Nat) (items : List BItem) (others : List (Nat × Nat)) :
    List Shingle × List ListRow × List ItemRow :=
  let cap := capacity d.m d.shape
  let step (acc : Nat × List Shingle × List ListRow × List ItemRow) (l : Nat) :=
    let (n, shs, rows, im) := acc
    if p.listShard.getD l 0xFFFF != shard then (n + (lk others l).getD 0, shs, rows, im) else
    let mine := sortBy (fun (a b : BItem) => a.id < b.id) (items.filter fun b => b.list == l)
    let parts := chunks cap mine
    let made := (parts.zipIdx).map fun (bs, k) => mkShingle p.version (n + k) l cbset d.m d.shape d.d (bs.map fun b => (b.id, b.sign, b.codes))
    let map := (parts.zipIdx).flatMap fun (bs, k) => (bs.zipIdx).map fun (b, i) => ({ id := b.id, pos := i, shingle := n + k, addr := b.addr } : ItemRow)
    (n + parts.length, shs ++ made, rows ++ [{ list := l, first := n, count := parts.length, items := mine.length }], im ++ map)
  let (_, shs, rows, im) := (List.range d.lists).foldl step (0, [], [], [])
  (shs, rows, sortBy (fun (a b : ItemRow) => a.id < b.id) im)

/-- What a build encodes with (R217, R218): a retrain's own parameters, or those of the live thatch. -/
def buildPars (b : Build) (v : Nat) (live : Option Thatch) : Option ThatchPars :=
  if b.req.kind == 1 then some { version := v, codebook := b.req.codebook, centroids := b.req.centroids, listShard := b.req.listShard, margin := b.req.margin }
  else live.map fun h => { imagePars h.im with version := v }

/-- The items of an index as a retrain reads them (R218): of the live thatches here, and those of other shards that came; each ID once, in ascending ID. -/
def State.retrainInput (s : State) (x : Idx) (f : Nat) (addrs : List (Nat × Nat)) (extra : List (Nat × List Byte × Nat)) : List (Nat × List Byte × Nat) :=
  let all := ((x.thatches.filter (·.st == 1)).flatMap fun h => s.visibleItems h f addrs) ++ extra
  all.foldl (fun acc it => if acc.any fun y => y.1 == it.1 then acc else insertBy (fun (a b : Nat × List Byte × Nat) => a.1 < b.1) it acc) []

/-- Build the image of a shard (R218): the image, with what it counts: the vectors encoded, the items refused, centroids of no norm (R129) and the numbers, to the
spindle that builds (R91). -/
def State.buildImage (s : State) (x : Idx) (b : Build) (shard sp : Nat) (addrs : List (Nat × Nat)) (extra : List (Nat × List Byte × Nat))
    (inp : List (Nat × StreamIn)) (others : List (Nat × Nat)) : State × Option Image :=
  let d := x.desc
  let v := nextVersion (s.liveVersion x)
  let live := x.thatches.find? fun h => h.st == 1 && h.im.shard == shard
  match buildPars b v live with
  | none => (s, none)
  | some p =>
    let cbset := match b.req.kind, live with | 0, some h => h.im.cbset | _, _ => Config.codebookSet d.tenant d.index v
    let (s, r) := match b.req.kind, live with
      | 0, some h => (s, ({ items := foldItems h b.fold addrs } : Retrained))
      | _, _ => (s.retrainInput x b.fold addrs extra).foldl (State.retrainOne d p shard sp inp) (s, {})
    let (cents, n, badC, c2) := centroidShingles d p cbset (s.reg 0x40400B) (s.reg 0x402009)
    let (shs, rows, map) := placeItems d p cbset shard r.items others
    let im : Image := {
      version := v, index := d.index, tenant := d.tenant, shard, shards := d.shards, lists := d.lists, m := d.m, shape := d.shape, d := d.d,
      dim := d.dim, rr := d.rr, kind := b.req.kind, fold := b.fold, items := r.items.length, cbset, margin := p.margin, digest := [],
      codebook := p.codebook, centroids := p.centroids, listShard := p.listShard, listTable := rows, centShingles := cents, shingles := shs, itemMap := map }
    let s := ((s.bump 0xE04010 (r.ok + n)).bump 0xE04011 (r.bad + badC)).bump 0xE0400A (if shapeMetric d.shape == 2 then badC else 0)
    (s.charge (some sp) (addCnt r.cnt c2), some { im with digest := Config.sha256 (imageBody im) })

/-- Tell the sequencer that a shard of the successor is staged here (R219). -/
def State.tellStaged (s : State) (t i sh : Nat) : State :=
  match idxService s.map.entries t i with
  | none => s
  | some e =>
    if e.a != s.node then s.send e.a 0x22 t (.staged t i sh) else
    match s.findIdx t i with
    | some x => s.setIdx { x with build := x.build.map fun b => { b with staged := b.staged ++ [(sh, s.node)] } }
    | none => s

/-- A flash holder writes an image that it has received, in a window (R4, R306). A read-only region and a full flash refuse it, and the build fails (R330). -/
def State.writeImage (s : State) (t i : Nat) (im : Image) : State :=
  match s.findIdx t i with
  | none => s
  | some x =>
    let x := { x with heldWait := x.heldWait.filter fun y => !(y.shard == im.shard && y.version == im.version) }
    let s := s.setIdx x
    let ro := s.reg (pagedKey 0x7048 t) == 1
    if ro then (s.refuseWrite 0x0602).failBuild t i 0x0205
    else if s.flashFull then (((s.refuseWrite 0x0603).setReg (pagedKey 0x7048 t) 1).bump 0xE0B01F 1).failBuild t i 0x0205
    else
      let s := s.setIdx { x with held := x.held.filter (fun y => y.shard != im.shard || y.version == s.liveVersion x) ++ [im] }
      if im.version == s.liveVersion x then s else s.tellStaged t i im.shard

/-- Write the images that wait, once a window that allows it is open: publish or recovery (R306). -/
def State.writeImages (s : State) : State :=
  if !s.windowIn 6 then s else
  s.idx.foldl (fun s x => x.heldWait.foldl (fun s im => s.writeImage x.desc.tenant x.desc.index im) s) s

/-- A copy stages an image: pages of the stacks for the image, the tombstone bitmap and the delta segment (R72, R219), and the delta segment and the tombstones
from the installed records above F. An image of the live version comes to a respared copy (R390). Without the pages nothing is staged, and the build has lost a
copy (R216, R289; entry 54). -/
def State.stageCopy (s : State) (x : Idx) (im : Image) : State :=
  let t := x.desc.tenant
  let live := im.version == s.liveVersion x
  let before := imageLen im + tombLen im + deltaLen im x.desc.deltaLimit
  let n := cdiv (before + vecsLen im x.desc.deltaLimit) pageSize
  if !s.canTake t false n then (if live then s.bump 0xE0A016 1 else (s.bump 0xE0A016 1).failBuild t x.desc.index 0x0208) else
  let (s, pages) := s.takeHidden t false n
  let base : Thatch := { im, st := if live then 1 else 0, pages, vecs := (pages.headD 0) * pageSize + before }
  let (h, c) := applyRecords (s.reg 0x404009) (s.reg 0x40400A) base (recordsIn x.log (im.fold + 1) x.applied)
  let same (g : Thatch) : Bool := g.im.shard == im.shard && g.im.version == im.version
  let s := s.dropThatches t (x.thatches.filter same)
  let x := { x with thatches := x.thatches.filter (fun g => !same g) ++ [h], applied := if isCopy x then x.applied else max x.applied im.fold }
  (s.setIdx x).applied t c

/-- Stage an image here, as copy and as flash holder (R218, R219). A sequencer that waited for something to encode with takes it from the image. -/
def State.stageImage (s : State) (x : Idx) (im : Image) : State :=
  let t := x.desc.tenant
  let i := x.desc.index
  let e := idxShard s.map.entries t i im.shard
  let copy := (match e with | some e => e.a == s.node || e.b == s.node | none => false) ||
    s.fault.respares.any (fun p => p.tenant == t && p.index == i && p.shard == im.shard && p.y == s.node)
  let flash := match e with | some e => e.c == s.node | none => false
  let live := im.version == s.liveVersion x
  let x := { x with
    heldWait := if flash then x.heldWait.filter (fun y => y.shard != im.shard) ++ [im] else x.heldWait
    imgFails := x.imgFails.filter fun y => y.1 != im.shard }
  let wait := x.seqr.waitUpd
  let take := live && (liveParsOf x).isNone && s.isSequencer t i && !wait.isEmpty
  let x := if take then { x with seqr := { x.seqr with waitUpd := [], live := some (imagePars im) } } else x
  let s := s.setIdx x
  let s := if copy then s.stageCopy x im else s
  let staged := match s.findIdx t i with | some y => (thatchOf y im.shard im.version).isSome | none => false
  let s := if live || !copy || !staged then s else (s.setReg (pagedKey 0x4043 x.slot) 2).tellStaged t i im.shard
  let s := if live then s.install t i else s
  let s := s.writeImages
  if take then wait.foldl State.sequence s else s

/-- The lent spindles are zeroed before their first work of the build (R71, R217). -/
def State.zeroLent (s : State) (slot tenant : Nat) : State :=
  let o := s.ownerOf tenant 3
  let mine := (s.ctl.lent.filter fun l => l.1 == slot).map (·.2.1)
  (mine.filter fun n => !prepared (s.sp n) o && quiet (s.sp n)).foldl (fun s n => s.zeroNow n o) s

/-- R218: copy 0 of a shard has built the shard's image; it stages it and sends it to copy 1 and the flash holder. The vectors of folded delta items stand in
flash by then, written in the publish window (R306). -/
def execImageBuildDone (tenant index shard : Nat) (addrs : List (Nat × Nat)) (r : RetrainIn) (others : List (Nat × Nat)) (s : State) : Res := live s fun s =>
  match s.findIdx tenant index with
  | none => s
  | some x =>
    match x.build with
    | none => s
    | some b =>
      let mine := s.copy0 tenant index
      let sp := minOf ((s.ctl.lent.filter fun l => l.1 == x.slot).map (·.2.1))
      if !b.started || !mine.contains shard || b.sent.any (fun y => y.1 == shard) || s.ctl.lendWait.any (fun w => w.1 == x.slot) ||
        !(x.thatches.filter (·.st == 1)).all (fun h => s.vectorsWritten h b.fold addrs) then s else
      match (s.zeroLent x.slot tenant).buildImage x b shard (sp.getD 0) addrs r.extra r.inp others with
      | (_, none) => s
      | (s, some im) =>
        let b := { b with sent := b.sent ++ [(shard, s.node)] }
        let x := { x with build := some b }
        let s := (s.setIdx x).stageImage x im
        let s := match idxShard s.map.entries tenant index shard with
          | some e => s.sendAll ([e.b, e.c].filter (· != 0xFFFF)).eraseDups 0x22 tenant false (.image im)
          | none => s
        if mine.all (fun sh => b.sent.any fun y => y.1 == sh) then s.lentReturn x.slot else s

/-- The header check of an image against the registered index (R202): of the next version, or of the live one in a respare. -/
def imageOk (x : Idx) (live : Nat) (im : Image) : Bool :=
  let d := x.desc
  im.layout == 1 && im.sections == 7 && im.reserved == 0 && im.tenant == d.tenant && im.index == d.index && im.shard < d.shards && im.shards == d.shards && im.lists == d.lists && im.m == d.m && im.shape == d.shape &&
  im.d == d.d && im.dim == d.dim && im.rr == d.rr && im.kind ≤ 1 && (im.version == nextVersion live || im.version == live) && im.version != 0

/-- R202: a Molset receives an image, checks it and stages it. The second failure fails the publish (R223). A spare that is respared, and a new
flash holder, learn the live version from the image (R389, R390). -/
def execImageReceive (src : Nat) (im : Image) (s : State) : Res := liveFor im.tenant s fun s =>
  match s.findIdx im.tenant im.index with
  | none => s
  | some x =>
    let joins := s.fault.respares.any (fun p => p.tenant == im.tenant && p.index == im.index && p.shard == im.shard && p.y == s.node) ||
      (x.thatches.isEmpty && s.liveVersion x == 0 && im.version != 1)
    let s := if joins then (s.setReg (pagedKey 0x4042 x.slot) im.version).setReg (pagedKey 0x4045 x.slot) im.fold else s
    if imageOk x (s.liveVersion x) im && im.digest == Config.sha256 (imageBody im) then
      if x.thatches.any fun h => h.im.shard == im.shard && h.im.version == im.version then s else s.stageImage x im
    else
      let s := s.bump 0xE0700A 1
      if x.imgFails.any fun y => y.1 == im.shard then s.failBuild im.tenant im.index 0x0206
      else (s.setIdx { x with imgFails := x.imgFails ++ [(im.shard, 1)] }).send src 0x22 im.tenant (.askImage im.tenant im.index im.shard)

/-- R202, R391: a receiver asks for an image. A copy sends what it holds; a flash holder that is no copy reads the image from flash, in the system queue
if the image goes to a restore (R402, R417), else in bulk class. -/
def execImageResendRequest (src tenant index shard : Nat) (s : State) : Res := live s fun s =>
  match s.findIdx tenant index with
  | none => s
  | some x =>
    match (x.thatches.filter fun h => h.im.shard == shard).getLast? with
    | some h => s.send src 0x22 tenant (.image h.im)
    | none =>
      match (x.held.filter fun im => im.shard == shard).getLast? with
      | some im =>
        let m : Msg := .image im
        (s.serveNow 2 (if s.restores m then systemTenant else tenant, true, cdiv (imageLen im) 4096)).send src 0x22 tenant m
      | none => s

/-! ### Publishing (R220 to R222) -/

/-- Everyone whom a publish decision goes to: every copy, every flash holder and the home (R220). -/
def State.publishNodes (s : State) (x : Idx) (home : Nat) : List Nat :=
  (((idxShards s.map.entries x.desc.tenant x.desc.index).flatMap entryNodes) ++ [home]).eraseDups

/-- The shingle counts of the staged shards of a version here. -/
def stagedShingles (x : Idx) (v : Nat) : List (Nat × Nat) := (x.thatches.filter fun h => h.im.version == v).map fun h => (h.im.shard, h.im.shingles.length)

/-- Take an acknowledgement, with a shingle count for the home (R220, R409). -/
def State.publishAcked (s : State) (src t i shard n : Nat) : State :=
  match s.findIdx t i with
  | none => s
  | some x =>
    let rep := if shard == 0xFFFF then x.shingleReports else put x.shingleReports shard n
    s.setIdx { x with
      shingleReports := rep
      build := x.build.map fun b => { b with acks := if b.acks.contains src then b.acks else b.acks ++ [src] } }

/-- Receive a publish decision (R220): stale after its tick (R25), else pending and acknowledged to the sequencer and, with the shingle counts, to the
home. -/
def State.takePublish (s : State) (src t i p v : Nat) : State :=
  match s.findIdx t i with
  | none => s
  | some x =>
    if p ≤ s.ftick then s.stale else
    let s := ((s.setIdx { x with publish := some (p, v) }).setReg (pagedKey 0x4043 x.slot) 3).setReg (pagedKey 0x4049 x.slot) p
    let acks := match stagedShingles x v with | [] => [(0xFFFF, 0)] | l => l
    let dsts := [src, x.home].eraseDups
    acks.foldl (fun s (sh, n) => dsts.foldl (fun s d =>
      if d == s.node then s.publishAcked s.node t i sh n else s.send d 0x22 t (.publishAck t i sh n)) s) s

/-- Has every copy and every flash holder of an index staged the successor (R219, R220)? -/
def State.isStaged (s : State) (x : Idx) (b : Build) : Bool :=
  (idxShards s.map.entries x.desc.tenant x.desc.index).all fun e => (entryNodes e).all fun n => b.staged.contains (e.shard, n)

/-- R220: reports of staging reach the sequencer; once every shard is staged everywhere it chooses the publish tick and sends the decision. -/
def execAllStaged (tenant : Nat) (m : StagedReports) (s : State) : Res := live s fun s =>
  match s.findIdx tenant m.index with
  | none => s
  | some x =>
    match x.build with
    | none => s
    | some b =>
      if !s.isSequencer tenant m.index || b.p.isSome then s else
      let b := { b with staged := b.staged ++ m.reports.filter fun r => !b.staged.contains r }
      let x := { x with build := some b }
      let s := s.setIdx x
      if !s.isStaged x b then s else
      let p := max b.req.publish (s.ftick + s.reg 0x404006)
      let v := nextVersion (s.liveVersion x)
      let x := { x with build := some { b with p := some p, started := true }, publish := some (p, v) }
      let s := ((s.setIdx x).setReg (pagedKey 0x4043 x.slot) 3).setReg (pagedKey 0x4049 x.slot) p
      let nodes := s.publishNodes x b.req.home
      let s := s.sendAll nodes 0x22 tenant false (.publish tenant m.index p v)
      if nodes.contains s.node then s.takePublish s.node tenant m.index p v else s

/-- R220, R223: a copy, a flash holder or the home receives a publish decision, or that the build or the publish has failed; the sequencer, that a Molset could
not take its part. A build that another one forestalled fails for its home alone (R216). -/
def execPublishDecision (src tenant index p : Nat) (v : Verdict) (s : State) : Res := live s fun s =>
  if v.status == 0 then s.takePublish src tenant index p v.version
  else if v.status == 0x0202 then s.finishBuild tenant index v.status 0 0
  else if s.isSequencer tenant index then s.failBuild tenant index v.status
  else s.dropBuild tenant index v.status

/-- R220, R409: an acknowledgement of a publish reaches the sequencer or the home. -/
def execPublishAck (src tenant index shard shingles : Nat) (s : State) : Res := live s fun s => s.publishAcked src tenant index shard shingles

/-- R220: an acknowledgement is missing 0x4040:07 ticks before P: the sequencer cancels the publish. -/
def execPublishAckTimeout (tenant index : Nat) (s : State) : Res := live s fun s =>
  match s.findIdx tenant index with
  | none => s
  | some x =>
    match x.build with
    | none => s
    | some b =>
      match b.p with
      | none => s
      | some p =>
        if !s.isSequencer tenant index || s.ftick + s.reg 0x404007 < p || p ≤ s.ftick || (s.publishNodes x b.req.home).all (fun n => b.acks.contains n) then s
        else s.failBuild tenant index 0x0207

/-- Apply a publish in step 6 of its tick (R221): base pointers switch, records at or below the new fold are no longer kept (R392), λ is set (R409)
and the home's completion is written. -/
def State.applyPublish (s : State) (x : Idx) (v : Nat) : State :=
  let t := x.desc.tenant
  let i := x.desc.index
  let ths := x.thatches.map fun h =>
    if h.im.version == v && h.st == 0 then { h with st := 1, since := s.ftick } else if h.st == 1 then { h with st := 2 } else h
  let fold := match (ths.find? fun h => h.st == 1) with | some h => h.im.fold | none => (x.build.map (·.fold)).getD (s.reg (pagedKey 0x4045 x.slot))
  let total := x.shingleReports.foldl (fun n r => n + r.2) 0
  let x := { x with
    thatches := ths, publish := none, build := none, shingleReports := [], imgFails := []
    held := x.held.filter fun im => im.version == v || !x.held.any fun y => y.shard == im.shard && y.version == v
    lambda := if x.shingleReports.isEmpty then x.lambda else max 1 (cdiv total x.desc.lists)
    log := x.log.filter (fun r => fold < r.seq), seals := x.seals.filter (fun r => r.tick == s.ftick)
    seqr := { x.seqr with live := match x.seqr.succ with | some p => some p | none => x.seqr.live
                          succ := none
                          counts := x.seqr.counts.filter fun c => c.1 == v } }
  let s := ((s.setIdx x).bump 0xE0700F 1).setReg (pagedKey 0x4042 x.slot) v
  let s := ((s.setReg (pagedKey 0x4043 x.slot) 0).setReg (pagedKey 0x4045 x.slot) fold).setReg (pagedKey 0x4049 x.slot) 0
  (((s.noteIndex x).lentReturn x.slot).finishBuild t i 0 v s.ftick).publishOver

/-- Free the old thatches of an index once no skein admitted before the switch has unfinished work here (R222), not before the two ticks of grace of
R375 have passed; and the views that no unfinished skein needs (R210). -/
def State.freeThatches (s : State) (x : Idx) : State :=
  let t := x.desc.tenant
  let i := x.desc.index
  let open_ (c : CopyQ) : Bool := c.par.tenant == t && c.par.index == i && (c.phase < 4 || c.par.r != 0 || s.rerank.reads.any fun r => r.name == c.name)
  let since := x.thatches.foldl (fun m h => if h.st == 1 then max m h.since else m) 0
  let busy := s.copy.any fun c => open_ c && c.name.skein < since
  let drop := !busy && since + 2 ≤ s.ftick
  let olds := if drop then (x.thatches.filter (·.st == 2)).map (fun h => h.im.version) else []
  let s := if drop then s.dropThatches t (x.thatches.filter (·.st == 2)) else s
  let x := { x with
    thatches := if drop then x.thatches.filter (·.st != 2) else x.thatches
    views := x.views.filter fun v => s.ftick ≤ v.1 + 3 || s.copy.any fun c => open_ c && c.name.skein == v.1 }
  (s.setIdx x).bump 0xE07011 olds.eraseDups.length

/-! ### Resident filters (R153, R441) -/

/-- Is a handle registered for the tenant once earlier entries of this tick have taken effect: its index, if so (R153)? -/
def State.filterPending (s : State) (t seq handle : Nat) : Option Nat :=
  let base := (s.filters.find? fun f => f.tenant == t && f.handle == handle && f.stop.isNone).map (·.index)
  let ops := s.sched.filterOps.filter fun o => o.1 == t && o.2.1 < seq && o.2.2.1 == handle
  ops.foldl (fun b o => if o.2.2.2.2 == 3 then none else if o.2.2.2.2 == 1 then some o.2.2.2.1 else b) base

/-- How many filters the tenant holds in that state. -/
def State.filterCount (s : State) (t seq : Nat) : Nat :=
  let hs := ((s.filters.filter fun f => f.tenant == t).map (·.handle)) ++ ((s.sched.filterOps.filter fun o => o.1 == t).map fun o => o.2.2.1)
  (hs.eraseDups.filter fun h => (s.filterPending t seq h).isSome).length

/-- The bitmap at an address (R152). -/
def State.bitmapAt (s : State) (t a : Nat) : Bitmap :=
  let count := s.loadNat t (a + 8) 8
  let bytes := s.load t (a + 32) (cdiv count 8)
  { base := s.loadNat t a 8, count, outside := s.loadNat t (a + 16) 1, bits := bytes.flatMap fun b => (List.range 8).map fun i => b.getLsbD i }

/-- Does a filter header keep R152? -/
def State.bitmapOk (s : State) (t a : Nat) : Bool :=
  let base := s.loadNat t a 8
  let count := s.loadNat t (a + 8) 8
  base < 2 ^ 48 && base % 512 == 0 && count % 512 == 0 && count ≤ 8 * (s.reg 0x402201 - 32) && s.loadNat t (a + 16) 1 ≤ 1 && s.loadNat t (a + 17) 15 == 0

/-- The status of a filter entry; 0 passes (R441). -/
def State.filterStatus (s : State) (t seq : Nat) (e : Entry) : Nat :=
  let op := eNat e 38 1
  let h := eNat e 32 4
  let i := eNat e 36 2
  let a := eNat e 24 8
  let cur := s.filterPending t seq h
  if !eZero e 39 89 || !(1 ≤ op && op ≤ 3) || h == 0 || (op == 3 && a != 0) then 0x0C01
  else if (op == 1 && cur.isSome) || (op != 1 && cur != some i) then 0x0C02
  else if op == 1 && s.reg 0x402202 ≤ s.filterCount t seq then 0x0C03
  else if op != 3 && s.ownedStacks t a 32 && !s.poisoned t a 32 && !s.bitmapOk t a then 0x0C04
  else if op != 3 && !(s.ownedStacks t a 32 && !s.poisoned t a 32 && s.ownedStacks t a (s.filterExtent t a) && !s.poisoned t a (s.filterExtent t a)) then 0x0C05
  else if (match s.findIdx t i with | some x => decide (s.ftick < x.regTick) | none => true) then 0x0C06
  else if !s.inService t then 0x0C07
  else 0

/-- The check of a filter entry: an accepted one counts for the later entries of the tick (R153, R441). -/
def checkFilter (t seq : Nat) (s : State) (e : Entry) : State × Chk :=
  let st := s.filterStatus t seq e
  if st != 0 then (s, .refuse st) else
  let ops := s.sched.filterOps.filter fun o => !(o.1 == t && o.2.1 == seq)
  ({ s with sched := { s.sched with filterOps := ops ++ [(t, seq, eNat e 32 4, eNat e 36 2, eNat e 38 1)] } }, .pass 1 false)

/-- R441: the check of a filter registration. -/
def execFilterRegister (tenant seq : Nat) (bad : Bool) (s : State) : Res := live s fun s =>
  s.ringRow tenant seq bad 5 (opIs 38 256 1 [1, 2, 3]) (checkFilter tenant seq)

/-- R441: the check of a filter replacement. -/
def execFilterReplace (tenant seq : Nat) (bad : Bool) (s : State) : Res := live s fun s =>
  s.ringRow tenant seq bad 5 (opIs 38 256 2 [1, 2, 3]) (checkFilter tenant seq)

/-- R441: the check of a filter release. -/
def execFilterRelease (tenant seq : Nat) (bad : Bool) (s : State) : Res := live s fun s =>
  s.ringRow tenant seq bad 5 (opIs 38 256 3 [1, 2, 3]) (checkFilter tenant seq)

/-- Process a filter entry (R153): it takes effect at the next tick; a new content, and the release, go to every shard copy of the index. -/
def State.admitFilter (s : State) (t seq : Nat) : State :=
  let e := s.entryOf t seq
  let h := eNat e 32 4
  let i := eNat e 36 2
  let at_ := s.ftick + 1
  let old := updIf (fun f => f.tenant == t && f.handle == h && f.stop.isNone) (fun f => { f with stop := some at_ }) s.filters
  let s := { s with filters := old }
  let dsts := ((idxShards s.map.entries t i).flatMap entryCopies).eraseDups
  let s := if eNat e 38 1 == 3 then s.sendAll dsts 0x20 t false (.filter t h i at_ none) else
    let m := s.bitmapAt t (eNat e 24 8)
    let f : Filter := { tenant := t, handle := h, index := i, map := m, start := at_, stop := none }
    (s.keepFilter f).sendAll dsts 0x20 t false (.filter t h i at_ (some m))
  s.complete t seq 5 0 0 (entryTag e) s.ftick (detail16 h at_) 0

end Sys2Proof.Machine
end

