-- ==== Sys2Proof/Machine/Trust.lean ====
section
/-! DEFINITION. Monotonic counters and their witnesses, and the management key (R478 to R481). -/

namespace Sys2Proof.Machine

/-! ### Keys of the device secret (R454, R455) -/

/-- The bytes of an ASCII string (R455). -/
def ascii (t : String) : List Byte := t.toList.map fun c => BitVec.ofNat 8 c.toNat

/-- PRK_dev: HKDF-Extract of the device secret under 32 zero bytes (R455). -/
def prkDev : List Byte := Config.hmac (List.replicate 32 0) Config.deviceSecret

/-- A key of the device secret: HKDF-Expand of PRK_dev (R455). -/
def deviceKey (info : List Byte) (n : Nat) : List Byte := Config.hkdf prkDev info n

/-- The seed of the identity key (R455). -/
def identitySeed : List Byte := deviceKey (ascii "identity") 96

/-- The identity public key, 64 bytes (R461). -/
def identityPub : List Byte := Config.slhPublic identitySeed

/-- The seed of the attestation key of the measurements H_m (R455). -/
def attestSeed (hm : List Byte) : List Byte := deviceKey (ascii "attest" ++ hm) 48

/-- The seeds of the KEM key of the measurements H_m (R455). -/
def kemSeed (hm : List Byte) : List Byte := deviceKey (ascii "kem" ++ hm) 64

/-- The KEM public key of the measurements H_m (R461). -/
def kemPub (hm : List Byte) : List Byte := Config.kemPublic (kemSeed hm)

/-- Exactly `n` bytes of a string, padded with zeros. -/
def fixLen (n : Nat) (b : List Byte) : List Byte := (b ++ List.replicate n 0).take n

/-- Measurement register `i` (R458). -/
def State.measured (s : State) (i : Nat) : List Byte := fixLen 32 (s.blob (0xA00101 + i))

/-- H_m: SHA-256 of MR0, MR1 and MR2, concatenated (R455). -/
def State.measures (s : State) : List Byte := Config.sha256 (s.measured 0 ++ s.measured 1 ++ s.measured 2)

/-- The attestation certificate: the attestation public key, SHA-256 of the KEM public key, MR0 to MR2 and the running security version, under the identity
key (R461). -/
def State.attestation (s : State) : List Byte :=
  let body := Config.slhPublic (attestSeed s.measures) ++ Config.sha256 (kemPub s.measures) ++ s.measured 0 ++ s.measured 1 ++ s.measured 2 ++
    leBytes 4 (s.reg 0xA00002)
  Config.certificate body (Config.slhSign identitySeed body)

/-! ### Monotonic counters (R479, R480) -/

/-- The committed value of a counter. -/
def State.counter (s : State) (i : Nat) : Nat := s.reg (0xA02000 + i)

/-- The value above every one that a counter holds or is about to hold. -/
def State.nextCounter (s : State) (i : Nat) : Nat :=
  let vs := (s.sec.advance.filterMap fun a => if a.1 == i then some a.2.1 else none) ++
    s.sec.waitAdv.filterMap fun a => if a.1 == i then some a.2 else none
  vs.foldl max (s.counter i) + 1

/-- The witnesses of an advance (R480): the three lowest live nodes that are not on this Molset's own tray. -/
def State.counterWitnesses (s : State) : List Nat :=
  let tray (n : Nat) : Nat := match s.net.lsdb.find? fun r => r.1.origin == n with
    | some r => r.1.tray
    | none => match nodeEntry s.map.entries n with | some e => e.object | none => s.reg 0x800003
  (s.liveSet.filter fun n => n != s.node && tray n != s.reg 0x800003).take 3

/-- Can an advance go on: three witnesses are live, or the node ID is not assigned (R480)? -/
def State.canAdvance (s : State) : Bool := s.reg 0x800002 == 0 || s.counterWitnesses.length == 3

/-- A counter is to be raised (R480); one that rises already to that value needs nothing more. -/
def State.wantAdvance (s : State) (i v : Nat) : State :=
  if v ≤ s.counter i || s.sec.waitAdv.contains (i, v) then s else { s with sec := { s.sec with waitAdv := s.sec.waitAdv ++ [(i, v)] } }

/-- A change to the configuration area raises counter 2 (R479); an advance that has not been written yet covers it. -/
def State.configChange (s : State) : State :=
  if s.sec.waitAdv.any (·.1 == 2) then s else s.wantAdvance 2 (s.nextCounter 2)

/-- Store a value in a list of stored values. -/
def keepVal (l : List (Key × DVal)) (x : Key × DVal) : List (Key × DVal) := put l x.1 x.2

/-- A counter is committed (R480). With counter 2 the operator values that it covers count as stored (R494). -/
def State.commitCounter (s : State) (i v : Nat) : State :=
  let s := { s with sec := { s.sec with advance := s.sec.advance.filter fun a => !(a.1 == i && a.2.1 == v) } }
  let s := ((if s.counter i < v then s.setReg (0xA02000 + i) v else s).bump 0xE10008 1)
  if i == 2 then
    let n := s.sec.cfgTaken
    let s := { s with
      dict := { s.dict with stored := (s.dict.unstored.take n).foldl keepVal s.dict.stored, unstored := s.dict.unstored.drop n }
      sec := { s.sec with cfgTaken := 0 } }
    s.setReg 0x1F0005 s.dict.unstored.length
  else s

/-- R480: a counter's new value is written as pending and sent to its witnesses; without a node ID it is committed at once. An advance waits while
fewer than three witnesses are live, or while the counter's earlier one is pending. -/
def execCounterAdvance (i v : Nat) (s : State) : Res := live s fun s =>
  if !s.sec.waitAdv.contains (i, v) || s.sec.advance.any (·.1 == i) || !s.canAdvance then s else
  let s := { s with sec := { s.sec with
    waitAdv := s.sec.waitAdv.filter (· != (i, v)), cfgTaken := if i == 2 then s.dict.unstored.length else s.sec.cfgTaken } }
  if s.reg 0x800002 == 0 then s.commitCounter i v
  else
    let w := s.counterWitnesses
    let s := { s with sec := { s.sec with advance := s.sec.advance ++ [(i, v, w, [])] } }
    s.sendAll w 0x14 0 false (.witness i v)

/-- R480: a peer's counter value is written into the witness table, and acknowledged. -/
def execWitnessRequest (src i v : Nat) (s : State) : Res := live s fun s =>
  let old := (s.sec.witness.find? fun (w : Nat × Nat × Nat) => w.1 == src && w.2.1 == i).map (·.2.2)
  let new := max v (old.getD 0)
  let s := { s with sec := { s.sec with witness := s.sec.witness.filter (fun (w : Nat × Nat × Nat) => !(w.1 == src && w.2.1 == i)) ++ [(src, i, new)] } }
  (s.bump 0xE10009 1).send src 0x14 0 (.witnessAck i)

/-- R480: a witness acknowledges; with all three acknowledgements the counter is committed. -/
def execWitnessAck (src i : Nat) (s : State) : Res := live s fun s =>
  match s.sec.advance.find? fun a => a.1 == i && a.2.2.1.contains src && !a.2.2.2.contains src with
  | none => s
  | some a =>
    let acks := a.2.2.2 ++ [src]
    if acks.length == a.2.2.1.length then s.commitCounter i a.2.1
    else { s with sec := { s.sec with advance := updIf (fun x => x.1 == i) (fun x => (x.1, x.2.1, x.2.2.1, acks)) s.sec.advance } }

/-- Is a value of a counter accepted at a start (R481): the committed value, or the next one while it is pending? -/
def State.accepts (s : State) (i v : Nat) : Bool :=
  v == s.counter i || (v == s.counter i + 1 && s.sec.advance.any fun a => a.1 == i && a.2.1 == v)

/-- What a peer's witness table shows about a counter (R481): a pending value is committed. -/
def State.witnessed (s : State) (w : Nat × Nat) : State :=
  if s.sec.advance.any fun a => a.1 == w.1 && a.2.1 == w.2 then s.commitCounter w.1 w.2 else s

/-- Has the region been rolled back: a peer holds a value above the committed and the pending one (R481)? -/
def State.rolledBack (s : State) (w : Nat × Nat) : Bool :=
  s.counter w.1 < w.2 && !s.sec.advance.any fun a => a.1 == w.1 && w.2 ≤ a.2.1

/-! ### The management key (R478) -/

/-- The key in use is replaced; the one before it is accepted for two more ticks. -/
def State.useKey (s : State) (epoch : Nat) (k : List Byte) (until_ : Nat) : State :=
  let old := s.sec.mgmtKey.map fun o => (o, until_)
  ({ s with sec := { s.sec with mgmtKey := some k, mgmtOld := old, mgmtNext := none } }.setReg 0xA03001 epoch).bump 0xE10011 1

/-- The tick reference generates a new key, used from a tick, and distributes it (R478). -/
def State.newMgmtKey (s : State) (start : Nat) : State :=
  let (n, s) := s.draw
  let k := (Config.random n 32 ++ List.replicate 32 0#8).take 32
  let epoch := s.reg 0xA03001 + 1
  let s := if start ≤ s.ftick then s.useKey epoch k (s.ftick + 2) else { s with sec := { s.sec with mgmtNext := some (epoch, k, start) } }
  s.sendAll s.liveSet 0x14 0 false (.mgmtKey epoch k start)

/-- A link to a peer has come up: the key is passed on; where none exists yet, the lower node is the reference that generates it (R40, R478). The
tick reference passes a pending period change on too (R38). -/
def State.shareKey (s : State) (peer : Nat) : State :=
  let s := if s.sec.mgmtKey.isNone && s.node < peer then s.newMgmtKey s.ftick else s
  let s := match s.sec.mgmtKey with
    | some k => s.send peer 0x14 0 (.mgmtKey (s.reg 0xA03001) k s.ftick)
    | none => s
  match s.time.change with
  | some c =>
    if s.reg 0x200101 != s.node then s else
    let c := { c with peers := (c.peers ++ [peer]).eraseDups }
    { s with time := { s.time with change := some c } }.send peer 0x15 0 (.period c.period c.switch)
  | none => s

/-- R478: a management key arrives: it is used from the tick that it names. One of an epoch that is not newer is ignored. -/
def execManagementKey (epoch : Nat) (k : List Byte) (from_ : Nat) (s : State) : Res := live s fun s =>
  let known := match s.sec.mgmtNext with | some n => n.1 | none => if s.sec.mgmtKey.isSome then s.reg 0xA03001 else 0
  if epoch ≤ known then s
  else if from_ ≤ s.ftick || s.sec.mgmtKey.isNone then s.useKey epoch k (s.ftick + 2)
  else { s with sec := { s.sec with mgmtNext := some (epoch, k, from_) } }

/-- The key change of a tick (R478). The key before serves receivers until D+3, two ticks after the new one is used. -/
def State.mgmtTick (s : State) : State :=
  match s.sec.mgmtNext with
  | some (e, k, b) => if b ≤ s.ftick then s.useKey e k (b + 2) else s
  | none => s

end Sys2Proof.Machine
end

