-- ==== Sys2Proof/Machine/Fabric.lean ====
section
/-! DEFINITION. The Wizane fabric (R334 to R377): ports, discovery, routing, transport, memory operations and the composition map. -/

namespace Sys2Proof.Machine

/-! ### Ports (R335, R342) -/

/-- A port's state. -/
def State.port (s : State) (p : Nat) : Port := (lk s.ports p).getD {}

/-- Store a port. -/
def State.setPort (s : State) (p : Nat) (x : Port) : State := { s with ports := put s.ports p x }

/-- The state of R342 of a port. -/
def State.portState (s : State) (p : Nat) : Nat := s.reg (0x800101 + p)

/-- Set the state of a port. -/
def State.setPortState (s : State) (p v : Nat) : State := s.setReg (0x800101 + p) v

/-- The value of 0x8002: peer node, peer port and refusal reason. -/
def peerWord (node port reason : Nat) : Nat := node % 4096 + port % 16 * 2 ^ 16 + reason % 16 * 2 ^ 20

/-- The adjacencies of this Molset: every up port, the peer's port and the peer (R347). -/
def State.ownAdj (s : State) : List (Nat × Nat × Nat) :=
  ((List.range 16).filter fun p => s.portState p == 3).map fun p => let w := s.reg (0x800201 + p); (p, field w 19 16, w % 4096)

/-- This Molset's link-state record (R347). -/
def State.ownRec (s : State) : LinkRec where
  origin := s.node
  tray := s.reg 0x800003
  seq := s.net.ownSeq
  digest := s.blob 0xA00005
  adj := s.ownAdj

/-- Send a link-state record on every up port but one (R347). -/
def State.floodRec (s : State) (r : LinkRec) (skip : Nat) : State :=
  let s := s.bump 0xE0C008 1
  (s.ownAdj.filter (·.1 != skip)).foldl (fun s a => s.sendAt a.2.2 0x11 0 s.epoch false (.linkState r)) s

/-- Originate this Molset's record again and flood it (R347). Port 16 stands for none. -/
def State.flood (s : State) : State :=
  let s := { s with net := { s.net with ownSeq := s.net.ownSeq + 1, ownTick := s.now, dirty := true } }
  s.floodRec s.ownRec 16

/-- A link has left the up state: what waits for it is dropped (R342, R350), and the change is flooded (R347). -/
def State.linkLost (s : State) (p : Nat) : State :=
  let waits := s.net.egress.filter fun e => e.port == p
  let s := { s with net := { s.net with
    egress := s.net.egress.filter fun e => e.port != p
    forwarded := s.net.forwarded.filter fun f => f.1 != p } }
  (if waits.isEmpty then s else s.bump 0xE0C00B waits.length).flood

/-- A port enters training: its key is gone and its flits start anew (R342). -/
def State.toTraining (s : State) (p : Nat) : State :=
  let wasUp := s.portState p == 3
  let s := (s.setPort p { attempts := (s.port p).attempts, lastRekey := (s.port p).lastRekey }).setPortState p 1
  if wasUp then s.linkLost p else s

/-- A retrain (R340, R341, R342): counted, and scored against the port (R386). -/
def State.retrain (s : State) (p : Nat) : State := ((s.bump 0xE0C005 1).score partPort p 64).toTraining p

/-- Entry to the down state (R342): counted, scored, reported against the peer (R378); training restarts at once, up to 0x801005 times in a
row. -/
def State.portDown (s : State) (p : Nat) : State :=
  let x := s.port p
  let wasUp := s.portState p == 3
  let s := (s.bump 0xE0C006 1).score partPort p 256
  let again := x.attempts < s.reg 0x801005
  let s := (s.setPort p { attempts := if again then x.attempts + 1 else x.attempts, lastRekey := x.lastRekey }).setPortState p (if again then 1 else 4)
  let s := if wasUp then s.linkLost p else s
  match x.peer with
  | some n => s.raiseFault 5 n 0 0 0
  | none => s

/-- Refuse a link (R345): the reason is stored with the peer. -/
def State.refusePort (s : State) (p node peerPort reason : Nat) : State :=
  let wasUp := s.portState p == 3
  let s := ((s.setPortState p 5).setReg (0x800201 + p) (peerWord node peerPort reason)).bump 0xE0C007 1
  let s := s.setPort p { lastRekey := (s.port p).lastRekey }
  if wasUp then s.linkLost p else s

/-- A port kind takes effect (R335, R342): 0 disables the port; another one starts a port that is disabled, down or refused, and a port whose kind
changes trains again. -/
def State.setPortKind (s : State) (p kind : Nat) : State :=
  let old := s.reg (0x800301 + p)
  let st := s.portState p
  let s := s.setReg (0x800301 + p) kind
  if kind == 0 then
    let s := (s.setPort p { lastRekey := (s.port p).lastRekey }).setPortState p 0
    if st == 3 then s.linkLost p else s
  else if st == 0 || st ≥ 4 then (s.setPort p { lastRekey := (s.port p).lastRekey }).setPortState p 1
  else if old != kind then s.retrain p
  else s

/-- R335: the kind that was written to a port takes effect. -/
def execPortKind (port kind : Nat) (s : State) : Res := live s fun s =>
  if port < 16 && kind ≤ 3 then s.setPortKind port kind else s

/-- The hello of this end (R345). -/
def State.ownHello (s : State) (p : Nat) : Hello where
  node := s.node
  assigned := s.reg 0x800002 == 1
  tray := s.reg 0x800003
  fabric := s.reg 0x800004
  port := p
  digest := s.blob 0xA00005

/-- R342: a training port gains PCS lock and enters securing; this end sends its hello (R345). -/
def execPcsLock (port : Nat) (s : State) : Res := live s fun s =>
  if port < 16 && s.portState port == 1 then (s.setPort port { s.port port with hello := some (s.ownHello port) }).setPortState port 2 else s

/-- R342: no lock within the training timeout. -/
def execTrainingTimeout (port : Nat) (s : State) : Res := live s fun s =>
  if port < 16 && s.portState port == 1 then s.portDown port else s

/-- R342: the PCS loses block lock. -/
def execLockLoss (port : Nat) (s : State) : Res := live s fun s =>
  if port < 16 && (s.portState port == 2 || s.portState port == 3) then s.portDown port else s

/-- R342: no valid flit within the silence limit. -/
def execSilenceTimeout (port : Nat) (s : State) : Res := live s fun s =>
  if port < 16 && (s.portState port == 2 || s.portState port == 3) then s.portDown port else s

/-- The reason for which a hello is refused (R345); 0 accepts it. -/
def State.helloReason (s : State) (p : Nat) (h : Hello) : Nat :=
  if h.digest != (s.port p).peerDigest then 1
  else if h.fabric != s.reg 0x800004 then 2
  else if !h.assigned || s.reg 0x800002 != 1 then 3
  else if h.node == s.node then 4
  else if s.alive h.node && s.net.lsdb.any (fun r => r.1.origin == h.node && r.1.digest != h.digest) then 5
  else 0

/-- R345, R346: a hello on a secured link brings the port up or has it refused. -/
def execHello (port : Nat) (h : Hello) (s : State) : Res := live s fun s =>
  if port < 16 && s.portState port == 2 && (s.port port).keySet then
    let reason := s.helloReason port h
    if reason != 0 then (s.bumpIf (reason == 5) 0xE0C01E).refusePort port h.node h.port reason
    else
      let s := s.setPort port { s.port port with attempts := 0, peer := some h.node }
      (((s.setReg (0x800201 + port) (peerWord h.node h.port 0)).setPortState port 3).flood).shareKey h.node
  else s

/-! ### Flits (R338 to R341) -/

/-- Flits that stay unacknowledged when the peer names the sequence that it expects. -/
def heldAfter (x : Port) (ack : Nat) : Nat := let n := (x.txSeq + 4096 - ack % 4096) % 4096; if n ≤ x.held then n else x.held

/-- Credits returned for a buffer (R351). -/
def Port.addCredits (x : Port) (buf n : Nat) : List (Nat × Nat) := if n == 0 then x.credits else put x.credits buf (x.creditsOf buf + n)

/-- Ask for a replay, once for each flit that was lost (R340). More requests in a frame than the retry limit retrain the port. -/
def State.askReplay (s : State) (p : Nat) : State :=
  let x := s.port p
  if x.rxDrop then s else
  let s := ((s.bump 0xE0C003 1).score partPort p 2).setPort p { x with rxDrop := true, retries := x.retries + 1 }
  if s.reg 0x801003 < x.retries + 1 then s.retrain p else s

/-- R340, R341: a data flit is accepted in its sequence, or it and every later one is discarded and a replay asked for. A tag that fails on a flit that
needed no correction is an authentication failure. -/
def execFlit (port : Nat) (f : Flit) (s : State) : Res := live s fun s =>
  let x := s.port port
  if port < 16 && (s.portState port == 2 || s.portState port == 3) && x.keySet then
    if f.fecOk && !f.corrected && !f.tagOk then ((s.bump 0xE0C004 1).retrain port).raiseFault 4 s.node partPort port 0
    else if f.fecOk && f.tagOk && f.seq == x.rxSeq then
      let y := { x with
        rxSeq := (x.rxSeq + 1) % 4096, rcvd := x.rcvd + 1, rxDrop := false, held := heldAfter x (f.ack + 1)
        credits := x.addCredits f.creditBuf f.credits }
      (s.bump 0xE0C002 1).setPort port y.switched
    else s.askReplay port
  else s

/-- R340: replay from the flit that the peer names. -/
def execRetryRequest (port seq : Nat) (s : State) : Res := live s fun s =>
  if port < 16 && (s.portState port == 2 || s.portState port == 3) then
    let x := s.port port
    let n := heldAfter x seq
    (s.setPort port ({ x with held := n, sent := x.sent + n } : Port).switched).bump 0xE0C001 n
  else s

/-! ### Discovery and routing (R346 to R350) -/

/-- Compare two digests as numbers with the first byte highest. -/
def digestLt (a b : List Byte) : Bool := leNat a.reverse < leNat b.reverse

/-- Store a peer's record with the tick of its refresh (R347). -/
def State.storeRec (s : State) (r : LinkRec) : State :=
  { s with net := { s.net with
      lsdb := insertBy (fun (a b : LinkRec × Nat) => a.1.origin < b.1.origin) (r, s.now) (s.net.lsdb.filter fun x => x.1.origin != r.origin)
      dirty := true } }

/-- R346, R347: a link-state record is stored and forwarded, or dropped. A record of this Molset's own ID is taken over if its digest is this
Molset's; otherwise the higher digest gives way, refuses the link and reports itself. -/
def execLinkStateRecord (port : Nat) (r : LinkRec) (s : State) : Res := live s fun s =>
  if !(port < 16 && s.portState port == 3) then s
  else if r.origin == s.node then
    if r.digest == s.blob 0xA00005 then
      if s.net.ownSeq ≤ r.seq then ({ s with net := { s.net with ownSeq := r.seq } }).flood else s
    else
      let s := s.bump 0xE0C01E 1
      if digestLt r.digest (s.blob 0xA00005) then
        let w := s.reg (0x800201 + port)
        (s.refusePort port (w % 4096) (field w 19 16) 5).raiseFault 8 s.node 0 0 0
      else s
  else
    match s.net.lsdb.find? fun x => x.1.origin == r.origin with
    | some (h, _) =>
      if h.digest != r.digest then
        let s := s.bump 0xE0C01E 1
        if digestLt r.digest h.digest then (s.storeRec r).floodRec r port else s
      else if h.seq < r.seq then (s.storeRec r).floodRec r port
      else s
    | none => (s.storeRec r).floodRec r port

/-- R347: this Molset floods its own record at the refresh interval. -/
def execLinkStateRefresh (s : State) : Res := live s fun s =>
  if s.net.ownTick + s.reg 0x802002 ≤ s.now then s.flood else s

/-- R347: a record not refreshed for four intervals is removed. -/
def execLinkStateExpiry (origin : Nat) (s : State) : Res := live s fun s =>
  let old (x : LinkRec × Nat) : Bool := x.1.origin == origin && x.2 + 4 * s.reg 0x802002 ≤ s.now
  if s.net.lsdb.any old then { s with net := { s.net with lsdb := s.net.lsdb.filter fun x => !old x, dirty := true } } else s

/-- Does an adjacency count: the other end reports it too (R348)? -/
def counted (rs : List LinkRec) (origin : Nat) (a : Nat × Nat × Nat) : Bool :=
  rs.any fun r => r.origin == a.2.2 && r.adj.contains (a.2.1, a.1, origin)

/-- The neighbours of a node over adjacencies that count. -/
def neighbours (rs : List LinkRec) (n : Nat) : List Nat :=
  (rs.filter (·.origin == n)).flatMap fun r => (r.adj.filter (counted rs n)).map fun a => a.2.2

/-- Shortest paths from this Molset: the nodes reached, with the ports of the shortest paths, ring by ring. -/
def pathsOf (rs : List LinkRec) : Nat → List (Nat × List Nat) → List (Nat × List Nat) → List (Nat × List Nat)
  | 0, done, ring => done ++ ring
  | n + 1, done, ring =>
    if ring.isEmpty then done else
    let done := done ++ ring
    let next := ring.foldl (fun acc (x : Nat × List Nat) =>
      (neighbours rs x.1).foldl (fun acc y =>
        if done.any (·.1 == y) then acc else put acc y (((lk acc y).getD [] ++ x.2).eraseDups)) acc) []
    pathsOf rs n done next

/-- The route table (R349): every reached node with its next-hop port. -/
def State.routes (s : State) : List (Nat × Nat) :=
  let own := s.ownRec
  let rs := own :: s.net.lsdb.map (·.1)
  let first := (own.adj.filter (counted rs own.origin)).foldl (fun acc (a : Nat × Nat × Nat) =>
    if a.2.2 == own.origin then acc else put acc a.2.2 ((lk acc a.2.2).getD [] ++ [a.1])) []
  let found := pathsOf rs rs.length [(own.origin, [])] first
  (found.filter (·.1 != own.origin)).map fun (x : Nat × List Nat) =>
    let ports := sortBy (· < ·) x.2
    (x.1, ports.getD (x.1 % ports.length) 0xFF)

/-- What the live set decides (R348, R379): the count of live nodes, the arbiter and the backup. -/
def State.liveRegs (s : State) : State :=
  let l := s.liveSet
  ((s.setReg 0x800008 l.length).setReg 0x900001 (l.headD s.node)).setReg 0x900002 (l.getD 1 0xFFFF)

/-- The tick reference passes a pending period change on to the Molsets that have joined its live set (R38). -/
def State.tellJoined (s : State) (was : List Nat) : State :=
  match s.time.change with
  | some c =>
    if s.reg 0x200101 != s.node then s else
    let new := s.liveSet.filter fun n => n != s.node && !was.contains n
    let c := { c with peers := (c.peers ++ new).eraseDups }
    { s with time := { s.time with change := some c } }.sendAll new 0x15 0 false (.period c.period c.switch)
  | none => s

/-- R349: the route table is recomputed after a change of the database. -/
def execRouteRecompute (s : State) : Res := live s fun s =>
  if !s.net.dirty then s else
  let was := s.liveSet
  let rs := s.routes
  let regs := s.regs.filter fun r => r.1 < 0x805000 || 0x806000 ≤ r.1
  let s := { s with regs := rs.foldl (fun acc (r : Nat × Nat) => put acc (0x805000 + r.1) r.2) regs, net := { s.net with dirty := false } }
  ((s.liveRegs).bump 0xE0C009 1).tellJoined was

/-! ### The composition map (R364 to R369) -/

/-- The 24 bytes of a map entry (R365). -/
def entryBytesMap (e : MapEntry) : List Byte :=
  leBytes 1 e.kind ++ leBytes 1 e.action ++ leBytes 2 e.tenant ++ leBytes 4 e.object ++ leBytes 4 e.shard ++ leBytes 2 e.a ++ leBytes 2 e.b ++
  leBytes 2 e.c ++ leBytes 1 e.value ++ leBytes 5 0

/-- The digest of a map (R365). -/
def mapDigest (m : List MapEntry) : W64 := crc64 (m.flatMap entryBytesMap)

/-- Set or remove one entry; the map stays in its canonical order (R365). -/
def applyEntry (m : List MapEntry) (e : MapEntry) : List MapEntry :=
  let rest := m.filter fun f => !entrySame e f
  if e.action == 1 then insertBy (fun a b => entrySortKey a < entrySortKey b) e rest else rest

/-- The map after a change. -/
def applyChange (m : List MapEntry) (es : List MapEntry) : List MapEntry := es.foldl applyEntry m

/-- The tray of a node in the map. -/
def trayOf (m : List MapEntry) (n : Nat) : Nat := match nodeEntry m n with | some e => e.object | none => 0

/-- Are the elements of a list all different? -/
def allDiff (l : List Nat) : Bool := l.eraseDups.length == l.length

/-- May a node hold a role of a tenant (R366, third rule)? -/
def holdsRole (m : List MapEntry) (t n : Nat) : Bool :=
  (nodeState m n == 1 || nodeState m n == 2) && (nodeRole m n == 1 || nodeRole m n == 3) && reaches m t n

/-- The first rule of R366 that a map breaks, from 1; 0 if it is valid. Only named nodes count (R389). -/
def mapFault (m : List MapEntry) : Nat :=
  let apart (e : MapEntry) : Bool := e.a == 0xFFFF || e.b == 0xFFFF || trayOf m e.a != trayOf m e.b
  if !(m.filter (·.kind == 4)).all (fun e => allDiff (entryNodes e) && apart e) then 1
  else if !(m.filter (·.kind == 6)).all apart then 2
  else if !(m.filter (3 ≤ ·.kind)).all (fun e => (entryNodes e).all (holdsRole m e.tenant)) then 3
  else if !allDiff ((m.filter (·.kind == 1)).map (·.a)) then 4
  else 0

/-- The record of a change as it is written to 0x8040:01 (R367). -/
def changeBytes (c : MapChange) : List Byte :=
  leBytes 4 c.epoch ++ leBytes 8 c.eff ++ leBytes 4 c.entries.length ++ leBytes 1 c.origin ++ leBytes 7 0 ++ leBytes 8 c.digest.toNat ++
  c.entries.flatMap entryBytesMap

/-- The registers that report the map (R376, R400). -/
def State.mapRegs (s : State) : State :=
  let m := s.map.entries
  let nodes := m.filter (·.kind == 1)
  let regs := s.regs.filter fun r => r.1 < 0x806000 || 0x807000 ≤ r.1
  let s := { s with regs := nodes.foldl (fun acc (e : MapEntry) => put acc (0x806000 + e.a) (e.value % 16 + e.object % 65536 * 65536)) regs }
  let s := (((s.setReg 0x800005 (nodeRole m s.node)).setReg 0x800006 (nodeState m s.node)).setReg 0x804007 (mapDigest m).toNat).setReg 0x804008 m.length
  let spares := nodes.filter fun e => e.value % 4 == 0 && e.value / 4 % 4 == 1
  let none_ := m.filter fun e => e.kind == 4 && e.a == 0xFFFF && e.b == 0xFFFF
  ((s.setReg 0x903003 spares.length).setReg 0x903005 none_.length).setBlob 0x804101 (m.flatMap entryBytesMap)

/-- Packets held for an epoch that is now applied are served (R372). -/
def State.releaseHeld (s : State) : State :=
  { s with net := { s.net with epochHeld := s.net.epochHeld.filter fun h => s.epoch < h.1.epoch } }

/-- The map of a new epoch takes effect here (R369); those that enter a tenant's service are sent its descriptors (R195). -/
def State.installMap (s : State) (m : List MapEntry) (epoch : Nat) : State :=
  let old := s.map.entries
  let s := { s with map := { s.map with entries := m, prev := old, applied := s.ftick } }
  (((s.setReg 0x800007 epoch).mapRegs).rerole.releaseHeld).serviceJoined old

/-- Take the next of the later changes, once its turn has come (R383). One whose tick had passed is stale (R25). -/
def State.promote (s : State) : State :=
  match s.map.later.find? fun c => c.epoch == s.epoch + 1 with
  | none => s
  | some c =>
    let s := { s with map := { s.map with later := s.map.later.filter fun d => s.epoch + 1 < d.epoch } }
    if c.eff < s.ftick then s.stale else ({ s with map := { s.map with pending := some c, own := false, need := [], acks := [] } }).setReg 0x804005 1

/-- The changes that name this tick, one after the other: the pending one, and those held behind it (R369, R383). A pending change whose tick was passed
over is stale (R25). -/
def State.mapLoop : Nat → State → State
  | 0, s => s
  | n + 1, s =>
    let s := if s.map.pending.isNone then s.promote else s
    match s.map.pending with
    | none => s
    | some c =>
      if s.ftick < c.eff then s else
      let s := { s with map := { s.map with pending := none, own := false, need := [], acks := [] } }.setReg 0x804005 0
      if c.eff == s.ftick then State.mapLoop n ((s.installMap (applyChange s.map.entries c.entries) c.epoch).bump 0xE0C016 1) else s.stale

/-- Step 3 of a tick (R22, R369). -/
def State.mapTick (s : State) : State := State.mapLoop (s.map.later.length + 2) s

/-- Cancel the pending change (R368): the state of 0x8040:05 is 3. -/
def State.cancelChange (s : State) : State :=
  (({ s with map := { s.map with pending := none, own := false, need := [], acks := [] } }).setReg 0x804005 3).bump 0xE0C017 1

/-- Why an operator change is refused (R366, R368), as a list position; 0 accepts it. -/
def State.changeFault (s : State) (c : MapChange) : Nat :=
  let f := mapFault (applyChange s.map.entries c.entries)
  if f != 0 then f
  else if !allDiff ((c.entries.filter fun e => e.kind == 1 && e.action == 1).map (·.a)) then 4
  else if c.epoch != s.epoch + 1 then 2
  else if c.eff < s.ftick + s.reg 0x804002 then 3
  else if s.map.pending.isSome then 4
  else 0

/-- A change becomes the pending one of this Molset, which issued it, and goes to every live Molset (R368, R383). -/
def State.issueChange (s : State) (c : MapChange) : State :=
  let need := s.liveSet.filter (· != s.node)
  let s := ({ s with map := { s.map with pending := some c, own := true, need, acks := [] } }).setReg 0x804005 1
  s.sendAll need 0x12 0 false (.mapChange c)

/-- A signed write of a map change takes effect (R368). -/
def State.writeChange (s : State) (c : MapChange) : State :=
  let c := { c with origin := 0 }
  let s := s.setBlob 0x804001 (changeBytes c)
  let f := s.changeFault c
  if f != 0 then ((s.setReg 0x804005 2).setReg 0x804006 f).bump 0xE0C017 1
  else (s.setReg 0x804006 0).issueChange c

/-- R368: an operator map change. -/
def execMapChange (c : MapChange) (s : State) : Res := live s fun s => s.writeChange c

/-- The message that withdraws a pending change: its epoch, no effective tick and no entries. -/
def withdrawal (c : MapChange) : MapChange := { epoch := c.epoch, eff := 0, origin := c.origin, digest := 0, entries := [] }

/-- Acknowledge a change (R368). -/
def State.ackChange (s : State) (src epoch : Nat) : State := if src == s.node then s else s.send src 0x13 0 (.mapAck epoch)

/-- A map change arrives (R25, R367, R368, R383): it is acknowledged and pending; a withdrawal cancels the pending one; a digest that does not come
out has the full map fetched. -/
def State.takeChange (s : State) (src : Nat) (c : MapChange) : State :=
  if c.eff == 0 && c.entries.isEmpty then
    match s.map.pending with
    | some p => if p.epoch == c.epoch && p.origin == c.origin then s.cancelChange else s
    | none => s
  else if c.epoch ≤ s.epoch then s.ackChange src c.epoch
  else if c.eff ≤ s.ftick then s.stale
  else
    let s := match s.map.pending with
      | some p => if p.origin == 0 && c.origin == 1 then
          let mine := s.map.own
          let others := s.map.need
          let s := s.cancelChange
          if mine then s.sendAll others 0x12 0 false (.mapChange (withdrawal p)) else s
        else s
      | none => s
    if s.epoch + 1 < c.epoch then
      let s := if s.map.later.any (·.epoch == c.epoch) then s else { s with map := { s.map with later := s.map.later ++ [c] } }
      s.ackChange src c.epoch
    else if s.map.pending.isSome then s.ackChange src c.epoch
    else if mapDigest (applyChange s.map.entries c.entries) != c.digest then
      (({ s with map := { s.map with fetching := true } }).bump 0xE0C01C 1).send src 0x12 0 .mapFetch
    else (({ s with map := { s.map with pending := some c, own := false, need := [], acks := [] } }).setReg 0x804005 1).ackChange src c.epoch

/-- R367: a map change arrives from a peer. -/
def execMapChangeReceive (src : Nat) (c : MapChange) (s : State) : Res := live s fun s => s.takeChange src c

/-- R367, R369: the full map arrives, which names no tick: this Molset holds the sender's epoch. -/
def execFullMapFetchDone (src : Nat) (c : MapChange) (s : State) : Res := live s fun s =>
  let m := applyChange [] c.entries
  if (s.map.fetching || s.epoch < c.epoch) && s.epoch ≤ c.epoch && mapDigest m == c.digest && s.alive src then
    ({ s with map := { s.map with fetching := false }, time := { s.time with joining := false } }).installMap m c.epoch
  else s

/-- R368: an acknowledgement of a change that this Molset issued. -/
def execMapAck (src epoch : Nat) (s : State) : Res := live s fun s =>
  match s.map.pending with
  | some c => if s.map.own && c.epoch == epoch && s.map.need.contains src && !s.map.acks.contains src then
      { s with map := { s.map with acks := s.map.acks ++ [src] } } else s
  | none => s

/-- R368: an acknowledgement of this Molset's operator change is missing at the margin: the change is cancelled everywhere. -/
def execMapAckTimeout (s : State) : Res := live s fun s =>
  match s.map.pending with
  | some c =>
    if s.map.own && c.origin == 0 && c.eff ≤ s.ftick + s.reg 0x804003 && s.map.need.any (fun n => !s.map.acks.contains n) then
      s.cancelChange.sendAll s.map.need 0x12 0 false (.mapChange (withdrawal c))
    else s
  | none => s

/-- R367, R369: a peer asks for the full map: it gets the map in effect, and the pending changes after it. -/
def execMapFetchRequest (src : Nat) (s : State) : Res := live s fun s =>
  if src == s.node || !s.alive src then s else
  let full : MapChange := { epoch := s.epoch, eff := 0, origin := 0, digest := mapDigest s.map.entries, entries := s.map.entries }
  let s := s.send src 0x12 0 (.mapChange full)
  (s.map.pending.toList ++ s.map.later).foldl (fun s c => s.send src 0x12 0 (.mapChange c)) s

/-! ### Transport (R352 to R355, R371 to R374) -/

/-- An own packet is sent once more: its next hop is checked again (R350), and it enters its egress queue as a new request, unless it still waits
there (R415). -/
def State.again (s : State) (x : Sent) : State :=
  let s := s.bumpIf (x.dst != s.node && !s.usable x.dst) 0xE0C00B
  if s.net.egress.any fun e => e.src == s.node && e.dst == x.dst && e.cls == x.cls && e.seq == x.seq then s else
  { s with net := { s.net with egress := s.net.egress ++ s.egressOf x } }

/-- A packet of the unacknowledged ones, by destination, class and sequence. -/
def State.sentOf (s : State) (dst cls seq : Nat) : Option Sent := s.net.unacked.find? fun x => x.dst == dst && x.cls == cls && x.seq == seq

/-- Drop an unacknowledged packet, and its wait for the port. -/
def State.dropSent (s : State) (dst cls seq : Nat) : State :=
  { s with net := { s.net with
      unacked := s.net.unacked.filter fun x => !(x.dst == dst && x.cls == cls && x.seq == seq)
      egress := s.net.egress.filter fun e => !(e.src == s.node && e.dst == dst && e.cls == cls && e.seq == seq) } }

/-- The holder, under the current map, of the role that a role-routed message goes to (R371); none if the map names none or the message goes to
every holder of a role. -/
def State.routeOf (s : State) (m : Msg) : Option Nat :=
  let seqr (t i : Nat) : Option Nat := ((idxService s.map.entries t i).map (·.a)).filter (· != 0xFFFF)
  match m with
  | .dispatch d => (idxShard s.map.entries d.par.tenant d.par.index d.shard).bind s.serveCopy
  | .update u => seqr u.tenant u.index
  | .build b => seqr b.tenant b.index
  | .deltaAck t i _ => seqr t i
  | .staged t i _ => seqr t i
  | .publishAck t i _ _ => seqr t i
  | .logFetch t i _ _ => seqr t i
  | .rowRead _ t n row skein => (s.tabAny t n).bind fun x => s.homeOf x (versionAt x skein) row
  | .contrib r _ => (s.tabAny r.tenant r.table).bind fun x => s.homeOf x x.live r.row
  | .summary m => s.coordOf m.tenant m.table
  | .held t n _ _ => s.coordOf t n
  | .ready t n _ _ => s.coordOf t n
  | .load t n _ _ => s.coordOf t n
  | _ => none

/-- A query's home notes the copy that serves a shard from now on (R157, R159). -/
def State.copyMoved (s : State) (m : Msg) (dst : Nat) : State :=
  match m with
  | .dispatch d =>
    let upd (h : HomeQ) : HomeQ := { h with copies := h.copies.map fun (c : Nat × Nat) => if c.1 == d.shard then (c.1, dst) else c }
    { s with home := updIf (fun h => h.name == d.name) upd s.home }
  | _ => s

/-- Work whose holder this Molset has become is taken here without a packet (R371); none for messages that no role's holder takes so. -/
def State.takeOwn (s : State) (m : Msg) : Option State :=
  match m with
  | .dispatch d => some ((s.bump 0xE05007 1).acceptDispatch { d with epoch := s.epoch })
  | .update u => some (s.sequence u)
  | .build b => some (s.receiveBuild b)
  | .contrib r f => (s.tabAny r.tenant r.table).map fun x => s.takeRecord x r f 0
  | .summary m => some (s.takeSummary m)
  | _ => none

/-- The packet leaves its old destination and sequence for a new one, under the current epoch (R355, R374). -/
def State.resendTo (s : State) (x : Sent) (dst : Nat) : State :=
  let seq := ((s.net.tx.find? fun p => p.1 == (dst, x.cls)).map (·.2)).getD 1
  let s := (s.dropSent x.dst x.cls x.seq).copyMoved x.msg dst
  match (if dst == s.node && x.role then s.takeOwn x.msg else none) with
  | some s => s
  | none =>
  let s := s.sendAt dst x.kind x.tenant s.epoch x.role x.msg
  let moved (o : OpenOp) : Bool := match x.msg with | .memOp _ => o.op.dst == x.dst && o.seq == x.seq | _ => false
  { s with net := { s.net with
      unacked := updIf (fun y => y.dst == dst && y.cls == x.cls && y.seq == seq) (fun y => { y with bounces := x.bounces }) s.net.unacked
      ops := updIf moved (fun o => { o with op := { o.op with dst }, seq }) s.net.ops } }

/-- A destination is declared failed (R355): its role-routed packets are routed again under the current map, the others discarded. -/
def State.failDest (s : State) (n : Nat) : State :=
  (s.net.unacked.filter (·.dst == n)).foldl (fun s x =>
    match x.msg with
    | .memOp _ => s
    | m =>
      match (if x.role then s.routeOf m else none) with
      | some d => if d == n then s.dropSent x.dst x.cls x.seq else s.resendTo x d
      | none => s.dropSent x.dst x.cls x.seq) s

/-- Send a bounce (R374). -/
def State.bounceOut (s : State) (p : Packet) (reason : Nat) : State :=
  let b : Bounce := { src := s.node, cls := p.cls, reason, epoch := s.epoch, tag := p.tag, seq := p.seq, redirect := 0xFFFF }
  (s.bump 0xE0C018 1).send p.src 7 p.tenant (.bounce b)

/-- Hand a packet to its engine (R372, R395): by its epoch it is served, bounced as stale, or held; a request whose name this owner has served
within the replay retention is discarded. -/
def State.deliver (s : State) (p : Packet) (name : Option (Nat × Nat)) : State :=
  let e := s.epoch
  if p.roleRouted && (p.epoch + 1 < e || (p.epoch + 1 == e && s.map.applied + s.reg 0x804009 ≤ s.ftick)) then s.bounceOut p 1
  else if p.roleRouted && e < p.epoch then { s with net := { s.net with epochHeld := s.net.epochHeld ++ [(p, s.ftick)] } }
  else
    match name with
    | none => s
    | some n =>
      if s.fault.served.any (fun x => x.1 == n && s.ftick ≤ x.2 + s.reg 0x90000B) then s.bump 0xE0D010 1
      else { s with fault := { s.fault with served := s.fault.served.filter (fun x => x.1 != n) ++ [(n, s.ftick)] } }

/-- The highest sequence delivered of a source and class. -/
def State.rxTop (s : State) (src cls : Nat) : Nat := ((s.net.rx.find? fun r => r.1 == (src, cls)).map (·.2)).getD 0

/-- Deliver the packets of a source and class that are next in sequence, from the held ones (R354). -/
def deliverHeld (src cls : Nat) : Nat → State → State
  | 0, s => s
  | n + 1, s =>
    let next := s.rxTop src cls + 1
    match s.net.rxHeld.find? fun p => p.src == src && p.cls == cls && p.seq == next with
    | none => s
    | some p =>
      let s := { s with net := { s.net with
        rxHeld := s.net.rxHeld.filter fun q => !(q.src == src && q.cls == cls && q.seq == next)
        rx := ((src, cls), next) :: s.net.rx.filter fun r => r.1 != (src, cls) } }
      deliverHeld src cls n (s.deliver p none)

/-- The peer acknowledges what it has received in order in a class (R352). Memory operations stay until they complete (R355). -/
def State.takeAck (s : State) (src cls ack : Nat) : State :=
  let gone (x : Sent) : Bool := x.dst == src && x.cls == cls && x.seq ≤ ack && (match x.msg with | .memOp _ => false | _ => true)
  { s with net := { s.net with unacked := s.net.unacked.filter fun x => !gone x } }.sentOut fun e => e.dst == src && e.cls == cls && e.seq ≤ ack

/-- An acknowledgement is owed for a packet (R354). -/
def State.oweAck (s : State) (src cls : Nat) : State :=
  { s with net := { s.net with owed := if s.net.owed.contains (src, cls) then s.net.owed else s.net.owed ++ [(src, cls)] } }

/-- A packet for this Molset arrives (R354). -/
def State.receive (s : State) (p : Packet) (name : Option (Nat × Nat)) : State :=
  let s := s.takeAck p.src p.cls p.ack
  if p.kind == 8 then s else
  let s := s.oweAck p.src p.cls
  let top := s.rxTop p.src p.cls
  let mine (q : Packet) : Bool := q.src == p.src && q.cls == p.cls
  if p.seq ≤ top || s.net.rxHeld.any (fun q => mine q && q.seq == p.seq) then s.bump 0xE0C00D 1
  else if p.seq == top + 1 then
    let s := { s with net := { s.net with rx := ((p.src, p.cls), p.seq) :: s.net.rx.filter fun r => r.1 != (p.src, p.cls) } }
    deliverHeld p.src p.cls s.net.rxHeld.length (s.deliver p name)
  else if (s.net.rxHeld.filter mine).length < s.reg 0x803005 then { s with net := { s.net with rxHeld := s.net.rxHeld ++ [p] } }
  else s

/-- Forward a packet of other Molsets (R350): it waits for its port, in the queue of its tenant. Its header names no class of work: it counts as latency
class (entry 53). -/
def State.forward (s : State) (p : Packet) : State :=
  if s.reg 0x802001 ≤ p.hops + 1 then s.bump 0xE0C00A 1
  else if !s.usable p.dst then s.bump 0xE0C00B 1
  else
    let port := s.reg (0x805000 + p.dst)
    let e : Egress :=
      { port, tenant := if p.system then systemTenant else p.tenant, bulk := false, flits := cdiv (32 + p.len) 232, since := s.ns
        src := p.src, dst := p.dst, cls := p.cls, seq := p.seq, hops := p.hops + 1 }
    { s with net := { s.net with
        forwarded := s.net.forwarded ++ [(port, { p with hops := p.hops + 1 })]
        egress := s.net.egress ++ [e] } }

/-- R350, R354: a transport packet arrives: it is forwarded, or delivered in sequence order. -/
def execPacket (p : Packet) (name : Option (Nat × Nat)) (s : State) : Res := live s fun s =>
  if p.dst == s.node then s.receive p name else s.forward p

/-- R354: nothing has travelled back within the ack delay: an ack-only packet is sent. -/
def execAckDelay (src cls : Nat) (s : State) : Res := live s fun s =>
  if s.net.owed.contains (src, cls) then
    let e : List Egress := if src == s.node || !s.usable src then [] else
      [{ port := s.reg (0x805000 + src), tenant := 0, bulk := false, flits := 1, since := s.ns, src := s.node, dst := src, cls := 0, seq := 0 }]
    let s := { s with net := { s.net with
      owed := s.net.owed.filter fun o => o != (src, cls)
      ackOnly := s.net.ackOnly ++ [(src, cls, s.rxTop src cls)]
      egress := s.net.egress ++ e } }
    s.bumpIf (src != s.node && !s.usable src) 0xE0C00B
  else s

/-! ### Memory operations at their issuer (R359 to R363) -/

/-- An operation completes at its issuer: a status from 1 to 7 gives all ones, poisoned (R362). -/
def State.opDone (s : State) (op : MemOp) (status : Nat) (data : List Byte) : State :=
  let d : DoneOp := { tag := op.tag, status, poison := status != 0, data := if status == 0 then data else List.replicate op.size 0xFF#8 }
  { s with net := { s.net with doneOps := s.net.doneOps ++ [d] } }

/-- An open operation completes: it is resent no more (R363). -/
def State.closeOp (s : State) (o : OpenOp) (status : Nat) (data : List Byte) : State :=
  let s := s.dropSent o.op.dst 2 o.seq
  ({ s with net := { s.net with ops := s.net.ops.filter fun x => x.op.tag != o.op.tag } }).opDone o.op status data

/-- The destination is unreachable (R362): status 7, counted and reported. -/
def State.opUnreachable (s : State) (o : OpenOp) : State :=
  ((s.closeOp o 7 []).bump 0xE0C012 1).raiseFault 5 o.op.dst 0 0 0

/-- The target is dead (R362): status 5, counted and reported. -/
def State.opDead (s : State) (o : OpenOp) : State := ((s.closeOp o 5 []).bump 0xE0C011 1).raiseFault 5 o.op.dst 0 0 0

/-- Are the size, the alignment, the operation and the type valid (R356, R357)? -/
def opValid (op : MemOp) : Bool :=
  let n := op.data.length
  let aligned := op.addr % op.size == 0 && op.addr + op.size ≤ 2 ^ 48
  match op.op with
  | 0 => [8, 16, 32, 64].contains op.size && aligned && op.ty == 0 && n == 0
  | 8 => [8, 16, 32, 64].contains op.size && aligned && op.ty == 0 && n == op.size
  | 1 => op.size == 8 && aligned && op.ty == 0 && n == 8
  | 2 => (op.size == 8 || op.size == 16) && aligned && op.ty == 0 && n == 2 * op.size
  | 3 => (op.size == 8 && op.ty ≤ 1 || op.size == 16 && op.ty == 2) && aligned && n == op.size
  | 4 => (op.size == 8 && op.ty ≤ 1 || op.size == 16 && op.ty == 2) && aligned && n == op.size
  | _ => false

/-- May an operation leave (R360): the tenant is that of the work, the system bit is an engine's, the tenant is in service on the destination, and the
operation is valid? The live set is tested apart (R362). -/
def State.opAllowed (s : State) (work : Nat) (engine : Bool) (op : MemOp) : Bool :=
  (if op.system then engine && op.tenant == 0 else op.tenant == work && s.counts op.tenant op.dst) && op.dst < 4096 && opValid op

/-- The packet kind of an operation's request (R353). -/
def opKind (op : Nat) : Nat := if op == 0 then 1 else if op == 8 then 3 else 5

/-- R360, R362: an engine issues a memory operation. One that fails a check completes at once with status 4, one to an unreachable destination with
status 7. -/
def execMemoryOpIssue (work : Nat) (engine role : Bool) (op : MemOp) (s : State) : Res := live s fun s =>
  let op := { op with src := s.node }
  if s.net.ops.any (fun o => o.op.tag == op.tag) then s else
  let s := s.bump 0xE0C00E 1
  if !s.opAllowed work engine op then
    ((s.bumpIf (!op.system && op.tenant == work && s.bindingDiffers op.tenant op.dst) 0xE1000F).bump 0xE0C010 1).opDone op 4 []
  else if !s.alive op.dst then s.opUnreachable { op, seq := 0 }
  else
    let seq := ((s.net.tx.find? fun p => p.1 == (op.dst, 2)).map (·.2)).getD 1
    let s := s.sendAt op.dst (opKind op.op) op.tenant s.epoch role (.memOp op)
    { s with net := { s.net with ops := s.net.ops ++ [{ op, seq }] } }

/-- A memory operation reaches this Molset (R361, R471): a tenant whose binding here is not the map's is not in service. -/
def State.opArrive (s : State) (op : MemOp) (bad badAgain : Bool) : State :=
  if op.dst != s.node then s
  else if !op.system && s.bindingDiffers op.tenant s.node then (s.bump 0xE1000F 1).memAnswer op 3 []
  else s.memArrive op bad badAgain

/-- R356: a load. -/
def execLoad (op : MemOp) (bad badAgain : Bool) (s : State) : Res := live s fun s => if op.op == 0 then s.opArrive op bad badAgain else s

/-- R356: a store. -/
def execStore (op : MemOp) (s : State) : Res := live s fun s => if op.op == 8 then s.opArrive op false false else s

/-- R357: fetch-add. -/
def execFetchAdd (op : MemOp) (s : State) : Res := live s fun s => if op.op == 1 then s.opArrive op false false else s

/-- R357: compare-swap. -/
def execCompareSwap (op : MemOp) (s : State) : Res := live s fun s => if op.op == 2 then s.opArrive op false false else s

/-- R357: min. -/
def execAtomicMin (op : MemOp) (s : State) : Res := live s fun s => if op.op == 3 then s.opArrive op false false else s

/-- R357: max. -/
def execAtomicMax (op : MemOp) (s : State) : Res := live s fun s => if op.op == 4 then s.opArrive op false false else s

/-- A response arrives: its operation completes, or the response is discarded (R361, R363). -/
def State.takeResponse (s : State) (src tag status : Nat) (data : List Byte) (mine : Nat → Bool) : State :=
  match s.net.ops.find? fun o => o.op.tag == tag && o.op.dst == src && mine o.op.op with
  | some o => s.closeOp o status data
  | none => s.bump 0xE0C014 1

/-- R361: a load response. -/
def execLoadResponse (src tag status : Nat) (data : List Byte) (s : State) : Res := live s fun s => s.takeResponse src tag status data (· == 0)

/-- R361: a store-done response. -/
def execStoreDone (src tag status : Nat) (s : State) : Res := live s fun s => s.takeResponse src tag status [] (· == 8)

/-- R361: an atomic response. -/
def execAtomicResponse (src tag status : Nat) (data : List Byte) (s : State) : Res := live s fun s =>
  s.takeResponse src tag status data fun op => 1 ≤ op && op ≤ 4

/-- R362: no response within the timeout. -/
def execDeadTarget (dst tag : Nat) (s : State) : Res := live s fun s =>
  match s.net.ops.find? fun o => o.op.tag == tag && o.op.dst == dst with
  | some o => s.opDead o
  | none => s

/-- The open operation of an unacknowledged packet. -/
def State.opOf (s : State) (x : Sent) : Option OpenOp :=
  match x.msg with
  | .memOp _ => s.net.ops.find? fun o => o.op.dst == x.dst && o.seq == x.seq
  | _ => none

/-- R355, R362: the resend interval of a packet expires. A memory operation keeps its interval, and completes with status 7 if the route is gone. -/
def execResend (dst cls seq : Nat) (s : State) : Res := live s fun s =>
  match s.sentOf dst cls seq with
  | none => s
  | some x =>
    match s.opOf x with
    | some o => if !s.alive dst then s.opUnreachable o else (s.bump 0xE0C00C 1).again x
    | none =>
      let upd (y : Sent) : Sent := { y with interval := min (2 * y.interval) (s.reg 0x803003) }
      let s := { s with net := { s.net with unacked := updIf (fun y => y.dst == dst && y.cls == cls && y.seq == seq) upd s.net.unacked } }
      (s.bump 0xE0C00C 1).again x

/-- Route a bounced packet again under the current map (R374). -/
def State.reroute (s : State) (x : Sent) : State := (s.resendTo x ((s.routeOf x.msg).getD x.dst)).bump 0xE0C019 1

/-- Put a packet on the list of those sent again after the next tick (R374). -/
def State.afterTick (s : State) (x : Sent) : State :=
  { s with net := { s.net with resendNext := s.net.resendNext.filter (· != (x.dst, x.cls, x.seq)) ++ [(x.dst, x.cls, x.seq)] } }

/-- R374: a bounce: stale and moved packets are routed again, one bounced as behind is sent again after the next tick. At the bounce limit the
destination is reported; a memory operation then completes with status 5, any other packet is routed again once per tick. -/
def execBounce (b : Bounce) (s : State) : Res := live s fun s =>
  match s.sentOf b.src b.cls b.seq with
  | none => s
  | some x =>
    let x := { x with bounces := x.bounces + 1 }
    let s := { s with net := { s.net with unacked := updIf (fun y => y.dst == x.dst && y.cls == x.cls && y.seq == x.seq) (fun _ => x) s.net.unacked } }
    if s.reg 0x804004 ≤ x.bounces then
      let s := s.bump 0xE0C01B 1
      match s.opOf x with
      | some o => s.opDead o
      | none => (s.raiseFault 5 x.dst 0 0 0).afterTick x
    else if b.reason == 2 then s.afterTick x
    else if b.reason == 3 && b.redirect != 0xFFFF then (s.resendTo x b.redirect).bump 0xE0C019 1
    else s.reroute x

/-- Packets that were to be sent again after a tick (R374). -/
def State.netTick (s : State) : State :=
  let l := s.net.resendNext
  let s := { s with net := { s.net with resendNext := [] }, ports := s.ports.map fun (p : Nat × Port) => (p.1, { p.2 with retries := 0 }) }
  l.foldl (fun s k =>
    match s.sentOf k.1 k.2.1 k.2.2 with
    | none => s
    | some x =>
      if s.reg 0x804004 ≤ x.bounces then
        let seq := ((s.net.tx.find? fun p => p.1 == ((s.routeOf x.msg).getD x.dst, x.cls)).map (·.2)).getD 1
        let d := (s.routeOf x.msg).getD x.dst
        (s.reroute x).afterTick { x with dst := d, seq }
      else (s.bump 0xE0C00C 1).again x) s

/-- R372: a packet held for a later epoch that was not applied by the end of the frame after its arrival is bounced as behind. -/
def execBehindHoldExpiry (src cls seq : Nat) (s : State) : Res := live s fun s =>
  match s.net.epochHeld.find? fun h => h.1.src == src && h.1.cls == cls && h.1.seq == seq && s.epoch < h.1.epoch && h.2 + 2 ≤ s.ftick with
  | none => s
  | some h =>
    let s := { s with net := { s.net with epochHeld := s.net.epochHeld.filter (· != h) } }
    (s.bump 0xE0C01A 1).bounceOut h.1 2

end Sys2Proof.Machine
end

