-- ==== Sys2Proof/Machine/Fault.lean ====
section
/-! DEFINITION. Faults, spares and shard recovery (R378 to R401): cases and decisions, part scores, draining, respare and restore, owner tags and
replay, and the fatal fault. -/

namespace Sys2Proof.Machine

/-! ### Fatal faults (R397, R398, R432) -/

/-- A fatal fault: every outstanding host request completes poisoned, the link is held in its error state, fabric transmitters stop, one report goes out
on the management network, and the power state is holding, or thermal hold after a thermal trip (R398, R432, R515, R522). It starts no sequence while one
of equal or higher rank runs (R523). -/
def State.fatal (s : State) (cause : Nat) : State :=
  let rank := if cause == 9 then 3 else 4
  if s.pwr.seqRank != 0 && s.pwr.seqRank ≤ rank then s.bump 0xE1200B 1 else
  let s := s.bump 0xE0D012 1
  let s := s.link.outstanding.foldl (fun s r => s.hostAnswer r.m r.tag (if r.op == 1 then 2 else 4) 3 (List.replicate r.data.length 0xFF#8)) s
  let active := (List.range 4).filter fun m => s.reg (0xC00101 + m) ≤ 1
  let errs : List HReq := active.map fun m => { m, tag := 0, op := 5, status := 0, data := [] }
  let s := if s.link.error then s else s.bump 0xE0F012 1
  let s := active.foldl (fun s m => s.hostFlits m 0) s
  let s := { s with
    link := { s.link with error := true, toHost := s.link.toHost ++ errs }
    pwr := { s.pwr with txStopped := true, source := cause, seqRank := rank } }
  let s := (s.setReg 0xC00003 3).setReg 0xD00001 (if cause == 9 then 6 else 4)
  s.mgmtCopy {
    subtype := 1, code := 10, sender := s.node, case := 0, s := s.ftick, node := s.node, partKind := 0, partNo := 0, verdict := 0, reference := 0,
    epoch := 0, d := 0, detail := 0 }

/-- R398: a fatal fault of the causes of R397. -/
def execFatalFault (cause : Nat) (s : State) : Res :=
  always s fun s => if 7 ≤ cause && cause ≤ 9 && 1 ≤ s.reg 0xD00001 && s.reg 0xD00001 ≤ 4 then s.fatal cause else s

/-! ### Successors (R389) -/

/-- A plan in the making: the map so far, the entries of the change, the spares that replace a lost node, roles left vacant, respares. -/
structure Plan where
  m : List MapEntry
  entries : List MapEntry := []
  taken : List (Nat × Nat) := []
  vacant : Nat := 0
  respares : List Respare := []
  deriving DecidableEq, Repr

/-- Add an entry to a plan. -/
def Plan.add (p : Plan) (e : MapEntry) : Plan := { p with m := applyEntry p.m e, entries := p.entries ++ [e] }

/-- The entry of a node with a role and a state. -/
def nodeSet (m : List MapEntry) (n role st : Nat) : MapEntry where
  kind := 1
  action := 1
  tenant := 0
  object := trayOf m n
  shard := 0
  a := n
  b := 0xFFFF
  c := 0xFFFF
  value := role + 4 * st

/-- Does one entry keep R366? -/
def entryOk (m : List MapEntry) (e : MapEntry) : Bool :=
  let apart := e.a == 0xFFFF || e.b == 0xFFFF || trayOf m e.a != trayOf m e.b
  (if e.kind == 4 then allDiff (entryNodes e) && apart else if e.kind == 6 then apart else true) && (entryNodes e).all (holdsRole m e.tenant)

/-- Replace a lost node in a role (R389): a spare that already replaces it, or the lowest spare in service, that keeps R366 in the entry that `mk` gives
for it. The spare takes the role of the node it replaces. None: the role stays vacant. -/
def Plan.pick (p : Plan) (old : List MapEntry) (lost : Nat → Bool) (l : Nat) (mk : Nat → MapEntry) : Plan × Option Nat :=
  let mine := (p.taken.filter (·.1 == l)).map (·.2)
  let spares := ((p.m.filter fun e => e.kind == 1 && e.value % 4 == 0 && e.value / 4 % 4 == 1 && !lost e.a).map (·.a))
  let role := nodeRole old l
  let withRole (n : Nat) : List MapEntry := applyEntry p.m (nodeSet p.m n role 1)
  let own (e : MapEntry) (n : Nat) : MapEntry := { e with
    a := if lost e.a && e.a != n then 0xFFFF else e.a, b := if lost e.b && e.b != n then 0xFFFF else e.b, c := if lost e.c && e.c != n then 0xFFFF else e.c }
  match (mine ++ spares).find? fun n => entryOk (withRole n) (own (mk n) n) with
  | none => ({ p with vacant := p.vacant + 1 }, none)
  | some n => if mine.contains n then (p, some n) else ({ (p.add (nodeSet p.m n role 1)) with taken := p.taken ++ [(l, n)] }, some n)

/-- A node number, or 0xFFFF for none. -/
def orNone (n : Option Nat) : Nat := n.getD 0xFFFF

/-- Pass the roles of one entry on (R389). `gone` nodes have failed; `drained` ones keep their copies until a spare holds the shard (R388). -/
def Plan.passOn (p : Plan) (old : List MapEntry) (gone drained : Nat → Bool) (held : List Respare) (e : MapEntry) : Plan :=
  let lost (n : Nat) : Bool := n != 0xFFFF && (gone n || drained n)
  match e.kind with
  | 3 =>
    if !(entryNodes e).any lost then p else
    let live := (entryNodes e).filter fun n => !lost n
    let seqr := if lost e.a || e.a == 0xFFFF then live.headD 0xFFFF else e.a
    let logs := live.filter (· != seqr)
    let dead := (entryNodes e).filter lost
    let step (st : Plan × List Nat) (l : Nat) : Plan × List Nat :=
      if 2 ≤ st.2.length then st else
      let (q, n) := st.1.pick old lost l fun n => { e with a := seqr, b := (st.2 ++ [n]).getD 0 0xFFFF, c := (st.2 ++ [n]).getD 1 0xFFFF }
      (q, st.2 ++ n.toList)
    let (p, logs) := dead.foldl step (p, logs)
    let (p, seqr) := if seqr != 0xFFFF then (p, seqr) else
      let (q, n) := p.pick old lost (dead.headD 0xFFFF) fun n => { e with a := n, b := logs.getD 0 0xFFFF, c := logs.getD 1 0xFFFF }
      (q, orNone n)
    p.add { e with a := seqr, b := logs.getD 0 0xFFFF, c := logs.getD 1 0xFFFF }
  | 4 =>
    let (p, e) := if lost e.c then
        let (q, n) := p.pick old lost e.c fun n => { e with c := n }
        let f := { e with c := orNone n }
        (q.add f, f)
      else (p, e)
    let deadCopy := (entryCopies e).filter lost
    let before := held.find? fun r => r.tenant == e.tenant && r.index == e.object && r.shard == e.shard
    let lostTarget := match before with | some r => gone r.y | none => false
    if deadCopy.isEmpty && !lostTarget then p else
    let live := (entryCopies e).filter fun n => !gone n
    let source := (live.filter fun n => !drained n) ++ live.filter drained
    let a := source.headD 0xFFFF
    let f : MapEntry := if deadCopy.any gone then { e with a, b := (source.drop 1).headD 0xFFFF } else e
    let p := if f == e then p else p.add f
    match before with
    | some r =>
      if !gone r.y then
        if gone r.z then { p with respares := p.respares ++ [{ r with z := a, staged := false, restore := a == 0xFFFF, x := none }] } else p
      else
        let (p, n) := p.pick old lost r.y fun n => { f with a := if a == 0xFFFF then n else a, b := if a == 0xFFFF then 0xFFFF else n }
        match n with
        | some y => { p with respares := p.respares ++ [{ r with z := a, y, staged := false, restore := a == 0xFFFF, x := none }] }
        | none => p
    | none =>
      let (p, n) := p.pick old lost (deadCopy.headD 0xFFFF) fun n => { f with a := if a == 0xFFFF then n else a, b := if a == 0xFFFF then 0xFFFF else n }
      match n with
      | some y =>
        let r : Respare := { tenant := e.tenant, index := e.object, shard := e.shard, z := a, y, staged := false, restore := a == 0xFFFF, x := none }
        { p with respares := p.respares ++ [r] }
      | none => p
  | 5 =>
    if !lost e.a then p else
    let (p, n) := p.pick old lost e.a fun n => { e with a := n }
    p.add { e with a := orNone n }
  | 6 =>
    if !lost e.a && !lost e.b then p else
    let home := if lost e.a then (if lost e.b then 0xFFFF else e.b) else e.a
    let dead := if lost e.a then e.a else e.b
    let (p, n) := p.pick old lost dead fun n => { e with a := if home == 0xFFFF then n else home, b := if home == 0xFFFF then 0xFFFF else n }
    p.add { e with a := home, b := if home == 0xFFFF then 0xFFFF else orNone n }
  | _ => p

/-- What a set of decisions changes in the map (R384, R388, R389): failed nodes become absent, the nodes of drained trays draining, and every role
passes on. It depends on the map and the decisions alone, so every Molset finds the same plan. -/
def planOf (old : List MapEntry) (failed trays : List Nat) (held : List Respare) : Plan :=
  let gone (n : Nat) : Bool := failed.contains n
  let drained (n : Nat) : Bool := n != 0xFFFF && !gone n && (nodeEntry old n).isSome && trays.contains (trayOf old n)
  let nodes := old.filter fun e => e.kind == 1 && (gone e.a || drained e.a)
  let p := nodes.foldl (fun (p : Plan) (e : MapEntry) => p.add (nodeSet old e.a (e.value % 4) (if gone e.a then 0 else 2))) ({ m := old } : Plan)
  (old.filter (3 ≤ ·.kind)).foldl (fun (p : Plan) e => p.passOn old gone drained held e) p

/-! ### Cases (R379 to R383) -/

/-- The held case of a number, in a role. -/
def State.caseOf (s : State) (num : Nat) (p : Case → Bool) : Option Case := s.fault.cases.find? fun c => c.num == num && p c

/-- Store a case. -/
def State.setCase (s : State) (c : Case) : State :=
  { s with fault := { s.fault with cases := updIf (fun x => x.num == c.num && (x.role == 2) == (c.role == 2)) (fun _ => c) s.fault.cases } }

/-- 0x9000:03: open cases held as arbiter. -/
def State.caseRegs (s : State) : State := s.setReg 0x900003 (s.fault.cases.filter fun c => c.role == 0 && 1 ≤ c.st && c.st < 3).length

/-- Does a fault code need evidence (R378)? -/
def evidence (code : Nat) : Bool := code == 3 || code == 4 || code == 5

/-- The tick at which a case decides (R381, R382). -/
def decideTick (c : Case) : Nat := if !evidence c.code && c.rank == 0 then c.s + 1 else c.s + 5 + 4 * c.rank

/-- The tick D that its decision names. -/
def effectTick (c : Case) : Nat := if !evidence c.code && c.rank == 0 then c.s + 4 else c.s + 8 + 4 * c.rank

/-- The tick at which votes are due. -/
def votesTick (c : Case) : Nat := c.s + 4 + 4 * c.rank

/-- A message of a case. -/
def State.caseMsg (s : State) (c : Case) (subtype verdict : Nat) : FaultMsg where
  subtype := subtype
  code := c.code
  sender := s.node
  case := c.num
  s := c.s
  node := c.node
  partKind := c.partKind
  partNo := c.partNo
  verdict := verdict
  reference := 0
  epoch := 0
  d := 0
  detail := 0

/-- The peers adjacent to a node. -/
def State.adjacent (s : State) (n : Nat) : List Nat :=
  if n == s.node then s.ownAdj.map fun a => a.2.2 else
  ((s.net.lsdb.filter fun r => r.1.origin == n).flatMap fun r => r.1.adj.map fun a => a.2.2) ++
  ((s.net.lsdb.filter fun r => r.1.adj.any fun a => a.2.2 == n).map fun r => r.1.origin) ++
  (if s.ownAdj.any fun a => a.2.2 == n then [s.node] else [])

/-- The two ends of a link that is suspect: its subject, and the peer at the subject's port, where a record still tells it. -/
def State.linkEnds (s : State) (n port : Nat) : List Nat :=
  let own := if n == s.node then (s.ownAdj.filter (·.1 == port)).map fun a => a.2.2 else []
  let rec1 := (s.net.lsdb.filter fun r => r.1.origin == n).flatMap fun r => (r.1.adj.filter fun a => a.1 == port).map fun a => a.2.2
  let rec2 := (s.net.lsdb.filter fun r => r.1.adj.any fun a => a.2.1 == port && a.2.2 == n).map fun r => r.1.origin
  ([n] ++ (own ++ rec1 ++ rec2).take 1).eraseDups

/-- The witnesses of a case (R381): the subject's adjacent peers off its tray, up to three, lowest first; the lowest live nodes fill the gaps. -/
def State.witnesses (s : State) (c : Case) : List Nat :=
  if c.code == 4 then s.linkEnds c.node c.partNo else
  let tray (n : Nat) : Nat := match s.net.lsdb.find? fun r => r.1.origin == n with
    | some r => r.1.tray
    | none => if n == s.node then s.reg 0x800003 else trayOf s.map.entries n
  let near := (sortBy (· < ·) (((s.adjacent c.node).eraseDups).filter fun n => n != c.node && tray n != tray c.node)).take 3
  near ++ ((s.liveSet.filter fun n => n != c.node && !near.contains n).take (3 - near.length))

/-- A Molset becomes witness of a case. -/
def State.beWitness (s : State) (m : FaultMsg) : State :=
  if (s.caseOf m.case fun c => c.role == 2).isSome then s else
  let c : Case := {
    num := m.case, code := m.code, s := m.s, node := m.node, partKind := m.partKind, partNo := m.partNo, role := 2, st := 1, start := s.ftick }
  { s with fault := { s.fault with cases := s.fault.cases ++ [c] } }

/-- Open a case (R381): it is counted; one that needs evidence names its witnesses, asks them to probe and probes the subject over the management network;
one that needs none can be decided. -/
def State.openCase (s : State) (c : Case) : State :=
  let s := s.bump 0xE0D001 1
  if !evidence c.code then (s.setCase { c with role := 0, st := 2, start := s.ftick }).caseRegs else
  let w := s.witnesses c
  let c := { c with role := 0, st := 1, witnesses := w, start := s.ftick }
  let s := (s.setCase c).sendFault w (s.caseMsg c 2 0)
  let s := s.mgmtCopy (s.caseMsg c 3 0)
  (if w.contains s.node then s.beWitness (s.caseMsg c 2 0) else s).caseRegs

/-- R381: at S+1 the arbiter opens the case. -/
def execCaseOpen (case : Nat) (s : State) : Res := live s fun s =>
  match s.caseOf case fun c => c.role == 0 && c.st == 0 && c.s + 1 ≤ s.ftick with
  | some c => s.openCase c
  | none => s

/-- R382: one that may take the case over, and holds no decision of it in time, runs the case with the shorter schedule. Cases decided beyond twelve ticks
are counted. -/
def execBackupTakeover (case : Nat) (s : State) : Res := live s fun s =>
  match s.caseOf case fun c => c.role == 1 && c.st == 0 && c.s + 2 + 4 * c.rank ≤ s.ftick with
  | some c => (s.openCase c).bumpIf (2 ≤ c.rank) 0xE0D005
  | none => s

/-- Take a message once, whichever path it comes by (R385). -/
def State.firstTime (s : State) (m : FaultMsg) : Bool := !s.fault.seen.contains m

/-- Note a message as taken. -/
def State.note (s : State) (m : FaultMsg) : State := { s with fault := { s.fault with seen := s.fault.seen ++ [m] } }

/-- A report arrives. -/
def State.onReport (s : State) (f : FaultMsg) : State := if f.subtype == 1 && s.firstTime f then (s.note f).takeReport f else s

/-- R379: the arbiter and the backup receive a report. -/
def execFaultReport (f : FaultMsg) (s : State) : Res := live s fun s => s.onReport f

/-- A probe request arrives. -/
def State.onProbeRequest (s : State) (f : FaultMsg) : State := if f.subtype == 2 && s.firstTime f then (s.note f).beWitness f else s

/-- R381: a witness receives a probe request. -/
def execProbeRequest (f : FaultMsg) (s : State) : Res := live s fun s => s.onProbeRequest f

/-- R381: a witness probes the subject. -/
def execWitnessProbe (case : Nat) (s : State) : Res := live s fun s =>
  match s.caseOf case fun c => c.role == 2 && c.st == 1 with
  | some c => s.sendFault [c.node] (s.caseMsg c 3 0)
  | none => s

/-- The vote that this Molset's alignment state gives: locked or not (R380). -/
def State.alignVote (s : State) : Nat := if s.reg 0x200104 == 2 then 2 else 3

/-- A probe arrives at its subject: it answers with its alignment state, on the path of the probe. -/
def State.onProbe (s : State) (f : FaultMsg) (mgmt : Bool) : State :=
  if f.subtype != 3 || f.node != s.node then s else
  let a := { f with subtype := 4, sender := s.node, verdict := s.alignVote }
  if mgmt then s.mgmtCopy a else s.sendFault [f.sender] a

/-- R381: the subject answers a probe. -/
def execProbe (f : FaultMsg) (s : State) : Res := live s fun s => s.onProbe f false

/-- An answer reaches a witness, or over the management network the arbiter. -/
def State.onAnswer (s : State) (f : FaultMsg) (mgmt : Bool) : State :=
  if f.subtype != 4 || f.sender != f.node then s
  else if mgmt then
    match s.caseOf f.case fun c => c.role == 0 && c.st < 3 with
    | some c => s.setCase { c with mgmt := true }
    | none => s
  else
    match s.caseOf f.case fun c => c.role == 2 && c.st == 1 with
    | some c => s.setCase { c with reached := true, locked := f.verdict == 2 }
    | none => s

/-- R381: a witness receives a probe answer. -/
def execProbeAnswer (f : FaultMsg) (s : State) : Res := live s fun s => s.onAnswer f false

/-- A vote arrives at the arbiter. -/
def State.onVote (s : State) (f : FaultMsg) : State :=
  if f.subtype != 5 then s else
  match s.caseOf f.case fun c => c.role == 0 && c.st == 1 && c.witnesses.contains f.sender && !c.votes.any (·.1 == f.sender) with
  | some c => s.setCase { c with votes := c.votes ++ [(f.sender, f.verdict)] }
  | none => s

/-- R381: the arbiter receives a vote. -/
def execVote (f : FaultMsg) (s : State) : Res := live s fun s => s.onVote f

/-- The vote of a witness (R380): whether it reached the subject, or whether the subject said that it is locked. -/
def witnessVote (c : Case) : Nat := if c.code == 3 then (if c.locked then 2 else 3) else b2n c.reached

/-- Witnesses vote at cycle 0 of the tick at which votes are due (R381, R382). -/
def State.votesTickAll (s : State) : State :=
  (s.fault.cases.filter fun c => c.role == 2 && c.st == 1 && c.s + 4 + 4 * ((c.start - c.s) / 4) ≤ s.ftick).foldl (fun s c =>
    let m := s.caseMsg c 5 (witnessVote c)
    let s := { s with fault := { s.fault with cases := s.fault.cases.filter fun x => !(x.num == c.num && x.role == 2) } }
    let arb := c.num / 2 ^ 20
    (s.sendFault [arb] m).onVote m) s

/-- R381: votes are due: a missing vote counts as unreachable, or as not locked. -/
def execVotesDue (case : Nat) (s : State) : Res := live s fun s =>
  match s.caseOf case fun c => c.role == 0 && c.st == 1 && votesTick c ≤ s.ftick with
  | some c =>
    let miss := c.witnesses.filter fun w => !c.votes.any (·.1 == w)
    s.setCase { c with st := 2, votes := c.votes ++ miss.map fun w => (w, if c.code == 3 then 3 else 0) }
  | none => s

/-- Cases of one subject in the repeat window, this one included (R378). -/
def State.repeats (s : State) (c : Case) (part : Bool) : Nat :=
  1 + (s.fault.past.filter fun p => p.1 == c.code && p.2.1 == c.node && (!part || p.2.2.1 == c.partNo) && c.s < p.2.2.2 + s.reg 0x900005 && p.2.2.2 ≤ c.s).length

/-- The verdict of a case (R378): 0 clear, 1 fence the part, 2 drain the tray, 3 fail the node. -/
def State.verdict (s : State) (c : Case) : Nat :=
  match c.code with
  | 1 => if s.reg 0x900006 ≤ s.repeats c false then 2 else 0
  | 2 => 1
  | 3 => if c.votes.length < 2 * (c.votes.filter (·.2 == 2)).length then 0 else 3
  | 4 => if s.reg 0x900006 ≤ s.repeats c true then 1 else 0
  | 5 => if c.votes.any fun v => v.2 != 0 then 0 else 3
  | 6 => 2
  | 7 => 2
  | 9 => 2
  | _ => 3

/-- The tray that a drain verdict is about: the part, or the subject's tray. -/
def State.drainedTray (s : State) (node partKind partNo : Nat) : Nat :=
  if partKind != partTray then trayOf s.map.entries node
  else
    match s.map.entries.find? fun e => e.kind == 1 && e.object % 4096 == partNo with
    | some e => e.object
    | none => partNo

/-- The latest map that is in effect or pending under the fault protocol, with its epoch (R383). -/
def State.latestMap (s : State) : List MapEntry × Nat :=
  let pend := (s.map.pending.toList.filter (·.origin == 1)) ++ sortBy (fun (a b : MapChange) => a.epoch < b.epoch) s.map.later
  pend.foldl (fun (m : List MapEntry × Nat) c => (applyChange m.1 c.entries, c.epoch)) (s.map.entries, s.epoch)

/-- Issue a map change of the fault protocol (R383): it goes to every live Molset, this one included. -/
def State.faultChange (s : State) (es : List MapEntry) (eff : Nat) : State × Nat × Option MapChange :=
  if es.isEmpty then (s, 0, none) else
  let (m, e) := s.latestMap
  let c : MapChange := { epoch := e + 1, eff, origin := 1, digest := mapDigest (applyChange m es), entries := es }
  ((s.sendAll s.liveSet 0x12 0 false (.mapChange c)).takeChange s.node c, c.epoch, some c)

/-- Decide every case that is due with this effect tick; decisions made at one tick travel in one change (R381, R383). -/
def State.decideAll (s : State) (d : Nat) : State :=
  let due := s.fault.cases.filter fun c => c.role == 0 && c.st == 2 && decideTick c ≤ s.ftick && max (effectTick c) (s.ftick + 3) == d
  let (s, vs) := due.foldl (fun (a : State × List (Case × Nat)) c =>
    let v := a.1.verdict c
    let s := { a.1 with fault := { a.1.fault with past := a.1.fault.past ++ [(c.code, c.node, c.partNo, c.s)] } }
    (s, a.2 ++ [(c, v)])) (s, [])
  let failed := ((vs.filter (·.2 == 3)).map (·.1.node)).eraseDups
  let trays := ((vs.filter (·.2 == 2)).map fun x => s.drainedTray x.1.node x.1.partKind x.1.partNo).eraseDups
  let plan := planOf s.latestMap.1 failed trays s.fault.respares
  let (s, epoch, _) := s.faultChange plan.entries d
  let s := (s.bump 0xE0D00C plan.vacant)
  let s := { s with fault := { s.fault with draining := (s.fault.draining ++ trays).eraseDups } }
  let reference := (s.liveSet.find? fun n => !failed.contains n).getD s.node
  let need := s.liveSet.filter fun n => n != s.node && !failed.contains n
  (vs.foldl (fun s x =>
    let m := { s.caseMsg x.1 6 x.2 with reference, epoch, d }
    let s := (s.setCase { x.1 with st := 3, verdict := x.2, d, need, acks := [] }).sendFault s.liveSet m
    let s := (s.bump 0xE0D002 1).bumpIf (x.2 == 0) 0xE0D003
    { s with fault := { s.fault with decisions := s.fault.decisions ++ [m], seen := s.fault.seen ++ [m] } }) s).caseRegs

/-- R381: the arbiter decides. -/
def execDecide (case : Nat) (s : State) : Res := live s fun s =>
  match s.caseOf case fun c => c.role == 0 && c.st == 2 && decideTick c ≤ s.ftick with
  | some c => s.decideAll (max (effectTick c) (s.ftick + 3))
  | none => s

/-- A decision arrives (R25, R383): it is acknowledged and waits for its tick; cases of its subject held here as backup or witness end. A Molset that
learns its own fail decision has a fatal fault (R397). -/
def State.onDecision (s : State) (f : FaultMsg) (c : Option MapChange) : State :=
  if f.subtype != 6 || !s.firstTime f then s else
  let s := s.note f
  if f.verdict == 3 && f.node == s.node then s.fatal 7
  else if f.d ≤ s.ftick then s.stale
  else
    let mine (x : Case) : Bool := x.st < 3 && x.node == f.node && x.partKind == f.partKind && x.partNo == f.partNo && x.s == f.s
    let s := { s with fault := { s.fault with decisions := s.fault.decisions ++ [f], cases := s.fault.cases.filter fun x => !mine x } }
    let s := match c with | some c => s.takeChange f.sender c | none => s
    (s.sendFault [f.sender] { f with subtype := 7, sender := s.node }).caseRegs

/-- R383: a Molset receives a decision. -/
def execDecision (f : FaultMsg) (c : Option MapChange) (s : State) : Res := live s fun s => s.onDecision f c

/-- An acknowledgement reaches the arbiter. -/
def State.onDecisionAck (s : State) (f : FaultMsg) : State :=
  if f.subtype != 7 then s else
  match s.caseOf f.case fun c => c.role == 0 && c.st == 3 && c.need.contains f.sender && !c.acks.contains f.sender with
  | some c => s.setCase { c with acks := c.acks ++ [f.sender] }
  | none => s

/-- R383: the arbiter receives an acknowledgement. -/
def execDecisionAck (f : FaultMsg) (s : State) : Res := live s fun s => s.onDecisionAck f

/-- R385, R478: a copy on the management network is checked by its HMAC and taken as the message; one whose HMAC fails is dropped. The key of the epoch
before serves until its end. -/
def execManagementCopy (f : FaultMsg) (mac : List Byte) (s : State) : Res := live s fun s =>
  let ok (k : List Byte) : Bool := Config.hmac k (faultBytes f) == mac
  let good := (match s.sec.mgmtKey with | some k => ok k | none => false) ||
    (match s.sec.mgmtOld with | some (k, e) => s.ftick < e && ok k | none => false) ||
    (match s.sec.mgmtNext with | some (_, k, b) => b ≤ s.ftick + 2 && ok k | none => false)
  if !good then s.bump 0xE0D006 1
  else if f.sender == s.node then s
  else
    match f.subtype with
    | 1 => s.onReport f
    | 2 => s.onProbeRequest f
    | 3 => s.onProbe f true
    | 4 => s.onAnswer f true
    | 5 => s.onVote f
    | 6 => s.onDecision f none
    | 7 => s.onDecisionAck f
    | _ => s

/-! ### Part scores (R386, R387) -/

/-- The register of a part's score (R400). -/
def scoreKey (kind no : Nat) : Option Key :=
  match kind with
  | 1 => some (if no < 192 then 0x902101 + no else 0x902201 + (no - 192))
  | 2 => some (0x902301 + no)
  | 3 => some (0x902311 + no)
  | 4 => some (0x902321 + no)
  | 5 => some (0x902341 + no)
  | 6 => some 0x902351
  | 7 => some 0x902352
  | _ => none

/-- Every part with a score of its own: kind and number. -/
def scoredParts : List (Nat × Nat) :=
  (List.range 384).map (fun n => (1, n)) ++ (List.range 12).map (fun n => (2, n)) ++ (List.range 8).map (fun n => (3, n)) ++
  (List.range 32).map (fun n => (4, n)) ++ (List.range 16).map (fun n => (5, n)) ++ [(6, 0), (7, 0)]

/-- R386, R387: at the end of a score window every score decays and takes the window's events; a part that comes to the watch threshold is counted, one at
the drain threshold has its tray drained. -/
def execScoreWindow (s : State) : Res := live s fun s =>
  if s.ftick < s.fault.windowStart + s.reg 0x902001 then s else
  let events := s.fault.events
  let s := { s with fault := { s.fault with events := [], windowStart := s.ftick } }
  let (s, top, watch) := scoredParts.foldl (fun (a : State × Nat × Nat) p =>
    match scoreKey p.1 p.2 with
    | none => a
    | some k =>
      let old := a.1.reg k
      let w := match events.find? fun e => e.1 == p.1 * 4096 + p.2 with | some e => e.2.2 | none => 0
      if old == 0 && w == 0 then a else
      let new := min (3 * old / 4 + w) 0xFFFFFFFF
      (a.1.setReg k new, max a.2.1 new, a.2.2 + b2n (old < s.reg 0x902002 && s.reg 0x902002 ≤ new))) (s, 0, 0)
  let s := (s.setReg 0x902004 top).bump 0xE0D00B watch
  let tray := s.reg 0x800003
  if top < s.reg 0x902003 || s.fault.drains.contains tray then s
  else ({ s with fault := { s.fault with drains := s.fault.drains ++ [tray] } }).raiseFault 7 s.node partTray (tray % 4096) top

/-- Raise a drain of a tray (R378, code 9): its subject is the lowest node of the tray that the map names, or this Molset. -/
def State.raiseDrain (s : State) (tray : Nat) : State :=
  let n := match s.map.entries.find? fun e => e.kind == 1 && e.object == tray with | some e => e.a | none => s.node
  s.raiseFault 9 n partTray (tray % 4096) 0

/-- R378: a signed write of a tray ID takes effect. -/
def execDrainRequest (tray : Nat) (s : State) : Res := live s fun s => (s.setReg 0x900008 (tray % 65536)).raiseDrain (tray % 65536)

/-! ### Applying decisions (R22, R384) -/

/-- A failed node's own queries, jobs and updates are released here (R384). -/
def State.releaseNode (s : State) (n : Nat) : State :=
  { s with
    copy := updIf (fun c => c.name.home == n) (fun c => { c with stop := true, waiting := [] }) s.copy
    rerank := { s.rerank with reads := s.rerank.reads.filter fun r => r.name.home != n }
    net := { s.net with rxHeld := s.net.rxHeld.filter (·.src != n), epochHeld := s.net.epochHeld.filter (·.1.src != n), owed := s.net.owed.filter (·.1 != n) } }

/-- Fence a part of this Molset (R378): a spindle goes to state 2, a port leaves service until its kind is written again. -/
def State.fence (s : State) (partKind partNo : Nat) : State :=
  if partKind == partSpindle && partNo < 384 then (s.setSpState partNo 2).bump 0xE0D007 1
  else if partKind == partPort && partNo < 16 then
    let wasUp := s.portState partNo == 3
    let s := ((s.setPort partNo { lastRekey := (s.port partNo).lastRekey }).setPortState partNo 4).bump 0xE0D007 1
    if wasUp then s.linkLost partNo else s
  else s

/-- Step 2 of a tick: apply the decisions that name it; one whose tick was passed over is stale (R25). Answers the nodes failed and the trays drained. -/
def State.faultApply (s : State) : State × List Nat × List Nat :=
  let due := s.fault.decisions.filter (·.d == s.ftick)
  let past := s.fault.decisions.filter (·.d < s.ftick)
  let s := { s with fault := { s.fault with decisions := s.fault.decisions.filter (s.ftick < ·.d) } }
  let s := past.foldl (fun s _ => s.stale) s
  due.foldl (fun (a : State × List Nat × List Nat) f =>
    let s := a.1
    match f.verdict with
    | 1 => (if f.node == s.node then s.fence f.partKind f.partNo else s, a.2)
    | 2 =>
      let t := s.drainedTray f.node f.partKind f.partNo
      ({ s with fault := { s.fault with drains := if s.fault.drains.contains t then s.fault.drains else s.fault.drains ++ [t] } }, a.2.1, a.2.2 ++ [t])
    | 3 =>
      let s := { s with fault := { s.fault with failed := if s.fault.failed.contains f.node then s.fault.failed else s.fault.failed ++ [f.node] } }
      (((s.bump 0xE0D004 1).setReference f.reference).releaseNode f.node, a.2.1 ++ [f.node], a.2.2)
    | _ => a) (s, [], [])

/-- The arbiter misses acknowledgements when its decision applies: each is a code-5 case (R383). Decided cases leave. -/
def State.missedAcks (s : State) : State :=
  let done := s.fault.cases.filter fun c => c.role == 0 && c.st == 3 && c.d ≤ s.ftick
  let s := { s with fault := { s.fault with cases := s.fault.cases.filter fun c => !(c.st == 3 && c.d ≤ s.ftick) } }
  let miss := (done.flatMap fun c => c.need.filter fun n => !c.acks.contains n).eraseDups
  miss.foldl (fun s n => s.raiseFault 5 n 0 0 0) s

/-! ### Moving roles (R373, R388 to R395) -/

/-- Keep the owner tag of a piece of state. -/
def State.setTag (s : State) (kind t obj owner : Nat) : State :=
  let tag := ownerTag s.epoch owner kind
  { s with fault := { s.fault with tags := s.fault.tags.filter (fun x => !(x.1 == kind && x.2.1 == t && x.2.2.1 == obj)) ++ [(kind, t, obj, tag)] } }

/-- The image of a shard of the live thatch that this Molset holds, as copy or as flash holder. -/
def State.liveImage (s : State) (x : Idx) (shard : Nat) : Option Image :=
  match x.thatches.find? fun h => h.im.shard == shard && h.st == 1 with
  | some h => some h.im
  | none => x.held.find? fun im => im.shard == shard && im.version == s.liveVersion x

/-- The service of an index moves (R389): a new sequencer takes over from what it holds and asks
another holder for its records, or, where none is left, issues the seals that are missing (R211); the sequencer sends a new log holder the retained
records. -/
def State.moveService (s : State) (old : List MapEntry) (x : Idx) : State :=
  let t := x.desc.tenant
  let i := x.desc.index
  match idxService old t i, idxService s.map.entries t i with
  | some o, some n =>
    let was := entryNodes o
    let s := if o.a == n.a then s else s.setTag 1 t i n.a
    if n.a == s.node && o.a != s.node then
      let last := x.seals.foldl (fun m r => max m r.sealed) x.applied
      let other := ([n.b, n.c, o.a].filter fun p => p != 0xFFFF && p != s.node && was.contains p && s.alive p).head?
      let both := was.contains s.node
      let mine := heldRecords x
      let top := mine.foldl (fun m r => max m r.seq) last
      let q : Seqr := { next := top + 1, committed := if other.isSome then last else top, captured := last, lastSeal := last, live := x.seqr.live,
                        resume := other.map fun _ => both }
      let q := mine.foldl (fun q r => (r.parts.filter fun p => x.seqr.live.any fun l => l.version == p.version).foldl (fun q p =>
        match x.seqr.live with | some l => (partShards l p).foldl (fun q sh => noteSent q p.version sh) q | none => q) q) q
      let s := s.setIdx { x with seqr := q }
      match other with
      | some p => s.sendRole p 0x21 t (.logFetch t i (last + 1) (2 ^ 48))
      | none => ((missedTicks x s.ftick).filter (· < s.ftick)).foldl (fun s v => match s.findIdx t i with
        | some y => s.sealIndex { y with seqr := { y.seqr with captured := y.seqr.committed } } v (s.liveVersion y)
        | none => s) s
    else if n.a == s.node || (o.a == s.node && n.a != s.node) then
      let news := (entryNodes n).filter fun p => p != s.node && !was.contains p
      s.sendAll news 0x21 t true (.logRecords t i (heldRecords x) (x.seals ++ x.pendSeals))
    else s
  | _, _ => s

/-- A shard gets a new flash holder: copy 0 sends it the image (R389). -/
def State.moveFlash (s : State) (old : List MapEntry) (x : Idx) : State :=
  (idxShards s.map.entries x.desc.tenant x.desc.index).foldl (fun s e =>
    match idxShard old e.tenant e.object e.shard, s.liveImage x e.shard with
    | some o, some im => if e.a == s.node && e.c != 0xFFFF && e.c != o.c then s.sendRole e.c 0x22 e.tenant (.image im) else s
    | _, _ => s) s

/-- A table's rows go to a new mirror (R389): the home sends their images and chains. -/
def State.moveMirror (s : State) (old : List MapEntry) (x : Tab) : State :=
  (tabShards s.map.entries x.tenant x.table).foldl (fun s e =>
    match tabShard old e.tenant e.object e.shard with
    | some o =>
      if e.a == s.node && e.b != 0xFFFF && e.b != o.b then
        let r := shardRange x e.shard
        let rows := (List.range r.2).filterMap fun i => s.rowState x x.live (r.1 + i)
        s.sendRole e.b 0x23 e.tenant (.images e.tenant e.object 0 x.live rows)
      else s
    | none => s) s

/-- A node that fails while it is a copy of an index fails the build that the index's sequencer runs (R216, R223); after the publish decision its missing
acknowledgement does (R220). -/
def State.buildsLose (s : State) (old : List MapEntry) (failed : List Nat) : State :=
  s.idx.foldl (fun s y =>
    let t := y.desc.tenant
    let i := y.desc.index
    let copies := (idxShards old t i).flatMap entryCopies
    match s.findIdx t i with
    | some x => if failed.any copies.contains && s.isSequencer t i && x.build.isSome && x.publish.isNone then s.failBuild t i 0x0208 else s
    | none => s) s

/-- Start a respare here (R390, R391): its source sends the image, then its delta segment and tombstones as of its latest installed seal, as the records
that made them; a target whose source is gone discards what it got and asks the flash holder. -/
def State.startRespare (s : State) (r : Respare) : State :=
  match s.findIdx r.tenant r.index with
  | none => s
  | some x =>
    if r.z == s.node && !r.restore then
      match s.liveImage x r.shard with
      | none => s
      | some im =>
        let upd (p : Respare) : Respare := if p.tenant == r.tenant && p.index == r.index && p.shard == r.shard then { p with staged := true } else p
        let s := { s with fault := { s.fault with respares := s.fault.respares.map upd } }
        let s := (s.bump 0xE0D009 1).sendRole r.y 0x22 r.tenant (.image im)
        let rs := x.log.filter fun d => im.fold < d.seq && d.seq ≤ x.applied
        s.sendRole r.y 0x21 r.tenant (.logRecords r.tenant r.index rs x.seals)
    else if r.y == s.node && r.restore then
      let x := { x with thatches := x.thatches.filter fun h => h.im.shard != r.shard }
      let x := if x.thatches.isEmpty then { x with log := [], seals := [], pendRecs := [], pendSeals := [], views := [], applied := 0 } else x
      let s := s.setIdx x
      match idxShard s.map.entries r.tenant r.index r.shard with
      | some e => if e.c != 0xFFFF && e.c != s.node then s.sendRole e.c 0x22 r.tenant (.askImage r.tenant r.index r.shard) else s
      | none => s
    else s

/-- 0x9030:04: respares with this Molset as source or target. -/
def State.respareRegs (s : State) : State := s.setReg 0x903004 (s.fault.respares.filter fun r => r.z == s.node || r.y == s.node).length

/-- After step 3: what the decisions and a new map move (R355, R373, R389 to R395). `old` is the map before. -/
def State.rolesMoved (s : State) (old : List MapEntry) (failed trays : List Nat) : State :=
  let plan := planOf old failed trays s.fault.respares
  let same (a b : Respare) : Bool := a.tenant == b.tenant && a.index == b.index && a.shard == b.shard
  let s := failed.foldl State.failDest s
  if s.map.entries == old && failed.isEmpty && trays.isEmpty then s else
  let named (r : Respare) : Bool := match idxShard s.map.entries r.tenant r.index r.shard with | some e => (entryCopies e).contains r.y | none => true
  let second := (s.map.entries.filter fun e => e.kind == 4 && e.a != 0xFFFF && e.b == 0xFFFF).filterMap fun e =>
    match idxShard old e.tenant e.object e.shard with
    | some o =>
      if o.a != 0xFFFF || o.b != 0xFFFF then none else
      let p : Plan := { m := old }
      match (p.pick old (fun _ => false) e.a fun n => { e with b := n }).2 with
      | some y => some ({ tenant := e.tenant, index := e.object, shard := e.shard, z := e.a, y, staged := false, restore := false, x := none } : Respare)
      | none => none
    | none => none
  let kept := s.fault.respares.filter fun r => !named r && !failed.contains r.y && !plan.respares.any (same r)
  let fresh := plan.respares ++ second.filter fun r => !kept.any (same r)
  let s := { s with fault := { s.fault with
    respares := kept ++ fresh
    failed := s.fault.failed.filter fun n => nodeState s.map.entries n != 1
    log := s.fault.log.map fun l =>
      match s.routeOf l.msg with
      | some d => if d == l.dst then l else { l with oldDst := l.dst, dst := d, moved := some s.ftick, asked := false, answers := [] }
      | none => l } }
  let s := fresh.foldl State.startRespare s
  let s := s.idx.foldl (fun s y =>
    match s.findIdx y.desc.tenant y.desc.index with
    | none => s
    | some x =>
      let s := s.setReg (pagedKey 0x4048 x.slot) (rolesOf s.map.entries s.node x.desc.tenant x.desc.index)
      (s.moveService old x).moveFlash old x) s
  let s := s.buildsLose old failed
  let s := s.emb.tabs.foldl (fun s x =>
    let s := match tabService old x.tenant x.table, tabService s.map.entries x.tenant x.table with
      | some o, some n => if o.a == n.a then s else s.setTag 2 x.tenant x.table n.a
      | _, _ => s
    s.moveMirror old x) s
  s.respareRegs

/-- A tray that this Molset drains and that holds no role any more: its nodes become absent and it is reported as drained (R388). -/
def State.drainedTick (s : State) : State :=
  s.fault.draining.foldl (fun s t =>
    let m := s.latestMap.1
    let nodes := (m.filter fun e => e.kind == 1 && e.object == t).map (·.a)
    if nodes.any fun n => nodeState m n == 2 then
      if m.any fun e => 3 ≤ e.kind && (entryNodes e).any fun n => nodes.contains n then s else
      let es := nodes.map fun n => nodeSet m n (nodeRole m n) 0
      let (s, _, _) := s.faultChange es (s.ftick + 3)
      let s := (s.setReg 0x903007 t).bump 0xE0D008 1
      { s with fault := { s.fault with draining := s.fault.draining.filter (· != t), drains := s.fault.drains.filter (· != t) } }
    else s) s

/-- A target whose image is staged and that holds every seal up to the last tick sends restore ready to the arbiter (R390). -/
def State.respareTick (s : State) : State :=
  s.fault.respares.foldl (fun s r =>
    match s.findIdx r.tenant r.index with
    | none => s
    | some x =>
      let last := x.seals.foldl (fun m q => max m q.tick) 0
      if r.y != s.node || !r.staged || r.x.isSome || !x.pendSeals.isEmpty || last + 1 < s.ftick then s else
      let upd (p : Respare) : Respare := if p.tenant == r.tenant && p.index == r.index && p.shard == r.shard then { p with x := some s.ftick } else p
      let s := { s with fault := { s.fault with respares := s.fault.respares.map upd } }
      let m : FaultMsg := {
        subtype := 10, code := 0, sender := s.node, case := 0, s := s.ftick, node := s.node, partKind := 0, partNo := 0, verdict := 0, reference := 0,
        epoch := 0, d := 0, detail := last }
      s.sendFault ((s.deciders s.node).take 1) m) s

/-- R390: the spare has staged the image of the surviving copy. -/
def execRespareImageDone (tenant index shard : Nat) (s : State) : Res := live s fun s =>
  match s.findIdx tenant index with
  | none => s
  | some x =>
    if !x.thatches.any (fun h => h.im.shard == shard && h.st == 1) then s else
    let upd (p : Respare) : Respare :=
      if p.tenant == tenant && p.index == index && p.shard == shard && p.y == s.node && !p.restore then { p with staged := true } else p
    { s with fault := { s.fault with respares := s.fault.respares.map upd } }

/-- R390: the arbiter names the spare as a copy by a map change that takes effect at X+3. A sole copy that drains leaves the entry; a shard that had no copy
gets a second spare. -/
def execRestoreReady (f : FaultMsg) (tenant index shard : Nat) (s : State) : Res := live s fun s =>
  if f.subtype != 10 || !s.firstTime f then s else
  let s := s.note f
  let m := s.latestMap.1
  match idxShard m tenant index shard with
  | none => s
  | some e =>
    if (entryCopies e).contains f.sender || (s.deciders f.sender).head? != some s.node then s else
    let stay := (entryCopies e).filter fun n => nodeState m n == 1
    let copies := stay ++ [f.sender]
    let new := { e with a := copies.getD 0 0xFFFF, b := copies.getD 1 0xFFFF }
    let p : Plan := ({ m } : Plan).add new
    let p := if new.b != 0xFFFF then p else (p.pick m (fun _ => false) f.sender fun n => { new with b := n }).1
    let (s, _, _) := s.faultChange p.entries (max (f.detail + 4) (s.ftick + 2))
    s.bumpIf (new.b == 0xFFFF && p.entries.length == 1) 0xE0D00C

/-- R391: the target of a restore has read the image from the flash holder, and fetches the records after it; an unreadable image loses the shard. -/
def execRestoreFromFlash (tenant index shard : Nat) (im : Option Image) (s : State) : Res := live s fun s =>
  let mine (r : Respare) : Bool := r.tenant == tenant && r.index == index && r.shard == shard && r.y == s.node && r.restore
  if !s.fault.respares.any mine then s else
  match s.findIdx tenant index, im with
  | some x, some im =>
    if im.shard != shard || im.digest != Config.sha256 (imageBody im) then s.shardLost tenant index shard else
    let s := ((s.setReg (pagedKey 0x4042 x.slot) im.version).setReg (pagedKey 0x4045 x.slot) im.fold).stageImage x im
    let s := { s with fault := { s.fault with respares := updIf mine (fun r => { r with staged := true }) s.fault.respares } }
    let holders := match idxService s.map.entries tenant index with | some e => (entryNodes e).filter (· != s.node) | none => []
    (s.bump 0xE0D00A 1).sendAll holders 0x21 tenant true (.logFetch tenant index (im.fold + 1) (2 ^ 48))
  | _, none => s.shardLost tenant index shard
  | none, _ => s

/-! ### Ownership (R394 to R396) -/

/-- The state kind of a logged request (R394). -/
def stateKind (m : Msg) : Nat :=
  match m with | .update _ => 1 | .contrib .. => 3 | .summary _ => 2 | .rowRead .. => 3 | .dispatch _ => 5 | _ => 1

/-- R396: a logged request has neither completed nor been bounced in time after its role moved: both holders are asked. -/
def execOwnershipQuery (req : Nat) (s : State) : Res := live s fun s =>
  match s.fault.log.find? fun l => l.req == req with
  | none => s
  | some l =>
    match l.moved with
    | none => s
    | some p =>
      if l.asked || s.ftick < p + s.reg 0x900007 then s else
      let s := { s with fault := { s.fault with log := updIf (fun y => y.req == req) (fun y => { y with asked := true, answers := [] }) s.fault.log } }
      let m : FaultMsg := {
        subtype := 8, code := 0, sender := s.node, case := req % 2 ^ 32, s := s.ftick, node := l.dst, partKind := 0, partNo := 0, verdict := 0,
        reference := 0, epoch := 0, d := 0, detail := ownerTag s.epoch l.dst (stateKind l.msg) }
      (s.bump 0xE0D00E 1).sendFault ([l.oldDst, l.dst].eraseDups) m

/-- Does this Molset hold state for a request of a sender: a record of the update, or a request of that name served in the retention? -/
def State.holdsRequest (s : State) (src kind t obj : Nat) (name : Nat × Nat) : Bool :=
  (kind == 1 && match s.findIdx t obj with | some x => (heldRecords x).any fun r => r.home == src && r.ringSeq == name.2 | none => false) ||
  s.fault.served.any fun x => x.1 == name && s.ftick ≤ x.2 + s.reg 0x90000B

/-- R396: a holder answers with its tag, or with 0 if it holds no state for the request. -/
def execOwnershipQueryReceive (f : FaultMsg) (kind tenant object : Nat) (name : Nat × Nat) (s : State) : Res := live s fun s =>
  if f.subtype != 8 then s else
  let tag := match s.fault.tags.find? fun x => x.1 == kind && x.2.1 == tenant && x.2.2.1 == object with
    | some x => x.2.2.2
    | none => ownerTag s.epoch s.node kind
  let detail := if s.holdsRequest f.sender kind tenant object name then tag else 0
  s.sendFault [f.sender] { f with subtype := 9, sender := s.node, detail }

/-- Replay a logged request under the current epoch (R396). -/
def State.replay (s : State) (l : LogReq) : State :=
  let s := { s with fault := { s.fault with log := updIf (fun y => y.req == l.req) (fun y => { y with moved := none, asked := false, answers := [] }) s.fault.log } }
  let kind := match l.msg with | .dispatch _ => 0x20 | .update _ => 0x21 | .build _ => 0x22 | _ => 0x23
  let t := match l.msg with | .dispatch d => d.par.tenant | .update u => u.tenant | .build b => b.tenant | .contrib r _ => r.tenant | _ => 0
  let s := (s.bump 0xE0D011 1).copyMoved l.msg l.dst
  match (if l.dst == s.node then s.takeOwn l.msg else none) with
  | some s => s
  | none => s.sendRole l.dst kind t l.msg

/-- A logged request has an owner: it is waited for there. -/
def State.ownedBy (s : State) (l : LogReq) (n : Nat) : State :=
  let s := s.copyMoved l.msg n
  { s with fault := { s.fault with log := updIf (fun y => y.req == l.req) (fun y => { y with dst := n, moved := none, asked := false, answers := [] }) s.fault.log } }

/-- R396: an answer arrives; with the answers of every holder that has not failed the ownership is resolved, or the request replayed. -/
def execOwnershipAnswer (req src tag : Nat) (s : State) : Res := live s fun s =>
  match s.fault.log.find? fun l => l.req == req && l.asked with
  | none => s
  | some l =>
    if !(src == l.oldDst || src == l.dst) || l.answers.any (·.1 == src) then s else
    let l := { l with answers := l.answers ++ [(src, tag)] }
    let s := { s with fault := { s.fault with log := updIf (fun y => y.req == req) (fun _ => l) s.fault.log } }
    if !([l.oldDst, l.dst].eraseDups.all fun n => l.answers.any (·.1 == n) || s.hasFailed n) then s else
    match l.answers.filter (·.2 != 0) with
    | [] => s.replay l
    | [a] => s.ownedBy l a.1
    | a :: b :: _ =>
      let ea := a.2 / 2 ^ 32
      let eb := b.2 / 2 ^ 32
      let na := field a.2 31 20
      let nb := field b.2 31 20
      if ea != eb then s.ownedBy l (if ea < eb then nb else na)
      else if na == nb then s.ownedBy l na
      else ((s.ownedBy l (min na nb)).bump 0xE0D00F 1).raiseFault 5 (max na nb) 0 0 0

end Sys2Proof.Machine
end

