-- ==== Sys2Proof/Machine/Flash.lean ====
section
/-! DEFINITION. The flash translation layer: windows, writes, the map and its cache, the read ladder, housekeeping, discards, the journal and
recovery (R306 to R333, R475). -/

namespace Sys2Proof.Machine

/-! ### Map entries (R313) -/

/-- The 64 bits of a map entry (R313). -/
def entryBits (e : FEntry) : Nat :=
  e.mode * 2 ^ 62 + e.sectors * 2 ^ 55 + e.block * 2 ^ 28 + e.page * 2 ^ 16 + e.sector * 2 ^ 8 + b2n e.discarded * 2 ^ 7 + b2n e.slc * 2 ^ 6

/-- The entry that 64 bits spell. -/
def entryOfBits (v : Nat) : FEntry where
  mode := field v 63 62
  sectors := field v 61 55
  block := field v 54 28
  page := field v 27 16
  sector := field v 15 8
  discarded := bit v 7
  slc := bit v 6

/-- A physical block address: channel, target, LUN, plane, block (R313). -/
def blockAddr (target lun plane block : Nat) : Nat := ((target * 4 + lun) * 4 + plane) * 32768 + block

/-- The channel of a physical block address. -/
def blockChannel (a : Nat) : Nat := a / 2 ^ 22

/-! ### Blocks and pages (R314, R321) -/

/-- Store a block. -/
def State.setFblock (s : State) (b : FBlock) : State := { s with flash := { s.flash with blocks := put s.flash.blocks b.addr b } }

/-- The `i`-th block of the flash. -/
def State.flashNth (s : State) (i : Nat) : Nat :=
  let b := max 1 (s.reg 0x700006)
  let p := max 1 (s.reg 0x700004)
  let l := max 1 (s.reg 0x700003)
  blockAddr ((s.flash.targets.filter fun t => s.reg (0x700101 + t / 8) == 0).getD (i / (b * p * l)) 0) (i / (b * p) % l) (i / b % p) (i % b)

/-- SLC blocks that hold data. -/
def State.slcBlocks (s : State) : Nat := (s.usedBlocks.filter fun b => b.slc && !b.retired).length

/-- The SLC cache limit L (R321). -/
def State.slcLimit (s : State) : Nat := min (s.reg 0x702004) ((s.freeBlocks - s.reg 0x702003) / 3)

/-- The erase-count spread over native blocks that are not retired (R323). -/
def State.wearSpread (s : State) : Nat :=
  let ns := (s.flash.blocks.map (·.2)).filter fun b => !b.slc && !b.retired
  let top := ns.foldl (fun a b => max a b.erases) 0
  if s.flash.blocks.length < s.flashTotal then top else top - (minOf (ns.map (·.erases))).getD top

/-- Is a stored block the one that its map entry names, and not discarded (R322, R326)? -/
def State.validStored (s : State) (x : FStored) : Bool :=
  let e := s.fentry x.logical
  e.mode != 0 && !e.discarded && e.block == x.block && e.page == x.page && e.sector == x.sector

/-- The valid packed blocks of a block. -/
def State.validIn (s : State) (a : Nat) : List FStored := s.flash.stored.filter fun x => x.block == a && s.validStored x

/-- Report the flash registers (R332). -/
def State.flashRegs (s : State) : State :=
  let free := s.freeBlocks
  let s := ((s.setReg 0x701002 free).setReg 0x701003 (min free (s.reg 0x702003))).setReg 0x701004 s.slcLimit
  let s := ((s.setReg 0x701005 s.slcBlocks).setReg 0x701006 s.wearSpread).setReg 0x701007 s.unworn
  let s := s.setReg 0x701009 (s.flash.discards.foldl (fun a d => a + d.2) 0)
  let ts := (s.regs.filter fun p => 0x704400 ≤ p.1 && p.1 < 0x704800 && p.2 != 0).map fun p => p.1 - 0x704400
  ts.foldl (fun s t => s.setReg (pagedKey 0x704C t) ((s.flash.map.filter fun e => e.2.mode != 0 && s.inRegion t e.1 1).length)) s

/-- Take a free block and open it (R321, R327): the lowest free one, or for levelling the free block of highest erase count (R323). -/
def State.openBlock (s : State) (slc worn : Bool) : Option (State × FBlock) :=
  if s.freeBlocks == 0 then none else
  let used := s.usedBlocks.map (·.addr)
  let most := (s.flash.blocks.map (·.2)).foldl (fun (b : Option FBlock) x =>
    if !x.free || x.retired then b else match b with | none => some x | some y => if y.erases < x.erases then some x else b) none
  let low := ((List.range (used.length + 1)).map s.flashNth).find? fun a => !used.contains a
  match (if worn then (most.map (·.addr)).orElse fun _ => low else low) with
  | none => none
  | some a =>
    let b := { s.fblock a with slc, next := 0, free := false, opened := s.flash.nextRec, reads := 0, due := false, erasing := false }
    let r : JRec := { seq := s.flash.nextRec, kind := 2, subject := a, value := b2n slc }
    some ({ s.setFblock b with flash := { (s.setFblock b).flash with buffer := s.flash.buffer ++ [r], nextRec := s.flash.nextRec + 1 } }, b)

/-- The open block of a kind: the one opened last that still has a page to program. -/
def State.openOf (s : State) (slc : Bool) : Option FBlock :=
  (s.usedBlocks.filter fun b => b.slc == slc && !b.retired && !b.erasing && b.next < s.reg 0x700005).foldl (fun (o : Option FBlock) b =>
    match o with | none => some b | some m => if m.opened < b.opened then some b else o) none

/-! ### The journal (R315, R327) -/

/-- Append records to the journal buffer. -/
def State.journal (s : State) (rs : List (Nat × Nat × Nat)) : State :=
  rs.foldl (fun s r =>
    let j : JRec := { seq := s.flash.nextRec, kind := r.1, subject := r.2.1, value := r.2.2 }
    { s with flash := { s.flash with buffer := s.flash.buffer ++ [j], nextRec := s.flash.nextRec + 1 } }) s

/-- Start to program a journal page, if none is in progress: up to 511 records (R327). -/
def State.startPage (s : State) : State :=
  if !s.flash.inPage.isEmpty || s.flash.buffer.isEmpty then s else
  let page := s.flash.buffer.take 511
  { s with flash := { s.flash with
      inPage := page.map fun r => { r with page := s.flash.nextPage }, nextPage := s.flash.nextPage + 1, buffer := s.flash.buffer.drop 511 } }

/-- The reads of a map page use the cache (R316): the page becomes the most recent, and the least recent clean page goes out if the cache is full; it
is written to its host slot if the slot does not hold it (R318). -/
def State.cachePage (s : State) (p : Nat) : State :=
  let c := s.flash.cache.filter (· != p) ++ [p]
  let room := s.reg 0x703001 / 4096
  let out := if c.length ≤ room then none else c.find? fun q => !s.flash.dirty.contains q && q != p
  let s := { s with flash := { s.flash with cache := c.filter fun q => some q != out } }
  match out with
  | none => s
  | some q =>
    let n := s.reg 0x703003
    let v := (lk s.flash.dirVer q).getD 0
    if n == 0 || s.flash.hostSlots.contains (q % n, q, v) then s else
    let plain := (List.range 512).flatMap fun i => leBytes 8 (entryBits (s.fentry (512 * q + i)))
    let (ct, tag) := Config.gcmSeal (leBytes 4 0) (leBytes 4 q ++ leBytes 8 v) [] plain
    let rec_ := leBytes 4 q ++ leBytes 4 0 ++ leBytes 8 v ++ tag ++ leBytes 32 0 ++ ct
    let at_ := s.reg 0x703002 + 4160 * (q % n)
    let s := { s with flash := { s.flash with hostSlots := s.flash.hostSlots.filter (fun (h : Nat × Nat × Nat) => h.1 != q % n) ++ [(q % n, q, v)] } }
    s.hostAsk 3 (at_, rec_.take 4096) (at_ + 4096, rec_.drop 4096)

/-- A change of a map page: its version goes up, it is dirty and it is in the cache (R316). -/
def State.touchPage (s : State) (p : Nat) : State :=
  let s := { s with flash := { s.flash with
      dirVer := put s.flash.dirVer p ((lk s.flash.dirVer p).getD 0 + 1), dirty := if s.flash.dirty.contains p then s.flash.dirty else s.flash.dirty ++ [p] } }
  s.cachePage p

/-- Set a map entry; the all-zero entry is not listed. -/
def setEntry (m : List (Nat × FEntry)) (b : Nat) (e : FEntry) : List (Nat × FEntry) := if e == zeroEntry then del m b else put m b e

/-- A programmed record takes effect (R315, R326, R327). -/
def State.applyRec (s : State) (r : JRec) : State :=
  match r.kind with
  | 1 => { s with flash := { s.flash with map := setEntry s.flash.map r.subject (entryOfBits r.value) } }.touchPage (mapPage r.subject)
  | 4 =>
    (List.range r.value).foldl (fun s i =>
      let b := r.subject + i
      { s with flash := { s.flash with map := setEntry s.flash.map b { s.fentry b with discarded := true } } }.touchPage (mapPage b)) s
  | 7 =>
    let reads := (s.flash.blocks.filter fun x => 0 < x.2.reads).map fun x => (x.1, x.2.reads)
    { s with flash := { s.flash with ckpt := r.subject, ckptSeq := r.value, ckptMap := s.flash.map, ckptVer := s.flash.dirVer, ckptReads := reads } }
  | _ => s

/-- Is housekeeping allowed: the start-up, publish or recovery window is open, and the limit of R308 has not stopped it? -/
def State.hkAllowed (s : State) : Bool := s.windowIn 7 && !s.flash.hkStopped

/-- Start the erases of sources whose last record is programmed (R324), while housekeeping may write (R4, R308). -/
def State.startErases (s : State) : State :=
  if !s.hkAllowed then s else
  (s.flash.eraseQ.filter fun e => e.2 ≤ s.reg 0x701008).foldl (fun s e => s.setFblock { s.fblock e.1 with erasing := true }) s

/-- R315: the journal page in progress is programmed. Its records take effect in order, and the next page starts. -/
def execJournalPageProgrammed (s : State) : Res := live s fun s =>
  match s.flash.inPage.getLast? with
  | none => s
  | some last =>
    let rs := s.flash.inPage
    let s := { s with flash := { s.flash with inPage := [], journal := s.flash.journal ++ rs } }
    let s := ((rs.foldl State.applyRec s).bump 0xE0B019 rs.length).setReg 0x701008 last.seq
    let s := { s with flash := { s.flash with journal := s.flash.journal.filter fun r => s.flash.ckptSeq ≤ r.seq } }
    s.startErases.startPage.flashRegs

/-! ### Windows (R306, R308, R330, R331) -/

/-- Take the queued discards (R326). -/
def State.takeDiscards (s : State) : State :=
  let ds := s.flash.discards
  let n := ds.foldl (fun a d => a + d.2) 0
  if ds.isEmpty then s else
  (({ s with flash := { s.flash with discards := [] } }.journal (ds.map fun (d : Nat × Nat) => (4, d.1, d.2))).bump 0xE0B01D n).startPage

/-- The discards that waited in their issuers are issued again, behind those of the queue (R326). -/
def State.issueWaiting (s : State) : State :=
  { s with flash := { s.flash with discards := s.flash.discards ++ s.flash.waitDiscards, waitDiscards := [] } }

/-- Open a window (R306, R331): queued discards are taken, housekeeping resumes (R308), a read-only region is writable again if the pool has reached the target,
and in a publish or recovery window the images that wait for it are written (R4). -/
def State.openWindow (s : State) (w : Nat) : State :=
  if bit (s.reg 0x701001) w then s else
  let s := s.setReg 0x701001 (s.reg 0x701001 + 2 ^ w)
  let s := { s with flash := { s.flash with winTicks := put s.flash.winTicks w s.now, hkStopped := false, levelled := 0 } }
  let s := if w ≤ 2 then s.issueWaiting.takeDiscards.startErases else s
  let s := if s.reg 0x702002 ≤ s.freeBlocks - s.reg 0x702003 then
      (s.regs.filter fun p => 0x704800 ≤ p.1 && p.1 < 0x704C00 && p.2 == 1).foldl (fun s p => s.setReg p.1 0) s
    else s
  (if w == 1 || w == 2 then s.writeImages else s).flashRegs

/-- R306: a window opens; the power-fail window opens with POWER_FAIL. -/
def execWindowOpen (w : Nat) (s : State) : Res := live s fun s => if w < 4 then s.openWindow w else s

/-- Does a build or a publish still run on this Molset that a publish window serves (R306)? -/
def State.publishing (s : State) : Bool := s.idx.any s.building

/-- R308: housekeeping reaches the limit in ticks and stops at the end of the step in hand. In a publish window it counts from the end of the publish (R306). -/
def execHousekeepingLimit (w : Nat) (s : State) : Res := live s fun s =>
  match lk s.flash.winTicks w with
  | some t =>
    if bit (s.reg 0x701001) w && t + s.reg 0x70200D ≤ s.now && !(w == 1 && s.publishing) then { s with flash := { s.flash with hkStopped := true } } else s
  | none => s

/-! ### Programs (R314, R321, R324, R325) -/

/-- Cut packed blocks into pages: at most 32 blocks and 232 sectors a page, in order (R314). -/
def cutPages (xs : List FStored) : List (List FStored) :=
  let (done, cur, _) := xs.foldl (fun (a : List (List FStored) × List FStored × Nat) x =>
    let (done, cur, used) := a
    if cur.length < 32 && used + x.count ≤ 232 then (done, cur ++ [{ x with sector := used }], used + x.count)
    else (done ++ [cur], [{ x with sector := 0 }], x.count)) ([], [], 0)
  if cur.isEmpty then done else done ++ [cur]

/-- Program one page: into the open block of its kind, or a new one (R321). -/
def State.programPage (s : State) (slc worn : Bool) (why : Nat) (src : Option Nat) (xs : List FStored) : Option State :=
  match (if worn then s.openBlock slc true else match s.openOf slc with | some b => some (s, b) | none => s.openBlock slc false) with
  | none => none
  | some (s, b) =>
    let stored := xs.map fun x => { x with block := b.addr, page := b.next, wseq := s.flash.wseq }
    let p : FProg := { id := s.flash.nextProg, block := b.addr, page := b.next, slc, stored, src, why }
    let s := s.setFblock { b with next := b.next + 1 }
    some { s with flash := { s.flash with progs := s.flash.progs ++ [p], nextProg := s.flash.nextProg + 1, wseq := s.flash.wseq + 1 } }

/-- Do new writes go to SLC blocks (R321)? -/
def State.toSlc (s : State) : Bool := s.slcBlocks < s.slcLimit

/-- Program packed blocks; `reserve` says that the writer may use the reserve (R321). -/
def State.program (s : State) (native worn : Bool) (why : Nat) (src : Option Nat) (xs : List FStored) : State :=
  (cutPages xs).foldl (fun s page =>
    let slc := !native && s.toSlc
    match s.programPage slc worn why src page with | some s => s | none => s) s

/-- May pages be programmed without a new block: the open blocks have room for them? -/
def State.openRoom (s : State) (n : Nat) : Bool :=
  n ≤ (match s.openOf (s.toSlc) with | some b => s.reg 0x700005 - b.next | none => 0)

/-- R307, R315: a flash write request is refused, or its blocks are packed and their pages programmed. A mode-0 block needs no page. A write that
needs a block while none is left turns its region read-only (R330). -/
def execFlashWrite (tenant block : Nat) (data : List (List Byte)) (windows : Nat) (s : State) : Res := live s fun s =>
  let packed := (data.zipIdx).map fun (d, i) =>
    let (mode, bs) := packBlock ((d ++ List.replicate 4096 0#8).take 4096)
    ({ block := 0, page := 0, sector := 0, count := bs.length / 64, mode, logical := block + i, wseq := 0, tenant, data := bs } : FStored)
  let real := packed.filter fun x => x.mode != 0
  if !s.windowIn windows then s.refuseWrite 0x0601
  else if s.reg (pagedKey 0x7048 tenant) == 1 then s.refuseWrite 0x0602
  else if !s.inRegion tenant block data.length then s.refuseWrite 0x0604
  else if s.flashFull && !s.openRoom (cutPages real).length then
    ((s.refuseWrite 0x0603).setReg (pagedKey 0x7048 tenant) 1).bump 0xE0B01F 1
  else if s.freeBlocks ≤ s.reg 0x702003 && !s.openRoom (cutPages real).length then s
  else
    let zeros := packed.filter fun x => x.mode == 0
    let s := (s.journal (zeros.map fun (x : FStored) => (1, x.logical, 0))).bump 0xE0B008 zeros.length
    ((s.program false false 0 none real).startPage).flashRegs

/-- A program succeeds: its map-set records are appended and the journal page that holds them is programmed (R315, R324). -/
def State.programOk (s : State) (p : FProg) : State :=
  let s := { s with flash := { s.flash with progs := s.flash.progs.filter (fun (q : FProg) => q.id != p.id), stored := s.flash.stored ++ p.stored } }
  let e (x : FStored) : Nat := entryBits { mode := x.mode, sectors := x.count, block := x.block, page := x.page, sector := x.sector, discarded := false, slc := p.slc }
  ((s.bump 0xE0B009 1).journal (p.stored.map fun x => (1, x.logical, e x))).startPage

/-- Retire a block (R325): causes 1 program failure, 2 erase failure, 3 worn. -/
def State.retire (s : State) (a cause : Nat) : State :=
  let s := s.setFblock { s.fblock a with retired := true, free := false, erasing := false }
  ((s.journal [(5, a, cause)]).bump 0xE0B011 1).startPage

/-- A program fails: the block is retired, and the page's data go to another block (R325). -/
def State.programBad (s : State) (p : FProg) : State :=
  let s := { s with flash := { s.flash with progs := s.flash.progs.filter fun q => q.id != p.id } }
  let s := (s.bump 0xE0B012 1).retire p.block 1
  match s.programPage p.slc false p.why p.src p.stored with | some s => s | none => s

/-- R315, R325: the program of a page of written data ends. -/
def execPageProgramDone (id : Nat) (ok : Bool) (s : State) : Res := live s fun s =>
  match s.flash.progs.find? fun p => p.id == id && p.why == 0 with
  | none => s
  | some p => (if ok then (s.programOk p).bump 0xE0B008 p.stored.length else s.programBad p).flashRegs

/-- Every packed block of a source is copied: it is erased once the journal page of the last record is programmed (R324). -/
def State.queueErase (s : State) (a : Nat) : State :=
  if s.flash.eraseQ.any (·.1 == a) || s.flash.progs.any (·.src == some a) then s else
  { s with flash := { s.flash with eraseQ := s.flash.eraseQ ++ [(a, s.flash.nextRec - 1)] } }.startErases

/-- R324, R325: the program of a copied page ends. -/
def execCopyProgramDone (id : Nat) (ok : Bool) (s : State) : Res := live s fun s =>
  match s.flash.progs.find? fun p => p.id == id && p.why != 0 with
  | none => s
  | some p =>
    if !ok then (s.programBad p).flashRegs else
    let s := s.programOk p
    let s := if p.why == 1 then s.bump 0xE0B00C p.stored.length else s
    (match p.src with | some a => s.queueErase a | none => s).flashRegs

/-- R324, R325: the erase of a source block ends. A failed or a worn block is retired. -/
def execEraseDone (block : Nat) (ok : Bool) (s : State) : Res := live s fun s =>
  let b := s.fblock block
  if !b.erasing || !s.flash.eraseQ.any (·.1 == block) then s else
  let s := { s with flash := { s.flash with
      eraseQ := s.flash.eraseQ.filter fun e => e.1 != block, stored := s.flash.stored.filter fun x => x.block != block } }
  if !ok then ((s.bump 0xE0B012 1).retire block 2).flashRegs
  else
    let n := b.erases + 1
    let s := (s.bump 0xE0B00A 1).journal [(3, block, n)]
    let s := s.setFblock { b with erases := n, erasing := false, free := true, next := 0, reads := 0, due := false }
    let limit := s.reg 0x70200A
    (if limit != 0 && limit ≤ n then s.retire block 3 else s.startPage).flashRegs

/-! ### Reading (R318, R319, R320, R326, R475) -/

/-- The flash copy of a map page is read and the page installed (R318). -/
def State.mapFromFlash (s : State) (p : Nat) : State :=
  ({ s with flash := { s.flash with asked := s.flash.asked.filter (· != p) } }.bump 0xE0B018 1).cachePage p

/-- Look for a map page (R318): the cache; or the host's slot, which is asked for; or the flash copy. False while the host is awaited. -/
def State.lookPage (s : State) (p : Nat) : State × Bool :=
  if s.flash.cache.contains p then (s.cachePage p, true)
  else if s.flash.asked.contains p then (s, false)
  else
    let s := s.bump 0xE0B014 1
    let n := s.reg 0x703003
    if n == 0 || s.link.error then (s.mapFromFlash p, true) else
    let at_ := s.reg 0x703002 + 4160 * (p % n)
    ({ s with flash := { s.flash with asked := s.flash.asked ++ [p] } }.hostAsk 1 (at_, []) (at_ + 4096, []), false)

/-- R319, R417: a logical block is read through the decode ladder; a bulk read is charged to its tenant's queue here, a re-rank read where it is asked for.
The read waits until recovery has ended (R329) and its map page is found; a read beyond the bound is late (R300), one of a block whose tag is wrong is unreadable
(R475), and one of a discarded block is flagged (R326). -/
def execFlashRead (tenant block retries : Nat) (soft ok tagOk : Bool) (ns : Nat) (suspended latency : Bool) (s : State) : Res := live s fun s =>
  if s.windowIn 16 || s.flash.recovering || !s.inRegion tenant block 1 then s else
  let (s, found) := s.lookPage (mapPage block)
  if !found then s else
  let e := s.fentry block
  let s := (s.bump 0xE0B001 1).bump 0xE0B002 4096
  let s := s.bumpIf e.discarded 0xE0B006
  let s := s.bumpIf (s.reg 0x602003 < ns) 0xE0A003
  let s := if latency then s.bumpIf suspended 0xE0B013 else s.serveNow 2 (tenant, true, 1)
  if e.mode == 0 then s else
  let ch := blockChannel e.block
  let s := ((s.bump 0xE0B003 retries).score partFlash ch (b2n (0 < retries || soft))).bumpIf soft 0xE0B004
  let s := s.bumpIf (!(ok && tagOk)) 0xE0B005
  let s := s.bumpIf (ok && !tagOk) 0xE10010
  let b := s.fblock e.block
  s.setFblock { b with reads := b.reads + 1, due := b.due || soft }

/-- R318: a cold-map record arrives from the host. It is accepted if page, version and tag are right; a wrong version or tag is reported to part
scoring. -/
def execColdMapRecord (page recPage version : Nat) (tagOk : Bool) (entries : List W64) (s : State) : Res := live s fun s =>
  if !s.flash.asked.contains page then s
  else if recPage != page then s.mapFromFlash page
  else if version != (lk s.flash.dirVer page).getD 0 || !tagOk then
    ((s.bump 0xE0B016 1).score partHost 0 1024).mapFromFlash page
  else
    let map := (entries.zipIdx).foldl (fun m (e, i) => if i < 512 then setEntry m (512 * page + i) (entryOfBits e.toNat) else m) s.flash.map
    ({ s with flash := { s.flash with asked := s.flash.asked.filter (· != page), map } }.bump 0xE0B015 1).cachePage page

/-- R318: the record of a cold slot is late beyond the bound, and the flash copy is read. -/
def execColdMapTimeout (page : Nat) (s : State) : Res := live s fun s =>
  if s.flash.asked.contains page then (s.bump 0xE0B017 1).mapFromFlash page else s

/-- R320: a block whose read count reached the limit is scanned. -/
def execDisturbScan (block used : Nat) (ladder : Bool) (s : State) : Res := live s fun s =>
  let b := s.fblock block
  if b.free || b.retired || b.reads < s.reg 0x702008 then s else
  let s := s.bump 0xE0B00F 1
  s.setFblock (if s.reg 0x702009 < used || ladder then { b with due := true } else { b with reads := 0 })

/-! ### Housekeeping (R320 to R324) -/

/-- May a block be a source: closed, not on its way to an erase, and with no valid block of a tenant without keys (R322, R475)? -/
def State.mayCopy (s : State) (b : FBlock) : Bool :=
  !b.free && !b.retired && !b.erasing && b.next == s.reg 0x700005 && !s.flash.eraseQ.any (·.1 == b.addr) && !s.flash.progs.any (fun p => p.src == some b.addr || p.block == b.addr) &&
  (s.validIn b.addr).all fun x => s.keyed x.tenant

/-- The valid pages of a block (R322). -/
def State.validPages (s : State) (a : Nat) : Nat := (((s.validIn a).map (·.page)).eraseDups).length

/-- Copy the valid blocks of a source (R324). Discarded entries that name it become mode 0 with the discarded bit (R326). -/
def State.copyBlock (s : State) (a why : Nat) (native worn : Bool) : State :=
  let xs := s.validIn a
  let gone := s.flash.map.filter fun e => e.2.discarded && e.2.block == a && e.2.mode != 0
  let s := s.journal (gone.map fun e => (1, e.1, entryBits { zeroEntry with discarded := true }))
  let s := (s.program native worn why (some a) xs).startPage
  (if xs.isEmpty then s.queueErase a else s).flashRegs

/-- R320: a refresh copies the valid blocks of a disturbed block, in a recovery window. -/
def execRefresh (block : Nat) (s : State) : Res := live s fun s =>
  let b := s.fblock block
  if !b.due || b.free || b.retired || b.erasing || s.flash.eraseQ.any (·.1 == block) || !(s.validIn block).all fun x => s.keyed x.tenant then s else
  let s := ((s.openWindow 2).bump 0xE0B010 1).setFblock { b with due := false, next := s.reg 0x700005 }
  s.copyBlock block 2 false false

/-- May flush and levelling take a block: the pool holds more than the reserve (R321)? -/
def State.abovePool (s : State) : Bool := s.reg 0x702003 < s.freeBlocks

/-- The block that the SLC flush copies next (R321): the oldest one, while SLC blocks exceed the limit. -/
def State.flushPick (s : State) : Option FBlock :=
  if s.slcBlocks ≤ s.slcLimit || !s.abovePool then none else
  (s.usedBlocks.filter fun b => b.slc && s.mayCopy b).foldl (fun (o : Option FBlock) b =>
    match o with | none => some b | some m => if b.opened < m.opened then some b else o) none

/-- R321: the oldest SLC block beyond the limit is copied into native blocks. -/
def execSlcFlush (s : State) : Res := live s fun s =>
  if !s.hkAllowed then s else
  match s.flushPick with
  | some b => (s.bump 0xE0B00E 1).copyBlock b.addr 3 true false
  | none => s

/-- Does reclaim run: it starts below the trigger and stops at the target (R322)? -/
def State.wantsReclaim (s : State) : Bool :=
  let free := s.freeBlocks - s.reg 0x702003
  free < s.reg 0x702001 || (s.flash.reclaiming && free < s.reg 0x702002)

/-- The victim of reclaim (R322): the closed block with the fewest valid pages, ties to the lowest address. -/
def State.reclaimPick (s : State) : Option FBlock :=
  ((s.usedBlocks.filter s.mayCopy).foldl (fun (o : Option (FBlock × Nat)) b =>
    let n := s.validPages b.addr
    match o with | none => some (b, n) | some (m, k) => if n < k || (n == k && b.addr < m.addr) then some (b, n) else o) none).map (·.1)

/-- R322: one pass of reclaim. -/
def execReclaim (s : State) : Res := live s fun s =>
  if !s.hkAllowed || !s.wantsReclaim then { s with flash := { s.flash with reclaiming := false } } else
  match s.reclaimPick with
  | some b => ({ s with flash := { s.flash with reclaiming := true } }.bump 0xE0B00B 1).copyBlock b.addr 1 false false
  | none => s

/-- The block that levelling moves next (R323): that of lowest erase count with valid data, while the spread exceeds its limit and the window has moves left. -/
def State.levelPick (s : State) : Option FBlock :=
  if s.wearSpread ≤ s.reg 0x702005 || s.reg 0x702006 ≤ s.flash.levelled || !s.abovePool then none else
  (s.usedBlocks.filter fun b => !b.slc && s.mayCopy b && !(s.validIn b.addr).isEmpty).foldl (fun (o : Option FBlock) b =>
    match o with | none => some b | some m => if b.erases < m.erases || (b.erases == m.erases && b.addr < m.addr) then some b else o) none

/-- R323: static wear levelling moves the coldest valid data into the most worn free block. -/
def execWearLevelling (s : State) : Res := live s fun s =>
  if !s.hkAllowed then s else
  match s.levelPick with
  | some b => ({ s with flash := { s.flash with levelled := s.flash.levelled + 1 } }.bump 0xE0B00D 1).copyBlock b.addr 4 true true
  | none => s

/-! ### The end of a window (R306, R308) -/

/-- Is the layer's work done: no program, no erase in hand, nothing to journal, and no copy waiting for its erase, unless housekeeping has stopped (R4, R308)? -/
def State.flashIdle (s : State) : Bool :=
  s.flash.progs.isEmpty && s.flash.buffer.isEmpty && s.flash.inPage.isEmpty && !s.flash.eraseQ.any (fun e => (s.fblock e.1).erasing) &&
  (s.flash.hkStopped || s.flash.eraseQ.isEmpty)

/-- Is housekeeping done (R306, R321 to R323, R326, R327): it has stopped at its limit, or no task has anything left that it may do? -/
def State.hkDone (s : State) : Bool :=
  s.flash.hkStopped ||
  (s.flash.discards.isEmpty && s.flushPick.isNone && s.levelPick.isNone && !(s.wantsReclaim && s.reclaimPick.isSome) && (s.flash.dirty.isEmpty || !s.canAdvance))

/-- Is the work over for which a window opened (R306): recovery, the publish, the new images and due refreshes, or the vendor's test? -/
def State.windowWorkDone (s : State) (w : Nat) : Bool :=
  match w with
  | 0 => !s.flash.recovering
  | 1 => !s.publishing
  | 2 => s.idx.all (fun x => x.heldWait.isEmpty) &&
      !s.usedBlocks.any fun b => b.due && !b.retired && !b.erasing && !s.flash.eraseQ.any (·.1 == b.addr) && (s.validIn b.addr).all fun x => s.keyed x.tenant
  | _ => true

/-- R306: a window closes once its work and housekeeping are done; the test window when the test ends. -/
def execWindowClose (w : Nat) (s : State) : Res := live s fun s =>
  if w < 4 && bit (s.reg 0x701001) w && s.flashIdle && s.windowWorkDone w && (w == 3 || s.hkDone) then
    { s.setReg 0x701001 (s.reg 0x701001 - 2 ^ w) with flash := { s.flash with reclaiming := false, winTicks := del s.flash.winTicks w } }
  else s

/-! ### Discards (R326) -/

/-- Issue a discard of whole logical blocks (R326): taken in a window, else queued; one that finds the queue full waits in its issuer for the next window. -/
def State.discardBlocks (s : State) (block n : Nat) : State :=
  if n == 0 then s else
  let queued := { s with flash := { s.flash with discards := s.flash.discards ++ [(block, n)] } }
  if s.windowIn 7 then queued.takeDiscards.flashRegs
  else if s.reg 0x70200C < s.flash.discards.foldl (fun a d => a + d.2) 0 + n then
    { s with flash := { s.flash with waitDiscards := s.flash.waitDiscards ++ [(block, n)] } }
  else queued.flashRegs

/-- R326: a discard; one of part of a block is ignored. -/
def execDiscard (tenant addr len : Nat) (s : State) : Res := live s fun s =>
  if addr % 4096 != 0 || len % 4096 != 0 then s.bump 0xE0B01E 1
  else if s.inRegion tenant (addr / 4096) (len / 4096) then s.discardBlocks (addr / 4096) (len / 4096) else s

/-- The discard of a tenant's whole region (R472). -/
def State.discardRegion (s : State) (t : Nat) : State :=
  s.discardBlocks (s.reg (pagedKey 0x7040 t) / 4096) (s.reg (pagedKey 0x7044 t) / 4096)

/-! ### Checkpoints and recovery (R327, R329) -/

/-- R327, R479, R480: dirty map pages are flushed, the directory is checkpointed, a kind-7 record journalled and counter 3 raised; a checkpoint waits
while too few witnesses are live. Where a flushed page's copy lies is a free value. -/
def execDirectoryCheckpoint (s : State) : Res := live s fun s =>
  if !s.windowIn 7 || !s.canAdvance then s else
  let n := s.nextCounter 3
  let s := s.flash.dirty.foldl (fun s p =>
    let (n, s) := s.draw
    s.journal [(6, p, Config.freeNat n % 2 ^ 64)]) s
  let s := { s with flash := { s.flash with dirty := [] } }
  ((s.journal [(7, n, s.flash.nextRec - 1)]).startPage).wantAdvance 3 n

/-- Erase a block at recovery (R329). -/
def State.eraseAtRecovery (s : State) (b : FBlock) : State :=
  let s := (s.bump 0xE0B00A 1).journal [(3, b.addr, b.erases + 1)]
  let s := s.setFblock { b with erases := b.erases + 1, free := true, erasing := false, next := 0, reads := 0, due := false }
  { s with flash := { s.flash with stored := s.flash.stored.filter fun x => x.block != b.addr } }

/-- R329, R481: the start-up window recovers the layer: the newest checkpoint, if counter 3 accepts it, the programmed journal up to the first page whose CRC fails, orphans, and
erases that are missing or were interrupted. -/
def execPowerLossRecovery (lostPages : Nat) (s : State) : Res := live s fun s =>
  if !bit (s.reg 0x701001) 0 || !s.flash.recovering || !s.flash.progs.isEmpty || !s.flash.inPage.isEmpty then s else
  let s := if s.accepts 3 s.flash.ckpt then s else { s with flash := { s.flash with ckpt := s.reg 0xA02003, ckptSeq := 0, ckptMap := [], ckptVer := [], ckptReads := [] } }
  let kept := s.flash.journal.filter fun r => s.flash.ckptSeq < r.seq && r.page + lostPages < s.flash.nextPage
  let s := { s with flash := { s.flash with
      map := s.flash.ckptMap, dirVer := s.flash.ckptVer, dirty := [], cache := [], asked := [], eraseQ := [], journal := kept, recovering := false
      nextRec := ((kept.getLast?.map (·.seq)).getD s.flash.ckptSeq) + 1
      blocks := s.flash.blocks.map fun x => (x.1, { x.2 with reads := if kept.any (fun r => r.kind == 3 && r.subject == x.1) then 0 else (lk s.flash.ckptReads x.1).getD 0 }) } }
  let s := (kept.foldl State.applyRec s).setReg 0x701008 (s.flash.nextRec - 1)
  let s := s.usedBlocks.foldl (fun s b =>
    if b.retired then s
    else if b.erasing then (s.eraseAtRecovery b).bump 0xE0B01C 1
    else if !(s.validIn b.addr).isEmpty then s
    else (s.eraseAtRecovery b).bump (if s.flash.ckptSeq < b.opened then 0xE0B01B else 0xE0B01C) 1) s
  (s.bump 0xE0B01A 1).startPage.flashRegs

/-- R328: what power failure does to the layer: nothing new is issued, the journal page in progress finishes, and a data page in progress finishes or
not (a free value). -/
def State.flashPowerFail (s : State) : State :=
  let s := s.setReg 0x701001 16
  let s := s.flash.progs.foldl (fun s p =>
    let (n, s) := s.draw
    if Config.freeNat n % 2 == 1 then { s with flash := { s.flash with stored := s.flash.stored ++ p.stored } } else s) s
  { s with flash := { s.flash with progs := [], buffer := [], journal := s.flash.journal ++ s.flash.inPage, inPage := [], discards := [] } }

/-- R309: a flash channel is trained again after a temperature change of 20 °C. -/
def execFlashChannelRetrain (ch : Nat) (s : State) : Res := live s fun s =>
  if ch < 32 && s.reg (0x700101 + ch) == 0 then { s with flash := { s.flash with trained := put s.flash.trained ch s.now } } else s

end Sys2Proof.Machine
end

