-- ==== Sys2Proof/Machine/Sched.lean ====
section
/-! DEFINITION. Fairness and admission (R402 to R423): token buckets, the query budget and its debt, the admission of a tick, sampling and backpressure. -/

namespace Sys2Proof.Machine

/-! ### The budget (R410) -/

/-- Shingles per work window, those of the shorter window in the three ticks before a period switch (R39, R410). The window of a frame whose edge ended
late is shorter by the cycles of the excess (R23), of 1,900 to the µs and 300 shingles to the µs (R29). -/
def State.windowShingles (s : State) : Nat :=
  let w := match s.time.change with
    | some c => if s.ftick < c.switch && c.switch ≤ s.ftick + 3 then min (s.reg 0x200206) (300 * (c.period - 8)) else s.reg 0x200206
    | none => s.reg 0x200206
  w - cdiv (s.time.edgeExcess * 300) 1900

/-- The spindles left for search, n_s (R261, R410). -/
def State.searchCount (s : State) : Nat :=
  (s.upSpindles.filter fun n => !s.ctl.denseSet.contains n && !s.ctl.gatherSet.contains n && !s.ctl.lent.any (·.2.1 == n)).length

/-- The full budget A0 of the tick (R410). -/
def State.fullBudget (s : State) : Nat := min (s.reg 0xB00002) (s.windowShingles * s.searchCount * s.reg 0xB00003 / (384 * 256))

/-! ### Admission (R411 to R414) -/

/-- What the loop of R414 has counted in this tick: units used, queries, dense jobs, gather and scatter jobs. -/
structure AdmCnt where
  used : Nat := 0
  queries : Nat := 0
  entries : Nat := 0
  dense : Nat := 0
  gather : Nat := 0
  deriving DecidableEq, Repr

/-- The head of a ring: the first entry that has not left. -/
def ringHead (r : Ring) : Option Nat := ((List.range (r.p - r.cLive)).map (· + r.cLive + 1)).find? fun n => !r.gone.contains n

/-- The head of a ring, if it passed its check. -/
def readyHead (r : Ring) : Option Ready := (ringHead r).bind fun n => r.ready.find? fun x => x.seq == n

/-- Have the limits of its kind room for an entry (R409, R411, R412)? At most 0x402001 entries are admitted (R142). -/
def State.kindRoom (s : State) (t : Nat) (x : Ready) (c : AdmCnt) : Bool :=
  if x.kind == 1 then c.entries < s.reg 0x402001
  else if x.kind == 7 then c.dense < s.reg 0x50000D && s.jobSlot.isSome && (s.frameCount s.denseCount s.denseLoad x.cost).isSome
  else if x.kind == 0xB || x.kind == 0xC then
    c.gather < s.reg 0x580006 && s.gatherSlot.isSome &&
    (match s.gatherFrames x.cost with | some f => x.kind == 0xC || x.bulk || f == 1 | none => false) && t < 1024
  else true

/-- Has the query budget room (R412, R413)? `a0` is the full budget, `a` what is left after the repayment; `d0`: the debt was 0, and a spindle is left for
search (without one no query is admitted, R261). -/
def budgetOk (a0 a : Nat) (d0 : Bool) (x : Ready) (c : AdmCnt) : Bool :=
  x.kind != 1 || (if a0 < x.cost then d0 && c.queries == 0 else x.cost ≤ a - c.used)

/-- Give the heads of the rings their tags (R404, R405): a ring without an eligible head sleeps; one that wakes is tagged and counted. -/
def State.tagRing (s : State) (r : Ring) (c : AdmCnt) : State :=
  let q := s.wq 0 r.tenant false
  match readyHead r with
  | some x =>
    if s.bucketOk r.tenant 0 x.bulk && s.room r.tenant && s.kindRoom r.tenant x c then
      if q.head.isSome then s else
      let w := s.weightOf r.tenant x.bulk
      let start := max (s.reg 0xB0000A) q.flast
      (s.setWq { q with head := some (start, start + cdiv (x.cost * 65536) w, w), asleep := false }).bumpIf q.asleep 0xE0E008
    else s.setWq { q with head := none, asleep := true }
  | none => if q.asleep && q.head.isNone then s else s.setWq { q with head := none, asleep := true }

/-- Admit one entry into its kind's engine (R409); `qidx` is the query index. -/
def State.admitKind (s : State) (t : Nat) (x : Ready) (qidx : Nat) : State :=
  match x.kind with
  | 1 => s.admitQuery t x.seq qidx
  | 2 => s.admitUpdate t x.seq
  | 3 => s.admitIndex t x.seq
  | 4 => s.admitBuild t x.seq
  | 5 => s.admitFilter t x.seq
  | 6 => s.admitModel t x.seq
  | 7 => s.admitDense t x.seq
  | 8 => s.admitTable t x.seq
  | 9 => s.admitStage t x.seq
  | 0xA => s.admitSwitch t x.seq
  | 0xB => s.admitGather t x.seq
  | 0xC => s.admitScatter t x.seq
  | _ => s.admitPlacement t x.seq

/-- The loop of R414. -/
def admitLoop (a0 a : Nat) (d0 : Bool) : Nat → AdmCnt → State → State × AdmCnt
  | 0, c, s => (s, c)
  | n + 1, c, s =>
    let rings := s.rings.filter fun r => r.tenant != systemTenant
    let s := rings.foldl (fun s r => s.tagRing r c) s
    let heads := rings.filterMap fun r =>
      match readyHead r, (s.wq 0 r.tenant false).head with
      | some x, some h => if budgetOk a0 a d0 x c then some (r.tenant, x, h) else none
      | _, _ => none
    let key (h : Nat × Ready × (Nat × Nat × Nat)) : Nat × Bool × Nat := (h.2.2.2.1, h.2.1.bulk, h.1)
    match (sortBy (fun x y => headBefore (key x) (key y)) heads).head? with
    | none => (s, c)
    | some (t, x, h) =>
      let s := (s.leave t x.seq).admitKind t x c.queries
      let above := if x.kind == 1 then x.cost - a0 else 0
      let s := ((s.setReg 0xB0000A (max (s.reg 0xB0000A) h.1)).setReg 0xB00004 (s.reg 0xB00004 + above)).bump 0xE0E007 above
      let s := (s.bumpIf (0 < above) 0xE0E009).setWq { s.wq 0 t false with flast := h.2.1, head := none }
      let s := ((s.bucketTake t 0 x.bulk x.cost).bump 0xE0E001 1).bump 0xE0E006 x.cost
      let c : AdmCnt := {
        used := if x.kind == 1 then c.used + x.cost else c.used, queries := c.queries + b2n (x.kind == 1), entries := c.entries + b2n (x.kind == 1)
        dense := c.dense + b2n (x.kind == 7), gather := c.gather + b2n (x.kind == 0xB || x.kind == 0xC) }
      admitLoop a0 a d0 n c s

/-- Why a ring's head was not admitted (R420). -/
def State.headReason (s : State) (r : Ring) (c : AdmCnt) : Nat :=
  if !s.admits then 4
  else
    match readyHead r with
    | none => 3
    | some x => if !s.bucketOk r.tenant 0 x.bulk then 2 else if !s.room r.tenant || !s.kindRoom r.tenant x c then 3 else 1

/-- Entries of a ring that are covered and have not left. -/
def waitingSeqs (r : Ring) : List Nat := ((List.range (r.p - r.cLive)).map (· + r.cLive + 1)).filter fun n => !r.gone.contains n

/-- Step 9 of a tick (R142, R410 to R414): buckets refill, debt is repaid, and entries are admitted in fair order. -/
def State.admitTick (s : State) : State :=
  let s := s.refill [0]
  let a0 := s.fullBudget
  let d := s.reg 0xB00004
  let a := a0 - min d a0
  let s := (s.setReg 0xB00004 (d - min d a0)).setReg 0xB00001 a
  let fuel := s.rings.foldl (fun n r => n + r.ready.length) 1
  let (s, c) := if s.admits then admitLoop a0 a (d == 0 && 0 < s.searchCount) fuel {} s else (s, {})
  let rings := s.rings.filter fun r => r.tenant != systemTenant
  let left := rings.foldl (fun n r => n + (r.ready.filter (·.kind == 1)).length) 0
  let reasons := rings.filterMap fun r => if (waitingSeqs r).isEmpty then none else some (r.tenant, s.headReason r c)
  let full := rings.filter fun r => match readyHead r with | some x => !s.room r.tenant && r.held != x.seq | none => false
  ({ s with sched := { s.sched with reasons, queryNext := c.queries, admitted := c.used } }.bump 0xE05005 left).bump 0xE0F00F full.length

/-! ### Sampling (R420, R421) -/

/-- Sample one ring at cycle 0: depth, delay and peak per class, the counter of its reason, and its backpressure word. -/
def State.sampleRing (s : State) (r : Ring) : State :=
  let seqs := waitingSeqs r
  let t := r.tenant
  let reason := (lk s.sched.reasons t).getD 0
  let info := seqs.map fun n =>
    let x := r.ready.find? fun y => y.seq == n
    let f := ((r.first.find? fun y => y.1 == n).map (·.2)).getD (s.now, s.ns)
    ((match x with | some x => x.bulk | none => false), (match x with | some x => x.cost | none => 1), f)
  let one (s : State) (bulk : Bool) : State :=
    let l := info.filter (·.1 == bulk)
    let depth := l.foldl (fun n x => n + x.2.1) 0
    let delay := l.foldl (fun m x => max m (s.ns - x.2.2.2)) 0
    let k := 4 * b2n bulk
    ((s.setReg (pagedKey (0xB200 + k) t) depth).setReg (pagedKey (0xB240 + k) t) delay).setReg (pagedKey (0xB280 + k) t)
      (max delay (s.reg (pagedKey (0xB280 + k) t)))
  let s := one (one s false) true
  let n := seqs.length
  let s := match reason with
    | 1 => s.bump 0xE0E002 n
    | 2 => s.bump 0xE0E003 n
    | 3 => s.bump 0xE0E004 n
    | 4 => s.bump 0xE0E005 n
    | _ => s
  let ticks := match info.head? with | some x => s.now - x.2.2.1 | none => 0
  let word := if n == 0 then 0 else min n 0xFFFF + min ticks 0xFFFF * 65536 + reason * 2 ^ 32
  (s.setReg (pagedKey 0xB014 t) word).bumpIf (0 < n) 0xE0E00A

/-- A request that waits in a queue of resources 1 to 4: resource, tenant, class, cost, and the powered ns since when. -/
abbrev Waits := Nat × Nat × Bool × Nat × Nat

/-- A search item that waits to be dealt, in each queue that it serves (R416). -/
def State.itemWaits (s : State) (x : Item × List (QName × Nat) × Nat) : List Waits :=
  let it := x.1
  if it.kind != 0 then [] else
  let h := (s.findIdx it.tenant it.index).bind fun y => thatchOf y it.shard it.version
  let n := (h.bind fun h => ((h.im.shingles ++ h.delta).find? fun y => y.num == it.shingle).map (·.count)).getD 0
  let pars := x.2.1.filterMap fun q => (s.findCopy q.1 q.2).map (·.par)
  let cost (l : List QParams) : Nat := match h with | some h => l.foldl (fun a p => a + pairCycles h.im.m (imShape h.im) n p) 0 | none => 0
  [false, true].filterMap fun b => let l := pars.filter (·.bulk == b); if l.isEmpty then none else some (4, it.tenant, b, cost l, x.2.2)

/-- Everything that waits in the queues of resources 1 to 4 (R402, R420). -/
def State.waits (s : State) : List Waits :=
  (s.net.egress.filter (2 ≤ ·.cls)).map (fun e => (1, e.tenant, e.bulk, e.flits, e.since)) ++ s.sched.reads.map (fun r => (r.res, r.tenant, r.bulk, r.blocks, r.since)) ++
  s.ctl.redeal.flatMap s.itemWaits

/-- Sample the queues of resources 1 to 4 (R420): depth, delay and peak of each tenant and class; a queue without requests reads 0. For egress the depth
is the sum over the ports and the delay the largest. -/
def State.sampleShared (s : State) : State :=
  let shared (k : Key) : Bool := (pagedKey 0xB208 0 ≤ k && k < pagedKey 0xB228 0) || (pagedKey 0xB248 0 ≤ k && k < pagedKey 0xB268 0)
  let l := s.waits
  let s := { s with regs := s.regs.filter fun r => !shared r.1 }
  l.foldl (fun s w =>
    let (res, t, bulk, cost, since) := w
    if t == systemTenant then s else
    let k (base : Nat) : Key := pagedKey (base + 8 * res + 4 * b2n bulk) t
    let delay := max (s.ns - since) (s.reg (k 0xB240))
    ((s.setReg (k 0xB200) (s.reg (k 0xB200) + cost)).setReg (k 0xB240) delay).setReg (k 0xB280) (max delay (s.reg (k 0xB280)))) s

/-- The heads of resources 1 to 3 that a bucket blocks at this tick (R408). -/
def State.blockedHeads (s : State) : Nat :=
  let egress := ((s.net.egress.filter (2 ≤ ·.cls)).map fun e => (1, e.port, e.tenant, e.bulk)).eraseDups
  let reads := (s.sched.reads.map fun r => (r.res, 0, r.tenant, r.bulk)).eraseDups
  ((egress ++ reads).filter fun (q : Nat × Nat × Nat × Bool) => !s.bucketOk q.2.2.1 q.1 q.2.2.2).length

/-- The samples of cycle 0 (R420, R421), and the heads that buckets block (R408). -/
def State.sampleTick (s : State) : State :=
  let rings := s.rings.filter fun r => r.tenant != systemTenant
  let s := (rings.foldl State.sampleRing s).sampleShared
  (s.bump 0xE0E003 s.blockedHeads).setReg 0xB0000B (rings.filter fun r => !(waitingSeqs r).isEmpty).length

/-- R422: writing 1 clears the peak queue delays. -/
def execClearPeaks (v : Nat) (s : State) : Res := live s fun s =>
  if v == 1 then { s with regs := s.regs.filter fun r => !(pagedKey 0xB280 0 ≤ r.1 && r.1 < pagedKey 0xB2A8 0) } else s

end Sys2Proof.Machine
end

