-- ==== Sys2Proof/Machine/Host.lean ====
section
/-! DEFINITION. The host link (R424 to R447): UCIe modules, apertures and host requests, ring areas, and the capture and publication of their
sequences at a tick. -/

namespace Sys2Proof.Machine

/-! ### A tenant's keys (R455) -/

/-- PRK_T: Extract of a tenant's root key with the tenant and fabric IDs as salt (R455). -/
def State.tenantPrk (s : State) (t : Nat) (root : List Byte) : List Byte := Config.hmac (leBytes 2 t ++ leBytes 4 (s.reg 0x800004)) root

/-- The tenant's root key, while a slot of the key store holds it (R456). -/
def State.rootKey (s : State) (t : Nat) : Option (List Byte) := lk s.sec.rootKeys t

/-- The binding that a root key gives (R455). -/
def State.bindingOf (s : State) (t : Nat) (root : List Byte) : List Byte := Config.hkdf (s.tenantPrk t root) (ascii "binding") 8

/-- The tenant's command key (R455). -/
def State.tenantCmdKey (s : State) (t : Nat) : Option (List Byte) :=
  (s.rootKey t).map fun k => Config.hkdf (s.tenantPrk t k) (ascii "command" ++ leBytes 2 s.node) 32

/-- The tenant's host-link key (R455). -/
def State.hostKey (s : State) (t : Nat) : List Byte :=
  match s.rootKey t with
  | some k => Config.hkdf (s.tenantPrk t k) (ascii "hostlink" ++ leBytes 2 s.node) 64
  | none => []

/-- A unit of the cipher has 16 bytes. -/
def unit16 (bs : List Byte) : List Byte := (bs ++ List.replicate 16 0#8).take 16

/-- Data that cross the link by 16-byte units, each with its local address as the tweak (R473). -/
def linkCipher (f : List Byte → Nat → List Byte → List Byte) (k : List Byte) (addr : Nat) (bs : List Byte) : List Byte :=
  ((chunks 16 bs).zipIdx).flatMap fun (c, i) => (unit16 (f k (addr / 16 + i) c)).take c.length

/-! ### UCIe modules (R425, R426) -/

/-- A module carries flits: active, with or without repaired lanes. -/
def State.moduleUp (s : State) (m : Nat) : Bool := m < 4 && s.reg (0xC00101 + m) ≤ 1 && !s.link.error

/-- Report the link from its modules (R425): modules active, link state and payload rate; 15 / 16 of the lane rate is payload. -/
def State.linkRegs (s : State) : State :=
  let st := (List.range 4).map fun m => s.reg (0xC00101 + m)
  let n := (st.filter (· ≤ 1)).length
  let code := if s.link.error then 3 else if 0 < n then 1 else if st.contains 2 then 2 else 0
  ((s.setReg 0xC00001 n).setReg 0xC00003 code).setReg 0xC00004 (n * s.reg 0xC00002 * 15 / 2)

/-- R425, R426: a module's retraining ends; flits held for replay are sent again. One that fails 0xC000:09 times in a row is disabled and scored (R386). -/
def execUcieModuleRetrain (m : Nat) (r : RetrainEnd) (s : State) : Res := live s fun s =>
  if 4 ≤ m || s.reg (0xC00101 + m) == 3 || s.link.error then s else
  let s := s.bump 0xE0F004 1
  let u := s.ucie m
  let fails := if r.ok then 0 else u.fails + 1
  let s := s.setUcie m { u with fails, rxDrop := false }
  let out := !r.ok && s.reg 0xC00009 ≤ fails
  let s := s.setReg (0xC00101 + m) (if r.ok then b2n r.repaired else if out then 3 else 2)
  let s := if out then (s.bump 0xE0F005 1).score partHost 0 256 else s
  (if r.ok && 0 < u.held then s.bump 0xE0F001 u.held else s).linkRegs

/-- Flits of a module that the peer, which expects a sequence, has not taken yet (R426). -/
def hostHeld (u : Ucie) (expects : Nat) : Nat := let n := (u.txSeq + 4096 - expects % 4096) % 4096; if n ≤ u.held then n else u.held

/-- The peer expects a sequence next: what lies before it leaves the replay buffer, and transactions that have left it whole are done with (R426). -/
def State.hostAck (s : State) (m expects : Nat) : State :=
  let n := hostHeld (s.ucie m) expects
  let s := s.setUcie m { s.ucie m with held := n }
  if n == 0 then { s with link := { s.link with responses := s.link.responses.filter (·.m != m) } } else s

/-- R426: a flit whose CRC is right acknowledges. A data flit in its sequence is accepted; one with a wrong CRC or another sequence is discarded with every
later one, and one retry asks for the expected one; more than 16 retries in a frame retrain the module. A retry flit has this end replay from the flit that
it names. -/
def execUcieFlit (m : Nat) (crcOk : Bool) (f : HostFlit) (s : State) : Res := live s fun s =>
  if !s.moduleUp m then s else
  if crcOk && f.ty == 2 then
    let s := s.hostAck m f.ack
    if (s.ucie m).held == 0 then s else s.bump 0xE0F001 (s.ucie m).held
  else if crcOk && f.ty != 1 then (if f.ty == 0 then s.hostAck m (f.ack + 1) else s)
  else
    let u := s.ucie m
    if crcOk && f.seq % 4096 == u.rxSeq then
      ((s.hostAck m (f.ack + 1)).setUcie m { (s.hostAck m (f.ack + 1)).ucie m with rxSeq := (u.rxSeq + 1) % 4096, rxDrop := false }).bump 0xE0F002 1
    else if u.rxDrop then s
    else
      let s := (s.setUcie m { u with rxDrop := true, retries := u.retries + 1 }).bump 0xE0F003 1
      if 16 < u.retries + 1 then (s.setReg (0xC00101 + m) 2).linkRegs else s

/-- A new frame: the retries of each module are counted anew. -/
def State.linkTick (s : State) : State :=
  { s with link := { s.link with modules := s.link.modules.map fun u => { u with retries := 0 } } }

/-! ### Apertures and host requests (R428 to R430, R474) -/

/-- What an aperture maps (R429): tenant, first local address, bytes, and whether it may be read and written. -/
structure Aperture where
  tenant : Nat
  base : Nat
  bytes : Nat
  read : Bool
  write : Bool
  deriving DecidableEq, Repr

/-- The aperture that a register value lays out, if it is valid. -/
def apertureOf (v : Nat) : Option Aperture :=
  if bit v 0 then some {
    tenant := field v 12 3, base := field v 39 13 * pageSize, bytes := field v 59 40 * pageSize, read := bit v 1, write := bit v 2 }
  else none

/-- An aperture by its number; aperture 0 is the mailbox's (R448). -/
def State.aperture (s : State) (n : Nat) : Option Aperture :=
  if n == 0 then some { tenant := systemTenant, base := 0, bytes := 0x200000, read := true, write := true }
  else apertureOf (s.reg (pagedKey 0xC100 n))

/-- The checks of a host request, in the order of statuses 1, 2 and 4 (R430, R474). -/
def State.hostCheck (s : State) (addr len : Nat) (write : Bool) : Except Nat Aperture :=
  let off := addr % 2 ^ 48
  match (if addr < 2 ^ 60 then s.aperture (addr / 2 ^ 48) else none) with
  | none => .error 1
  | some a =>
    if a.bytes < off + len || !s.owned a.tenant (a.base + off) len then .error 1
    else if !(if write then a.write else a.read) then .error 2
    else
      let unit := if addr / 2 ^ 48 == 0 then 8 else 16
      if len < 8 || s.reg 0xC00007 < len || len % unit != 0 || off % unit != 0 || 4096 < off % 4096 + len then .error 4
      else .ok a

/-- R428, R430: a host read. -/
def execHostRead (m addr len tag : Nat) (bad badAgain : Bool) (s : State) : Res := live s fun s =>
  if !s.moduleUp m then s else
  match s.hostCheck addr len false with
  | .error st => s.hostAnswer m tag 2 st (List.replicate len 0xFF#8)
  | .ok a =>
    let local_ := a.base + addr % 2 ^ 48
    let (s, p) := s.readLine a.tenant local_ len bad badAgain
    if p then s.hostAnswer m tag 2 3 (List.replicate len 0xFF#8)
    else
      let bs := s.load a.tenant local_ len
      s.hostAnswer m tag 2 0 (if a.tenant == systemTenant then bs else linkCipher Config.xtsSeal (s.hostKey a.tenant) local_ bs)

/-- R428, R430: a host write. It is acknowledged once it is in memory; a write to a page in move waits for its switch (R296). -/
def execHostWrite (m addr : Nat) (data : List Byte) (tag : Nat) (s : State) : Res := live s fun s =>
  if !s.moduleUp m then s else
  match s.hostCheck addr data.length true with
  | .error st => s.hostAnswer m tag 4 st []
  | .ok a =>
    let local_ := a.base + addr % 2 ^ 48
    let bs := if a.tenant == systemTenant then data else linkCipher Config.xtsOpen (s.hostKey a.tenant) local_ data
    if s.rangeMoving a.tenant local_ bs.length then
      let s := { s with link := { s.link with outstanding := s.link.outstanding ++ [({ m, tag, op := 3, status := 0, data := [], addr } : HReq)] } }
      s.waitMove { tenant := a.tenant, addr := local_, data := bs, host := some (m, tag), peer := none }
    else (s.memWrite a.tenant local_ bs).hostAnswer m tag 4 0 []

/-- R431: the host answers a request of the Molset; a later completion of one that has been given up is discarded. -/
def execHostMemoryCompletion (tag : Nat) (data : List Byte) (s : State) : Res := live s fun s =>
  let mine (r : HReq) : Bool := r.tag == tag && (if r.op == 1 then !data.isEmpty else r.op == 3)
  { s with link := { s.link with toHost := s.link.toHost.filter fun r => !mine r } }

/-! ### Ring areas (R433 to R436, R445, R446) -/

/-- The bytes of a ring area (R433). -/
def State.ringBytes (s : State) (t : Nat) : Nat := 256 + s.ringA t * 128 + s.ringB t * 128

/-- The local page numbers of a ring area. -/
def State.ringPages (s : State) (t : Nat) : List Nat :=
  (List.range (cdiv (s.ringBytes t) pageSize)).map (s.ringBase t / pageSize + ·)

/-- Is a page of a tenant part of a region (R287)? -/
def State.regionHas (s : State) (t page : Nat) : Bool :=
  s.tier.regions.any fun r => r.tenant == t && r.page ≤ page && page < r.page + r.count

/-- A tenant's ring pages that no region holds: they are a structure of the Molset, in the stacks (R288, R289). -/
def State.ownRingPages (s : State) (t : Nat) : List Page :=
  let ps := s.ringPages t
  s.tier.pages.filter fun p => p.tenant == t && ps.contains p.page && !s.regionHas t p.page

/-- A setting of the ring area takes effect (R433): the pages of the former area are given up and those of the new one are allocated in the
stacks, the control block is cleared and every sequence starts at 0. -/
def State.setRingArea (s : State) (t : Nat) (set : State → State) : State :=
  let s := (s.ownRingPages t).foldl State.dropPage s
  let s := set s
  let need := (s.ringPages t).filter fun p => (s.pageAt t p).isNone
  let fits := s.canTake t false need.length && s.ringBase t + s.ringBytes t ≤ 2 ^ 48
  let s := if need.isEmpty then s
    else if fits then (s.allocPages t false need).zeroPages { id := 0, tenant := t, board := false, pages := need, region := 0, seq := 0, tag := 0, tick := s.ftick }
    else s.bump 0xE0A016 1
  let s := { s with
    mem := Memory.clear s.mem (memKey t (s.ringBase t)) 256
    poison := s.poison.filter fun l => !(linesOf t (s.ringBase t) 256).contains l }
  let s := (((s.setReg (pagedKey 0xC018 t) 0).setReg (pagedKey 0xC01C t) 0).setReg (pagedKey 0xC020 t) 0).setReg (pagedKey 0xC024 t) 0
  (s.setRing { tenant := t }).tierRegs t

/-- The rings that a tick samples: the mailbox, and those of tenants in service that are not torn down (R442, R448). -/
def State.ringSampled (s : State) (r : Ring) : Bool :=
  r.tenant == systemTenant || (s.inService r.tenant && s.ownedStacks r.tenant (s.ringBase r.tenant) (s.ringBytes r.tenant) &&
    !s.sec.tenants.any fun x => x.tenant == r.tenant && x.down)

/-- Capture one ring at cycle 0 (R436): p and h are accepted in their bounds, or the last values stay and the counters rise. Every sequence then
covers what came before cycle 0 (R446). -/
def State.captureRing (s : State) (r : Ring) : State :=
  if !s.ringSampled r then s else
  let t := r.tenant
  let base := s.ringBase t
  let p := s.loadNat t base 8
  let h := s.loadNat t (base + 64) 8
  let pOk := !s.poisoned t base 64 && r.p ≤ p && p ≤ r.cLive + s.ringA t
  let hOk := !s.poisoned t (base + 64) 64 && r.h ≤ h && h ≤ r.q
  let s := (s.bumpIf (!pOk) 0xE0F00D).bumpIf (!hOk) 0xE0F00E
  let p := if pOk then p else r.p
  let new := (List.range (p - r.p)).map fun i => (r.p + i + 1, s.now, s.ns)
  let s := if t == systemTenant then s else s.setReg (pagedKey 0xC024 t) p
  s.setRing { r with p, h := if hOk then h else r.h, c := r.cLive, t := r.tLive, writtenBefore := r.nextJ - 1, first := r.first ++ new }

/-- Capture every ring area. The mailbox's always exists (R448). -/
def State.captureRings (s : State) : State :=
  let s := if s.rings.any (·.tenant == systemTenant) then s else s.setRing { tenant := systemTenant }
  s.rings.foldl State.captureRing s

/-- Publish one ring in step 8 (R445, R446): q covers the completions written before cycle 0, and c, q and t stand in the control block and in the
dictionary. A late query counts as it is published (R31). -/
def State.publishRing (s : State) (r : Ring) : State :=
  if !s.ringSampled r then s else
  let t := r.tenant
  let q := r.writtenBefore
  let late := r.recent.filter fun x => x.j ≤ q && 0 < x.late
  let s := (s.bump 0xE01005 late.length).bump 0xE01006 (late.foldl (fun n x => n + x.late) 0)
  let s := s.memWrite t (s.ringBase t + 128) (leBytes 8 r.c ++ leBytes 8 q ++ leBytes 8 r.t ++ leBytes 8 s.ftick)
  let s := if t == systemTenant then s else ((s.setReg (pagedKey 0xC018 t) r.c).setReg (pagedKey 0xC01C t) q).setReg (pagedKey 0xC020 t) r.t
  s.setRing { r with q, recent := r.recent.filter fun x => q < x.j }

/-- Publish every ring. -/
def State.publishRings (s : State) : State := s.rings.foldl State.publishRing s

end Sys2Proof.Machine
end

