-- ==== Sys2Proof/Machine/Security.lean ====
section
/-! DEFINITION. Trust, keys and tenants (R453 to R484): link securing, firmware update, quotes, key records, tenant states and teardown, the signed
command's checks, and runtime checks. -/

namespace Sys2Proof.Machine

/-! ### Boot status (R459) -/

/-- A boot status other than 0 stops the Molset: the host link is held in its reset state and no fabric port stays past training (R459, R515). -/
def State.bootStop (s : State) (code : Nat) : State :=
  let s := (((s.setReg 0xA00001 code).setReg 0xD00001 3).setReg 0xC00003 0)
  (List.range 16).foldl (fun s p =>
    if s.portState p == 2 || s.portState p == 3 then (s.setPort p { lastRekey := (s.port p).lastRekey }).setPortState p 1 else s) s

/-! ### Securing a link (R476, R477, R481) -/

/-- The identity digest that a quote carries (R462). -/
def quoteDigest (q : List Byte) : List Byte := eBytes q 32 16

/-- Do the checks on a peer pass (R476): its chain and its quote over this end's nonce, its KEM key, its measurements and its security version? -/
def State.peerOk (s : State) (x : Securing) (own : List Byte) : Bool :=
  let q := x.quote
  Config.verify x.endorse x.attest (q.take 448) (q.drop 448) && eNat q 0 2 == 1 && eBytes q 48 32 == own && eBytes q 352 32 == Config.sha256 x.kem &&
  Config.signedImage (eBytes q 96 96) && s.counter 1 ≤ eNat q 12 4

/-- The keys that an exchange gives (R476): those of the direction sent and of the direction received. -/
def State.linkKeys (s : State) (x : Securing) (own digest : List Byte) : List Byte × List Byte :=
  let mine := s.blob 0xA00005
  let a := Config.kemShare x.kem own
  let b := Config.kemOpen (kemSeed s.measures) x.ct
  let first := digestLt mine digest
  let prk := if first then Config.hmac (own ++ x.nonce) (a ++ b) else Config.hmac (x.nonce ++ own) (b ++ a)
  (Config.hkdf prk (ascii "link" ++ mine) 32, Config.hkdf prk (ascii "link" ++ digest) 32)

/-- R476, R481: the exchange of a port in securing: the peer is checked, the counters that it witnesses are compared, and the link is keyed. A peer that
fails is refused; a counter region that has been rolled back stops the Molset. -/
def execLinkSecuring (port : Nat) (x : Securing) (own : List Byte) (s : State) : Res := live s fun s =>
  if !(port < 16 && s.portState port == 2) then s
  else if !s.peerOk x own then (s.bump 0xE1000B 1).refusePort port 0 0 1
  else
    let s := x.witnessed.foldl State.witnessed s
    if x.witnessed.any s.rolledBack then (((s.bump 0xE1000A 1).bump 0xE1000B 1).refusePort port 0 0 1).bootStop 8
    else
      let d := quoteDigest x.quote
      let (tx, rx) := s.linkKeys x own d
      s.setPort port { s.port port with keySet := true, txKey := tx, rxKey := rx, peerDigest := d, lastRekey := s.now }

/-- R477: a rekey is finished: each direction has a new key, in use from the switch count that its sender names, at least 0xA040:02 flits ahead. -/
def execRekey (port : Nat) (x : Securing) (r : RekeyEnd) (s : State) : Res := live s fun s =>
  let p := s.port port
  if !(port < 16 && s.portState port == 3 && p.keySet && (p.rekey.isSome || p.lastRekey + s.reg 0xA04001 ≤ s.now)) then s
  else
    let (tx, rx) := s.linkKeys x r.own p.peerDigest
    let at_ := (p.rekey.map (·.1)).getD (p.sent + s.reg 0xA04002)
    let p := { p with nextTx := some (at_, tx), nextRx := some (r.rxSwitch, rx), rekey := none, lastRekey := s.now }
    (s.setPort port p.switched).bump 0xE1000C 1

/-- At the rekey interval the end with the lower identity digest starts a rekey (R477). -/
def State.rekeyTick (s : State) : State :=
  { s with ports := s.ports.map fun (p : Nat × Port) =>
      if s.portState p.1 == 3 && p.2.rekey.isNone && p.2.lastRekey + s.reg 0xA04001 ≤ s.now && digestLt (s.blob 0xA00005) p.2.peerDigest then
        (p.1, { p.2 with rekey := some (p.2.sent + s.reg 0xA04002, s.now) })
      else p }

/-- R477: a rekey that is not finished within 16 ticks retrains the link. -/
def execRekeyTimeout (port : Nat) (s : State) : Res := live s fun s =>
  match (s.port port).rekey with
  | some (_, t) => if port < 16 && s.portState port == 3 && t + 16 ≤ s.now then s.retrain port else s
  | none => s

/-! ### Firmware (R460) -/

/-- The slot that did not boot. -/
def State.otherSlot (s : State) : Nat := 1 - s.reg 0xA00003

/-- A firmware slot. -/
def State.fwSlot (s : State) (n : Nat) : FwSlot := (lk s.sec.slots n).getD {}

/-- R460: a piece of an image goes into the slot that did not boot. -/
def execFirmwareImagePiece (off : Nat) (data : List Byte) (s : State) : Res := live s fun s =>
  let f := s.fwSlot s.otherSlot
  { s with sec := { s.sec with slots := put s.sec.slots s.otherSlot { f with pieces := put f.pieces off data } } }

/-- R460: the slot is verified: marked to be tried first at the next cold power-on, or the failing stage is kept. -/
def execFirmwareActivate (fail : Nat) (s : State) : Res := live s fun s =>
  let s := s.setReg 0xA00303 fail
  if fail != 0 then s else
  let o := s.otherSlot
  let slots := put (put s.sec.slots (1 - o) { s.fwSlot (1 - o) with first := false }) o { s.fwSlot o with first := true }
  { s with sec := { s.sec with slots } }

/-! ### Quotes (R462) -/

/-- R462: a quote is requested; a later request of the slot replaces it. -/
def execQuoteRequest (slot : Nat) (nonce : List Byte) (tenant : Nat) (s : State) : Res := live s fun s =>
  if slot < 1 || 16 < slot then s else
  let s := { s with sec := { s.sec with quotes := put s.sec.quotes slot (fixLen 32 nonce, tenant) } }
  s.setBlob (0xA01100 + slot) []

/-- Bytes 0 to 447 of a quote (R462). -/
def State.quoteBytes (s : State) (nonce : List Byte) (t : Nat) : List Byte :=
  let none_ := 1024 ≤ t
  leBytes 2 1 ++ leBytes 2 s.node ++ leBytes 4 (s.reg 0x800004) ++ leBytes 2 (s.reg 0x800003) ++ leBytes 2 0 ++ leBytes 4 (s.reg 0xA00002) ++
  fixLen 16 (s.blob 0xA00004) ++ fixLen 16 (s.blob 0xA00005) ++ nonce ++ leBytes 8 s.ns ++ leBytes 8 s.ftick ++
  ((List.range 8).flatMap fun i => fixLen 32 (s.blob (0xA00101 + i))) ++ fixLen 32 (Config.sha256 (s.blob 0xA00009)) ++
  ((List.range 4).flatMap fun i => leBytes 8 (s.counter (i + 1))) ++ leBytes 2 t ++
  leBytes 1 (if none_ then 0 else s.reg (pagedKey 0xA104 t)) ++ [0] ++ leBytes 8 (if none_ then 0 else s.reg (pagedKey 0xA10C t)) ++ leBytes 20 0

/-- R462: the quote is signed and can be read. -/
def execQuoteReady (slot : Nat) (s : State) : Res := live s fun s =>
  match lk s.sec.quotes slot with
  | none => s
  | some (nonce, t) =>
    let q := s.quoteBytes nonce t
    let s := { s with sec := { s.sec with quotes := del s.sec.quotes slot } }
    (s.setBlob (0xA01100 + slot) (q ++ fixLen 17088 (Config.slhSign (attestSeed s.measures) q))).bump 0xE10007 1

/-! ### Key records (R466, R468 to R470) -/

/-- Bytes 0 to 1,591 of a key record (R468). -/
def recordHead (r : KeyRecord) : List Byte :=
  leBytes 2 r.format ++ leBytes 2 r.tenant ++ leBytes 2 r.node ++ leBytes 2 r.res ++ r.nonce ++ r.ct

/-- The key record that 1,640 bytes spell (R468). -/
def parseRecord (b : List Byte) : KeyRecord where
  format := eNat b 0 2
  tenant := eNat b 2 2
  node := eNat b 4 2
  res := eNat b 6 2
  nonce := eBytes b 8 16
  ct := eBytes b 24 1568
  wrapped := eBytes b 1592 32
  tag := eBytes b 1624 16

/-- The key that a record delivers, if the record is this Molset's and of this power-on and its tag holds (R468, R469). -/
def State.openRecord (s : State) (r : KeyRecord) : Option (List Byte) :=
  if r.format != 1 || r.res != 0 || r.node != s.node || r.nonce != s.blob 0xA00004 then none else
  let prk := Config.hmac (s.blob 0xA00004) (Config.kemOpen (kemSeed s.measures) r.ct)
  let wk := Config.hkdf prk (ascii "deliver" ++ leBytes 2 r.tenant ++ leBytes 2 r.node) 32
  Config.gcmOpen wk (List.replicate 12 0) (recordHead r) r.wrapped r.tag

/-- The record of a tenant. -/
def State.tenantRec (s : State) (t : Nat) : Option TRec := s.sec.tenants.find? fun x => x.tenant == t

/-- Change the record of a tenant. -/
def State.updTenant (s : State) (t : Nat) (f : TRec → TRec) : State :=
  { s with sec := { s.sec with tenants := updIf (fun x => x.tenant == t) f s.sec.tenants } }

/-- The state of a tenant (R467). -/
def State.tstate (s : State) (t : Nat) : Nat := s.reg (pagedKey 0xA104 t)

/-- Set the state of a tenant. -/
def State.setTstate (s : State) (t v : Nat) : State := s.setReg (pagedKey 0xA104 t) v

/-- The key that a tenant's record delivers, if it is accepted (R469, R470). -/
def State.tenantKeyOf (s : State) (t : Nat) (r : KeyRecord) : Option (List Byte) :=
  if 1024 ≤ t || r.tenant != t || s.tstate t != 1 then none else
  (s.openRecord r).filter fun k =>
    match (s.tenantRec t).bind (·.lock) with
    | some b => s.bindingOf t k == b
    | none => true

/-- R468 to R470: a tenant's key record: it keys the tenant and, if it is the first since the record was created, locks its ID; or it is refused. -/
def execTenantKeyRecord (r : KeyRecord) (s : State) : Res := live s fun s =>
  match s.tenantKeyOf r.tenant r with
  | none => s.bump 0xE10006 1
  | some k =>
    let t := r.tenant
    let b := s.bindingOf t k
    let first := ((s.tenantRec t).bind (·.lock)).isNone
    let s := { s with sec := { s.sec with rootKeys := put s.sec.rootKeys t k } }
    let s := ((s.setTstate t 2).setReg (pagedKey 0xA10C t) (leNat (b.take 8))).bump 0xE10005 1
    if first then (s.updTenant t fun x => { x with lock := some b }).configChange else s

/-- May an operator key record come here (R466): unsigned only as the first and without a node ID, later ones only in a command signed by the
operator? -/
def State.operatorRecordOk (s : State) (signed : Bool) : Bool := if signed then s.sec.opKey.isSome else s.sec.opKey.isNone && s.reg 0x800002 == 0

/-- R466: an operator command key is installed, and counter 4 raised (R479). -/
def execOperatorKeyRecord (r : KeyRecord) (signed : Bool) (s : State) : Res := live s fun s =>
  match (if r.tenant == 0xFFFF && s.operatorRecordOk signed then s.openRecord r else none) with
  | none => s.bump 0xE10006 1
  | some k =>
    let s := { s with sec := { s.sec with opKey := some k } }
    (((s.setReg 0xA00202 1).wantAdvance 4 (s.nextCounter 4)).configChange).bump 0xE10005 1

/-- R466: a DAP key is installed. -/
def execDapKeyRecord (r : KeyRecord) (s : State) : Res := live s fun s =>
  match (if r.tenant == 0xFFFF then s.openRecord r else none) with
  | none => s.bump 0xE10006 1
  | some k => ({ s with sec := { s.sec with dapKey := some k } }.setReg 0x1F1006 1).configChange.bump 0xE10005 1

/-! ### Tenants (R467, R472) -/

/-- R467: a tenant record is created. -/
def execTenantCreate (t : Nat) (s : State) : Res := live s fun s =>
  if 1024 ≤ t || s.tstate t != 0 then s else
  ({ s with sec := { s.sec with tenants := insertBy (fun (a b : TRec) => a.tenant < b.tenant) { tenant := t } s.sec.tenants } }.setTstate t 1).configChange

/-- R467: a keyed tenant enters service. -/
def execEnterService (t : Nat) (s : State) : Res := live s fun s => if t < 1024 && s.tstate t == 2 then s.setTstate t 3 else s

/-- The registers of a run of paged entries are cleared of those that satisfy a test. -/
def State.dropRegs (s : State) (p : Key → Nat → Bool) : State := { s with regs := s.regs.filter fun r => !p r.1 r.2 }

/-- The apertures of a tenant are no longer valid (R467, R472). -/
def State.dropApertures (s : State) (t : Nat) : State :=
  s.dropRegs fun k v => 0xC10000 ≤ k && k < 0xC11000 && field v 12 3 == t

/-- Entries still in a tenant's rings leave without a completion (R442). -/
def State.discardRing (s : State) (t : Nat) : State :=
  match s.rings.find? fun r => r.tenant == t with
  | none => s
  | some r => s.setRing { r with cLive := r.p, tLive := r.tLive + (waitingSeqs r).length, gone := [], ready := [], first := [], held := 0 }

/-- A teardown starts (R472). -/
def State.startTeardown (s : State) (t : Nat) : State :=
  let s := ((s.setTstate t 4).updTenant t fun x => { x with down := true }).dropApertures t
  (s.discardRing t).bump 0xE1000D 1

/-- Does the map name this node in an entry of kind 3 to 6 for the tenant (R472)? -/
def State.hasRoles (s : State) (t : Nat) : Bool :=
  s.map.entries.any fun e => 3 ≤ e.kind && e.tenant == t && (entryNodes e).contains s.node

/-- R472: code 3 starts a teardown, and is refused while the map names roles of the tenant here. -/
def execTeardown (t : Nat) (s : State) : Res := live s fun s =>
  if 1024 ≤ t || !(s.tstate t == 2 || s.tstate t == 3) then s
  else if s.hasRoles t then s.bump 0xE10004 1
  else s.startTeardown t

/-- R472: code 4 starts a teardown in any case. -/
def execForcedTeardown (t : Nat) (s : State) : Res := live s fun s =>
  if 1024 ≤ t || !(s.tstate t == 2 || s.tstate t == 3) then s else s.startTeardown t

/-- Work of a tenant is unfinished here (R472). -/
def State.busy (s : State) (t : Nat) : Bool :=
  s.home.any (fun h => h.par.tenant == t && h.phase < 6) || s.copy.any (fun c => c.par.tenant == t && c.phase < 4) || s.upd.any (·.tenant == t) ||
  s.builds.any (·.tenant == t) || s.regWait.any (·.tenant == t) || s.dense.jobs.any (fun j => j.tenant == t && !j.done) ||
  s.emb.jobs.any (fun j => j.tenant == t && !j.done) || s.emb.stages.any (·.tenant == t) ||
  s.tier.moves.any (·.tenant == t) || s.tier.waits.any (·.tenant == t) || s.ctl.zeroings.any (·.tenant == t)

/-- Everything that the engines hold of a tenant goes: its pages return to the pool (R72, R472), and with them what lived in them. -/
def State.dropTenant (s : State) (t : Nat) : State :=
  let s := (s.tier.pages.filter fun p => p.tenant == t).foldl State.dropPage s
  let s := { s with
    tier := { s.tier with regions := s.tier.regions.filter (·.tenant != t) }
    filters := s.filters.filter (·.tenant != t)
    home := s.home.filter (·.par.tenant != t)
    copy := s.copy.filter (·.par.tenant != t)
    idx := s.idx.filter (·.desc.tenant != t)
    dense := { s.dense with models := s.dense.models.filter (·.tenant != t), jobs := s.dense.jobs.filter (·.tenant != t) }
    emb := { s.emb with
      tabs := s.emb.tabs.filter (·.tenant != t), rows := s.emb.rows.filter (·.tenant != t), overlays := s.emb.overlays.filter (·.tenant != t)
      replicas := s.emb.replicas.filter (·.tenant != t), steps := s.emb.steps.filter (·.tenant != t), switches := s.emb.switches.filter (·.tenant != t)
      migs := s.emb.migs.filter (·.m.tenant != t), jobs := s.emb.jobs.filter (·.tenant != t) }
    rings := s.rings.filter (·.tenant != t) }
  let ring (k : Key) : Bool := (0xC01000 ≤ k && k < 0xC02800) && k % 1024 == t
  (s.dropRegs fun k _ => ring k).tierRegs t

/-- The key slot of a tenant is zeroed (R456). -/
def State.dropKey (s : State) (t : Nat) : State :=
  { s with sec := { s.sec with rootKeys := del s.sec.rootKeys t } }.setReg (pagedKey 0xA10C t) 0

/-- The record of a tenant is removed: the tenant is absent (R467). -/
def State.dropRecord (s : State) (t : Nat) : State :=
  ({ s with sec := { s.sec with tenants := s.sec.tenants.filter (·.tenant != t) } }.setTstate t 0).configChange

/-- R467: a release: at once from state 2; from state 4 it is held until the teardown ends. -/
def execTenantRelease (t : Nat) (s : State) : Res := live s fun s =>
  if 1024 ≤ t then s
  else if s.tstate t == 2 then (((s.dropKey t).dropTenant t).dropApertures t).dropRecord t
  else if s.tstate t == 4 then s.updTenant t fun x => { x with release := true }
  else s

/-- R472: with no unfinished work of the tenant, the key slot is zeroed, discards of its flash region are queued, and its pages return to the pool. -/
def execTeardownComplete (t : Nat) (s : State) : Res := live s fun s =>
  if 1024 ≤ t || s.tstate t != 4 || s.busy t then s else
  let held := (s.tenantRec t).any (·.release)
  let s := ((s.dropKey t).discardRegion t).dropTenant t
  if held then s.dropRecord t else (s.setTstate t 1).updTenant t fun x => { x with down := false, release := false }

/-! ### Floor and runtime checks (R479, R482) -/

/-- R479: the firmware floor is to be raised, at most to the running security version. -/
def execRaiseFloor (v : Nat) (s : State) : Res := live s fun s => if v ≤ s.reg 0xA00002 then s.wantAdvance 1 v else s

/-- A runtime check fails: its code is kept, and the fault is fatal (R397, R482). -/
def State.checkFails (s : State) (code : Nat) : State := ((s.setReg 0xA0000C code).bump 0xE1000E 1).fatal 7

/-- R482: a runtime check of code 1, 2, 4 or 5 has run. -/
def execRuntimeCheck (code : Nat) (failed : Bool) (s : State) : Res := live s fun s =>
  if failed && [1, 2, 4, 5].contains code then s.checkFails code else s

/-- R482: a glitch detector fires. -/
def execGlitchDetected (s : State) : Res := live s fun s => s.checkFails 3

/-! ### Signed commands (R463 to R465) -/

/-- A signed command in fields (R463). `res` is the sum of the reserved bits and padding; `lenOk` says that the lengths add up. -/
structure SignedCmd where
  format : Nat
  signer : Nat
  count : Nat
  tenant : Nat
  res : Nat
  target : Nat
  nonce : List Byte
  counter : Nat
  tag : List Byte
  lenOk : Bool
  writes : List DWrite
  deriving DecidableEq, Repr

/-- The writes of a signed command: those that the bytes hold, the sum of their reserved bytes, and whether the lengths add up. -/
def parseWrites : Nat → List Byte → List DWrite × Nat × Bool
  | 0, bs => ([], 0, bs.isEmpty)
  | n + 1, bs =>
    let len := eNat bs 4 4
    let pad := cdiv len 8 * 8
    if bs.length < 8 + pad then ([], 0, false)
    else
      let (ws, res, ok) := parseWrites n (bs.drop (8 + pad))
      ({ index := eNat bs 0 2, sub := eNat bs 2 1, value := eBytes bs 8 len } :: ws, res + eNat bs 3 1 + leNat (eBytes bs (8 + len) (pad - len)), ok)

/-- The signed command that bytes spell (R463). -/
def parseSigned (b : List Byte) : SignedCmd :=
  let (writes, res, ok) := parseWrites (eNat b 3 1) (b.drop 64)
  { format := eNat b 0 2, signer := eNat b 2 1, count := eNat b 3 1, tenant := eNat b 4 2 % 1024, res := res + eNat b 4 2 / 1024 + eNat b 6 2 / 4096,
    target := eNat b 6 2 % 4096, nonce := eBytes b 8 16, counter := eNat b 24 8, tag := eBytes b 32 32, lenOk := decide (64 ≤ b.length) && ok, writes }

/-- The command key of a signer (R464). -/
def State.signerKey (s : State) (c : SignedCmd) : Option (List Byte) :=
  if c.signer == 0 then s.sec.opKey else if 2 ≤ s.tstate c.tenant then s.tenantCmdKey c.tenant else none

/-- The register of a signer's last accepted counter (R464). -/
def signerCounter (c : SignedCmd) : Key := if c.signer == 0 then 0xA00205 else pagedKey 0xA110 c.tenant

/-- The first five checks of a signed command (R464); 0 passes. -/
def State.signedStatus (s : State) (c : SignedCmd) (bytes : List Byte) : Nat :=
  if c.format != 1 || c.count < 1 || 8 < c.count || c.res != 0 || 1 < c.signer || (c.signer == 0 && c.tenant != 0) || !c.lenOk then 0x0A01
  else if !(c.target == s.node || (c.target == 0 && s.reg 0x800002 == 0)) || c.nonce != s.blob 0xA00004 then 0x0A02
  else
    match s.signerKey c with
    | none => 0x0A03
    | some k =>
      if Config.hmac k (bytes.take 32 ++ bytes.drop 64) != c.tag then 0x0A04
      else if c.counter ≤ s.reg (signerCounter c) then 0x0A05 else 0

/-- The tenant, node, aperture or slot that an entry of a paged object is for (R486). -/
def pageOf (k : Key) : Nat := match objRow k with | some r => k - r.first | none => 0

/-- Does tenant paging assign the entry to the tenant (R465, R486)? -/
def tenantEntry (k : Key) (t : Nat) : Bool := pagingCode (k / 256) == 1 && pageOf k == t

/-- May the signer write the entry with this value (R465)? A read-only or missing entry is refused by the dictionary's own checks. -/
def State.mayWrite (s : State) (c : SignedCmd) (w : DWrite) : Bool :=
  let k := key w.index w.sub
  let op := c.signer == 0
  let v := leNat w.value
  match objRow k with
  | none => true
  | some r =>
    match r.acc with
    | .ro => true
    | .sig =>
      if 0x302000 ≤ k && k < 0x302400 || 0xC01000 ≤ k && k < 0xC01800 then !op && pageOf k == c.tenant
      else if 0xC10000 ≤ k && k < 0xC11000 then
        if bit v 0 then !op && field v 12 3 == c.tenant else op || field (s.reg k) 12 3 == c.tenant
      else if 0xA10800 ≤ k && k < 0xA10C00 then
        if v == 2 || v == 5 then !op && pageOf k == c.tenant else if v == 3 || v == 4 then op || pageOf k == c.tenant else op
      else op
    | _ => op || tenantEntry k c.tenant

/-- Is a write a teardown with code 3 that the map forbids (R472)? -/
def State.teardownBarred (s : State) (w : DWrite) : Bool :=
  let k := key w.index w.sub
  0xA10800 ≤ k && k < 0xA10C00 && leNat w.value == 3 && s.hasRoles (pageOf k)

/-- The sixth check of R464. -/
def State.scopeOk (s : State) (c : SignedCmd) : Bool := c.writes.all fun w => s.mayWrite c w && !s.teardownBarred w

/-- The counter of a refusal of R464. -/
def signedRefusal (st : Nat) : Key := if st == 0x0A02 || st == 0x0A05 then 0xE10003 else if st == 0x0A06 then 0xE10004 else 0xE10002

end Sys2Proof.Machine
end

