-- ==== Sys2Proof/Machine/Power.lean ====
section
/-! DEFINITION. Power, reset, strap, sideband pins, per-block resets, ageing and temperatures (R511 to R536, R549 to R552). -/

namespace Sys2Proof.Machine

/-! ### Temperatures (R514, R522, R550, R552) -/

/-- The throttle temperature of a sensor of 0xD400, in m°C (R550). -/
def throttleOf (i : Nat) : Int :=
  if i ≤ 0x0C then 95000 else if i ≤ 0x0F then 100000 else if i == 0x10 then 95000 else if i ≤ 0x20 then 85000 else 115000

/-- The trip temperature of a sensor, in m°C: 10 °C above its throttle temperature (R550). -/
def tripOf (i : Nat) : Int := throttleOf i + 10000

/-- The sensors of 0xD400. -/
def sensors : List Nat := (List.range 33).map (· + 1)

/-- What a silent sensor reads (R552). -/
def silentReading : Int := -2147483648

/-- The last reading of a sensor. -/
def State.temp (s : State) (i : Nat) : Int := s.regI 32 (0xD40000 + i)

/-- Does a sensor count as at its throttle temperature: it has reached it, or is silent (R514, R552)? -/
def State.hot (s : State) (i : Nat) : Bool := s.temp i == silentReading || throttleOf i ≤ s.temp i

/-- Does any sensor, or the board thermal alert, throttle (R514, R527)? -/
def State.throttled (s : State) : Bool := s.pwr.alert || sensors.any s.hot

/-- The readings of a tick (R284, R552). A sensor that is not listed is not read. -/
def State.readTemps (s : State) (l : List (Nat × Option Int)) : State :=
  l.foldl (fun s (x : Nat × Option Int) =>
    if x.1 < 1 || 33 < x.1 then s else
    match x.2 with
    | some v => { s.setRegI 32 (0xD40000 + x.1) v with pwr := { s.pwr with silent := del s.pwr.silent x.1 } }
    | none => { s with pwr := { s.pwr with silent := put s.pwr.silent x.1 ((lk s.pwr.silent x.1).getD 0 + 1) } }) s

/-- R552: a sensor that has given no reading for 16 ticks, in whichever state the temperatures are read. -/
def execSensorSilent (sensor : Nat) (s : State) : Res := always s fun s =>
  if s.reg 0xD00001 == 0 || s.reg 0xD00001 == 5 then s
  else if 16 ≤ (lk s.pwr.silent sensor).getD 0 then s.setRegI 32 (0xD40000 + sensor) silentReading else s

/-! ### Input power (R511 to R514, R535) -/

/-- The mean of a list. -/
def mean (l : List Nat) : Nat := if l.isEmpty then 0 else l.foldl (· + ·) 0 / l.length

/-- The measurements of a frame that ends (R513, R535): power, current, energy, mean of 16 ticks and the peak of the 1 ms means. -/
def State.meterTick (s : State) (power ns : Nat) : State :=
  let ps := (power :: s.pwr.powers).take 16
  let e := s.pwr.energyRem + power * ns
  let ms := mean (ps.take (max 1 (cdiv 1000 (max 1 (s.reg 0x200001)))))
  let s := { s with pwr := { s.pwr with powers := ps, energyRem := e % 10 ^ 9 } }
  let s := ((s.setReg 0xD00004 power).setReg 0xD00003 (power * 1000000 / s.reg 0xD00002)).setReg 0xD00005 (s.reg 0xD00005 + e / 10 ^ 9)
  (s.setReg 0xD00007 (mean ps)).setReg 0xD00009 (max ms (s.reg 0xD00009))

/-- The duty of the frame that begins, at cycle 0 (R513, R514), and the cycles that the duty of the frame before has idled. -/
def State.dutyTick (s : State) : State :=
  let d := s.reg 0xD00008
  let s := s.bump 0xE12007 (s.upSpindles.length * (1900 * s.reg 0x200001 * (64 - d) / 64))
  let over_ := s.reg 0xD00006 < s.reg 0xD00007
  let a := if over_ then max 32 (d - 1) else if s.reg 0xD00007 * 100 < s.reg 0xD00006 * 97 then min 64 (d + 1) else d
  let hot := s.throttled
  let s := (s.bumpIf over_ 0xE12006).bumpIf hot 0xE12008
  s.setReg 0xD00008 (if hot then min a (max 32 (d - 4)) else a)

/-- R535: writing 1 clears the peak power. -/
def execClearPeakPower (v : Nat) (s : State) : Res := live s fun s => if v == 1 then s.setReg 0xD00009 0 else s

/-- R511: the input lies between a trip level and the operating range: counted. -/
def execInputExcursion (mv : Nat) (s : State) : Res := live s fun s =>
  let low := s.reg 0xD0000D ≤ mv && mv < 40000
  let high := 60000 < mv && mv ≤ s.reg 0xD0000E
  if low || high then (s.setReg 0xD00002 mv).bump 0xE12003 1 else s

/-! ### The strap (R524, R525) -/

/-- The code of a reading, if it lies outside the guard bands (R524). -/
def strapCode (r : Nat) : Option Nat := let n := r / 16; if r < 256 && 16 * n + 3 ≤ r && r ≤ 16 * n + 12 then some n else none

/-- The code of a set of three readings, if they agree. -/
def strapSet (l : List Nat) : Option Nat :=
  match l with
  | [a, b, c] => match strapCode a, strapCode b, strapCode c with
    | some x, some y, some z => if x == y && y == z then some x else none
    | _, _, _ => none
  | _ => none

/-- The first of at most three sets that agrees: its code and its last reading. -/
def strapOf (sets : List (List Nat)) : Option (Nat × Nat) := (sets.take 3).findSome? fun l => (strapSet l).map fun c => (c, l.getLastD 0)

/-- The code that a latched code acts as: the reserved ones act as 0 (R525). -/
def actsAs (c : Nat) : Nat := if 12 ≤ c && c ≤ 14 then 0 else c

/-- The strap is measured and latched (R524). -/
def State.latchStrap (s : State) (sets : List (List Nat)) : State :=
  match strapOf sets with
  | some (c, r) => (((s.setReg 0xD02001 c).setReg 0xD02002 r).setReg 0xD02003 0).bumpIf (actsAs c != c) 0xE12005
  | none => ((s.setReg 0xD02001 0).setReg 0xD02003 1).bump 0xE12005 1

/-! ### What survives (R494, R517 to R519) -/

/-- The flash layer after a reset: the media and what is written on them. -/
def flashKept (f : FlashS) : FlashS :=
  { f with targets := [], progs := [], buffer := [], inPage := [], discards := [], dirty := [], cache := [], hostSlots := [], asked := [], eraseQ := [],
           winTicks := [], hkStopped := false, reclaiming := false, trained := [], levelled := 0, recovering := false, waitDiscards := [] }

/-- What boot storage and the flash hold (R457, R494): the configuration area, the firmware slots and the replay-protected region. -/
def State.storage (s : State) : State :=
  let keep (k : Key) : Bool := 0xA02001 ≤ k && k ≤ 0xA02004
  let ts := s.sec.tenants.map fun x => { x with down := false, release := false }
  let regs := ts.foldl (fun r (x : TRec) => put r (pagedKey 0xA104 x.tenant) 1) (State.reset.regs.foldl (fun r x => put r x.1 x.2) (s.regs.filter fun r => keep r.1))
  { State.reset with
    regs := put (put regs 0xA00202 (b2n s.sec.opKey.isSome)) 0x1F1006 (b2n s.sec.dapKey.isSome)
    dict := { saved := s.dict.saved, stored := s.dict.stored }
    flash := flashKept s.flash
    sec := { opKey := s.sec.opKey, dapKey := s.sec.dapKey, tenants := ts, slots := s.sec.slots, advance := s.sec.advance, witness := s.sec.witness }
    free := s.free
    pending := s.pending }

/-- The registers that the always-on domain keeps through a warm reach (R519): with the tick generator its period, and what follows from it (R30; entry 58). -/
def alwaysOn (k : Key) : Bool :=
  k == 0x200001 || k == 0x200203 || (0x200205 ≤ k && k ≤ 0x200209) || k == 0x201001 || k == 0x201002 || k == 0x201004 || k == 0xA00205 || (0xA11000 ≤ k && k < 0xA11400) || (0xD02001 ≤ k && k ≤ 0xD02003) ||
  (0x800001 ≤ k && k ≤ 0x800004) || k == 0xD00005

/-- What a warm reach keeps (R519): the stored things and the always-on domain. -/
def State.warmBase (s : State) : State :=
  let n := s.storage
  { n with
    regs := (s.regs.filter fun r => alwaysOn r.1).foldr (fun r l => put l r.1 r.2) n.regs
    blobs := put n.blobs 0xA00004 (s.blob 0xA00004)
    cum := s.cum
    run := s.run
    last := s.last
    pwr := { outs := s.pwr.outs, energyRem := s.pwr.energyRem } }

/-! ### A start (R454, R458, R520) -/

/-- The slot that boots, or the failing status (R458): the slot to try first and then the other, above the floor; a forced slot alone (R525). -/
def State.chooseSlot (s : State) (b : BootIn) : Except Nat (Nat × Nat) :=
  let strap := actsAs (s.reg 0xD02001)
  let first := if (s.fwSlot 1).first then 1 else 0
  let order := if strap == 2 then [0] else if strap == 3 then [1] else [first, 1 - first]
  let ok := order.filterMap fun n => (if n == 0 then b.slotAOk else b.slotBOk).map fun v => (n, v)
  match ok.find? fun x => s.counter 1 ≤ x.2 with
  | some x => .ok x
  | none => .error (if ok.isEmpty then 2 else 3)

/-- The boot status of the stages after the slot (R458), in the order in which they run (R520). -/
def lateStages (b : BootIn) : Nat := if !b.mainOk then 4 else if !b.confOk then 7 else if !b.microOk then 4 else if !b.selfTestOk then 6 else 0

/-- Identity and measurements of a start (R455, R458, R461, R509). -/
def State.identify (s : State) (b : BootIn) (slot : Nat × Nat) : State :=
  let mr (i : Nat) : List Byte := fixLen 32 (b.mrs.getD i [])
  let s := ((s.setReg 0xA00003 slot.1).setReg 0xA00002 slot.2).setReg 0x100006 b.release
  let s := (List.range 8).foldl (fun s i => s.setBlob (0xA00101 + i) (mr i)) s
  let s := ((s.setBlob 0xA00005 ((Config.sha256 identityPub).take 16)).setBlob 0xA00006 identityPub).setBlob 0xA00007 Config.endorsement
  let s := ((s.setBlob 0xA00008 s.attestation).setBlob 0xA00009 (kemPub s.measures)).setBlob 0x100005 Config.serial
  let s := (List.range 3).foldl (fun s i => (s.setReg (0x100101 + i) (Config.dieId i)).setReg (0xD30016 + i) (Config.delta10 i % 65536)) s
  s.setReg 0x100104 (b2n (!b.ucie.isEmpty))

/-- A stored value takes its register. -/
def State.putVal (s : State) (k : Key) (v : DVal) : State := match v with | .num n => s.setReg k n | .bytes b => s.setBlob k b

/-- Stored and saved values are applied (R494, R525). The node, tray and fabric IDs come at a cold start (R344). -/
def State.applyStored (s : State) (cold : Bool) : State :=
  let strap := actsAs (s.reg 0xD02001)
  if strap == 15 then s else
  let ids (k : Key) : Bool := k == 0x800001 || k == 0x800003 || k == 0x800004
  let s := (s.dict.stored.filter fun x => cold || !ids x.1).foldl (fun s x => s.putVal x.1 x.2) s
  let s := if cold then s.setReg 0x800002 (b2n (s.dict.stored.any fun x => x.1 == 0x800001)) else s
  if strap == 10 then s else s.dict.saved.foldl (fun s x => s.setReg x.1 x.2) s

/-- The best rate of a list, at most `top`, at which every part trains; the lowest if there is none (R286, R425). -/
def commonRate (rates : List Nat) (top : Nat) (parts : List Nat) : Nat :=
  ((rates.filter (· ≤ top)).find? fun r => parts.all fun p => r ≤ p).getD (rates.getLastD 0)

/-- The board memory is trained (R285, R286). -/
def State.trainBoard (s : State) (b : BootIn) : State :=
  let strap := actsAs (s.reg 0xD02001)
  let top := if strap == 6 then 5600 else if strap == 7 || strap == 8 then 4800 else 6400
  let pop := (b.ddr.filter fun x => x.1 < 8 && !b.ddrRefused.contains x.1)
  let rate := commonRate [6400, 5600, 4800] top (pop.map (·.2))
  let cap (c : Nat) : Nat := (b.dimms.filter fun d => d.1 / 2 == c).foldl (fun a d => a + d.2) 0
  let up := sortBy (· < ·) ((pop.filter fun x => 4800 ≤ x.2).map (·.1)).eraseDups
  let s := (List.range 8).foldl (fun s c =>
    if up.contains c then s.setReg (0x601101 + c) 0
    else if pop.any (·.1 == c) then ((s.setReg (0x601101 + c) 2).bump 0xE0A017 1).score partBoard c 256
    else s.setReg (0x601101 + c) 1) s
  let s := b.dimms.foldl (fun s d => if d.1 < 16 then s.setReg (0x601201 + d.1) d.2 else s) s
  let s := { s with tier := { s.tier with bfree := up.map fun c => (c, cap c * 512) } }
  let s := ((s.setReg 0x601001 up.length).setReg 0x601002 (if up.isEmpty then 0 else rate)).setReg 0x601003 (up.foldl (fun a c => a + cap c * 2 ^ 30) 0)
  (s.setReg 0x601004 (up.length * rate * 8)).setReg 0x601005 (s.freePages true)

/-- Does a target's parameter page let it be used (R310)? -/
def targetOk (first p : ParamPage) : Bool :=
  p.pageBytes == 16384 && 2048 ≤ p.spareBytes && p.pages ≤ 4096 && p.blocks ≤ 32768 && p == first

/-- The flash channels are trained and the targets found (R309, R310); the start-up window opens (R306). Strap 11 leaves flash untrained. -/
def State.trainFlash (s : State) (b : BootIn) : State :=
  let ts := if actsAs (s.reg 0xD02001) == 11 then [] else sortBy (fun (x y : Nat × ParamPage) => x.1 < y.1) (b.flashTargets.filter (·.1 < 256))
  match ts with
  | [] => (List.range 32).foldl (fun s c => s.setReg (0x700101 + c) 1) (s.setReg 0x701001 0)
  | (_, f) :: _ =>
    let on := (ts.filter fun x => targetOk f x.2).map (·.1)
    let s := (ts.filter fun x => !targetOk f x.2).foldl (fun s x => (s.bump 0xE0B020 1).score partFlash (x.1 / 8) 256) s
    let s := (List.range 32).foldl (fun s c =>
      if on.any (· / 8 == c) then s.setReg (0x700101 + c) 0
      else if ts.any (·.1 / 8 == c) then (s.setReg (0x700101 + c) 2).score partFlash c 256
      else s.setReg (0x700101 + c) 1) s
    let raw := on.length * f.luns * f.planes * f.blocks * f.pages * 16384
    let logical := Config.flashLogical raw
    let s := { s with flash := { s.flash with targets := on, recovering := true } }
    let s := (((s.setReg 0x700001 ((on.map (· / 8)).eraseDups).length).setReg 0x700003 f.luns).setReg 0x700004 f.planes).setReg 0x700005 f.pages
    let s := (((s.setReg 0x700006 f.blocks).setReg 0x700007 f.cell).setReg 0x700008 raw).setReg 0x700009 logical
    let s := ((s.setReg 0x702007 (min 16 f.retryLevels)).setReg 0x70200A f.endurance).setReg 0x703005 (logical / 2097152)
    (s.setReg 0x701001 0).openWindow 0

/-- The host link is trained (R425); strap 9 leaves it untrained and HOST_RST_N low (R525). -/
def State.trainHost (s : State) (b : BootIn) : State :=
  let strap := actsAs (s.reg 0xD02001)
  if strap == 9 then
    let s := (List.range 4).foldl (fun s m => s.setReg (0xC00101 + m) 3) s
    { s with pwr := { s.pwr with hostRst := false } }.linkRegs
  else
    let top := if strap == 4 then 24 else if strap == 5 || strap == 8 then 16 else 32
    let best (m : Nat) : Nat := (lk b.ucie m).getD 0
    let levels := [32, 24, 16].filter (· ≤ top)
    let rate := commonRate [32, 24, 16] top ((List.range 4).map best)
    let s := s.bump 0xE0F004 (4 * (levels.filter (rate < ·)).length)
    let s := (List.range 4).foldl (fun s m =>
      if 16 ≤ best m then s.setReg (0xC00101 + m) (b2n (b.repaired.contains m))
      else ((s.setReg (0xC00101 + m) 3).bump 0xE0F005 1).score partHost 0 256) s
    (s.setReg 0xC00002 rate).linkRegs

/-- Fabric ports are enabled (R342, R520, R525). -/
def State.startPorts (s : State) : State :=
  let strap := actsAs (s.reg 0xD02001)
  let off := strap == 1 || strap == 11 || strap == 15
  (List.range 16).foldl (fun s p =>
    let s := if off then s.setReg (0x800301 + p) 0 else s
    s.setPortState p (if s.reg (0x800301 + p) == 0 then 0 else 1)) s

/-- Strap 15: every spindle is in state 3 (R525). -/
def State.testSpindles (s : State) : State :=
  if actsAs (s.reg 0xD02001) == 15 then (List.range 384).foldl (fun s n => s.setReg (perSpindle 0x3001 0x3002 n) 3) s else s

/-- A start stops with a boot status (R459). -/
def State.startFails (s : State) (st : Nat) : State := (s.setReg 0xA00001 st).setReg 0xD00001 3

/-- A release of parts (R520): a cold start runs every step; a warm reach keeps the strap, and the PUF is not read again. -/
def State.start (s : State) (b : BootIn) (cold : Bool) (code : Nat) : State :=
  let s := s.setReg 0xD01001 code
  let s := if cold then (s.latchStrap b.strap).setBlob 0xA00004 (fixLen 16 b.nonce) else s
  let s := s.setReg 0xD00002 b.inputMv
  if cold && !b.pufOk then s.startFails 1 else
  match s.chooseSlot b with
  | .error st => s.startFails st
  | .ok slot =>
    let s := s.identify b slot
    let st := lateStages b
    if st != 0 then s.startFails st
    else
      let s := (((s.applyStored cold).trainBoard b).trainFlash b).testSpindles
      let s := ((s.trainHost b).startPorts).setReg 0x600004 (s.freePages false)
      let s := ((s.setReg 0x200101 s.node).setReg 0xD00001 2).liveRegs
      { s with pwr := { s.pwr with replanDue := true } }

/-- A cold start (R511, R518): everything but the stored things is new. -/
def State.coldStart (s : State) (b : BootIn) (code : Nat) : State := s.storage.start b true code

/-- A warm reach (R518, R519): the key store is cleared, and every page returns without an owner. -/
def State.warmReach (s : State) (b : BootIn) (code : Nat) : State := ((s.flashPowerFail.warmBase).bump 0xE12001 1).start b false code

/-! ### Hold-up and resets (R511, R516 to R523) -/

/-- The power state (R515). -/
def State.power (s : State) : Nat := s.reg 0xD00001

/-- A source ranks above the sequence under way, if there is one (R523). -/
def State.outranks (s : State) (rank : Nat) : Bool := s.pwr.seqRank == 0 || rank < s.pwr.seqRank

/-- A source below the sequence under way is ignored and counted (R523). -/
def State.ignored (s : State) : State := s.bump 0xE1200B 1

/-- R511: an input that has stayed good for 10 ms begins a cold start. -/
def execColdStart (b : BootIn) (s : State) : Res := always s fun s =>
  if s.power == 0 && s.reg 0xD0000F ≤ b.inputMv && b.powerFailHigh then s.coldStart b s.pwr.source else s

/-- The hold-up sequence (R516, R517): the flash layer stops, spindles, transmitters and the host link stop, and all but the I/O die is switched off. -/
def State.holdUp (s : State) : State :=
  if s.power == 0 || s.power == 5 then s else
  let s := s.flashPowerFail.setReg 0xD00001 5
  { s with pwr := { s.pwr with
      seqRank := 1, spindlesStopped := true, txStopped := true, searchOn := false, stacksOn := false, boardOn := false, hostOn := false, blocks := [] } }

/-- R516: POWER_FAIL_N falls. -/
def execPowerFail (s : State) : Res := always s State.holdUp

/-- R511: an input outside the trip levels starts hold-up. -/
def execInputTrip (mv : Nat) (s : State) : Res := always s fun s =>
  if mv < s.reg 0xD0000D || s.reg 0xD0000E < mv then (s.setReg 0xD00002 mv).holdUp else s

/-- R516, R517: the guaranteed hold-up ends: every rail is off, and the always-on domain is lost. -/
def execHoldUpEnd (present : Bool) (s : State) : Res := always s fun s =>
  if s.power != 5 then s else
  let s := s.storage.setReg 0xD00001 0
  { s with pwr := { s.pwr with
      source := if present then 2 else 1, hostRst := false, searchOn := false, stacksOn := false, boardOn := false, hostOn := false } }

/-- A warm source of rank 5 (R518, R523): in a running or stopped Molset it makes a warm reach; during another sequence it is ignored. -/
def State.warmSource (s : State) (b : BootIn) (code : Nat) : State :=
  if s.power == 0 then s
  else if !s.outranks 5 then s.ignored
  else if s.power == 2 || s.power == 3 then s.warmReach b code else s

/-- R518: MODRST_N has been low for 1 µs. -/
def execModuleReset (b : BootIn) (s : State) : Res := always s fun s => s.warmSource b 3

/-- The sideband entry of a function (R527). -/
def State.sbEntry (s : State) (n : Nat) : Nat := s.reg (0xD20000 + n)

/-- Does a function name a pin? -/
def State.sbPin (s : State) (n : Nat) : Bool := s.sbEntry n % 16 != 15

/-- R518, R527: the reset request function is asserted. -/
def execSidebandResetRequest (b : BootIn) (s : State) : Res := always s fun s => if s.sbPin 0x0B then s.warmSource b 4 else s

/-- R518: a signed write of 1 to 0xD010:02 takes effect. -/
def execWarmResetCommand (b : BootIn) (s : State) : Res := always s fun s => s.warmSource b 5

/-- R518: a signed write of 2 to 0xD010:02 takes effect: the module rails are cycled. -/
def execPowerCycleCommand (b : BootIn) (s : State) : Res := always s fun s =>
  if s.power == 0 then s else if !s.outranks 2 then s.ignored else s.flashPowerFail.coldStart b 6

/-- R518: the management firmware watchdog expires. -/
def execWatchdogExpiry (s : State) : Res := always s fun s => if s.power == 0 then s else s.fatal 8

/-- R522: a sensor at its trip temperature: after the acts of a fatal fault, the search dies, the stacks and the board memory are switched off. -/
def execThermalTrip (sensor : Nat) (reading : Int) (s : State) : Res := always s fun s =>
  if s.power == 0 || sensor < 1 || 33 < sensor || reading < tripOf sensor then s else
  let s := s.setRegI 32 (0xD40000 + sensor) reading
  if !s.outranks 3 then s.ignored
  else
    let s := s.fatal 9
    { s with pwr := { s.pwr with searchOn := false, stacksOn := false, boardOn := false } }

/-- R522, R552: every sensor lies 20 °C below its trip temperature; one that cannot be read does not. -/
def execThermalHoldExit (s : State) : Res := always s fun s =>
  if s.power == 6 && sensors.all (fun i => s.temp i != silentReading && s.temp i + 20000 ≤ tripOf i) then s.setReg 0xD00001 4 else s

/-- A fatal reset (R521): a warm reach under the code of the fault. -/
def State.fatalReset (s : State) (b : BootIn) : State :=
  let code := s.pwr.source
  (s.warmReach b code).bump 0xE12002 1

/-- R521: the host has restarted and asks for a link reset. -/
def execHostLinkResetRequest (b : BootIn) (s : State) : Res := always s fun s => if s.power == 4 then s.fatalReset b else s

/-- R521: the fatal reset wait has passed: HOST_RST_N is driven low for 1 ms, and a warm reach follows. -/
def execFatalResetTimeout (b : BootIn) (s : State) : Res := always s fun s => if s.power == 4 then s.fatalReset b else s

/-! ### Sideband pins (R526, R527) -/

/-- Is an output function asserted? -/
def State.sbAsserted (s : State) (n : Nat) : Bool :=
  match n with
  | 1 => s.power == 3 || s.power == 4 || s.power == 6
  | 2 => s.reg 0x800006 == 2
  | 4 => s.throttled
  | 5 => s.power == 5
  | 6 => s.power == 2
  | _ => (lk s.pwr.outs n).getD false

/-- The level of a pin that an output function drives: an asserted function is high, or low if its entry says active low. -/
def State.pinLevel (s : State) (pin : Nat) : Option Bool :=
  ((List.range 8).map (· + 1)).findSome? fun n =>
    if s.sbEntry n % 16 == pin && pin < 8 then some (s.sbAsserted n != bit (s.sbEntry n) 8) else none

/-- Set a toggled or pulsed output. -/
def State.setOut (s : State) (n : Nat) (v : Bool) : State := { s with pwr := { s.pwr with outs := put s.pwr.outs n v } }

/-- R527: an interval timer expires: locate and heartbeat toggle, the tick pulse ends. -/
def execSidebandTimer (t : Nat) (s : State) : Res := live s fun s =>
  let mine (n : Nat) : Bool := s.sbPin n && s.sbEntry n / 16 % 16 == t && t < 4
  let flip (s : State) (n : Nat) : State := s.setOut n (!s.sbAsserted n)
  let s := if mine 3 && s.reg 0xD20025 == 1 then flip s 3 else s
  let s := if mine 7 then s.setOut 7 false else s
  if mine 8 then flip s 8 else s

/-- The tick pulse begins (R527). -/
def State.pulseTick (s : State) : State := if s.sbPin 7 then s.setOut 7 true else s

/-- R527: the locate function starts or stops. -/
def execLocate (v : Nat) (s : State) : Res := live s fun s =>
  let s := s.setReg 0xD20025 (v % 2)
  if v % 2 == 0 then s.setOut 3 false else s

/-- R527: the tray-presence input shows this Molset's tray unseated: a drain of it is asked for (R378). -/
def execTrayUnseated (s : State) : Res := live s fun s => if s.sbPin 0x0C then s.raiseDrain (s.reg 0x800003) else s

/-- R527: the board thermal alert input. -/
def execBoardThermalAlert (asserted : Bool) (s : State) : Res := live s fun s =>
  if s.sbPin 0x0A then { s with pwr := { s.pwr with alert := asserted } } else s

/-! ### Per-block resets (R528, R529) -/

/-- May a block be reset now (R529)? -/
def State.blockRefused (s : State) (sub b : Nat) : Bool :=
  match sub with
  | 1 =>
    if 7 ≤ b then true
    else if b == 4 then s.resetting 1 5
    else if b == 5 then s.resetting 1 4
    else if b == 6 then !s.sec.advance.isEmpty || !s.sec.waitAdv.isEmpty else false
  | 2 => 12 ≤ b || s.reg (0x600101 + b) != 2
  | 3 => 8 ≤ b || s.reg (0x601101 + b) == 0
  | 4 => 32 ≤ b || s.reg 0x701001 != 0
  | 5 => 16 ≤ b
  | 6 => 4 ≤ b || (s.reg (0xC00101 + b) ≤ 1 && s.reg 0xC00001 ≤ 1)
  | _ => true

/-- The bits of a mask. -/
def maskBits (m : Nat) : List Nat := (List.range 32).filter m.testBit

/-- Is a write of a mask refused (R529): a block that the table refuses, or both SGMII ports at once? -/
def State.maskRefused (s : State) (sub mask : Nat) : Bool :=
  (maskBits mask).any (s.blockRefused sub) || (sub == 1 && mask.testBit 4 && mask.testBit 5)

/-- A block stops taking work (R528, R529). The tier mover's move ends with the page in hand; a fabric port falls silent; a host module retrains. -/
def State.quiesce (s : State) (sub b : Nat) : State :=
  let s := { s with pwr := { s.pwr with blocks := s.pwr.blocks.filter (fun x => !(x.1 == sub && x.2.1 == b)) ++ [(sub, b, s.now)] } }
  if sub == 5 then
    let was := s.portState b == 3
    let s := (s.setPort b { lastRekey := (s.port b).lastRekey }).setPortState b 0
    if was then s.linkLost b else s
  else if sub == 6 then (s.setReg (0xC00101 + b) 2).linkRegs
  else s

/-- R528: a signed write of per-block reset bits takes effect. -/
def execPerBlockReset (sub mask : Nat) (s : State) : Res := live s fun s =>
  if sub < 1 || 6 < sub || s.maskRefused sub mask then s else
  let s := s.setReg (0xD10000 + sub) (s.reg (0xD10000 + sub) ||| mask % 2 ^ 32)
  (maskBits mask).foldl (fun s b => s.quiesce sub b) s

/-- Has a block finished the work that it holds (R529)? -/
def State.quiet (s : State) (sub b : Nat) : Bool :=
  if sub == 1 && b == 0 then !s.tier.pages.any (·.inMove)
  else if sub == 1 && (b == 2 || b == 3) then s.linesOut (b - 2) == 0
  else true

/-- A block is released (R528, R529). -/
def State.release (s : State) (sub b : Nat) : State :=
  let s := { s with pwr := { s.pwr with blocks := s.pwr.blocks.filter fun x => !(x.1 == sub && x.2.1 == b) } }
  let s := (s.setReg (0xD10000 + sub) (s.reg (0xD10000 + sub) - 2 ^ b)).bump 0xE12004 1
  match sub with
  | 1 =>
    if b != 0 then s else
    match s.tier.moves with
    | [] => s
    | m :: rest =>
      let s := ({ s with tier := { s.tier with moves := rest } }).bump 0xE0A018 1
      (s.placeDone m.tenant m.seq (if m.freed then 0x0508 else if m.left.isEmpty then 0 else 0x0505) m.tag m.tick).mover
  | 4 => { s with flash := { s.flash with trained := put s.flash.trained b s.now } }
  | 5 => (s.bump 0xE0C005 1).setPortState b (if s.reg (0x800301 + b) == 0 then 0 else 1)
  | _ => s

/-- The blocks that are released in step 7: those named at an earlier tick that have finished their work. -/
def State.blocksTick (s : State) : State :=
  s.pwr.blocks.foldl (fun s (x : Nat × Nat × Nat) => if x.2.2 < s.now && s.quiet x.1 x.2.1 then s.release x.1 x.2.1 else s) s

/-! ### Ageing (R530 to R534) -/

/-- The sub-indices of the path monitors of a domain: 44, 44 and 8 (R530, R535). -/
def monitorsOf (d : Nat) : List Nat := if d == 2 then (List.range 8).map (0x1C + 88 + ·) else (List.range 44).map (0x1C + 44 * d + ·)

/-- The year-equivalent wear of a domain in 0.01 year (R534). -/
def wearOf (d f : Nat) : Nat :=
  let f0 : Rat := Config.oscEnrolled d
  let drop := (1 - (f : Rat) / f0) / ((Config.delta10 d : Rat) / 10000)
  min (2 ^ 32 - 1) ((1000 * drop ^ 5).floor.toNat)

/-- R530: the monitors are sampled: worst slack and wear of each domain. -/
def execMonitorSample (slack : List (Nat × Int)) (freq : List (Nat × Nat)) (s : State) : Res := live s fun s =>
  let s := (slack.filter fun x => 0x1C ≤ x.1 && x.1 ≤ 0x7B).foldl (fun s x => s.setRegI 32 (0xD30000 + x.1) x.2) s
  let s := (freq.filter fun x => 0x7C ≤ x.1 && x.1 ≤ 0x93).foldl (fun s x => s.setReg (0xD30000 + x.1) x.2) s
  (List.range 3).foldl (fun s d =>
    let vs := (monitorsOf d).map fun i => s.regI 32 (0xD30000 + i)
    let worst := vs.foldl min (vs.headD 0)
    let f := mean ((List.range 8).map fun i => s.reg (0xD3007C + 8 * d + i))
    (s.setRegI 32 (0xD3000D + d) worst).setReg (0xD30013 + d) (wearOf d f)) s

/-- Powered seconds (R45). -/
def State.seconds (s : State) : Nat := s.ns / 10 ^ 9

/-- Is a trigger of R531 present? -/
def State.replanWanted (s : State) : Bool :=
  s.pwr.replanDue || s.reg 0xD30009 / s.reg 0xD30002 < s.seconds / s.reg 0xD30002 ||
  s.pwr.tempTicks.any (fun x => 4096 ≤ x.2) ||
  (List.range 3).any fun d => s.regI 32 (0xD3000D + d) + 100 ≤ (s.reg 0xD30003 : Int)

/-- A re-plan starts (R531); a trigger that arrives while one runs is ignored. -/
def State.startReplan (s : State) : State :=
  if s.reg 0xD30008 == 1 then s else
  let s := ((s.setReg 0xD30008 1).setReg 0xD30009 s.seconds).bump 0xE12009 1
  { s with pwr := { s.pwr with
      domains := (List.range 3).map fun n => { n, mode := 4 }
      replanTemp := (List.range 3).map fun d => (d, s.temp (0x0D + d))
      tempTicks := []
      replanDue := false } }

/-- R531: a trigger of a re-plan. -/
def execReplan (s : State) : Res := live s fun s => if s.replanWanted then s.startReplan else s

/-- R531: 1 is written to 0xD300:07. -/
def execReplanRequest (v : Nat) (s : State) : Res := live s fun s => if v == 1 then s.startReplan else s

/-- One step of voltage in a domain (R532). -/
def State.stepVolt (s : State) (d : Nat) (up : Bool) : State :=
  let v := s.reg (0xD3000A + d)
  (s.setReg (0xD3000A + d) (if up then min (s.reg 0xD30006) (v + 5) else max (s.reg 0xD30005) (v - 5))).bump 0xE1200A 1

/-- The step of one domain of a re-plan at a tick (R532), from the slack measured at its cycle 0. -/
def State.replanDomain (s : State) (x : Domain) : State × Domain :=
  let slack := s.regI 32 (0xD3000D + x.n)
  let target : Int := s.reg 0xD30003
  let v := s.reg (0xD3000A + x.n)
  let raise (s : State) : State × Domain := if slack < target && v < s.reg 0xD30006 then (s.stepVolt x.n true, { x with mode := 0 }) else (s, { x with mode := 2 })
  let lower (s : State) : State × Domain := if s.reg 0xD30005 < v then (s.stepVolt x.n false, { x with mode := 1 }) else (s, { x with mode := 2 })
  match x.mode with
  | 4 => if slack < target then raise s else lower s
  | 0 => raise s
  | 1 => if slack < target then (s.stepVolt x.n true, { x with mode := 3 }) else lower s
  | _ => (s, { x with mode := 2 })

/-- The ageing work of a tick (R531 to R533). -/
def State.ageTick (s : State) (slack : List (Nat × Int)) : State :=
  let far (d : Nat) : Bool := match lk s.pwr.replanTemp d with
    | some t => (s.reg 0xD30004 * 1000 : Nat) ≤ (s.temp (0x0D + d) - t).natAbs
    | none => false
  let tt := (List.range 3).filterMap fun d => if far d then some (d, (lk s.pwr.tempTicks d).getD 0 + 1) else none
  let s := { s with pwr := { s.pwr with tempTicks := tt } }
  if s.reg 0xD30008 != 1 then s else
  let s := (slack.filter (·.1 < 3)).foldl (fun s x => s.setRegI 32 (0xD3000D + x.1) x.2) s
  let (s, ds) := s.pwr.domains.foldl (fun (a : State × List Domain) x => let (s, y) := a.1.replanDomain x; (s, a.2 ++ [y])) (s, [])
  let s := { s with pwr := { s.pwr with domains := ds } }
  let s := (List.range 3).foldl (fun s d =>
    let v := s.reg (0xD3000A + d)
    let out := decide (s.reg 0xD30006 ≤ v) && decide (s.regI 32 (0xD3000D + d) < (s.reg 0xD30003 : Int))
    (s.setReg (0xD30010 + d) (s.reg 0xD30006 - v)).setReg (0xD30019 + d) (b2n out)) s
  if ds.all (fun x => x.mode == 2) then { s with pwr := { s.pwr with domains := [] } }.setReg 0xD30008 0 else s

end Sys2Proof.Machine
end

