-- ==== Sys2Proof/Machine/Time.lean ====
section
/-! DEFINITION. The period, tick alignment and overruns (R22 to R48, R343). -/

namespace Sys2Proof.Machine

/-! ### The period (R30, R36 to R38) -/

/-- The capacities of the work window of a period (R30). -/
def State.capacities (s : State) (p : Nat) : State :=
  let w := p - 8
  let s := ((s.setReg 0x200203 (w * 1000)).setReg 0x200205 (w * 1900)).setReg 0x200206 (w * 300)
  ((s.setReg 0x200207 (w * 409600)).setReg 0x200208 (w * 76800)).setReg 0x200209 (w * 1600000)

/-- Why a period change is refused (R37): the period's range, the notice of 256 ticks, or a pending change. -/
def State.periodOk (s : State) (period switch : Nat) : Bool :=
  125 ≤ period && period ≤ 2000 && s.ftick + 256 ≤ switch && s.time.change.isNone

/-- An accepted period change is pending and goes to every live peer (R37). -/
def State.periodStart (s : State) (period switch : Nat) : State :=
  let peers := s.liveSet.filter (· != s.node)
  let s := { s with time := { s.time with change := some { period, switch, origin := true, peers, acks := [] } } }
  (((s.setReg 0x200002 period).setReg 0x200003 switch).setReg 0x200004 1).sendAll peers 0x15 0 false (.period period switch)

/-- A period change is written here (R37): refused and counted, or accepted. -/
def State.periodWrite (s : State) (period switch : Nat) : State :=
  if s.periodOk period switch then s.periodStart period switch else s.bump 0xE0100D 1

/-- R37: a signed command changes the period. -/
def execPeriodChange (period switch : Nat) (s : State) : Res := live s fun s => s.periodWrite period switch

/-- R37, R38: a change arrives and is acknowledged; one whose tick has passed is stale (R25). -/
def execPeriodChangeReceive (src period switch : Nat) (s : State) : Res := live s fun s =>
  match s.time.change with
  | some c => if c.period == period && c.switch == switch then s.send src 0x15 0 (.periodAck c.switch) else s
  | none =>
    if switch ≤ s.ftick then s.stale else
    let s := { s with time := { s.time with change := some { period, switch, origin := false, peers := [], acks := [] } } }
    (((s.setReg 0x200002 period).setReg 0x200003 switch).setReg 0x200004 1).send src 0x15 0 (.periodAck switch)

/-- R38: a peer acknowledges to the Molset that told it of the change. -/
def execPeriodChangeAck (src : Nat) (s : State) : Res := live s fun s =>
  match s.time.change with
  | some c => if c.peers.contains src && !c.acks.contains src then
      { s with time := { s.time with change := some { c with acks := c.acks ++ [src] } } } else s
  | none => s

/-- The pending change is cancelled (R38). -/
def State.periodCancel (s : State) : State :=
  if s.time.change.isNone then s else ({ s with time := { s.time with change := none } }.setReg 0x200004 2).bump 0xE0100D 1

/-- R38: the change is cancelled everywhere. -/
def execPeriodChangeCancel (s : State) : Res := live s State.periodCancel

/-- At a tick the Molset that distributed a change, or that passed it on to those that joined since, cancels it for every live peer if an acknowledgement
of a live one is missing 32 ticks before the switch (R38). -/
def State.periodMargin (s : State) : State :=
  match s.time.change with
  | some c =>
    if c.switch ≤ s.ftick + 32 && s.liveSet.any (fun n => n != s.node && c.peers.contains n && !c.acks.contains n) then
      (s.sendAll s.liveSet 0x15 0 false (.periodCancel c.switch)).periodCancel
    else s
  | none => s

/-- Step 4 of a tick (R22, R38): the switch that names it. A change whose tick has passed, as when the tick number was set anew (R46), is not applied
(R25). 0x2000:03 keeps the tick of the last change (entry 52). -/
def State.periodTick (s : State) : State :=
  match s.time.change with
  | some c =>
    if s.ftick < c.switch then s else
    let s := { s with time := { s.time with change := none } }.setReg 0x200004 0
    if c.switch == s.ftick then ((s.setReg 0x200001 c.period).bump 0xE0100C 1).capacities c.period else s.stale
  | none => s

/-! ### Alignment (R40 to R43, R46, R343) -/

/-- Is a fabric link up? -/
def State.linkUp (s : State) : Bool := (List.range 16).any fun p => s.portState p == 3

/-- Enter the acquiring state (R41, R42): 0x2001:07 counts afresh. -/
def State.acquire (s : State) : State :=
  { s with time := { s.time with lockCount := 0, acquire := 0, markerLost := 0 } }.setReg 0x200104 1

/-- The upstream peer (R343): of the peers in the locked state and the reference itself, the one with the fewest hops, then the lowest node. One whose
marker did not come in the last frame is none (R42). -/
def State.chooseUpstream (s : State) : Option PeerMark :=
  let ok := s.time.marks.filter fun m => m.age ≤ 1 && (m.align == 2 || m.node == s.reg 0x200101)
  (sortBy (fun (a b : PeerMark) => a.hops < b.hops || (a.hops == b.hops && a.node < b.node)) ok).head?

/-- The phase error changes (R41, R48): register, peak, and the bound of the locked state. -/
def State.phaseError (s : State) (err : Int) : State :=
  let s := (s.setRegI 32 0x200102 err).setReg 0x200103 (max (s.reg 0x200103) err.natAbs)
  if s.reg 0x200104 == 2 && 1000 < err.natAbs then s.outOfPhase else s

/-- Does the marker of a peer carry the tick number of the reference: the peer is the reference, or is locked to it (R40, R46)? -/
def fromReference (ref : Nat) (m : Marker) : Bool := m.align == 2 || m.sender == ref

/-- A Molset that joins a fabric sets its tick offset from the first marker that carries the reference's number (R46); the reference itself, the lowest
node, keeps its own. -/
def State.joinOffset (s : State) (m : Marker) : State :=
  let ref := min m.sender (s.liveSet.foldl min s.node)
  if !s.time.offsetDue || ref == s.node || !fromReference ref m then s
  else { s with time := { s.time with offsetDue := false } }.setRegI 64 0x201003 ((m.tick : Int) - s.now)

/-- The first marker, and a marker out of phase, move the alignment state to acquiring (R41); joining a fabric sets the tick offset (R46). In holdover the
marker regained is that of the upstream peer: to locked. 0x2001:05 keeps the ticks of the holdover that ended (entry 52). -/
def State.markerState (s : State) (m : Marker) : State :=
  match s.reg 0x200104 with
  | 0 =>
    let s := s.acquire
    { s with time := { s.time with joining := true, offsetDue := true } }.joinOffset m
  | 1 => s.joinOffset m
  | 3 => if s.chooseUpstream.any fun u => u.node == m.sender then s.setReg 0x200104 2 else s
  | 4 => s.acquire
  | _ => s

/-- The marker that a tick sends on a port (R343). -/
def State.markerOut (s : State) (p : Nat) : MarkerOut :=
  let peer := s.time.marks.find? fun m => m.node == s.reg (0x800201 + p) % 4096
  { sender := s.node, ref := s.reg 0x200101, hops := if s.reg 0x200101 == s.node then 0 else s.time.hops, align := s.reg 0x200104, tick := s.ftick
    t1 := Config.oscTime s.now p, t2 := (peer.map (·.t1)).getD 0, t3 := (peer.map (·.t4)).getD 0, phase := s.regI 32 0x200102 }

/-- A marker leaves on every up port (R343). -/
def State.sendMarkers (s : State) : State :=
  { s with net := { s.net with markers := ((List.range 16).filter fun p => s.portState p == 3).map fun p => (p, s.markerOut p) } }

/-- R343: a marker of a peer: the link delay, the upstream peer, and this Molset's phase error. -/
def execTickMarker (m : Marker) (s : State) : Res := live s fun s =>
  if !s.linkUp then s else
  let delay := ((m.t4 - m.t2) - (m.t1 - m.t3)) / 2
  let mk : PeerMark := { node := m.sender, age := 0, t1 := m.t1, t4 := m.t4, delay, align := m.align, hops := m.hops, phase := m.phase }
  let was := s.time.upstream
  let s := { s with time := { s.time with marks := sortBy (fun (a b : PeerMark) => a.node < b.node) (mk :: s.time.marks.filter (·.node != m.sender)) } }
  let s := s.markerState m
  if s.reg 0x200101 == s.node then
    { s with time := { s.time with upstream := none, hops := 0, markerSeen := true, markerLost := 0 } }.phaseError 0
  else
    match s.chooseUpstream with
    | none => s
    | some u =>
      let new := was != some u.node
      let s := { s with time := { s.time with
        upstream := some u.node, hops := min 0xFF (u.hops + 1), lockCount := if new && s.reg 0x200104 == 1 then 0 else s.time.lockCount } }
      if u.node != m.sender then s
      else ({ s with time := { s.time with markerSeen := true, markerLost := 0 } }).phaseError ((m.own - m.t1 + delay + m.phase).tdiv 16)

/-- R41: the marker has been lost: locked goes to holdover; after 64 ticks without it acquiring goes out of phase. -/
def execMarkerLost (s : State) : Res := live s fun s =>
  if s.reg 0x200104 == 2 && 1 ≤ s.time.markerLost then ((s.setReg 0x200104 3).setReg 0x200105 0).bump 0xE0100A 1
  else if s.reg 0x200104 == 1 && 64 ≤ s.time.markerLost then s.outOfPhase
  else s

/-- R41, R348: 16 ticks in a row within 100 ns: locked. A Molset that joins fetches the map. -/
def execAlignmentLock (s : State) : Res := live s fun s =>
  if !(s.reg 0x200104 == 1 && 16 ≤ s.time.lockCount) then s else
  let s := s.setReg 0x200104 2
  if !s.time.joining then s else
  match s.time.upstream.orElse fun _ => (s.liveSet.find? (· != s.node)) with
  | some u => ({ s with map := { s.map with fetching := true } }).send u 0x12 0 .mapFetch
  | none => { s with time := { s.time with joining := false } }

/-- R41, R42: not locked within 0x2001:07 ticks of entry. -/
def execAcquireTimeout (s : State) : Res := live s fun s =>
  if s.reg 0x200104 == 1 && s.reg 0x200107 ≤ s.time.acquire then s.outOfPhase else s

/-- R41: holdover has lasted more than 64 ticks, or its estimated error exceeds 1,000 ns. -/
def execHoldoverTimeout (err : Nat) (s : State) : Res := live s fun s =>
  if s.reg 0x200104 == 3 && (64 < s.reg 0x200105 || 1000 < err) then s.outOfPhase else s

/-- R41: no fabric link: acquiring goes to free-running, and so does out-of-phase after 64 ticks. -/
def execFreeRunTimeout (s : State) : Res := live s fun s =>
  if s.linkUp then s
  else if s.reg 0x200104 == 1 || (s.reg 0x200104 == 4 && 64 ≤ s.time.noLink) then
    { s with time := { s.time with joining := false, marks := [], upstream := none, hops := 0xFF } }.setReg 0x200104 0
  else s

/-- R48: writing 1 clears the peak phase error. -/
def execClearPeakPhase (v : Nat) (s : State) : Res := live s fun s => if v == 1 then s.setReg 0x200103 0 else s

/-- What a tick counts for the alignment state (R41). -/
def State.alignTick (s : State) : State :=
  let t := s.time
  let a := s.reg 0x200104
  let within := t.markerSeen && (s.regI 32 0x200102).natAbs ≤ 100
  let s := if a == 3 then s.setReg 0x200105 (s.reg 0x200105 + 1) else s
  { s with time := { t with
      marks := t.marks.map fun m => { m with age := m.age + 1 }
      lockCount := if a == 1 && within then t.lockCount + 1 else 0
      acquire := if a == 1 then t.acquire + 1 else t.acquire
      markerLost := if t.markerSeen then 0 else t.markerLost + 1
      markerSeen := false
      noLink := if s.linkUp then 0 else t.noLink + 1 } }

/-- The phase correction of a frame (R41): while locked or in holdover the Molset slews by at most 20 ns; while acquiring it steps by the whole error. The
error is the measured one, or what the last correction left where no marker came. -/
def State.slewTick (s : State) : State :=
  let err := if s.time.markerSeen then s.regI 32 0x200102 else s.time.resid
  let by_ : Int := match s.reg 0x200104 with | 1 => err | 2 => max (-20) (min 20 err) | 3 => max (-20) (min 20 err) | _ => 0
  { s with time := { s.time with slew := by_, resid := err - by_ } }

/-- The tick reference (R40): the lowest live node; one that is only out of reach stays until it is decided to have failed. -/
def State.referenceTick (s : State) : State :=
  let cur := s.reg 0x200101
  let c := (s.liveSet.filter fun n => !s.hasFailed n) ++ (if s.hasFailed cur then [] else [cur])
  s.setReference (c.foldl min s.node)

/-! ### Overrun (R33) -/

/-- Is work of a skein unfinished by the carry limit after its return tick: a query, here or at its home, or a job (R33, R247)? -/
def State.overdue (s : State) (k : Nat) : Bool :=
  let past (ret : Nat) : Bool := ret + s.reg 0x200204 ≤ s.ftick
  s.home.any (fun h => h.name.skein == k && h.phase < 6 && past h.ret) ||
  s.copy.any (fun c => c.name.skein == k && c.phase < 4 && past (k + (if c.par.r == 0 then 3 else 4))) ||
  s.dense.jobs.any (fun j => j.adm == k && !j.done && past (k + j.frames)) ||
  s.emb.jobs.any fun j => j.adm == k && !j.done && past (k + j.frames)

/-- R33: a skein's work is still unfinished at the carry limit: a frame-overrun fault, once per skein. -/
def execFrameOverrun (skein : Nat) (s : State) : Res := live s fun s =>
  if s.time.overrun.contains skein || !s.overdue skein then s else
  let s := { s with time := { s.time with overrun := s.time.overrun ++ [skein] } }
  (s.bump 0xE01007 1).raiseFault 1 s.node 0 0 0

end Sys2Proof.Machine
end

