-- ==== Sys2Proof/Machine/Dict.lean ====
section
/-! DEFINITION. The object dictionary's access (R485 to R510): reads, the checks of a write, pending writes and conflicts, the effect of a write, the
mailbox (R448 to R450), signed commands (R463, R464) and the Dictionary Access Protocol. -/

namespace Sys2Proof.Machine

/-- The next state of a meaning that always has one. -/
def runRes (f : State → Res) (s : State) : State := match f s with | .next t => t | _ => s

/-! ### Reads (R47, R485 to R491) -/

/-- Who holds a pin or a timer in effect (R509): the detail word of the function entry that names it, or 0. -/
def State.holder (s : State) (shift unit : Nat) : Nat :=
  match ((List.range 32).map (0xD20001 + ·)).find? fun k => s.reg k / 2 ^ shift % 16 == unit with
  | some k => detailEntry 1 k
  | none => 0

/-- The number that an entry reads (R50, R485, R491, R509). -/
def State.readNat (s : State) (k : Key) : Nat :=
  match cntRow k with
  | some r => if r.perTick then (lk s.last k).getD 0 else s.cnt k
  | none =>
    if isCount k then countEntry (k / 256)
    else if k == 0x1F0001 then indicesInUse.length
    else if k == 0x1F2002 then s.reg 0x703001 + s.reg 0x580012
    else if 0x1F2101 ≤ k && k ≤ 0x1F2108 then s.holder 0 (k - 0x1F2101)
    else if 0x1F2109 ≤ k && k ≤ 0x1F210C then s.holder 4 (k - 0x1F2109)
    else s.reg k

/-- The type of an entry: a count entry is a U8 (R485), a counter a U64. -/
def tyOf (k : Key) : Ty := match objRow k with | some r => r.ty | none => if (cntRow k).isSome then .u64 else .u8

/-- The bytes that a read of an entry returns (R489). -/
def State.valueBytes (s : State) (k : Key) : List Byte :=
  if k == 0x1F0003 then indicesInUse.flatMap catalogueRecord else
  let ty := tyOf k
  if ty.width == 0 then s.blob k else leBytes ty.width (s.readNat k)

/-- The right of an entry (R490): counters and count entries are read-only. -/
def accOf (k : Key) : Acc := match objRow k with | some r => r.acc | none => .ro

/-- A whole object (R488): every entry that may be read, with its head; none if a BLOB is too long for its length field. -/
def State.wholeBytes (s : State) (i : Nat) : Option (List Byte) :=
  let ks := ((List.range 256).filter (subExists i)).map (key i)
  let ks := ks.filter fun k => accOf k != .wo
  if ks.any fun k => 65535 < (s.valueBytes k).length then none
  else some (ks.flatMap fun k =>
    let v := s.valueBytes k
    leBytes 1 (k % 256) ++ leBytes 1 (tyOf k).code ++ leBytes 2 v.length ++ v ++ List.replicate (cdiv v.length 4 * 4 - v.length) 0)

/-- A read of object 0x2010 finds the powered nanoseconds that have passed by then (R45, R47): how many since the last instant known is a free value
(entry 12). -/
def State.clockRead (s : State) (i : Nat) : State :=
  if i != 0x2010 then s else
  let (n, s) := s.draw
  s.setReg 0x201001 (s.ns + Config.freeNat n)

/-- The value that a read latches, or its status (R487, R488, R490). -/
def State.latch (s : State) (i sub : Nat) (whole : Bool) : Except Nat (List Byte) :=
  if !indexExists i then .error 0x0D01
  else if whole then (match s.wholeBytes i with | some v => .ok v | none => .error 0x0D0A)
  else if !subExists i sub then .error 0x0D02
  else if accOf (key i sub) == .wo then .error 0x0D03
  else .ok (s.valueBytes (key i sub))

/-! ### The checks of a write (R495, R497 to R500) -/

/-- May a BLOB entry have this length (R489)? -/
def blobLenOk (k : Key) (n : Nat) : Bool :=
  if k == 0xA00201 || k == 0xA00203 || (0xA10000 ≤ k && k < 0xA10400) then n == 1640
  else if k == 0xA00301 then 4 ≤ n
  else if 0xA01001 ≤ k && k ≤ 0xA01010 then n == 34
  else if k == 0x804001 then 32 ≤ n && n % 24 == 8
  else n == 16

/-- The value that bytes spell under a type; none if length or encoding do not fit (R489). -/
def decodeVal (k : Key) (b : List Byte) : Option DVal :=
  let v := leNat b
  match tyOf k with
  | .bool => if b.length == 1 && v ≤ 1 then some (.num v) else none
  | .f32 => if b.length == 4 && !isNaN (BitVec.ofNat 32 v) then some (.num v) else none
  | .str => if b.length ≤ 255 && b.all (fun c => 0x20 ≤ c.toNat && c.toNat ≤ 0x7E) then some (.bytes b) else none
  | .blob => if blobLenOk k b.length then some (.bytes b) else none
  | t => if b.length == t.width then some (.num v) else none

/-- The number of a value. -/
def valNat (v : DVal) : Nat := match v with | .num n => n | .bytes b => leNat b

/-- The value that an entry holds once the pending writes have taken effect (R498). -/
def State.afterPend (s : State) (pend : List PWrite) (k : Key) : Nat :=
  (pend.foldl (fun a w => if w.k == k then some (valNat w.v) else a) none).getD (s.reg k)

/-- Does a sideband function use a timer (R527)? -/
def needsTimer (n : Nat) : Bool := n == 3 || n == 7 || n == 8

/-- Is the value of a sideband function entry valid (R527)? -/
def sidebandOk (n v : Nat) : Bool :=
  let pin := v % 16
  let tm := v / 16 % 16
  if 0x0D ≤ n then v == 0x00FF
  else v < 512 && (pin < 8 || pin == 15) && (tm < 4 || tm == 15) && (if needsTimer n then (pin == 15) == (tm == 15) else tm == 15)

/-- Does the value lie in the range that the object's table gives (R495)? -/
def State.inRange (s : State) (pend : List PWrite) (k : Key) (v : DVal) : Bool :=
  match objRow k, v with
  | some r, .num n =>
    let n' : Int := if r.ty == .i32 then toInt 32 n else if r.ty == .i64 then toInt 64 n else n
    decide ((r.lo : Int) ≤ n') && decide (n' ≤ (r.hi : Int)) && (r.mult == 0 || n % r.mult == 0) &&
    (if 0xD20001 ≤ k && k ≤ 0xD20020 then sidebandOk (k - 0xD20000) n
     else if 0xC01400 ≤ k && k < 0xC01800 then 6 ≤ n % 256 && n % 256 ≤ 16 && 6 ≤ n / 256 && n / 256 ≤ 16
     else if 0xC10000 ≤ k && k < 0xC11000 then n < 2 ^ 60
     else if k == 0xA02005 then n ≤ s.reg 0xA00002
     else if k == 0x702002 then s.afterPend pend 0x702001 < n
     else if k == 0x702001 then n < s.afterPend pend 0x702002
     else if k == 0x200003 then n == 0 || s.ftick + 256 ≤ n
     else true)
  | _, .bytes b => if k == 0xA01001 then true else if k == 0x804001 then eNat b 12 4 * 24 + 32 == b.length && eZero b 17 7 else true
  | none, _ => false

/-- The state of a tenant once the pending control codes and key records have taken effect (R498). -/
def State.tstateAfter (s : State) (pend : List PWrite) (t : Nat) : Nat :=
  pend.foldl (fun st w =>
    if w.k == pagedKey 0xA100 t then (if st == 1 then 2 else st)
    else if w.k == pagedKey 0xA108 t then
      match valNat w.v with | 1 => 1 | 2 => 3 | 3 => 4 | 4 => 4 | 5 => if st == 2 then 0 else st | _ => st
    else st) (s.tstate t)

/-- Is a control code accepted in a state of the tenant (R467)? -/
def codeOk (code st : Nat) : Bool :=
  match code with
  | 1 => st == 0
  | 2 => st == 2
  | 3 => st == 2 || st == 3
  | 4 => st == 2 || st == 3
  | 5 => st == 2 || st == 4
  | _ => false

/-- Does the state of the Molset or the tenant allow the write (R495)? -/
def State.stateOk (s : State) (pend : List PWrite) (k : Key) (v : DVal) (signed : Bool) : Bool :=
  if 0xC01000 ≤ k && k < 0xC01800 then s.tstateAfter pend (pageOf k) != 3
  else if 0xA10800 ≤ k && k < 0xA10C00 then codeOk (valNat v) (s.tstateAfter pend (pageOf k))
  else if 0xA10000 ≤ k && k < 0xA10400 then
    match v with
    | .bytes b => (s.tenantKeyOf (pageOf k) (parseRecord b)).isSome
    | .num _ => false
  else if k == 0xA00201 || k == 0xA00203 then
    match v with
    | .bytes b => (parseRecord b).tenant == 0xFFFF && (s.openRecord (parseRecord b)).isSome && (k == 0xA00203 || s.operatorRecordOk signed)
    | .num _ => false
  else if 0xD10001 ≤ k && k ≤ 0xD10006 then !s.maskRefused (k - 0xD10000) (valNat v)
  else if k == 0x200003 then valNat v == 0 || s.time.change.isNone
  else true

/-- The detail word of a holder: pending or in effect (R499). -/
def holderDetail (pend : List PWrite) (k : Key) : Nat := detailEntry (if pend.any (·.k == k) then 2 else 1) k

/-- The holder that a write conflicts with (R497, R498), as the detail word. -/
def State.conflict (s : State) (pend : List PWrite) (k : Key) (v : DVal) : Option Nat :=
  let n := valNat v
  if 0xD20001 ≤ k && k ≤ 0xD20020 then
    let others := ((List.range 32).map (0xD20001 + ·)).filter (· != k)
    let pin := if n % 16 == 15 then none else others.find? fun o => s.afterPend pend o % 16 == n % 16
    let tm := if n / 16 % 16 == 15 then none else others.find? fun o => s.afterPend pend o / 16 % 16 == n / 16 % 16
    (pin.orElse fun _ => tm).map (holderDetail pend)
  else if k == 0x703001 || k == 0x580012 then
    let o := if k == 0x703001 then 0x580012 else 0x703001
    if s.reg 0x1F2001 < n + s.afterPend pend o then some (holderDetail pend o) else none
  else none

/-- The checks of R495 in their order: the entry and its value, or the status and the detail word. -/
def State.checkWrite (s : State) (pend : List PWrite) (w : DWrite) (signed : Bool) : Except (Nat × Nat) (Key × DVal) :=
  let k := key w.index w.sub
  if !indexExists w.index then .error (0x0D01, 0)
  else if 255 < w.sub || !subExists w.index w.sub then .error (0x0D02, 0)
  else if accOf k == .ro || k == 0xC10000 then .error (0x0D03, 0)
  else if accOf k == .sig && !signed then .error (0x0D04, 0)
  else
    match decodeVal k w.value with
    | none => .error (0x0D05, 0)
    | some v =>
      if !s.inRange pend k v then .error (0x0D06, 0)
      else if !s.stateOk pend k v signed then .error (0x0D08, 0)
      else if pend.any (·.k == k) then .error (0x0D09, 0)
      else
        match s.conflict pend k v with
        | some d => .error (0x0D07, d)
        | none => .ok (k, v)

/-- Count a refusal (R496, R500, R469), that of a period change among them (R37, R49). -/
def State.refusal (s : State) (st : Nat) (k : Key) : State :=
  let s := ((s.bumpIf (0x0D01 ≤ st && st ≤ 0x0DFF) 0xE11004).bumpIf (st == 0x0D07) 0xE11005).bumpIf (st == 0x0D09) 0xE11006
  let s := s.bumpIf ((st == 0x0D06 || st == 0x0D08) && (k == 0x200002 || k == 0x200003)) 0xE0100D
  s.bumpIf ((st == 0x0D08 || st == 0x0D09) && (k == 0xA00201 || k == 0xA00203 || (0xA10000 ≤ k && k < 0xA10400))) 0xE10006

/-! ### The effect of a write (R490 to R494) -/

/-- The settings that an operator signs and that the configuration area stores (R494): quotas, flash regions, node identity, fault group, weights,
buckets and DAP addressing. -/
def operatorSetting (k : Key) : Bool :=
  (0x604000 ≤ k && k < 0x604800) || (0x704000 ≤ k && k < 0x704800) || k == 0x800001 || k == 0x800003 || k == 0x800004 ||
  k == 0x900009 || k == 0x90000A || (0xB01000 ≤ k && k < 0xB01400) || (0xB10000 ≤ k && k < 0xB12000) || (0x1F1001 ≤ k && k ≤ 0x1F1003)

/-- An operator's value is not stored until counter 2 advances (R494). -/
def State.unstored (s : State) (k : Key) (v : DVal) : State :=
  let s := { s with dict := { s.dict with unstored := s.dict.unstored ++ [(k, v)] } }
  (s.setReg 0x1F0005 s.dict.unstored.length).configChange

/-- The map change that bytes spell (R365, R367). -/
def parseChange (b : List Byte) : MapChange where
  epoch := eNat b 0 4
  eff := eNat b 4 8
  origin := eNat b 16 1
  digest := BitVec.ofNat 64 (eNat b 24 8)
  entries := (chunks 24 (b.drop 32)).map fun e => {
    kind := eNat e 0 1, action := eNat e 1 1, tenant := eNat e 2 2, object := eNat e 4 4, shard := eNat e 8 4, a := eNat e 12 2, b := eNat e 14 2,
    c := eNat e 16 2, value := eNat e 18 1 }

/-- The saved start-up values (R494): the RW and RWT values in effect. -/
def State.saveNow (s : State) : State :=
  let mine (k : Key) : Bool := match objRow k with | some r => r.acc == .rwt || r.acc == .rw | none => false
  { s with dict := { s.dict with saved := s.regs.filter fun r => mine r.1 } }.configChange

/-- The saved start-up values are discarded. -/
def State.discardSaved (s : State) : State := { s with dict := { s.dict with saved := [] } }.configChange

/-- R494: writing 1 to 0x1F00:04 takes effect. -/
def execSaveSettings (s : State) : Res := live s State.saveNow

/-- R494: writing 2 to 0x1F00:04 takes effect. -/
def execDiscardSettings (s : State) : Res := live s State.discardSaved

/-- A tenant control code takes effect (R467). -/
def State.control (s : State) (t code : Nat) : State :=
  let s := s.setReg (pagedKey 0xA108 t) code
  match code with
  | 1 => runRes (execTenantCreate t) s
  | 2 => runRes (execEnterService t) s
  | 3 => runRes (execTeardown t) s
  | 4 => runRes (execForcedTeardown t) s
  | 5 => runRes (execTenantRelease t) s
  | _ => s

/-- A write takes effect on its entry. A reset command and a firmware activation keep the value; what follows is the row of its own that carries what is
measured. A period change was judged when its command was accepted (R37); a switch tick of 0 changes nothing (entry 52). -/
def State.perform (s : State) (k : Key) (v : DVal) (signed : Bool) : State :=
  match v with
  | .bytes b =>
    if k == 0x804001 then s.writeChange (parseChange b)
    else if k == 0xA00201 then runRes (execOperatorKeyRecord (parseRecord b) signed) s
    else if k == 0xA00203 then runRes (execDapKeyRecord (parseRecord b)) s
    else if k == 0xA00301 then runRes (execFirmwareImagePiece (eNat b 0 4) (b.drop 4)) s
    else if 0xA01001 ≤ k && k ≤ 0xA01010 then runRes (execQuoteRequest (k - 0xA01000) (b.take 32) (eNat b 32 2)) s
    else if 0xA10000 ≤ k && k < 0xA10400 then runRes (execTenantKeyRecord (parseRecord b)) s
    else (s.setBlob k b).unstored k v
  | .num n =>
    if k == 0x200003 then (if n == 0 then s else if s.time.change.isSome then s.bump 0xE0100D 1 else s.periodStart (s.reg 0x200002) n)
    else if k == 0x200106 then runRes (execClearPeakPhase n) s
    else if 0x800301 ≤ k && k ≤ 0x800310 then s.setPortKind (k - 0x800301) n
    else if k == 0x800001 || k == 0x800003 || k == 0x800004 then s.unstored k v
    else if k == 0x900008 then runRes (execDrainRequest n) s
    else if k == 0xB0000C then runRes (execClearPeaks n) s
    else if 0xC01000 ≤ k && k < 0xC01800 then s.setRingArea (pageOf k) fun s => s.setReg k n
    else if k == 0xA02005 then runRes (execRaiseFloor n) s
    else if 0xA10800 ≤ k && k < 0xA10C00 then s.control (pageOf k) n
    else if k == 0x1F0004 then (if n == 1 then s.saveNow else s.discardSaved)
    else if k == 0xD0000A then runRes (execClearPeakPower n) s
    else if 0xD10001 ≤ k && k ≤ 0xD10006 then runRes (execPerBlockReset (k - 0xD10000) n) s
    else if k == 0xD20025 then runRes (execLocate n) s
    else if k == 0xD30007 then runRes (execReplanRequest n) s
    else if operatorSetting k then (s.setReg k n).unstored k v
    else s.setReg k n

/-- Step 7 of a tick (R22, R24, R493): every pending write that names it is applied, in the order of acceptance. A switch tick is applied after the period
that its command writes (R37). -/
def State.applyWrites (s : State) : State :=
  let due := s.dict.pend.filter (·.tick ≤ s.now)
  let s := { s with dict := { s.dict with pend := s.dict.pend.filter (s.now < ·.tick) } }
  let order := due.filter (·.k != 0x200003) ++ due.filter (·.k == 0x200003)
  order.foldl (fun s w => (s.perform w.k w.v w.signed).bump 0xE11003 1) s

/-- A write that passed its checks (R490, R492): performed at once if its right is WO, or pending for the next tick. -/
def State.accepted (s : State) (k : Key) (v : DVal) (signed : Bool) : State × Bool :=
  let s := s.bump 0xE11002 1
  if !signed && (accOf k == .wo || accOf k == .rw) && !(0xA10000 ≤ k && k < 0xA10400) then (s.perform k v false, true)
  else ({ s with dict := { s.dict with pend := s.dict.pend ++ [{ k, v, tick := s.now + 1, signed }] } }, false)

/-- A plain write (R495): its status, detail word and effective fabric tick. -/
def State.plainWrite (s : State) (w : DWrite) : State × Nat × Nat × Nat :=
  match s.checkWrite s.dict.pend w false with
  | .error (st, d) => (s.refusal st (key w.index w.sub), st, d, 0)
  | .ok (k, v) =>
    let (s, now) := s.accepted k v false
    (s, 0, 0, if now then 0 else s.ftick + 1)

/-- The checks of the writes of a command, each against what the earlier ones would leave (R498, R500). -/
def State.checkWrites (s : State) (pend : List PWrite) : List DWrite → Nat → Except (Nat × Nat × Nat × Key) (List (Key × DVal))
  | [], _ => .ok []
  | w :: ws, i =>
    match s.checkWrite pend w true with
    | .error (st, d) => .error (st, d, i, key w.index w.sub)
    | .ok (k, v) =>
      match s.checkWrites (pend ++ [{ k, v, tick := s.now + 1, signed := true }]) ws (i + 1) with
      | .error e => .error e
      | .ok l => .ok ((k, v) :: l)

/-- A signed command (R464, R495): its status, detail word and failing write. -/
def State.signedCommand (s : State) (bytes : List Byte) : State × Nat × Nat × Nat :=
  let c := parseSigned bytes
  let st := s.signedStatus c bytes
  if st != 0 then (s.bump (signedRefusal st) 1, st, 0, 0)
  else
    let s := s.setReg (signerCounter c) c.counter
    if !s.scopeOk c then (s.bump 0xE10004 1, 0x0A06, 0, 0)
    else
      match s.checkWrites s.dict.pend c.writes 1 with
      | .error (st, d, i, k) => (s.refusal st k, st, d, i)
      | .ok l => (l.foldl (fun s x => (s.accepted x.1 x.2 true).1) (s.bump 0xE10001 1), 0, 0, 0)

/-- R490: a write is checked and applied by its right. -/
def execRegisterWrite (w : DWrite) (signed : Bool) (s : State) : Res := live s fun s =>
  if signed then
    match s.checkWrite s.dict.pend w true with
    | .error (st, _) => s.refusal st (key w.index w.sub)
    | .ok (k, v) => (s.accepted k v true).1
  else (s.plainWrite w).1

/-! ### The mailbox (R440, R448 to R450, R501) -/

/-- Answer a mailbox request (R450): it leaves the ring, and its response is written. -/
def State.respond (s : State) (seq kind fail status detail tag len off : Nat) (inl : List Byte) : State :=
  let s := s.leave systemTenant seq
  let r := s.ring systemTenant
  let j := r.nextJ
  let e := leBytes 8 j ++ leBytes 8 seq ++ leBytes 1 kind ++ leBytes 1 fail ++ leBytes 2 status ++ leBytes 4 detail ++ leBytes 8 tag ++
    leBytes 4 len ++ leBytes 4 0 ++ leBytes 8 off ++ (inl ++ List.replicate 80 0).take 80
  let s := (s.store systemTenant (s.complAddr systemTenant j) e).bump 0xE0F00C 1
  let s := s.bumpIf (status != 0) 0xE0F011
  s.setRing { s.ring systemTenant with nextJ := j + 1, recent := r.recent ++ [{ j, seq, status, tick := s.ftick + 1, late := 0 }] }

/-- The ring checks of a mailbox request (R440): status, kind and tag of a refusal. -/
def State.mailboxRingCheck (s : State) (seq : Nat) (bad badBuf : Bool) (e : Entry) : Option (Nat × Nat × Nat) :=
  let kind := entryKind e
  let len := eNat e 28 4
  let off := eNat e 32 8
  let long := kind != 0x20 && 88 < len
  match ringCheck true seq bad e with
  | some x => some x
  | none =>
    if 2 ≤ eNat e 27 1 then some (0x0F03, kind, eNat e 16 8)
    else if long && off != 0 && (badBuf || s.poisoned systemTenant off len) then some (0x0F04, kind, eNat e 16 8)
    else if long && off == 0 then some (0x0F05, kind, eNat e 16 8)
    else none

/-- The earlier request of this step 8 whose buffer range overlaps (R449). -/
def State.bufClash (s : State) (off len : Nat) : Option Nat :=
  (s.link.bufs.find? fun b => off < b.2.1 + b.2.2 && b.2.1 < off + len).map (·.1)

/-- The read of a mailbox request (R440, R449, R501). -/
def State.mailboxGet (s : State) (seq tag : Nat) (e : Entry) : State :=
  let len := eNat e 28 4
  let off := eNat e 32 8
  let start := eNat e 40 8
  let s := s.clockRead (eNat e 24 2)
  match s.latch (eNat e 24 2) (eNat e 26 1) (eNat e 27 1 == 1) with
  | .error st => (s.refusal st 0).respond seq 0x20 0 st 0 tag 0 0 []
  | .ok v =>
    if v.length < start then (s.refusal 0x0D0A 0).respond seq 0x20 0 0x0D0A 0 tag 0 0 []
    else
      let v := v.drop start
      let v := if off == 0 then v else v.take len
      if v.length ≤ 80 then (s.bump 0xE11001 1).respond seq 0x20 0 0 0 tag v.length 0 v
      else if off == 0 then (s.bump 0xE0F00B 1).respond seq 0x20 0 0x0F05 0 tag 0 0 []
      else ((s.bump 0xE11001 1).store systemTenant off v).respond seq 0x20 0 0 0 tag v.length off []

/-- The value of a mailbox write or signed command (R449). -/
def State.mailboxValue (s : State) (e : Entry) : List Byte :=
  let len := eNat e 28 4
  if 88 < len then s.load systemTenant (eNat e 32 8) len else eBytes e 40 len

/-- One mailbox request is taken (R448, R449): the ring checks, its buffer range, and then the dictionary's checks. -/
def State.mailboxTake (s : State) (seq : Nat) (bad badBuf : Bool) : State :=
  if !s.covered systemTenant seq || seq != (s.ring systemTenant).cLive + 1 || s.reg 0xC00008 ≤ s.link.taken then s
  else if !s.room systemTenant then (s.setRing { s.ring systemTenant with held := seq }).bump 0xE0F00F 1
  else
    let s := { s with link := { s.link with taken := s.link.taken + 1 } }
    let s := ((s.setRing { s.ring systemTenant with held := 0 }).bump 0xE0F00A 1).bump 0xE0F010 1
    let e := s.entryOf systemTenant seq
    let kind := entryKind e
    let tag := eNat e 16 8
    let len := eNat e 28 4
    let off := eNat e 32 8
    match s.mailboxRingCheck seq (bad || s.poisoned systemTenant (s.slotAddr systemTenant seq) 128) badBuf e with
    | some (st, k, tag) => (s.bump 0xE0F00B 1).respond seq k 0 st 0 tag 0 0 []
    | none =>
      if off != 0 && (off < 0x100000 || 0x200000 < off + len) then (s.refusal 0x0D0A 0).respond seq kind 0 0x0D0A 0 tag 0 0 []
      else
        match (if off == 0 then none else s.bufClash off len) with
        | some q => (s.refusal 0x0D07 0).respond seq kind 0 0x0D07 (detailRequest q) tag 0 0 []
        | none =>
          let s := if off == 0 then s else { s with link := { s.link with bufs := s.link.bufs ++ [(seq, off, len)] } }
          if kind == 0x20 then s.mailboxGet seq tag e
          else if kind == 0x21 then
            let (s, st, d, _) := s.plainWrite { index := eNat e 24 2, sub := eNat e 26 1, value := s.mailboxValue e }
            s.respond seq kind 0 st d tag 0 0 []
          else
            let v := s.mailboxValue e
            let first := (parseSigned v).writes.head?.map fun w => (w.index, w.sub)
            if first.isSome && first != some (eNat e 24 2, eNat e 26 1) then (s.bump 0xE10002 1).respond seq kind 0 0x0A01 0 tag 0 0 []
            else
              let (s, st, d, i) := s.signedCommand v
              s.respond seq kind i st d tag 0 0 []

/-- A mailbox row: a request of its kind. One that fails a ring check belongs to every row. -/
def State.mailboxRow (s : State) (seq : Nat) (bad badBuf : Bool) (kind : Nat) : State :=
  let e := s.entryOf systemTenant seq
  if bad || s.poisoned systemTenant (s.slotAddr systemTenant seq) 128 || !kindValid true (entryKind e) || entryKind e == kind then
    s.mailboxTake seq bad badBuf
  else s

/-- R449: a mailbox read. -/
def execMailboxRead (seq : Nat) (bad : Bool) (s : State) : Res := live s fun s => s.mailboxRow seq bad false 0x20

/-- R449: a mailbox write. -/
def execMailboxWrite (seq : Nat) (bad badBuf : Bool) (s : State) : Res := live s fun s => s.mailboxRow seq bad badBuf 0x21

/-- R449: a mailbox signed command. -/
def execMailboxSignedCommand (seq : Nat) (bad badBuf : Bool) (s : State) : Res := live s fun s => s.mailboxRow seq bad badBuf 0x22

/-- Step 8 takes the mailbox requests that the tick captured, in sequence order (R448). -/
def State.mailboxTick (s : State) : State :=
  let s := { s with link := { s.link with bufs := [], taken := 0 } }
  let r := s.ring systemTenant
  ((List.range (min (r.p - r.cLive) (s.reg 0xC00008))).map (r.cLive + 1 + ·)).foldl (fun s q => s.mailboxTake q false false) s

/-! ### The Dictionary Access Protocol (R502 to R507) -/

/-- The bytes of a request that its tag covers (R503). -/
def dapBytes (d : DapReq) : List Byte :=
  leBytes 2 d.format ++ leBytes 1 d.op ++ leBytes 1 (b2n d.whole + 2 * b2n d.more) ++ leBytes 2 d.client ++ leBytes 2 d.target ++ leBytes 8 d.num ++ d.nonce ++
  leBytes 2 d.index ++ leBytes 1 d.sub ++ leBytes 1 d.res ++ leBytes 4 d.value.length ++ leBytes 8 d.offset ++ d.value

/-- A client's record (R505). -/
def State.dapClient (s : State) (n : Nat) : DapClient := (s.dict.clients.find? fun c => c.client == n).getD { client := n }

/-- Store a client's record. -/
def State.setDapClient (s : State) (c : DapClient) : State :=
  let l := insertBy (fun (a b : DapClient) => a.client < b.client) c (s.dict.clients.filter fun x => x.client != c.client)
  { s with dict := { s.dict with clients := l } }

/-- Send a response on the port of the request (R502, R504). -/
def State.dapSend (s : State) (port : Nat) (r : DapResp) : State := { s with dict := { s.dict with dapOut := s.dict.dapOut ++ [(port, r)] } }

/-- A response without a value. -/
def dapResp (d : DapReq) (tagged : Bool) (status failing detail effect : Nat) : DapResp where
  op := d.op + 128
  client := d.client
  target := d.target
  num := d.num
  status := status
  failing := failing
  detail := detail
  effect := effect
  total := 0
  offset := 0
  value := []
  tagged := tagged

/-- What a performed request answers (R501, R503, R504). -/
def State.dapPerform (s : State) (d : DapReq) (tagged : Bool) : State × DapResp :=
  match d.op with
  | 4 =>
    let v := fixLen 16 (s.blob 0xA00005) ++ leBytes 1 (s.reg 0xA00001) ++ leBytes 1 (b2n s.sec.dapKey.isSome) ++ leBytes 1 (s.reg 0x800002) ++ [0]
    (s, { dapResp d tagged 0 0 0 0 with total := v.length, value := v })
  | 1 =>
    let s := s.clockRead d.index
    match s.latch d.index d.sub d.whole with
    | .error st => (s.refusal st 0, dapResp d tagged st 0 0 0)
    | .ok v =>
      if v.length < d.offset then (s.refusal 0x0D0A 0, dapResp d tagged 0x0D0A 0 0 0)
      else (s.bump 0xE11001 1, { dapResp d tagged 0 0 0 0 with total := v.length, offset := d.offset, value := (v.drop d.offset).take 1136 })
  | _ =>
    let c := s.dapClient d.client
    if d.offset != c.gathered.length || 65536 < c.gathered.length + d.value.length then
      ((s.setDapClient { c with gathered := [] }).refusal 0x0D0A 0, dapResp d tagged 0x0D0A 0 0 0)
    else
      let v := c.gathered ++ d.value
      if d.more then (s.setDapClient { c with gathered := v }, dapResp d tagged 0 0 0 0)
      else
        let s := s.setDapClient { c with gathered := [] }
        if d.op == 2 then
          let (s, st, det, eff) := s.plainWrite { index := d.index, sub := d.sub, value := v }
          (s, dapResp d tagged st 0 det eff)
        else
          let (s, st, det, i) := s.signedCommand v
          (s, dapResp d tagged st i det (if st == 0 then s.ftick + 1 else 0))

/-- Does an index lie in the ranges that are read without a tag (R506)? -/
def openIndex (i : Nat) : Bool := (0x1000 ≤ i && i < 0x2000) || (0xA000 ≤ i && i < 0xB000)

/-- Is a request without a valid tag answered (R506)? -/
def State.dapExempt (s : State) (d : DapReq) : Bool :=
  let nokey := s.sec.dapKey.isNone
  d.op == 4 || (d.op == 1 && openIndex d.index && (nokey || s.reg 0xA00001 != 0)) ||
  (nokey && (d.op == 3 || (d.op == 2 && d.index == 0xA002 && d.sub == 1)))

/-- A request that is malformed, or not for this Molset and its power-on, is refused (R503, R505); 0 passes. -/
def State.dapForm (s : State) (d : DapReq) : Nat :=
  if d.format != 1 || d.res != 0 || 31 < d.client || 1152 < d.value.length || d.op < 1 || 4 < d.op then 0x0D05
  else if d.op != 4 && d.nonce != s.blob 0xA00004 then 0x0A02
  else if !(d.target == s.node || (d.target == 0 && (d.op == 4 || s.reg 0x800002 == 0))) then 0x0A02
  else 0

/-- A DAP datagram arrives (R502 to R507). -/
def State.dapIn (s : State) (d : DapReq) : State :=
  if 2 ≤ d.port || s.resetting 1 (4 + d.port) then s else
  let s := s.bump 0xE11007 1
  let auth := match s.sec.dapKey with | some k => Config.hmac k (dapBytes d) == d.tag | none => false
  let stopped := s.reg 0xA00001 != 0
  if !auth && !s.dapExempt d then
    if s.sec.dapKey.isSome then s.bump 0xE11008 1 else (s.refusal 0x0D0C 0).dapSend d.port (dapResp d false 0x0D0C 0 0 0)
  else if stopped && !(d.op == 4 || (d.op == 1 && openIndex d.index)) then s
  else
    let st := s.dapForm d
    if st != 0 then ((s.refusal st 0).bumpIf (!auth) 0xE1100C).dapSend d.port (dapResp d auth st 0 0 0)
    else
      let c := s.dapClient d.client
      let last := s.reg (0x1F1101 + d.client)
      if last < d.num then
        if s.reg 0x1F1005 ≤ s.dict.dapCount then (((s.refusal 0x0D0B 0).bump 0xE1100B 1).bumpIf (!auth) 0xE1100C).dapSend d.port (dapResp d auth 0x0D0B 0 0 0) else
        let s := s.setReg (0x1F1101 + d.client) d.num
        let s := { s with dict := { s.dict with dapCount := s.dict.dapCount + 1 } }
        let (s, r) := s.dapPerform d auth
        ((s.setDapClient { s.dapClient d.client with tag := d.tag, resp := some r }).dapSend d.port r).bumpIf (!auth) 0xE1100C
      else if last == d.num && c.tag == d.tag then
        match c.resp with
        | some r => ((s.dapSend d.port r).bump 0xE1100A 1).bumpIf (!auth) 0xE1100C
        | none => s.bump 0xE11009 1
      else s.bump 0xE11009 1

/-- DAP is served while the Molset runs, and while it is stopped by its boot status (R459). -/
def dapLive (s : State) (f : State → State) : Res :=
  always s fun s => if s.power == 2 || s.power == 3 then f s else s

/-- R503: a DAP read. -/
def execDapRead (d : DapReq) (s : State) : Res := dapLive s fun s => if d.op == 1 then s.dapIn d else s

/-- R503: a DAP write or a segment of one. -/
def execDapWrite (d : DapReq) (s : State) : Res := dapLive s fun s => if d.op == 2 then s.dapIn d else s

/-- R503: a DAP signed command. -/
def execDapSignedCommand (d : DapReq) (s : State) : Res := dapLive s fun s => if d.op == 3 then s.dapIn d else s

/-- R503: a DAP hello. -/
def execDapHello (d : DapReq) (s : State) : Res := dapLive s fun s => if d.op == 4 then s.dapIn d else s

end Sys2Proof.Machine
end

