-- ==== Sys2Proof/Machine/Tick.lean ====
section
/-! DEFINITION. The tick (R21 to R24): the capture of cycle 0, the nine edge steps in their order, and what a tick lets go. -/

namespace Sys2Proof.Machine

/-! ### Step 1: the capture (R21, R50) -/

/-- Time moves on (R45, R47): the frame that ends adds its nanoseconds and one tick. The count never goes back behind what a read in the frame showed. -/
def State.clockTick (s : State) (ns : Nat) : State :=
  let t := max s.ns (s.reg 0x201004 + ns)
  ((s.setReg 0x201001 t).setReg 0x201004 t).setReg 0x201002 (s.now + 1)

/-- Every per-tick counter moves into its last-frame view, and its running view is cleared (R22, R50). -/
def State.viewTick (s : State) : State := { s with last := s.run, run := [] }

/-- Edge steps that did not fit in their slots (R23): each is counted, and the work window is shorter by the sum (State.windowShingles). -/
def State.edgeTick (s : State) (excess : List Nat) : State :=
  let l := excess.filter (0 < ·)
  { s with time := { s.time with edgeExcess := l.foldl (· + ·) 0 } }.bump 0xE01008 l.length

/-- The highest committed sequence of every index sequenced here is captured (R21, R208). -/
def State.captureCommitted (s : State) : State :=
  { s with idx := s.idx.map fun x =>
      if s.isSequencer x.desc.tenant x.desc.index then { x with seqr := { x.seqr with captured := x.seqr.committed } } else x }

/-- Step 1 of a tick, and what cycle 0 measures and starts. -/
def State.step1 (s : State) (t : TickIn) : State :=
  let s := ((s.viewTick).clockTick t.ns).edgeTick t.excess
  let s := { s with time := { s.time with guard := false } }.slewTick
  let s := (((s.readTemps t.temps).meterTick t.power t.ns).dutyTick).ageTick t.slack
  let s := (((s.serveFrame.refill [1, 2, 3]).sampleTick).captureRings).captureCommitted
  let s := { s with dict := { s.dict with dapCount := 0 } }.setReg 0x1F0006 s.dict.pend.length
  let s := (s.votesTickAll).stepsTick
  ((((s.linkTick.netTick).rekeyTick).mgmtTick).alignTick).sendMarkers

/-! ### Step 2: fault decisions (R384) -/

/-- What the home does about a failed copy (R159, R161, R393): a query whose module hank has not come has the shard missing, and candidates sent there and
not answered are excluded. -/
def State.homeLoses (s : State) (failed : List Nat) : State :=
  s.home.foldl (fun s h =>
    let gone := (h.copies.filter fun c => failed.contains c.2).map (·.1)
    if gone.isEmpty then s
    else if h.phase == 2 then
      let new := gone.filter fun sh => !h.missing.contains sh && !h.hanks.any (·.shard == sh)
      let s := (s.setHome { h with missing := h.missing ++ new }).bumpIf (h.missing.isEmpty && !new.isEmpty) 0xE05018
      s.decideStep h.name
    else if h.phase == 4 then (h.sent.filter fun c => gone.contains c.shard).foldl (fun s c => s.excludeCand h.name c.shard c.id) s
    else s) s

/-- Lent spindles whose return tick has come are in service again (R217). -/
def State.lentBack (s : State) : State :=
  let back := s.ctl.lent.filter fun l => l.2.2 != 0 && l.2.2 ≤ s.ftick
  let s := { s with ctl := { s.ctl with lent := s.ctl.lent.filter fun l => !(l.2.2 != 0 && l.2.2 ≤ s.ftick) } }
  back.foldl (fun s l => if s.spState l.2.1 == 1 then s.setSpState l.2.1 0 else s) s

/-- Step 2 and step 3 of a tick: fault decisions, then a map epoch (R369, R384), and the roles that they move. A failure has the tick reference make a new
management key (R478). -/
def State.steps23 (s : State) : State :=
  let old := s.map.entries
  let s := s.lentBack
  let (s, failed, trays) := s.faultApply
  let s := (s.homeLoses failed).referenceTick
  let s := if !failed.isEmpty && s.reg 0x200101 == s.node then s.newMgmtKey (s.ftick + 2) else s
  let s := (s.mapTick).rolesMoved old failed trays
  let s := if nodeRole s.map.entries s.node == nodeRole old s.node then s else s.roleChanged
  (s.missedAcks.drainedTick).caseRegs

/-! ### Steps 5 and 6: seals and publishes (R208, R221) -/

/-- The version of an index that is live after step 6 of this tick. -/
def State.liveAfter (s : State) (x : Idx) : Nat :=
  match x.publish with
  | some (p, v) => if p == s.ftick then v else s.liveVersion x
  | none => s.liveVersion x

/-- Step 5: seals at the sequencers, and the steps of embedding tables that become visible (R208, R271). -/
def State.step5 (s : State) : State :=
  let s := s.idx.foldl (fun s y =>
    match s.findIdx y.desc.tenant y.desc.index with
    | some x => if s.isSequencer x.desc.tenant x.desc.index && x.seqr.resume.isNone then s.sealIndex x s.ftick (s.liveAfter x) else s
    | none => s) s
  (s.installSteps).respareTick

/-- Step 6: publishes and version switches that name the tick (R221, R255), and models (R227). -/
def State.step6 (s : State) : State :=
  let s := s.idx.foldl (fun s y =>
    match s.findIdx y.desc.tenant y.desc.index with
    | some x =>
      (match x.publish with
       | some (p, v) => if p == s.ftick then s.applyPublish x v else if p < s.ftick then (s.setIdx { x with publish := none }).stale else s
       | none => s)
    | none => s) s
  let s := s.idx.foldl (fun s y => match s.findIdx y.desc.tenant y.desc.index with | some x => s.freeThatches x | none => s) s
  (s.tabsTick).modelsTick

/-! ### Step 7 (R493, R528) and the sets of the frame (R246, R260) -/

/-- Builds whose fold sequence is sealed here start, and builds that wait for spindles are served (R217). -/
def State.lendTick (s : State) : State :=
  let s := s.idx.foldl (fun s y =>
    match s.findIdx y.desc.tenant y.desc.index with
    | some x => if isCopy x then s.startBuild x else s
    | none => s) s
  s.ctl.lendWait.foldl (fun s w => if s.ctl.lent.length < s.reg 0x404008 then s.lend w.1 w.2 else s) s

/-- Step 7: the captured writes, the blocks that come out of reset; then the dense and gather spindles of the frame are named. -/
def State.step7 (s : State) : State :=
  ((((s.applyWrites.blocksTick).pulseTick).nameDense).nameGather).lendTick

/-! ### Step 8 (R141, R440, R445) -/

/-- The check of an entry by its kind (R439). -/
def kindCheck (t seq : Nat) (s : State) (e : Entry) : State × Chk :=
  match entryKind e with
  | 1 => checkQuery t s e
  | 2 => checkUpdate t s e
  | 3 => checkIndex t seq s e
  | 4 => checkBuild t seq s e
  | 5 => checkFilter t seq s e
  | 6 => checkModel t s e
  | 7 => checkDense t s e
  | 8 => checkTable t s e
  | 9 => checkStage t s e
  | 0xA => checkSwitch t s e
  | 0xB => checkGather t s e
  | 0xC => checkScatter t s e
  | _ => checkPlacement t s e

/-- Check the entries of a ring in ascending sequence. Without room for a completion only the head is looked at, and held (R442). -/
def State.checkRing (s : State) (t : Nat) : State :=
  if !s.ringSampled (s.ring t) then s else
  (waitingSeqs (s.ring t)).foldl (fun s q =>
    if s.room t || ringHead (s.ring t) == some q then s.checkEntry t q false (kindCheck t q) else s) s

/-- Step 8: the mailbox's requests, the entries of every ring, and the completion sequences. -/
def State.step8 (s : State) : State :=
  let s := { s with sched := { s.sched with updates := [], filterOps := [], claims := [] } }.mailboxTick
  let ts := sortBy (fun (a b : Nat) => a < b) ((s.rings.map (·.tenant)).filter (· != systemTenant))
  (ts.foldl State.checkRing s).publishRings

/-! ### What a tick lets go -/

/-- Has a query of a skein unfinished work on this Molset? -/
def State.skeinOpen (s : State) (p : QName → Nat → Bool) : Bool :=
  s.home.any (fun h => p h.name h.par.tenant && h.phase < 6) || s.copy.any fun c => p c.name c.par.tenant && c.phase < 4

/-- Is a resident filter still read: it serves, or a query that named it has not completed (R153)? -/
def State.filterLives (s : State) (f : Filter) : Bool :=
  match f.stop with
  | some e => s.ftick < e + 4 || s.skeinOpen fun n t => t == f.tenant && n.skein < e
  | none => true

/-- Records of finished queries, filters that no skein reads any more with their pages, and what the fault protocol has kept long enough. -/
def State.forget (s : State) : State :=
  let k := s.reg 0x200204
  let s := (s.filters.filter fun f => !s.filterLives f).foldl (fun s f => s.dropHidden f.tenant f.pages) s
  { s with
    home := s.home.filter fun h => !(h.phase == 6 && h.ret + k < s.ftick)
    copy := s.copy.filter fun c => !(c.phase == 4 && c.name.skein + 4 + k < s.ftick && !s.rerank.reads.any fun r => r.name == c.name && r.shard == c.shard)
    filters := s.filters.filter s.filterLives
    time := { s.time with overrun := s.time.overrun.filter s.overdue }
    fault := { s.fault with
      seen := s.fault.seen.filter fun f => s.ftick ≤ f.s + 64
      served := s.fault.served.filter fun r => s.ftick ≤ r.2 + s.reg 0x90000B } }

/-- Is a shard's thatch still this Molset's: it is a copy, it takes part in a respare, or carried work needs it (R373)? -/
def State.keepsShard (s : State) (x : Idx) (sh : Nat) : Bool :=
  let t := x.desc.tenant
  let i := x.desc.index
  (match idxShard s.map.entries t i sh with | some e => (entryCopies e).contains s.node | none => false) ||
  s.fault.respares.any (fun r => r.tenant == t && r.index == i && r.shard == sh && (r.z == s.node || r.y == s.node)) ||
  s.copy.any fun c => c.par.tenant == t && c.par.index == i && c.shard == sh && (c.phase < 4 || s.rerank.reads.any fun r => r.name == c.name)

/-- Is a row's copy still this Molset's: it is the home or the mirror of the shard, or the directory names it (R251, R373)? -/
def State.keepsRow (s : State) (t n v row : Nat) : Bool :=
  match s.tabHeld t n with
  | none => true
  | some x =>
    x.dirOver.any (fun d => d.1 == v && d.2.1 == row && d.2.2 == s.node) ||
    (match tabShard s.map.entries t n (row / x.shardRows) with | some e => e.a == s.node || e.b == s.node | none => false) ||
    s.emb.jobs.any fun j => j.tenant == t && j.table == n

/-- State of roles that moved away is let go once the grace has passed and no carried work needs it (R373). -/
def State.releaseRoles (s : State) : State :=
  if s.ftick < s.map.applied + s.reg 0x804009 || s.map.entries == s.map.prev then s else
  let idx := s.idx.map fun x => { x with thatches := x.thatches.filter fun h => s.keepsShard x h.im.shard }
  { s with
    idx
    emb := { s.emb with
      rows := s.emb.rows.filter fun r => s.keepsRow r.tenant r.table r.version r.row
      overlays := s.emb.overlays.filter fun r => s.keepsRow r.tenant r.table r.version r.row } }

/-! ### The tick -/

/-- The nine edge steps of a running Molset (R22). -/
def State.edge (s : State) (t : TickIn) : State :=
  let s := (s.step1 t).steps23
  let s := (s.periodMargin).periodTick
  let s := (((s.step5).step6).step7).step8
  let s := s.admitTick
  let s := ((s.jobsTick.gathersTick).releaseRoles).forget
  s.spin.foldl (fun s p => s.schedule p.1) s

/-- R22: a tick. While the Molset is not running but powered, time goes on and the temperatures are read (R45, R515); in hold-up only the I/O die is carried, and
the counters go on (R45, R516); off, nothing does. -/
def execTick (t : TickIn) (s : State) : Res := always s fun s =>
  match s.power with
  | 0 => s
  | 5 => s.clockTick t.ns
  | 2 => s.edge t
  | _ => (s.clockTick t.ns).readTemps t.temps

end Sys2Proof.Machine
end

