-- ==== Sys2Proof/Machine/Dispatch.lean ====
section
/-! DEFINITION. One arm per command (R9, R51 and the rules of the rows): a direct call of its meaning. -/

namespace Sys2Proof.Machine

/-- The effect of a command on everything but the queue. -/
def exec (i : Instr) (s : State) : Host.Outcome State Fault Refusal :=
  match i with
  | .tick t => Sys2Proof.Machine.execTick t s
  | .stageDeadline stage q cycles => Sys2Proof.Machine.execStageDeadline stage q cycles s
  | .frameOverrun skein => Sys2Proof.Machine.execFrameOverrun skein s
  | .periodChange period switch => Sys2Proof.Machine.execPeriodChange period switch s
  | .periodChangeReceive src period switch => Sys2Proof.Machine.execPeriodChangeReceive src period switch s
  | .periodChangeAck src => Sys2Proof.Machine.execPeriodChangeAck src s
  | .periodChangeCancel => Sys2Proof.Machine.execPeriodChangeCancel s
  | .tickMarker m => Sys2Proof.Machine.execTickMarker m s
  | .markerLost => Sys2Proof.Machine.execMarkerLost s
  | .alignmentLock => Sys2Proof.Machine.execAlignmentLock s
  | .acquireTimeout => Sys2Proof.Machine.execAcquireTimeout s
  | .holdoverTimeout err => Sys2Proof.Machine.execHoldoverTimeout err s
  | .freeRunTimeout => Sys2Proof.Machine.execFreeRunTimeout s
  | .clearPeakPhase v => Sys2Proof.Machine.execClearPeakPhase v s
  | .shingleArrival sp slot sh => Sys2Proof.Machine.execShingleArrival sp slot sh s
  | .filterWordsArrival sp slot streamed bad stall => Sys2Proof.Machine.execFilterWordsArrival sp slot streamed bad stall s
  | .scoreItem sp ctx corrected bad stall => Sys2Proof.Machine.execScoreItem sp ctx corrected bad stall s
  | .accessComplete id ns bad badAgain x => Sys2Proof.Machine.execAccessComplete id ns bad badAgain x s
  | .stealRequest thief cycle => Sys2Proof.Machine.execStealRequest thief cycle s
  | .stealRechoose thief cycle => Sys2Proof.Machine.execStealRechoose thief cycle s
  | .stealGrant r => Sys2Proof.Machine.execStealGrant r s
  | .tableCopyDone id => Sys2Proof.Machine.execTableCopyDone id s
  | .redealOnSlotFree => Sys2Proof.Machine.execRedealOnSlotFree s
  | .zeroingDone sp => Sys2Proof.Machine.execZeroingDone sp s
  | .pageZeroingDone id failed => Sys2Proof.Machine.execPageZeroingDone id failed s
  | .roleChangeZeroing sp => Sys2Proof.Machine.execRoleChangeZeroing sp s
  | .digestCompare id => Sys2Proof.Machine.execDigestCompare id s
  | .thirdDigestCompare id third => Sys2Proof.Machine.execThirdDigestCompare id third s
  | .mismatchRefetchDone sp ctx b w => Sys2Proof.Machine.execMismatchRefetchDone sp ctx b w s
  | .buildPassClose skein tenant index builder => Sys2Proof.Machine.execBuildPassClose skein tenant index builder s
  | .passGatherTimeout skein tenant index builder => Sys2Proof.Machine.execPassGatherTimeout skein tenant index builder s
  | .tableBuild pass => Sys2Proof.Machine.execTableBuild pass s
  | .coarseScan pass x => Sys2Proof.Machine.execCoarseScan pass x s
  | .rerankCandidate c => Sys2Proof.Machine.execRerankCandidate c s
  | .rerankReadDone c r => Sys2Proof.Machine.execRerankReadDone c r s
  | .rerankScoreReceive a => Sys2Proof.Machine.execRerankScoreReceive a s
  | .query tenant seq bad => Sys2Proof.Machine.execQuery tenant seq bad s
  | .vectorReadDone q bad => Sys2Proof.Machine.execVectorReadDone q bad s
  | .dispatch d => Sys2Proof.Machine.execDispatch d s
  | .residentFilterCopy tenant handle index tick map waited => Sys2Proof.Machine.execResidentFilterCopy tenant handle index tick map waited s
  | .stepReport r => Sys2Proof.Machine.execStepReport r s
  | .widenDecision q step => Sys2Proof.Machine.execWidenDecision q step s
  | .stopDecision q => Sys2Proof.Machine.execStopDecision q s
  | .rerankDispatch q => Sys2Proof.Machine.execRerankDispatch q s
  | .resultDelivery q bad => Sys2Proof.Machine.execResultDelivery q bad s
  | .hankArrival h die src => Sys2Proof.Machine.execHankArrival h die src s
  | .diePly q shard die => Sys2Proof.Machine.execDiePly q shard die s
  | .modulePly q shard late => Sys2Proof.Machine.execModulePly q shard late s
  | .fabricPly q late => Sys2Proof.Machine.execFabricPly q late s
  | .rerankedPly q late => Sys2Proof.Machine.execRerankedPly q late s
  | .indexRegister tenant seq bad => Sys2Proof.Machine.execIndexRegister tenant seq bad s
  | .indexDescriptor src m => Sys2Proof.Machine.execIndexDescriptor src m s
  | .indexAck src tenant index ok => Sys2Proof.Machine.execIndexAck src tenant index ok s
  | .updateInsert tenant seq bad => Sys2Proof.Machine.execUpdateInsert tenant seq bad s
  | .updateDelete tenant seq bad => Sys2Proof.Machine.execUpdateDelete tenant seq bad s
  | .updateVectorRead tenant seq bad => Sys2Proof.Machine.execUpdateVectorRead tenant seq bad s
  | .sequencerUpdate u => Sys2Proof.Machine.execSequencerUpdate u s
  | .deltaRecord src r => Sys2Proof.Machine.execDeltaRecord src r s
  | .deltaCommit src tenant index seq => Sys2Proof.Machine.execDeltaCommit src tenant index seq s
  | .sealRecord r covers refused waited => Sys2Proof.Machine.execSealRecord r covers refused waited s
  | .logFetchDone tenant index records seals => Sys2Proof.Machine.execLogFetchDone tenant index records seals s
  | .buildFold tenant seq bad => Sys2Proof.Machine.execBuildFold tenant seq bad s
  | .buildRetrain tenant seq bad => Sys2Proof.Machine.execBuildRetrain tenant seq bad s
  | .buildReceive b => Sys2Proof.Machine.execBuildReceive b s
  | .imageBuildDone tenant index shard addrs r others => Sys2Proof.Machine.execImageBuildDone tenant index shard addrs r others s
  | .imageReceive src im => Sys2Proof.Machine.execImageReceive src im s
  | .allStaged tenant r => Sys2Proof.Machine.execAllStaged tenant r s
  | .publishDecision src tenant index p v => Sys2Proof.Machine.execPublishDecision src tenant index p v s
  | .publishAckTimeout tenant index => Sys2Proof.Machine.execPublishAckTimeout tenant index s
  | .modelRegister tenant seq bad => Sys2Proof.Machine.execModelRegister tenant seq bad s
  | .modelRelease tenant seq bad => Sys2Proof.Machine.execModelRelease tenant seq bad s
  | .denseJob tenant seq bad => Sys2Proof.Machine.execDenseJob tenant seq bad s
  | .stepDeal job bad => Sys2Proof.Machine.execStepDeal job bad s
  | .conversionItem sp ctx r => Sys2Proof.Machine.execConversionItem sp ctx r s
  | .tileItem sp ctx wrong endBad r => Sys2Proof.Machine.execTileItem sp ctx wrong endBad r s
  | .elementItem sp r => Sys2Proof.Machine.execElementItem sp r s
  | .layerStaged job layer late => Sys2Proof.Machine.execLayerStaged job layer late s
  | .tableRegister tenant seq bad => Sys2Proof.Machine.execTableRegister tenant seq bad s
  | .tableRelease tenant seq bad => Sys2Proof.Machine.execTableRelease tenant seq bad s
  | .tableStage tenant seq bad => Sys2Proof.Machine.execTableStage tenant seq bad s
  | .shardStageDone tenant table shard => Sys2Proof.Machine.execShardStageDone tenant table shard s
  | .tableSwitch tenant seq bad => Sys2Proof.Machine.execTableSwitch tenant seq bad s
  | .switchDecision src tenant table p version => Sys2Proof.Machine.execSwitchDecision src tenant table p version s
  | .switchAckTimeout tenant table => Sys2Proof.Machine.execSwitchAckTimeout tenant table s
  | .gather tenant seq bad => Sys2Proof.Machine.execGather tenant seq bad s
  | .gatherItem job r => Sys2Proof.Machine.execGatherItem job r s
  | .rowLineArrival job pos img bad expired endBad refetch => Sys2Proof.Machine.execRowLineArrival job pos img bad expired endBad refetch s
  | .readSlotFree die waited => Sys2Proof.Machine.execReadSlotFree die waited s
  | .rowRead src tenant table row skein bulk sealWait moveWait tag seq => Sys2Proof.Machine.execRowRead src tenant table row skein bulk sealWait moveWait tag seq s
  | .scatter tenant seq bad => Sys2Proof.Machine.execScatter tenant seq bad s
  | .scatterSend job badList badGrad => Sys2Proof.Machine.execScatterSend job badList badGrad s
  | .contributionRecord r forwarded seq => Sys2Proof.Machine.execContributionRecord r forwarded seq s
  | .scatterSummary m => Sys2Proof.Machine.execScatterSummary m s
  | .stepClose tenant table step held => Sys2Proof.Machine.execStepClose tenant table step held s
  | .stepWaitTimeout tenant table step held => Sys2Proof.Machine.execStepWaitTimeout tenant table step held s
  | .closeStepMerge tenant table step only version eta m => Sys2Proof.Machine.execCloseStepMerge tenant table step only version eta m s
  | .mirrorAck src tenant table w => Sys2Proof.Machine.execMirrorAck src tenant table w s
  | .readyReceive src tenant table step delegates => Sys2Proof.Machine.execReadyReceive src tenant table step delegates s
  | .stepSeal tenant table step v version incomplete refused => Sys2Proof.Machine.execStepSeal tenant table step v version incomplete refused s
  | .overlayWriteback tenant table row => Sys2Proof.Machine.execOverlayWriteback tenant table row s
  | .loadWindowEnd => Sys2Proof.Machine.execLoadWindowEnd s
  | .loadReport src tenant table load top => Sys2Proof.Machine.execLoadReport src tenant table load top s
  | .migrationDecision m => Sys2Proof.Machine.execMigrationDecision m s
  | .migrationHandoff tenant table rows holders waited => Sys2Proof.Machine.execMigrationHandoff tenant table rows holders waited s
  | .forwardComplete tenant table step count => Sys2Proof.Machine.execForwardComplete tenant table step count s
  | .replicaDrop src tenant table row => Sys2Proof.Machine.execReplicaDrop src tenant table row s
  | .replicaDropAck src tenant table row => Sys2Proof.Machine.execReplicaDropAck src tenant table row s
  | .regionAllocate tenant seq bad => Sys2Proof.Machine.execRegionAllocate tenant seq bad s
  | .regionFree tenant seq bad => Sys2Proof.Machine.execRegionFree tenant seq bad s
  | .regionMove tenant seq bad => Sys2Proof.Machine.execRegionMove tenant seq bad s
  | .pageMove tenant page bad waited => Sys2Proof.Machine.execPageMove tenant page bad waited s
  | .boardBlockWrite tenant addr data => Sys2Proof.Machine.execBoardBlockWrite tenant addr data s
  | .boardPageRepack tenant page => Sys2Proof.Machine.execBoardPageRepack tenant page s
  | .tierPartFail board n => Sys2Proof.Machine.execTierPartFail board n s
  | .windowOpen w => Sys2Proof.Machine.execWindowOpen w s
  | .windowClose w => Sys2Proof.Machine.execWindowClose w s
  | .housekeepingLimit w => Sys2Proof.Machine.execHousekeepingLimit w s
  | .flashWrite tenant block data windows => Sys2Proof.Machine.execFlashWrite tenant block data windows s
  | .flashRead tenant block retries soft ok tagOk ns suspended latency => Sys2Proof.Machine.execFlashRead tenant block retries soft ok tagOk ns suspended latency s
  | .coldMapRecord page recPage version tagOk entries => Sys2Proof.Machine.execColdMapRecord page recPage version tagOk entries s
  | .coldMapTimeout page => Sys2Proof.Machine.execColdMapTimeout page s
  | .disturbScan block used ladder => Sys2Proof.Machine.execDisturbScan block used ladder s
  | .refresh block => Sys2Proof.Machine.execRefresh block s
  | .slcFlush => Sys2Proof.Machine.execSlcFlush s
  | .reclaim => Sys2Proof.Machine.execReclaim s
  | .wearLevelling => Sys2Proof.Machine.execWearLevelling s
  | .copyProgramDone id ok => Sys2Proof.Machine.execCopyProgramDone id ok s
  | .journalPageProgrammed => Sys2Proof.Machine.execJournalPageProgrammed s
  | .eraseDone block ok => Sys2Proof.Machine.execEraseDone block ok s
  | .discard tenant addr len => Sys2Proof.Machine.execDiscard tenant addr len s
  | .directoryCheckpoint => Sys2Proof.Machine.execDirectoryCheckpoint s
  | .powerLossRecovery lostPages => Sys2Proof.Machine.execPowerLossRecovery lostPages s
  | .portKind port kind => Sys2Proof.Machine.execPortKind port kind s
  | .pcsLock port => Sys2Proof.Machine.execPcsLock port s
  | .trainingTimeout port => Sys2Proof.Machine.execTrainingTimeout port s
  | .lockLoss port => Sys2Proof.Machine.execLockLoss port s
  | .silenceTimeout port => Sys2Proof.Machine.execSilenceTimeout port s
  | .linkSecuring port x own => Sys2Proof.Machine.execLinkSecuring port x own s
  | .hello port h => Sys2Proof.Machine.execHello port h s
  | .flit port f => Sys2Proof.Machine.execFlit port f s
  | .retryRequest port seq => Sys2Proof.Machine.execRetryRequest port seq s
  | .linkStateRecord port r => Sys2Proof.Machine.execLinkStateRecord port r s
  | .linkStateRefresh => Sys2Proof.Machine.execLinkStateRefresh s
  | .linkStateExpiry origin => Sys2Proof.Machine.execLinkStateExpiry origin s
  | .routeRecompute => Sys2Proof.Machine.execRouteRecompute s
  | .packet p name => Sys2Proof.Machine.execPacket p name s
  | .ackDelay src cls => Sys2Proof.Machine.execAckDelay src cls s
  | .resend dst cls seq => Sys2Proof.Machine.execResend dst cls seq s
  | .memoryOpIssue work engine role op => Sys2Proof.Machine.execMemoryOpIssue work engine role op s
  | .load op bad badAgain => Sys2Proof.Machine.execLoad op bad badAgain s
  | .store op => Sys2Proof.Machine.execStore op s
  | .fetchAdd op => Sys2Proof.Machine.execFetchAdd op s
  | .compareSwap op => Sys2Proof.Machine.execCompareSwap op s
  | .atomicMin op => Sys2Proof.Machine.execAtomicMin op s
  | .atomicMax op => Sys2Proof.Machine.execAtomicMax op s
  | .loadResponse src tag status data => Sys2Proof.Machine.execLoadResponse src tag status data s
  | .storeDone src tag status => Sys2Proof.Machine.execStoreDone src tag status s
  | .atomicResponse src tag status data => Sys2Proof.Machine.execAtomicResponse src tag status data s
  | .deadTarget dst tag => Sys2Proof.Machine.execDeadTarget dst tag s
  | .bounce b => Sys2Proof.Machine.execBounce b s
  | .behindHoldExpiry src cls seq => Sys2Proof.Machine.execBehindHoldExpiry src cls seq s
  | .mapChange c => Sys2Proof.Machine.execMapChange c s
  | .mapChangeReceive src c => Sys2Proof.Machine.execMapChangeReceive src c s
  | .fullMapFetchDone src c => Sys2Proof.Machine.execFullMapFetchDone src c s
  | .mapAck src epoch => Sys2Proof.Machine.execMapAck src epoch s
  | .mapAckTimeout => Sys2Proof.Machine.execMapAckTimeout s
  | .faultReport f => Sys2Proof.Machine.execFaultReport f s
  | .caseOpen case => Sys2Proof.Machine.execCaseOpen case s
  | .probeRequest f => Sys2Proof.Machine.execProbeRequest f s
  | .witnessProbe case => Sys2Proof.Machine.execWitnessProbe case s
  | .probe f => Sys2Proof.Machine.execProbe f s
  | .probeAnswer f => Sys2Proof.Machine.execProbeAnswer f s
  | .vote f => Sys2Proof.Machine.execVote f s
  | .votesDue case => Sys2Proof.Machine.execVotesDue case s
  | .decide case => Sys2Proof.Machine.execDecide case s
  | .decision f c => Sys2Proof.Machine.execDecision f c s
  | .decisionAck f => Sys2Proof.Machine.execDecisionAck f s
  | .backupTakeover case => Sys2Proof.Machine.execBackupTakeover case s
  | .managementCopy f mac => Sys2Proof.Machine.execManagementCopy f mac s
  | .scoreWindow => Sys2Proof.Machine.execScoreWindow s
  | .drainRequest tray => Sys2Proof.Machine.execDrainRequest tray s
  | .respareImageDone tenant index shard => Sys2Proof.Machine.execRespareImageDone tenant index shard s
  | .restoreReady f tenant index shard => Sys2Proof.Machine.execRestoreReady f tenant index shard s
  | .restoreFromFlash tenant index shard im => Sys2Proof.Machine.execRestoreFromFlash tenant index shard im s
  | .ownershipQuery req => Sys2Proof.Machine.execOwnershipQuery req s
  | .ownershipQueryReceive f kind tenant object name => Sys2Proof.Machine.execOwnershipQueryReceive f kind tenant object name s
  | .ownershipAnswer req src tag => Sys2Proof.Machine.execOwnershipAnswer req src tag s
  | .fatalFault cause => Sys2Proof.Machine.execFatalFault cause s
  | .clearPeaks v => Sys2Proof.Machine.execClearPeaks v s
  | .ucieModuleRetrain m r => Sys2Proof.Machine.execUcieModuleRetrain m r s
  | .ucieFlit m crcOk f => Sys2Proof.Machine.execUcieFlit m crcOk f s
  | .hostRead m addr len tag bad badAgain => Sys2Proof.Machine.execHostRead m addr len tag bad badAgain s
  | .hostWrite m addr data tag => Sys2Proof.Machine.execHostWrite m addr data tag s
  | .hostMemoryCompletion tag data => Sys2Proof.Machine.execHostMemoryCompletion tag data s
  | .hostLinkResetRequest b => Sys2Proof.Machine.execHostLinkResetRequest b s
  | .filterRegister tenant seq bad => Sys2Proof.Machine.execFilterRegister tenant seq bad s
  | .filterReplace tenant seq bad => Sys2Proof.Machine.execFilterReplace tenant seq bad s
  | .filterRelease tenant seq bad => Sys2Proof.Machine.execFilterRelease tenant seq bad s
  | .mailboxRead seq bad => Sys2Proof.Machine.execMailboxRead seq bad s
  | .mailboxWrite seq bad badBuf => Sys2Proof.Machine.execMailboxWrite seq bad badBuf s
  | .mailboxSignedCommand seq bad badBuf => Sys2Proof.Machine.execMailboxSignedCommand seq bad badBuf s
  | .registerWrite w signed => Sys2Proof.Machine.execRegisterWrite w signed s
  | .saveSettings => Sys2Proof.Machine.execSaveSettings s
  | .discardSettings => Sys2Proof.Machine.execDiscardSettings s
  | .dapRead d => Sys2Proof.Machine.execDapRead d s
  | .dapWrite d => Sys2Proof.Machine.execDapWrite d s
  | .dapSignedCommand d => Sys2Proof.Machine.execDapSignedCommand d s
  | .dapHello d => Sys2Proof.Machine.execDapHello d s
  | .firmwareImagePiece off data => Sys2Proof.Machine.execFirmwareImagePiece off data s
  | .firmwareActivate fail => Sys2Proof.Machine.execFirmwareActivate fail s
  | .quoteRequest slot nonce tenant => Sys2Proof.Machine.execQuoteRequest slot nonce tenant s
  | .quoteReady slot => Sys2Proof.Machine.execQuoteReady slot s
  | .operatorKeyRecord r signed => Sys2Proof.Machine.execOperatorKeyRecord r signed s
  | .dapKeyRecord r => Sys2Proof.Machine.execDapKeyRecord r s
  | .tenantKeyRecord r => Sys2Proof.Machine.execTenantKeyRecord r s
  | .tenantCreate t => Sys2Proof.Machine.execTenantCreate t s
  | .enterService t => Sys2Proof.Machine.execEnterService t s
  | .teardown t => Sys2Proof.Machine.execTeardown t s
  | .forcedTeardown t => Sys2Proof.Machine.execForcedTeardown t s
  | .tenantRelease t => Sys2Proof.Machine.execTenantRelease t s
  | .teardownComplete t => Sys2Proof.Machine.execTeardownComplete t s
  | .rekey port x r => Sys2Proof.Machine.execRekey port x r s
  | .rekeyTimeout port => Sys2Proof.Machine.execRekeyTimeout port s
  | .managementKey epoch k from_ => Sys2Proof.Machine.execManagementKey epoch k from_ s
  | .counterAdvance n v => Sys2Proof.Machine.execCounterAdvance n v s
  | .witnessRequest src n v => Sys2Proof.Machine.execWitnessRequest src n v s
  | .witnessAck src n => Sys2Proof.Machine.execWitnessAck src n s
  | .raiseFloor v => Sys2Proof.Machine.execRaiseFloor v s
  | .runtimeCheck code failed => Sys2Proof.Machine.execRuntimeCheck code failed s
  | .glitchDetected => Sys2Proof.Machine.execGlitchDetected s
  | .coldStart b => Sys2Proof.Machine.execColdStart b s
  | .inputTrip mv => Sys2Proof.Machine.execInputTrip mv s
  | .inputExcursion mv => Sys2Proof.Machine.execInputExcursion mv s
  | .powerFail => Sys2Proof.Machine.execPowerFail s
  | .holdUpEnd present => Sys2Proof.Machine.execHoldUpEnd present s
  | .moduleReset b => Sys2Proof.Machine.execModuleReset b s
  | .sidebandResetRequest b => Sys2Proof.Machine.execSidebandResetRequest b s
  | .warmResetCommand b => Sys2Proof.Machine.execWarmResetCommand b s
  | .powerCycleCommand b => Sys2Proof.Machine.execPowerCycleCommand b s
  | .watchdogExpiry => Sys2Proof.Machine.execWatchdogExpiry s
  | .thermalTrip sensor reading => Sys2Proof.Machine.execThermalTrip sensor reading s
  | .thermalHoldExit => Sys2Proof.Machine.execThermalHoldExit s
  | .fatalResetTimeout b => Sys2Proof.Machine.execFatalResetTimeout b s
  | .trayUnseated => Sys2Proof.Machine.execTrayUnseated s
  | .boardThermalAlert asserted => Sys2Proof.Machine.execBoardThermalAlert asserted s
  | .sidebandTimer t => Sys2Proof.Machine.execSidebandTimer t s
  | .locate v => Sys2Proof.Machine.execLocate v s
  | .perBlockReset sub mask => Sys2Proof.Machine.execPerBlockReset sub mask s
  | .monitorSample slack freq => Sys2Proof.Machine.execMonitorSample slack freq s
  | .replan => Sys2Proof.Machine.execReplan s
  | .replanRequest v => Sys2Proof.Machine.execReplanRequest v s
  | .clearPeakPower v => Sys2Proof.Machine.execClearPeakPower v s
  | .sensorSilent sensor => Sys2Proof.Machine.execSensorSilent sensor s
  | .publishAck src tenant index shard shingles => Sys2Proof.Machine.execPublishAck src tenant index shard shingles s
  | .switchAck src tenant table => Sys2Proof.Machine.execSwitchAck src tenant table s
  | .mirrorImages src tenant table step version rows => Sys2Proof.Machine.execMirrorImages src tenant table step version rows s
  | .warmCopy tenant table rows => Sys2Proof.Machine.execWarmCopy tenant table rows s
  | .hankResendRequest src q shard pass => Sys2Proof.Machine.execHankResendRequest src q shard pass s
  | .imageResendRequest src tenant index shard => Sys2Proof.Machine.execImageResendRequest src tenant index shard s
  | .logFetchRequest src tenant index first last => Sys2Proof.Machine.execLogFetchRequest src tenant index first last s
  | .mapFetchRequest src => Sys2Proof.Machine.execMapFetchRequest src s
  | .replicaReceive src tenant table row view img => Sys2Proof.Machine.execReplicaReceive src tenant table row view img s
  | .pageProgramDone id ok => Sys2Proof.Machine.execPageProgramDone id ok s
  | .flashChannelRetrain ch => Sys2Proof.Machine.execFlashChannelRetrain ch s

end Sys2Proof.Machine
end

