-- ==== Sys2Proof/Machine/Step.lean ====
section
/-! DEFINITION. One step of the block (entry 1): the command at the front of the queue acts on the state with the queue's rest. -/

namespace Sys2Proof.Machine

/-- A state with a command in front of its queue. -/
def State.pushFront (s : State) (i : Instr) : State := { s with pending := i :: s.pending }

/-- One step: the front command acts; an empty queue idles. -/
def step (s : State) : Host.Outcome State Fault Refusal :=
  match s.pending with
  | [] => .next s
  | i :: rest => exec i { s with pending := rest }

/-- A state with the command that a word spells in front of its queue; unchanged where it spells none. -/
def State.withFetchWord (s : State) (nbits w : Nat) : State :=
  match decodeTableWord nbits w with
  | some i => s.pushFront i
  | none => s

end Sys2Proof.Machine
end

