-- ==== Sys2Proof/Safety.lean ====
section
/-! DEFINITION. What counts as a safe run: no step ends in a fault or a refusal, and memory keeps its canonical form. The Molset itself never stops: a fault
of the hardware is a report, a status or a power state (R378, R515). Then what a claim says about a command's frame: the parts of State by name. -/

namespace Sys2Proof.Machine

/-- An outcome is a next state. -/
def isNext (o : Host.Outcome State Fault Refusal) : Bool := match o with | .next _ => true | _ => false

/-- The invariant of memory: addresses strictly rising, and no listed byte is 0 (entry 10). -/
def State.memOk (s : State) : Bool := Memory.wf s.mem

/-- The next `n` steps are all next states. -/
def State.safeFor : Nat → State → Bool
  | 0, _ => true
  | n + 1, s => match step s with | .next t => t.safeFor n | _ => false

/-- The parts of State, for frames. `counts` are the cumulative and the running view of the counters. -/
inductive Part where
  | pending | regs | blobs | counts | last | dict | mem | poison | time | spin | ctl | home | copy | passes | filters | rerank | idx | regWait
  | upd | builds | dense | emb | tier | flash | ports | net | map | fault | sched | rings | link | sec | pwr | mgmtOut | free
  deriving DecidableEq, Repr

/-- A part is the same in two states. -/
def Part.same (s t : State) : Part → Prop
  | .pending => t.pending = s.pending
  | .regs => t.regs = s.regs
  | .blobs => t.blobs = s.blobs
  | .counts => t.cum = s.cum ∧ t.run = s.run
  | .last => t.last = s.last
  | .dict => t.dict = s.dict
  | .mem => t.mem = s.mem
  | .poison => t.poison = s.poison
  | .time => t.time = s.time
  | .spin => t.spin = s.spin
  | .ctl => t.ctl = s.ctl
  | .home => t.home = s.home
  | .copy => t.copy = s.copy
  | .passes => t.passes = s.passes
  | .filters => t.filters = s.filters
  | .rerank => t.rerank = s.rerank
  | .idx => t.idx = s.idx
  | .regWait => t.regWait = s.regWait
  | .upd => t.upd = s.upd
  | .builds => t.builds = s.builds
  | .dense => t.dense = s.dense
  | .emb => t.emb = s.emb
  | .tier => t.tier = s.tier
  | .flash => t.flash = s.flash
  | .ports => t.ports = s.ports
  | .net => t.net = s.net
  | .map => t.map = s.map
  | .fault => t.fault = s.fault
  | .sched => t.sched = s.sched
  | .rings => t.rings = s.rings
  | .link => t.link = s.link
  | .sec => t.sec = s.sec
  | .pwr => t.pwr = s.pwr
  | .mgmtOut => t.mgmtOut = s.mgmtOut
  | .free => t.free = s.free

/-- Every part of State but those listed is the same in both. -/
def keepsBut (ps : List Part) (s t : State) : Prop := ∀ p, p ∉ ps → p.same s t

/-- Every register but those listed reads the same. -/
def regsBut (ks : List Key) (s t : State) : Prop := ∀ k, k ∉ ks → t.reg k = s.reg k

/-- Every counter but those listed reads the same. -/
def countsBut (ks : List Key) (s t : State) : Prop := ∀ k, k ∉ ks → t.cnt k = s.cnt k

/-- No counter reads less (R50: a counter's cumulative value only grows). -/
def countsGrow (s t : State) : Prop := ∀ k, s.cnt k ≤ t.cnt k

/-- A packet of a kind with a payload waits at the transport for a destination (R352, R355). -/
def State.hasSent (s : State) (dst kind : Nat) (m : Msg) : Prop := ∃ k ∈ s.net.unacked, k.dst = dst ∧ k.kind = kind ∧ k.msg = m

/-- The controller has taken up the request of a thief, and the victim has taken its head first (R66). -/
def State.headTaken (s : State) (thief v : Nat) : State := (s.setSp thief { s.sp thief with steal := none }).schedule v

/-- The state in which the check of an entry's kind runs: the entry has been looked at, and the ring holds no head (R440, R442). -/
def State.looked (s : State) (t : Nat) : State := (s.setRing { s.ring t with held := 0 }).bump 0xE0F00A 1

/-- What a ring row says: an entry of a kind that passes the ring checks and gets status 0 from the checks of its kind waits for admission, with the cost and the class the rule
gives it (R412, R440). `passes`, `cost` and `bulk` speak of the state in which the check of the kind runs. -/
def ringRowPasses (row : Nat → Nat → Bool → Instr) (kind : Nat) (mine : Entry → Bool) (check : Nat → Nat → State → Entry → State × Chk)
    (passes : Nat → Nat → State → Entry → Bool) (cost : Nat → State → Entry → Nat) (bulk : Entry → Bool) : Prop :=
  ∀ (s : State) (t seq : Nat), s.running = true → s.covered t seq = true → s.room t = true →
    s.poisoned t (s.slotAddr t seq) 128 = false → ringCheck false seq false (s.entryOf t seq) = none →
    entryKind (s.entryOf t seq) = kind → mine (s.entryOf t seq) = true → passes t seq (s.looked t) (s.entryOf t seq) = true →
    ∃ v, exec (row t seq false) s = .next v ∧
      v = { (check t seq (s.looked t) (s.entryOf t seq)).1.markReady t seq kind (cost t (s.looked t) (s.entryOf t seq)) (bulk (s.entryOf t seq)) with
            pending := s.pending } ∧
      ∃ x ∈ (v.ring t).ready, x.seq = seq ∧ x.kind = kind ∧ x.cost = cost t (s.looked t) (s.entryOf t seq) ∧ x.bulk = bulk (s.entryOf t seq)

/-- The cost of an entry without a budget of its own, and its class (R412). -/
def unitCost (_ : Nat) (_ : State) (_ : Entry) : Nat := 1
def neverBulk (_ : Entry) : Bool := false

/-- The checks of an update's kind, and the room its update stream has left in this tick (R412). -/
def State.updatePasses (s : State) (t : Nat) (e : Entry) : Bool :=
  (s.bump 0xE07001 1).updateStatus t e == 0 &&
  ((s.sched.updates.find? fun u => u.1 == t && u.2.1 == eNat e 38 2).map (·.2.2)).getD 0 < s.reg 0x404004

/-- The checks of a dense job, and its frames within 65,535 (R229). -/
def State.densePasses (s : State) (t : Nat) (e : Entry) : Bool :=
  let s := s.bump 0xE08001 1
  s.jobStatus t e == 0 && (s.frameCount s.denseCount s.denseLoad (s.jobUnits t e)).getD 65536 ≤ 65535

/-- What every ring row says of an entry that fails a ring check: it is counted in 0xE0F0:0B, leaves the ring, and its completion carries the status of the ring check (R440,
R442). -/
def ringRowRefuses (row : Nat → Nat → Bool → Instr) : Prop :=
  ∀ (s : State) (t seq : Nat) (bad : Bool), s.running = true → s.covered t seq = true → s.room t = true →
    bad || s.poisoned t (s.slotAddr t seq) 128 || !kindValid false (entryKind (s.entryOf t seq)) →
    ∃ v status kind tag, ringCheck false seq (bad || s.poisoned t (s.slotAddr t seq) 128) (s.entryOf t seq) = some (status, kind, tag) ∧
      exec (row t seq bad) s = .next v ∧ v = ((s.looked t).bump 0xE0F00B 1).refuse t seq kind status 0 tag ∧
      v.cnt 0xE0F00B = s.cnt 0xE0F00B + 1 ∧ keepsBut [.rings, .counts, .mem, .poison] s v

/-- The row by which a memory operation reaches its target (R353, R356, R357). -/
def opRow (op : MemOp) (bad again : Bool) : Option Instr :=
  match op.op with
  | 0 => some (.load op bad again)
  | 1 => some (.fetchAdd op)
  | 2 => some (.compareSwap op)
  | 3 => some (.atomicMin op)
  | 4 => some (.atomicMax op)
  | 8 => some (.store op)
  | _ => none

/-- The row of a DAP request, by its operation (R503). -/
def dapRow (d : DapReq) : Instr :=
  match d.op with
  | 1 => .dapRead d
  | 2 => .dapWrite d
  | 3 => .dapSignedCommand d
  | _ => .dapHello d

/-- The tenant whose binding the Molset compares when a packet of a tenant's work arrives (R471). -/
def boundTenant : Instr → Option Nat
  | .dispatch d => some d.par.tenant
  | .indexDescriptor _ m => some m.desc.tenant
  | .sequencerUpdate u => some u.tenant
  | .deltaRecord _ r => some r.tenant
  | .sealRecord r _ _ _ => some r.tenant
  | .logFetchDone t _ _ _ => some t
  | .logFetchRequest _ t _ _ _ => some t
  | .buildReceive b => some b.tenant
  | .imageReceive _ im => some im.tenant
  | .contributionRecord r _ _ => some r.tenant
  | .scatterSummary m => some m.tenant
  | .mirrorImages _ t _ _ _ _ => some t
  | .warmCopy t _ _ => some t
  | .migrationHandoff t _ _ _ _ => some t
  | .replicaReceive _ t _ _ _ _ => some t
  | _ => none

/-- What a start needs: slot A verifies with a version at or above the floor, slot B does not, and no later stage fails; no stored or saved setting names the registers of the
statement. -/
def bootsFrom (s : State) (b : BootIn) (v : Nat) : Prop :=
  b.slotAOk = some v ∧ b.slotBOk = none ∧ s.counter 1 ≤ v ∧ lateStages b = 0 ∧ (∀ x ∈ s.dict.stored, x.1 ≠ 0xD01001 ∧ x.1 ≠ 0x201002 ∧ x.1 ≠ 0xA00003) ∧
  (∀ x ∈ s.dict.saved, x.1 ≠ 0xD01001 ∧ x.1 ≠ 0x201002 ∧ x.1 ≠ 0xA00003)

/-- The commands whose effect does not need the running state: the tick, the power and reset events, a sensor that stays silent, a fatal fault, and DAP, which answers in the
boot-failed state too (R459, R515, R552). -/
def beyondRunning : Instr → Bool
  | .tick _ => true
  | .sensorSilent _ => true
  | .coldStart _ => true
  | .inputTrip _ => true
  | .powerFail => true
  | .holdUpEnd _ => true
  | .moduleReset _ => true
  | .sidebandResetRequest _ => true
  | .warmResetCommand _ => true
  | .powerCycleCommand _ => true
  | .watchdogExpiry => true
  | .thermalTrip _ _ => true
  | .thermalHoldExit => true
  | .hostLinkResetRequest _ => true
  | .fatalResetTimeout _ => true
  | .fatalFault _ => true
  | .dapRead _ => true
  | .dapWrite _ => true
  | .dapSignedCommand _ => true
  | .dapHello _ => true
  | _ => false

end Sys2Proof.Machine
end

