-- ==== Sys2Proof/Certificates/Slice0/Obligations.lean ====
section
/-! DEFINITION. The statements for the provers: what the rules of the spec say of the commands, the state and the machine. `keepsBut` names the parts of State that a
command may change, `regsBut` and `countsBut` the registers and the counters; all else is as before. -/

open Sys2Proof Sys2Proof.Machine

/-! ### The block and its queue -/

/-- For every command and every state, a step with the command at the front of the queue is the command's effect on the state with the queue's rest. -/
def Obligations.StepRunsTheFrontCommand : Prop :=
  ∀ (i : Instr) (s : State), step (s.pushFront i) = exec i s

/-- Every command answers a next state that has the queue of the state before, and an empty queue idles: no command ends in a fault or a refusal. The queue is the model's
own (entry 1). -/
def Obligations.EveryCommandAnswers : Prop :=
  (∀ (i : Instr) (s : State), ∃ t, exec i s = .next t ∧ t.pending = s.pending) ∧ (∀ s : State, s.pending = [] → step s = .next s)

/-- What the spec gives the state after a cold power-on: power state 2 is running (R515), the last reset source is 1 (R518), memory reads 0 everywhere (R72), no register
of another index differs from its start-up default, no counter has counted (R50), no command waits. That the block starts out in running is the model's choice (entry 2).
-/
def Obligations.ResetLeavesDefaults : Prop :=
  State.reset.reg 0xD00001 = 2 ∧ State.reset.reg 0xD01001 = 1 ∧ (∀ a n, State.reset.load a n 1 = [0]) ∧ (∀ k, State.reset.cnt k = 0) ∧
  (∀ k, k ≠ 0x600004 → k ≠ 0xD00001 → k ≠ 0xD01001 → State.reset.reg k = dfltOf k) ∧ (∀ k, State.reset.blob k = blobDfltOf k) ∧
  State.reset.pending = [] ∧ State.reset.memOk = true

/-- The invariant of memory: whatever command a step runs, memory keeps its canonical form, so that equal memories are equal data (entry 10). -/
def Obligations.StepKeepsMemoryForm : Prop :=
  ∀ s t : State, s.memOk = true → step s = .next t → t.memOk = true

/-- The counters of a Molset only grow: no command but a cold power-on, a power cycle and the end of the hold-up, which all take the power away, lets a cumulative counter
read less (R50). -/
def Obligations.CountersOnlyGrow : Prop :=
  ∀ (i : Instr) (s t : State), (∀ b, i ≠ .coldStart b) → (∀ b, i ≠ .holdUpEnd b) → (∀ b, i ≠ .powerCycleCommand b) → exec i s = .next t → countsGrow s t

/-! ### The ridge tick -/

/-- R22, R45, R515: a tick of a running Molset runs the edge steps in their order: the capture; fault decisions and map epochs; period switches; seals; publishes;
register writes; the rings; admission; what the frame lets go; then every spindle takes up its items. In states 1, 3, 4 and 6 it counts time and reads temperatures, in
the hold-up it counts time, with the power off it does nothing (the choice of entry 26). Shown to complete here: tick. -/
def Obligations.TickRunsTheEdgeSteps : Prop :=
  (∀ (s : State) (x : TickIn), s.power = 2 →
    ∃ t, exec (.tick x) s = .next t ∧
      (let u := (((((s.step1 x).steps23).periodMargin).periodTick).step5).step6
       let v := ((((((u.step7).step8).admitTick).jobsTick).gathersTick).releaseRoles).forget
       t = { v.spin.foldl (fun w p => w.schedule p.1) v with pending := s.pending })) ∧
  (∀ (s : State) (x : TickIn), s.power ≠ 0 → s.power ≠ 2 → s.power ≠ 5 →
    ∃ t, exec (.tick x) s = .next t ∧ t.reg 0x201002 = s.now + 1 ∧ t.reg 0x201001 = max s.ns (s.reg 0x201004 + x.ns) ∧ keepsBut [.regs, .pwr] s t) ∧
  (∀ (s : State) (x : TickIn), s.power = 5 →
    ∃ t, exec (.tick x) s = .next t ∧ t.reg 0x201002 = s.now + 1 ∧ t.reg 0x201001 = max s.ns (s.reg 0x201004 + x.ns) ∧ keepsBut [.regs] s t ∧
      regsBut [0x201001, 0x201002, 0x201004] s t) ∧
  (∀ (s : State) (x : TickIn), s.power = 0 → exec (.tick x) s = .next s)

/-- R37, R38: a period change that keeps the period's range and its notice becomes pending and its registers hold it; one that does not is counted in 0xE010:0D and
changes nothing else. A change from a peer becomes pending here and is acknowledged, an acknowledgement joins the change of its origin, and a cancellation drops the
change, sets 0x2000:04 to 2 and is counted. R33: work of a skein that is unfinished at the carry limit raises a frame-overrun fault and counts in 0xE010:07, once per
skein. R49, R301: a stage deadline that passes with an access outstanding counts the miss and its cycles against the tier of the earliest one; the guard of the frame has
then begun. Shown to complete here: stageDeadline, frameOverrun, periodChange, periodChangeReceive, periodChangeAck, periodChangeCancel. -/
def Obligations.PeriodsAndDeadlines : Prop :=
  ((∀ (s : State) (p sw : Nat), s.running = true → s.time.change = none → 125 ≤ p → p ≤ 2000 → s.ftick + 256 ≤ sw →
    ∃ t, exec (.periodChange p sw) s = .next t ∧ t.reg 0x200002 = p ∧ t.reg 0x200003 = sw ∧ t.reg 0x200004 = 1 ∧
      t.time.change = some { period := p, switch := sw, origin := true, peers := s.liveSet.filter (· != s.node), acks := [] } ∧
      keepsBut [.regs, .counts, .time, .net] s t ∧ regsBut [0x200002, 0x200003, 0x200004] s t) ∧
  (∀ (s : State) (p sw : Nat), s.running = true → (p < 125 ∨ 2000 < p ∨ sw < s.ftick + 256 ∨ s.time.change ≠ none) →
    ∃ t, exec (.periodChange p sw) s = .next t ∧ t.cnt 0xE0100D = s.cnt 0xE0100D + 1 ∧ keepsBut [.counts] s t ∧ countsBut [0xE0100D] s t) ∧
  (∀ (s : State) (src p sw : Nat), s.running = true → s.time.change = none → s.ftick < sw →
    ∃ t, exec (.periodChangeReceive src p sw) s = .next t ∧ t.reg 0x200002 = p ∧ t.reg 0x200003 = sw ∧
      t.time.change = some { period := p, switch := sw, origin := false, peers := [], acks := [] } ∧
      (∃ k ∈ t.net.unacked, k.dst = src ∧ k.kind = 0x15 ∧ k.msg = .periodAck sw) ∧
      keepsBut [.regs, .counts, .time, .net] s t ∧ regsBut [0x200002, 0x200003, 0x200004] s t) ∧
  (∀ (s : State) (src : Nat) (c : PeriodChange), s.running = true → s.time.change = some c → src ∈ c.peers → src ∉ c.acks →
    ∃ t, exec (.periodChangeAck src) s = .next t ∧ t.time.change = some { c with acks := c.acks ++ [src] } ∧ keepsBut [.time] s t) ∧
  (∀ (s : State) (c : PeriodChange), s.running = true → s.time.change = some c →
    ∃ t, exec .periodChangeCancel s = .next t ∧ t.time.change = none ∧ t.reg 0x200004 = 2 ∧ t.cnt 0xE0100D = s.cnt 0xE0100D + 1 ∧
      keepsBut [.regs, .counts, .time] s t ∧ regsBut [0x200004] s t ∧ countsBut [0xE0100D] s t)) ∧
  ((∀ (s : State) (k : Nat), s.running = true → s.overdue k = true → k ∉ s.time.overrun →
    ∃ t, exec (.frameOverrun k) s = .next t ∧ t.cnt 0xE01007 = s.cnt 0xE01007 + 1 ∧ t.time.overrun = s.time.overrun ++ [k] ∧
      keepsBut [.counts, .time, .net, .fault, .mgmtOut] s t) ∧
  (∀ (s : State) (k : Nat), s.running = true → k ∈ s.time.overrun → exec (.frameOverrun k) s = .next s) ∧
  (∀ (s : State) (st cyc : Nat) (q : QName) (a : Access), s.running = true → s.tier.accesses = [a] → a.stage = st → a.q = some q → a.tier ≤ 2 →
    ∃ t, exec (.stageDeadline st q cyc) s = .next t ∧ t.cnt (0xE0A004 + 2 * a.tier) = s.cnt (0xE0A004 + 2 * a.tier) + 1 ∧
      t.cnt (0xE0A005 + 2 * a.tier) = s.cnt (0xE0A005 + 2 * a.tier) + cyc ∧ t.time.guard = true ∧ keepsBut [.counts, .time] s t ∧
      countsBut [0xE0A004 + 2 * a.tier, 0xE0A005 + 2 * a.tier] s t))

/-- R41, R42, R43: the alignment state moves as the table says. A lost marker takes locked to holdover; 16 ticks in a row lock an acquiring Molset; the limits of
acquiring and of holdover take it out of phase, which is counted in 0xE010:09; an acquiring Molset without a link runs free. R48: writing 1 clears the peak phase error.
R343: the tick reference itself keeps the sender's measurements with the delay ((T4 − T2) − (T1 − T3)) / 2 and has the phase error 0; a locked one stays locked. Shown to
complete here: tickMarker, markerLost, alignmentLock, acquireTimeout, holdoverTimeout, freeRunTimeout, clearPeakPhase. -/
def Obligations.AlignmentStateMoves : Prop :=
  ((∀ s : State, s.running = true → s.reg 0x200104 = 2 → 1 ≤ s.time.markerLost →
    ∃ t, exec .markerLost s = .next t ∧ t.reg 0x200104 = 3 ∧ t.reg 0x200105 = 0 ∧ t.cnt 0xE0100A = s.cnt 0xE0100A + 1 ∧
      keepsBut [.regs, .counts] s t ∧ regsBut [0x200104, 0x200105] s t ∧ countsBut [0xE0100A] s t) ∧
  (∀ s : State, s.running = true → s.reg 0x200104 = 1 → 16 ≤ s.time.lockCount → s.time.joining = false →
    ∃ t, exec .alignmentLock s = .next t ∧ t.reg 0x200104 = 2 ∧ keepsBut [.regs] s t ∧ regsBut [0x200104] s t) ∧
  (∀ s : State, s.running = true → s.reg 0x200104 = 1 → s.reg 0x200107 ≤ s.time.acquire →
    ∃ t, exec .acquireTimeout s = .next t ∧ t.reg 0x200104 = 4 ∧ t.cnt 0xE01009 = s.cnt 0xE01009 + 1 ∧
      keepsBut [.regs, .counts, .time, .net, .fault, .mgmtOut] s t ∧ regsBut [0x200104] s t) ∧
  (∀ (s : State) (err : Nat), s.running = true → s.reg 0x200104 = 3 → (64 < s.reg 0x200105 ∨ 1000 < err) →
    ∃ t, exec (.holdoverTimeout err) s = .next t ∧ t.reg 0x200104 = 4 ∧ t.cnt 0xE01009 = s.cnt 0xE01009 + 1 ∧
      keepsBut [.regs, .counts, .time, .net, .fault, .mgmtOut] s t ∧ regsBut [0x200104] s t) ∧
  (∀ s : State, s.running = true → s.linkUp = false → s.reg 0x200104 = 1 →
    ∃ t, exec .freeRunTimeout s = .next t ∧ t.reg 0x200104 = 0 ∧ t.time.upstream = none ∧ t.time.joining = false ∧
      keepsBut [.regs, .time] s t ∧ regsBut [0x200104] s t) ∧
  (∀ s : State, s.running = true →
    ∃ t, exec (.clearPeakPhase 1) s = .next t ∧ t.reg 0x200103 = 0 ∧ keepsBut [.regs] s t ∧ regsBut [0x200103] s t) ∧
  (∀ (s : State) (v : Nat), s.running = true → v ≠ 1 → exec (.clearPeakPhase v) s = .next s)) ∧
  (∀ (s : State) (m : Marker), s.running = true → s.linkUp = true → s.reg 0x200101 = s.node → s.reg 0x200104 = 2 →
    ∃ t, exec (.tickMarker m) s = .next t ∧ t.regI 32 0x200102 = 0 ∧ t.reg 0x200104 = 2 ∧ t.time.upstream = none ∧ t.time.hops = 0 ∧
      (∃ k ∈ t.time.marks, k.node = m.sender ∧ k.delay = ((m.t4 - m.t2) - (m.t1 - m.t3)) / 2) ∧
      keepsBut [.regs, .time] s t ∧ regsBut [0x200102, 0x200103] s t)

/-! ### Spindles -/

/-- R121: a shingle that passes its check goes into its slot, and the spindle takes its queue up again; one that fails is refetched once and counted in 0xE040:07; one
that fails again is abandoned: no item is scored of it, 0xE040:08 counts it and the queries carry the integrity flag. R55: an access that completes is no longer
outstanding, one to flash beyond its bound is counted, and the context that waits for it is ready. Shown to complete here: shingleArrival, accessComplete. -/
def Obligations.DeliveriesReachTheSpindle : Prop :=
  (∀ (s : State) (sp slot : Nat) (sh : Shingle) (it : Item) (x : Idx) (h : Thatch), s.running = true → sp < 384 → slot < 4 →
    (s.sp sp).zeroing = false → arrivalItem s (s.sp sp) ((lk (s.sp sp).shslots slot).getD {}) sh.num = some it →
    (it.stolen && s.ctl.copies.any fun c => c.dst == sp) = false → s.findIdx it.tenant it.index = some x → thatchOf x it.shard it.version = some h →
    shingleOk sh it.shingle it.version h.im.cbset h.im.m h.im.shape h.im.d = true →
    ∃ t u, exec (.shingleArrival sp slot sh) s = .next t ∧ t = u.schedule sp ∧
      (∃ y, lk (u.sp sp).shslots slot = some y ∧ y.item = some it ∧ y.sh = some sh ∧ y.tomb = none) ∧
      keepsBut [.spin, .counts] s u ∧ countsBut [0xE02009, 0xE0200A] s u ∧ keepsBut [.spin, .ctl, .counts, .copy] s t) ∧
  (∀ (s : State) (sp slot : Nat) (sh : Shingle) (it : Item) (x : Idx) (h : Thatch), s.running = true → sp < 384 → slot < 4 →
    (s.sp sp).zeroing = false → arrivalItem s (s.sp sp) ((lk (s.sp sp).shslots slot).getD {}) sh.num = some it →
    (it.stolen && s.ctl.copies.any fun c => c.dst == sp) = false → s.findIdx it.tenant it.index = some x → thatchOf x it.shard it.version = some h →
    shingleOk sh it.shingle it.version h.im.cbset h.im.m h.im.shape h.im.d = false →
    ((lk (s.sp sp).shslots slot).getD {}).fails < s.reg 0x40100C →
    ∃ t, exec (.shingleArrival sp slot sh) s = .next t ∧ t.cnt 0xE04007 = s.cnt 0xE04007 + 1 ∧
      (∃ y, lk (t.sp sp).shslots slot = some y ∧ y.sh = none ∧ y.fails = ((lk (s.sp sp).shslots slot).getD {}).fails + 1) ∧
      keepsBut [.spin, .counts] s t ∧ countsBut [0xE04007, 0xE02009, 0xE0200A] s t) ∧
  (∀ (s : State) (sp slot : Nat) (sh : Shingle) (it : Item) (x : Idx) (h : Thatch), s.running = true → sp < 384 → slot < 4 →
    (s.sp sp).zeroing = false → arrivalItem s (s.sp sp) ((lk (s.sp sp).shslots slot).getD {}) sh.num = some it →
    (it.stolen && s.ctl.copies.any fun c => c.dst == sp) = false → s.findIdx it.tenant it.index = some x → thatchOf x it.shard it.version = some h →
    shingleOk sh it.shingle it.version h.im.cbset h.im.m h.im.shape h.im.d = false →
    s.reg 0x40100C ≤ ((lk (s.sp sp).shslots slot).getD {}).fails →
    ∃ t u, exec (.shingleArrival sp slot sh) s = .next t ∧ t = u.schedule sp ∧ u.cnt 0xE04007 = s.cnt 0xE04007 + 1 ∧ u.cnt 0xE04008 = s.cnt 0xE04008 + 1 ∧
      (∃ y z, lk (u.sp sp).shslots slot = some y ∧ y.sh = some z ∧ z.count = 0 ∧ z.ids = []) ∧
      (∀ c ∈ u.copy, (c.name, c.shard) ∈ itemQueries (s.sp sp) it → c.integrity = true) ∧ keepsBut [.spin, .counts, .copy, .fault, .free] s u) ∧
  (∀ (s : State) (id ns : Nat) (b b' : Bool) (c st : Nat) (a : Access), s.running = true → s.tier.accesses.find? (fun x => x.id == id) = some a →
    a.tier = 2 → a.ctx = none → s.reg 0x602003 < ns → s.readOk (.access id) = true →
    ∃ t, exec (.accessComplete id ns b b' ⟨c, st⟩) s = .next t ∧ t.tier.accesses = s.tier.accesses.filter (fun x => x.id != id) ∧
      t.cnt 0xE0A003 = s.cnt 0xE0A003 + 1 ∧ (∀ r ∈ t.sched.reads, r.what ≠ .access id) ∧ keepsBut [.tier, .counts, .sched, .regs] s t ∧
      countsBut [0xE0A003, 0xE0E008] s t) ∧
  (∀ (s : State) (id ns : Nat) (b b' : Bool) (co st sp c : Nat) (a : Access) (x : Ctx), s.running = true →
    s.tier.accesses.find? (fun x => x.id == id) = some a → a.tier = 2 → a.ctx = some (sp, c) → s.readOk (.access id) = true →
    (s.sp sp).ctxs[c]? = some x → x.st = 3 →
    ∃ t u y, exec (.accessComplete id ns b b' ⟨co, st⟩) s = .next t ∧ t = u.schedule sp ∧ (u.sp sp).ctxs[c]? = some y ∧ y.st = 1 ∧ y.loaded = true ∧
      y.item = x.item ∧ u.tier.accesses = s.tier.accesses.filter (fun x => x.id != id) ∧ keepsBut [.tier, .counts, .sched, .regs, .spin, .ctl] s u)

/-- R151, R154: once the content of every filter of an item's queries is here, the filter fetcher writes the tombstone word of its shingle (of a delta shingle the removal
word) in the view of its skein and one filter word for each query with a filter, and the contexts that waited for them are ready. R130, R150, R77: the item in hand is
scored against the queries of its mask: its pairs are counted, the item leaves its context, and the spindle goes on with its queue. R59: a bobbin error that cannot be
corrected puts the item back to the head of the queue, once; after a second one the spindle takes no further item. Shown to complete here: filterWordsArrival, scoreItem.
-/
def Obligations.ItemsAreFetchedAndScored : Prop :=
  (∀ (s : State) (sp slot : Nat) (st : List StreamRead) (bad : List (Nat × Nat)) (stall : Nat) (y : ShSlot) (it : Item) (sh : Shingle)
    (x : Idx) (h : Thatch) (view : Nat), s.running = true → lk (s.sp sp).shslots slot = some y → y.item = some it → y.sh = some sh → y.tomb = none →
    s.findIdx it.tenant it.index = some x → thatchOf x it.shard it.version = some h → viewOf x it.skein = some view →
    (∀ k ∈ maskSlots it.mask, ((slotOf (s.sp sp) k).q.bind fun q => s.findCopy q.1 q.2).all (fun c => (slotWord s c sh.ids k st bad).isSome) = true) →
    ∃ t u, exec (.filterWordsArrival sp slot st bad stall) s = .next t ∧ t = u.schedule sp ∧
      (∃ z, lk (u.sp sp).shslots slot = some z ∧ z.item = some it ∧ z.sh = some sh ∧
        z.tomb = some (if (h.delta.any fun d => d.num == sh.num) then deltaWord h view sh else tombWord h view sh) ∧
        z.words = (maskSlots it.mask).filterMap fun k => (slotOf (s.sp sp) k).q.bind fun q => (s.findCopy q.1 q.2).bind fun c =>
          (slotWord s c sh.ids k st bad).bind fun w => w.word.map fun l => (k, l)) ∧
      (∀ c ∈ (u.sp sp).ctxs, c.slot = slot → c.item.isSome = true → c.blocked = false ∧ c.st ≠ 3) ∧
      keepsBut [.spin, .ctl, .counts, .copy] s u ∧ countsBut [0xE0500D, 0xE0500E, 0xE0500F, 0xE02002, 0xE02003, 0xE02009, 0xE0200A] s u ∧
      keepsBut [.spin, .ctl, .counts, .copy] s t) ∧
  (∀ (s : State) (sp c : Nat) (ev : ItemEv) (x : Ctx) (it : Item) (y : ShSlot) (sh : Shingle) (tw : List Bool) (i : Idx) (h : Thatch), s.running = true →
    c < 8 → (s.sp sp).ctxs.getD c {} = x → x.item = some it → x.st = 2 → it.kind = 0 → lk (s.sp sp).shslots x.slot = some y → y.sh = some sh → y.tomb = some tw →
    s.findIdx it.tenant it.index = some i → thatchOf i it.shard it.version = some h → (s.sp sp).zeroing = false →
    ((maskSlots it.mask).any fun k => (slotOf (s.sp sp) k).q.isSome && (slotOf (s.sp sp) k).table.isNone) = false → ev.bad = false →
    ∃ t u, exec (.scoreItem sp c ev.corrected ev.bad ev.stall) s = .next t ∧ t = { u.scoreRun sp c it h sh tw y.words with pending := s.pending } ∧ keepsBut [.counts, .fault] s u ∧
      countsBut [0xE02002, 0xE02003] s u ∧
      t.cnt 0xE04005 = s.cnt 0xE04005 + ((s.scoreAll (s.sp sp) it h sh tw y.words).map fun r => r.2.2.1.scored).sum ∧
      t.cnt 0xE05009 = s.cnt 0xE05009 + ((s.scoreAll (s.sp sp) it h sh tw y.words).map fun r => r.2.2.1.tomb).sum ∧
      t.cnt 0xE0500B = s.cnt 0xE0500B + ((s.scoreAll (s.sp sp) it h sh tw y.words).map fun r => r.2.2.1.filter).sum ∧
      t.cnt 0xE0500C = s.cnt 0xE0500C + ((s.scoreAll (s.sp sp) it h sh tw y.words).map fun r => r.2.2.1.bound).sum ∧
      t.mem = s.mem ∧ t.idx = s.idx ∧ t.flash = s.flash ∧ t.rings = s.rings) ∧
  (∀ (s : State) (sp c : Nat) (ev : ItemEv) (x : Ctx) (it : Item) (y : ShSlot) (sh : Shingle) (tw : List Bool) (i : Idx) (h : Thatch), s.running = true →
    c < 8 → (s.sp sp).ctxs.getD c {} = x → x.item = some it → x.st = 2 → it.kind = 0 → lk (s.sp sp).shslots x.slot = some y → y.sh = some sh → y.tomb = some tw →
    s.findIdx it.tenant it.index = some i → thatchOf i it.shard it.version = some h → (s.sp sp).zeroing = false →
    ((maskSlots it.mask).any fun k => (slotOf (s.sp sp) k).q.isSome && (slotOf (s.sp sp) k).table.isNone) = false → ev.bad = true →
    ∃ t u, exec (.scoreItem sp c ev.corrected ev.bad ev.stall) s = .next t ∧ t = u.schedule sp ∧ u.cnt 0xE0200F = s.cnt 0xE0200F + 1 ∧
      (u.sp sp).queue = { it with errors := it.errors + 1 } :: (s.sp sp).queue ∧ (it.errors = 0 → u.cnt 0xE02010 = s.cnt 0xE02010 + 1) ∧
      (it.errors ≠ 0 → (u.sp sp).noTake = true) ∧ keepsBut [.spin, .ctl, .counts, .fault, .net, .mgmtOut] s u)

/-- R63, R64: an idle spindle that may steal takes the victim of R64 as its own, and nothing else changes. R65, R66: the victim takes its head first; then a grant at or
above the threshold moves the items, which are counted, and one below it is refused, counted in 0xE020:07, and the thief chooses again. R67: a table copy that ends is
counted by its bytes and is over. R69: a waiting item that finds a spindle is dealt there. R70: a zeroed bobbin takes items again. R74: a spindle that has finished the
old role's work zeroes its bobbin and its contexts, counted. Shown to complete here: stealRequest, stealRechoose, stealGrant, tableCopyDone, redealOnSlotFree,
zeroingDone, roleChangeZeroing. -/
def Obligations.StealsCopiesAndZeroing : Prop :=
  ((∀ (s : State) (n cyc : Nat), s.running = true → s.maySteal n cyc = true → (s.sp n).steal = none →
    ∃ t, exec (.stealRequest n cyc) s = .next t ∧ (t.sp n).steal = s.victim n ∧ (∀ m, m ≠ n → t.sp m = s.sp m) ∧ keepsBut [.spin] s t) ∧
  (∀ (s : State) (n cyc : Nat), s.running = true → s.maySteal n cyc = true → (s.sp n).steal = none →
    ∃ t, exec (.stealRechoose n cyc) s = .next t ∧ (t.sp n).steal = s.victim n ∧ (∀ m, m ≠ n → t.sp m = s.sp m) ∧ keepsBut [.spin] s t) ∧
  (∀ (s : State) (n cyc : Nat), s.running = true → s.maySteal n cyc = false →
    exec (.stealRequest n cyc) s = .next s ∧ exec (.stealRechoose n cyc) s = .next s) ∧
  (∀ (s u : State) (n v cyc : Nat) (f : List (Nat × Nat)), s.running = true → (s.sp n).steal = some v →
    s.reg (if dieOf v == dieOf n then 0x301002 else 0x301003) ≤ (s.headTaken n v).stealable v → s.spUp v = true → (s.headTaken n v).grantItems v n ≠ [] →
    (s.headTaken n v).copyTables 0 v n (maskSlots (itemsMask ((s.headTaken n v).grantItems v n))) = some (u, f) →
    ∃ t, exec (.stealGrant ⟨n, cyc⟩) s = .next t ∧ t = { u.moveItems v n ((s.headTaken n v).grantItems v n) f with pending := s.pending } ∧
      t.cnt 0xE02006 = s.cnt 0xE02006 + ((s.headTaken n v).grantItems v n).length ∧ t.mem = s.mem ∧ t.regs = s.regs) ∧
  (∀ (s : State) (n v cyc : Nat), s.running = true → (s.sp n).steal = some v →
    (s.headTaken n v).stealable v < s.reg (if dieOf v == dieOf n then 0x301002 else 0x301003) →
    ∃ t, exec (.stealGrant ⟨n, cyc⟩) s = .next t ∧ t = { ((s.headTaken n v).bump 0xE02007 1).chooseVictim n cyc with pending := s.pending } ∧
      t.cnt 0xE02007 = s.cnt 0xE02007 + 1)) ∧
  ((∀ (s : State) (c : TCopy), s.running = true → s.ctl.copies.find? (fun x => x.id == c.id) = some c →
    prepared (s.sp c.dst) (s.ownerOf 0 0) = true →
    ∃ t u, exec (.tableCopyDone c.id) s = .next t ∧ t = { (u.schedule c.dst).placeWaiting c.src with pending := s.pending } ∧
      u.cnt (if c.kind = 2 then 0xE04012 else 0xE02008) = s.cnt (if c.kind = 2 then 0xE04012 else 0xE02008) + c.bytes ∧ (∀ x ∈ u.ctl.copies, x.id ≠ c.id) ∧
      (c.kind ≠ 2 → ∀ x ∈ c.slots, ∀ q y T h, (slotOf (s.sp c.dst) x.2).q = some q → s.findCopy q.1 q.2 = some y → y.table = some T → s.copyThatch y = some h →
        (slotOf (u.sp c.dst) x.2).table = some T) ∧
      keepsBut [.ctl, .counts, .spin] s u ∧ countsBut [if c.kind = 2 then 0xE04012 else 0xE02008, 0xE02009, 0xE0200A] s u ∧
      t.mem = s.mem) ∧
  (∀ (s u : State) (it : Item) (qs : List (QName × Nat)) (ns : Nat), s.running = true → s.ctl.redeal = [(it, qs, ns)] → it.kind = 0 →
    State.redealItem { s with ctl := { s.ctl with redeal := [] } } it qs = some u →
    ∃ t, exec .redealOnSlotFree s = .next t ∧ t = { u with pending := s.pending } ∧ keepsBut [.spin, .ctl, .copy, .counts] s t) ∧
  (∀ (s : State) (n : Nat), s.running = true → (s.sp n).zeroing = true →
    ∃ t u, exec (.zeroingDone n) s = .next t ∧ t = u.schedule n ∧ (u.sp n) = { s.sp n with zeroing := false } ∧ (∀ m, m ≠ n → u.sp m = s.sp m) ∧
      keepsBut [.spin] s u ∧ keepsBut [.spin, .ctl, .counts, .copy] s t) ∧
  (∀ (s : State) (n : Nat), s.running = true → (s.sp n).zeroing = false → exec (.zeroingDone n) s = .next s) ∧
  (∀ (s : State) (n : Nat), s.running = true → (s.sp n).roleZero = true → (∀ c ∈ (s.sp n).ctxs, c.item = none) → (s.sp n).hsets = [] →
    (∀ i ∈ (s.sp n).queue, i.role = nodeRole s.map.entries s.node) →
    ∃ t, exec (.roleChangeZeroing n) s = .next t ∧ (t.sp n).roleZero = false ∧ (t.sp n).zeroing = true ∧ (∀ c ∈ (t.sp n).ctxs, c.owner = none) ∧
      t.cnt 0xE02014 = s.cnt 0xE02014 + 1 ∧ t.cnt 0xE02009 = s.cnt 0xE02009 + 1 ∧ t.cnt 0xE0200A = s.cnt 0xE0200A + 2048 ∧ t.cnt 0xE0200B = s.cnt 0xE0200B + 8 ∧
      (∀ m, m ≠ n → t.sp m = s.sp m) ∧ keepsBut [.spin, .counts, .ctl, .copy] s t ∧ countsBut [0xE02014, 0xE02009, 0xE0200A, 0xE0200B] s t))

/-- R77, R78: two equal digests settle a check; two that differ send the item to the third spindle, whose digest settles the check for the spindle that it matches and
charges the other one in 0xE020:12 and in its own counter of 0xE021 or 0xE022. R79: without a third spindle, and where three digests differ, no candidate is taken and the
queries carry the integrity flag. Shown to complete here: digestCompare, thirdDigestCompare. -/
def Obligations.ChecksOfSampledItems : Prop :=
  (∀ (s : State) (k : Check) (d : W64), s.running = true → s.ctl.checks.find? (fun x => x.id == k.id) = some k → k.d1 = some d → k.d2 = some d →
    k.out = 0 → k.third = none →
    ∃ t, exec (.digestCompare k.id) s = .next t ∧ t.ctl.checks = updIf (fun x => x.id == k.id) (fun _ => { k with out := 1 }) s.ctl.checks ∧
      keepsBut [.ctl] s t) ∧
  (∀ (s u : State) (k : Check) (d e : W64) (n : Nat), s.running = true → s.ctl.checks.find? (fun x => x.id == k.id) = some k → k.d1 = some d →
    k.d2 = some e → d ≠ e → k.out = 0 → k.third = none → s.thirdOf k.first k.checker = some n → s.placeCopy k.first n k.item k.queries = some u →
    ∃ t v, exec (.digestCompare k.id) s = .next t ∧ t = { v.schedule n with pending := s.pending } ∧
      v.ctl.checks = updIf (fun x => x.id == k.id) (fun _ => { k with third := some n }) s.ctl.checks ∧
      (∃ i ∈ (v.sp n).queue, i.check = true ∧ i.shingle = k.item.shingle) ∧ keepsBut [.ctl, .spin, .counts, .copy] s v ∧ keepsBut [.ctl, .spin, .counts, .copy] s t) ∧
  (∀ (s : State) (k : Check) (d e : W64), s.running = true → s.ctl.checks.find? (fun x => x.id == k.id) = some k → k.d1 = some d →
    k.d2 = some e → d ≠ e → k.out = 0 → k.third = none → s.thirdOf k.first k.checker = none →
    ∃ t, exec (.digestCompare k.id) s = .next t ∧ t.ctl.checks = updIf (fun x => x.id == k.id) (fun _ => { k with out := 3 }) s.ctl.checks ∧
      t.cnt 0xE02016 = s.cnt 0xE02016 + 1 ∧ t.cnt 0xE02013 = s.cnt 0xE02013 + 1 ∧ (∀ c ∈ t.copy, (c.name, c.shard) ∈ k.queries → c.integrity = true)) ∧
  (∀ (s : State) (k : Check) (n : Nat) (d e : W64), s.running = true → s.ctl.checks.find? (fun x => x.id == k.id) = some k → k.third = some n → k.d1 = some d →
    k.d2 = some e → k.d3 = some d → k.out = 0 →
    ∃ t, exec (.thirdDigestCompare k.id n) s = .next t ∧ t.ctl.checks = updIf (fun x => x.id == k.id) (fun _ => { k with out := 1 }) s.ctl.checks ∧
      t.cnt 0xE02012 = s.cnt 0xE02012 + 1 ∧ t.cnt (perSpindle 0xE021 0xE022 k.checker) = s.cnt (perSpindle 0xE021 0xE022 k.checker) + 1 ∧
      keepsBut [.ctl, .counts, .fault] s t) ∧
  (∀ (s : State) (k : Check) (n : Nat) (d e : W64), s.running = true → s.ctl.checks.find? (fun x => x.id == k.id) = some k → k.third = some n → k.d1 = some d →
    k.d2 = some e → d ≠ e → k.d3 = some e → k.out = 0 →
    ∃ t, exec (.thirdDigestCompare k.id n) s = .next t ∧ t.ctl.checks = updIf (fun x => x.id == k.id) (fun _ => { k with out := 2 }) s.ctl.checks ∧
      t.cnt 0xE02012 = s.cnt 0xE02012 + 1 ∧ t.cnt (perSpindle 0xE021 0xE022 k.first) = s.cnt (perSpindle 0xE021 0xE022 k.first) + 1 ∧
      keepsBut [.ctl, .counts, .fault, .dense] s t) ∧
  (∀ (s : State) (k : Check) (n : Nat) (d e g : W64), s.running = true → s.ctl.checks.find? (fun x => x.id == k.id) = some k → k.third = some n → k.d1 = some d →
    k.d2 = some e → k.d3 = some g → g ≠ d → g ≠ e → k.out = 0 →
    ∃ t, exec (.thirdDigestCompare k.id n) s = .next t ∧ t.ctl.checks = updIf (fun x => x.id == k.id) (fun _ => { k with out := 3 }) s.ctl.checks ∧
      t.cnt 0xE02013 = s.cnt 0xE02013 + 1 ∧ (∀ c ∈ t.copy, (c.name, c.shard) ∈ k.queries → c.integrity = true))

/-! ### The life of a query -/

/-- R146: a pass closes once it holds the queries that it needs, its builder may build and no older skein's queries of the index wait: they get table slots of the builder
in ascending home and query index. R122, R123: a table build marks its pass built, and a query whose parameters fit its thatch has its tables in its slot. R147, R148: the
coarse scan ends its pass and gives its query the order of its lists; without a spindle the query waits. R144, R145: a vector that was read goes with the query to the
copy that serves each shard, a shard that none serves is missing; a copy that has the thatch of the skein takes the dispatch. R153: the content of a resident filter
serves from its tick on, and the one before it stops there; a filter that is released stops there. Shown to complete here: buildPassClose, passGatherTimeout, tableBuild,
coarseScan, vectorReadDone, dispatch, residentFilterCopy. -/
def Obligations.PassesAndDispatches : Prop :=
  ((∀ (s : State) (k t i b : Nat), s.running = true → s.reg 0x40100A ≤ (((s.heldQueries k t i).map (·.name)).eraseDups).length → s.mayBuild b = true →
    (s.copy.any fun c => c.phase == 0 && c.par.tenant == t && c.par.index == i && c.name.skein < k) = false →
    (s.passTake (s.heldQueries k t i)).length ≤ (freeSlots ((s.prepareSp b (s.ownerOf t 0)).sp b)).length →
    ∃ u p, exec (.buildPassClose k t i b) s = .next u ∧ u.passes = s.passes ++ [p] ∧ p.skein = k ∧ p.tenant = t ∧ p.index = i ∧ p.builder = b ∧
      p.built = false ∧ p.queries.map (fun x => (x.1, x.2.1)) = (s.passTake (s.heldQueries k t i)).map (fun c => (c.name, c.shard)) ∧
      keepsBut [.spin, .ctl, .copy, .passes, .counts] s u) ∧
  (∀ (s : State) (k t i b : Nat), s.running = true → s.heldQueries k t i ≠ [] → s.mayBuild b = true →
    (s.copy.any fun c => c.phase == 0 && c.par.tenant == t && c.par.index == i && c.name.skein < k) = false →
    (s.passTake (s.heldQueries k t i)).length ≤ (freeSlots ((s.prepareSp b (s.ownerOf t 0)).sp b)).length →
    ∃ u p, exec (.passGatherTimeout k t i b) s = .next u ∧ u.passes = s.passes ++ [p] ∧ p.skein = k ∧ p.tenant = t ∧ p.index = i ∧ p.builder = b ∧
      p.built = false ∧ p.queries.map (fun x => (x.1, x.2.1)) = (s.passTake (s.heldQueries k t i)).map (fun c => (c.name, c.shard)) ∧
      keepsBut [.spin, .ctl, .copy, .passes, .counts] s u) ∧
  (∀ (s : State) (p : Pass), s.running = true → s.passes.find? (fun x => x.id == p.id) = some p → p.built = false →
    prepared (s.sp p.builder) (s.ownerOf p.tenant 0) = true →
    ∃ t, exec (.tableBuild p.id) s = .next t ∧ t.passes = updIf (fun x => x.id == p.id) (fun x => { x with built := true }) s.passes ∧
      t.cnt 0xE04002 = s.cnt 0xE04002 + 1 ∧ t.mem = s.mem ∧ t.rings = s.rings) ∧
  (∀ (s : State) (p : Pass) (q : QName) (sh slot : Nat) (c : CopyQ) (h : Thatch) (T : Table) (n : NumCnt), s.running = true →
    s.passes.find? (fun x => x.id == p.id) = some p → p.built = false → prepared (s.sp p.builder) (s.ownerOf p.tenant 0) = true →
    p.queries = [(q, sh, slot)] → s.findCopy q sh = some c → s.copyThatch c = some h →
    (c.par.metric != shapeMetric h.im.shape || c.par.dim != h.im.dim || c.par.sign != field h.im.shape 2 1) = false → s.builtTable c = none →
    buildTable h.im.codebook h.im.m h.im.shape h.im.d c.vec = (.table T, n) →
    ∃ t y, exec (.tableBuild p.id) s = .next t ∧ t.findCopy q sh = some y ∧ y.table = some T ∧ y.phase = 2 ∧ (slotOf (t.sp p.builder) slot).table = some T ∧
      t.cnt 0xE04001 = s.cnt 0xE04001 + 1 ∧ t.cnt 0xE04002 = s.cnt 0xE04002 + 1 ∧ keepsBut [.spin, .copy, .passes, .counts] s t) ∧
  (∀ (s : State) (p : Pass) (plan : List Place) (wrong : List (Nat × List Shingle)), s.running = true → s.passes.find? (fun x => x.id == p.id) = some p →
    p.built = true →
    ∃ t, exec (.coarseScan p.id ⟨plan, wrong⟩) s = .next t ∧ t.passes = s.passes.filter (fun x => x.id != p.id) ∧ t.mem = s.mem ∧ t.rings = s.rings) ∧
  (∀ (s : State) (p : Pass) (wrong : List (Nat × List Shingle)) (c : CopyQ) (h : Thatch) (T : Table) (slot : Nat), s.running = true →
    s.passes.find? (fun x => x.id == p.id) = some p → p.built = true → s.passRuns p = [(c, h, T, slot)] →
    ∃ t y, exec (.coarseScan p.id ⟨[], wrong⟩) s = .next t ∧ t.findCopy c.name c.shard = some y ∧ y.phase = 2 ∧ y.plan = [] ∧
      y.coarse = coarseOrder (centDelivered h.im (s.reg 0x40100C) wrong).1 T c.par.ceil ∧ t.passes = s.passes.filter (fun x => x.id != p.id) ∧
      keepsBut [.copy, .passes, .counts, .fault, .free] s t)) ∧
  ((∀ (s : State) (q : QName) (h : HomeQ), s.running = true → s.findHome q = some h → h.phase = 1 → h.refusal = 0 →
    (∀ g ∈ s.home, g.name.skein = q.skein → g.phase = 1 → g.refusal = 0 → q.qidx ≤ g.name.qidx) →
    s.poisoned h.par.tenant h.vecAddr (h.par.dim * vecWidth h.vecFmt) = false → s.ownedStacks h.par.tenant h.vecAddr (h.par.dim * vecWidth h.vecFmt) = true →
    ∃ t u, exec (.vectorReadDone q false) s = .next t ∧
      (∃ g, u.findHome q = some g ∧ g.phase = 2 ∧ g.copies = served (s.dests h) ∧ g.missing = unserved (s.dests h) ∧
        g.vec = readPlain h.vecFmt h.par.dim (s.load h.par.tenant h.vecAddr (h.par.dim * vecWidth h.vecFmt)) ∧
        t = ((served (s.dests h)).foldl (State.dispatchTo q h g.vec) u).decideStep q) ∧
      keepsBut [.home, .counts] s u ∧ t.mem = s.mem ∧ t.rings = s.rings) ∧
  (∀ (s : State) (q : QName) (h : HomeQ), s.running = true → s.findHome q = some h → h.phase = 1 → h.refusal = 0 →
    (∀ g ∈ s.home, g.name.skein = q.skein → g.phase = 1 → g.refusal = 0 → q.qidx ≤ g.name.qidx) →
    ∃ t, exec (.vectorReadDone q true) s = .next t ∧ t.findHome q = some { h with refusal := 0x000C } ∧ t.cnt 0xE05004 = s.cnt 0xE05004 + 1 ∧
      keepsBut [.home, .counts] s t) ∧
  (∀ (s : State) (d : Dispatch) (x : Idx) (h : Thatch), s.running = true → s.bindingDiffers d.par.tenant s.node = false →
    (d.name.home = s.node → (s.findHome d.name).isSome = true) → s.findCopy d.name d.shard = none →
    s.findIdx d.par.tenant d.par.index = some x → viewGone x d.name.skein = false → liveAt x d.shard d.name.skein = some h →
    ∃ t, exec (.dispatch d) s = .next t ∧
      t.copy = s.copy ++ [{ name := d.name, shard := d.shard, par := d.par, vec := d.vec, version := h.im.version, epoch := d.epoch }] ∧
      t.cnt 0xE05007 = s.cnt 0xE05007 + 1 ∧ keepsBut [.copy, .counts] s t ∧ countsBut [0xE05007] s t) ∧
  (∀ (s : State) (t f i p : Nat) (m : Bitmap) (w : Nat), s.running = true →
    (s.filters.any fun x => x.tenant == t && x.handle == f && x.start == p) = false →
    ∃ u, exec (.residentFilterCopy t f i p (some m) w) s = .next u ∧
      (∃ x ∈ u.filters, x.tenant = t ∧ x.handle = f ∧ x.index = i ∧ x.map = m ∧ x.start = p ∧ x.stop = none) ∧
      (∀ x ∈ u.filters, x.tenant = t → x.handle = f → x.stop = none → x.start = p) ∧
      u.cnt 0xE0501C = s.cnt 0xE0501C + w ∧ keepsBut [.filters, .counts, .tier, .regs] s u ∧ countsBut [0xE0501B, 0xE0501C, 0xE0200C, 0xE0A016] s u) ∧
  (∀ (s : State) (t f i p w : Nat), s.running = true → (s.filters.any fun x => x.tenant == t && x.handle == f && x.start == p) = false →
    ∃ u, exec (.residentFilterCopy t f i p none w) s = .next u ∧
      u.filters = updIf (fun x => x.tenant == t && x.handle == f && x.stop.isNone) (fun x => { x with stop := some p }) s.filters ∧ keepsBut [.filters] s u))

/-- R157: the home takes a step report that it awaits, a missing shard (R159) or a refusal (R165) with it, and then decides; a stop decision stops every copy of the query
here; a widening decision deals the lists of the next step on the copy that may widen. Shown to complete here: stepReport, widenDecision, stopDecision. -/
def Obligations.WideningIsDecided : Prop :=
  (∀ (s : State) (r : StepRep) (h : HomeQ), s.running = true → r.name.home = s.node → s.findHome r.name = some h →
    (h.copies.any fun c => c.1 == r.shard) = true → (h.reports.any fun x => x.shard == r.shard && x.step == r.step) = false →
    ∃ t u g, exec (.stepReport r) s = .next t ∧ u.findHome r.name = some g ∧ g.reports = h.reports ++ [r] ∧ (r.status = 0x000E → r.shard ∈ g.missing) ∧
      (r.status ≠ 0 → r.status ≠ 0x000E → g.refusal ≠ 0) ∧ (r.status = 0 → g = { h with reports := h.reports ++ [r] }) ∧ keepsBut [.home, .counts] s u ∧
      countsBut [0xE05018] s u ∧ t = u.decideStep r.name ∧ keepsBut [.home, .copy, .counts, .regs, .sched, .net] s t) ∧
  (∀ (s : State) (q : QName), s.running = true →
    ∃ t, exec (.stopDecision q) s = .next t ∧ t.copy = updIf (fun c => c.name == q) (fun c => { c with stop := true }) s.copy ∧ keepsBut [.copy] s t) ∧
  (∀ (s : State) (c : CopyQ) (h : Thatch), s.running = true → s.copy.filter (fun x => x.name == c.name) = [c] → c.phase = 3 → c.stop = false →
    c.left = 0 → canWiden c.par = true → s.copyThatch c = some h →
    ∃ t, exec (.widenDecision c.name (c.step + 1)) s = .next t ∧
      t = (s.setCopy { c with step := c.step + 1, offered := 0 }).deal h [{ c with step := c.step + 1, offered := 0 }] ∧ t.mem = s.mem ∧ t.rings = s.rings)

/-- R172, R180, R186: a module hank of the right form joins the query at its home; one that repeats a hank is discarded and counted, and one whose digest is wrong is
asked for again, once. R178, R179: a complete die ply replaces the die's segments by one hank; a module ply of a query that may still widen leaves its output open, and of
one that has stopped sends the module hank home after the last pass; the fabric ply merges the hanks of every awaited shard, and marks a missing one. Older skeins go
first (R32). R187: a hank asked for again is sent again. Shown to complete here: hankArrival, diePly, modulePly, fabricPly, hankResendRequest. -/
def Obligations.PliesMerge : Prop :=
  (∀ (s : State) (h : Hank) (die src : Nat) (q : HomeQ), s.running = true → h.level = 2 → s.findHome h.name = some q → h.res = 0 →
    (q.copies.any fun c => c.1 == h.shard) = true → h.digest = hankDigest h → (q.hanks.find? fun x => x.shard == h.shard && x.pass == h.pass) = none →
    ∃ t, exec (.hankArrival h die src) s = .next t ∧ t.findHome h.name = some { q with hanks := q.hanks ++ [h] } ∧ keepsBut [.home] s t) ∧
  (∀ (s : State) (h g : Hank) (die src : Nat) (q : HomeQ), s.running = true → h.level = 2 → s.findHome h.name = some q → h.res = 0 →
    (q.copies.any fun c => c.1 == h.shard) = true → h.digest = hankDigest h → (q.hanks.find? fun x => x.shard == h.shard && x.pass == h.pass) = some g →
    g.digest = h.digest → exec (.hankArrival h die src) s = .next (s.bump 0xE0600D 1)) ∧
  (∀ (s : State) (h : Hank) (die src : Nat) (q : HomeQ), s.running = true → h.level = 2 → s.findHome h.name = some q → h.digest ≠ hankDigest h → src ≠ s.node →
    (h.shard, h.pass) ∉ q.asked →
    ∃ t, exec (.hankArrival h die src) s = .next t ∧ t.findHome h.name = some { q with asked := q.asked ++ [(h.shard, h.pass)] } ∧
      t.cnt 0xE06014 = s.cnt 0xE06014 + 1 ∧ t.hasSent src 0x20 (.askHank q.name h.shard h.pass) ∧ keepsBut [.home, .counts, .net] s t) ∧
  (∀ (s : State) (c : CopyQ) (die : Nat), s.running = true → s.findCopy c.name c.shard = some c → s.dieComplete die c = true →
    s.olderCopy c.name.skein (s.dieComplete die) = false →
    ∃ t c', exec (.diePly c.name c.shard die) s = .next t ∧ t.findCopy c.name c.shard = some c' ∧ lk c'.dealt die = some 0 ∧
      (∀ x ∈ c'.segs, x.1 ≠ die) ∧
      c'.dieHanks = c.dieHanks ++ [(die, (ply c.name c.shard 1 c.pass (passKeep (keepCount c.par) c.pass)
        (checkedInputs (s.dieChecks c die) (c.name, c.shard) (dieSegs c die))).1)] ∧
      t.ctl.checks = (s.dropChecks c die).ctl.checks ∧ t.cnt 0xE06004 = s.cnt 0xE06004 + (dieSegs c die).length ∧
      keepsBut [.copy, .counts, .fault, .ctl, .free] s t) ∧
  (∀ (s : State) (c : CopyQ) (late : Bool), s.running = true → s.findCopy c.name c.shard = some c → moduleReady c = true →
    s.olderCopy c.name.skein moduleReady = false → c.dieHanks ≠ [] → c.stop = false →
    ∃ t c', exec (.modulePly c.name c.shard late) s = .next t ∧ t.findCopy c.name c.shard = some c' ∧ c'.dieHanks = [] ∧
      c'.open_ = some (ply c.name c.shard 2 c.pass (passKeep (keepCount c.par) c.pass)
        (c.open_.toList ++ (sortBy (fun (a b : Nat × Hank) => a.1 < b.1) c.dieHanks).map (·.2))).1 ∧
      t.cnt 0xE06005 = s.cnt 0xE06005 + c.dieHanks.length ∧ keepsBut [.copy, .counts, .fault, .ctl, .free] s t) ∧
  (∀ (s : State) (c : CopyQ) (late : Bool), s.running = true → s.findCopy c.name c.shard = some c → moduleReady c = true →
    s.olderCopy c.name.skein moduleReady = false → c.stop = true → c.pass = passCount (keepCount c.par) → c.name.home ≠ s.node →
    ∃ t c' h, exec (.modulePly c.name c.shard late) s = .next t ∧ t.findCopy c.name c.shard = some c' ∧ c'.sent = some h ∧ c'.phase = 4 ∧ h.level = 2 ∧
      t.hasSent c.name.home 0x20 (.hank h) ∧ t.mem = s.mem ∧ t.rings = s.rings) ∧
  (∀ (s : State) (q : QName) (h : HomeQ) (late : Bool), s.running = true → s.findHome q = some h → h.name = q → s.fabricReady h = true →
    s.olderHome q.skein s.fabricReady = false → fabricInputs h ≠ [] →
    ∃ t g m, exec (.fabricPly q late) s = .next t ∧ t.findHome q = some g ∧ g.phase = 3 ∧ g.merged = some m ∧
      m.entries = (ply q 0 3 0 (keepCount h.par) (fabricInputs h)).1.entries ∧ m.boundary = (ply q 0 3 0 (keepCount h.par) (fabricInputs h)).1.boundary ∧
      (h.missing ≠ [] → m.missing = true) ∧ m.digest = hankDigest m ∧ t.cnt 0xE06006 = s.cnt 0xE06006 + (fabricInputs h).length ∧
      keepsBut [.home, .counts, .fault, .ctl, .free] s t) ∧
  (∀ (s : State) (src p : Nat) (c : CopyQ) (h : Hank), s.running = true → s.findCopy c.name c.shard = some c → c.sent = some h →
    ∃ t, exec (.hankResendRequest src c.name c.shard p) s = .next t ∧ t.hasSent src 0x20 (.hank h) ∧ keepsBut [.net, .counts] s t)

/-- R160: the re-rank sends every candidate of the merged hank to the copy that supplied it; a copy starts the read of a candidate's vector, from flash in the queue of
its tenant and class (R417) or of a delta item from the stacks; the read's score goes home and counts once, and a vector that cannot be read gives none (R161); the
re-ranked ply keeps what was scored. R162 to R165, R443: a delivery writes the result header and the records, and a completion for the entry; the query is finished. A
refused query gets the header alone. The completion's slot and the result area are taken to lie apart: R433 lets a host place them over each other, and then the later
write stays. A result area that cannot be written is counted in 0xE050:1A, and the query is finished with a completion too. Shown to complete here: rerankCandidate,
rerankReadDone, rerankScoreReceive, rerankDispatch, resultDelivery, rerankedPly. -/
def Obligations.CandidatesAndResults : Prop :=
  ((∀ (s : State) (q : QName) (h : HomeQ), s.running = true → s.findHome q = some h → h.name = q → s.rerankReady h = true → s.olderHome q.skein s.rerankReady = false →
    ∃ t u, exec (.rerankDispatch q) s = .next t ∧ u.findHome q = some { h with phase := 4, sent := rerankCands h } ∧ keepsBut [.home] s u ∧
      t = (rerankCands h).foldl (State.sendCand h) u ∧ t.mem = s.mem ∧
      ((∀ c ∈ rerankCands h, ∃ x, h.copies.find? (fun y => y.1 == c.shard) = some x ∧ s.hasFailed x.2 = false) →
        t.cnt 0xE05016 = s.cnt 0xE05016 + (rerankCands h).length)) ∧
  (∀ (s : State) (c : Cand) (x : CopyQ) (h : Thatch) (a : Nat), s.running = true → s.findCopy c.name c.shard = some x → c ∉ s.rerank.reads →
    s.copyThatch x = some h → candAddr h c = some a →
    ∃ t, exec (.rerankCandidate c) s = .next t ∧ t.rerank.reads = s.rerank.reads ++ [c] ∧
      (∃ y, t.tier.accesses = s.tier.accesses ++ [y] ∧ y.tier = (if c.delta then 0 else 2) ∧ y.addr = a ∧ y.stage = 4 ∧ y.q = some c.name) ∧
      (c.delta = false → ∃ r ∈ t.sched.reads, r.res = 2 ∧ r.tenant = x.par.tenant ∧ r.bulk = x.par.bulk ∧ r.what = .rerank c) ∧
      keepsBut [.rerank, .tier, .ctl, .sched] s t) ∧
  (∀ (s : State) (c : Cand) (sp : Nat) (inp : StreamIn) (x : CopyQ) (h : Thatch) (bs : List Byte) (g : HomeQ), s.running = true →
    s.findCopy c.name c.shard = some x → s.copyThatch x = some h → c ∈ s.rerank.reads → s.readOk (.rerank c) = true → s.spUp sp = true → h.im.rr ≠ 5 →
    s.candBytes h x.par.tenant c = some bs → c.name.home = s.node → s.findHome c.name = some g → g.phase = 4 →
    (g.sent.any fun y => y.shard == c.shard && y.id == c.id) = true → (g.scores.any fun y => y.shard == c.shard && y.id == c.id) = false →
    ∃ t g', exec (.rerankReadDone c ⟨false, inp, sp⟩) s = .next t ∧ t.findHome c.name = some g' ∧
      (∃ y ∈ g'.scores, y.shard = c.shard ∧ y.id = c.id ∧ y.score = some (rerankScore (shapeMetric h.im.shape)
        ((metricVec (shapeMetric h.im.shape) x.vec).1.getD x.vec) (readPlain 7 h.im.dim bs)).1) ∧
      t.rerank.reads = s.rerank.reads.filter (fun y => y != c) ∧ t.cnt 0xE0400E = s.cnt 0xE0400E + 1 ∧ t.mem = s.mem ∧ t.rings = s.rings) ∧
  (∀ (s : State) (c : Cand) (sp : Nat) (inp : StreamIn) (x : CopyQ) (h : Thatch), s.running = true →
    s.findCopy c.name c.shard = some x → s.copyThatch x = some h → c ∈ s.rerank.reads → s.readOk (.rerank c) = true → s.spUp sp = true → c.name.home ≠ s.node →
    ∃ t, exec (.rerankReadDone c ⟨true, inp, sp⟩) s = .next t ∧ t.rerank.reads = s.rerank.reads.filter (fun y => y != c) ∧
      t.hasSent c.name.home 0x20 (.candScore { name := c.name, shard := c.shard, id := c.id, score := none, integrity := false }) ∧ t.mem = s.mem ∧
      t.rings = s.rings) ∧
  (∀ (s : State) (a : CandScore) (h : HomeQ) (v : F32), s.running = true → a.name.home = s.node → s.findHome a.name = some h → h.phase = 4 →
    (h.sent.any fun c => c.shard == a.shard && c.id == a.id) = true → (h.scores.any fun x => x.shard == a.shard && x.id == a.id) = false → a.score = some v →
    ∃ t, exec (.rerankScoreReceive a) s = .next t ∧
      t.findHome a.name = some { h with scores := h.scores ++ [a], integrity := h.integrity || a.integrity } ∧ keepsBut [.home] s t) ∧
  (∀ (s : State) (a : CandScore) (h : HomeQ), s.running = true → a.name.home = s.node → s.findHome a.name = some h → h.phase = 4 →
    (h.sent.any fun c => c.shard == a.shard && c.id == a.id) = true → (h.scores.any fun x => x.shard == a.shard && x.id == a.id) = false → a.score = none →
    ∃ t g, exec (.rerankScoreReceive a) s = .next t ∧ t.findHome a.name = some g ∧ g.gap = true ∧ t.cnt 0xE05017 = s.cnt 0xE05017 + 1 ∧
      (∃ y ∈ g.scores, y.shard = a.shard ∧ y.id = a.id ∧ y.score = none) ∧ keepsBut [.home, .counts] s t ∧ countsBut [0xE05017] s t) ∧
  (∀ (s : State) (q : QName) (h : HomeQ) (late : Bool), s.running = true → s.findHome q = some h → h.name = q → s.rankReady h = true →
    s.olderHome q.skein s.rankReady = false →
    ∃ t g m, exec (.rerankedPly q late) s = .next t ∧ t.findHome q = some g ∧ g.phase = 5 ∧ g.ranked = some m ∧ m.entries.length ≤ h.par.k ∧
      keepsBut [.home, .counts] s t)) ∧
  ((∀ (s : State) (q : QName) (h : HomeQ), s.running = true → s.memOk = true → s.findHome q = some h → h.name = q → s.deliverable h = true →
    s.olderHome q.skein s.deliverable = false →
    s.ownedStacks h.par.tenant h.resAddr (64 + 16 * h.par.k) = true → (s.sec.tenants.any fun r => r.tenant == h.par.tenant && r.down) = false →
    (let a := s.complAddr h.par.tenant (s.ring h.par.tenant).nextJ
     h.resAddr + (64 + 16 * h.par.k) ≤ a ∨ a + 128 ≤ h.resAddr) →
    ∃ t g, exec (.resultDelivery q false) s = .next t ∧ t.findHome q = some g ∧ g.phase = 6 ∧
      (∀ i < (s.resultBytes h h.refusal).length, t.load h.par.tenant (h.resAddr + i) 1 = [(s.resultBytes h h.refusal).getD i 0]) ∧
      (t.ring h.par.tenant).nextJ = (s.ring h.par.tenant).nextJ + 1 ∧ t.cnt 0xE0F00C = s.cnt 0xE0F00C + 1 ∧
      keepsBut [.mem, .poison, .home, .rings, .counts, .fault] s t) ∧
  (∀ (s : State) (q : QName) (h : HomeQ), s.running = true → s.findHome q = some h → h.name = q → s.deliverable h = true →
    s.olderHome q.skein s.deliverable = false → (s.sec.tenants.any fun r => r.tenant == h.par.tenant && r.down) = false →
    ∃ t g, exec (.resultDelivery q true) s = .next t ∧ t.findHome q = some g ∧ g.phase = 6 ∧ t.cnt 0xE0501A = s.cnt 0xE0501A + 1 ∧
      (t.ring h.par.tenant).nextJ = (s.ring h.par.tenant).nextJ + 1 ∧ t.cnt 0xE0F00C = s.cnt 0xE0F00C + 1 ∧
      keepsBut [.mem, .poison, .home, .rings, .counts, .fault] s t))

/-! ### The rings -/

/-- R412, R439, R440: an entry of the search side that gets status 0 from its checks waits for admission, with its cost and class: queries, updates, index registrations,
builds and filters. R412, R439, R440: an entry of a model, a dense job, a table, a stage, a switch, a gather, a scatter or a placement that gets status 0 from its checks
waits for admission, with its cost and class. R440: every ring row, whatever its kind, refuses an entry that fails a ring check, at once and counted in 0xE0F0:0B. Shown
to complete here: query, indexRegister, updateInsert, updateDelete, buildFold, buildRetrain, modelRegister, modelRelease, denseJob, tableRegister, tableRelease,
tableStage, tableSwitch, gather, scatter, regionAllocate, regionFree, regionMove, filterRegister, filterReplace, filterRelease. -/
def Obligations.RingEntriesAreChecked : Prop :=
  (ringRowPasses .query 1 anyEntry (fun t _ => checkQuery t) (fun t _ s e => (s.bump 0xE05001 1).queryStatus t e == 0) (fun t s e => (s.bump 0xE05001 1).queryCost t e)
    (fun e => eNat e 72 1 % 2 == 1) ∧
  ringRowPasses .updateInsert 2 (opIs 40 4 1 [1, 2]) (fun t _ => checkUpdate t) (fun t _ s e => s.updatePasses t e) unitCost neverBulk ∧
  ringRowPasses .updateDelete 2 (opIs 40 4 2 [1, 2]) (fun t _ => checkUpdate t) (fun t _ s e => s.updatePasses t e) unitCost neverBulk ∧
  ringRowPasses .indexRegister 3 anyEntry checkIndex (fun t seq s e => s.indexStatus t seq e == 0) unitCost neverBulk ∧
  ringRowPasses .buildFold 4 (opIs 26 256 0 [0, 1]) checkBuild (fun t seq s e => s.buildStatus t seq e == 0) unitCost neverBulk ∧
  ringRowPasses .buildRetrain 4 (opIs 26 256 1 [0, 1]) checkBuild (fun t seq s e => s.buildStatus t seq e == 0) unitCost neverBulk ∧
  ringRowPasses .filterRegister 5 (opIs 38 256 1 [1, 2, 3]) checkFilter (fun t seq s e => s.filterStatus t seq e == 0) unitCost neverBulk ∧
  ringRowPasses .filterReplace 5 (opIs 38 256 2 [1, 2, 3]) checkFilter (fun t seq s e => s.filterStatus t seq e == 0) unitCost neverBulk ∧
  ringRowPasses .filterRelease 5 (opIs 38 256 3 [1, 2, 3]) checkFilter (fun t seq s e => s.filterStatus t seq e == 0) unitCost neverBulk) ∧
  (ringRowPasses .modelRegister 6 (opIs 20 4 1 [1, 2]) (fun t _ => checkModel t) (fun t _ s e => s.modelEntryStatus t e == 0) unitCost neverBulk ∧
  ringRowPasses .modelRelease 6 (opIs 20 4 2 [1, 2]) (fun t _ => checkModel t) (fun t _ s e => s.modelEntryStatus t e == 0) unitCost neverBulk ∧
  ringRowPasses .denseJob 7 anyEntry (fun t _ => checkDense t) (fun t _ s e => s.densePasses t e) (fun t s e => (s.bump 0xE08001 1).jobUnits t e)
    (fun e => eNat e 51 1 == 1) ∧
  ringRowPasses .tableRegister 8 (opIs 18 4 1 [1, 2]) (fun t _ => checkTable t) (fun t _ s e => s.tableStatus t e == 0) unitCost neverBulk ∧
  ringRowPasses .tableRelease 8 (opIs 18 4 2 [1, 2]) (fun t _ => checkTable t) (fun t _ s e => s.tableStatus t e == 0) unitCost neverBulk ∧
  ringRowPasses .tableStage 9 anyEntry (fun t _ => checkStage t) (fun t _ s e => s.stageStatus t e == 0) unitCost neverBulk ∧
  ringRowPasses .tableSwitch 0xA anyEntry (fun t _ => checkSwitch t) (fun t _ s e => s.switchStatus t e == 0) unitCost neverBulk ∧
  ringRowPasses .gather 0xB anyEntry (fun t _ => checkGather t) (fun t _ s e => (s.bump 0xE09001 1).gatherStatus t e == 0)
    (fun t s e => (s.bump 0xE09001 1).gatherUnits t e) (fun e => eNat e 50 1 == 1) ∧
  ringRowPasses .scatter 0xC anyEntry (fun t _ => checkScatter t) (fun t _ s e => (s.bump 0xE09001 1).scatterStatus t e == 0)
    (fun t s e => (s.bump 0xE09001 1).scatterUnits t e) (fun e => eNat e 47 1 == 1) ∧
  ringRowPasses .regionAllocate 0x0D (opIs 36 4 1 [1, 2, 3]) (fun t _ => checkPlacement t) (fun t _ s e => s.placeStatus t e == 0) unitCost neverBulk ∧
  ringRowPasses .regionFree 0x0D (opIs 36 4 2 [1, 2, 3]) (fun t _ => checkPlacement t) (fun t _ s e => s.placeStatus t e == 0) unitCost neverBulk ∧
  ringRowPasses .regionMove 0x0D (opIs 36 4 3 [1, 2, 3]) (fun t _ => checkPlacement t) (fun t _ s e => s.placeStatus t e == 0) unitCost neverBulk) ∧
  (∀ row ∈ [Instr.query, .updateInsert, .updateDelete, .indexRegister, .buildFold, .buildRetrain, .filterRegister, .filterReplace, .filterRelease,
    .modelRegister, .modelRelease, .denseJob, .tableRegister, .tableRelease, .tableStage, .tableSwitch, .gather, .scatter, .regionAllocate, .regionFree,
    .regionMove], ringRowRefuses row)

/-! ### Thatches and updates -/

/-- R195: a Molset with a free slot takes the descriptor of an index and says so, one that has it says so again; the home keeps each answer, and the last one completes
the registration; a Molset without a slot has it discarded, which is counted in 0xE070:12. R204, R205: a vector that was read sends its update to the sequencer, one that
cannot be read completes its entry; the sequencer appends a removal, and an insert whose vector it can encode under every thatch, as the next record and counts it in
0xE070:04; an insert that it cannot encode is refused and counted. A log holder keeps a record and acknowledges, a copy holds it for the next seal; an acknowledgement of
a log holder moves on at the sequencer and never back. Shown to complete here: indexDescriptor, indexAck, updateVectorRead, sequencerUpdate, deltaRecord, deltaCommit. -/
def Obligations.IndexesAndUpdates : Prop :=
  ((∀ (s u : State) (src home : Nat) (d : IdxDesc), s.running = true → s.bindingDiffers d.tenant s.node = false → s.findIdx d.tenant d.index = none →
    s.takeIndex d home = some u →
    ∃ t x, exec (.indexDescriptor src ⟨home, d⟩) s = .next t ∧ t.idx = s.idx ++ [x] ∧ x.desc = d ∧ x.home = home ∧ x.regTick = s.ftick + 1 ∧
      x.slot < s.reg 0x404001 ∧ (∀ y ∈ s.idx, y.slot ≠ x.slot) ∧ t.hasSent src 0x21 (.idxAck d.tenant d.index true) ∧
      keepsBut [.idx, .regs, .net, .counts] s t) ∧
  (∀ (s : State) (src home : Nat) (d : IdxDesc), s.running = true → s.bindingDiffers d.tenant s.node = false → s.findIdx d.tenant d.index = none →
    s.takeIndex d home = none →
    ∃ t, exec (.indexDescriptor src ⟨home, d⟩) s = .next t ∧ t.hasSent src 0x21 (.idxAck d.tenant d.index false) ∧ keepsBut [.net, .counts] s t) ∧
  (∀ (s : State) (src home : Nat) (d : IdxDesc) (x : Idx), s.running = true → s.bindingDiffers d.tenant s.node = false → s.findIdx d.tenant d.index = some x →
    ∃ t, exec (.indexDescriptor src ⟨home, d⟩) s = .next t ∧ t.hasSent src 0x21 (.idxAck d.tenant d.index true) ∧ keepsBut [.net, .counts] s t) ∧
  (∀ (s : State) (src : Nat) (w : RegWait), s.running = true → s.regWait.find? (fun x => x.tenant == w.tenant && x.index == w.index) = some w →
    src ∈ w.nodes → src ∉ w.yes → src ∉ w.no → (∃ n ∈ w.nodes, n ≠ src ∧ n ∉ w.yes ∧ n ∉ w.no) →
    ∃ t, exec (.indexAck src w.tenant w.index true) s = .next t ∧
      t.regWait = updIf (fun x => x.tenant == w.tenant && x.index == w.index) (fun _ => { w with yes := w.yes ++ [src] }) s.regWait ∧
      keepsBut [.regWait] s t) ∧
  (∀ (s : State) (src : Nat) (w : RegWait), s.running = true → s.regWait.find? (fun x => x.tenant == w.tenant && x.index == w.index) = some w →
    src ∈ w.nodes → src ∉ w.yes → w.no = [] → (∀ n ∈ w.nodes, n = src ∨ n ∈ w.yes) →
    (s.sec.tenants.any fun r => r.tenant == w.tenant && r.down) = false →
    ∃ t, exec (.indexAck src w.tenant w.index true) s = .next t ∧ (∀ x ∈ t.regWait, ¬(x.tenant = w.tenant ∧ x.index = w.index)) ∧
      t.cnt 0xE0F00C = s.cnt 0xE0F00C + 1 ∧ keepsBut [.regWait, .rings, .counts, .mem, .poison] s t) ∧
  (∀ (s : State) (src : Nat) (w : RegWait) (x : Idx), s.running = true → s.findIdx w.tenant w.index = some x → x.home = s.node →
    s.regWait.find? (fun x => x.tenant == w.tenant && x.index == w.index) = some w → src ∈ w.nodes → src ∉ w.yes → src ∉ w.no →
    (∀ n ∈ w.nodes, n = src ∨ n ∈ w.yes ∨ n ∈ w.no) →
    ∃ t, exec (.indexAck src w.tenant w.index false) s = .next t ∧ (∀ y ∈ t.regWait, ¬(y.tenant = w.tenant ∧ y.index = w.index)) ∧
      (∀ y ∈ t.idx, y.slot ≠ x.slot) ∧ (∀ n ∈ w.yes, n ≠ s.node → t.hasSent n 0x21 (.idxAck w.tenant w.index false)) ∧
      t.cnt 0xE07012 = s.cnt 0xE07012 + 1)) ∧
  ((∀ (s : State) (u : UpdHome) (e : MapEntry), s.running = true → s.upd.find? (fun x => x.tenant == u.tenant && x.seq == u.seq) = some u →
    u.sent = false → u.op = 1 → s.poisoned u.tenant u.addr (u.dim * vecWidth u.fmt) = false →
    s.ownedStacks u.tenant u.addr (u.dim * vecWidth u.fmt) = true → idxService s.map.entries u.tenant u.index = some e → e.a ≠ s.node →
    ∃ t, exec (.updateVectorRead u.tenant u.seq false) s = .next t ∧
      t.upd = updIf (fun y => y.tenant == u.tenant && y.seq == u.seq) (fun y => { y with sent := true }) s.upd ∧
      (let v := readPlain u.fmt u.dim (s.load u.tenant u.addr (u.dim * vecWidth u.fmt))
       t.hasSent e.a 0x21 (.update ⟨u.tenant, u.index, 1, u.id, v, s.node, u.seq⟩)) ∧
      keepsBut [.upd, .net, .counts, .fault] s t) ∧
  (∀ (s : State) (u : UpdHome), s.running = true → s.upd.find? (fun x => x.tenant == u.tenant && x.seq == u.seq) = some u → u.sent = false → u.op = 1 →
    (s.sec.tenants.any fun r => r.tenant == u.tenant && r.down) = false →
    ∃ t, exec (.updateVectorRead u.tenant u.seq true) s = .next t ∧ t.upd = s.upd.filter (fun y => !(y.tenant == u.tenant && y.seq == u.seq)) ∧
      t.cnt 0xE07002 = s.cnt 0xE07002 + 1 ∧ t.cnt 0xE0F00C = s.cnt 0xE0F00C + 1 ∧ keepsBut [.upd, .rings, .counts, .mem, .poison] s t) ∧
  (∀ (s : State) (u : UpdReq) (x : Idx), s.running = true → s.bindingDiffers u.tenant s.node = false → s.findIdx u.tenant u.index = some x →
    s.isSequencer u.tenant u.index = true → x.seqr.resume = none → u.op ≠ 1 →
    ∃ t y, exec (.sequencerUpdate u) s = .next t ∧ t = { s.appendRecord x u [] [] with pending := s.pending } ∧ t.cnt 0xE07004 = s.cnt 0xE07004 + 1 ∧
      t.findIdx u.tenant u.index = some y ∧ y.seqr.next = x.seqr.next + 1 ∧ t.rings = s.rings) ∧
  (∀ (s : State) (u : UpdReq) (x : Idx) (l : ThatchPars), s.running = true → s.bindingDiffers u.tenant s.node = false → s.findIdx u.tenant u.index = some x →
    s.isSequencer u.tenant u.index = true → x.seqr.resume = none → u.op = 1 → liveParsOf x = some l →
    (∀ p ∈ l :: x.seqr.succ.toList, ∃ d, (encodePart x.desc p u.vec).1 = some d ∧
      ∀ sh ∈ partShards p d, sentItems x.seqr p.version sh < x.desc.deltaLimit * capacity x.desc.m x.desc.shape) →
    ∃ t y, exec (.sequencerUpdate u) s = .next t ∧ t.cnt 0xE07004 = s.cnt 0xE07004 + 1 ∧ t.findIdx u.tenant u.index = some y ∧ y.seqr.next = x.seqr.next + 1 ∧
      t.cnt 0xE04010 = s.cnt 0xE04010 + 1 + x.seqr.succ.toList.length ∧ t.rings = s.rings) ∧
  (∀ (s : State) (u : UpdReq) (x : Idx) (l : ThatchPars), s.running = true → s.bindingDiffers u.tenant s.node = false → s.findIdx u.tenant u.index = some x →
    s.isSequencer u.tenant u.index = true → x.seqr.resume = none → u.op = 1 → liveParsOf x = some l → (encodePart x.desc l u.vec).1 = none → u.home ≠ s.node →
    ∃ t y, exec (.sequencerUpdate u) s = .next t ∧ t.cnt 0xE04011 = s.cnt 0xE04011 + 1 ∧ t.cnt 0xE07003 = s.cnt 0xE07003 + 1 ∧
      t.findIdx u.tenant u.index = some y ∧ y.seqr.next = x.seqr.next ∧ (u.home, u.ringSeq, 0x0106) ∈ y.seqr.refused) ∧
  (∀ (s : State) (src : Nat) (r : DeltaRec) (x : Idx) (e : MapEntry), s.running = true → s.bindingDiffers r.tenant s.node = false →
    s.findIdx r.tenant r.index = some x → isCopy x = false →
    (heldRecords x).any (fun y => y.seq == r.seq) = false → idxService s.map.entries r.tenant r.index = some e →
    s.node ∈ logHolders s.map.entries r.tenant r.index →
    ∃ t y, exec (.deltaRecord src r) s = .next t ∧ t.findIdx r.tenant r.index = some y ∧ y.log = x.log ++ [r] ∧
      t.hasSent e.a 0x21 (.deltaAck r.tenant r.index (contiguous (heldRecords y))) ∧ keepsBut [.idx, .net, .counts] s t) ∧
  (∀ (s : State) (src : Nat) (r : DeltaRec) (x : Idx), s.running = true → s.bindingDiffers r.tenant s.node = false →
    s.findIdx r.tenant r.index = some x → isCopy x = true → x.pendSeals = [] → (heldRecords x).any (fun y => y.seq == r.seq) = false →
    ∃ t y, exec (.deltaRecord src r) s = .next t ∧ t.findIdx r.tenant r.index = some y ∧ y.pendRecs = x.pendRecs ++ [r] ∧ y.applied = x.applied ∧
      keepsBut [.idx, .net, .counts] s t) ∧
  (∀ (s : State) (src q : Nat) (x : Idx), s.running = true → s.findIdx x.desc.tenant x.desc.index = some x →
    src ∈ logHolders s.map.entries x.desc.tenant x.desc.index → s.isSequencer x.desc.tenant x.desc.index = true →
    ∃ t y, exec (.deltaCommit src x.desc.tenant x.desc.index q) s = .next t ∧ t.findIdx x.desc.tenant x.desc.index = some y ∧
      lk y.seqr.acks src = some (max ((lk x.seqr.acks src).getD 0) (min q (x.seqr.next - 1))) ∧ x.seqr.committed ≤ y.seqr.committed ∧
      keepsBut [.idx, .counts] s t))

/-- R209, R210, R211: a log holder keeps the seal record; a copy that holds every record of it installs it: the view of its tick is there, and 0xE070:07 counts; the home
of a covered update completes its entry. A log fetch is answered with the records and seal records asked for, and the records fetched wait to be installed. Shown to
complete here: sealRecord, logFetchDone, logFetchRequest. -/
def Obligations.SealsAndLogsArrive : Prop :=
  (∀ (s : State) (r : SealRec) (cs rf : List (Nat × Nat)) (w : Nat) (x : Idx), s.running = true → s.bindingDiffers r.tenant s.node = false →
    s.findIdx r.tenant r.index = some x → isCopy x = false →
    x.build = none → s.reg (pagedKey 0x4048 x.slot) % 4 ≠ 0 → (x.seals.any fun y => y.tick == r.tick) = false →
    (x.pendSeals.any fun y => y.tick == r.tick) = false →
    ∃ t y, exec (.sealRecord r cs rf w) s = .next t ∧ t.findIdx r.tenant r.index = some y ∧ y.seals = x.seals ++ [r] ∧
      t.cnt 0xE07009 = s.cnt 0xE07009 + w ∧ keepsBut [.idx, .net, .counts, .upd, .fault, .rings, .mem, .poison] s t) ∧
  (∀ (s : State) (r : SealRec) (w : Nat) (x : Idx), s.running = true → s.bindingDiffers r.tenant s.node = false → s.findIdx r.tenant r.index = some x →
    isCopy x = true → x.pendSeals = [] → (x.seals.any fun y => y.tick == r.tick) = false →
    (recordsIn (heldRecords x) (x.applied + 1) r.sealed).length = r.sealed - x.applied → x.applied ≤ r.sealed →
    recordsDigest x.desc.shape (recordsIn (heldRecords x) r.first r.sealed) = r.digest →
    ∃ t y, exec (.sealRecord r [] [] w) s = .next t ∧ t.findIdx r.tenant r.index = some y ∧ y.applied = r.sealed ∧ lk y.views r.tick = some r.sealed ∧
      y.pendSeals = [] ∧ t.cnt 0xE07007 = s.cnt 0xE07007 + 1 ∧ t.rings = s.rings) ∧
  (∀ (s : State) (r : SealRec) (q d : Nat) (u : UpdHome), s.running = true → s.bindingDiffers r.tenant s.node = false → s.findIdx r.tenant r.index = none →
    s.upd.find? (fun y => y.tenant == r.tenant && y.index == r.index && y.seq == q) = some u →
    (s.sec.tenants.any fun y => y.tenant == r.tenant && y.down) = false →
    ∃ t, exec (.sealRecord r [(q, d)] [] 0) s = .next t ∧ t.upd = s.upd.filter (fun y => !(y.tenant == r.tenant && y.seq == q)) ∧
      t.cnt 0xE0F00C = s.cnt 0xE0F00C + 1 ∧ keepsBut [.net, .counts, .upd, .fault, .rings, .mem, .poison] s t) ∧
  (∀ (s : State) (src a b : Nat) (x : Idx), s.running = true → s.bindingDiffers x.desc.tenant s.node = false →
    s.findIdx x.desc.tenant x.desc.index = some x → s.counts x.desc.tenant src = true →
    ∃ t, exec (.logFetchRequest src x.desc.tenant x.desc.index a b) s = .next t ∧
      t.hasSent src 0x21 (.logRecords x.desc.tenant x.desc.index (recordsIn (heldRecords x) a b) (x.seals.filter fun r => a ≤ r.sealed && r.first ≤ b + 1)) ∧
      keepsBut [.net, .counts] s t) ∧
  (∀ (s : State) (x : Idx) (rs : List DeltaRec) (ss : List SealRec), s.running = true → s.bindingDiffers x.desc.tenant s.node = false →
    s.findIdx x.desc.tenant x.desc.index = some x → isCopy x = false → x.seqr.resume = none → s.fault.respares = [] →
    ∃ t y, exec (.logFetchDone x.desc.tenant x.desc.index rs ss) s = .next t ∧ t.findIdx x.desc.tenant x.desc.index = some y ∧ y.fetch = false ∧
      (∀ r ∈ rs, x.applied < r.seq → r ∈ y.pendRecs) ∧ keepsBut [.idx] s t)

/-- R217, R218: the sequencer takes a build with its fold sequence, and a shard copy keeps the build that it is sent and starts it once the fold sequence is installed; an
image that is built goes to the other copy and the flash holder. R202, R219: an image of the right form and digest is staged where there are pages for it; the first one
that fails is counted and asked for again, and a second one fails the build (R223); an image asked for again is sent again, from a copy or from flash. Shown to complete
here: buildReceive, imageBuildDone, imageReceive, imageResendRequest. -/
def Obligations.BuildsAndImages : Prop :=
  (∀ (s : State) (b : BuildReq) (x : Idx), s.running = true → s.bindingDiffers b.tenant s.node = false → s.findIdx b.tenant b.index = some x →
    s.isSequencer b.tenant b.index = false → x.build = none →
    ∃ t y c, exec (.buildReceive b) s = .next t ∧ t.findIdx b.tenant b.index = some y ∧ y.build = some c ∧ c.req = b ∧ c.fold = b.fold ∧
      c.started = decide (b.fold ≤ x.applied) ∧ keepsBut [.idx, .regs, .ctl] s t) ∧
  (∀ (s : State) (b : BuildReq) (x : Idx), s.running = true → s.bindingDiffers b.tenant s.node = false → s.findIdx b.tenant b.index = some x →
    s.isSequencer b.tenant b.index = true → x.build = none →
    ∃ t y c, exec (.buildReceive b) s = .next t ∧ t.findIdx b.tenant b.index = some y ∧ y.build = some c ∧ c.req = { b with fold := x.seqr.next - 1 } ∧
      c.fold = x.seqr.next - 1 ∧ t.reg (pagedKey 0x4043 x.slot) = 1 ∧ keepsBut [.idx, .regs, .ctl, .net, .counts] s t) ∧
  (∀ (s u : State) (x : Idx) (b : Build) (sh : Nat) (as : List (Nat × Nat)) (ex : List (Nat × List Byte × Nat)) (inp : List (Nat × StreamIn))
    (os : List (Nat × Nat)) (im : Image) (e : MapEntry),
    s.running = true → s.findIdx x.desc.tenant x.desc.index = some x → x.build = some b → b.started = true →
    sh ∈ s.copy0 x.desc.tenant x.desc.index → (b.sent.any fun y => y.1 == sh) = false → (s.ctl.lendWait.any fun w => w.1 == x.slot) = false →
    (x.thatches.filter (·.st == 1)).all (fun h => s.vectorsWritten h b.fold as) = true →
    (s.zeroLent x.slot x.desc.tenant).buildImage x b sh ((minOf ((s.ctl.lent.filter fun l => l.1 == x.slot).map (·.2.1))).getD 0) as ex inp os = (u, some im) →
    idxShard s.map.entries x.desc.tenant x.desc.index sh = some e → e.b ≠ 0xFFFF → e.b ≠ s.node → s.counts x.desc.tenant e.b = true →
    ∃ t, exec (.imageBuildDone x.desc.tenant x.desc.index sh as ⟨ex, inp⟩ os) s = .next t ∧ t.hasSent e.b 0x22 (.image im) ∧
      t.cnt 0xE04010 = u.cnt 0xE04010 ∧ t.cnt 0xE04011 = u.cnt 0xE04011 ∧ im.version = nextVersion (s.liveVersion x) ∧ im.shard = sh ∧
      im.digest = Config.sha256 (imageBody im)) ∧
  (∀ (s : State) (src : Nat) (im : Image) (x : Idx) (e : MapEntry), s.running = true → s.bindingDiffers im.tenant s.node = false →
    s.findIdx im.tenant im.index = some x → s.fault.respares = [] →
    s.liveVersion x ≠ 0 → im.version = nextVersion (s.liveVersion x) → imageOk x (s.liveVersion x) im = true → im.digest = Config.sha256 (imageBody im) →
    (x.thatches.any fun h => h.im.shard == im.shard && h.im.version == im.version) = false → s.windowIn 6 = false →
    idxShard s.map.entries im.tenant im.index im.shard = some e → (e.a = s.node ∨ e.b = s.node) →
    s.canTake im.tenant false (cdiv (imageLen im + tombLen im + deltaLen im x.desc.deltaLimit + vecsLen im x.desc.deltaLimit) pageSize) = true →
    ∃ t y h, exec (.imageReceive src im) s = .next t ∧ t = { s.stageImage x im with pending := s.pending } ∧ t.findIdx im.tenant im.index = some y ∧
      thatchOf y im.shard im.version = some h ∧ h.im = im ∧ h.st = 0 ∧ t.reg (pagedKey 0x4043 x.slot) = 2 ∧ t.rings = s.rings) ∧
  (∀ (s : State) (src : Nat) (im : Image) (x : Idx), s.running = true → s.bindingDiffers im.tenant s.node = false → s.findIdx im.tenant im.index = some x →
    s.fault.respares = [] →
    s.liveVersion x ≠ 0 → im.digest ≠ Config.sha256 (imageBody im) → (x.imgFails.any fun y => y.1 == im.shard) = false →
    ∃ t y, exec (.imageReceive src im) s = .next t ∧ t.findIdx im.tenant im.index = some y ∧ y.imgFails = x.imgFails ++ [(im.shard, 1)] ∧
      t.cnt 0xE0700A = s.cnt 0xE0700A + 1 ∧ t.hasSent src 0x22 (.askImage im.tenant im.index im.shard) ∧ keepsBut [.idx, .net, .counts] s t) ∧
  (∀ (s : State) (src : Nat) (im : Image) (x : Idx), s.running = true → s.bindingDiffers im.tenant s.node = false → s.findIdx im.tenant im.index = some x →
    s.fault.respares = [] →
    s.liveVersion x ≠ 0 → im.digest ≠ Config.sha256 (imageBody im) → (x.imgFails.any fun y => y.1 == im.shard) = true →
    ∃ t y, exec (.imageReceive src im) s = .next t ∧ t.findIdx im.tenant im.index = some y ∧ y.build = none ∧ y.publish = none ∧
      t.cnt 0xE0700A = s.cnt 0xE0700A + 1 ∧ t.cnt 0xE07010 = s.cnt 0xE07010 + 1) ∧
  (∀ (s : State) (src sh : Nat) (x : Idx) (h : Thatch), s.running = true → s.findIdx x.desc.tenant x.desc.index = some x →
    (x.thatches.filter fun h => h.im.shard == sh).getLast? = some h → s.counts x.desc.tenant src = true →
    ∃ t, exec (.imageResendRequest src x.desc.tenant x.desc.index sh) s = .next t ∧ t.hasSent src 0x22 (.image h.im) ∧ keepsBut [.net, .counts] s t) ∧
  (∀ (s : State) (src sh : Nat) (x : Idx) (im : Image), s.running = true → s.findIdx x.desc.tenant x.desc.index = some x →
    (x.thatches.filter fun h => h.im.shard == sh) = [] → (x.held.filter fun y => y.shard == sh).getLast? = some im → s.counts x.desc.tenant src = true →
    ∃ t, exec (.imageResendRequest src x.desc.tenant x.desc.index sh) s = .next t ∧ t.hasSent src 0x22 (.image im) ∧ keepsBut [.net, .counts, .sched, .regs] s t)

/-- R219, R220, R225: once every image is staged, the sequencer chooses the publish tick, at least 0x4040:06 ticks ahead, and the next version, and keeps the reports
before; a copy keeps a publish decision whose tick is still to come and takes a late one as stale (R25); a failed build is given up and counted in 0xE070:10 (R223); the
sequencer keeps the acknowledgements, and fails the build when one is missing 0x4040:07 ticks before. Shown to complete here: allStaged, publishDecision,
publishAckTimeout, publishAck. -/
def Obligations.PublishesAreDecided : Prop :=
  (∀ (s : State) (x : Idx) (b : Build) (rs : List (Nat × Nat)), s.running = true → s.findIdx x.desc.tenant x.desc.index = some x → x.build = some b →
    s.isSequencer x.desc.tenant x.desc.index = true → b.p = none →
    s.isStaged x { b with staged := b.staged ++ rs.filter fun r => !b.staged.contains r } = true → s.ftick < max b.req.publish (s.ftick + s.reg 0x404006) →
    ∃ t y, exec (.allStaged x.desc.tenant ⟨x.desc.index, rs⟩) s = .next t ∧ t.findIdx x.desc.tenant x.desc.index = some y ∧
      y.publish = some (max b.req.publish (s.ftick + s.reg 0x404006), nextVersion (s.liveVersion x)) ∧ t.reg (pagedKey 0x4043 x.slot) = 3 ∧
      t.reg (pagedKey 0x4049 x.slot) = max b.req.publish (s.ftick + s.reg 0x404006) ∧ keepsBut [.idx, .regs, .net, .counts] s t) ∧
  (∀ (s : State) (x : Idx) (b : Build) (rs : List (Nat × Nat)), s.running = true → s.findIdx x.desc.tenant x.desc.index = some x → x.build = some b →
    s.isSequencer x.desc.tenant x.desc.index = true → b.p = none →
    s.isStaged x { b with staged := b.staged ++ rs.filter fun r => !b.staged.contains r } = false →
    ∃ t y c, exec (.allStaged x.desc.tenant ⟨x.desc.index, rs⟩) s = .next t ∧ t.findIdx x.desc.tenant x.desc.index = some y ∧ y.build = some c ∧
      (∀ r ∈ rs, r ∈ c.staged) ∧ c.p = none ∧ keepsBut [.idx] s t) ∧
  (∀ (s : State) (src p v : Nat) (x : Idx), s.running = true → s.findIdx x.desc.tenant x.desc.index = some x → s.ftick < p →
    ∃ t y, exec (.publishDecision src x.desc.tenant x.desc.index p ⟨v, 0⟩) s = .next t ∧ t.findIdx x.desc.tenant x.desc.index = some y ∧
      y.publish = some (p, v) ∧ t.reg (pagedKey 0x4043 x.slot) = 3 ∧ t.reg (pagedKey 0x4049 x.slot) = p ∧ keepsBut [.idx, .regs, .net, .counts] s t) ∧
  (∀ (s : State) (src p v : Nat) (x : Idx), s.running = true → s.findIdx x.desc.tenant x.desc.index = some x → p ≤ s.ftick →
    ∃ t, exec (.publishDecision src x.desc.tenant x.desc.index p ⟨v, 0⟩) s = .next t ∧ t.cnt 0xE0100B = s.cnt 0xE0100B + 1 ∧ t.reg 0x200104 = 4 ∧
      keepsBut [.regs, .counts, .time, .net, .fault, .mgmtOut] s t) ∧
  (∀ (s : State) (src p v st : Nat) (x : Idx), s.running = true → s.findIdx x.desc.tenant x.desc.index = some x → st ≠ 0 → st ≠ 0x0202 → s.building x = true →
    ∃ t y, exec (.publishDecision src x.desc.tenant x.desc.index p ⟨v, st⟩) s = .next t ∧ t.findIdx x.desc.tenant x.desc.index = some y ∧ y.build = none ∧
      y.publish = none ∧ t.reg (pagedKey 0x4043 x.slot) = 4 ∧ t.cnt 0xE07010 = s.cnt 0xE07010 + 1) ∧
  (∀ (s : State) (src sh n : Nat) (x : Idx) (b : Build), s.running = true → s.findIdx x.desc.tenant x.desc.index = some x → x.build = some b →
    ∃ t y c, exec (.publishAck src x.desc.tenant x.desc.index sh n) s = .next t ∧ t.findIdx x.desc.tenant x.desc.index = some y ∧ y.build = some c ∧
      src ∈ c.acks ∧ (sh ≠ 0xFFFF → lk y.shingleReports sh = some n) ∧ keepsBut [.idx] s t) ∧
  (∀ (s : State) (x : Idx) (b : Build) (p : Nat), s.running = true → s.findIdx x.desc.tenant x.desc.index = some x → x.build = some b → b.p = some p →
    s.isSequencer x.desc.tenant x.desc.index = true → p ≤ s.ftick + s.reg 0x404007 → s.ftick < p →
    (s.publishNodes x b.req.home).all (fun n => b.acks.contains n) = false →
    ∃ t y, exec (.publishAckTimeout x.desc.tenant x.desc.index) s = .next t ∧ t.findIdx x.desc.tenant x.desc.index = some y ∧ y.build = none ∧
      y.publish = none ∧ t.cnt 0xE07010 = s.cnt 0xE07010 + 1 ∧
      keepsBut [.idx, .regs, .ctl, .net, .counts, .builds, .rings, .mem, .poison, .tier, .fault, .flash] s t)

/-! ### Dense stacks -/

/-- R237, R242: once every item of the step in hand has ended and every check of its sampled items is settled, a job's next step is dealt: a conversion before each tile
step, and an element step at once; a tile step whose board-tier layer is not staged waits for it and counts as a stall; after the last step, or with a status, the output
is written and the job is done (R245). R241: a layer that has been staged is staged for its job, its bytes are counted, and a tile step that waited for it is dealt, late
by what the command says. R232, R233, R240: a conversion, an element or a tile item that ends leaves its job's list of items of the step; the first is kept as the job's
converted input; an input that cannot be read gives the job status 0x0307. R55: a tile item loads the bias of a board-tier layer first, and its context waits. R106, R107,
R109: every block must pair before it is applied; one that does not, or a failed check at the end, counts as a mismatch and the context waits for the refetch. R107, R108:
the refetch of a mismatched block ends: one that pairs readies the context, with the block applied; another one is refetched again below the limit of 0x3040:04; at the
limit the item runs once more, and the second time it contributes nothing and the job's integrity flag is set. Shown to complete here: mismatchRefetchDone, stepDeal,
conversionItem, tileItem, elementItem, layerStaged. -/
def Obligations.DenseItemsRun : Prop :=
  ((∀ (s : State) (j : DJob) (y : Layer) (bad : Bool), s.running = true → s.djob j.slot = some j → j.done = false → j.due = false → j.left = [] →
    s.checksDone j.slot = true → j.started = false → j.status = 0 → j.first ≤ j.last → s.layerOfJob j j.first = some y →
    ∃ t, exec (.stepDeal j.slot bad) s = .next t ∧ t = { (s.dropJobChecks j.slot).dealStep j y j.first (y.op == 1) with pending := s.pending } ∧
      t.mem = s.mem ∧ t.regs = s.regs) ∧
  (∀ (s : State) (j : DJob) (y : Layer) (bad : Bool), s.running = true → s.djob j.slot = some j → j.done = false → j.due = false → j.left = [] →
    s.checksDone j.slot = true → j.started = true → j.conv1 = true → j.status = 0 → j.layer ≤ j.last → s.layerOfJob j j.layer = some y →
    (y.op ≠ 1 ∨ y.tier ≠ 1 ∨ j.layer ∈ j.staged) →
    ∃ t, exec (.stepDeal j.slot bad) s = .next t ∧ t = { (s.dropJobChecks j.slot).dealStep j y j.layer false with pending := s.pending } ∧
      t.mem = s.mem ∧ t.regs = s.regs) ∧
  (∀ (s : State) (j : DJob) (y : Layer) (bad : Bool), s.running = true → s.djob j.slot = some j → j.done = false → j.due = false → j.left = [] →
    s.checksDone j.slot = true → j.started = true → j.conv1 = true → j.status = 0 → j.layer ≤ j.last → s.layerOfJob j j.layer = some y → y.op = 1 → y.tier = 1 →
    j.layer ∉ j.staged →
    ∃ t, exec (.stepDeal j.slot bad) s = .next t ∧ t.djob j.slot = some { j with due := true } ∧ t.cnt 0xE08007 = s.cnt 0xE08007 + 1 ∧
      t.cnt 0xE0A006 = s.cnt 0xE0A006 + 1 ∧ keepsBut [.dense, .ctl, .counts] s t ∧ countsBut [0xE08007, 0xE0A006] s t) ∧
  (∀ (s : State) (j : DJob) (y : Layer) (bad : Bool), s.running = true → s.djob j.slot = some j → j.done = false → j.due = false → j.left = [] →
    s.checksDone j.slot = true → j.started = true → j.conv1 = false → j.status = 0 → j.layer < j.last → s.layerOfJob j (j.layer + 1) = some y →
    ∃ t k, exec (.stepDeal j.slot bad) s = .next t ∧ ((s.dropJobChecks j.slot).unstage j.slot).djob j.slot = some k ∧ k.staged = j.staged ∧ k.bufs = j.bufs ∧
      t = { ((s.dropJobChecks j.slot).unstage j.slot).dealStep k y (j.layer + 1) (y.op == 1) with pending := s.pending }) ∧
  (∀ (s : State) (j : DJob) (bad : Bool), s.running = true → s.djob j.slot = some j → j.done = false → j.due = false → j.left = [] →
    s.checksDone j.slot = true → (s.modelOf j).isSome = true → (j.status ≠ 0 ∨ (j.started = true ∧ j.conv1 = false ∧ j.last ≤ j.layer)) →
    ∃ t k, exec (.stepDeal j.slot bad) s = .next t ∧ (((s.dropJobChecks j.slot).unstage j.slot).endStaging j.slot).djob j.slot = some k ∧ k.bufs = j.bufs ∧
      t = { (((s.dropJobChecks j.slot).unstage j.slot).endStaging j.slot).jobOutput k bad with pending := s.pending } ∧
      (∀ x, t.djob j.slot = some x → x.done = true)) ∧
  (∀ (s : State) (j : DJob) (y : Layer) (l late : Nat) (pages : List Nat), s.running = true → s.djob j.slot = some j → s.layerOfJob j l = some y →
    lk j.area l = some pages → j.done = false → l ∉ j.staged → (j.area.any fun x => x.1 < l && !j.staged.contains x.1) = false →
    s.readOk (.stage j.slot l) = true → (j.due = false ∨ j.layer ≠ l) →
    ∃ t, exec (.layerStaged j.slot l late) s = .next t ∧ t.djob j.slot = some { j with staged := j.staged ++ [l] } ∧
      t.cnt 0xE08011 = s.cnt 0xE08011 + s.weightBytes j.tenant y ∧ keepsBut [.dense, .counts, .mem, .poison, .sched, .regs] s t) ∧
  (∀ (s : State) (j : DJob) (y : Layer) (late : Nat) (pages : List Nat), s.running = true → s.djob j.slot = some j → s.layerOfJob j j.layer = some y →
    lk j.area j.layer = some pages → j.done = false → j.layer ∉ j.staged → (j.area.any fun x => x.1 < j.layer && !j.staged.contains x.1) = false →
    s.readOk (.stage j.slot j.layer) = true → j.due = true →
    ∃ t k, exec (.layerStaged j.slot j.layer late) s = .next t ∧ t.djob j.slot = some k ∧ k.due = false ∧ k.staged = j.staged ++ [j.layer] ∧
      k.boardStall = j.boardStall + late ∧ k.left = stepItems j y j.layer false ∧ t.cnt 0xE08008 = s.cnt 0xE08008 + late ∧
      t.cnt 0xE0A007 = s.cnt 0xE0A007 + late ∧ t.cnt 0xE08011 = s.cnt 0xE08011 + s.weightBytes j.tenant y)) ∧
  ((∀ (s : State) (sp c : Nat) (ev : ItemEv) (it : Item) (j : DJob) (y : Layer), s.running = true → s.runningDense sp c = some (it, j, y) → it.check = false →
    y.op = 1 → 2 ^ 19 ≤ it.shingle % 2 ^ 20 → ev.bad = false → (y.inBuf = 0 → s.inputBad j 0 (it.shingle % 2 ^ 19) y.l = false) →
    ∃ t k, exec (.conversionItem sp c ⟨false, ev⟩) s = .next t ∧ t.djob it.mask = some k ∧ k.left = j.left.filter (· != it.shingle) ∧
      (lk k.conv (it.shingle % 2 ^ 19)).isSome = true ∧ k.status = j.status ∧ t.cnt 0xE08005 = s.cnt 0xE08005 + 1 ∧
      (lk j.area j.layer = none → keepsBut [.spin, .ctl, .dense, .counts, .fault] s t)) ∧
  (∀ (s : State) (sp c : Nat) (bad : Bool) (ev : ItemEv) (it : Item) (j : DJob) (y : Layer), s.running = true → s.runningDense sp c = some (it, j, y) →
    it.check = false → y.op = 1 → 2 ^ 19 ≤ it.shingle % 2 ^ 20 → ev.bad = false → y.inBuf = 0 → (bad || s.inputBad j 0 (it.shingle % 2 ^ 19) y.l) = true →
    ∃ t k, exec (.conversionItem sp c ⟨bad, ev⟩) s = .next t ∧ t.djob it.mask = some k ∧ k.left = j.left.filter (· != it.shingle) ∧ k.status = 0x0307 ∧
      k.conv = j.conv ∧ t.cnt 0xE08005 = s.cnt 0xE08005 + 1 ∧ (lk j.area j.layer = none → keepsBut [.spin, .ctl, .dense, .counts, .fault] s t)) ∧
  (∀ (s : State) (sp c : Nat) (ev : ItemEv) (cs : List Compaction) (it : Item) (j : DJob) (y : Layer), s.running = true →
    s.runningDense sp c = some (it, j, y) → it.check = false → y.op ≠ 1 → ev.bad = false →
    ((layerReads y).any fun b => s.inputBad j b (it.shingle % 2 ^ 20) y.l) = false →
    ∃ t k, exec (.elementItem sp ⟨c, ev, cs⟩) s = .next t ∧ t.djob it.mask = some k ∧ k.left = j.left.filter (· != it.shingle) ∧ k.status = j.status ∧
      t.cnt 0xE08005 = s.cnt 0xE08005 + 1 ∧ t.cnt 0xE06011 = s.cnt 0xE06011 + cs.length ∧
      (lk j.area j.layer = none → keepsBut [.spin, .ctl, .dense, .counts, .fault] s t)) ∧
  (∀ (s : State) (sp c : Nat) (ev : ItemEv) (cs : List Compaction) (it : Item) (j : DJob) (y : Layer), s.running = true →
    s.runningDense sp c = some (it, j, y) → it.check = false → y.op ≠ 1 → ev.bad = false →
    ((layerReads y).any fun b => s.inputBad j b (it.shingle % 2 ^ 20) y.l) = true →
    ∃ t k, exec (.elementItem sp ⟨c, ev, cs⟩) s = .next t ∧ t.djob it.mask = some k ∧ k.left = j.left.filter (· != it.shingle) ∧ k.status = 0x0307 ∧
      k.bufs = j.bufs ∧ (lk j.area j.layer = none → keepsBut [.spin, .ctl, .dense, .counts, .fault] s t)) ∧
  (∀ (s : State) (sp c stall : Nat) (wrong : List (Nat × Block)) (endBad : Bool) (ev : ItemEv) (it : Item) (j : DJob) (y : Layer), s.running = true →
    s.runningDense sp c = some (it, j, y) → y.op = 1 → it.shingle % 2 ^ 20 < 2 ^ 19 → y.tier = 1 → y.param ≠ 0 →
    ((s.sp sp).ctxs.getD c {}).loaded = false →
    ∃ t, exec (.tileItem sp c wrong endBad ⟨stall, ev⟩) s = .next t ∧
      (∃ a ∈ t.tier.accesses, a.tier = 1 ∧ a.ctx = some (sp, c) ∧ a.addr = y.param + 512 * (it.shingle % 2 ^ 20)) ∧
      keepsBut [.tier, .spin, .ctl, .sched, .counts] s t) ∧
  (∀ (s : State) (sp c stall r n : Nat) (wrong : List (Nat × Block)) (ev : ItemEv) (it : Item) (j : DJob) (y : Layer), s.running = true →
    s.runningDense sp c = some (it, j, y) → it.check = false → y.op = 1 → it.shingle % 2 ^ 20 < 2 ^ 19 → r = 128 * (it.shingle % 2 ^ 20) →
    n = min 128 (y.n - r) → (y.param = 0 ∨ y.tier ≠ 1 ∨ ((s.sp sp).ctxs.getD c {}).loaded = true) → ev.bad = false →
    (blockScaled y.fmt = false ∨ ((s.tileBlocks sp c it j y r n wrong).zipIdx.all fun b => b.2 < s.tilePast sp c || paired y.fmt (tileTag y r b.2) b.1) = true) →
    ∃ t k, exec (.tileItem sp c wrong false ⟨stall, ev⟩) s = .next t ∧ t.djob it.mask = some k ∧ k.left = j.left.filter (· != it.shingle) ∧
      k.stackStall = j.stackStall + stall ∧ k.status = j.status ∧ t.cnt 0xE08004 = s.cnt 0xE08004 + 1 ∧
      t.cnt 0xE08006 = s.cnt 0xE08006 + n * y.l * j.b ∧ t.cnt 0xE0300C = s.cnt 0xE0300C ∧
      (lk j.area j.layer = none → keepsBut [.spin, .ctl, .dense, .counts, .fault] s t)) ∧
  (∀ (s : State) (sp c stall r n k : Nat) (wrong : List (Nat × Block)) (endBad : Bool) (ev : ItemEv) (it : Item) (j : DJob) (y : Layer) (b : Block),
    s.running = true → s.runningDense sp c = some (it, j, y) → y.op = 1 → it.shingle % 2 ^ 20 < 2 ^ 19 → r = 128 * (it.shingle % 2 ^ 20) →
    n = min 128 (y.n - r) → (y.param = 0 ∨ y.tier ≠ 1 ∨ ((s.sp sp).ctxs.getD c {}).loaded = true) → blockScaled y.fmt = true →
    (s.tileBlocks sp c it j y r n wrong)[k]? = some b → s.tilePast sp c ≤ k → paired y.fmt (tileTag y r k) b = false →
    (((s.tileBlocks sp c it j y r n wrong).take k).zipIdx.all fun b => b.2 < s.tilePast sp c || paired y.fmt (tileTag y r b.2) b.1) = true →
    ∃ t m, exec (.tileItem sp c wrong endBad ⟨stall, ev⟩) s = .next t ∧ t.mismatchOf sp c = some m ∧ m.block = k ∧ m.expected = tileTag y r k ∧ m.refetches = 0 ∧
      t.cnt 0xE0300C = s.cnt 0xE0300C + 1 ∧ t.dense = s.dense ∧ keepsBut [.spin, .ctl, .counts] s t) ∧
  (∀ (s : State) (sp c stall r n : Nat) (wrong : List (Nat × Block)) (ev : ItemEv) (it : Item) (j : DJob) (y : Layer),
    s.running = true → s.runningDense sp c = some (it, j, y) → y.op = 1 → it.shingle % 2 ^ 20 < 2 ^ 19 → r = 128 * (it.shingle % 2 ^ 20) →
    n = min 128 (y.n - r) → (y.param = 0 ∨ y.tier ≠ 1 ∨ ((s.sp sp).ctxs.getD c {}).loaded = true) → blockScaled y.fmt = true → r + n = y.n →
    s.tilePast sp c < (s.tileBlocks sp c it j y r n wrong).length →
    ((s.tileBlocks sp c it j y r n wrong).zipIdx.all fun b => b.2 < s.tilePast sp c || paired y.fmt (tileTag y r b.2) b.1) = true →
    ∃ t m, exec (.tileItem sp c wrong true ⟨stall, ev⟩) s = .next t ∧ t.mismatchOf sp c = some m ∧ m.block + 1 = (s.tileBlocks sp c it j y r n wrong).length ∧
      t.cnt 0xE0300F = s.cnt 0xE0300F + 1 ∧ t.cnt 0xE0300C = s.cnt 0xE0300C + 1 ∧ t.dense = s.dense ∧ keepsBut [.spin, .ctl, .counts] s t)) ∧
  ((∀ (s : State) (sp c cyc stall : Nat) (b : Block) (m : Mismatch) (x : Ctx) (it : Item), s.running = true →
    s.mismatchOf sp c = some m → (s.sp sp).ctxs.getD c {} = x → x.item = some it → x.st = 3 → paired m.fmt m.expected b = true →
    ∃ t u, exec (.mismatchRefetchDone sp c b ⟨cyc, stall⟩) s = .next t ∧ t = (u.stampUp).schedule sp ∧ u.cnt 0xE0300D = s.cnt 0xE0300D + 1 ∧
      u.cnt 0xE03010 = s.cnt 0xE03010 + cyc ∧ u.sp sp = { s.sp sp with ctxs := (s.sp sp).ctxs.set c { x with st := 1, since := s.ctl.stamp } } ∧
      u.mismatchOf sp c = some { m with applied := m.applied ++ [b] } ∧ keepsBut [.spin, .ctl, .counts] s u ∧ keepsBut [.spin, .ctl, .counts] s t) ∧
  (∀ (s : State) (sp c cyc stall : Nat) (b : Block) (m : Mismatch) (x : Ctx) (it : Item), s.running = true →
    s.mismatchOf sp c = some m → (s.sp sp).ctxs.getD c {} = x → x.item = some it → x.st = 3 → paired m.fmt m.expected b = false →
    m.refetches + 1 < s.reg 0x304004 →
    ∃ t, exec (.mismatchRefetchDone sp c b ⟨cyc, stall⟩) s = .next t ∧ t.mismatchOf sp c = some { m with refetches := m.refetches + 1 } ∧
      t.cnt 0xE0300D = s.cnt 0xE0300D + 1 ∧ t.cnt 0xE03010 = s.cnt 0xE03010 + cyc ∧ keepsBut [.ctl, .counts] s t ∧
      countsBut [0xE0300D, 0xE03010, 0xE02002, 0xE02003] s t) ∧
  (∀ (s : State) (sp c cyc stall : Nat) (b : Block) (m : Mismatch) (x : Ctx) (it : Item), s.running = true →
    s.mismatchOf sp c = some m → (s.sp sp).ctxs.getD c {} = x → x.item = some it → x.st = 3 → paired m.fmt m.expected b = false →
    s.reg 0x304004 ≤ m.refetches + 1 → it.errors = 0 →
    ∃ t u, exec (.mismatchRefetchDone sp c b ⟨cyc, stall⟩) s = .next t ∧ t = u.schedule sp ∧ u.cnt 0xE0300E = s.cnt 0xE0300E + 1 ∧
      (u.sp sp).queue = { it with errors := 1 } :: (s.sp sp).queue ∧ u.mismatchOf sp c = none ∧ keepsBut [.spin, .ctl, .counts] s u ∧
      keepsBut [.spin, .ctl, .counts] s t) ∧
  (∀ (s : State) (sp c cyc stall : Nat) (b : Block) (m : Mismatch) (x : Ctx) (it : Item) (j : DJob) (y : Layer), s.running = true →
    s.mismatchOf sp c = some m → (s.sp sp).ctxs.getD c {} = x → x.item = some it → x.st = 3 → paired m.fmt m.expected b = false →
    s.reg 0x304004 ≤ m.refetches + 1 → it.errors ≠ 0 → it.check = false → s.djob it.mask = some j → s.layerOfJob j (it.shingle / 2 ^ 20) = some y →
    ∃ t k, exec (.mismatchRefetchDone sp c b ⟨cyc, stall⟩) s = .next t ∧ t.djob it.mask = some k ∧ k.integrity = true ∧
      k.left = j.left.filter (· != it.shingle) ∧ t.cnt 0xE0300E = s.cnt 0xE0300E + 1))

/-! ### Embedding tables -/

/-- R254, R255: a shard that is staged with its mirror completes its ring entry and is known at the coordinator, here or told by a message. A switch decision whose tick
is to come is kept and acknowledged, version 0 withdraws it (entry 43), and one that comes late is stale (R25); the coordinator keeps the acknowledgements, and gives a
switch up when one is missing 4 ticks before. Shown to complete here: shardStageDone, switchDecision, switchAckTimeout, switchAck. -/
def Obligations.StagesAndSwitches : Prop :=
  (∀ (s : State) (g : TStage) (x : Tab), s.running = true → s.emb.stages.find? (fun y => y.tenant == g.tenant && y.table == g.table && y.shard == g.shard) = some g →
    g.encoded = true → g.mirrorOk = true → s.tabHeld g.tenant g.table = some x → s.coordOf g.tenant g.table = some s.node → g.shard < shardCount x →
    g.shard ∉ x.stagedShards → (s.sec.tenants.any fun r => r.tenant == g.tenant && r.down) = false →
    ∃ t y, exec (.shardStageDone g.tenant g.table g.shard) s = .next t ∧ t.tabHeld g.tenant g.table = some y ∧ y.stagedShards = x.stagedShards ++ [g.shard] ∧
      (∀ q ∈ t.emb.stages, ¬(q.tenant = g.tenant ∧ q.table = g.table ∧ q.shard = g.shard)) ∧ t.cnt 0xE0F00C = s.cnt 0xE0F00C + 1 ∧
      keepsBut [.emb, .rings, .counts, .mem, .poison] s t) ∧
  (∀ (s : State) (g : TStage) (c : Nat), s.running = true → s.emb.stages.find? (fun y => y.tenant == g.tenant && y.table == g.table && y.shard == g.shard) = some g →
    g.encoded = true → g.mirrorOk = true → s.coordOf g.tenant g.table = some c → c ≠ s.node →
    (s.sec.tenants.any fun r => r.tenant == g.tenant && r.down) = false →
    ∃ t, exec (.shardStageDone g.tenant g.table g.shard) s = .next t ∧ t.hasSent c 0x23 (.staged g.tenant g.table g.shard) ∧
      (∀ q ∈ t.emb.stages, ¬(q.tenant = g.tenant ∧ q.table = g.table ∧ q.shard = g.shard)) ∧ t.cnt 0xE0F00C = s.cnt 0xE0F00C + 1 ∧
      keepsBut [.emb, .net, .rings, .counts, .mem, .poison] s t) ∧
  (∀ (s : State) (t n sh : Nat) (x : Tab), s.running = true → (s.emb.stages.any fun y => y.tenant == t && y.table == n && y.shard == sh) = false →
    (tabShard s.map.entries t n sh).map (·.a) ≠ some s.node → s.tabHeld t n = some x → s.coordOf t n = some s.node → sh < shardCount x → sh ∉ x.stagedShards →
    ∃ u y, exec (.shardStageDone t n sh) s = .next u ∧ u.tabHeld t n = some y ∧ y.stagedShards = x.stagedShards ++ [sh] ∧ keepsBut [.emb] s u) ∧
  (∀ (s : State) (src t n p v : Nat), s.running = true → v ≠ 0 → s.ftick < p →
    ∃ u, exec (.switchDecision src t n p v) s = .next u ∧ (∃ w ∈ u.emb.switches, w.tenant = t ∧ w.table = n ∧ w.version = v ∧ w.p = p ∧ w.ring = none) ∧
      u.hasSent src 0x23 (.switchAck t n) ∧ keepsBut [.emb, .net, .counts] s u) ∧
  (∀ (s : State) (src t n p : Nat), s.running = true →
    ∃ u, exec (.switchDecision src t n p 0) s = .next u ∧ (∀ w ∈ u.emb.switches, ¬(w.tenant = t ∧ w.table = n ∧ w.ring = none)) ∧ keepsBut [.emb] s u) ∧
  (∀ (s : State) (src t n p v : Nat), s.running = true → v ≠ 0 → p ≤ s.ftick →
    ∃ u, exec (.switchDecision src t n p v) s = .next u ∧ u.cnt 0xE0100B = s.cnt 0xE0100B + 1 ∧ u.reg 0x200104 = 4 ∧
      keepsBut [.regs, .counts, .time, .net, .fault, .mgmtOut] s u) ∧
  (∀ (s : State) (src : Nat) (w : TSwitch), s.running = true → w ∈ s.emb.switches → w.ring ≠ none → src ∈ w.need → src ∉ w.acks →
    ∃ t, exec (.switchAck src w.tenant w.table) s = .next t ∧ { w with acks := w.acks ++ [src] } ∈ t.emb.switches ∧ keepsBut [.emb] s t) ∧
  (∀ (s : State) (w : TSwitch), s.running = true → s.emb.switches.find? (fun y => y.tenant == w.tenant && y.table == w.table && y.ring.isSome) = some w →
    w.p ≤ s.ftick + 4 → switchShort w = true → (s.sec.tenants.any fun r => r.tenant == w.tenant && r.down) = false →
    ∃ t, exec (.switchAckTimeout w.tenant w.table) s = .next t ∧ (∀ y ∈ t.emb.switches, ¬(y.tenant = w.tenant ∧ y.table = w.table)) ∧
      t.cnt 0xE0F00C = s.cnt 0xE0F00C + 1 ∧ keepsBut [.emb, .net, .rings, .counts, .mem, .poison] s t)

/-- R259: a row read that waited is issued when its die has room, and its wait is counted in 0xE090:05; a row whose lines arrive in order ends its read, from a local
source if there is one; an unreadable line leaves it unreadable. R107, R108: a mismatched block of a row is refetched, and one that no refetch mends in two runs leaves
the row unreadable. R262: an item whose rows are here is pooled and leaves the job. R266: a read of a row homed here is answered with the view of its skein. R276: one of
a row that moved is forwarded in the frame of the move, and bounced later. Shown to complete here: gatherItem, rowLineArrival, readSlotFree, rowRead. -/
def Obligations.RowsAreReadAndPooled : Prop :=
  (∀ (s : State) (d slot pos w : Nat) (j : GJob) (x : Tab), s.running = true → s.emb.waitReads.find? (fun r => r.1 == d) = some (d, slot, pos) →
    s.gjob slot = some j → s.tabJob j = some x → s.linesOut d + rowLines x ≤ s.reg 0x580001 → s.resetting 1 (2 + d) = false →
    ∃ t, exec (.readSlotFree d w) s = .next t ∧ (d, slot, pos) ∉ t.emb.waitReads ∧ (d, j.slot, pos, rowLines x) ∈ t.emb.outstanding ∧
      t.cnt 0xE09005 = s.cnt 0xE09005 + w ∧ keepsBut [.emb, .net, .counts] s t) ∧
  (∀ (s : State) (slot pos r : Nat) (img : RowImg) (expired endBad : Bool) (j : GJob) (x : Tab), s.running = true → s.gjob slot = some j →
    s.tabJob j = some x → j.scatter = false → (s.emb.outstanding.any fun o => o.2.1 == slot && o.2.2.1 == pos) = true →
    (∀ q ∈ s.emb.tries, ¬(q.1 = slot ∧ q.2.1 = pos)) →
    rowFault x (j.idxs.getD pos 0) ((s.localRow x j (j.idxs.getD pos 0)).2.getD (img, expired)).1 endBad = none →
    ∃ t k, exec (.rowLineArrival slot pos img false expired endBad r) s = .next t ∧ t.gjob slot = some k ∧
      lk k.rows pos = some (some ((s.localRow x j (j.idxs.getD pos 0)).2.getD (img, expired)).1) ∧ k.lines = j.lines + rowLines x ∧
      k.integrity = j.integrity ∧ (∀ o ∈ t.emb.outstanding, ¬(o.2.1 = slot ∧ o.2.2.1 = pos)) ∧ t.cnt 0xE09004 = s.cnt 0xE09004 + rowLines x ∧
      keepsBut [.emb, .counts] s t) ∧
  (∀ (s : State) (slot pos r : Nat) (img : RowImg) (expired endBad : Bool) (j : GJob) (x : Tab), s.running = true → s.gjob slot = some j →
    s.tabJob j = some x → j.scatter = false → (s.emb.outstanding.any fun o => o.2.1 == slot && o.2.2.1 == pos) = true →
    ∃ t k, exec (.rowLineArrival slot pos img true expired endBad r) s = .next t ∧ t.gjob slot = some k ∧ lk k.rows pos = some none ∧ k.integrity = true ∧
      (∀ o ∈ t.emb.outstanding, ¬(o.2.1 = slot ∧ o.2.2.1 = pos)) ∧ t.cnt 0xE09007 = s.cnt 0xE09007 + 1 ∧ keepsBut [.emb, .counts] s t) ∧
  (∀ (s : State) (slot pos r f : Nat) (img : RowImg) (expired endBad : Bool) (j : GJob) (x : Tab), s.running = true → s.gjob slot = some j →
    s.tabJob j = some x → j.scatter = false → (s.emb.outstanding.any fun o => o.2.1 == slot && o.2.2.1 == pos) = true →
    (∀ q ∈ s.emb.tries, ¬(q.1 = slot ∧ q.2.1 = pos)) → 0 < s.reg 0x304004 →
    rowFault x (j.idxs.getD pos 0) ((s.localRow x j (j.idxs.getD pos 0)).2.getD (img, expired)).1 endBad = some f →
    ∃ t k, exec (.rowLineArrival slot pos img false expired endBad r) s = .next t ∧ t.gjob slot = some k ∧ k.rows = j.rows ∧ (slot, pos, 1) ∈ t.emb.tries ∧
      t.emb.outstanding = s.emb.outstanding ∧ t.cnt 0xE0300C = s.cnt 0xE0300C + 1 ∧ keepsBut [.emb, .counts] s t) ∧
  (∀ (s : State) (slot pos r v : Nat) (img : RowImg) (expired endBad : Bool) (j : GJob) (x : Tab), s.running = true → s.gjob slot = some j →
    s.tabJob j = some x → j.scatter = false → (s.emb.outstanding.any fun o => o.2.1 == slot && o.2.2.1 == pos) = true →
    s.emb.tries.find? (fun q => q.1 == slot && q.2.1 == pos) = some (slot, pos, v) → v % 65536 ≠ 0 →
    rowFault x (j.idxs.getD pos 0) ((s.localRow x j (j.idxs.getD pos 0)).2.getD (img, expired)).1 endBad = none →
    ∃ t k, exec (.rowLineArrival slot pos img false expired endBad r) s = .next t ∧ t.gjob slot = some k ∧ (lk k.rows pos).isSome = true ∧
      k.integrity = j.integrity ∧ (∀ q ∈ t.emb.tries, ¬(q.1 = slot ∧ q.2.1 = pos)) ∧ t.cnt 0xE0300D = s.cnt 0xE0300D + 1 ∧
      t.cnt 0xE03010 = s.cnt 0xE03010 + r ∧ t.cnt 0xE0300C = s.cnt 0xE0300C ∧ keepsBut [.emb, .counts] s t) ∧
  (∀ (s : State) (slot pos r v f : Nat) (img : RowImg) (expired endBad : Bool) (j : GJob) (x : Tab), s.running = true → s.gjob slot = some j →
    s.tabJob j = some x → j.scatter = false → (s.emb.outstanding.any fun o => o.2.1 == slot && o.2.2.1 == pos) = true →
    s.emb.tries.find? (fun q => q.1 == slot && q.2.1 == pos) = some (slot, pos, v) → 65536 < v → s.reg 0x304004 ≤ v % 65536 → v % 65536 ≠ 0 →
    rowFault x (j.idxs.getD pos 0) ((s.localRow x j (j.idxs.getD pos 0)).2.getD (img, expired)).1 endBad = some f →
    ∃ t k, exec (.rowLineArrival slot pos img false expired endBad r) s = .next t ∧ t.gjob slot = some k ∧ lk k.rows pos = some none ∧ k.integrity = true ∧
      t.cnt 0xE0300E = s.cnt 0xE0300E + 1 ∧ (∀ o ∈ t.emb.outstanding, ¬(o.2.1 = slot ∧ o.2.2.1 = pos))) ∧
  (∀ (s : State) (slot bag sp c : Nat) (ev : ItemEv) (j : GJob) (x : Tab) (it : Item), s.running = true → s.gjob slot = some j → s.tabJob j = some x →
    s.runningGather slot bag = some (sp, c) → ((s.sp sp).ctxs.getD c {}).item = some it → bag ∈ j.items → ev.bad = false →
    (∀ p ∈ itemSpan j bag, j.reads x p = true → (lk j.rows p).isSome = true) →
    ∃ t, exec (.gatherItem slot ⟨bag, ev⟩) s = .next t ∧ t.cnt 0xE09006 = s.cnt 0xE09006 + (chunks j.g (itemSpan j bag)).length ∧
      t.cnt 0xE09008 = s.cnt 0xE09008 + ((itemSpan j bag).filter fun p => j.idxs.getD p 0 == paddingIdx).length ∧
      (∀ k, t.gjob slot = some k → bag ∉ k.items) ∧ t.idx = s.idx ∧ t.copy = s.copy ∧ t.dense = s.dense ∧ t.flash = s.flash) ∧
  (∀ (s : State) (src t n row k w mw tag seq : Nat) (bulk : Bool) (x : Tab) (img : RowImg) (e : Bool), s.running = true → s.tabAny t n = some x →
    s.inService t = true → s.bindingDiffers t s.node = false → row < x.rows → s.homesRow x (versionAt x k) row = true → s.migOf t n row = none →
    s.sealPending x (versionAt x k) row k = false → s.rowView x (versionAt x k) row k = some (img, e) → s.counts t src = true →
    ∃ u, exec (.rowRead src t n row k bulk w mw tag seq) s = .next u ∧ u.hasSent src 2 (.rowAnswer t n row (some img) e) ∧
      u.cnt 0xE0901E = s.cnt 0xE0901E + w ∧ keepsBut [.emb, .net, .counts] s u) ∧
  (∀ (s : State) (src t n row k h w mw tag seq : Nat) (bulk : Bool) (x : Tab) (g : Mig), s.running = true → s.tabAny t n = some x →
    s.inService t = true → s.bindingDiffers t s.node = false → row < x.rows → s.homesRow x (versionAt x k) row = false →
    s.homeOf x (versionAt x k) row = some h → s.migOf t n row = some g → g.m.a = s.node → g.m.tick = s.ftick →
    ∃ u, exec (.rowRead src t n row k bulk w mw tag seq) s = .next u ∧ u.hasSent h 1 (.rowRead src t n row k) ∧ u.cnt 0xE09103 = s.cnt 0xE09103 + 1 ∧
      keepsBut [.net, .counts] s u) ∧
  (∀ (s : State) (src t n row k h w mw tag seq : Nat) (bulk : Bool) (x : Tab), s.running = true → s.tabAny t n = some x →
    s.inService t = true → s.bindingDiffers t s.node = false → row < x.rows → s.homesRow x (versionAt x k) row = false →
    s.homeOf x (versionAt x k) row = some h → s.migOf t n row = none → (x.dirOver.any fun d => d.1 == versionAt x k && d.2.1 == row) = true →
    ∃ u, exec (.rowRead src t n row k bulk w mw tag seq) s = .next u ∧ (∃ b : Bounce, b.redirect = h ∧ b.reason = 3 ∧ u.hasSent src 7 (.bounce b)) ∧
      u.cnt 0xE09105 = s.cnt 0xE09105 + 1 ∧ u.cnt 0xE0C018 = s.cnt 0xE0C018 + 1 ∧ keepsBut [.net, .counts] s u) ∧
  (∀ (s : State) (src t n row k w mw tag seq : Nat) (bulk : Bool), s.running = true → s.tabAny t n = none → s.counts t src = true →
    ∃ u, exec (.rowRead src t n row k bulk w mw tag seq) s = .next u ∧ u.hasSent src 2 (.rowAnswer t n row none false) ∧ keepsBut [.net, .counts] s u)

/-- R268, R269: a scatter whose lists are readable sends its records and its summary, and one whose lists are not ends with a status; the home of a row keeps a
contribution, or forwards it in the frame of the row's move (R275); the coordinator keeps a summary; a step closes once every participant's summary and the records that
they count are held, or when its wait is over, then marked incomplete. R270, R271: the merge of a closed step is counted by its rows, and its records stay with it; it
waits while the overlay has no room; a mirror that acknowledges is no longer awaited; the coordinator keeps a ready message of a closed step; a seal closes the step for
its table and ends this Molset's scatter, one that comes late is installed at once, and a refused summary ends the scatter with its status. R266: an image that has been
visible long enough is written back over its row. Shown to complete here: scatterSend, contributionRecord, scatterSummary, stepClose, stepWaitTimeout, closeStepMerge,
mirrorAck, readyReceive, stepSeal, overlayWriteback. -/
def Obligations.StepsAreGatheredAndSealed : Prop :=
  ((∀ (s : State) (slot : Nat) (j : GJob) (x : Tab), s.running = true → s.gjob slot = some j → s.tabJob j = some x → j.scatter = true →
    j.sent = false → s.poisoned j.tenant j.listAddr (8 * j.n) = false → s.owned j.tenant j.listAddr (8 * j.n) = true →
    s.poisoned j.tenant j.dataAddr (j.n * (x.e * elemWidth j.fmt)) = false → s.owned j.tenant j.dataAddr (j.n * (x.e * elemWidth j.fmt)) = true →
    ∃ t, exec (.scatterSend slot false false) s = .next t ∧
      t.cnt 0xE0900F = s.cnt 0xE0900F + ((List.range j.n).filter fun i => s.loadNat j.tenant (j.listAddr + 8 * i) 8 < x.rows).length ∧
      (∀ c, s.coordOf j.tenant j.table = some c → c ≠ s.node → ∃ m : Summary, m.node = s.node ∧ m.step = j.step ∧ m.eta = j.eta ∧ m.c = j.parts ∧
        m.count = ((List.range j.n).filter fun i => s.loadNat j.tenant (j.listAddr + 8 * i) 8 < x.rows).length ∧ t.hasSent c 0x23 (.summary m)) ∧
      (∀ k, t.gjob slot = some k → k.sent = true) ∧ t.idx = s.idx ∧ t.flash = s.flash) ∧
  (∀ (s : State) (slot : Nat) (badGrad : Bool) (j : GJob) (x : Tab), s.running = true → s.gjob slot = some j → s.tabJob j = some x → j.scatter = true →
    j.sent = false →
    ∃ t, exec (.scatterSend slot true badGrad) s = .next t ∧ t.cnt 0xE0900F = s.cnt 0xE0900F ∧
      (∀ k, t.gjob slot = some k → k.sent = true ∧ k.done = true ∧ k.status = 0x0407) ∧ t.idx = s.idx ∧ t.flash = s.flash) ∧
  (∀ (s : State) (r : Contrib) (f : Bool) (q : Nat) (x : Tab), s.running = true → s.bindingDiffers r.tenant s.node = false → s.tabAny r.tenant r.table = some x →
    r.row < x.rows → (f = true ∨ (stepClosed x r.step = false ∧ (s.estep r.tenant r.table r.step).closed = false)) → s.homesRow x x.live r.row = true →
    ∃ t, exec (.contributionRecord r f q) s = .next t ∧
      (t.estep r.tenant r.table r.step).records = (s.estep r.tenant r.table r.step).records ++ [r] ∧
      (t.estep r.tenant r.table r.step).forwardedIn = (s.estep r.tenant r.table r.step).forwardedIn + b2n f ∧ keepsBut [.emb] s t) ∧
  (∀ (s : State) (r : Contrib) (q h : Nat) (x : Tab) (g : Mig), s.running = true → s.bindingDiffers r.tenant s.node = false → s.tabAny r.tenant r.table = some x →
    r.row < x.rows → stepClosed x r.step = false → (s.estep r.tenant r.table r.step).closed = false → s.homesRow x x.live r.row = false →
    s.homeOf x x.live r.row = some h → s.migOf r.tenant r.table r.row = some g → g.m.a = s.node → g.m.tick = s.ftick → s.counts r.tenant h = true →
    ∃ t, exec (.contributionRecord r false q) s = .next t ∧ t.hasSent h 0x23 (.contrib r true) ∧
      (t.estep r.tenant r.table r.step).forwarded = (s.estep r.tenant r.table r.step).forwarded + 1 ∧ t.cnt 0xE09102 = s.cnt 0xE09102 + 1 ∧
      keepsBut [.emb, .net, .counts] s t) ∧
  (∀ (s : State) (m : Summary) (x : Tab), s.running = true → s.bindingDiffers m.tenant s.node = false → s.tabAny m.tenant m.table = some x →
    s.coordOf m.tenant m.table = some s.node →
    (s.estep m.tenant m.table m.step).closed = false → stepClosed x m.step = false → (s.estep m.tenant m.table m.step).summaries = [] →
    ∃ t, exec (.scatterSummary m) s = .next t ∧ (t.estep m.tenant m.table m.step).summaries = [m] ∧
      (t.estep m.tenant m.table m.step).firstTick = some s.ftick ∧ keepsBut [.emb] s t) ∧
  (∀ (s : State) (m f : Summary) (x : Tab), s.running = true → s.bindingDiffers m.tenant s.node = false → s.tabAny m.tenant m.table = some x →
    s.coordOf m.tenant m.table = some s.node →
    (s.estep m.tenant m.table m.step).closed = false → stepClosed x m.step = false → (s.estep m.tenant m.table m.step).summaries.head? = some f →
    f.eta = m.eta → f.version = m.version → ((s.estep m.tenant m.table m.step).summaries.any fun q => q.node == m.node) = false →
    ∃ t, exec (.scatterSummary m) s = .next t ∧
      (t.estep m.tenant m.table m.step).summaries = (s.estep m.tenant m.table m.step).summaries ++ [m] ∧ keepsBut [.emb] s t) ∧
  (∀ (s : State) (t n step : Nat) (held : List (Nat × Nat)) (x : Tab), s.running = true → s.tabAny t n = some x → s.mayClose (s.estep t n step) = true →
    (s.estep t n step).summaries.length = ((s.estep t n step).summaries.head?.map (·.c)).getD 0 →
    heldCount (s.estep t n step) + (held.filter fun h => h.1 != s.node).foldl (fun a h => a + h.2) 0 =
      (s.estep t n step).summaries.foldl (fun a m => a + m.count) 0 →
    ∃ u, exec (.stepClose t n step held) s = .next u ∧ (u.estep t n step).closed = true ∧ (u.estep t n step).incomplete = false ∧
      (∀ h ∈ held, h.2 ≠ 0 → h.1 ≠ s.node → h.1 ∈ (u.estep t n step).readyNeed) ∧ u.cnt 0xE09015 = s.cnt 0xE09015 + 1 ∧ keepsBut [.emb, .net, .counts] s u) ∧
  (∀ (s : State) (t n step f : Nat) (held : List (Nat × Nat)) (x : Tab), s.running = true → s.tabAny t n = some x → s.mayClose (s.estep t n step) = true →
    (s.estep t n step).firstTick = some f → f + s.reg 0x58000C ≤ s.ftick →
    ∃ u, exec (.stepWaitTimeout t n step held) s = .next u ∧ (u.estep t n step).closed = true ∧ (u.estep t n step).incomplete = true ∧
      u.cnt 0xE09015 = s.cnt 0xE09015 + 1 ∧ u.cnt 0xE09016 = s.cnt 0xE09016 + 1 ∧ keepsBut [.emb, .net, .counts] s u)) ∧
  ((∀ (s : State) (t n step v w : Nat) (only : List Nat) (eta : F32) (inp : List (Nat × StreamIn)) (x : Tab) (k : EStep) (kept : List Contrib) (rows : List Nat),
    s.running = true → s.tabAny t n = some x → s.estep t n step = k → k.merged = false → (k.records ≠ [] ∨ k.forwarded ≠ 0) → s.mayMerge k = true →
    kept = (if only = [] then k.records else k.records.filter fun r => only.contains r.node) → rows = ((kept.drop k.folded).map (·.row)).eraseDups →
    (s.emb.overlays.filter fun o => !o.mirror).length + rows.length ≤ s.reg 0x58000B → (rows = [] ∨ (s.gatherSp t).isSome = true) →
    (rows.all fun r => (s.readRow x v r 0 inp).1.isSome) = true →
    ∃ u, exec (.closeStepMerge t n step only v eta ⟨w, inp⟩) s = .next u ∧ (u.estep t n step).merged = true ∧ (u.estep t n step).records = kept ∧
      u.cnt 0xE09017 = s.cnt 0xE09017 + rows.length ∧ u.cnt 0xE0901A = s.cnt 0xE0901A + w ∧ keepsBut [.emb, .net, .counts, .spin, .ctl] s u) ∧
  (∀ (s : State) (t n step v w : Nat) (only : List Nat) (eta : F32) (inp : List (Nat × StreamIn)) (x : Tab) (k : EStep) (kept : List Contrib) (rows : List Nat),
    s.running = true → s.tabAny t n = some x → s.estep t n step = k → k.merged = false → (k.records ≠ [] ∨ k.forwarded ≠ 0) →
    kept = (if only = [] then k.records else k.records.filter fun r => only.contains r.node) → rows = ((kept.drop k.folded).map (·.row)).eraseDups →
    s.reg 0x58000B < (s.emb.overlays.filter fun o => !o.mirror).length + rows.length →
    ∃ u, exec (.closeStepMerge t n step only v eta ⟨w, inp⟩) s = .next u ∧ (u.estep t n step).merged = false ∧ (u.estep t n step).records = k.records ∧
      u.emb.overlays = s.emb.overlays ∧ keepsBut [.emb] s u) ∧
  (∀ (s : State) (src t n step sh : Nat), s.running = true → step ≠ 0 → src ∈ (s.estep t n step).mirrors →
    ∃ u, exec (.mirrorAck src t n ⟨step, sh⟩) s = .next u ∧ src ∉ (u.estep t n step).mirrors ∧ keepsBut [.emb, .net, .counts] s u) ∧
  (∀ (s : State) (src : Nat) (g : TStage), s.running = true → g ∈ s.emb.stages → g.encoded = true → g.mirrorOk = false →
    (tabShard s.map.entries g.tenant g.table g.shard).map (·.b) = some src →
    ∃ u, exec (.mirrorAck src g.tenant g.table ⟨0, g.shard⟩) s = .next u ∧ { g with mirrorOk := true } ∈ u.emb.stages ∧
      (∀ h ∈ s.emb.stages, h.shard ≠ g.shard → h ∈ u.emb.stages) ∧ keepsBut [.emb] s u) ∧
  (∀ (s : State) (src t n step : Nat) (ds : List Nat), s.running = true → (s.estep t n step).closed = true → s.coordOf t n = some s.node →
    ∃ u, exec (.readyReceive src t n step ds) s = .next u ∧ src ∈ (u.estep t n step).ready ∧ (∀ d ∈ ds, d ∈ (u.estep t n step).readyNeed) ∧ keepsBut [.emb] s u) ∧
  (∀ (s : State) (t n step v w : Nat) (inc : Bool) (x : Tab), s.running = true → s.tabAny t n = some x → s.ftick < v →
    ∃ u y, exec (.stepSeal t n step v w inc 0) s = .next u ∧ u.tabAny t n = some y ∧ y.lastClosed = some (max step (x.lastClosed.getD 0)) ∧
      (u.estep t n step).sealAt = some v ∧ (u.estep t n step).version = w ∧
      keepsBut [.emb, .net, .counts, .fault, .rings, .mem, .poison] s u) ∧
  (∀ (s : State) (t n step v w : Nat) (inc : Bool) (x : Tab), s.running = true → s.tabAny t n = some x → v ≤ s.ftick → s.liveAt x v = w →
    ∃ u, exec (.stepSeal t n step v w inc 0) s = .next u ∧ (∀ k ∈ u.emb.steps, ¬(k.tenant = t ∧ k.table = n ∧ k.step = step)) ∧
      (∀ o ∈ s.emb.overlays, o.tenant = t → o.table = n → o.step = step → o.v = none → { o with v := some v } ∈ u.emb.overlays) ∧
      keepsBut [.emb, .net, .counts, .fault, .rings, .mem, .poison] s u) ∧
  (∀ (s : State) (t n step v w r : Nat) (inc : Bool) (j : GJob), s.running = true → r ≠ 0 →
    s.emb.jobs.find? (fun j => j.scatter && j.tenant == t && j.table == n && j.step == step && j.sent && !j.done) = some j →
    ∃ u, exec (.stepSeal t n step v w inc r) s = .next u ∧ (∀ k, u.gjob j.slot = some k → k.status = r ∧ k.done = true) ∧
      keepsBut [.emb, .counts, .fault, .rings, .mem, .poison] s u) ∧
  (∀ (s : State) (t n row v : Nat) (o : Overlay) (x : Tab), s.running = true → s.emb.overlays = [o] → o.tenant = t → o.table = n → o.row = row →
    o.v = some v → s.tabAny t n = some x → v + s.reg 0x58000A ≤ s.ftick →
    ∃ u, exec (.overlayWriteback t n row) s = .next u ∧ u.baseImg x o.version row o.mirror = some o.img ∧ u.emb.overlays = [] ∧
      u.cnt 0xE0901B = s.cnt 0xE0901B + 1 ∧ keepsBut [.emb, .counts] s u))

/-- R272 to R275: a load window that ends clears the loads and starts the next one; a report to the coordinator is kept; a migration decision whose tick is to come is
kept, and one that comes late is stale (R25); copies that come ahead wait; a hand-off hands the rows over; a delegate learns how many records are forwarded. R254, R271,
R277 to R279: a mirror keeps the images that it is sent, of a merge or of a shard that is staged, and acknowledges; a replica from the row's home joins the store, and one
that comes from another node, is older than a switch or does not fit changes nothing; a drop removes every replica of the row and is acknowledged; an acknowledged drop
takes the holder off the list. Shown to complete here: loadWindowEnd, loadReport, migrationDecision, migrationHandoff, forwardComplete, replicaDrop, replicaDropAck,
mirrorImages, warmCopy, replicaReceive. -/
def Obligations.RowsMigrateAndReplicate : Prop :=
  ((∀ s : State, s.running = true → s.emb.windowStart + s.reg 0x58000E ≤ s.ftick →
    ∃ t, exec .loadWindowEnd s = .next t ∧ t.emb.loads = [] ∧ t.emb.rowLoads = [] ∧ t.emb.reads = [] ∧ t.emb.windowStart = s.ftick ∧
      keepsBut [.emb, .net, .regs, .counts] s t) ∧
  (∀ (s : State) (src t n load h : Nat) (top : List (Nat × Nat)) (x : Tab) (e : MapEntry), s.running = true → s.tabNow t n = some x →
    s.coordOf t n = some s.node → e ∈ tabShards s.map.entries t n → e.a = h → h ≠ 0xFFFF → h ≠ src → x.tenant = t → x.table = n →
    (∀ r ∈ s.emb.reports, ¬(r.home = h ∧ r.tenant = t ∧ r.table = n)) →
    ∃ u, exec (.loadReport src t n load top) s = .next u ∧ { home := src, tenant := t, table := n, load := load, top := top } ∈ u.emb.reports ∧
      keepsBut [.emb] s u) ∧
  (∀ (s : State) (m : Migration), s.running = true → s.ftick < m.tick → (s.emb.migs.any fun g => g.m == m) = false →
    ∃ t, exec (.migrationDecision m) s = .next t ∧ t.emb.migs = s.emb.migs ++ [{ m := m }] ∧ keepsBut [.emb, .net, .counts] s t) ∧
  (∀ (s : State) (m : Migration), s.running = true → m.tick ≤ s.ftick →
    ∃ t, exec (.migrationDecision m) s = .next t ∧ t.cnt 0xE0100B = s.cnt 0xE0100B + 1 ∧ t.reg 0x200104 = 4 ∧
      keepsBut [.regs, .counts, .time, .net, .fault, .mgmtOut] s t) ∧
  (∀ (s : State) (t n : Nat) (rs : List RowState) (x : Tab), s.running = true → s.bindingDiffers t s.node = false → s.tabNow t n = some x →
    (∀ r ∈ rs, s.homesRow x x.live r.row = false) →
    ∃ u, exec (.warmCopy t n rs) s = .next u ∧ (∀ r ∈ rs, (t, n, r) ∈ u.emb.warm) ∧ keepsBut [.emb] s u) ∧
  (∀ (s : State) (t n : Nat) (rs : List RowState) (x : Tab), s.running = true → s.bindingDiffers t s.node = false → s.tabNow t n = some x →
    (∀ r ∈ rs, s.homesRow x x.live r.row = true ∧ s.migOf t n r.row = none) →
    ∃ u, exec (.warmCopy t n rs) s = .next u ∧ (∀ r ∈ rs, (u.baseImg x x.live r.row false).isSome = true) ∧ u.emb.warm = s.emb.warm ∧ keepsBut [.emb] s u) ∧
  (∀ (s : State) (t n w : Nat) (rs : List RowState) (hs : List (Nat × Nat)) (x : Tab) (g : Mig), s.running = true → s.bindingDiffers t s.node = false →
    s.tabNow t n = some x → g ∈ s.emb.migs →
    g.m.tenant = t → g.m.table = n → g.m.b = s.node → g.handed = false → (∀ r ∈ rs, r.row ∈ g.m.rows) →
    ∃ u, exec (.migrationHandoff t n rs hs w) s = .next u ∧ { g with handed := true } ∈ u.emb.migs ∧ u.cnt 0xE09104 = s.cnt 0xE09104 + w ∧
      (∀ r ∈ rs, (u.baseImg x x.live r.row false).isSome = true) ∧ (∀ h ∈ hs, (t, n, h.1, h.2) ∈ u.emb.holders) ∧ keepsBut [.emb, .counts] s u) ∧
  (∀ (s : State) (t n step c : Nat), s.running = true →
    ∃ u, exec (.forwardComplete t n step c) s = .next u ∧ (u.estep t n step).expect = some ((s.estep t n step).expect.getD 0 + c) ∧ keepsBut [.emb] s u)) ∧
  ((∀ (s : State) (src t n step v : Nat) (r : RowState) (rs : List RowState) (x : Tab), s.running = true → s.bindingDiffers t s.node = false →
    s.tabAny t n = some x → step ≠ 0 →
    ∃ u, exec (.mirrorImages src t n step v (r :: rs)) s = .next u ∧ (∀ q ∈ r :: rs, (u.baseImg x v q.row true).isSome = true) ∧
      u.hasSent src 0x23 (.imagesAck t n step (r.row / x.shardRows)) ∧ keepsBut [.emb, .net, .counts] s u) ∧
  (∀ (s : State) (src t n v row : Nat) (img : RowImg) (x : Tab), s.running = true → s.bindingDiffers t s.node = false → s.tabAny t n = some x →
    ∃ u, exec (.mirrorImages src t n 0 v [{ row := row, base := img, chain := [] }]) s = .next u ∧ u.baseImg x v row true = some img ∧
      u.hasSent src 0x23 (.imagesAck t n 0 (row / x.shardRows)) ∧ keepsBut [.emb, .net, .counts, .tier, .regs, .mem, .poison] s u) ∧
  (∀ (s : State) (src t n row view : Nat) (img : RowImg) (x : Tab), s.running = true → s.bindingDiffers t s.node = false → s.tabNow t n = some x →
    s.homeOf x x.live row = some src →
    (∀ o ∈ x.old, o.2 ≤ view) → replicaBytes img ≤ s.reg 0x580012 →
    ∃ u, exec (.replicaReceive src t n row view img) s = .next u ∧ (∃ r ∈ u.emb.replicas, r.tenant = t ∧ r.table = n ∧ r.row = row ∧ r.view = view ∧ r.img = img) ∧
      u.cnt 0xE09106 = s.cnt 0xE09106 + 1 ∧ keepsBut [.emb, .counts] s u) ∧
  (∀ (s : State) (src t n row view : Nat) (img : RowImg) (x : Tab), s.running = true → s.bindingDiffers t s.node = false → s.tabNow t n = some x →
    (s.homeOf x x.live row ≠ some src ∨ (∃ o ∈ x.old, view < o.2) ∨ s.reg 0x580012 < replicaBytes img) →
    exec (.replicaReceive src t n row view img) s = .next s) ∧
  (∀ (s : State) (src t n row : Nat), s.running = true →
    ∃ u, exec (.replicaDrop src t n row) s = .next u ∧ (∀ r ∈ u.emb.replicas, ¬(r.tenant = t ∧ r.table = n ∧ r.row = row)) ∧
      u.hasSent src 0x23 (.dropAck t n row) ∧ keepsBut [.emb, .net, .counts] s u) ∧
  (∀ (s : State) (src t n row : Nat), s.running = true →
    ∃ u, exec (.replicaDropAck src t n row) s = .next u ∧ (t, n, row, src) ∉ u.emb.holders ∧ keepsBut [.emb, .net, .counts] s u))

/-! ### Memory tiers -/

/-- R72: a page that has been zeroed reads 0 in every byte, is no longer held back, and is counted in 0xE020:0C or 0D; every other byte of memory is as before. R290: an
allocation whose pages are all here then completes with status 0. R295: the mover copies a page to the tier asked for and goes on with the next page of the region, whose
bytes stay what they are; after the last page the move completes. R297: a page that cannot be read, or no page to take, fails the move, counted in 0xE0A0:18. R296: a page
of a region freed meanwhile is given up. Shown to complete here: pageZeroingDone, pageMove. -/
def Obligations.PagesAreZeroedAndMoved : Prop :=
  ((∀ (s : State) (z : PageZero) (n : Nat) (p : Page), s.running = true → s.ctl.zeroings.find? (fun x => x.id == z.id) = some z → z.pages = [n] →
    s.pageAt z.tenant n = some p → n < 2 ^ 27 → z.seq = 0 →
    ∃ t, exec (.pageZeroingDone z.id []) s = .next t ∧ t.pageAt z.tenant n = some { p with zero := false } ∧
      (∀ i < pageSize, t.load z.tenant (n * pageSize + i) 1 = [0]) ∧
      (∀ a, (a < memKey z.tenant (n * pageSize) ∨ memKey z.tenant (n * pageSize) + pageSize ≤ a) → Memory.get t.mem a = Memory.get s.mem a) ∧
      (∀ x ∈ t.ctl.zeroings, x.id ≠ z.id) ∧ t.cnt (if z.board then 0xE0200D else 0xE0200C) = s.cnt (if z.board then 0xE0200D else 0xE0200C) + 1 ∧
      keepsBut [.ctl, .tier, .mem, .poison, .counts, .regs] s t ∧ countsBut [0xE0200C, 0xE0200D] s t) ∧
  (∀ (s : State) (z : PageZero) (n : Nat) (p : Page) (r : Region), s.running = true → s.ctl.zeroings.find? (fun x => x.id == z.id) = some z → z.pages = [n] →
    s.pageAt z.tenant n = some p → n < 2 ^ 27 → z.seq ≠ 0 → z.kind ≠ 6 → s.regionAt z.tenant z.region = some r → r.page = n → r.count = 1 →
    (s.sec.tenants.any fun y => y.tenant == z.tenant && y.down) = false →
    ∃ t, exec (.pageZeroingDone z.id []) s = .next t ∧ t.cnt 0xE0F00C = s.cnt 0xE0F00C + 1 ∧ t.regionAt z.tenant z.region = some r ∧
      keepsBut [.ctl, .tier, .mem, .poison, .counts, .regs, .rings] s t) ∧
  (∀ (s : State) (z : PageZero) (n : Nat) (p : Page) (m : Model), s.running = true → s.ctl.zeroings.find? (fun x => x.id == z.id) = some z → z.pages = [n] →
    s.pageAt z.tenant n = some p → z.seq ≠ 0 → z.kind = 6 → s.dense.models = [m] → m.slot = z.region → m.tenant = z.tenant → m.ready = false → m.pages = [n] →
    (s.sec.tenants.any fun y => y.tenant == z.tenant && y.down) = false →
    ∃ t, exec (.pageZeroingDone z.id []) s = .next t ∧ t.dense.models = [{ m with start := s.ftick + 1, ready := true }] ∧
      t.cnt 0xE0F00C = s.cnt 0xE0F00C + 1 ∧ t.cnt 0xE0800E = s.cnt 0xE0800E + 1 ∧ keepsBut [.ctl, .tier, .mem, .poison, .counts, .regs, .rings, .dense] s t)) ∧
  ((∀ (s u : State) (tenant page next waited : Nat) (more : List Nat) (m : Move) (rest : List Move) (p : Page) (h : PHome), s.running = true →
    s.tier.moves = m :: rest → s.pageAt tenant page = some p → m.tenant = tenant → m.left = page :: next :: more → m.freed = false → s.tier.waits = [] →
    s.moverSpent = false → s.movePinned m = false →
    s.poisoned tenant (page * pageSize) pageSize = false → s.canTake tenant m.board 1 = true → s.takePage m.board = some (u, h) →
    ∃ t q, exec (.pageMove tenant page none waited) s = .next t ∧ t.pageAt tenant page = some q ∧ q.inStacks = !m.board ∧ q.poisoned = false ∧
      t.tier.moves = { m with left := next :: more } :: rest ∧
      t.cnt (if m.board then 0xE0A00E else 0xE0A00F) = s.cnt (if m.board then 0xE0A00E else 0xE0A00F) + 1 ∧
      t.cnt (if m.board then 0xE0200D else 0xE0200C) = s.cnt (if m.board then 0xE0200D else 0xE0200C) + 1 ∧
      keepsBut [.tier, .regs, .counts, .fault, .sched] s t) ∧
  (∀ (s u : State) (tenant page waited : Nat) (m : Move) (p : Page) (h : PHome), s.running = true →
    s.tier.moves = [m] → s.pageAt tenant page = some p → m.tenant = tenant → m.left = [page] → m.freed = false → s.tier.waits = [] →
    s.moverSpent = false → s.movePinned m = false → s.resetting 1 0 = false → (s.sec.tenants.any fun y => y.tenant == tenant && y.down) = false →
    s.poisoned tenant (page * pageSize) pageSize = false → s.canTake tenant m.board 1 = true → s.takePage m.board = some (u, h) →
    ∃ t q, exec (.pageMove tenant page none waited) s = .next t ∧ t.pageAt tenant page = some q ∧ q.inStacks = !m.board ∧ t.tier.moves = [] ∧
      t.cnt 0xE0F00C = s.cnt 0xE0F00C + 1 ∧ keepsBut [.tier, .regs, .counts, .fault, .sched, .rings, .mem, .poison] s t) ∧
  (∀ (s : State) (tenant page waited : Nat) (bad : Option Nat) (m : Move) (p : Page), s.running = true →
    s.tier.moves = [m] → s.pageAt tenant page = some p → m.tenant = tenant → m.left.head? = some page → m.freed = false → s.tier.waits = [] →
    s.moverSpent = false → s.movePinned m = false → (s.sec.tenants.any fun y => y.tenant == tenant && y.down) = false →
    (s.poisoned tenant (page * pageSize) pageSize || bad.isSome || !s.canTake tenant m.board 1) = true →
    ∃ t q, exec (.pageMove tenant page bad waited) s = .next t ∧ t.pageAt tenant page = some q ∧ q.home = p.home ∧ q.inMove = false ∧ t.tier.moves = [] ∧
      t.cnt 0xE0A018 = s.cnt 0xE0A018 + 1 ∧ t.cnt 0xE0F00C = s.cnt 0xE0F00C + 1 ∧
      keepsBut [.tier, .counts, .fault, .rings, .mem, .poison] s t) ∧
  (∀ (s : State) (tenant page waited : Nat) (bad : Option Nat) (m : Move) (p : Page), s.running = true →
    s.tier.moves = [m] → s.pageAt tenant page = some p → m.tenant = tenant → m.left = [page] → m.freed = true → s.tier.waits = [] → s.moverSpent = false →
    s.resetting 1 0 = false → (s.sec.tenants.any fun y => y.tenant == tenant && y.down) = false →
    ∃ t, exec (.pageMove tenant page bad waited) s = .next t ∧ t.pageAt tenant page = none ∧ t.tier.moves = [] ∧ t.cnt 0xE0F00C = s.cnt 0xE0F00C + 1 ∧
      keepsBut [.tier, .regs, .counts, .fault, .rings, .mem, .poison] s t))

/-- R293: a write to a block of a board page stores its bytes, and no others, and packs the block again; one to a page in move waits (R296). A page of the board with more
dead sectors than a quarter of its chunks hold is packed anew, and none of its sectors is dead then. R303: a stack or a board channel that fails is marked failed in its
register and counted, gives no more pages, and every page on it returns poison. Shown to complete here: boardBlockWrite, boardPageRepack, tierPartFail. -/
def Obligations.BoardPagesArePacked : Prop :=
  ((∀ (s : State) (tenant addr : Nat) (data : List Byte) (p : Page), s.running = true → s.memOk = true → s.pageAt tenant (addr / pageSize) = some p →
    p.inStacks = false → p.zero = false → p.inMove = false → data ≠ [] → addr % 4096 + data.length ≤ 4096 → s.rangeFailed tenant addr data.length = false →
    ∃ t, exec (.boardBlockWrite tenant addr data) s = .next t ∧ t.load tenant addr data.length = data ∧
      (∀ a, (a < memKey tenant addr ∨ memKey tenant addr + data.length ≤ a) → Memory.get t.mem a = Memory.get s.mem a) ∧
      (s.cnt 0xE0A010 + 1 ≤ t.cnt 0xE0A010) ∧ keepsBut [.mem, .poison, .tier, .counts, .fault] s t) ∧
  (∀ (s : State) (tenant addr : Nat) (data : List Byte) (p : Page), s.running = true → s.pageAt tenant (addr / pageSize) = some p →
    p.inStacks = false → p.zero = false → p.inMove = true → data ≠ [] → addr % 4096 + data.length ≤ 4096 →
    ∃ t, exec (.boardBlockWrite tenant addr data) s = .next t ∧
      t.tier = { s.tier with waits := s.tier.waits ++ [{ tenant := tenant, addr := addr, data := data, host := none, peer := none }] } ∧
      t.cnt 0xE0A012 = s.cnt 0xE0A012 + 1 ∧ keepsBut [.tier, .counts] s t ∧ countsBut [0xE0A012] s t) ∧
  (∀ (s : State) (tenant page ch chunks dead used : Nat) (map : List (Nat × Nat × Nat)) (p : Page), s.running = true → s.pageAt tenant page = some p →
    p.home = .board ch map chunks dead used → p.inMove = false → chunks * 1024 < dead * 4 →
    ∃ t q c, exec (.boardPageRepack tenant page) s = .next t ∧ t.pageAt tenant page = some q ∧
      q.home = .board c (s.packPage tenant page).1 (chunksFor (s.packPage tenant page).2) 0 (s.packPage tenant page).2 ∧
      t.cnt 0xE0A015 = s.cnt 0xE0A015 + 1 ∧ t.cnt 0xE0A010 = s.cnt 0xE0A010 + 512 ∧ keepsBut [.tier, .regs, .counts, .fault] s t)) ∧
  ((∀ (s : State) (n : Nat), s.running = true → n < 12 → s.reg (0x600101 + n) ≠ 2 →
    ∃ t, exec (.tierPartFail false n) s = .next t ∧ t.reg (0x600101 + n) = 2 ∧ t.cnt 0xE0A019 = s.cnt 0xE0A019 + 1 ∧
      (∀ p ∈ s.tier.pages, p.home = .stack n → t.poisoned p.tenant (p.page * pageSize) 1 = true) ∧ (∀ x ∈ t.freeParts false, x.1 ≠ n) ∧
      keepsBut [.regs, .counts, .fault, .net, .mgmtOut] s t ∧ regsBut [0x600101 + n, 0x600004, 0x601005] s t) ∧
  (∀ (s : State) (n : Nat), s.running = true → n < 8 → s.reg (0x601101 + n) ≠ 3 →
    ∃ t, exec (.tierPartFail true n) s = .next t ∧ t.reg (0x601101 + n) = 3 ∧ t.cnt 0xE0A019 = s.cnt 0xE0A019 + 1 ∧
      (∀ p ∈ s.tier.pages, (∃ m c d e, p.home = .board n m c d e) → t.poisoned p.tenant (p.page * pageSize) 1 = true) ∧ (∀ x ∈ t.freeParts true, x.1 ≠ n) ∧
      keepsBut [.regs, .counts, .fault, .net, .mgmtOut] s t ∧ regsBut [0x601101 + n, 0x600004, 0x601005] s t))

/-- R292: a block packs into sectors from which the same block is unpacked, whatever its 4096 bytes are. R313: every field of a map entry of 64 bits is read back from the
bits that it writes. -/
def Obligations.PackedFormsReadBack : Prop :=
  (∀ bs : List Byte, bs.length = 4096 → unpackBlock 4096 (packBlock bs).1 (packBlock bs).2 = bs ∧ (packBlock bs).2.length % 64 = 0) ∧
  (∀ e : FEntry, e.mode < 4 → e.sectors < 128 → e.block < 2 ^ 27 → e.page < 4096 → e.sector < 256 → entryOfBits (entryBits e) = e)

/-- R72, R287: bytes that are stored are read back, every other byte of memory reads as before, and memory keeps its canonical form. -/
def Obligations.StoredBytesAreReadBack : Prop :=
  ∀ (s : State) (tenant addr : Nat) (bs : List Byte), s.memOk = true →
    (s.store tenant addr bs).load tenant addr bs.length = bs ∧
    (∀ a, (a < memKey tenant addr ∨ memKey tenant addr + bs.length ≤ a) → Memory.get (s.store tenant addr bs).mem a = Memory.get s.mem a) ∧
    (s.store tenant addr bs).memOk = true

/-! ### Flash -/

/-- R4, R306, R308: a write window that opens sets its bit, its tick and a new housekeeping time, and one of the publish and recovery windows writes the images that wait;
one whose work is over closes, and one with work left does not; the limit of a window's time stops housekeeping, in the publish window after the publish. R307, R314,
R315, R330: a write without an open window, of a refused tenant or outside the tenant's region is refused with its status, as is one that finds the flash full, which
makes the region read-only; blocks that fit are packed and their programs start in the open block or in a new one, a block of zeros is only recorded, and a write that
finds blocks only being erased waits. Shown to complete here: windowOpen, windowClose, housekeepingLimit, flashWrite. -/
def Obligations.WritesReachFlash : Prop :=
  ((∀ (s : State) (w : Nat), s.running = true → w < 4 → bit (s.reg 0x701001) w = false →
    ∃ t, exec (.windowOpen w) s = .next t ∧ t.reg 0x701001 = s.reg 0x701001 + 2 ^ w ∧ lk t.flash.winTicks w = some s.now ∧ t.flash.hkStopped = false ∧
      t.flash.levelled = 0 ∧ (w = 0 ∨ w = 3 ∨ (∀ x ∈ s.idx, x.heldWait = []) → keepsBut [.flash, .regs, .counts] s t ∧ countsBut [0xE0B01D] s t) ∧
      keepsBut [.flash, .regs, .counts, .idx, .net, .ctl, .tier, .builds, .rings, .mem, .poison] s t) ∧
  (∀ (s : State) (w : Nat), s.running = true → w < 4 → bit (s.reg 0x701001) w = true → s.flashIdle = true → s.windowWorkDone w = true → w = 3 ∨ s.hkDone = true →
    ∃ t, exec (.windowClose w) s = .next t ∧ t.reg 0x701001 = s.reg 0x701001 - 2 ^ w ∧ lk t.flash.winTicks w = none ∧ t.flash.reclaiming = false ∧
      keepsBut [.flash, .regs] s t ∧ regsBut [0x701001] s t) ∧
  (∀ (s : State) (w : Nat), s.running = true → s.flashIdle = false ∨ s.windowWorkDone w = false ∨ (w ≠ 3 ∧ s.hkDone = false) →
    exec (.windowClose w) s = .next s) ∧
  (∀ (s : State) (w k : Nat), s.running = true → lk s.flash.winTicks w = some k → bit (s.reg 0x701001) w = true → k + s.reg 0x70200D ≤ s.now →
    w ≠ 1 ∨ s.publishing = false →
    ∃ t, exec (.housekeepingLimit w) s = .next t ∧ t.flash = { s.flash with hkStopped := true } ∧ keepsBut [.flash] s t)) ∧
  ((∀ (s : State) (tenant block w : Nat) (data : List (List Byte)), s.running = true → s.windowIn w = false →
    ∃ t, exec (.flashWrite tenant block data w) s = .next t ∧ t.reg 0x70100A = 0x0601 ∧ t.cnt 0xE0B007 = s.cnt 0xE0B007 + 1 ∧
      keepsBut [.regs, .counts] s t ∧ regsBut [0x70100A] s t ∧ countsBut [0xE0B007] s t) ∧
  (∀ (s : State) (tenant block w : Nat) (data : List (List Byte)), s.running = true → s.windowIn w = true → s.reg (pagedKey 0x7048 tenant) = 1 →
    ∃ t, exec (.flashWrite tenant block data w) s = .next t ∧ t.reg 0x70100A = 0x0602 ∧ t.cnt 0xE0B007 = s.cnt 0xE0B007 + 1 ∧
      keepsBut [.regs, .counts] s t ∧ regsBut [0x70100A] s t ∧ countsBut [0xE0B007] s t) ∧
  (∀ (s : State) (tenant block w : Nat) (data : List (List Byte)), s.running = true → s.windowIn w = true → s.reg (pagedKey 0x7048 tenant) ≠ 1 →
    s.inRegion tenant block data.length = false →
    ∃ t, exec (.flashWrite tenant block data w) s = .next t ∧ t.reg 0x70100A = 0x0604 ∧ t.cnt 0xE0B007 = s.cnt 0xE0B007 + 1 ∧
      keepsBut [.regs, .counts] s t ∧ regsBut [0x70100A] s t ∧ countsBut [0xE0B007] s t) ∧
  (∀ (s : State) (tenant block w : Nat) (data : List (List Byte)) (d : List Byte), s.running = true → s.windowIn w = true → s.reg (pagedKey 0x7048 tenant) ≠ 1 →
    s.inRegion tenant block data.length = true → d ∈ data → d.length = 4096 → d.any (· != 0) = true → s.openRoom 1 = false → s.flashFull = true →
    ∃ t, exec (.flashWrite tenant block data w) s = .next t ∧ t.reg 0x70100A = 0x0603 ∧ t.reg (pagedKey 0x7048 tenant) = 1 ∧ t.cnt 0xE0B007 = s.cnt 0xE0B007 + 1 ∧
      t.cnt 0xE0B01F = s.cnt 0xE0B01F + 1 ∧ keepsBut [.regs, .counts] s t ∧ regsBut [0x70100A, pagedKey 0x7048 tenant] s t ∧
      countsBut [0xE0B007, 0xE0B01F] s t) ∧
  (∀ (s : State) (tenant block w : Nat) (data : List (List Byte)) (d : List Byte), s.running = true → s.windowIn w = true → s.reg (pagedKey 0x7048 tenant) ≠ 1 →
    s.inRegion tenant block data.length = true → d ∈ data → d.length = 4096 → d.any (· != 0) = true → s.openRoom 1 = false → s.flashFull = false →
    s.freeBlocks ≤ s.reg 0x702003 → exec (.flashWrite tenant block data w) s = .next s) ∧
  (∀ (s : State) (tenant block w : Nat) (data : List (List Byte)), s.running = true → s.windowIn w = true → s.reg (pagedKey 0x7048 tenant) ≠ 1 →
    s.inRegion tenant block data.length = true → (∀ d ∈ data, d.length = 4096) → data.length ≤ 3 → s.openRoom 1 = true →
    ∃ t, exec (.flashWrite tenant block data w) s = .next t ∧
      (∀ (i : Nat) (d : List Byte), data[i]? = some d → d.any (· != 0) = true → ∃ p ∈ t.flash.progs, p.why = 0 ∧ p.slc = s.toSlc ∧
        ∃ x ∈ p.stored, x.logical = block + i ∧ x.mode = (packBlock d).1 ∧ x.data = (packBlock d).2) ∧
      (∀ (i : Nat) (d : List Byte), data[i]? = some d → d.any (· != 0) = false → ∃ r ∈ t.flash.buffer ++ t.flash.inPage, r.kind = 1 ∧ r.subject = block + i ∧ r.value = 0) ∧
      t.cnt 0xE0B008 = s.cnt 0xE0B008 + (data.filter fun d => !d.any (· != 0)).length ∧ keepsBut [.flash, .regs, .counts] s t ∧ countsBut [0xE0B008] s t) ∧
  (∀ (s : State) (tenant block w : Nat) (data : List (List Byte)) (b : FBlock), s.running = true → s.windowIn w = true → s.reg (pagedKey 0x7048 tenant) ≠ 1 →
    s.inRegion tenant block data.length = true → (∀ d ∈ data, d.length = 4096) →
    s.flash.blocks = [(b.addr, b)] → s.openOf s.toSlc = some b → b.next + data.length ≤ s.reg 0x700005 →
    ∃ t, exec (.flashWrite tenant block data w) s = .next t ∧
      (∀ (i : Nat) (d : List Byte), data[i]? = some d → d.any (· != 0) = true → ∃ p ∈ t.flash.progs, p.why = 0 ∧ p.slc = s.toSlc ∧
        ∃ x ∈ p.stored, x.logical = block + i ∧ x.mode = (packBlock d).1 ∧ x.data = (packBlock d).2) ∧
      (∀ (i : Nat) (d : List Byte), data[i]? = some d → d.any (· != 0) = false → ∃ r ∈ t.flash.buffer ++ t.flash.inPage, r.kind = 1 ∧ r.subject = block + i ∧ r.value = 0) ∧
      t.cnt 0xE0B008 = s.cnt 0xE0B008 + (data.filter fun d => !d.any (· != 0)).length ∧ keepsBut [.flash, .regs, .counts] s t ∧ countsBut [0xE0B008] s t) ∧
  (∀ (s : State) (tenant block w : Nat) (d : List Byte) (b : FBlock), s.running = true → s.windowIn w = true → s.reg (pagedKey 0x7048 tenant) ≠ 1 →
    s.inRegion tenant block 1 = true → s.flashFull = false → s.reg 0x702003 < s.freeBlocks → d.length = 4096 → d.any (· != 0) = true →
    s.openOf s.toSlc = some b →
    ∃ t, exec (.flashWrite tenant block [d] w) s = .next t ∧
      (∃ p ∈ t.flash.progs, p.block = b.addr ∧ p.page = b.next ∧ p.why = 0 ∧ p.slc = s.toSlc ∧
        ∃ x, p.stored = [x] ∧ x.logical = block ∧ x.mode = (packBlock d).1 ∧ x.data = (packBlock d).2) ∧
      (t.fblock b.addr).next = b.next + 1 ∧ keepsBut [.flash, .regs] s t) ∧
  (∀ (s u : State) (tenant block w : Nat) (d : List Byte) (b : FBlock), s.running = true → s.windowIn w = true → s.reg (pagedKey 0x7048 tenant) ≠ 1 →
    s.inRegion tenant block 1 = true → s.reg 0x702003 < s.freeBlocks → d.length = 4096 → d.any (· != 0) = true → s.openOf s.toSlc = none →
    (∀ x ∈ s.flash.blocks, x.2.addr = x.1) → s.openBlock s.toSlc false = some (u, b) →
    ∃ t, exec (.flashWrite tenant block [d] w) s = .next t ∧
      (∃ p ∈ t.flash.progs, p.block = b.addr ∧ p.page = 0 ∧ p.why = 0 ∧ p.slc = s.toSlc ∧
        ∃ x, p.stored = [x] ∧ x.logical = block ∧ x.mode = (packBlock d).1 ∧ x.data = (packBlock d).2) ∧
      (∃ r ∈ t.flash.buffer ++ t.flash.inPage, r.kind = 2 ∧ r.subject = b.addr ∧ r.value = b2n s.toSlc) ∧ (t.fblock b.addr).next = 1 ∧ (t.fblock b.addr).free = false ∧
      keepsBut [.flash, .regs] s t) ∧
  (∀ (s : State) (tenant block w : Nat) (data : List (List Byte)), s.running = true → s.windowIn w = true → s.reg (pagedKey 0x7048 tenant) ≠ 1 →
    s.inRegion tenant block data.length = true → (∀ d ∈ data, d.length = 4096 ∧ d.all (· == 0) = true) →
    ∃ t, exec (.flashWrite tenant block data w) s = .next t ∧
      (∀ i < data.length, ∃ r ∈ t.flash.buffer ++ t.flash.inPage, r.kind = 1 ∧ r.subject = block + i ∧ r.value = 0) ∧
      t.flash.progs = s.flash.progs ∧ t.cnt 0xE0B008 = s.cnt 0xE0B008 + data.length ∧ keepsBut [.flash, .regs, .counts] s t ∧ countsBut [0xE0B008] s t))

/-- R316 to R320, R326, R475: a read of a block whose map page is here is counted with its 4096 bytes, its steps of the ladder and what failed, and is one more read of
its flash block; a map page that is not here is asked of the host, or read from flash where the host holds none; the record that comes back is taken if it is the current
one, and otherwise or in its absence the page is read from flash. Shown to complete here: flashRead, coldMapRecord, coldMapTimeout. -/
def Obligations.FlashReadsAndMapPages : Prop :=
  (∀ (s : State) (tenant block retries ns : Nat) (soft ok tagOk susp lat : Bool), s.running = true → s.windowIn 16 = false → s.flash.recovering = false →
    s.inRegion tenant block 1 = true → s.flash.cache.contains (mapPage block) = true → (s.fentry block).mode ≠ 0 →
    (s.fblock (s.fentry block).block).addr = (s.fentry block).block →
    ∃ t, exec (.flashRead tenant block retries soft ok tagOk ns susp lat) s = .next t ∧ t.cnt 0xE0B001 = s.cnt 0xE0B001 + 1 ∧
      t.cnt 0xE0B002 = s.cnt 0xE0B002 + 4096 ∧ t.cnt 0xE0B003 = s.cnt 0xE0B003 + retries ∧ t.cnt 0xE0B004 = s.cnt 0xE0B004 + b2n soft ∧
      t.cnt 0xE0B005 = s.cnt 0xE0B005 + b2n (!(ok && tagOk)) ∧ t.cnt 0xE0B006 = s.cnt 0xE0B006 + b2n (s.fentry block).discarded ∧
      t.cnt 0xE0A003 = s.cnt 0xE0A003 + b2n (s.reg 0x602003 < ns) ∧ t.cnt 0xE0B013 = s.cnt 0xE0B013 + b2n (lat && susp) ∧
      t.cnt 0xE10010 = s.cnt 0xE10010 + b2n (ok && !tagOk) ∧
      t.fblock (s.fentry block).block = { s.fblock (s.fentry block).block with
        reads := (s.fblock (s.fentry block).block).reads + 1, due := (s.fblock (s.fentry block).block).due || soft } ∧
      t.flash.map = s.flash.map ∧ t.flash.stored = s.flash.stored ∧ keepsBut [.flash, .link, .counts, .fault, .sched, .regs] s t ∧
      (lat = true → keepsBut [.flash, .link, .counts, .fault] s t)) ∧
  (∀ (s : State) (tenant block retries ns : Nat) (soft ok tagOk susp lat : Bool), s.running = true → s.windowIn 16 = false → s.flash.recovering = false →
    s.inRegion tenant block 1 = true → s.flash.cache.contains (mapPage block) = true → (s.fentry block).mode = 0 →
    ∃ t, exec (.flashRead tenant block retries soft ok tagOk ns susp lat) s = .next t ∧ t.cnt 0xE0B001 = s.cnt 0xE0B001 + 1 ∧
      t.cnt 0xE0B002 = s.cnt 0xE0B002 + 4096 ∧ t.cnt 0xE0B003 = s.cnt 0xE0B003 ∧ t.cnt 0xE0B006 = s.cnt 0xE0B006 + b2n (s.fentry block).discarded ∧
      t.flash.blocks = s.flash.blocks ∧ t.flash.map = s.flash.map ∧ keepsBut [.flash, .link, .counts, .sched, .regs] s t) ∧
  (∀ (s : State) (tenant block retries ns : Nat) (soft ok tagOk susp lat : Bool), s.running = true → s.windowIn 16 = false → s.flash.recovering = false →
    s.inRegion tenant block 1 = true →
    s.flash.cache.contains (mapPage block) = false → s.flash.asked.contains (mapPage block) = false → s.reg 0x703003 ≠ 0 → s.link.error = false →
    ∃ t a b, exec (.flashRead tenant block retries soft ok tagOk ns susp lat) s = .next t ∧ t.flash = { s.flash with asked := s.flash.asked ++ [mapPage block] } ∧
      t.link.toHost = s.link.toHost ++ [a, b] ∧ a.op = 1 ∧ a.addr = s.reg 0x703002 + 4160 * (mapPage block % s.reg 0x703003) ∧ b.op = 1 ∧
      b.addr = a.addr + 4096 ∧ t.cnt 0xE0B014 = s.cnt 0xE0B014 + 1 ∧ keepsBut [.flash, .link, .counts] s t ∧ countsBut [0xE0B014, 0xE0F001, 0xE0F009] s t) ∧
  (∀ (s : State) (tenant block retries ns : Nat) (soft ok tagOk susp lat : Bool), s.running = true → s.windowIn 16 = false → s.flash.recovering = false →
    s.inRegion tenant block 1 = true →
    s.flash.cache.contains (mapPage block) = false → s.flash.asked.contains (mapPage block) = false → s.reg 0x703003 = 0 ∨ s.link.error = true →
    ∃ t, exec (.flashRead tenant block retries soft ok tagOk ns susp lat) s = .next t ∧ mapPage block ∈ t.flash.cache ∧ t.cnt 0xE0B014 = s.cnt 0xE0B014 + 1 ∧
      t.cnt 0xE0B018 = s.cnt 0xE0B018 + 1 ∧ t.cnt 0xE0B001 = s.cnt 0xE0B001 + 1 ∧ t.flash.map = s.flash.map ∧
      keepsBut [.flash, .link, .counts, .fault, .sched, .regs] s t) ∧
  (∀ (s : State) (page : Nat) (es : List W64), s.running = true → s.flash.asked.contains page = true → es.length ≤ 512 →
    ∃ t, exec (.coldMapRecord page page ((lk s.flash.dirVer page).getD 0) true es) s = .next t ∧ page ∉ t.flash.asked ∧
      (∀ (i : Nat) (e : W64), es[i]? = some e → t.fentry (512 * page + i) = entryOfBits e.toNat) ∧ t.cnt 0xE0B015 = s.cnt 0xE0B015 + 1 ∧
      keepsBut [.flash, .link, .counts] s t ∧ countsBut [0xE0B015, 0xE0F001, 0xE0F009] s t) ∧
  (∀ (s : State) (page version : Nat) (ok : Bool) (es : List W64), s.running = true → s.flash.asked.contains page = true →
    version ≠ (lk s.flash.dirVer page).getD 0 ∨ ok = false →
    ∃ t, exec (.coldMapRecord page page version ok es) s = .next t ∧ page ∉ t.flash.asked ∧ t.flash.map = s.flash.map ∧
      t.cnt 0xE0B016 = s.cnt 0xE0B016 + 1 ∧ t.cnt 0xE0B018 = s.cnt 0xE0B018 + 1 ∧ keepsBut [.flash, .link, .counts, .fault] s t) ∧
  (∀ (s : State) (page other version : Nat) (ok : Bool) (es : List W64), s.running = true → s.flash.asked.contains page = true → other ≠ page →
    ∃ t, exec (.coldMapRecord page other version ok es) s = .next t ∧ page ∉ t.flash.asked ∧ t.flash.map = s.flash.map ∧
      t.cnt 0xE0B018 = s.cnt 0xE0B018 + 1 ∧ keepsBut [.flash, .link, .counts] s t ∧ countsBut [0xE0B018, 0xE0F001, 0xE0F009] s t) ∧
  (∀ (s : State) (page : Nat), s.running = true → s.flash.asked.contains page = true →
    ∃ t, exec (.coldMapTimeout page) s = .next t ∧ page ∉ t.flash.asked ∧ t.flash.map = s.flash.map ∧ t.cnt 0xE0B017 = s.cnt 0xE0B017 + 1 ∧
      t.cnt 0xE0B018 = s.cnt 0xE0B018 + 1 ∧ keepsBut [.flash, .link, .counts] s t)

/-- R320 to R324: housekeeping copies the valid pages of the block that it picks: a disturb scan marks a block due or starts its count again; a refresh opens window 2,
closes the block to writes and copies it; a flush, a reclaim and wear levelling are counted and copy the block that each picks, and a source with nothing valid waits for
its erase. Shown to complete here: disturbScan, refresh, slcFlush, reclaim, wearLevelling. -/
def Obligations.HousekeepingCopiesBlocks : Prop :=
  (∀ (s : State) (block used : Nat) (ladder : Bool), s.running = true → (s.fblock block).addr = block → (s.fblock block).free = false →
    (s.fblock block).retired = false → s.reg 0x702008 ≤ (s.fblock block).reads →
    ∃ t, exec (.disturbScan block used ladder) s = .next t ∧
      t.fblock block = (if s.reg 0x702009 < used ∨ ladder = true then { s.fblock block with due := true } else { s.fblock block with reads := 0 }) ∧
      t.cnt 0xE0B00F = s.cnt 0xE0B00F + 1 ∧ keepsBut [.flash, .counts] s t ∧ countsBut [0xE0B00F] s t) ∧
  (∀ (s : State) (block : Nat), s.running = true → (s.fblock block).addr = block → (s.fblock block).due = true → (s.fblock block).free = false →
    (s.fblock block).retired = false → (s.fblock block).erasing = false → s.flash.eraseQ.any (·.1 == block) = false →
    (∀ x ∈ s.validIn block, s.keyed x.tenant = true) →
    ∃ t u : State, exec (.refresh block) s = .next t ∧ t = u.copyBlock block 2 false false ∧ bit (u.reg 0x701001) 2 = true ∧
      u.fblock block = { s.fblock block with due := false, next := s.reg 0x700005 } ∧ u.cnt 0xE0B010 = s.cnt 0xE0B010 + 1 ∧
      (bit (s.reg 0x701001) 2 = true ∨ (∀ x ∈ s.idx, x.heldWait = []) → keepsBut [.flash, .regs, .counts] s t) ∧
      keepsBut [.flash, .regs, .counts, .idx, .net, .ctl, .tier, .builds, .rings, .mem, .poison] s t) ∧
  (∀ (s : State) (b : FBlock), s.running = true → s.hkAllowed = true → s.flushPick = some b →
    ∃ t, exec .slcFlush s = .next t ∧ t = (s.bump 0xE0B00E 1).copyBlock b.addr 3 true false ∧ t.cnt 0xE0B00E = s.cnt 0xE0B00E + 1 ∧
      keepsBut [.flash, .regs, .counts] s t ∧ countsBut [0xE0B00E] s t) ∧
  (∀ (s : State) (b v : FBlock), s.running = true → s.hkAllowed = true → s.flushPick = some b → s.openOf false = some v →
    (cutPages (s.validIn b.addr)).length = 1 →
    ∃ t, exec .slcFlush s = .next t ∧
      (∃ p ∈ t.flash.progs, p.why = 3 ∧ p.src = some b.addr ∧ p.block = v.addr ∧ p.page = v.next ∧ p.slc = false ∧
        p.stored.map (·.logical) = (s.validIn b.addr).map (·.logical) ∧ p.stored.map (·.data) = (s.validIn b.addr).map (·.data)) ∧
      keepsBut [.flash, .regs, .counts] s t ∧ countsBut [0xE0B00E] s t) ∧
  (∀ (s : State) (b : FBlock), s.running = true → s.hkAllowed = true → s.flushPick = some b → s.validIn b.addr = [] →
    ∃ t, exec .slcFlush s = .next t ∧ t.flash.eraseQ.any (·.1 == b.addr) = true ∧ t.flash.progs = s.flash.progs ∧
      keepsBut [.flash, .regs, .counts] s t ∧ countsBut [0xE0B00E] s t) ∧
  (∀ (s : State) (b : FBlock), s.running = true → s.hkAllowed = true → s.wantsReclaim = true → s.reclaimPick = some b →
    ∃ t, exec .reclaim s = .next t ∧ t.flash.reclaiming = true ∧ t.cnt 0xE0B00B = s.cnt 0xE0B00B + 1 ∧
      (s.validIn b.addr = [] → t.flash.eraseQ.any (·.1 == b.addr) = true ∧ t.flash.progs = s.flash.progs) ∧
      keepsBut [.flash, .regs, .counts] s t ∧ countsBut [0xE0B00B] s t) ∧
  (∀ (s : State) (b v : FBlock), s.running = true → s.hkAllowed = true → s.wantsReclaim = true → s.reclaimPick = some b → s.openOf s.toSlc = some v →
    (cutPages (s.validIn b.addr)).length = 1 →
    ∃ t, exec .reclaim s = .next t ∧
      (∃ p ∈ t.flash.progs, p.why = 1 ∧ p.src = some b.addr ∧ p.block = v.addr ∧ p.page = v.next ∧ p.slc = s.toSlc ∧
        p.stored.map (·.logical) = (s.validIn b.addr).map (·.logical) ∧ p.stored.map (·.data) = (s.validIn b.addr).map (·.data)) ∧
      keepsBut [.flash, .regs, .counts] s t ∧ countsBut [0xE0B00B] s t) ∧
  (∀ s : State, s.running = true → s.hkAllowed = false ∨ s.wantsReclaim = false →
    ∃ t, exec .reclaim s = .next t ∧ t.flash = { s.flash with reclaiming := false } ∧ keepsBut [.flash] s t) ∧
  (∀ (s : State) (b : FBlock), s.running = true → s.hkAllowed = true → s.levelPick = some b →
    ∃ t, exec .wearLevelling s = .next t ∧ t.flash.levelled = s.flash.levelled + 1 ∧ t.cnt 0xE0B00D = s.cnt 0xE0B00D + 1 ∧
      keepsBut [.flash, .regs, .counts] s t ∧ countsBut [0xE0B00D] s t) ∧
  (∀ (s u : State) (b v : FBlock), s.running = true → s.hkAllowed = true → s.levelPick = some b → s.openBlock false true = some (u, v) →
    (cutPages (s.validIn b.addr)).length = 1 →
    ∃ t, exec .wearLevelling s = .next t ∧
      (∃ p ∈ t.flash.progs, p.why = 4 ∧ p.src = some b.addr ∧ p.block = v.addr ∧ p.page = 0 ∧ p.slc = false ∧
        p.stored.map (·.logical) = (s.validIn b.addr).map (·.logical) ∧ p.stored.map (·.data) = (s.validIn b.addr).map (·.data)) ∧
      keepsBut [.flash, .regs, .counts] s t ∧ countsBut [0xE0B00D] s t)

/-- R315, R324 to R327: a program that succeeds stores its page and records its blocks; a copy releases its source for erasing; one that fails retires its block and is
done again in another. A journal page that is programmed makes its records take effect. An erased block is free with one erase more, or retired when worn; a failed erase
retires it. R326, R327, R329: a discard that is not whole blocks is counted and ignored; one outside a window waits in the queue, or in its issuer when the queue is full,
and one in a window is taken; a checkpoint writes every map page that changed and the checkpoint record; the recovery takes the map of an accepted checkpoint and the
records that survived it, and erases the blocks left without valid content. A retrained channel keeps the tick of its training. Shown to complete here: copyProgramDone,
journalPageProgrammed, eraseDone, discard, directoryCheckpoint, powerLossRecovery, pageProgramDone, flashChannelRetrain. -/
def Obligations.ProgramsDiscardsCheckpoints : Prop :=
  ((∀ (s : State) (p : FProg), s.running = true → s.flash.progs.find? (fun x => x.id == p.id && x.why == 0) = some p →
    ∃ t, exec (.pageProgramDone p.id true) s = .next t ∧ t.flash.stored = s.flash.stored ++ p.stored ∧ (∀ x ∈ t.flash.progs, x.id ≠ p.id) ∧
      t.cnt 0xE0B008 = s.cnt 0xE0B008 + p.stored.length ∧ t.cnt 0xE0B009 = s.cnt 0xE0B009 + 1 ∧
      (∀ x ∈ p.stored, ∃ r ∈ t.flash.buffer ++ t.flash.inPage, r.kind = 1 ∧ r.subject = x.logical) ∧
      keepsBut [.flash, .regs, .counts] s t ∧ countsBut [0xE0B008, 0xE0B009] s t) ∧
  (∀ (s : State) (p : FProg), s.running = true → s.flash.progs.find? (fun x => x.id == p.id && x.why == 0) = some p →
    ∃ t, exec (.pageProgramDone p.id false) s = .next t ∧ t.cnt 0xE0B012 = s.cnt 0xE0B012 + 1 ∧ t.cnt 0xE0B011 = s.cnt 0xE0B011 + 1 ∧
      (∃ r ∈ t.flash.buffer ++ t.flash.inPage, r.kind = 5 ∧ r.subject = p.block ∧ r.value = 1) ∧ t.flash.stored = s.flash.stored ∧
      keepsBut [.flash, .regs, .counts] s t ∧ countsBut [0xE0B011, 0xE0B012] s t) ∧
  (∀ (s : State) (p : FProg) (b v : FBlock), s.running = true → s.flash.progs = [p] → p.why = 0 → s.flash.blocks = [(p.block, b), (v.addr, v)] →
    b.addr = p.block → v.addr ≠ p.block → s.openOf p.slc = some v →
    ∃ t, exec (.pageProgramDone p.id false) s = .next t ∧ (t.fblock p.block).retired = true ∧
      (∃ q, t.flash.progs = [q] ∧ q.block = v.addr ∧ q.page = v.next ∧ q.why = 0 ∧ q.slc = p.slc ∧ q.stored.map (·.data) = p.stored.map (·.data)) ∧
      keepsBut [.flash, .regs, .counts] s t) ∧
  (∀ (s : State) (p : FProg), s.running = true → s.flash.progs.find? (fun x => x.id == p.id && x.why != 0) = some p →
    ∃ t, exec (.copyProgramDone p.id true) s = .next t ∧ t.flash.stored = s.flash.stored ++ p.stored ∧ (∀ x ∈ t.flash.progs, x.id ≠ p.id) ∧
      t.cnt 0xE0B00C = s.cnt 0xE0B00C + (if p.why = 1 then p.stored.length else 0) ∧ t.cnt 0xE0B009 = s.cnt 0xE0B009 + 1 ∧
      (∀ x ∈ p.stored, ∃ r ∈ t.flash.buffer ++ t.flash.inPage, r.kind = 1 ∧ r.subject = x.logical) ∧
      keepsBut [.flash, .regs, .counts] s t ∧ countsBut [0xE0B00C, 0xE0B009] s t) ∧
  (∀ (s : State) (p : FProg) (a : Nat), s.running = true → s.flash.progs.find? (fun x => x.id == p.id && x.why != 0) = some p → p.src = some a →
    (∀ x ∈ s.flash.progs, x.id ≠ p.id → x.src ≠ some a) →
    ∃ t, exec (.copyProgramDone p.id true) s = .next t ∧ t.flash.eraseQ.any (·.1 == a) = true ∧ keepsBut [.flash, .regs, .counts] s t) ∧
  (∀ (s : State) (p : FProg), s.running = true → s.flash.progs.find? (fun x => x.id == p.id && x.why != 0) = some p →
    ∃ t, exec (.copyProgramDone p.id false) s = .next t ∧ t.cnt 0xE0B012 = s.cnt 0xE0B012 + 1 ∧ t.cnt 0xE0B011 = s.cnt 0xE0B011 + 1 ∧
      (∃ r ∈ t.flash.buffer ++ t.flash.inPage, r.kind = 5 ∧ r.subject = p.block ∧ r.value = 1) ∧ t.flash.stored = s.flash.stored ∧
      keepsBut [.flash, .regs, .counts] s t ∧ countsBut [0xE0B011, 0xE0B012] s t) ∧
  (∀ (s : State) (rs : List JRec) (r : JRec), s.running = true → s.flash.inPage = rs ++ [r] →
    ∃ t, exec .journalPageProgrammed s = .next t ∧ t.reg 0x701008 = r.seq ∧ t.cnt 0xE0B019 = s.cnt 0xE0B019 + rs.length + 1 ∧
      (s.flash.buffer = [] → t.flash.inPage = []) ∧
      keepsBut [.flash, .link, .regs, .counts] s t ∧ countsBut [0xE0B019, 0xE0F001, 0xE0F009] s t) ∧
  (∀ (s : State) (r : JRec), s.running = true → s.flash.inPage = [r] → r.kind = 1 →
    ∃ t, exec .journalPageProgrammed s = .next t ∧ t.fentry r.subject = entryOfBits r.value ∧ keepsBut [.flash, .link, .regs, .counts] s t) ∧
  (∀ (s : State) (r : JRec), s.running = true → s.flash.inPage = [r] → r.kind = 4 →
    ∃ t, exec .journalPageProgrammed s = .next t ∧ (∀ i < r.value, t.fentry (r.subject + i) = { s.fentry (r.subject + i) with discarded := true }) ∧
      keepsBut [.flash, .link, .regs, .counts] s t) ∧
  (∀ (s : State) (r : JRec), s.running = true → s.flash.inPage = [r] → r.kind = 7 →
    ∃ t, exec .journalPageProgrammed s = .next t ∧ t.flash.ckpt = r.subject ∧ t.flash.ckptSeq = r.value ∧ t.flash.ckptMap = s.flash.map ∧
      keepsBut [.flash, .regs, .counts] s t) ∧
  (∀ (s : State) (block : Nat), s.running = true → (s.fblock block).addr = block → (s.fblock block).erasing = true → s.flash.eraseQ.any (·.1 == block) = true →
    s.reg 0x70200A = 0 ∨ (s.fblock block).erases + 1 < s.reg 0x70200A →
    ∃ t, exec (.eraseDone block true) s = .next t ∧ t.fblock block = { s.fblock block with
        erases := (s.fblock block).erases + 1, erasing := false, free := true, next := 0, reads := 0, due := false } ∧
      (∃ r ∈ t.flash.buffer ++ t.flash.inPage, r.kind = 3 ∧ r.subject = block ∧ r.value = (s.fblock block).erases + 1) ∧
      (∀ x ∈ t.flash.stored, x.block ≠ block) ∧ (∀ e ∈ t.flash.eraseQ, e.1 ≠ block) ∧ t.cnt 0xE0B00A = s.cnt 0xE0B00A + 1 ∧
      keepsBut [.flash, .regs, .counts] s t ∧ countsBut [0xE0B00A] s t) ∧
  (∀ (s : State) (block : Nat), s.running = true → (s.fblock block).addr = block → (s.fblock block).erasing = true → s.flash.eraseQ.any (·.1 == block) = true →
    s.reg 0x70200A ≠ 0 → s.reg 0x70200A ≤ (s.fblock block).erases + 1 →
    ∃ t, exec (.eraseDone block true) s = .next t ∧ (t.fblock block).retired = true ∧ (t.fblock block).erases = (s.fblock block).erases + 1 ∧
      (∃ r ∈ t.flash.buffer ++ t.flash.inPage, r.kind = 5 ∧ r.subject = block ∧ r.value = 3) ∧ t.cnt 0xE0B00A = s.cnt 0xE0B00A + 1 ∧
      t.cnt 0xE0B011 = s.cnt 0xE0B011 + 1 ∧ keepsBut [.flash, .regs, .counts] s t ∧ countsBut [0xE0B00A, 0xE0B011] s t) ∧
  (∀ (s : State) (block : Nat), s.running = true → (s.fblock block).addr = block → (s.fblock block).erasing = true → s.flash.eraseQ.any (·.1 == block) = true →
    ∃ t, exec (.eraseDone block false) s = .next t ∧ (t.fblock block).retired = true ∧ t.cnt 0xE0B012 = s.cnt 0xE0B012 + 1 ∧
      t.cnt 0xE0B011 = s.cnt 0xE0B011 + 1 ∧ keepsBut [.flash, .regs, .counts] s t ∧ countsBut [0xE0B011, 0xE0B012] s t)) ∧
  ((∀ (s : State) (tenant addr len : Nat), s.running = true → addr % 4096 ≠ 0 ∨ len % 4096 ≠ 0 →
    ∃ t, exec (.discard tenant addr len) s = .next t ∧ t.cnt 0xE0B01E = s.cnt 0xE0B01E + 1 ∧ keepsBut [.counts] s t ∧ countsBut [0xE0B01E] s t) ∧
  (∀ (s : State) (tenant addr len : Nat), s.running = true → addr % 4096 = 0 → len % 4096 = 0 → len ≠ 0 → s.inRegion tenant (addr / 4096) (len / 4096) = true →
    (s.flash.discards.foldl (fun a d => a + d.2) 0) + len / 4096 ≤ s.reg 0x70200C → s.windowIn 7 = false →
    ∃ t, exec (.discard tenant addr len) s = .next t ∧ t.flash = { s.flash with discards := s.flash.discards ++ [(addr / 4096, len / 4096)] } ∧
      t.reg 0x701009 = (s.flash.discards.foldl (fun a d => a + d.2) 0) + len / 4096 ∧ keepsBut [.flash, .regs] s t) ∧
  (∀ (s : State) (tenant addr len : Nat), s.running = true → addr % 4096 = 0 → len % 4096 = 0 → len ≠ 0 → s.inRegion tenant (addr / 4096) (len / 4096) = true →
    s.reg 0x70200C < (s.flash.discards.foldl (fun a d => a + d.2) 0) + len / 4096 → s.windowIn 7 = false →
    ∃ t, exec (.discard tenant addr len) s = .next t ∧ t.flash = { s.flash with waitDiscards := s.flash.waitDiscards ++ [(addr / 4096, len / 4096)] } ∧
      keepsBut [.flash] s t) ∧
  (∀ (s : State) (tenant addr len : Nat), s.running = true → addr % 4096 = 0 → len % 4096 = 0 → len ≠ 0 → s.inRegion tenant (addr / 4096) (len / 4096) = true →
    s.windowIn 7 = true →
    ∃ t, exec (.discard tenant addr len) s = .next t ∧ t.flash.discards = [] ∧
      (∃ r ∈ t.flash.buffer ++ t.flash.inPage, r.kind = 4 ∧ r.subject = addr / 4096 ∧ r.value = len / 4096) ∧
      t.cnt 0xE0B01D = s.cnt 0xE0B01D + (s.flash.discards.foldl (fun a d => a + d.2) 0) + len / 4096 ∧
      keepsBut [.flash, .regs, .counts] s t ∧ countsBut [0xE0B01D] s t) ∧
  (∀ s : State, s.running = true → s.windowIn 7 = true → s.canAdvance = true →
    ∃ t, exec .directoryCheckpoint s = .next t ∧ t.flash.dirty = [] ∧
      (∃ r ∈ t.flash.buffer ++ t.flash.inPage, r.kind = 7 ∧ r.subject = s.nextCounter 3) ∧
      (∀ p ∈ s.flash.dirty, ∃ r ∈ t.flash.buffer ++ t.flash.inPage, r.kind = 6 ∧ r.subject = p) ∧ (3, s.nextCounter 3) ∈ t.sec.waitAdv ∧
      keepsBut [.flash, .sec, .free] s t) ∧
  (∀ s : State, s.running = true → s.windowIn 7 = false ∨ s.canAdvance = false → exec .directoryCheckpoint s = .next s) ∧
  (∀ (s : State) (lost : Nat), s.running = true → bit (s.reg 0x701001) 0 = true → s.flash.recovering = true → s.flash.progs = [] → s.flash.inPage = [] →
    s.flash.journal = [] → s.accepts 3 s.flash.ckpt = true →
    ∃ t, exec (.powerLossRecovery lost) s = .next t ∧ t.flash.map = s.flash.ckptMap ∧ t.flash.asked = [] ∧ t.flash.eraseQ = [] ∧ t.flash.recovering = false ∧
      t.reg 0x701008 = s.flash.ckptSeq ∧ t.cnt 0xE0B01A = s.cnt 0xE0B01A + 1 ∧ keepsBut [.flash, .regs, .counts] s t ∧
      countsBut [0xE0B00A, 0xE0B01A, 0xE0B01B, 0xE0B01C] s t) ∧
  (∀ (s : State) (lost : Nat) (r : JRec), s.running = true → bit (s.reg 0x701001) 0 = true → s.flash.recovering = true → s.flash.progs = [] →
    s.flash.inPage = [] → s.flash.journal = [r] → s.accepts 3 s.flash.ckpt = true → r.kind = 1 → s.flash.ckptSeq < r.seq →
    ∃ t, exec (.powerLossRecovery lost) s = .next t ∧
      (if r.page + lost < s.flash.nextPage then t.fentry r.subject = entryOfBits r.value ∧ t.reg 0x701008 = r.seq
        else t.flash.map = s.flash.ckptMap ∧ t.reg 0x701008 = s.flash.ckptSeq) ∧ keepsBut [.flash, .regs, .counts, .link] s t) ∧
  (∀ (s : State) (lost : Nat), s.running = true → bit (s.reg 0x701001) 0 = true → s.flash.recovering = true → s.flash.progs = [] → s.flash.inPage = [] →
    s.flash.journal = [] → s.accepts 3 s.flash.ckpt = false →
    ∃ t, exec (.powerLossRecovery lost) s = .next t ∧ t.flash.map = [] ∧ t.flash.ckpt = s.reg 0xA02003 ∧ t.reg 0x701008 = 0 ∧
      t.cnt 0xE0B01A = s.cnt 0xE0B01A + 1 ∧ keepsBut [.flash, .regs, .counts] s t) ∧
  (∀ (s : State) (lost : Nat) (b : FBlock), s.running = true → bit (s.reg 0x701001) 0 = true → s.flash.recovering = true → s.flash.progs = [] →
    s.flash.inPage = [] → s.flash.journal = [] → s.accepts 3 s.flash.ckpt = true → s.flash.blocks = [(b.addr, b)] → b.free = false → b.retired = false →
    (∀ x ∈ s.flash.stored, x.block ≠ b.addr) →
    ∃ t, exec (.powerLossRecovery lost) s = .next t ∧ (t.fblock b.addr).free = true ∧ (t.fblock b.addr).erases = b.erases + 1 ∧
      t.cnt (if b.erasing = false ∧ s.flash.ckptSeq < b.opened then 0xE0B01B else 0xE0B01C) =
        s.cnt (if b.erasing = false ∧ s.flash.ckptSeq < b.opened then 0xE0B01B else 0xE0B01C) + 1 ∧
      t.cnt 0xE0B00A = s.cnt 0xE0B00A + 1 ∧ keepsBut [.flash, .regs, .counts] s t) ∧
  (∀ (s : State) (ch : Nat), s.running = true → ch < 32 → s.reg (0x700101 + ch) = 0 →
    ∃ t, exec (.flashChannelRetrain ch) s = .next t ∧ lk t.flash.trained ch = some s.now ∧ keepsBut [.flash] s t))

/-! ### The fabric -/

/-- R335, R341, R342: a port that is enabled starts training, one of kind 0 is disabled, and one whose kind changes trains again; block lock takes a training port to
securing, with this Molset's hello; a training limit takes it back to training until its attempts are used up, and then down; a lost lock or silence takes a securing or
an up port down the same way, and is counted in 0xE0C0:06. R345, R346: the hello of a peer that fits brings a securing port up, with the peer's node in its register, and
this Molset floods its link-state record; one that does not is refused with its reason. R340: a flit that is decoded, authentic and next in sequence is taken and counted;
one that is not asks for a replay once, and trains the link again when a frame has had too many. A retry request has the flits that are not acknowledged sent again. Shown
to complete here: portKind, pcsLock, trainingTimeout, lockLoss, silenceTimeout, hello, flit, retryRequest. -/
def Obligations.PortsHellosAndFlits : Prop :=
  ((∀ (s : State) (port kind : Nat), s.running = true → port < 16 → 1 ≤ kind → kind ≤ 3 → (s.portState port = 0 ∨ 4 ≤ s.portState port) →
    ∃ t, exec (.portKind port kind) s = .next t ∧ t.reg (0x800301 + port) = kind ∧ t.portState port = 1 ∧ (t.port port).keySet = false ∧
      keepsBut [.regs, .ports] s t ∧ regsBut [0x800301 + port, 0x800101 + port] s t) ∧
  (∀ (s : State) (port : Nat), s.running = true → port < 16 →
    ∃ t, exec (.portKind port 0) s = .next t ∧ t.reg (0x800301 + port) = 0 ∧ t.portState port = 0 ∧
      keepsBut [.regs, .ports, .net, .counts] s t ∧ regsBut [0x800301 + port, 0x800101 + port] s t) ∧
  (∀ (s : State) (port kind : Nat), s.running = true → port < 16 → 1 ≤ kind → kind ≤ 3 → 1 ≤ s.portState port → s.portState port ≤ 3 →
    s.reg (0x800301 + port) ≠ kind →
    ∃ t, exec (.portKind port kind) s = .next t ∧ t.reg (0x800301 + port) = kind ∧ t.portState port = 1 ∧ (t.port port).keySet = false ∧
      t.cnt 0xE0C005 = s.cnt 0xE0C005 + 1 ∧ keepsBut [.regs, .ports, .net, .counts, .fault] s t ∧ regsBut [0x800301 + port, 0x800101 + port] s t) ∧
  (∀ (s : State) (port kind : Nat), s.running = true → port < 16 → 1 ≤ kind → kind ≤ 3 → 1 ≤ s.portState port → s.portState port ≤ 3 →
    s.reg (0x800301 + port) = kind →
    ∃ t, exec (.portKind port kind) s = .next t ∧ t.reg (0x800301 + port) = kind ∧ keepsBut [.regs] s t ∧ regsBut [0x800301 + port] s t) ∧
  (∀ (s : State) (port : Nat), s.running = true → port < 16 → s.portState port = 1 →
    ∃ t, exec (.pcsLock port) s = .next t ∧ t.portState port = 2 ∧ (t.port port).hello = some (s.ownHello port) ∧
      keepsBut [.regs, .ports] s t ∧ regsBut [0x800101 + port] s t) ∧
  (∀ (s : State) (port : Nat), s.running = true → port < 16 → s.portState port = 1 →
    ∃ t, exec (.trainingTimeout port) s = .next t ∧ t.portState port = (if (s.port port).attempts < s.reg 0x801005 then 1 else 4) ∧
      t.cnt 0xE0C006 = s.cnt 0xE0C006 + 1 ∧ ((s.port port).attempts < s.reg 0x801005 → (t.port port).attempts = (s.port port).attempts + 1) ∧
      keepsBut [.regs, .ports, .counts, .fault, .net, .mgmtOut] s t ∧ regsBut [0x800101 + port] s t) ∧
  (∀ (s : State) (port : Nat), s.running = true → port < 16 → (s.portState port = 2 ∨ s.portState port = 3) →
    ∃ t, exec (.lockLoss port) s = .next t ∧ exec (.silenceTimeout port) s = .next t ∧
      t.portState port = (if (s.port port).attempts < s.reg 0x801005 then 1 else 4) ∧ (t.port port).keySet = false ∧
      t.cnt 0xE0C006 = s.cnt 0xE0C006 + 1 ∧ (s.portState port = 3 → t.net.ownSeq = s.net.ownSeq + 1) ∧
      keepsBut [.regs, .ports, .counts, .fault, .net, .mgmtOut] s t ∧ regsBut [0x800101 + port] s t)) ∧
  ((∀ (s : State) (port : Nat) (h : Hello), s.running = true → port < 16 → s.portState port = 2 → (s.port port).keySet = true → s.helloReason port h = 0 →
    ∃ t, exec (.hello port h) s = .next t ∧ t.portState port = 3 ∧ t.reg (0x800201 + port) = peerWord h.node h.port 0 ∧ (t.port port).peer = some h.node ∧
      (t.port port).attempts = 0 ∧ t.net.ownSeq = s.net.ownSeq + 1 ∧ t.net.ownTick = s.now ∧ s.cnt 0xE0C008 + 1 ≤ t.cnt 0xE0C008 ∧
      keepsBut [.regs, .ports, .net, .counts, .sec, .free] s t) ∧
  (∀ (s : State) (port r : Nat) (h : Hello), s.running = true → port < 16 → s.portState port = 2 → (s.port port).keySet = true → s.helloReason port h = r →
    r ≠ 0 →
    ∃ t, exec (.hello port h) s = .next t ∧ t.portState port = 5 ∧ t.reg (0x800201 + port) = peerWord h.node h.port r ∧
      t.cnt 0xE0C007 = s.cnt 0xE0C007 + 1 ∧ keepsBut [.regs, .ports, .counts] s t ∧ regsBut [0x800101 + port, 0x800201 + port] s t ∧
      countsBut [0xE0C007, 0xE0C01E] s t)) ∧
  ((∀ (s : State) (port : Nat) (f : Flit), s.running = true → port < 16 → (s.portState port = 2 ∨ s.portState port = 3) → (s.port port).keySet = true →
    f.fecOk = true → f.tagOk = true → f.seq = (s.port port).rxSeq →
    ∃ t, exec (.flit port f) s = .next t ∧ (t.port port).rxSeq = ((s.port port).rxSeq + 1) % 4096 ∧ (t.port port).rxDrop = false ∧
      (t.port port).held = heldAfter (s.port port) (f.ack + 1) ∧ (t.port port).credits = (s.port port).addCredits f.creditBuf f.credits ∧
      t.cnt 0xE0C002 = s.cnt 0xE0C002 + 1 ∧ keepsBut [.ports, .counts] s t ∧ countsBut [0xE0C002] s t) ∧
  (∀ (s : State) (port : Nat) (f : Flit), s.running = true → port < 16 → (s.portState port = 2 ∨ s.portState port = 3) → (s.port port).keySet = true →
    f.fecOk = false ∨ (f.tagOk = false ∧ f.corrected = true) ∨ (f.tagOk = true ∧ f.seq ≠ (s.port port).rxSeq) → (s.port port).rxDrop = false →
    (s.port port).retries + 1 ≤ s.reg 0x801003 →
    ∃ t, exec (.flit port f) s = .next t ∧ t.port port = { s.port port with rxDrop := true, retries := (s.port port).retries + 1 } ∧
      t.cnt 0xE0C003 = s.cnt 0xE0C003 + 1 ∧ keepsBut [.ports, .counts, .fault] s t ∧ countsBut [0xE0C003] s t) ∧
  (∀ (s : State) (port : Nat) (f : Flit), s.running = true → port < 16 → (s.portState port = 2 ∨ s.portState port = 3) → (s.port port).keySet = true →
    f.fecOk = false ∨ (f.tagOk = false ∧ f.corrected = true) ∨ (f.tagOk = true ∧ f.seq ≠ (s.port port).rxSeq) → (s.port port).rxDrop = false →
    s.reg 0x801003 < (s.port port).retries + 1 →
    ∃ t, exec (.flit port f) s = .next t ∧ t.portState port = 1 ∧ t.cnt 0xE0C003 = s.cnt 0xE0C003 + 1 ∧ t.cnt 0xE0C005 = s.cnt 0xE0C005 + 1 ∧
      keepsBut [.ports, .counts, .fault, .regs, .net] s t ∧ regsBut [0x800101 + port] s t) ∧
  (∀ (s : State) (port : Nat) (f : Flit), s.running = true → port < 16 → (s.portState port = 2 ∨ s.portState port = 3) → (s.port port).keySet = true →
    f.fecOk = false ∨ (f.tagOk = false ∧ f.corrected = true) ∨ (f.tagOk = true ∧ f.seq ≠ (s.port port).rxSeq) → (s.port port).rxDrop = true →
    exec (.flit port f) s = .next s) ∧
  (∀ (s : State) (port seq : Nat), s.running = true → port < 16 → (s.portState port = 2 ∨ s.portState port = 3) →
    ∃ t, exec (.retryRequest port seq) s = .next t ∧ (t.port port).held = heldAfter (s.port port) seq ∧
      (t.port port).sent = (s.port port).sent + heldAfter (s.port port) seq ∧
      t.cnt 0xE0C001 = s.cnt 0xE0C001 + heldAfter (s.port port) seq ∧ keepsBut [.ports, .counts] s t ∧ countsBut [0xE0C001] s t))

/-- R347, R348, R349: a new or newer link-state record of another Molset is kept and flooded, one that is not newer is dropped, and a Molset takes over a record under its
own ID that it does not remember; a Molset floods its own record again after 0x8020:02 ticks; a record that is four of those old goes; a recompute puts the routes found
into the route table, and 0xFF for every node without one. Shown to complete here: linkStateRecord, linkStateRefresh, linkStateExpiry, routeRecompute. -/
def Obligations.RoutesAreLearned : Prop :=
  (∀ (s : State) (port : Nat) (r h : LinkRec) (k : Nat), s.running = true → port < 16 → s.portState port = 3 → r.origin ≠ s.node →
    s.net.lsdb.find? (fun x => x.1.origin == r.origin) = some (h, k) → h.digest = r.digest → h.seq < r.seq →
    ∃ t, exec (.linkStateRecord port r) s = .next t ∧ (r, s.now) ∈ t.net.lsdb ∧ (∀ x ∈ t.net.lsdb, x.1.origin = r.origin → x.1 = r) ∧ t.net.dirty = true ∧
      t.cnt 0xE0C008 = s.cnt 0xE0C008 + 1 ∧ keepsBut [.net, .counts] s t ∧ countsBut [0xE0C008] s t) ∧
  (∀ (s : State) (port : Nat) (r : LinkRec), s.running = true → port < 16 → s.portState port = 3 → r.origin ≠ s.node →
    s.net.lsdb.find? (fun x => x.1.origin == r.origin) = none →
    ∃ t, exec (.linkStateRecord port r) s = .next t ∧ (r, s.now) ∈ t.net.lsdb ∧ t.net.dirty = true ∧
      t.cnt 0xE0C008 = s.cnt 0xE0C008 + 1 ∧ keepsBut [.net, .counts] s t ∧ countsBut [0xE0C008] s t) ∧
  (∀ (s : State) (port : Nat) (r h : LinkRec) (k : Nat), s.running = true → port < 16 → s.portState port = 3 → r.origin ≠ s.node →
    s.net.lsdb.find? (fun x => x.1.origin == r.origin) = some (h, k) → h.digest = r.digest → r.seq ≤ h.seq →
    exec (.linkStateRecord port r) s = .next s) ∧
  (∀ (s : State) (port : Nat) (r : LinkRec), s.running = true → port < 16 → s.portState port = 3 → r.origin = s.node → r.digest = s.blob 0xA00005 →
    s.net.ownSeq ≤ r.seq →
    ∃ t, exec (.linkStateRecord port r) s = .next t ∧ t.net.ownSeq = r.seq + 1 ∧ t.cnt 0xE0C008 = s.cnt 0xE0C008 + 1 ∧
      keepsBut [.net, .counts] s t ∧ countsBut [0xE0C008] s t) ∧
  (∀ s : State, s.running = true → s.net.ownTick + s.reg 0x802002 ≤ s.now →
    ∃ t, exec .linkStateRefresh s = .next t ∧ t.net.ownSeq = s.net.ownSeq + 1 ∧ t.net.ownTick = s.now ∧ t.cnt 0xE0C008 = s.cnt 0xE0C008 + 1 ∧
      keepsBut [.net, .counts] s t ∧ countsBut [0xE0C008] s t) ∧
  (∀ (s : State) (x : LinkRec × Nat), s.running = true → x ∈ s.net.lsdb → x.2 + 4 * s.reg 0x802002 ≤ s.now →
    ∃ t, exec (.linkStateExpiry x.1.origin) s = .next t ∧ x ∉ t.net.lsdb ∧ t.net.dirty = true ∧ keepsBut [.net] s t) ∧
  (∀ s : State, s.running = true → s.net.dirty = true →
    ∃ t, exec .routeRecompute s = .next t ∧ t.net.dirty = false ∧ t.cnt 0xE0C009 = s.cnt 0xE0C009 + 1 ∧
      (∀ n < 4096, (∀ r ∈ s.routes, r.1 ≠ n) → t.reg (0x805000 + n) = 0xFF) ∧
      (∀ (a b : List (Nat × Nat)) (r : Nat × Nat), s.routes = a ++ r :: b → r.1 < 4096 → (∀ q ∈ b, q.1 ≠ r.1) → t.reg (0x805000 + r.1) = r.2) ∧
      keepsBut [.regs, .net, .counts, .time] s t ∧ countsBut [0xE0C009, 0xE0C00B] s t)

/-- R350, R352, R354, R355, R371, R372, R395: the next packet of a source and class is taken, and an acknowledgement is owed; a request whose name was served is
discarded, a role-routed packet of an old epoch is bounced and one of an epoch ahead is held; one ahead of its sequence is held; an acknowledgement releases what it
covers. A packet for another node goes on over the port of its route with one hop more, unless its hops are used up or it has no route; an acknowledgement that found no
packet to travel with goes alone; a packet that is not acknowledged is sent again. R372, R374: a bounce of a packet counts against it; one with reason 2 has it sent again
after the next tick, any other routes it again, with reason 3 to the node that it names; at 0x8040:04 bounces the target is reported, a memory operation completes as dead
and another packet is tried once a tick. A packet of an epoch ahead is held for two ticks and then bounced with reason 2. R362: an operation to a dead target completes
with status 5. Shown to complete here: packet, ackDelay, resend, deadTarget, bounce, behindHoldExpiry. -/
def Obligations.PacketsTravelAndBounce : Prop :=
  ((∀ (s : State) (p : Packet), s.running = true → p.dst = s.node → p.kind ≠ 8 → p.seq = s.rxTop p.src p.cls + 1 → s.net.rxHeld = [] →
    p.roleRouted = false ∨ p.epoch = s.epoch →
    ∃ t, exec (.packet p none) s = .next t ∧ t.rxTop p.src p.cls = p.seq ∧ (p.src, p.cls) ∈ t.net.owed ∧ keepsBut [.net, .ports, .sched, .regs, .counts] s t ∧
      (s.net.egress = [] → keepsBut [.net] s t)) ∧
  (∀ (s : State) (p : Packet) (n : Nat × Nat), s.running = true → p.dst = s.node → p.kind ≠ 8 → p.seq = s.rxTop p.src p.cls + 1 → s.net.rxHeld = [] →
    p.roleRouted = false ∨ p.epoch = s.epoch → (∀ x ∈ s.fault.served, x.1 = n → x.2 + s.reg 0x90000B < s.ftick) →
    ∃ t, exec (.packet p (some n)) s = .next t ∧ (n, s.ftick) ∈ t.fault.served ∧ t.rxTop p.src p.cls = p.seq ∧
      keepsBut [.net, .ports, .sched, .regs, .counts, .fault] s t) ∧
  (∀ (s : State) (p : Packet) (n : Nat × Nat) (k : Nat), s.running = true → p.dst = s.node → p.kind ≠ 8 → p.seq = s.rxTop p.src p.cls + 1 → s.net.rxHeld = [] →
    p.roleRouted = false ∨ p.epoch = s.epoch → (n, k) ∈ s.fault.served → s.ftick ≤ k + s.reg 0x90000B →
    ∃ t, exec (.packet p (some n)) s = .next t ∧ t.cnt 0xE0D010 = s.cnt 0xE0D010 + 1 ∧ t.rxTop p.src p.cls = p.seq ∧ keepsBut [.net, .ports, .sched, .regs, .counts] s t) ∧
  (∀ (s : State) (p : Packet) (name : Option (Nat × Nat)), s.running = true → p.dst = s.node → p.kind ≠ 8 → p.seq = s.rxTop p.src p.cls + 1 → s.net.rxHeld = [] →
    p.roleRouted = true → p.epoch + 1 < s.epoch →
    ∃ t, exec (.packet p name) s = .next t ∧ t.cnt 0xE0C018 = s.cnt 0xE0C018 + 1 ∧ t.rxTop p.src p.cls = p.seq ∧
      t.hasSent p.src 7 (.bounce { src := s.node, cls := p.cls, reason := 1, epoch := s.epoch, tag := p.tag, seq := p.seq, redirect := 0xFFFF }) ∧
      keepsBut [.net, .ports, .sched, .regs, .counts] s t) ∧
  (∀ (s : State) (p : Packet) (name : Option (Nat × Nat)), s.running = true → p.dst = s.node → p.kind ≠ 8 → p.seq = s.rxTop p.src p.cls + 1 → s.net.rxHeld = [] →
    p.roleRouted = true → s.epoch < p.epoch →
    ∃ t, exec (.packet p name) s = .next t ∧ (p, s.ftick) ∈ t.net.epochHeld ∧ t.rxTop p.src p.cls = p.seq ∧ keepsBut [.net, .ports, .sched, .regs, .counts] s t) ∧
  (∀ (s : State) (p : Packet) (name : Option (Nat × Nat)), s.running = true → p.dst = s.node → p.kind ≠ 8 → s.rxTop p.src p.cls + 1 < p.seq →
    (∀ q ∈ s.net.rxHeld, q.seq ≠ p.seq) → s.net.rxHeld.length < s.reg 0x803005 →
    ∃ t, exec (.packet p name) s = .next t ∧ p ∈ t.net.rxHeld ∧ (p.src, p.cls) ∈ t.net.owed ∧ t.rxTop p.src p.cls = s.rxTop p.src p.cls ∧
      keepsBut [.net, .ports, .sched, .regs, .counts] s t) ∧
  (∀ (s : State) (p : Packet) (name : Option (Nat × Nat)), s.running = true → p.dst = s.node → p.kind = 8 →
    ∃ t, exec (.packet p name) s = .next t ∧ t.net.owed = s.net.owed ∧
      (∀ x ∈ t.net.unacked, x.dst = p.src → x.cls = p.cls → x.seq ≤ p.ack → ∃ op, x.msg = .memOp op) ∧ keepsBut [.net, .ports, .sched, .regs, .counts] s t) ∧
  (∀ (s : State) (p : Packet) (name : Option (Nat × Nat)), s.running = true → p.dst = s.node → p.kind ≠ 8 → p.seq ≤ s.rxTop p.src p.cls →
    ∃ t, exec (.packet p name) s = .next t ∧ t.cnt 0xE0C00D = s.cnt 0xE0C00D + 1 ∧ t.rxTop p.src p.cls = s.rxTop p.src p.cls ∧
      keepsBut [.net, .ports, .sched, .regs, .counts] s t) ∧
  (∀ (s : State) (p : Packet) (name : Option (Nat × Nat)), s.running = true → p.dst ≠ s.node → p.hops + 1 < s.reg 0x802001 → s.usable p.dst = true →
    ∃ t, exec (.packet p name) s = .next t ∧ t.net.forwarded = s.net.forwarded ++ [(s.reg (0x805000 + p.dst), { p with hops := p.hops + 1 })] ∧
      (∃ e, t.net.egress = s.net.egress ++ [e] ∧ e.port = s.reg (0x805000 + p.dst) ∧ e.src = p.src ∧ e.dst = p.dst ∧ e.cls = p.cls ∧ e.seq = p.seq ∧
        e.hops = p.hops + 1 ∧ e.flits = (32 + p.len + 231) / 232) ∧ t.net.unacked = s.net.unacked ∧ keepsBut [.net] s t) ∧
  (∀ (s : State) (p : Packet) (name : Option (Nat × Nat)), s.running = true → p.dst ≠ s.node → p.hops + 1 < s.reg 0x802001 → s.usable p.dst = false →
    ∃ t, exec (.packet p name) s = .next t ∧ t.cnt 0xE0C00B = s.cnt 0xE0C00B + 1 ∧ keepsBut [.counts] s t ∧ countsBut [0xE0C00B] s t) ∧
  (∀ (s : State) (p : Packet) (name : Option (Nat × Nat)), s.running = true → p.dst ≠ s.node → s.reg 0x802001 ≤ p.hops + 1 →
    ∃ t, exec (.packet p name) s = .next t ∧ t.cnt 0xE0C00A = s.cnt 0xE0C00A + 1 ∧ keepsBut [.counts] s t ∧ countsBut [0xE0C00A] s t) ∧
  (∀ (s : State) (src cls : Nat), s.running = true → (src, cls) ∈ s.net.owed →
    ∃ t, exec (.ackDelay src cls) s = .next t ∧ (src, cls) ∉ t.net.owed ∧ t.net.ackOnly = s.net.ackOnly ++ [(src, cls, s.rxTop src cls)] ∧
      keepsBut [.net, .counts] s t ∧ countsBut [0xE0C00B] s t) ∧
  (∀ (s : State) (x : Sent), s.running = true → s.sentOf x.dst x.cls x.seq = some x → s.opOf x = none →
    ∃ t, exec (.resend x.dst x.cls x.seq) s = .next t ∧
      t.sentOf x.dst x.cls x.seq = some { x with interval := min (2 * x.interval) (s.reg 0x803003) } ∧
      t.cnt 0xE0C00C = s.cnt 0xE0C00C + 1 ∧ keepsBut [.net, .counts] s t ∧ countsBut [0xE0C00C, 0xE0C00B] s t) ∧
  (∀ (s : State) (x : Sent) (o : OpenOp), s.running = true → s.sentOf x.dst x.cls x.seq = some x → s.opOf x = some o → s.alive x.dst = true →
    ∃ t, exec (.resend x.dst x.cls x.seq) s = .next t ∧ t.net.unacked = s.net.unacked ∧
      t.cnt 0xE0C00C = s.cnt 0xE0C00C + 1 ∧ keepsBut [.net, .counts] s t ∧ countsBut [0xE0C00C, 0xE0C00B] s t) ∧
  (∀ (s : State) (x : Sent) (o : OpenOp), s.running = true → s.sentOf x.dst x.cls x.seq = some x → s.opOf x = some o → s.alive x.dst = false →
    ∃ t, exec (.resend x.dst x.cls x.seq) s = .next t ∧ (∃ d ∈ t.net.doneOps, d.tag = o.op.tag ∧ d.status = 7 ∧ d.poison = true) ∧
      t.cnt 0xE0C012 = s.cnt 0xE0C012 + 1 ∧ keepsBut [.net, .counts, .fault, .mgmtOut] s t)) ∧
  ((∀ (s : State) (b : Bounce) (x : Sent), s.running = true → s.sentOf b.src b.cls b.seq = some x → x.bounces + 1 < s.reg 0x804004 → b.reason = 2 →
    ∃ t, exec (.bounce b) s = .next t ∧ t.sentOf b.src b.cls b.seq = some { x with bounces := x.bounces + 1 } ∧ (x.dst, x.cls, x.seq) ∈ t.net.resendNext ∧
      keepsBut [.net] s t) ∧
  (∀ (s : State) (b : Bounce) (x : Sent), s.running = true → s.sentOf b.src b.cls b.seq = some x → x.bounces + 1 < s.reg 0x804004 → b.reason ≠ 2 →
    x.role = false → carriesData x.msg = false → (b.reason ≠ 3 ∨ b.redirect = 0xFFFF) →
    ∃ t, exec (.bounce b) s = .next t ∧ t.hasSent ((s.routeOf x.msg).getD x.dst) x.kind x.msg ∧ t.cnt 0xE0C019 = s.cnt 0xE0C019 + 1 ∧
      keepsBut [.net, .counts, .home] s t ∧ countsBut [0xE0C019, 0xE0C00B] s t) ∧
  (∀ (s : State) (b : Bounce) (x : Sent), s.running = true → s.sentOf b.src b.cls b.seq = some x → x.bounces + 1 < s.reg 0x804004 → b.reason = 3 →
    x.role = false → carriesData x.msg = false → b.redirect ≠ 0xFFFF →
    ∃ t, exec (.bounce b) s = .next t ∧ t.hasSent b.redirect x.kind x.msg ∧ t.cnt 0xE0C019 = s.cnt 0xE0C019 + 1 ∧
      keepsBut [.net, .counts, .home] s t ∧ countsBut [0xE0C019, 0xE0C00B] s t) ∧
  (∀ (s : State) (b : Bounce) (x : Sent), s.running = true → s.sentOf b.src b.cls b.seq = some x → s.reg 0x804004 ≤ x.bounces + 1 → s.opOf x = none →
    ∃ t, exec (.bounce b) s = .next t ∧ (x.dst, x.cls, x.seq) ∈ t.net.resendNext ∧ t.cnt 0xE0C01B = s.cnt 0xE0C01B + 1 ∧
      keepsBut [.net, .counts, .fault, .mgmtOut] s t) ∧
  (∀ (s : State) (b : Bounce) (x : Sent) (o : OpenOp), s.running = true → s.sentOf b.src b.cls b.seq = some x → s.reg 0x804004 ≤ x.bounces + 1 →
    s.opOf x = some o →
    ∃ t, exec (.bounce b) s = .next t ∧ (∃ d ∈ t.net.doneOps, d.tag = o.op.tag ∧ d.status = 5 ∧ d.poison = true) ∧
      t.cnt 0xE0C01B = s.cnt 0xE0C01B + 1 ∧ t.cnt 0xE0C011 = s.cnt 0xE0C011 + 1 ∧ keepsBut [.net, .counts, .fault, .mgmtOut] s t) ∧
  (∀ (s : State) (p : Packet) (k : Nat), s.running = true → s.epoch < p.epoch → k + 2 ≤ s.ftick → s.net.epochHeld = [(p, k)] →
    ∃ t, exec (.behindHoldExpiry p.src p.cls p.seq) s = .next t ∧ t.net.epochHeld = [] ∧
      t.hasSent p.src 7 (.bounce { src := s.node, cls := p.cls, reason := 2, epoch := s.epoch, tag := p.tag, seq := p.seq, redirect := 0xFFFF }) ∧
      t.cnt 0xE0C01A = s.cnt 0xE0C01A + 1 ∧ t.cnt 0xE0C018 = s.cnt 0xE0C018 + 1 ∧ keepsBut [.net, .counts] s t) ∧
  (∀ (s : State) (dst tag : Nat) (o : OpenOp), s.running = true → s.net.ops.find? (fun x => x.op.tag == tag && x.op.dst == dst) = some o →
    ∃ t, exec (.deadTarget dst tag) s = .next t ∧ t.net.doneOps = s.net.doneOps ++ [⟨o.op.tag, 5, true, List.replicate o.op.size 0xFF#8⟩] ∧
      (∀ x ∈ t.net.ops, x.op.tag ≠ o.op.tag) ∧ t.cnt 0xE0C011 = s.cnt 0xE0C011 + 1 ∧ keepsBut [.net, .counts, .fault, .mgmtOut] s t))

/-- R359, R360: an operation that is allowed is counted and its request waits at the transport; one that is not completes at once with status 4, and one to an unreachable
target with status 7. R362: its response completes it, and a response to none is counted in 0xE0C0:14. Shown to complete here: memoryOpIssue, loadResponse, storeDone,
atomicResponse. -/
def Obligations.MemoryOperationsAreIssued : Prop :=
  (∀ (s : State) (work : Nat) (engine role : Bool) (op : MemOp), s.running = true → op.src = s.node → (∀ o ∈ s.net.ops, o.op.tag ≠ op.tag) →
    s.opAllowed work engine op = true → s.alive op.dst = true →
    ∃ t o, exec (.memoryOpIssue work engine role op) s = .next t ∧ t.net.ops = s.net.ops ++ [o] ∧ o.op = op ∧ t.hasSent op.dst (opKind op.op) (.memOp op) ∧
      t.cnt 0xE0C00E = s.cnt 0xE0C00E + 1 ∧ keepsBut [.net, .counts] s t ∧ countsBut [0xE0C00E, 0xE0C00B] s t) ∧
  (∀ (s : State) (work : Nat) (engine role : Bool) (op : MemOp), s.running = true → op.src = s.node → (∀ o ∈ s.net.ops, o.op.tag ≠ op.tag) →
    s.opAllowed work engine op = false →
    ∃ t, exec (.memoryOpIssue work engine role op) s = .next t ∧ t.net.doneOps = s.net.doneOps ++ [⟨op.tag, 4, true, List.replicate op.size 0xFF#8⟩] ∧
      t.cnt 0xE0C010 = s.cnt 0xE0C010 + 1 ∧ keepsBut [.net, .counts] s t ∧ countsBut [0xE0C00E, 0xE0C010, 0xE1000F] s t) ∧
  (∀ (s : State) (work : Nat) (engine role : Bool) (op : MemOp), s.running = true → op.src = s.node → (∀ o ∈ s.net.ops, o.op.tag ≠ op.tag) →
    s.opAllowed work engine op = true → s.alive op.dst = false →
    ∃ t, exec (.memoryOpIssue work engine role op) s = .next t ∧ t.net.doneOps = s.net.doneOps ++ [⟨op.tag, 7, true, List.replicate op.size 0xFF#8⟩] ∧
      t.cnt 0xE0C00E = s.cnt 0xE0C00E + 1 ∧ t.cnt 0xE0C012 = s.cnt 0xE0C012 + 1 ∧ keepsBut [.net, .counts, .fault, .mgmtOut] s t) ∧
  (∀ (s : State) (o : OpenOp) (data : List Byte) (status : Nat), s.running = true →
    s.net.ops.find? (fun x => x.op.tag == o.op.tag && x.op.dst == o.op.dst) = some o →
    (o.op.op = 0 → ∃ t, exec (.loadResponse o.op.dst o.op.tag status data) s = .next t ∧ t.net.doneOps = s.net.doneOps ++ [⟨o.op.tag, status, status != 0, if status = 0 then data else List.replicate o.op.size 0xFF#8⟩] ∧
      (∀ x ∈ t.net.ops, x.op.tag ≠ o.op.tag) ∧ keepsBut [.net] s t) ∧
    (o.op.op = 8 → ∃ t, exec (.storeDone o.op.dst o.op.tag status) s = .next t ∧ t.net.doneOps = s.net.doneOps ++ [⟨o.op.tag, status, status != 0, if status = 0 then [] else List.replicate o.op.size 0xFF#8⟩] ∧
      (∀ x ∈ t.net.ops, x.op.tag ≠ o.op.tag) ∧ keepsBut [.net] s t) ∧
    (1 ≤ o.op.op → o.op.op ≤ 4 → ∃ t, exec (.atomicResponse o.op.dst o.op.tag status data) s = .next t ∧
      t.net.doneOps = s.net.doneOps ++ [⟨o.op.tag, status, status != 0, if status = 0 then data else List.replicate o.op.size 0xFF#8⟩] ∧ (∀ x ∈ t.net.ops, x.op.tag ≠ o.op.tag) ∧ keepsBut [.net] s t)) ∧
  (∀ (s : State) (src tag status : Nat) (data : List Byte), s.running = true → (∀ o ∈ s.net.ops, o.op.tag ≠ tag) →
    ∃ t, exec (.loadResponse src tag status data) s = .next t ∧ exec (.storeDone src tag status) s = .next t ∧
      exec (.atomicResponse src tag status data) s = .next t ∧ t.cnt 0xE0C014 = s.cnt 0xE0C014 + 1 ∧ keepsBut [.counts] s t ∧ countsBut [0xE0C014] s t)

/-- R296, R302, R356, R357, R358, R361, R471: at its target a load answers with the bytes of its address, or with status 1 if they cannot be read; a store writes its
bytes there and answers status 0, and an atomic answers with the old value and leaves the new one: the sum of an add, the swapped value of a compare that fits, the lesser
or the greater for a minimum or a maximum of its type; a NaN key is refused with status 6. An owner out of service, or one whose binding differs, is answered with status
3 and a range that is not its own with status 2; a write to a page in move waits. Shown to complete here: load, store, fetchAdd, compareSwap, atomicMin, atomicMax. -/
def Obligations.MemoryOperationsAtTheTarget : Prop :=
  (∀ (s : State) (op : MemOp) (bad again : Bool) (i : Instr), s.running = true → op.dst = s.node → opRow op bad again = some i → op.system = false →
    s.bindingDiffers op.tenant s.node = true →
    ∃ t, exec i s = .next t ∧ t.hasSent op.src (respKind op.op) (.memResp op.tag (respKind op.op) 3 (List.replicate (if op.op = 8 then 0 else op.size) 0xFF#8)) ∧
      t.cnt 0xE1000F = s.cnt 0xE1000F + 1 ∧ keepsBut [.net, .counts] s t) ∧
  (∀ (s : State) (op : MemOp) (bad again : Bool) (i : Instr), s.running = true → op.dst = s.node → opRow op bad again = some i →
    op.system = true ∨ s.bindingDiffers op.tenant s.node = false → s.rangeMoving (opSpace op) op.addr op.size = false →
    s.inService (opSpace op) = false ∨ s.owned (opSpace op) op.addr op.size = false →
    ∃ t, exec i s = .next t ∧ t.hasSent op.src (respKind op.op) (.memResp op.tag (respKind op.op) (if s.inService (opSpace op) = false then 3 else 2)
        (List.replicate (if op.op = 8 then 0 else op.size) 0xFF#8)) ∧ keepsBut [.net, .counts] s t) ∧
  (∀ (s : State) (op : MemOp) (i : Instr), s.running = true → op.dst = s.node → opRow op false false = some i → op.op ≠ 0 →
    op.system = true ∨ s.bindingDiffers op.tenant s.node = false → s.owned (opSpace op) op.addr op.size = true →
    s.rangeMoving (opSpace op) op.addr op.size = true →
    ∃ t, exec i s = .next t ∧ t.tier.waits = s.tier.waits ++ [{ tenant := opSpace op, addr := op.addr, data := [], host := none, peer := some op }] ∧
      t.cnt 0xE0A012 = s.cnt 0xE0A012 + 1 ∧ keepsBut [.tier, .counts] s t ∧ countsBut [0xE0A012] s t) ∧
  (∀ (s : State) (op : MemOp) (bad again : Bool), s.running = true → op.dst = s.node → op.op = 0 →
    op.system = true ∨ s.bindingDiffers op.tenant s.node = false → s.inService (opSpace op) = true → s.owned (opSpace op) op.addr op.size = true →
    s.poisoned (opSpace op) op.addr op.size = true ∨ (bad = true ∧ again = true) →
    ∃ t, exec (.load op bad again) s = .next t ∧ t.hasSent op.src 2 (.memResp op.tag 2 1 (List.replicate op.size 0xFF#8)) ∧
      t.cnt 0xE0C013 = s.cnt 0xE0C013 + 1 ∧ keepsBut [.net, .counts, .fault, .poison, .tier] s t) ∧
  (∀ (s : State) (op : MemOp) (bad again : Bool), s.running = true → op.dst = s.node → op.op = 0 →
    op.system = true ∨ s.bindingDiffers op.tenant s.node = false → s.inService (opSpace op) = true → s.owned (opSpace op) op.addr op.size = true →
    s.poisoned (opSpace op) op.addr op.size = false → bad = false ∨ again = false →
    ∃ t, exec (.load op bad again) s = .next t ∧ t.hasSent op.src 2 (.memResp op.tag 2 0 (s.load (opSpace op) op.addr op.size)) ∧
      keepsBut [.net, .counts, .fault] s t ∧ (bad = false → keepsBut [.net, .counts] s t)) ∧
  (∀ (s : State) (op : MemOp), s.running = true → s.memOk = true → op.dst = s.node → op.system = true ∨ s.bindingDiffers op.tenant s.node = false →
    s.inService (opSpace op) = true → 0 < op.size → s.owned (opSpace op) op.addr op.size = true → s.rangeMoving (opSpace op) op.addr op.size = false →
    s.poisoned (opSpace op) op.addr op.size = false → s.rangeFailed (opSpace op) op.addr op.size = false →
    (op.op = 8 → op.data.length = op.size → ∃ t, exec (.store op) s = .next t ∧ t.load (opSpace op) op.addr op.size = op.data ∧
       t.hasSent op.src 4 (.memResp op.tag 4 0 []) ∧ keepsBut [.mem, .poison, .tier, .fault, .net, .counts] s t) ∧
    (op.op = 1 → op.size = 8 → ∃ t, exec (.fetchAdd op) s = .next t ∧
       t.load (opSpace op) op.addr 8 = leBytes 8 (leNat (s.load (opSpace op) op.addr op.size) + leNat op.data) ∧
       t.hasSent op.src 6 (.memResp op.tag 6 0 (s.load (opSpace op) op.addr op.size)) ∧ s.cnt 0xE0C00F + 1 ≤ t.cnt 0xE0C00F ∧
       keepsBut [.mem, .poison, .tier, .fault, .net, .counts] s t) ∧
    (op.op = 2 → op.data.length = 2 * op.size → ∃ t, exec (.compareSwap op) s = .next t ∧
       t.load (opSpace op) op.addr op.size =
         (if s.load (opSpace op) op.addr op.size = op.data.take op.size then op.data.drop op.size else s.load (opSpace op) op.addr op.size) ∧
       t.hasSent op.src 6 (.memResp op.tag 6 0 (s.load (opSpace op) op.addr op.size)) ∧ keepsBut [.mem, .poison, .tier, .fault, .net, .counts] s t) ∧
    (op.op = 3 → op.ty ≤ 1 → op.data.length = op.size → ∃ t, exec (.atomicMin op) s = .next t ∧
       (op.ty = 0 → leNat (t.load (opSpace op) op.addr op.size) = min (leNat (s.load (opSpace op) op.addr op.size)) (leNat op.data)) ∧
       (op.ty = 1 → toInt 64 (leNat (t.load (opSpace op) op.addr op.size)) =
         min (toInt 64 (leNat (s.load (opSpace op) op.addr op.size))) (toInt 64 (leNat op.data))) ∧
       t.hasSent op.src 6 (.memResp op.tag 6 0 (s.load (opSpace op) op.addr op.size)) ∧ keepsBut [.mem, .poison, .tier, .fault, .net, .counts] s t) ∧
    (op.op = 4 → op.ty ≤ 1 → op.data.length = op.size → ∃ t, exec (.atomicMax op) s = .next t ∧
       (op.ty = 0 → leNat (t.load (opSpace op) op.addr op.size) = max (leNat (s.load (opSpace op) op.addr op.size)) (leNat op.data)) ∧
       (op.ty = 1 → toInt 64 (leNat (t.load (opSpace op) op.addr op.size)) =
         max (toInt 64 (leNat (s.load (opSpace op) op.addr op.size))) (toInt 64 (leNat op.data))) ∧
       t.hasSent op.src 6 (.memResp op.tag 6 0 (s.load (opSpace op) op.addr op.size)) ∧ keepsBut [.mem, .poison, .tier, .fault, .net, .counts] s t) ∧
    (op.op = 3 ∨ op.op = 4 → op.ty = 2 → op.data.length = op.size → isNaN (entryOfBytes op.data).score = true →
       ∃ t, exec (if op.op = 3 then .atomicMin op else .atomicMax op) s = .next t ∧ t.mem = s.mem ∧ t.cnt 0xE0C015 = s.cnt 0xE0C015 + 1 ∧
       t.hasSent op.src 6 (.memResp op.tag 6 6 (List.replicate op.size 0xFF#8)) ∧ keepsBut [.net, .counts] s t) ∧
    (op.op = 3 ∨ op.op = 4 → op.ty = 2 → op.data.length = op.size → isNaN (entryOfBytes op.data).score = false →
       ∃ t, exec (if op.op = 3 then .atomicMin op else .atomicMax op) s = .next t ∧
       t.load (opSpace op) op.addr op.size =
         (if isNaN (entryOfBytes (s.load (opSpace op) op.addr op.size)).score = true ∨
            (op.op = 3 ∧ entLt (entryOfBytes op.data) (entryOfBytes (s.load (opSpace op) op.addr op.size)) = true) ∨
            (op.op = 4 ∧ entLt (entryOfBytes (s.load (opSpace op) op.addr op.size)) (entryOfBytes op.data) = true)
          then op.data else s.load (opSpace op) op.addr op.size) ∧
       t.hasSent op.src 6 (.memResp op.tag 6 0 (s.load (opSpace op) op.addr op.size)) ∧ keepsBut [.mem, .poison, .tier, .fault, .net, .counts] s t))

/-- R367, R368, R369: a valid change becomes pending at its issuer, which asks its peers to acknowledge it; a change of a peer becomes pending and is acknowledged, one of
a later epoch is held, one that does not come out has the full map fetched, an old one is only acknowledged, a late one puts the Molset out of phase (R25), and a
withdrawal cancels; an issuer keeps acknowledgements and withdraws the change when one is missing 0x8040:03 ticks before; a peer that asks gets the whole map, and one
that fetches takes it with its epoch. Shown to complete here: mapChange, mapChangeReceive, fullMapFetchDone, mapAck, mapAckTimeout, mapFetchRequest. -/
def Obligations.MapChangesAreAgreed : Prop :=
  (∀ (s : State) (c : MapChange), s.running = true → s.changeFault { c with origin := 0 } = 0 →
    ∃ t, exec (.mapChange c) s = .next t ∧ t.map.pending = some { c with origin := 0 } ∧ t.map.own = true ∧ t.map.acks = [] ∧
      t.map.need = s.liveSet.filter (· != s.node) ∧ t.map.entries = s.map.entries ∧ t.reg 0x804005 = 1 ∧ t.reg 0x804006 = 0 ∧
      keepsBut [.regs, .blobs, .map, .net, .counts] s t ∧ regsBut [0x804005, 0x804006] s t) ∧
  (∀ (s : State) (c : MapChange) (f : Nat), s.running = true → s.changeFault { c with origin := 0 } = f → f ≠ 0 →
    ∃ t, exec (.mapChange c) s = .next t ∧ t.reg 0x804005 = 2 ∧ t.reg 0x804006 = f ∧ t.cnt 0xE0C017 = s.cnt 0xE0C017 + 1 ∧
      keepsBut [.regs, .blobs, .counts] s t ∧ regsBut [0x804005, 0x804006] s t ∧ countsBut [0xE0C017] s t) ∧
  (∀ (s : State) (src : Nat) (c : MapChange), s.running = true → src ≠ s.node → c.epoch = s.epoch + 1 → s.ftick < c.eff → s.map.pending = none →
    mapDigest (applyChange s.map.entries c.entries) = c.digest →
    ∃ t, exec (.mapChangeReceive src c) s = .next t ∧ t.map.pending = some c ∧ t.map.own = false ∧ t.reg 0x804005 = 1 ∧ t.hasSent src 0x13 (.mapAck c.epoch) ∧
      keepsBut [.regs, .map, .net, .counts] s t ∧ regsBut [0x804005] s t) ∧
  (∀ (s : State) (src : Nat) (c : MapChange), s.running = true → src ≠ s.node → s.epoch + 1 < c.epoch → s.ftick < c.eff → s.map.pending = none →
    (∀ d ∈ s.map.later, d.epoch ≠ c.epoch) →
    ∃ t, exec (.mapChangeReceive src c) s = .next t ∧ t.map = { s.map with later := s.map.later ++ [c] } ∧ t.hasSent src 0x13 (.mapAck c.epoch) ∧
      keepsBut [.map, .net, .counts] s t) ∧
  (∀ (s : State) (src : Nat) (c : MapChange), s.running = true → c.epoch = s.epoch + 1 → s.ftick < c.eff → s.map.pending = none →
    mapDigest (applyChange s.map.entries c.entries) ≠ c.digest →
    ∃ t, exec (.mapChangeReceive src c) s = .next t ∧ t.map = { s.map with fetching := true } ∧ t.cnt 0xE0C01C = s.cnt 0xE0C01C + 1 ∧
      t.hasSent src 0x12 .mapFetch ∧ keepsBut [.map, .net, .counts] s t) ∧
  (∀ (s : State) (src : Nat) (c : MapChange), s.running = true → src ≠ s.node → c.epoch ≤ s.epoch → c.entries ≠ [] ∨ c.eff ≠ 0 →
    ∃ t, exec (.mapChangeReceive src c) s = .next t ∧ t.hasSent src 0x13 (.mapAck c.epoch) ∧ keepsBut [.net, .counts] s t) ∧
  (∀ (s : State) (src : Nat) (c : MapChange), s.running = true → s.epoch < c.epoch → c.eff ≤ s.ftick → c.entries ≠ [] ∨ c.eff ≠ 0 →
    s.reg 0x200104 ≠ 4 →
    ∃ t, exec (.mapChangeReceive src c) s = .next t ∧ t.map = s.map ∧ t.cnt 0xE0100B = s.cnt 0xE0100B + 1 ∧ t.reg 0x200104 = 4 ∧
      keepsBut [.regs, .counts, .time, .net, .fault, .mgmtOut] s t ∧ regsBut [0x200104] s t) ∧
  (∀ (s : State) (src : Nat) (c p : MapChange), s.running = true → c.eff = 0 → c.entries = [] → s.map.pending = some p → p.epoch = c.epoch → p.origin = c.origin →
    ∃ t, exec (.mapChangeReceive src c) s = .next t ∧ t.map.pending = none ∧ t.reg 0x804005 = 3 ∧ t.cnt 0xE0C017 = s.cnt 0xE0C017 + 1 ∧
      keepsBut [.regs, .map, .counts] s t ∧ regsBut [0x804005] s t ∧ countsBut [0xE0C017] s t) ∧
  (∀ (s : State) (src : Nat) (c : MapChange), s.running = true → s.map.pending = some c → s.map.own = true → src ∈ s.map.need → src ∉ s.map.acks →
    ∃ t, exec (.mapAck src c.epoch) s = .next t ∧ t.map = { s.map with acks := s.map.acks ++ [src] } ∧ keepsBut [.map] s t) ∧
  (∀ (s : State) (c : MapChange) (n : Nat), s.running = true → s.map.pending = some c → s.map.own = true → c.origin = 0 →
    c.eff ≤ s.ftick + s.reg 0x804003 → n ∈ s.map.need → n ∉ s.map.acks → n ≠ s.node →
    ∃ t, exec .mapAckTimeout s = .next t ∧ t.map.pending = none ∧ t.reg 0x804005 = 3 ∧ t.cnt 0xE0C017 = s.cnt 0xE0C017 + 1 ∧
      t.hasSent n 0x12 (.mapChange (withdrawal c)) ∧ keepsBut [.regs, .map, .net, .counts] s t ∧ regsBut [0x804005] s t) ∧
  (∀ (s : State) (src : Nat), s.running = true → src ≠ s.node → s.alive src = true →
    ∃ t, exec (.mapFetchRequest src) s = .next t ∧ (∃ c, t.hasSent src 0x12 (.mapChange c) ∧ c.epoch = s.epoch ∧ c.entries = s.map.entries ∧
      c.digest = mapDigest s.map.entries) ∧ keepsBut [.net, .counts] s t) ∧
  (∀ (s : State) (src : Nat) (c : MapChange), s.running = true → s.map.fetching = true ∨ s.epoch < c.epoch → s.epoch ≤ c.epoch → s.alive src = true →
    mapDigest (applyChange [] c.entries) = c.digest →
    ∃ t, exec (.fullMapFetchDone src c) s = .next t ∧ t.map.entries = applyChange [] c.entries ∧ t.map.prev = s.map.entries ∧ t.epoch = c.epoch ∧
      t.map.fetching = false ∧ t.time.joining = false ∧ keepsBut [.regs, .blobs, .map, .net, .counts, .emb, .time] s t)

/-! ### Faults and spares -/

/-- R379, R381, R382: the arbiter and those that may take over keep a report of a subject without an open case, once whichever path it comes by, and others only note it;
at S+1 it opens the case, and names and asks witnesses where the code needs evidence; a backup that holds no decision in time runs the case itself. R380, R381: a node
that is asked becomes witness and probes the subject; the subject answers with its alignment state; an answer reaches the witness, a vote the arbiter; a vote that is
missing when votes are due counts as unreachable, or as not locked. Shown to complete here: faultReport, caseOpen, probeRequest, witnessProbe, probe, probeAnswer, vote,
votesDue, backupTakeover. -/
def Obligations.CasesAreOpenedAndVoted : Prop :=
  ((∀ (s : State) (f : FaultMsg) (i : Nat), s.running = true → f.subtype = 1 → f ∉ s.fault.seen → i < 4 → (s.deciders f.node)[i]? = some s.node →
    (∀ j < i, (s.deciders f.node)[j]? ≠ some s.node) → (∀ c ∈ s.fault.cases, c.node ≠ f.node) →
    ∃ t c, exec (.faultReport f) s = .next t ∧ t.fault.cases = s.fault.cases ++ [c] ∧ c.code = f.code ∧ c.node = f.node ∧ c.partKind = f.partKind ∧
      c.partNo = f.partNo ∧ c.s = f.s ∧ c.role = (if i = 0 then 0 else 1) ∧ c.rank = i ∧ c.st = 0 ∧ f ∈ t.fault.seen ∧ keepsBut [.fault] s t) ∧
  (∀ (s : State) (f : FaultMsg), s.running = true → f.subtype = 1 → f ∉ s.fault.seen →
    (∀ i < 4, (s.deciders f.node)[i]? ≠ some s.node) ∨
      s.fault.cases.any (fun c => c.role != 2 && c.node == f.node && c.partKind == f.partKind && c.partNo == f.partNo && c.st < 3) = true →
    ∃ t, exec (.faultReport f) s = .next t ∧ t.fault = { s.fault with seen := s.fault.seen ++ [f] } ∧ keepsBut [.fault] s t) ∧
  (∀ (s : State) (f : FaultMsg), s.running = true → f ∈ s.fault.seen → exec (.faultReport f) s = .next s) ∧
  (∀ (s : State) (c : Case), s.running = true → s.fault.cases = [c] → c.role = 0 → c.st = 0 → c.s + 1 ≤ s.ftick → evidence c.code = false →
    ∃ t, exec (.caseOpen c.num) s = .next t ∧ t.fault.cases = [{ c with st := 2, start := s.ftick }] ∧ t.cnt 0xE0D001 = s.cnt 0xE0D001 + 1 ∧
      t.reg 0x900003 = 1 ∧ keepsBut [.fault, .regs, .counts] s t ∧ regsBut [0x900003] s t ∧ countsBut [0xE0D001] s t) ∧
  (∀ (s : State) (c : Case), s.running = true → s.fault.cases = [c] → c.role = 0 → c.st = 0 → c.s + 1 ≤ s.ftick → evidence c.code = true →
    ∃ t, exec (.caseOpen c.num) s = .next t ∧ { c with st := 1, witnesses := s.witnesses c, start := s.ftick } ∈ t.fault.cases ∧
      (∀ w ∈ s.witnesses c, w ≠ s.node → t.hasSent w 0x14 (.fault (s.caseMsg c 2 0))) ∧ t.cnt 0xE0D001 = s.cnt 0xE0D001 + 1 ∧
      keepsBut [.fault, .regs, .counts, .net, .mgmtOut] s t ∧ regsBut [0x900003] s t) ∧
  (∀ (s : State) (c : Case), s.running = true → s.fault.cases = [c] → c.role = 1 → c.st = 0 → c.s + 2 + 4 * c.rank ≤ s.ftick → evidence c.code = false →
    ∃ t, exec (.backupTakeover c.num) s = .next t ∧ t.fault.cases = [{ c with role := 0, st := 2, start := s.ftick }] ∧
      t.cnt 0xE0D001 = s.cnt 0xE0D001 + 1 ∧ t.cnt 0xE0D005 = s.cnt 0xE0D005 + (if 2 ≤ c.rank then 1 else 0) ∧
      keepsBut [.fault, .regs, .counts] s t ∧ regsBut [0x900003] s t ∧ countsBut [0xE0D001, 0xE0D005] s t) ∧
  (∀ (s : State) (c : Case), s.running = true → s.fault.cases = [c] → c.role = 1 → c.st = 0 → c.s + 2 + 4 * c.rank ≤ s.ftick → evidence c.code = true →
    ∃ t, exec (.backupTakeover c.num) s = .next t ∧ { c with role := 0, st := 1, witnesses := s.witnesses c, start := s.ftick } ∈ t.fault.cases ∧
      (∀ w ∈ s.witnesses c, w ≠ s.node → t.hasSent w 0x14 (.fault (s.caseMsg c 2 0))) ∧ t.cnt 0xE0D001 = s.cnt 0xE0D001 + 1 ∧
      keepsBut [.fault, .regs, .counts, .net, .mgmtOut] s t ∧ regsBut [0x900003] s t)) ∧
  ((∀ (s : State) (f : FaultMsg), s.running = true → f.subtype = 2 → f ∉ s.fault.seen → (∀ c ∈ s.fault.cases, c.num ≠ f.case) →
    ∃ t c, exec (.probeRequest f) s = .next t ∧ t.fault.cases = s.fault.cases ++ [c] ∧ c.num = f.case ∧ c.node = f.node ∧ c.role = 2 ∧ c.st = 1 ∧
      c.reached = false ∧ c.start = s.ftick ∧ keepsBut [.fault] s t) ∧
  (∀ (s : State) (c : Case), s.running = true → s.fault.cases = [c] → c.role = 2 → c.st = 1 → c.node ≠ s.node →
    ∃ t, exec (.witnessProbe c.num) s = .next t ∧ t.hasSent c.node 0x14 (.fault (s.caseMsg c 3 0)) ∧ keepsBut [.net, .counts, .mgmtOut] s t) ∧
  (∀ (s : State) (f : FaultMsg), s.running = true → f.subtype = 3 → f.node = s.node → f.sender ≠ s.node →
    ∃ t, exec (.probe f) s = .next t ∧
      t.hasSent f.sender 0x14 (.fault { f with subtype := 4, sender := s.node, verdict := if s.reg 0x200104 = 2 then 2 else 3 }) ∧
      keepsBut [.net, .counts, .mgmtOut] s t) ∧
  (∀ (s : State) (f : FaultMsg) (c : Case), s.running = true → f.subtype = 4 → f.sender = f.node → s.fault.cases = [c] → c.num = f.case → c.role = 2 →
    c.st = 1 →
    ∃ t, exec (.probeAnswer f) s = .next t ∧ t.fault.cases = [{ c with reached := true, locked := f.verdict == 2 }] ∧ keepsBut [.fault] s t) ∧
  (∀ (s : State) (f : FaultMsg) (c : Case), s.running = true → f.subtype = 5 → s.fault.cases = [c] → c.num = f.case → c.role = 0 → c.st = 1 →
    f.sender ∈ c.witnesses → (∀ v ∈ c.votes, v.1 ≠ f.sender) →
    ∃ t, exec (.vote f) s = .next t ∧ t.fault.cases = [{ c with votes := c.votes ++ [(f.sender, f.verdict)] }] ∧ keepsBut [.fault] s t) ∧
  (∀ (s : State) (c : Case), s.running = true → s.fault.cases = [c] → c.role = 0 → c.st = 1 → votesTick c ≤ s.ftick →
    ∃ t x, exec (.votesDue c.num) s = .next t ∧ t.fault.cases = [x] ∧ x.st = 2 ∧ (∀ v ∈ c.votes, v ∈ x.votes) ∧
      (∀ w ∈ c.witnesses, (∀ v ∈ c.votes, v.1 ≠ w) → (w, if c.code = 3 then 3 else 0) ∈ x.votes) ∧ keepsBut [.fault] s t))

/-- R378, R381, R383: the arbiter decides a case with the verdict of its code and a tick at least 3 ahead, and counts the decision; a Molset keeps a decision whose tick
is to come and acknowledges it, takes a late one as stale (R25), stops at the one that fails it, and the arbiter keeps the acknowledgements. R385: a valid management copy
counts as the message, and one whose HMAC fails is dropped and counted. Shown to complete here: decide, decision, decisionAck, managementCopy. -/
def Obligations.CasesAreDecided : Prop :=
  (∀ (s : State) (c : Case), s.running = true → s.fault.cases = [c] → c.role = 0 → c.st = 2 → decideTick c ≤ s.ftick →
    ∃ t x, exec (.decide c.num) s = .next t ∧ t.fault.cases = [x] ∧ x.num = c.num ∧ x.st = 3 ∧ x.verdict = s.verdict c ∧
      x.d = max (effectTick c) (s.ftick + 3) ∧
      (∃ m ∈ t.fault.decisions, m.subtype = 6 ∧ m.case = c.num ∧ m.node = c.node ∧ m.verdict = s.verdict c ∧ m.d = max (effectTick c) (s.ftick + 3)) ∧
      (c.code, c.node, c.partNo, c.s) ∈ t.fault.past ∧ t.cnt 0xE0D002 = s.cnt 0xE0D002 + 1 ∧
      t.cnt 0xE0D003 = s.cnt 0xE0D003 + (if s.verdict c = 0 then 1 else 0) ∧ keepsBut [.fault, .map, .net, .regs, .counts, .mgmtOut] s t) ∧
  (∀ (s : State) (f : FaultMsg) (g : Option MapChange), s.running = true → f.subtype = 6 → f ∉ s.fault.seen → (f.verdict ≠ 3 ∨ f.node ≠ s.node) → s.ftick < f.d →
    f.sender ≠ s.node →
    ∃ t, exec (.decision f g) s = .next t ∧ t.fault.decisions = s.fault.decisions ++ [f] ∧ f ∈ t.fault.seen ∧
      t.hasSent f.sender 0x14 (.fault { f with subtype := 7, sender := s.node }) ∧
      (g = none → keepsBut [.fault, .net, .regs, .counts, .mgmtOut] s t ∧ regsBut [0x900003] s t) ∧
      keepsBut [.fault, .net, .regs, .counts, .mgmtOut, .map, .time] s t) ∧
  (∀ (s : State) (f : FaultMsg) (c : MapChange), s.running = true → f.subtype = 6 → f ∉ s.fault.seen → (f.verdict ≠ 3 ∨ f.node ≠ s.node) → s.ftick < f.d →
    c.epoch = s.epoch + 1 → s.ftick < c.eff → s.map.pending = none → mapDigest (applyChange s.map.entries c.entries) = c.digest →
    ∃ t, exec (.decision f (some c)) s = .next t ∧ t.map.pending = some c ∧ t.fault.decisions = s.fault.decisions ++ [f] ∧
      keepsBut [.fault, .net, .regs, .counts, .mgmtOut, .map] s t) ∧
  (∀ (s : State) (f : FaultMsg) (g : Option MapChange), s.running = true → f.subtype = 6 → f ∉ s.fault.seen → f.verdict = 3 → f.node = s.node →
    s.pwr.seqRank = 0 →
    ∃ t, exec (.decision f g) s = .next t ∧ t.reg 0xD00001 = 4 ∧ t.link.error = true ∧ t.pwr.source = 7 ∧ t.cnt 0xE0D012 = s.cnt 0xE0D012 + 1 ∧
      keepsBut [.regs, .counts, .link, .pwr, .mgmtOut, .fault] s t ∧ regsBut [0xC00003, 0xD00001] s t) ∧
  (∀ (s : State) (f : FaultMsg) (g : Option MapChange), s.running = true → f.subtype = 6 → f ∉ s.fault.seen → (f.verdict ≠ 3 ∨ f.node ≠ s.node) → f.d ≤ s.ftick →
    ∃ t, exec (.decision f g) s = .next t ∧ t.fault.decisions = s.fault.decisions ∧ t.cnt 0xE0100B = s.cnt 0xE0100B + 1 ∧ t.reg 0x200104 = 4 ∧
      keepsBut [.fault, .net, .regs, .counts, .mgmtOut, .time] s t) ∧
  (∀ (s : State) (f : FaultMsg) (c : Case), s.running = true → f.subtype = 7 → s.fault.cases = [c] → c.num = f.case → c.role = 0 → c.st = 3 →
    f.sender ∈ c.need → f.sender ∉ c.acks →
    ∃ t, exec (.decisionAck f) s = .next t ∧ t.fault.cases = [{ c with acks := c.acks ++ [f.sender] }] ∧ keepsBut [.fault] s t) ∧
  (∀ (s : State) (f : FaultMsg) (k : List Byte), s.running = true → s.sec.mgmtKey = some k → f.sender ≠ s.node →
    (f.subtype = 1 → ∃ t, exec (.managementCopy f (Config.hmac k (faultBytes f))) s = .next t ∧ exec (.faultReport f) s = .next t) ∧
    (f.subtype = 2 → ∃ t, exec (.managementCopy f (Config.hmac k (faultBytes f))) s = .next t ∧ exec (.probeRequest f) s = .next t) ∧
    (f.subtype = 5 → ∃ t, exec (.managementCopy f (Config.hmac k (faultBytes f))) s = .next t ∧ exec (.vote f) s = .next t) ∧
    (f.subtype = 6 → ∃ t, exec (.managementCopy f (Config.hmac k (faultBytes f))) s = .next t ∧ exec (.decision f none) s = .next t) ∧
    (f.subtype = 7 → ∃ t, exec (.managementCopy f (Config.hmac k (faultBytes f))) s = .next t ∧ exec (.decisionAck f) s = .next t) ∧
    (f.subtype = 3 → f.node = s.node → ∃ t, exec (.managementCopy f (Config.hmac k (faultBytes f))) s = .next t ∧
      (∃ m, m ∈ t.mgmtOut ∧ m.1 = { f with subtype := 4, sender := s.node, verdict := if s.reg 0x200104 = 2 then 2 else 3 }) ∧ keepsBut [.mgmtOut] s t)) ∧
  (∀ (s : State) (f : FaultMsg) (k : List Byte) (c : Case), s.running = true → s.sec.mgmtKey = some k → f.sender ≠ s.node → f.subtype = 4 → f.sender = f.node →
    s.fault.cases = [c] → c.num = f.case → c.role = 0 → c.st < 3 →
    ∃ t, exec (.managementCopy f (Config.hmac k (faultBytes f))) s = .next t ∧ t.fault.cases = [{ c with mgmt := true }] ∧ keepsBut [.fault] s t) ∧
  (∀ (s : State) (f : FaultMsg) (k mac : List Byte), s.running = true → s.sec.mgmtKey = some k → s.sec.mgmtOld = none → s.sec.mgmtNext = none →
    Config.hmac k (faultBytes f) ≠ mac →
    ∃ t, exec (.managementCopy f mac) s = .next t ∧ t.cnt 0xE0D006 = s.cnt 0xE0D006 + 1 ∧ keepsBut [.counts] s t ∧ countsBut [0xE0D006] s t)

/-- R386, R387: at the end of a window every part's score becomes three quarters of it, rounded down, plus the weights of the window's events, saturating; the next window
starts without events. R388, R390, R391: an operator's request to drain a tray is kept and raised against a node of the tray; a staged image ends the copy of a respare;
the arbiter answers a restored copy with a map change that names it; a sole copy that drains leaves the entry; an image from flash is staged, and the records after its
fold are asked for; without a good one the shard is lost. Shown to complete here: scoreWindow, drainRequest, respareImageDone, restoreReady, restoreFromFlash. -/
def Obligations.ScoresDrainsAndRespares : Prop :=
  (∀ s : State, s.running = true → s.fault.windowStart + s.reg 0x902001 ≤ s.ftick →
    ∃ t, exec .scoreWindow s = .next t ∧ t.fault.events = [] ∧ t.fault.windowStart = s.ftick ∧
      (∀ p ∈ scoredParts, ∀ k, scoreKey p.1 p.2 = some k →
        t.reg k = min (3 * s.reg k / 4 + (match s.fault.events.find? (fun e => e.1 == p.1 * 4096 + p.2) with | some e => e.2.2 | none => 0)) (2 ^ 32 - 1)) ∧
      (∀ p ∈ scoredParts, ∀ k, scoreKey p.1 p.2 = some k → t.reg k ≤ t.reg 0x902004 ∨ t.reg k = 0) ∧
      keepsBut [.fault, .regs, .counts, .net, .mgmtOut] s t) ∧
  ((∀ (s : State) (tray : Nat) (e : MapEntry), s.running = true → tray < 65536 → s.map.entries.find? (fun e => e.kind == 1 && e.object == tray) = some e →
    ∃ t, exec (.drainRequest tray) s = .next t ∧ t.reg 0x900008 = tray ∧
      (∀ d ∈ s.arbiters e.a, d ≠ s.node → ∃ m, t.hasSent d 0x14 (.fault m) ∧ m.subtype = 1 ∧ m.code = 9 ∧ m.node = e.a ∧ m.partKind = partTray ∧
        m.partNo = tray % 4096) ∧ keepsBut [.regs, .fault, .net, .counts, .mgmtOut] s t ∧ regsBut [0x900008] s t) ∧
  (∀ (s : State) (x : Idx) (r : Respare) (h : Thatch), s.running = true → s.findIdx r.tenant r.index = some x → h ∈ x.thatches → h.im.shard = r.shard →
    h.st = 1 → r ∈ s.fault.respares → r.y = s.node → r.restore = false →
    ∃ t, exec (.respareImageDone r.tenant r.index r.shard) s = .next t ∧ { r with staged := true } ∈ t.fault.respares ∧ keepsBut [.fault] s t) ∧
  (∀ (s : State) (f : FaultMsg) (e : MapEntry), s.running = true → f.subtype = 10 → f ∉ s.fault.seen → s.map.pending = none → s.map.later = [] →
    idxShard s.map.entries e.tenant e.object e.shard = some e → e.a ≠ 0xFFFF → e.b = 0xFFFF → nodeState s.map.entries e.a = 1 → f.sender ≠ e.a →
    f.sender ≠ 0xFFFF → (s.deciders f.sender).head? = some s.node →
    ∃ t c, exec (.restoreReady f e.tenant e.object e.shard) s = .next t ∧ t.map.pending = some c ∧ c.entries = [{ e with b := f.sender }] ∧
      c.epoch = s.epoch + 1 ∧ c.eff = max (f.detail + 4) (s.ftick + 2) ∧ c.origin = 1 ∧ keepsBut [.fault, .map, .net, .regs, .counts] s t) ∧
  (∀ (s : State) (f : FaultMsg) (e : MapEntry), s.running = true → f.subtype = 10 → f ∉ s.fault.seen → s.map.pending = none → s.map.later = [] →
    idxShard s.map.entries e.tenant e.object e.shard = some e → e.a ≠ 0xFFFF → e.b = 0xFFFF → nodeState s.map.entries e.a ≠ 1 → f.sender ≠ e.a →
    f.sender ≠ 0xFFFF → (s.deciders f.sender).head? = some s.node →
    ∃ t c, exec (.restoreReady f e.tenant e.object e.shard) s = .next t ∧ t.map.pending = some c ∧ c.entries.head? = some { e with a := f.sender, b := 0xFFFF } ∧
      c.epoch = s.epoch + 1 ∧ c.eff = max (f.detail + 4) (s.ftick + 2) ∧ c.origin = 1 ∧ keepsBut [.fault, .map, .net, .regs, .counts] s t) ∧
  (∀ (s : State) (x : Idx) (r : Respare) (im : Image), s.running = true → r ∈ s.fault.respares → r.y = s.node → r.restore = true →
    s.findIdx r.tenant r.index = some x → im.shard = r.shard → im.digest = Config.sha256 (imageBody im) → x.pendSeals = [] → x.seqr.waitUpd = [] →
    ∃ t, exec (.restoreFromFlash r.tenant r.index r.shard (some im)) s = .next t ∧ { r with staged := true } ∈ t.fault.respares ∧
      t.cnt 0xE0D00A = s.cnt 0xE0D00A + 1 ∧ t.reg (pagedKey 0x4045 x.slot) = im.fold ∧
      keepsBut [.idx, .fault, .net, .regs, .counts, .tier, .mem, .poison, .flash, .ctl, .builds, .rings] s t) ∧
  (∀ (s : State) (x : Idx) (r : Respare) (im : Image), s.running = true → r ∈ s.fault.respares → r.y = s.node → r.restore = true →
    s.findIdx r.tenant r.index = some x → im.shard ≠ r.shard ∨ im.digest ≠ Config.sha256 (imageBody im) → (r.tenant, r.index, r.shard) ∉ s.fault.lost →
    ∃ t, exec (.restoreFromFlash r.tenant r.index r.shard (some im)) s = .next t ∧ (r.tenant, r.index, r.shard) ∈ t.fault.lost ∧
      t.cnt 0xE0D00D = s.cnt 0xE0D00D + 1 ∧ keepsBut [.fault, .regs, .counts] s t ∧ regsBut [0x903006] s t) ∧
  (∀ (s : State) (x : Idx) (r : Respare), s.running = true → r ∈ s.fault.respares → r.y = s.node → r.restore = true →
    s.findIdx r.tenant r.index = some x → (r.tenant, r.index, r.shard) ∉ s.fault.lost →
    ∃ t, exec (.restoreFromFlash r.tenant r.index r.shard none) s = .next t ∧ (r.tenant, r.index, r.shard) ∈ t.fault.lost ∧ r ∉ t.fault.respares ∧
      t.cnt 0xE0D00D = s.cnt 0xE0D00D + 1 ∧ t.reg 0x903006 = s.fault.lost.length + 1 ∧ keepsBut [.fault, .regs, .counts] s t ∧ regsBut [0x903006] s t))

/-- R394, R395, R396: a request that is still open 0x9000:07 ticks after its role moved asks the old and the new holder; a holder answers with its tag, or 0 if it holds
nothing of it; one answer with a tag settles the owner, of two the later epoch or else the lower node, and no tag has the request sent again. Shown to complete here:
ownershipQuery, ownershipQueryReceive, ownershipAnswer. -/
def Obligations.OwnersAreAsked : Prop :=
  (∀ (s : State) (l : LogReq) (p : Nat), s.running = true → s.fault.log = [l] → l.moved = some p → l.asked = false → p + s.reg 0x900007 ≤ s.ftick →
    l.dst ≠ s.node →
    ∃ t m, exec (.ownershipQuery l.req) s = .next t ∧ t.fault.log = [{ l with asked := true, answers := [] }] ∧ t.hasSent l.dst 0x14 (.fault m) ∧
      m.subtype = 8 ∧ m.node = l.dst ∧ m.case = l.req % 2 ^ 32 ∧ (l.oldDst ≠ s.node → t.hasSent l.oldDst 0x14 (.fault m)) ∧
      t.cnt 0xE0D00E = s.cnt 0xE0D00E + 1 ∧ keepsBut [.fault, .net, .counts, .mgmtOut] s t) ∧
  (∀ (s : State) (f : FaultMsg) (kind tenant object : Nat) (name : Nat × Nat), s.running = true → f.subtype = 8 → f.sender ≠ s.node →
    s.holdsRequest f.sender kind tenant object name = false →
    ∃ t, exec (.ownershipQueryReceive f kind tenant object name) s = .next t ∧
      t.hasSent f.sender 0x14 (.fault { f with subtype := 9, sender := s.node, detail := 0 }) ∧ keepsBut [.net, .counts, .mgmtOut] s t) ∧
  (∀ (s : State) (f : FaultMsg) (kind tenant object tag : Nat) (name : Nat × Nat), s.running = true → f.subtype = 8 → f.sender ≠ s.node →
    s.holdsRequest f.sender kind tenant object name = true →
    s.fault.tags.find? (fun x => x.1 == kind && x.2.1 == tenant && x.2.2.1 == object) = some (kind, tenant, object, tag) →
    ∃ t, exec (.ownershipQueryReceive f kind tenant object name) s = .next t ∧
      t.hasSent f.sender 0x14 (.fault { f with subtype := 9, sender := s.node, detail := tag }) ∧ keepsBut [.net, .counts, .mgmtOut] s t) ∧
  (∀ (s : State) (l : LogReq) (src tag : Nat), s.running = true → s.fault.log = [l] → l.asked = true → l.oldDst ≠ l.dst → l.answers = [] →
    src = l.oldDst ∨ src = l.dst → s.hasFailed (if src = l.dst then l.oldDst else l.dst) = false →
    ∃ t, exec (.ownershipAnswer l.req src tag) s = .next t ∧ t.fault.log = [{ l with answers := [(src, tag)] }] ∧ keepsBut [.fault] s t) ∧
  (∀ (s : State) (l : LogReq) (tag old : Nat), s.running = true → s.fault.log = [l] → l.asked = true → l.oldDst ≠ l.dst → l.answers = [(l.oldDst, old)] →
    old ≠ 0 → tag ≠ 0 → old / 2 ^ 32 ≠ tag / 2 ^ 32 →
    ∃ t, exec (.ownershipAnswer l.req l.dst tag) s = .next t ∧
      t.fault.log = [{ l with dst := field (if old / 2 ^ 32 < tag / 2 ^ 32 then tag else old) 31 20, moved := none, asked := false, answers := [] }] ∧
      keepsBut [.fault, .home] s t) ∧
  (∀ (s : State) (l : LogReq) (tag old : Nat), s.running = true → s.fault.log = [l] → l.asked = true → l.oldDst ≠ l.dst → l.answers = [(l.oldDst, old)] →
    old ≠ 0 → tag ≠ 0 → old / 2 ^ 32 = tag / 2 ^ 32 → field old 31 20 ≠ field tag 31 20 →
    ∃ t, exec (.ownershipAnswer l.req l.dst tag) s = .next t ∧
      t.fault.log = [{ l with dst := min (field old 31 20) (field tag 31 20), moved := none, asked := false, answers := [] }] ∧
      t.cnt 0xE0D00F = s.cnt 0xE0D00F + 1 ∧ keepsBut [.fault, .home, .net, .counts, .mgmtOut] s t) ∧
  (∀ (s : State) (l : LogReq) (tag : Nat), s.running = true → s.fault.log = [l] → l.asked = true → l.oldDst ≠ l.dst → l.answers = [(l.oldDst, tag)] → tag ≠ 0 →
    ∃ t, exec (.ownershipAnswer l.req l.dst 0) s = .next t ∧ t.fault.log = [{ l with dst := l.oldDst, moved := none, asked := false, answers := [] }] ∧
      keepsBut [.fault, .home] s t) ∧
  (∀ (s : State) (l : LogReq) (u : UpdReq), s.running = true → s.fault.log = [l] → l.asked = true → l.oldDst ≠ l.dst → l.answers = [(l.oldDst, 0)] →
    l.msg = .update u → l.dst ≠ s.node →
    ∃ t, exec (.ownershipAnswer l.req l.dst 0) s = .next t ∧ t.fault.log = [{ l with moved := none, asked := false, answers := [] }] ∧
      t.hasSent l.dst 0x21 (.update u) ∧ t.cnt 0xE0D011 = s.cnt 0xE0D011 + 1 ∧ keepsBut [.fault, .net, .counts] s t)

/-! ### The host link and the object dictionary -/

/-- R425, R426: a module that retrains goes back into service, and after 0xC000:09 failures in a row is disabled; a data flit in sequence with a good CRC is taken,
another asks for a retry, and every good flit acknowledges. R296, R302, R428 to R430: a host read that is allowed is answered with the bytes, under the tenant's link
cipher, or as poisoned, one that is not with its status; a host write stores its bytes and is answered, or waits for its page to move. R431: a completion of the host's
memory ends its request. R422: writing 1 clears the peak samples. Shown to complete here: clearPeaks, ucieModuleRetrain, ucieFlit, hostRead, hostWrite,
hostMemoryCompletion. -/
def Obligations.TheHostLinkServes : Prop :=
  (∀ (s : State) (m : Nat) (rep : Bool), s.running = true → m < 4 → s.reg (0xC00101 + m) ≠ 3 → s.link.error = false →
    ∃ t, exec (.ucieModuleRetrain m ⟨true, rep⟩) s = .next t ∧ t.reg (0xC00101 + m) = (if rep = true then 1 else 0) ∧ (t.ucie m).fails = 0 ∧ t.reg 0xC00003 = 1 ∧
      t.cnt 0xE0F004 = s.cnt 0xE0F004 + 1 ∧ t.cnt 0xE0F001 = s.cnt 0xE0F001 + (s.ucie m).held ∧ keepsBut [.regs, .link, .counts] s t ∧
      regsBut [0xC00101 + m, 0xC00001, 0xC00003, 0xC00004] s t ∧ countsBut [0xE0F004, 0xE0F001] s t) ∧
  (∀ (s : State) (m : Nat) (rep : Bool), s.running = true → m < 4 → s.reg (0xC00101 + m) ≠ 3 → s.link.error = false → s.reg 0xC00009 ≤ (s.ucie m).fails + 1 →
    ∃ t, exec (.ucieModuleRetrain m ⟨false, rep⟩) s = .next t ∧ t.reg (0xC00101 + m) = 3 ∧ t.cnt 0xE0F004 = s.cnt 0xE0F004 + 1 ∧
      t.cnt 0xE0F005 = s.cnt 0xE0F005 + 1 ∧ keepsBut [.regs, .link, .counts, .fault] s t ∧
      regsBut [0xC00101 + m, 0xC00001, 0xC00003, 0xC00004] s t ∧ countsBut [0xE0F004, 0xE0F005] s t) ∧
  (∀ (s : State) (m : Nat) (rep : Bool), s.running = true → m < s.link.modules.length → m < 4 → s.reg (0xC00101 + m) ≠ 3 → s.link.error = false →
    (s.ucie m).fails + 1 < s.reg 0xC00009 →
    ∃ t, exec (.ucieModuleRetrain m ⟨false, rep⟩) s = .next t ∧ t.reg (0xC00101 + m) = 2 ∧ (t.ucie m).fails = (s.ucie m).fails + 1 ∧
      t.cnt 0xE0F004 = s.cnt 0xE0F004 + 1 ∧ keepsBut [.regs, .link, .counts] s t ∧
      regsBut [0xC00101 + m, 0xC00001, 0xC00003, 0xC00004] s t ∧ countsBut [0xE0F004] s t) ∧
  (∀ (s : State) (m : Nat) (ok : Bool) (f : HostFlit), s.running = true → s.moduleUp m = true → m < s.link.modules.length → ok = true → f.ty = 1 →
    f.seq % 4096 = (s.ucie m).rxSeq →
    ∃ t, exec (.ucieFlit m ok f) s = .next t ∧
      t.ucie m = { s.ucie m with rxSeq := ((s.ucie m).rxSeq + 1) % 4096, rxDrop := false, held := hostHeld (s.ucie m) (f.ack + 1) } ∧
      t.cnt 0xE0F002 = s.cnt 0xE0F002 + 1 ∧ keepsBut [.link, .counts] s t ∧ countsBut [0xE0F002] s t) ∧
  (∀ (s : State) (m : Nat) (ok : Bool) (f : HostFlit), s.running = true → s.moduleUp m = true → m < s.link.modules.length → ok = true → f.ty = 0 →
    ∃ t, exec (.ucieFlit m ok f) s = .next t ∧ t.ucie m = { s.ucie m with held := hostHeld (s.ucie m) (f.ack + 1) } ∧ keepsBut [.link] s t) ∧
  (∀ (s : State) (m : Nat) (ok : Bool) (f : HostFlit), s.running = true → s.moduleUp m = true → m < s.link.modules.length → ok = true → f.ty = 2 →
    ∃ t, exec (.ucieFlit m ok f) s = .next t ∧ t.ucie m = { s.ucie m with held := hostHeld (s.ucie m) f.ack } ∧
      t.cnt 0xE0F001 = s.cnt 0xE0F001 + hostHeld (s.ucie m) f.ack ∧ keepsBut [.link, .counts] s t ∧ countsBut [0xE0F001] s t) ∧
  (∀ (s : State) (m : Nat) (ok : Bool) (f : HostFlit), s.running = true → s.moduleUp m = true → m < s.link.modules.length →
    ok = false ∨ (f.ty = 1 ∧ f.seq % 4096 ≠ (s.ucie m).rxSeq) → (s.ucie m).rxDrop = false →
    ∃ t, exec (.ucieFlit m ok f) s = .next t ∧ t.ucie m = { s.ucie m with rxDrop := true, retries := (s.ucie m).retries + 1 } ∧
      t.cnt 0xE0F003 = s.cnt 0xE0F003 + 1 ∧ (16 ≤ (s.ucie m).retries → t.reg (0xC00101 + m) = 2) ∧
      ((s.ucie m).retries < 16 → keepsBut [.link, .counts] s t) ∧ keepsBut [.link, .counts, .regs] s t ∧ countsBut [0xE0F003] s t) ∧
  (∀ (s : State) (m : Nat) (ok : Bool) (f : HostFlit), s.running = true → s.moduleUp m = true → ok = false ∨ (f.ty = 1 ∧ f.seq % 4096 ≠ (s.ucie m).rxSeq) →
    (s.ucie m).rxDrop = true → exec (.ucieFlit m ok f) s = .next s) ∧
  (∀ (s : State) (m addr len tag : Nat) (bad again : Bool) (a : Aperture), s.running = true → s.moduleUp m = true → s.hostCheck addr len false = .ok a →
    s.poisoned a.tenant (a.base + addr % 2 ^ 48) len = false → bad = false ∨ again = false →
    ∃ t d, exec (.hostRead m addr len tag bad again) s = .next t ∧ t.link.responses = s.link.responses ++ [⟨m, tag, 2, 0, d, 0⟩] ∧
      d = (let bs := s.load a.tenant (a.base + addr % 2 ^ 48) len
           if a.tenant = systemTenant then bs else linkCipher Config.xtsSeal (s.hostKey a.tenant) (a.base + addr % 2 ^ 48) bs) ∧
      t.cnt 0xE0F006 = s.cnt 0xE0F006 + 1 ∧ keepsBut [.link, .counts, .fault] s t ∧
      (bad = false → keepsBut [.link, .counts] s t ∧ countsBut [0xE0F006, 0xE0F001] s t)) ∧
  (∀ (s : State) (m addr len tag : Nat) (bad again : Bool) (a : Aperture), s.running = true → s.moduleUp m = true → s.hostCheck addr len false = .ok a →
    s.poisoned a.tenant (a.base + addr % 2 ^ 48) len = true ∨ (bad = true ∧ again = true) →
    ∃ t, exec (.hostRead m addr len tag bad again) s = .next t ∧ t.link.responses = s.link.responses ++ [⟨m, tag, 2, 3, List.replicate len 0xFF#8, 0⟩] ∧
      t.cnt 0xE0F013 = s.cnt 0xE0F013 + 1 ∧ keepsBut [.link, .counts, .fault, .poison, .tier] s t) ∧
  (∀ (s : State) (m addr len tag st : Nat) (b b' : Bool), s.running = true → s.moduleUp m = true → s.hostCheck addr len false = .error st →
    ∃ t, exec (.hostRead m addr len tag b b') s = .next t ∧ t.link.responses = s.link.responses ++ [⟨m, tag, 2, st, List.replicate len 0xFF#8, 0⟩] ∧
      t.cnt 0xE0F008 = s.cnt 0xE0F008 + 1 ∧ keepsBut [.link, .counts] s t ∧ countsBut [0xE0F008, 0xE0F001] s t) ∧
  (∀ (s : State) (m addr tag st : Nat) (data : List Byte), s.running = true → s.moduleUp m = true → s.hostCheck addr data.length true = .error st →
    ∃ t, exec (.hostWrite m addr data tag) s = .next t ∧ t.link.responses = s.link.responses ++ [⟨m, tag, 4, st, [], 0⟩] ∧
      t.cnt 0xE0F008 = s.cnt 0xE0F008 + 1 ∧ keepsBut [.link, .counts] s t ∧ countsBut [0xE0F008, 0xE0F001] s t) ∧
  (∀ (s : State) (m addr tag : Nat) (data : List Byte) (a : Aperture), s.running = true → s.moduleUp m = true →
    s.hostCheck addr data.length true = .ok a → a.tenant = systemTenant → s.rangeMoving a.tenant (a.base + addr % 2 ^ 48) data.length = true →
    ∃ t, exec (.hostWrite m addr data tag) s = .next t ∧
      t.tier.waits = s.tier.waits ++ [{ tenant := a.tenant, addr := a.base + addr % 2 ^ 48, data := data, host := some (m, tag), peer := none }] ∧
      t.link.responses = s.link.responses ∧ (∃ r ∈ t.link.outstanding, r.m = m ∧ r.tag = tag ∧ r.op = 3) ∧ t.cnt 0xE0A012 = s.cnt 0xE0A012 + 1 ∧
      keepsBut [.link, .tier, .counts] s t ∧ countsBut [0xE0A012] s t) ∧
  (∀ (s : State) (m addr tag : Nat) (data : List Byte) (a : Aperture), s.running = true → s.memOk = true → s.moduleUp m = true →
    s.hostCheck addr data.length true = .ok a → s.rangeMoving a.tenant (a.base + addr % 2 ^ 48) data.length = false →
    s.rangeFailed a.tenant (a.base + addr % 2 ^ 48) data.length = false →
    ∃ t, exec (.hostWrite m addr data tag) s = .next t ∧
      t.load a.tenant (a.base + addr % 2 ^ 48) data.length =
        (if a.tenant = systemTenant then data else linkCipher Config.xtsOpen (s.hostKey a.tenant) (a.base + addr % 2 ^ 48) data) ∧
      (∀ k, (k < memKey a.tenant (a.base + addr % 2 ^ 48) ∨ memKey a.tenant (a.base + addr % 2 ^ 48) + data.length ≤ k) →
        Memory.get t.mem k = Memory.get s.mem k) ∧
      t.link.responses = s.link.responses ++ [⟨m, tag, 4, 0, [], 0⟩] ∧ t.cnt 0xE0F007 = s.cnt 0xE0F007 + 1 ∧
      keepsBut [.mem, .poison, .tier, .link, .counts, .fault] s t) ∧
  (∀ (s : State) (r : HReq) (data : List Byte), s.running = true → r ∈ s.link.toHost → (r.op = 3 ∨ (r.op = 1 ∧ data ≠ [])) →
    ∃ t, exec (.hostMemoryCompletion r.tag data) s = .next t ∧ r ∉ t.link.toHost ∧ (∀ q ∈ s.link.toHost, q.tag ≠ r.tag → q ∈ t.link.toHost) ∧
      keepsBut [.link] s t) ∧
  (∀ s : State, s.running = true →
    ∃ t, exec (.clearPeaks 1) s = .next t ∧ (∀ k, pagedKey 0xB280 0 ≤ k → k < pagedKey 0xB2A8 0 → t.reg k = dfltOf k) ∧
      (∀ k, (k < pagedKey 0xB280 0 ∨ pagedKey 0xB2A8 0 ≤ k) → t.reg k = s.reg k) ∧ keepsBut [.regs] s t)

/-- R490, R492, R493, R495: a write that passes its checks is kept and takes effect at step 7 of the next tick, or at once by the right of its entry; one that fails them
is refused with the status of the check, and counted. Saving keeps the stored settings, and discarding drops them; both raise the configuration's counter (R479). R448 to
R450: a mailbox entry that passes the ring checks has its command run and is answered with a completion; a read's value stands in the completion, from byte 48, or in its
buffer; one that cannot be read is refused. R503 to R505: a DAP request with the right tag and a new number is performed once and answered, in segments if it says so; the
same one again gets the same answer, an old one is counted, and one with a wrong tag is dropped and counted. Shown to complete here: mailboxRead, mailboxWrite,
mailboxSignedCommand, registerWrite, saveSettings, discardSettings, dapRead, dapWrite, dapSignedCommand, dapHello. -/
def Obligations.RegistersAndRequests : Prop :=
  ((∀ (s : State) (w : DWrite) (k : Key) (v : DVal), s.running = true → s.checkWrite s.dict.pend w false = .ok (k, v) →
    (accOf k ≠ .wo ∧ accOf k ≠ .rw) ∨ (0xA10000 ≤ k ∧ k < 0xA10400) →
    ∃ t, exec (.registerWrite w false) s = .next t ∧ t.dict = { s.dict with pend := s.dict.pend ++ [⟨k, v, s.now + 1, false⟩] } ∧
      t.cnt 0xE11002 = s.cnt 0xE11002 + 1 ∧ keepsBut [.dict, .counts] s t ∧ countsBut [0xE11002] s t) ∧
  (∀ (s : State) (w : DWrite) (k : Key) (v : DVal), s.running = true → s.checkWrite s.dict.pend w false = .ok (k, v) → accOf k = .wo ∨ accOf k = .rw →
    k < 0xA10000 ∨ 0xA10400 ≤ k →
    ∃ t, exec (.registerWrite w false) s = .next t ∧ t = { (s.bump 0xE11002 1).perform k v false with pending := s.pending }) ∧
  (∀ (s : State) (w : DWrite) (k : Key) (v : DVal), s.running = true → s.checkWrite s.dict.pend w true = .ok (k, v) →
    ∃ t, exec (.registerWrite w true) s = .next t ∧ t.dict = { s.dict with pend := s.dict.pend ++ [⟨k, v, s.now + 1, true⟩] } ∧
      t.cnt 0xE11002 = s.cnt 0xE11002 + 1 ∧ keepsBut [.dict, .counts] s t ∧ countsBut [0xE11002] s t) ∧
  (∀ (s : State) (w : DWrite) (sg : Bool) (st d : Nat), s.running = true → s.checkWrite s.dict.pend w sg = .error (st, d) →
    ∃ t, exec (.registerWrite w sg) s = .next t ∧ t = s.refusal st (key w.index w.sub) ∧ keepsBut [.counts] s t) ∧
  (∀ (s : State) (w : PWrite) (n : Nat), w.tick ≤ s.now → w.v = .num n → s.dict.pend = [w] → 0x604000 ≤ w.k → w.k < 0x604800 →
    s.applyWrites.reg w.k = n ∧ s.applyWrites.dict.pend = [] ∧ s.applyWrites.cnt 0xE11003 = s.cnt 0xE11003 + 1) ∧
  (∀ s : State, s.running = true →
    ∃ t, exec .saveSettings s = .next t ∧
      (∀ r, r ∈ t.dict.saved ↔ r ∈ s.regs ∧ ∃ o, objRow r.1 = some o ∧ (o.acc = .rwt ∨ o.acc = .rw)) ∧
      (∃ a ∈ t.sec.waitAdv, a.1 = 2) ∧ keepsBut [.dict, .sec] s t) ∧
  (∀ s : State, s.running = true →
    ∃ t, exec .discardSettings s = .next t ∧ t.dict.saved = [] ∧ (∃ a ∈ t.sec.waitAdv, a.1 = 2) ∧ keepsBut [.dict, .sec] s t)) ∧
  ((∀ (s : State) (seq : Nat) (badBuf : Bool), s.running = true → s.memOk = true → s.covered systemTenant seq = true → seq = (s.ring systemTenant).cLive + 1 →
    s.link.taken < s.reg 0xC00008 → s.room systemTenant = true → s.poisoned systemTenant (s.slotAddr systemTenant seq) 128 = false →
    s.mailboxRingCheck seq false badBuf (s.entryOf systemTenant seq) = none →
    eNat (s.entryOf systemTenant seq) 32 8 = 0 ∨ (0x100000 ≤ eNat (s.entryOf systemTenant seq) 32 8 ∧
      eNat (s.entryOf systemTenant seq) 32 8 + eNat (s.entryOf systemTenant seq) 28 4 ≤ 0x200000 ∧
      s.bufClash (eNat (s.entryOf systemTenant seq) 32 8) (eNat (s.entryOf systemTenant seq) 28 4) = none) →
    (let e := s.entryOf systemTenant seq
     let j := (s.ring systemTenant).nextJ
     (entryKind e = 0x20 → badBuf = false →
       ∃ t u, exec (.mailboxRead seq false) s = .next t ∧ keepsBut [.link, .rings, .counts, .regs, .free] s u ∧
         (eNat e 24 2 ≠ 0x2010 → keepsBut [.link, .rings, .counts] s u) ∧ u.cnt 0xE0F010 = s.cnt 0xE0F010 + 1 ∧
         (∀ v w, u.latch (eNat e 24 2) (eNat e 26 1) (eNat e 27 1 == 1) = .ok v → eNat e 40 8 ≤ v.length →
           w = (if eNat e 32 8 = 0 then v.drop (eNat e 40 8) else (v.drop (eNat e 40 8)).take (eNat e 28 4)) →
           (w.length ≤ 80 → t.load systemTenant (s.complAddr systemTenant j + 48) w.length = w) ∧
           (80 < w.length → s.complAddr systemTenant j + 128 ≤ eNat e 32 8 → t.load systemTenant (eNat e 32 8) w.length = w)) ∧
         t.cnt 0xE0F00C = s.cnt 0xE0F00C + 1 ∧ (t.ring systemTenant).nextJ = j + 1 ∧ keepsBut [.link, .rings, .counts, .mem, .poison, .regs, .free] s t) ∧
     (entryKind e = 0x21 →
       ∃ t u, exec (.mailboxWrite seq false badBuf) s = .next t ∧ keepsBut [.link, .rings, .counts] s u ∧ u.cnt 0xE0F010 = s.cnt 0xE0F010 + 1 ∧
         (let r := u.plainWrite ⟨eNat e 24 2, eNat e 26 1, s.mailboxValue e⟩
          t = { r.1.respond seq 0x21 0 r.2.1 r.2.2.1 (eNat e 16 8) 0 0 [] with pending := s.pending })) ∧
     (entryKind e = 0x22 → (∀ w ∈ (parseSigned (s.mailboxValue e)).writes.head?, w.index = eNat e 24 2 ∧ w.sub = eNat e 26 1) →
       ∃ t u, exec (.mailboxSignedCommand seq false badBuf) s = .next t ∧ keepsBut [.link, .rings, .counts] s u ∧ u.cnt 0xE0F010 = s.cnt 0xE0F010 + 1 ∧
         (let r := u.signedCommand (s.mailboxValue e)
          t = { r.1.respond seq 0x22 r.2.2.2 r.2.1 r.2.2.1 (eNat e 16 8) 0 0 [] with pending := s.pending })))) ∧
  (∀ (s : State) (seq : Nat) (bad badBuf : Bool) (i : Instr), s.running = true → s.covered systemTenant seq = true → seq = (s.ring systemTenant).cLive + 1 →
    s.link.taken < s.reg 0xC00008 → bad = true ∨ s.poisoned systemTenant (s.slotAddr systemTenant seq) 128 = true →
    i = .mailboxRead seq bad ∨ i = .mailboxWrite seq bad badBuf ∨ i = .mailboxSignedCommand seq bad badBuf →
    ∃ t, exec i s = .next t ∧
      (s.room systemTenant = true → t.cnt 0xE0F00B = s.cnt 0xE0F00B + 1 ∧ t.cnt 0xE0F011 = s.cnt 0xE0F011 + 1 ∧
        (t.ring systemTenant).nextJ = (s.ring systemTenant).nextJ + 1) ∧
      (s.room systemTenant = false → t.cnt 0xE0F00F = s.cnt 0xE0F00F + 1 ∧ (t.ring systemTenant).held = seq) ∧
      keepsBut [.link, .rings, .counts, .mem, .poison] s t) ∧
  (∀ (s : State) (d : DapReq) (k : List Byte), (s.power = 2 ∨ s.power = 3) → d.port < 2 → s.resetting 1 (4 + d.port) = false → s.sec.dapKey = some k →
    d.tag = Config.hmac k (dapBytes d) → s.reg 0xA00001 = 0 → s.dapForm d = 0 → s.reg (0x1F1101 + d.client) < d.num →
    s.dict.dapCount < s.reg 0x1F1005 →
    (d.op = 4 → ∃ t r, exec (.dapHello d) s = .next t ∧ t.dict.dapOut = s.dict.dapOut ++ [(d.port, r)] ∧ r.op = 132 ∧ r.num = d.num ∧ r.status = 0 ∧
      r.value.take 16 = fixLen 16 (s.blob 0xA00005) ∧ t.reg (0x1F1101 + d.client) = d.num ∧ t.cnt 0xE11007 = s.cnt 0xE11007 + 1 ∧
      keepsBut [.regs, .dict, .counts] s t ∧ regsBut [0x1F1101 + d.client] s t) ∧
    (d.op = 1 → ∃ t u r, exec (.dapRead d) s = .next t ∧ t.dict.dapOut = s.dict.dapOut ++ [(d.port, r)] ∧ r.op = 129 ∧ r.num = d.num ∧
      (∀ v, u.latch d.index d.sub d.whole = .ok v → d.offset ≤ v.length → r.status = 0 ∧ r.value = (v.drop d.offset).take 1136) ∧
      keepsBut [.regs, .dict, .counts, .free] s u ∧ regsBut [0x1F1101 + d.client, 0x201001] s u ∧ t.reg (0x1F1101 + d.client) = d.num ∧
      (d.index ≠ 0x2010 → keepsBut [.regs, .dict, .counts] s t ∧ regsBut [0x1F1101 + d.client] s t) ∧
      keepsBut [.regs, .dict, .counts, .free] s t ∧ regsBut [0x1F1101 + d.client, 0x201001] s t) ∧
    (d.op = 2 → d.more = false → d.offset = (s.dapClient d.client).gathered.length → d.offset + d.value.length ≤ 65536 →
      ∃ t u r, exec (.dapWrite d) s = .next t ∧ keepsBut [.regs, .dict, .counts] s u ∧ regsBut [0x1F1101 + d.client] s u ∧
        u.reg (0x1F1101 + d.client) = d.num ∧ r.op = 130 ∧ r.num = d.num ∧ r.status = (u.plainWrite ⟨d.index, d.sub, (s.dapClient d.client).gathered ++ d.value⟩).2.1 ∧
        (d.port, r) ∈ t.dict.dapOut) ∧
    (d.op = 3 → d.more = false → d.offset = (s.dapClient d.client).gathered.length → d.offset + d.value.length ≤ 65536 →
      ∃ t u r, exec (.dapSignedCommand d) s = .next t ∧ keepsBut [.regs, .dict, .counts] s u ∧ regsBut [0x1F1101 + d.client] s u ∧
        u.reg (0x1F1101 + d.client) = d.num ∧ r.op = 131 ∧ r.num = d.num ∧ r.status = (u.signedCommand ((s.dapClient d.client).gathered ++ d.value)).2.1 ∧
        r.failing = (u.signedCommand ((s.dapClient d.client).gathered ++ d.value)).2.2.2 ∧ (d.port, r) ∈ t.dict.dapOut) ∧
    (d.op = 2 ∨ d.op = 3 → d.more = true → d.offset = (s.dapClient d.client).gathered.length → d.offset + d.value.length ≤ 65536 →
      ∃ t r, exec (dapRow d) s = .next t ∧ (t.dapClient d.client).gathered = (s.dapClient d.client).gathered ++ d.value ∧
        t.dict.dapOut = s.dict.dapOut ++ [(d.port, r)] ∧ r.op = d.op + 128 ∧ r.num = d.num ∧ r.status = 0 ∧
        keepsBut [.regs, .dict, .counts] s t ∧ regsBut [0x1F1101 + d.client] s t)) ∧
  (∀ (s : State) (d : DapReq) (k : List Byte), (s.power = 2 ∨ s.power = 3) → d.port < 2 → s.resetting 1 (4 + d.port) = false → s.sec.dapKey = some k →
    d.tag = Config.hmac k (dapBytes d) → s.reg 0xA00001 = 0 → s.dapForm d = 0 → d.num ≤ s.reg (0x1F1101 + d.client) →
    d.num ≠ s.reg (0x1F1101 + d.client) ∨ (s.dapClient d.client).tag ≠ d.tag →
    ∃ t, exec (dapRow d) s = .next t ∧ t.cnt 0xE11009 = s.cnt 0xE11009 + 1 ∧ keepsBut [.counts] s t ∧ countsBut [0xE11007, 0xE11009] s t) ∧
  (∀ (s : State) (d : DapReq) (k : List Byte) (r : DapResp), (s.power = 2 ∨ s.power = 3) → d.port < 2 → s.resetting 1 (4 + d.port) = false →
    s.sec.dapKey = some k → d.tag = Config.hmac k (dapBytes d) → s.reg 0xA00001 = 0 → s.dapForm d = 0 → d.num = s.reg (0x1F1101 + d.client) →
    (s.dapClient d.client).tag = d.tag → (s.dapClient d.client).resp = some r →
    ∃ t, exec (dapRow d) s = .next t ∧ t.dict.dapOut = s.dict.dapOut ++ [(d.port, r)] ∧ t.cnt 0xE1100A = s.cnt 0xE1100A + 1 ∧
      keepsBut [.dict, .counts] s t ∧ countsBut [0xE11007, 0xE1100A] s t) ∧
  (∀ (s : State) (d : DapReq) (k : List Byte), (s.power = 2 ∨ s.power = 3) → d.port < 2 → s.resetting 1 (4 + d.port) = false → s.sec.dapKey = some k →
    d.tag ≠ Config.hmac k (dapBytes d) → d.op = 2 ∨ d.op = 3 ∨ (d.op = 1 ∧ (openIndex d.index = false ∨ s.reg 0xA00001 = 0)) →
    ∃ t, exec (dapRow d) s = .next t ∧ t.cnt 0xE11008 = s.cnt 0xE11008 + 1 ∧ keepsBut [.counts] s t ∧ countsBut [0xE11007, 0xE11008] s t))

/-! ### Security -/

/-- R476: a peer whose quote holds gives the port its link keys; any other is refused with reason 1 and counted. R477: a rekey that both ends agree on switches the keys,
and one that takes more than 16 ticks retrains the port. R481: a peer that witnesses a higher counter than this Molset holds stops it with boot status 8; one that
witnesses the pending value commits it. R460, R462: a piece of an image goes into the slot that did not boot; an activation whose checks hold boots that slot first from
then on, and another only keeps its status. A quote request takes its slot, and the quote that is ready stands in it, signed, and is counted. Shown to complete here:
linkSecuring, firmwareImagePiece, firmwareActivate, quoteRequest, quoteReady, rekey, rekeyTimeout. -/
def Obligations.LinksAndFirmware : Prop :=
  ((∀ (s : State) (port : Nat) (x : Securing) (own : List Byte), s.running = true → port < 16 → s.portState port = 2 → s.sec.advance = [] →
    (∀ w ∈ x.witnessed, w.2 ≤ s.counter w.1) →
    ∃ t, exec (.linkSecuring port x own) s = .next t ∧
      (if s.peerOk x own = true then
        t.port port = { s.port port with
          keySet := true, txKey := (s.linkKeys x own (quoteDigest x.quote)).1, rxKey := (s.linkKeys x own (quoteDigest x.quote)).2,
          peerDigest := quoteDigest x.quote, lastRekey := s.now } ∧ keepsBut [.ports] s t
      else t.portState port = 5 ∧ t.reg (0x800201 + port) = peerWord 0 0 1 ∧ t.cnt 0xE1000B = s.cnt 0xE1000B + 1 ∧
        t.cnt 0xE0C007 = s.cnt 0xE0C007 + 1 ∧ keepsBut [.regs, .ports, .counts] s t ∧ regsBut [0x800101 + port, 0x800201 + port] s t)) ∧
  (∀ (s : State) (port i v : Nat) (x : Securing) (own : List Byte) (wit acks : List Nat), s.running = true → port < 16 → s.portState port = 2 →
    s.sec.advance = [(i, v, wit, acks)] → x.witnessed = [(i, v)] →
    ∃ t, exec (.linkSecuring port x own) s = .next t ∧
      (if s.peerOk x own = true then t.counter i = max (s.counter i) v ∧ t.sec.advance = [] ∧ t.cnt 0xE10008 = s.cnt 0xE10008 + 1 ∧
        (t.port port).keySet = true ∧ keepsBut [.sec, .dict, .regs, .counts, .ports] s t ∧ regsBut [0xA02000 + i, 0x1F0005] s t
      else t.portState port = 5 ∧ t.sec = s.sec ∧ t.cnt 0xE1000B = s.cnt 0xE1000B + 1)) ∧
  (∀ (s : State) (port : Nat) (x : Securing) (own : List Byte), s.running = true → port < 16 → s.portState port = 2 → s.sec.advance = [] →
    (∃ w ∈ x.witnessed, s.counter w.1 < w.2) →
    ∃ t, exec (.linkSecuring port x own) s = .next t ∧ t.portState port = 5 ∧ t.reg (0x800201 + port) = peerWord 0 0 1 ∧
      t.cnt 0xE1000B = s.cnt 0xE1000B + 1 ∧
      (s.peerOk x own = true → t.reg 0xA00001 = 8 ∧ t.reg 0xD00001 = 3 ∧ t.cnt 0xE1000A = s.cnt 0xE1000A + 1 ∧
        (∀ q < 16, t.portState q ≠ 2 ∧ t.portState q ≠ 3)) ∧ keepsBut [.regs, .ports, .counts] s t) ∧
  (∀ (s : State) (port rxSwitch n : Nat) (x : Securing) (own tx rx : List Byte), s.running = true → port < 16 → s.portState port = 3 →
    (s.port port).keySet = true → ((s.port port).rekey ≠ none ∨ (s.port port).lastRekey + s.reg 0xA04001 ≤ s.now) →
    n = ((s.port port).rekey.map (·.1)).getD ((s.port port).sent + s.reg 0xA04002) → (tx, rx) = s.linkKeys x own (s.port port).peerDigest →
    ∃ t, exec (.rekey port x ⟨own, rxSwitch⟩) s = .next t ∧
      (if n ≤ (s.port port).sent then (t.port port).txKey = tx ∧ (t.port port).nextTx = none
       else (t.port port).txKey = (s.port port).txKey ∧ (t.port port).nextTx = some (n, tx)) ∧
      (if rxSwitch ≤ (s.port port).rcvd then (t.port port).rxKey = rx ∧ (t.port port).nextRx = none
       else (t.port port).rxKey = (s.port port).rxKey ∧ (t.port port).nextRx = some (rxSwitch, rx)) ∧
      (t.port port).rekey = none ∧ (t.port port).lastRekey = s.now ∧ t.cnt 0xE1000C = s.cnt 0xE1000C + 1 ∧ keepsBut [.ports, .counts] s t ∧
      countsBut [0xE1000C] s t) ∧
  (∀ (s : State) (port a b : Nat), s.running = true → port < 16 → s.portState port = 3 → (s.port port).rekey = some (a, b) → b + 16 ≤ s.now →
    ∃ t, exec (.rekeyTimeout port) s = .next t ∧ t.portState port = 1 ∧ (t.port port).keySet = false ∧ t.cnt 0xE0C005 = s.cnt 0xE0C005 + 1 ∧
      keepsBut [.regs, .ports, .net, .counts, .fault] s t ∧ regsBut [0x800101 + port] s t)) ∧
  ((∀ (s : State) (off : Nat) (data : List Byte), s.running = true →
    ∃ t, exec (.firmwareImagePiece off data) s = .next t ∧ lk (t.fwSlot s.otherSlot).pieces off = some data ∧
      (∀ n, n ≠ s.otherSlot → t.fwSlot n = s.fwSlot n) ∧ keepsBut [.sec] s t) ∧
  (∀ s : State, s.running = true →
    ∃ t, exec (.firmwareActivate 0) s = .next t ∧ (t.fwSlot s.otherSlot).first = true ∧ (t.fwSlot (1 - s.otherSlot)).first = false ∧
      t.reg 0xA00303 = 0 ∧ keepsBut [.sec, .regs] s t ∧ regsBut [0xA00303] s t) ∧
  (∀ (s : State) (st : Nat), s.running = true → st ≠ 0 →
    ∃ t, exec (.firmwareActivate st) s = .next t ∧ t.reg 0xA00303 = st ∧ keepsBut [.regs] s t ∧ regsBut [0xA00303] s t) ∧
  (∀ (s : State) (slot tn : Nat) (nonce : List Byte), s.running = true → 1 ≤ slot → slot ≤ 16 →
    ∃ t, exec (.quoteRequest slot nonce tn) s = .next t ∧ lk t.sec.quotes slot = some (fixLen 32 nonce, tn) ∧ t.blob (0xA01100 + slot) = [] ∧
      keepsBut [.sec, .blobs] s t) ∧
  (∀ (s : State) (slot tn : Nat) (nonce : List Byte), s.running = true → lk s.sec.quotes slot = some (nonce, tn) →
    ∃ t, exec (.quoteReady slot) s = .next t ∧ lk t.sec.quotes slot = none ∧
      t.blob (0xA01100 + slot) = s.quoteBytes nonce tn ++ fixLen 17088 (Config.slhSign (attestSeed s.measures) (s.quoteBytes nonce tn)) ∧
      t.cnt 0xE10007 = s.cnt 0xE10007 + 1 ∧ keepsBut [.sec, .blobs, .counts] s t ∧ countsBut [0xE10007] s t))

/-- R466 to R470, R506: a key record that opens gives the tenant its root key, its binding and state 2, the operator its command key, the DAP its key; one that does not
is counted in 0xE100:06 and changes nothing. R478: a newer management key is used from the tick that it names, and one that is not newer changes nothing. Shown to
complete here: operatorKeyRecord, dapKeyRecord, tenantKeyRecord, managementKey. -/
def Obligations.KeysAreDelivered : Prop :=
  (∀ (s : State) (r : KeyRecord), s.running = true →
    ∃ t, exec (.tenantKeyRecord r) s = .next t ∧
      match s.tenantKeyOf r.tenant r with
      | some k => t.rootKey r.tenant = some k ∧ t.tstate r.tenant = 2 ∧ t.reg (pagedKey 0xA10C r.tenant) = leNat ((s.bindingOf r.tenant k).take 8) ∧
          t.cnt 0xE10005 = s.cnt 0xE10005 + 1 ∧ keepsBut [.sec, .regs, .counts] s t ∧
          regsBut [pagedKey 0xA104 r.tenant, pagedKey 0xA10C r.tenant] s t ∧ countsBut [0xE10005] s t
      | none => t.cnt 0xE10006 = s.cnt 0xE10006 + 1 ∧ keepsBut [.counts] s t ∧ countsBut [0xE10006] s t) ∧
  (∀ (s : State) (r : KeyRecord) (sg : Bool), s.running = true →
    ∃ t, exec (.operatorKeyRecord r sg) s = .next t ∧
      match (if r.tenant = 0xFFFF ∧ s.operatorRecordOk sg = true then s.openRecord r else none) with
      | some k => t.sec.opKey = some k ∧ t.reg 0xA00202 = 1 ∧ (4, s.nextCounter 4) ∈ t.sec.waitAdv ∧ t.cnt 0xE10005 = s.cnt 0xE10005 + 1 ∧
          keepsBut [.sec, .regs, .counts] s t ∧ regsBut [0xA00202] s t ∧ countsBut [0xE10005] s t
      | none => t.cnt 0xE10006 = s.cnt 0xE10006 + 1 ∧ keepsBut [.counts] s t ∧ countsBut [0xE10006] s t) ∧
  (∀ (s : State) (r : KeyRecord), s.running = true →
    ∃ t, exec (.dapKeyRecord r) s = .next t ∧
      match (if r.tenant = 0xFFFF then s.openRecord r else none) with
      | some k => t.sec.dapKey = some k ∧ t.reg 0x1F1006 = 1 ∧ t.cnt 0xE10005 = s.cnt 0xE10005 + 1 ∧ keepsBut [.sec, .regs, .counts] s t ∧
          regsBut [0x1F1006] s t ∧ countsBut [0xE10005] s t
      | none => t.cnt 0xE10006 = s.cnt 0xE10006 + 1 ∧ keepsBut [.counts] s t ∧ countsBut [0xE10006] s t) ∧
  (∀ (s : State) (epoch start : Nat) (k : List Byte), s.running = true → (∀ n ∈ s.sec.mgmtNext.toList, n.1 < epoch) →
    (s.sec.mgmtNext = none → s.sec.mgmtKey ≠ none → s.reg 0xA03001 < epoch) → 0 < epoch → (start ≤ s.ftick ∨ s.sec.mgmtKey = none) →
    ∃ t, exec (.managementKey epoch k start) s = .next t ∧ t.sec.mgmtKey = some k ∧ t.reg 0xA03001 = epoch ∧
      (∀ o, s.sec.mgmtKey = some o → t.sec.mgmtOld = some (o, s.ftick + 2)) ∧ t.cnt 0xE10011 = s.cnt 0xE10011 + 1 ∧
      keepsBut [.sec, .regs, .counts] s t ∧ regsBut [0xA03001] s t) ∧
  (∀ (s : State) (epoch start : Nat) (k o : List Byte), s.running = true → (∀ n ∈ s.sec.mgmtNext.toList, n.1 < epoch) → s.sec.mgmtKey = some o →
    (s.sec.mgmtNext = none → s.reg 0xA03001 < epoch) → s.ftick < start → 0 < epoch →
    ∃ t, exec (.managementKey epoch k start) s = .next t ∧ t.sec = { s.sec with mgmtNext := some (epoch, k, start) } ∧ keepsBut [.sec] s t) ∧
  (∀ (s : State) (epoch start : Nat) (k o : List Byte), s.running = true → s.sec.mgmtKey = some o →
    epoch ≤ ((s.sec.mgmtNext.map (·.1)).getD (s.reg 0xA03001)) → exec (.managementKey epoch k start) s = .next s)

/-- R467, R471, R472: a tenant that is created is in state 1, one that enters service in state 3, one in teardown in state 4 and takes no more commands; a code-3 teardown
of a tenant with roles here is refused and counted; a tenant released without a teardown, and one whose work has ended, loses its key, its pages, which read 0 (R72), and
its engine state. A packet of a tenant whose binding in the map is not the one held here is not served, and counted. Shown to complete here: tenantCreate, enterService,
teardown, forcedTeardown, tenantRelease, teardownComplete. -/
def Obligations.TenantsComeAndGo : Prop :=
  (∀ (s : State) (n : Nat), s.running = true → n < 1024 → s.tstate n = 0 →
    ∃ t, exec (.tenantCreate n) s = .next t ∧ t.tstate n = 1 ∧ (∃ r ∈ t.sec.tenants, r.tenant = n) ∧ keepsBut [.sec, .regs] s t ∧
      regsBut [pagedKey 0xA104 n] s t) ∧
  (∀ (s : State) (n : Nat), s.running = true → n < 1024 → s.tstate n = 2 →
    ∃ t, exec (.enterService n) s = .next t ∧ t.tstate n = 3 ∧ keepsBut [.regs] s t ∧ regsBut [pagedKey 0xA104 n] s t) ∧
  (∀ (s : State) (n : Nat), s.running = true → n < 1024 → (s.tstate n = 2 ∨ s.tstate n = 3) → s.hasRoles n = false →
    ∃ t, exec (.teardown n) s = .next t ∧ exec (.forcedTeardown n) s = .next t ∧ t.tstate n = 4 ∧ (∀ r ∈ t.sec.tenants, r.tenant = n → r.down = true) ∧
      t.cnt 0xE1000D = s.cnt 0xE1000D + 1 ∧ keepsBut [.sec, .regs, .rings, .counts] s t ∧ countsBut [0xE1000D] s t) ∧
  (∀ (s : State) (n : Nat), s.running = true → n < 1024 → (s.tstate n = 2 ∨ s.tstate n = 3) → s.hasRoles n = true →
    (∃ t, exec (.teardown n) s = .next t ∧ t.cnt 0xE10004 = s.cnt 0xE10004 + 1 ∧ keepsBut [.counts] s t ∧ countsBut [0xE10004] s t) ∧
    (∃ t, exec (.forcedTeardown n) s = .next t ∧ t.tstate n = 4 ∧ t.cnt 0xE1000D = s.cnt 0xE1000D + 1)) ∧
  (∀ (s : State) (n : Nat), s.running = true → n < 1024 → s.tstate n = 2 →
    ∃ t, exec (.tenantRelease n) s = .next t ∧ t.tstate n = 0 ∧ t.rootKey n = none ∧ (∀ r ∈ t.sec.tenants, r.tenant ≠ n) ∧
      (∀ p ∈ t.tier.pages, p.tenant ≠ n) ∧ (∀ x ∈ t.idx, x.desc.tenant ≠ n) ∧ (∀ x ∈ t.emb.tabs, x.tenant ≠ n) ∧
      (∀ p ∈ s.tier.pages, p.tenant = n → p.page < 2 ^ 27 → ∀ i < pageSize, Memory.get t.mem (memKey n (p.page * pageSize) + i) = 0) ∧
      (∀ h ∈ t.home, h.par.tenant ≠ n) ∧ (∀ c ∈ t.copy, c.par.tenant ≠ n) ∧
      keepsBut [.sec, .regs, .tier, .mem, .poison, .filters, .home, .copy, .idx, .dense, .emb, .rings, .counts, .fault] s t) ∧
  (∀ (s : State) (n : Nat), s.running = true → n < 1024 → s.tstate n = 4 →
    ∃ t, exec (.tenantRelease n) s = .next t ∧ (∀ r ∈ t.sec.tenants, r.tenant = n → r.release = true) ∧ keepsBut [.sec] s t) ∧
  (∀ (s : State) (n : Nat), s.running = true → n < 1024 → s.tstate n = 4 → s.busy n = false → (∀ r ∈ s.sec.tenants, r.tenant = n → r.release = false) →
    ∃ t, exec (.teardownComplete n) s = .next t ∧ t.tstate n = 1 ∧ t.rootKey n = none ∧ (∀ r ∈ t.sec.tenants, r.tenant = n → r.down = false) ∧
      (∀ p ∈ t.tier.pages, p.tenant ≠ n) ∧ (∀ x ∈ t.idx, x.desc.tenant ≠ n) ∧
      (∀ p ∈ s.tier.pages, p.tenant = n → p.page < 2 ^ 27 → ∀ i < pageSize, Memory.get t.mem (memKey n (p.page * pageSize) + i) = 0) ∧
      keepsBut [.sec, .regs, .flash, .tier, .mem, .poison, .filters, .home, .copy, .idx, .dense, .emb, .rings, .counts, .fault] s t) ∧
  (∀ (s : State) (n : Nat) (r : TRec), s.running = true → n < 1024 → s.tstate n = 4 → s.busy n = false → s.tenantRec n = some r → r.release = true →
    ∃ t, exec (.teardownComplete n) s = .next t ∧ t.tstate n = 0 ∧ t.rootKey n = none ∧ (∀ r ∈ t.sec.tenants, r.tenant ≠ n) ∧
      (∀ p ∈ t.tier.pages, p.tenant ≠ n) ∧
      keepsBut [.sec, .regs, .flash, .tier, .mem, .poison, .filters, .home, .copy, .idx, .dense, .emb, .rings, .counts, .fault] s t) ∧
  (∀ (s : State) (n : Nat) (i : Instr), s.running = true → boundTenant i = some n → s.bindingDiffers n s.node = true →
    ∃ t, exec i s = .next t ∧ t.cnt 0xE1000F = s.cnt 0xE1000F + 1 ∧ keepsBut [.counts] s t ∧ countsBut [0xE1000F] s t)

/-- R479, R480: a floor not above the security version running is to be raised; an advance of an unassigned Molset is committed at once, and one of an assigned Molset
asks three witnesses; a witness keeps the highest value it was told and acknowledges; the third acknowledgement commits. An advance waits while another of its counter is
under way or too few witnesses are live. R482: a failed check keeps its code, is counted and is fatal, unless a sequence of the same or a higher rank is already under way
(R523). Shown to complete here: counterAdvance, witnessRequest, witnessAck, raiseFloor, runtimeCheck, glitchDetected. -/
def Obligations.CountersAndChecks : Prop :=
  (∀ (s : State) (v : Nat), s.running = true → v ≤ s.reg 0xA00002 →
    ∃ t, exec (.raiseFloor v) s = .next t ∧ (v ≤ s.counter 1 ∨ (1, v) ∈ t.sec.waitAdv) ∧ keepsBut [.sec] s t) ∧
  (∀ (s : State) (i v : Nat), s.running = true → (i, v) ∈ s.sec.waitAdv → (∀ a ∈ s.sec.advance, a.1 ≠ i) → s.reg 0x800002 = 0 →
    ∃ t, exec (.counterAdvance i v) s = .next t ∧ t.counter i = max (s.counter i) v ∧ (i, v) ∉ t.sec.waitAdv ∧ t.cnt 0xE10008 = s.cnt 0xE10008 + 1 ∧
      keepsBut [.sec, .dict, .regs, .counts] s t ∧ regsBut [0xA02000 + i, 0x1F0005] s t ∧ countsBut [0xE10008] s t) ∧
  (∀ (s : State) (i v : Nat), s.running = true → (i, v) ∈ s.sec.waitAdv → (∀ a ∈ s.sec.advance, a.1 ≠ i) → s.reg 0x800002 ≠ 0 →
    s.counterWitnesses.length = 3 →
    ∃ t, exec (.counterAdvance i v) s = .next t ∧ t.sec.advance = s.sec.advance ++ [(i, v, s.counterWitnesses, [])] ∧
      (∀ w ∈ s.counterWitnesses, t.hasSent w 0x14 (.witness i v)) ∧ (i, v) ∉ t.sec.waitAdv ∧ keepsBut [.sec, .net, .counts] s t) ∧
  (∀ (s : State) (i v : Nat), s.running = true → s.canAdvance = false ∨ (∃ a ∈ s.sec.advance, a.1 = i) → exec (.counterAdvance i v) s = .next s) ∧
  (∀ (s : State) (src i v : Nat), s.running = true → s.sec.witness.find? (fun (w : Nat × Nat × Nat) => w.1 == src && w.2.1 == i) = none →
    ∃ t, exec (.witnessRequest src i v) s = .next t ∧ (src, i, v) ∈ t.sec.witness ∧ (∀ w ∈ s.sec.witness, w ∈ t.sec.witness) ∧
      t.hasSent src 0x14 (.witnessAck i) ∧ t.cnt 0xE10009 = s.cnt 0xE10009 + 1 ∧ keepsBut [.sec, .net, .counts] s t) ∧
  (∀ (s : State) (src i v old : Nat), s.running = true →
    s.sec.witness.find? (fun (w : Nat × Nat × Nat) => w.1 == src && w.2.1 == i) = some (src, i, old) →
    ∃ t, exec (.witnessRequest src i v) s = .next t ∧ (src, i, max v old) ∈ t.sec.witness ∧ t.hasSent src 0x14 (.witnessAck i) ∧
      t.cnt 0xE10009 = s.cnt 0xE10009 + 1 ∧ keepsBut [.sec, .net, .counts] s t) ∧
  (∀ (s : State) (src i v : Nat) (w acks : List Nat), s.running = true → s.sec.advance = [(i, v, w, acks)] → src ∈ w → src ∉ acks →
    ∃ t, exec (.witnessAck src i) s = .next t ∧
      (if acks.length + 1 = w.length then t.counter i = max (s.counter i) v ∧ t.sec.advance = [] ∧ t.cnt 0xE10008 = s.cnt 0xE10008 + 1 ∧
          keepsBut [.sec, .dict, .regs, .counts] s t
       else t.sec.advance = [(i, v, w, acks ++ [src])] ∧ keepsBut [.sec] s t)) ∧
  (∀ (s : State) (code : Nat), s.running = true → code ∈ [1, 2, 4, 5] → s.pwr.seqRank = 0 ∨ 4 < s.pwr.seqRank →
    ∃ t, exec (.runtimeCheck code true) s = .next t ∧ t.reg 0xA0000C = code ∧ t.reg 0xD00001 = 4 ∧ t.cnt 0xE1000E = s.cnt 0xE1000E + 1 ∧
      t.cnt 0xE0D012 = s.cnt 0xE0D012 + 1 ∧ keepsBut [.regs, .counts, .link, .pwr, .mgmtOut] s t ∧
      regsBut [0xA0000C, 0xC00003, 0xD00001] s t) ∧
  (∀ s : State, s.running = true → s.pwr.seqRank = 0 ∨ 4 < s.pwr.seqRank →
    ∃ t, exec .glitchDetected s = .next t ∧ t.reg 0xA0000C = 3 ∧ t.reg 0xD00001 = 4 ∧ t.cnt 0xE1000E = s.cnt 0xE1000E + 1 ∧
      keepsBut [.regs, .counts, .link, .pwr, .mgmtOut] s t ∧ regsBut [0xA0000C, 0xC00003, 0xD00001] s t) ∧
  (∀ (s : State) (code : Nat), s.running = true → code ∈ [1, 2, 4, 5] → s.pwr.seqRank ≠ 0 → s.pwr.seqRank ≤ 4 →
    ∃ t, exec (.runtimeCheck code true) s = .next t ∧ t.reg 0xA0000C = code ∧ t.cnt 0xE1000E = s.cnt 0xE1000E + 1 ∧ t.cnt 0xE1200B = s.cnt 0xE1200B + 1 ∧
      keepsBut [.regs, .counts] s t ∧ regsBut [0xA0000C] s t) ∧
  (∀ (s : State) (code : Nat), s.running = true → exec (.runtimeCheck code false) s = .next s)

/-! ### Reset, power and ageing -/

/-- R511, R518, R519, R520: a Molset that is off starts once its input is there, and runs when its image verifies; a source of a warm reach, a power cycle and the end of
a fatal fault start it again, with the source's code in 0xD010:01 and with empty memory; a warm reach keeps the tick counter and is counted. R523: a source that does not
outrank the sequence under way is ignored and counted. R511, R516, R517: a falling POWER_FAIL_N and an input beyond its trips begin the hold-up: state 5, flash without
programs, the engines stopped; its end switches off and keeps what boot storage holds. An excursion that stays within the trips is only counted. Shown to complete here:
hostLinkResetRequest, coldStart, inputTrip, inputExcursion, powerFail, holdUpEnd, moduleReset, sidebandResetRequest, warmResetCommand, powerCycleCommand, watchdogExpiry,
fatalResetTimeout. -/
def Obligations.StartsAndPowerFails : Prop :=
  ((∀ (s : State) (b : BootIn) (v : Nat), s.power = 0 → s.reg 0xD0000F ≤ b.inputMv → b.powerFailHigh = true → b.pufOk = true → b.strap = [] → bootsFrom s b v →
    ∃ t, exec (.coldStart b) s = .next t ∧ t.power = 2 ∧ t.reg 0xD01001 = s.pwr.source ∧ t.reg 0xA00003 = 0 ∧ t.mem = [] ∧ t.reg 0x201002 = 0) ∧
  (∀ (s : State) (b : BootIn), s.power = 0 → s.reg 0xD0000F ≤ b.inputMv → b.powerFailHigh = true → b.pufOk = false →
    ∃ t, exec (.coldStart b) s = .next t ∧ t.power = 3 ∧ t.reg 0xA00001 = 1 ∧ t.mem = []) ∧
  (∀ (s : State) (b : BootIn) (v : Nat), s.power = 2 ∨ s.power = 3 → s.pwr.seqRank = 0 → s.reg 0xD02001 = 0 → bootsFrom s b v →
    (∃ t, exec (.moduleReset b) s = .next t ∧ t.power = 2 ∧ t.reg 0xD01001 = 3 ∧ t.now = s.now ∧ t.mem = [] ∧ t.cnt 0xE12001 = s.cnt 0xE12001 + 1) ∧
    (s.sbPin 0x0B = true →
      ∃ t, exec (.sidebandResetRequest b) s = .next t ∧ t.power = 2 ∧ t.reg 0xD01001 = 4 ∧ t.now = s.now ∧ t.mem = [] ∧ t.cnt 0xE12001 = s.cnt 0xE12001 + 1) ∧
    (∃ t, exec (.warmResetCommand b) s = .next t ∧ t.power = 2 ∧ t.reg 0xD01001 = 5 ∧ t.now = s.now ∧ t.mem = [] ∧ t.cnt 0xE12001 = s.cnt 0xE12001 + 1)) ∧
  (∀ (s : State) (b : BootIn) (v : Nat), s.power ≠ 0 → s.pwr.seqRank = 0 ∨ 2 < s.pwr.seqRank → b.pufOk = true → b.strap = [] → bootsFrom s b v →
    ∃ t, exec (.powerCycleCommand b) s = .next t ∧ t.power = 2 ∧ t.reg 0xD01001 = 6 ∧ t.mem = [] ∧ t.reg 0x201002 = 0) ∧
  (∀ (s : State) (b : BootIn) (v : Nat), s.power = 4 → s.reg 0xD02001 = 0 → bootsFrom s b v →
    ∃ t, exec (.hostLinkResetRequest b) s = .next t ∧ exec (.fatalResetTimeout b) s = .next t ∧ t.power = 2 ∧ t.reg 0xD01001 = s.pwr.source ∧
      t.now = s.now ∧ t.mem = [] ∧ t.cnt 0xE12002 = s.cnt 0xE12002 + 1) ∧
  (∀ (s : State) (b : BootIn) (i : Instr), s.power ≠ 0 → s.pwr.seqRank ≠ 0 →
    ((i = .moduleReset b ∨ i = .warmResetCommand b ∨ (i = .sidebandResetRequest b ∧ s.sbPin 0x0B = true)) ∧ s.pwr.seqRank ≤ 5) ∨
      (i = .powerCycleCommand b ∧ s.pwr.seqRank ≤ 2) ∨ (i = .watchdogExpiry ∧ s.pwr.seqRank ≤ 4) →
    ∃ t, exec i s = .next t ∧ t.cnt 0xE1200B = s.cnt 0xE1200B + 1 ∧ keepsBut [.counts] s t ∧ countsBut [0xE1200B] s t)) ∧
  ((∀ s : State, s.power ≠ 0 → s.power ≠ 5 →
    ∃ t, exec .powerFail s = .next t ∧ t.power = 5 ∧ t.pwr.seqRank = 1 ∧ t.pwr.spindlesStopped = true ∧ t.pwr.txStopped = true ∧ t.flash.progs = [] ∧
      t.flash.buffer = [] ∧ t.reg 0x701001 = 16 ∧ keepsBut [.regs, .flash, .pwr, .free] s t ∧ regsBut [0xD00001, 0x701001] s t) ∧
  (∀ s : State, s.power = 0 ∨ s.power = 5 → exec .powerFail s = .next s) ∧
  (∀ (s : State) (mv : Nat), s.power ≠ 0 → s.power ≠ 5 → (mv < s.reg 0xD0000D ∨ s.reg 0xD0000E < mv) →
    ∃ t, exec (.inputTrip mv) s = .next t ∧ t.power = 5 ∧ t.reg 0xD00002 = mv ∧ t.flash.progs = [] ∧ keepsBut [.regs, .flash, .pwr, .free] s t ∧
      regsBut [0xD00001, 0xD00002, 0x701001] s t) ∧
  (∀ (s : State) (mv : Nat), s.running = true → ((s.reg 0xD0000D ≤ mv ∧ mv < 40000) ∨ (60000 < mv ∧ mv ≤ s.reg 0xD0000E)) →
    ∃ t, exec (.inputExcursion mv) s = .next t ∧ t.reg 0xD00002 = mv ∧ t.cnt 0xE12003 = s.cnt 0xE12003 + 1 ∧ keepsBut [.regs, .counts] s t ∧
      regsBut [0xD00002] s t ∧ countsBut [0xE12003] s t) ∧
  (∀ (s : State) (p : Bool), s.power = 5 →
    ∃ t, exec (.holdUpEnd p) s = .next t ∧ t.power = 0 ∧ t.pwr.source = (if p then 2 else 1) ∧ t.mem = [] ∧ t.dict.saved = s.dict.saved ∧
      t.dict.stored = s.dict.stored ∧ t.sec.opKey = s.sec.opKey ∧ t.sec.dapKey = s.sec.dapKey ∧ t.sec.rootKeys = [] ∧
      (∀ i, 1 ≤ i → i ≤ 4 → t.counter i = s.counter i) ∧ t.flash.stored = s.flash.stored ∧ (∀ k, t.cnt k = 0)))

/-- R398, R523: a fatal fault in any powered state answers the host's outstanding requests, puts the link into its error state with a message on each module in service,
and takes the power state to 4, or to 6 for a trip; while a sequence of equal or higher rank runs it is only counted. R386, R397, R398: the watchdog is fatal. R528: a
per-block reset that is allowed marks its blocks; one that is not changes nothing. Shown to complete here: fatalFault, perBlockReset. -/
def Obligations.FatalFaultsAndBlockResets : Prop :=
  ((∀ (s : State) (cause : Nat), 7 ≤ cause → cause ≤ 9 → 1 ≤ s.reg 0xD00001 → s.reg 0xD00001 ≤ 4 →
    s.pwr.seqRank = 0 ∨ (if cause = 9 then 3 else 4) < s.pwr.seqRank →
    ∃ t, exec (.fatalFault cause) s = .next t ∧ t.reg 0xD00001 = (if cause = 9 then 6 else 4) ∧ t.reg 0xC00003 = 3 ∧ t.link.error = true ∧
      t.link.outstanding = [] ∧ (∀ r ∈ s.link.outstanding, ∃ a ∈ t.link.responses, a.m = r.m ∧ a.tag = r.tag ∧ a.status = 3) ∧
      (∀ m < 4, s.reg (0xC00101 + m) ≤ 1 → ∃ e ∈ t.link.toHost, e.m = m ∧ e.op = 5) ∧ t.pwr.source = cause ∧
      t.cnt 0xE0D012 = s.cnt 0xE0D012 + 1 ∧ keepsBut [.regs, .counts, .link, .pwr, .mgmtOut] s t ∧ regsBut [0xC00003, 0xD00001] s t) ∧
  (∀ (s : State) (cause : Nat), 7 ≤ cause → cause ≤ 9 → 1 ≤ s.reg 0xD00001 → s.reg 0xD00001 ≤ 4 → s.pwr.seqRank ≠ 0 →
    s.pwr.seqRank ≤ (if cause = 9 then 3 else 4) →
    ∃ t, exec (.fatalFault cause) s = .next t ∧ t.cnt 0xE1200B = s.cnt 0xE1200B + 1 ∧ keepsBut [.counts] s t ∧ countsBut [0xE1200B] s t)) ∧
  ((∀ s : State, s.power ≠ 0 → s.pwr.seqRank = 0 ∨ 4 < s.pwr.seqRank →
    ∃ t, exec .watchdogExpiry s = .next t ∧ t.power = 4 ∧ t.link.error = true ∧ t.pwr.source = 8 ∧ t.cnt 0xE0D012 = s.cnt 0xE0D012 + 1 ∧
      keepsBut [.regs, .counts, .link, .pwr, .mgmtOut] s t ∧ regsBut [0xC00003, 0xD00001] s t) ∧
  (∀ (s : State) (sub mask : Nat), s.running = true → 1 ≤ sub → sub ≤ 6 → s.maskRefused sub mask = false →
    ∃ t, exec (.perBlockReset sub mask) s = .next t ∧ t.reg (0xD10000 + sub) = s.reg (0xD10000 + sub) ||| mask % 2 ^ 32 ∧
      (∀ b ∈ maskBits mask, (sub, b, s.now) ∈ t.pwr.blocks) ∧ (sub = 5 → ∀ b ∈ maskBits mask, t.portState b = 0) ∧
      (sub = 6 → ∀ b ∈ maskBits mask, t.reg (0xC00101 + b) = 2) ∧ keepsBut [.regs, .pwr, .ports, .net, .counts] s t) ∧
  (∀ (s : State) (sub mask : Nat), s.running = true → s.maskRefused sub mask = true → exec (.perBlockReset sub mask) s = .next s))

/-- R526, R527, R552: the sideband pins act as their entries say: a tray that is unseated raises a drain of its tray, an alert is kept, a timer ends a pulse and toggles
the locate and timer outputs; locate 0 switches its output off. An event of a function that names no pin changes nothing. A sensor that has been silent for 16 ticks reads
as silent. Writing 1 clears the peak power. R530, R531, R532, R534: a sample gives each domain the worst slack of its monitors and the wear that its mean frequency shows;
a re-plan that is due, or asked for, starts every domain, keeps its second and its temperatures, and is counted. Shown to complete here: trayUnseated, boardThermalAlert,
sidebandTimer, locate, monitorSample, replan, replanRequest, clearPeakPower, sensorSilent. -/
def Obligations.SidebandPinsAndAgeing : Prop :=
  ((∀ (s : State) (e : MapEntry), s.running = true → s.sbPin 0x0C = true → s.map.entries.find? (fun e => e.kind == 1 && e.object == s.reg 0x800003) = some e →
    ∃ t, exec .trayUnseated s = .next t ∧
      (∀ d ∈ s.arbiters e.a, d ≠ s.node → ∃ m, t.hasSent d 0x14 (.fault m) ∧ m.code = 9 ∧ m.node = e.a ∧ m.partKind = partTray) ∧
      keepsBut [.fault, .net, .counts, .mgmtOut] s t) ∧
  (∀ (s : State) (a : Bool), s.running = true → s.sbPin 0x0A = true →
    ∃ t, exec (.boardThermalAlert a) s = .next t ∧ t.pwr = { s.pwr with alert := a } ∧ keepsBut [.pwr] s t) ∧
  (∀ (s : State) (tm : Nat), s.running = true → tm < 4 → s.sbPin 7 = true → s.sbEntry 7 / 16 % 16 = tm →
    ∃ t, exec (.sidebandTimer tm) s = .next t ∧ lk t.pwr.outs 7 = some false ∧ keepsBut [.pwr] s t) ∧
  (∀ (s : State) (tm : Nat), s.running = true → tm < 4 → s.sbPin 8 = true → s.sbEntry 8 / 16 % 16 = tm →
    ∃ t, exec (.sidebandTimer tm) s = .next t ∧ lk t.pwr.outs 8 = some (!s.sbAsserted 8) ∧ keepsBut [.pwr] s t) ∧
  (∀ (s : State) (tm : Nat), s.running = true → tm < 4 → s.sbPin 3 = true → s.sbEntry 3 / 16 % 16 = tm → s.reg 0xD20025 = 1 →
    ∃ t, exec (.sidebandTimer tm) s = .next t ∧ lk t.pwr.outs 3 = some (!s.sbAsserted 3) ∧ keepsBut [.pwr] s t) ∧
  (∀ (s : State) (v : Nat), s.running = true →
    ∃ t, exec (.locate v) s = .next t ∧ t.reg 0xD20025 = v % 2 ∧ (v % 2 = 0 → lk t.pwr.outs 3 = some false) ∧ keepsBut [.regs, .pwr] s t ∧
      regsBut [0xD20025] s t) ∧
  (∀ (s : State) (n k : Nat), s.power ≠ 0 → s.power ≠ 5 → lk s.pwr.silent n = some k → 16 ≤ k →
    ∃ t, exec (.sensorSilent n) s = .next t ∧ t.temp n = -2147483648 ∧ keepsBut [.regs] s t ∧ regsBut [0xD40000 + n] s t) ∧
  (∀ (s : State) (n : Nat), lk s.pwr.silent n = none → exec (.sensorSilent n) s = .next s) ∧
  (∀ (s : State) (a : Bool) (tm : Nat), s.running = true → (s.sbPin 0x0A = false → exec (.boardThermalAlert a) s = .next s) ∧
    (s.sbPin 0x0C = false → exec .trayUnseated s = .next s) ∧
    ((∀ n ∈ [3, 7, 8], s.sbPin n = false ∨ s.sbEntry n / 16 % 16 ≠ tm) → exec (.sidebandTimer tm) s = .next s)) ∧
  (∀ s : State, s.running = true → ∃ t, exec (.clearPeakPower 1) s = .next t ∧ t.reg 0xD00009 = 0 ∧ keepsBut [.regs] s t ∧ regsBut [0xD00009] s t)) ∧
  ((∀ (s : State) (slack : List (Nat × Int)) (freq : List (Nat × Nat)), s.running = true →
    ∃ t, exec (.monitorSample slack freq) s = .next t ∧
      (∀ d < 3, let vs := (monitorsOf d).map fun i => t.regI 32 (0xD30000 + i)
        t.reg (0xD3000D + d) = ofInt 32 (vs.foldl min (vs.headD 0)) ∧
        t.reg (0xD30013 + d) = wearOf d (mean ((List.range 8).map fun i => t.reg (0xD3007C + 8 * d + i)))) ∧
      (∀ (k : Nat) (v : Int), slack = [(k, v)] → 0x1C ≤ k → k ≤ 0x7B → t.reg (0xD30000 + k) = ofInt 32 v) ∧
      (∀ k v : Nat, freq = [(k, v)] → 0x7C ≤ k → k ≤ 0x93 → t.reg (0xD30000 + k) = v) ∧ keepsBut [.regs] s t) ∧
  (∀ s : State, s.running = true → s.reg 0xD30008 ≠ 1 →
    ∃ t, exec (.replanRequest 1) s = .next t ∧ (s.replanWanted = true → exec .replan s = .next t) ∧ t.reg 0xD30008 = 1 ∧ t.reg 0xD30009 = s.seconds ∧
      t.pwr.domains = [{ n := 0, mode := 4 }, { n := 1, mode := 4 }, { n := 2, mode := 4 }] ∧
      t.pwr.replanTemp = (List.range 3).map (fun d => (d, s.temp (0x0D + d))) ∧ t.pwr.replanDue = false ∧ t.cnt 0xE12009 = s.cnt 0xE12009 + 1 ∧
      keepsBut [.regs, .pwr, .counts] s t ∧ regsBut [0xD30008, 0xD30009] s t ∧ countsBut [0xE12009] s t))

/-- R515: while the Molset is not running, no command but those of `beyondRunning` changes anything: no engine acts. -/
def Obligations.NothingActsUnlessRunning : Prop :=
  ∀ (i : Instr) (s : State), s.running = false → beyondRunning i = false → exec i s = .next s

/-! ### Rules stated whole -/

/-- R85: elements narrower than a byte are packed from the least significant bit up. With w bits an element, 1 for B1, 2 for T2, 4 for I4 and F4, byte k of the payload
holds the elements from k · 8 / w on, and element j of the byte stands in the bits from w · j on. -/
def Obligations.NarrowElementsArePacked : Prop :=
  fmtBits 0 = 1 ∧ fmtBits 1 = 2 ∧ fmtBits 2 = 4 ∧ fmtBits 3 = 4 ∧
  ∀ (w : Nat) (cs : List Nat), w = 1 ∨ w = 2 ∨ w = 4 → (∀ c ∈ cs, c < 2 ^ w) →
    (packBits w cs).length = cdiv cs.length (8 / w) ∧
    ∀ k j, j < 8 / w → 8 / w * k + j < cs.length →
      ∃ b, (packBits w cs)[k]? = some b ∧ b.toNat / 2 ^ (w * j) % 2 ^ w = cs.getD (8 / w * k + j) 0

/-- R491: a read shows the value in effect, never a write that is pending; a read of a per-tick counter returns its last-frame view, another counter its value in effect.
-/
def Obligations.ReadsShowTheValueInEffect : Prop :=
  (∀ (s : State) (p : List PWrite) (i sub : Nat) (whole : Bool), ({ s with dict := { s.dict with pend := p } } : State).latch i sub whole = s.latch i sub whole) ∧
  (∀ (s : State) (k : Key) (r : ObjRow), objRow k = some r → r.acc ≠ .wo → cntRow k = none → k / 256 ≠ 0x1F20 → k / 256 ≠ 0x1F21 → k ≠ 0x1F0001 → k ≠ 0x1F0003 →
    s.latch (k / 256) (k % 256) false = .ok (if r.ty.width = 0 then s.blob k else leBytes r.ty.width (s.reg k))) ∧
  (∀ (s : State) (k : Key) (c : CntRow), objRow k = none → cntRow k = some c →
    s.latch (k / 256) (k % 256) false = .ok (leBytes 8 (if c.perTick then (lk s.last k).getD 0 else s.cnt k)))

/-- R552: a sensor that gives no reading is counted, and 16 ticks of it in a row have it read −2,147,483,648; it then counts as at its throttle temperature, so that the
tick counts 0xE120:08 and lowers the duty, until it reads again; its silence is no trip. -/
def Obligations.SilentSensorsAreHot : Prop :=
  (∀ (s : State) (n : Nat), 1 ≤ n → n ≤ 33 →
    (lk (s.readTemps [(n, none)]).pwr.silent n).getD 0 = (lk s.pwr.silent n).getD 0 + 1 ∧ keepsBut [.pwr] s (s.readTemps [(n, none)]) ∧
    ∀ v : Int, -2147483648 < v → v < 2 ^ 31 →
      lk (s.readTemps [(n, some v)]).pwr.silent n = none ∧ (s.readTemps [(n, some v)]).temp n = v ∧
      (v < throttleOf n → (s.readTemps [(n, some v)]).hot n = false)) ∧
  (∀ (s : State) (n k : Nat), s.power ≠ 0 → s.power ≠ 5 → n ∈ sensors → lk s.pwr.silent n = some k → 16 ≤ k →
    ∃ t, exec (.sensorSilent n) s = .next t ∧ t.temp n = -2147483648 ∧ t.hot n = true ∧ keepsBut [.regs] s t ∧ regsBut [0xD40000 + n] s t) ∧
  (∀ (s : State) (n : Nat), n ∈ sensors → s.temp n = -2147483648 →
    s.throttled = true ∧ s.dutyTick.cnt 0xE12008 = s.cnt 0xE12008 + 1 ∧ s.dutyTick.reg 0xD00008 ≤ max 32 (s.reg 0xD00008 - 4)) ∧
  (∀ (s : State) (n : Nat), exec (.thermalTrip n (-2147483648)) s = .next s)

/-- R522: on a thermal trip the Molset first acts under R398, then switches off the search dies, the stacks and the board memory, and enters state 6. It leaves state 6
for state 4 once every sensor lies 20 °C or more below its trip temperature, and not before; R521 then applies: the host's link reset, or the wait, starts it again. Shown
to complete here: thermalTrip, thermalHoldExit. -/
def Obligations.TripsAreHeldUntilCool : Prop :=
  (∀ (s : State) (n : Nat) (r : Int), 1 ≤ s.power → s.power ≤ 4 → s.pwr.seqRank = 0 ∨ 3 < s.pwr.seqRank → 1 ≤ n → n ≤ 33 → tripOf n ≤ r → r < 2 ^ 31 →
    ∃ t u, exec (.thermalTrip n r) s = .next t ∧ exec (.fatalFault 9) (s.setRegI 32 (0xD40000 + n) r) = .next u ∧ t.temp n = r ∧
      t = { u with pwr := { u.pwr with searchOn := false, stacksOn := false, boardOn := false } } ∧ t.power = 6 ∧ t.pwr.source = 9 ∧
      keepsBut [.regs, .counts, .link, .pwr, .mgmtOut] s t ∧ regsBut [0xC00003, 0xD00001, 0xD40000 + n] s t) ∧
  (∀ (s : State) (n : Nat) (r : Int), s.power ≠ 0 → s.pwr.seqRank ≠ 0 → s.pwr.seqRank ≤ 3 → 1 ≤ n → n ≤ 33 → tripOf n ≤ r → r < 2 ^ 31 →
    ∃ t, exec (.thermalTrip n r) s = .next t ∧ t.temp n = r ∧ t.cnt 0xE1200B = s.cnt 0xE1200B + 1 ∧ keepsBut [.regs, .counts] s t ∧
      regsBut [0xD40000 + n] s t ∧ countsBut [0xE1200B] s t) ∧
  (∀ s : State, s.power = 6 → (∀ i ∈ sensors, s.temp i ≠ silentReading ∧ s.temp i + 20000 ≤ tripOf i) →
    ∃ t, exec .thermalHoldExit s = .next t ∧ t.power = 4 ∧ keepsBut [.regs] s t ∧ regsBut [0xD00001] s t) ∧
  (∀ (s : State) (i : Nat), s.power = 6 → i ∈ sensors → tripOf i < s.temp i + 20000 → exec .thermalHoldExit s = .next s) ∧
  (∀ (s : State) (b : BootIn), s.power = 6 → exec (.hostLinkResetRequest b) s = .next s ∧ exec (.fatalResetTimeout b) s = .next s) ∧
  (∀ (s : State) (b : BootIn), s.power = 4 →
    ∃ t, exec (.hostLinkResetRequest b) s = .next t ∧ exec (.fatalResetTimeout b) s = .next t ∧ t = { s.fatalReset b with pending := s.pending })

/-- R341: a tag that fails on a flit whose codewords decoded with no corrected symbol counts in 0xE0C0:04, retrains the link at once, sets a new key (the port has none
until the next key exchange), and reports the link as suspect, with code 4, to the two nodes that decide. -/
def Obligations.FailedTagsRetrainTheLink : Prop :=
  ∀ (s : State) (port : Nat) (f : Flit), s.running = true → port < 16 → (s.portState port = 2 ∨ s.portState port = 3) → (s.port port).keySet = true →
    f.fecOk = true → f.corrected = false → f.tagOk = false →
    ∃ t, exec (.flit port f) s = .next t ∧ t.cnt 0xE0C004 = s.cnt 0xE0C004 + 1 ∧ t.portState port = 1 ∧ (t.port port).keySet = false ∧
      (∀ d ∈ s.arbiters s.node, d ≠ s.node → ∃ m, t.hasSent d 0x14 (.fault m) ∧ m.subtype = 1 ∧ m.code = 4 ∧ m.sender = s.node ∧ m.node = s.node ∧
        m.partKind = partPort ∧ m.partNo = port) ∧
      keepsBut [.regs, .ports, .net, .counts, .fault, .mgmtOut] s t ∧ regsBut [0x800101 + port] s t

/-- R73: a page whose zeroing fails is retired, so that its part never has it free again, and another page takes its place, to be zeroed in its turn; the failure is
counted in 0xE020:0E and reported to part scoring. -/
def Obligations.FailedPagesAreReplaced : Prop :=
  ∀ (s u : State) (z : PageZero) (n : Nat) (p : Page) (h : PHome), s.running = true → s.ctl.zeroings.find? (fun x => x.id == z.id) = some z → z.pages = [n] →
    s.pageAt z.tenant n = some p → s.takePage z.board = some (u, h) →
    ∃ t, exec (.pageZeroingDone z.id [n]) s = .next t ∧ t.pageAt z.tenant n = some { p with home := h } ∧
      t.tier.free = u.tier.free ∧ t.tier.bfree = u.tier.bfree ∧
      (∃ x ∈ t.ctl.zeroings, x.tenant = z.tenant ∧ x.pages = [n] ∧ x.id = s.ctl.next) ∧ t.cnt 0xE0200E = s.cnt 0xE0200E + 1 ∧
      t.fault.events = (s.score (homePart p.home).1 (homePart p.home).2 1024).fault.events ∧
      keepsBut [.ctl, .tier, .counts, .regs, .fault] s t ∧ countsBut [0xE0200E] s t
end

