-- ==== Sys2Proof/Laws/Codes.lean ====
section
/-! SUPPORT. Lemmas about shingles: what their check covers. -/

namespace Sys2Proof.Machine

/-- The check of a shingle does not cover the check field itself (R119). -/
theorem shingleCheck_check (sh : Shingle) (c : BitVec 32) : shingleCheck { sh with check := c } = shingleCheck sh := by
  unfold shingleCheck shingleBytes
  rfl

/-- A shingle with another number is not the one that the item expects (R121). -/
theorem shingleOk_num {sh : Shingle} {n v c m p d : Nat} (h : sh.num ≠ n) : shingleOk sh n v c m p d = false := by
  simp [shingleOk, h]

end Sys2Proof.Machine
end

