-- ==== Sys2Proof/Laws/Maps.lean ====
section
/-! SUPPORT. Lemmas about sparse maps, `updIf` and sorted lists. -/

namespace Sys2Proof.Machine

/-! ### lk, put, del -/

@[simp] theorem lk_nil {α : Type} (k : Nat) : lk ([] : List (Nat × α)) k = none := rfl

theorem lk_cons {α : Type} (a : Nat) (x : α) (l : List (Nat × α)) (k : Nat) : lk ((a, x) :: l) k = if a = k then some x else lk l k := by
  by_cases h : a = k
  · subst h; simp [lk]
  · simp [lk, h, show (a == k) = false by simpa using h]

/-- What was stored is read back. -/
@[simp] theorem lk_put_same {α : Type} (l : List (Nat × α)) (k : Nat) (v : α) : lk (put l k v) k = some v := by
  induction l with
  | nil => simp [put, lk_cons]
  | cons p r ih =>
    obtain ⟨a, x⟩ := p
    simp only [put]
    split
    · simp [lk_cons]
    · split
      · simp [lk_cons]
      · rename_i h1 h2
        rw [lk_cons, if_neg (by intro h; simp [h] at h2), ih]

/-- Storing under one key leaves the others. -/
theorem lk_put_ne {α : Type} (l : List (Nat × α)) {k j : Nat} (v : α) (h : j ≠ k) : lk (put l k v) j = lk l j := by
  induction l with
  | nil => simp [put, lk_cons, h.symm]
  | cons p r ih =>
    obtain ⟨a, x⟩ := p
    simp only [put]
    split
    · rw [lk_cons, if_neg h.symm]
    · split
      · rename_i h1 h2
        have : k = a := by simpa using h2
        subst this
        rw [lk_cons, lk_cons, if_neg h.symm, if_neg h.symm]
      · rw [lk_cons, lk_cons, ih]

theorem lk_put {α : Type} (l : List (Nat × α)) (k j : Nat) (v : α) : lk (put l k v) j = if j = k then some v else lk l j := by
  split
  · subst_vars; simp
  · exact lk_put_ne l v ‹_›

theorem lk_filter_key {α : Type} (l : List (Nat × α)) (p : Nat → Bool) (k : Nat) :
    lk (l.filter fun x => p x.1) k = if p k then lk l k else none := by
  induction l with
  | nil => simp
  | cons q r ih =>
    obtain ⟨a, x⟩ := q
    by_cases hp : p a
    · rw [List.filter_cons_of_pos (by simpa using hp), lk_cons, lk_cons, ih]
      by_cases h : a = k
      · subst h; simp [hp]
      · simp [h]
    · rw [List.filter_cons_of_neg (by simpa using hp), ih, lk_cons]
      by_cases h : a = k
      · subst h; simp [hp]
      · simp [h]

@[simp] theorem lk_del_same {α : Type} (l : List (Nat × α)) (k : Nat) : lk (del l k) k = none := by
  simp only [del, lk_filter_key l (fun a => a != k)]; simp

theorem lk_del_ne {α : Type} (l : List (Nat × α)) {k j : Nat} (h : j ≠ k) : lk (del l k) j = lk l j := by
  simp only [del, lk_filter_key l (fun a => a != k)]; simp [h]

/-! ### updIf -/

@[simp] theorem updIf_nil {α : Type} (p : α → Bool) (f : α → α) : updIf p f [] = [] := rfl

@[simp] theorem updIf_length {α : Type} (p : α → Bool) (f : α → α) (l : List α) : (updIf p f l).length = l.length := by simp [updIf]

theorem mem_updIf {α : Type} {p : α → Bool} {f : α → α} {l : List α} {y : α} :
    y ∈ updIf p f l ↔ ∃ x ∈ l, (if p x then f x else x) = y := by simp [updIf]

/-- An element that passes the test stands changed in the list. -/
theorem mem_updIf_of_pos {α : Type} {p : α → Bool} {f : α → α} {l : List α} {x : α} (hx : x ∈ l) (hp : p x = true) : f x ∈ updIf p f l :=
  mem_updIf.2 ⟨x, hx, by simp [hp]⟩

/-- An element that fails it stands as it was. -/
theorem mem_updIf_of_neg {α : Type} {p : α → Bool} {f : α → α} {l : List α} {x : α} (hx : x ∈ l) (hp : p x = false) : x ∈ updIf p f l :=
  mem_updIf.2 ⟨x, hx, by simp [hp]⟩

/-- Where no element passes the test, the list stays. -/
theorem updIf_of_none {α : Type} {p : α → Bool} {f : α → α} {l : List α} (h : ∀ x ∈ l, p x = false) : updIf p f l = l := by
  unfold updIf
  conv_rhs => rw [← List.map_id l]
  exact List.map_congr_left fun x hx => by simp [h x hx]

/-! ### Sorting -/

@[simp] theorem mem_insertBy {α : Type} {lt : α → α → Bool} {x y : α} {l : List α} : y ∈ insertBy lt x l ↔ y = x ∨ y ∈ l := by
  induction l with
  | nil => simp [insertBy]
  | cons z r ih =>
    simp only [insertBy]
    split
    · simp
    · simp [ih, or_left_comm]

@[simp] theorem length_insertBy {α : Type} (lt : α → α → Bool) (x : α) (l : List α) : (insertBy lt x l).length = l.length + 1 := by
  induction l with
  | nil => simp [insertBy]
  | cons z r ih => simp only [insertBy]; split <;> simp [ih]

theorem mem_foldl_insertBy {α : Type} {lt : α → α → Bool} {y : α} (l acc : List α) :
    y ∈ l.foldl (fun a x => insertBy lt x a) acc ↔ y ∈ acc ∨ y ∈ l := by
  induction l generalizing acc with
  | nil => simp
  | cons z r ih => simp [ih, or_assoc, or_comm, or_left_comm]

@[simp] theorem mem_sortBy {α : Type} {lt : α → α → Bool} {y : α} {l : List α} : y ∈ sortBy lt l ↔ y ∈ l := by
  simp [sortBy, mem_foldl_insertBy]

end Sys2Proof.Machine
end

