-- ==== Sys2Proof/Laws/State.lean ====
section
/-! SUPPORT. One lemma per field per update of State: what the update leaves as it was. -/

namespace Sys2Proof.Machine

/-! ### State.setReg -/

@[simp] theorem State.setReg_pending (s : State) (k : Key) (v : Nat) : (s.setReg k v).pending = s.pending := rfl
@[simp] theorem State.setReg_blobs (s : State) (k : Key) (v : Nat) : (s.setReg k v).blobs = s.blobs := rfl
@[simp] theorem State.setReg_cum (s : State) (k : Key) (v : Nat) : (s.setReg k v).cum = s.cum := rfl
@[simp] theorem State.setReg_run (s : State) (k : Key) (v : Nat) : (s.setReg k v).run = s.run := rfl
@[simp] theorem State.setReg_last (s : State) (k : Key) (v : Nat) : (s.setReg k v).last = s.last := rfl
@[simp] theorem State.setReg_dict (s : State) (k : Key) (v : Nat) : (s.setReg k v).dict = s.dict := rfl
@[simp] theorem State.setReg_mem (s : State) (k : Key) (v : Nat) : (s.setReg k v).mem = s.mem := rfl
@[simp] theorem State.setReg_poison (s : State) (k : Key) (v : Nat) : (s.setReg k v).poison = s.poison := rfl
@[simp] theorem State.setReg_time (s : State) (k : Key) (v : Nat) : (s.setReg k v).time = s.time := rfl
@[simp] theorem State.setReg_spin (s : State) (k : Key) (v : Nat) : (s.setReg k v).spin = s.spin := rfl
@[simp] theorem State.setReg_ctl (s : State) (k : Key) (v : Nat) : (s.setReg k v).ctl = s.ctl := rfl
@[simp] theorem State.setReg_home (s : State) (k : Key) (v : Nat) : (s.setReg k v).home = s.home := rfl
@[simp] theorem State.setReg_copy (s : State) (k : Key) (v : Nat) : (s.setReg k v).copy = s.copy := rfl
@[simp] theorem State.setReg_passes (s : State) (k : Key) (v : Nat) : (s.setReg k v).passes = s.passes := rfl
@[simp] theorem State.setReg_filters (s : State) (k : Key) (v : Nat) : (s.setReg k v).filters = s.filters := rfl
@[simp] theorem State.setReg_rerank (s : State) (k : Key) (v : Nat) : (s.setReg k v).rerank = s.rerank := rfl
@[simp] theorem State.setReg_idx (s : State) (k : Key) (v : Nat) : (s.setReg k v).idx = s.idx := rfl
@[simp] theorem State.setReg_regWait (s : State) (k : Key) (v : Nat) : (s.setReg k v).regWait = s.regWait := rfl
@[simp] theorem State.setReg_upd (s : State) (k : Key) (v : Nat) : (s.setReg k v).upd = s.upd := rfl
@[simp] theorem State.setReg_builds (s : State) (k : Key) (v : Nat) : (s.setReg k v).builds = s.builds := rfl
@[simp] theorem State.setReg_dense (s : State) (k : Key) (v : Nat) : (s.setReg k v).dense = s.dense := rfl
@[simp] theorem State.setReg_emb (s : State) (k : Key) (v : Nat) : (s.setReg k v).emb = s.emb := rfl
@[simp] theorem State.setReg_tier (s : State) (k : Key) (v : Nat) : (s.setReg k v).tier = s.tier := rfl
@[simp] theorem State.setReg_flash (s : State) (k : Key) (v : Nat) : (s.setReg k v).flash = s.flash := rfl
@[simp] theorem State.setReg_ports (s : State) (k : Key) (v : Nat) : (s.setReg k v).ports = s.ports := rfl
@[simp] theorem State.setReg_net (s : State) (k : Key) (v : Nat) : (s.setReg k v).net = s.net := rfl
@[simp] theorem State.setReg_map (s : State) (k : Key) (v : Nat) : (s.setReg k v).map = s.map := rfl
@[simp] theorem State.setReg_fault (s : State) (k : Key) (v : Nat) : (s.setReg k v).fault = s.fault := rfl
@[simp] theorem State.setReg_sched (s : State) (k : Key) (v : Nat) : (s.setReg k v).sched = s.sched := rfl
@[simp] theorem State.setReg_rings (s : State) (k : Key) (v : Nat) : (s.setReg k v).rings = s.rings := rfl
@[simp] theorem State.setReg_link (s : State) (k : Key) (v : Nat) : (s.setReg k v).link = s.link := rfl
@[simp] theorem State.setReg_sec (s : State) (k : Key) (v : Nat) : (s.setReg k v).sec = s.sec := rfl
@[simp] theorem State.setReg_pwr (s : State) (k : Key) (v : Nat) : (s.setReg k v).pwr = s.pwr := rfl
@[simp] theorem State.setReg_mgmtOut (s : State) (k : Key) (v : Nat) : (s.setReg k v).mgmtOut = s.mgmtOut := rfl
@[simp] theorem State.setReg_free (s : State) (k : Key) (v : Nat) : (s.setReg k v).free = s.free := rfl

/-! ### State.setRegI -/

@[simp] theorem State.setRegI_pending (s : State) (w : Nat) (k : Key) (i : Int) : (s.setRegI w k i).pending = s.pending := rfl
@[simp] theorem State.setRegI_blobs (s : State) (w : Nat) (k : Key) (i : Int) : (s.setRegI w k i).blobs = s.blobs := rfl
@[simp] theorem State.setRegI_cum (s : State) (w : Nat) (k : Key) (i : Int) : (s.setRegI w k i).cum = s.cum := rfl
@[simp] theorem State.setRegI_run (s : State) (w : Nat) (k : Key) (i : Int) : (s.setRegI w k i).run = s.run := rfl
@[simp] theorem State.setRegI_last (s : State) (w : Nat) (k : Key) (i : Int) : (s.setRegI w k i).last = s.last := rfl
@[simp] theorem State.setRegI_dict (s : State) (w : Nat) (k : Key) (i : Int) : (s.setRegI w k i).dict = s.dict := rfl
@[simp] theorem State.setRegI_mem (s : State) (w : Nat) (k : Key) (i : Int) : (s.setRegI w k i).mem = s.mem := rfl
@[simp] theorem State.setRegI_poison (s : State) (w : Nat) (k : Key) (i : Int) : (s.setRegI w k i).poison = s.poison := rfl
@[simp] theorem State.setRegI_time (s : State) (w : Nat) (k : Key) (i : Int) : (s.setRegI w k i).time = s.time := rfl
@[simp] theorem State.setRegI_spin (s : State) (w : Nat) (k : Key) (i : Int) : (s.setRegI w k i).spin = s.spin := rfl
@[simp] theorem State.setRegI_ctl (s : State) (w : Nat) (k : Key) (i : Int) : (s.setRegI w k i).ctl = s.ctl := rfl
@[simp] theorem State.setRegI_home (s : State) (w : Nat) (k : Key) (i : Int) : (s.setRegI w k i).home = s.home := rfl
@[simp] theorem State.setRegI_copy (s : State) (w : Nat) (k : Key) (i : Int) : (s.setRegI w k i).copy = s.copy := rfl
@[simp] theorem State.setRegI_passes (s : State) (w : Nat) (k : Key) (i : Int) : (s.setRegI w k i).passes = s.passes := rfl
@[simp] theorem State.setRegI_filters (s : State) (w : Nat) (k : Key) (i : Int) : (s.setRegI w k i).filters = s.filters := rfl
@[simp] theorem State.setRegI_rerank (s : State) (w : Nat) (k : Key) (i : Int) : (s.setRegI w k i).rerank = s.rerank := rfl
@[simp] theorem State.setRegI_idx (s : State) (w : Nat) (k : Key) (i : Int) : (s.setRegI w k i).idx = s.idx := rfl
@[simp] theorem State.setRegI_regWait (s : State) (w : Nat) (k : Key) (i : Int) : (s.setRegI w k i).regWait = s.regWait := rfl
@[simp] theorem State.setRegI_upd (s : State) (w : Nat) (k : Key) (i : Int) : (s.setRegI w k i).upd = s.upd := rfl
@[simp] theorem State.setRegI_builds (s : State) (w : Nat) (k : Key) (i : Int) : (s.setRegI w k i).builds = s.builds := rfl
@[simp] theorem State.setRegI_dense (s : State) (w : Nat) (k : Key) (i : Int) : (s.setRegI w k i).dense = s.dense := rfl
@[simp] theorem State.setRegI_emb (s : State) (w : Nat) (k : Key) (i : Int) : (s.setRegI w k i).emb = s.emb := rfl
@[simp] theorem State.setRegI_tier (s : State) (w : Nat) (k : Key) (i : Int) : (s.setRegI w k i).tier = s.tier := rfl
@[simp] theorem State.setRegI_flash (s : State) (w : Nat) (k : Key) (i : Int) : (s.setRegI w k i).flash = s.flash := rfl
@[simp] theorem State.setRegI_ports (s : State) (w : Nat) (k : Key) (i : Int) : (s.setRegI w k i).ports = s.ports := rfl
@[simp] theorem State.setRegI_net (s : State) (w : Nat) (k : Key) (i : Int) : (s.setRegI w k i).net = s.net := rfl
@[simp] theorem State.setRegI_map (s : State) (w : Nat) (k : Key) (i : Int) : (s.setRegI w k i).map = s.map := rfl
@[simp] theorem State.setRegI_fault (s : State) (w : Nat) (k : Key) (i : Int) : (s.setRegI w k i).fault = s.fault := rfl
@[simp] theorem State.setRegI_sched (s : State) (w : Nat) (k : Key) (i : Int) : (s.setRegI w k i).sched = s.sched := rfl
@[simp] theorem State.setRegI_rings (s : State) (w : Nat) (k : Key) (i : Int) : (s.setRegI w k i).rings = s.rings := rfl
@[simp] theorem State.setRegI_link (s : State) (w : Nat) (k : Key) (i : Int) : (s.setRegI w k i).link = s.link := rfl
@[simp] theorem State.setRegI_sec (s : State) (w : Nat) (k : Key) (i : Int) : (s.setRegI w k i).sec = s.sec := rfl
@[simp] theorem State.setRegI_pwr (s : State) (w : Nat) (k : Key) (i : Int) : (s.setRegI w k i).pwr = s.pwr := rfl
@[simp] theorem State.setRegI_mgmtOut (s : State) (w : Nat) (k : Key) (i : Int) : (s.setRegI w k i).mgmtOut = s.mgmtOut := rfl
@[simp] theorem State.setRegI_free (s : State) (w : Nat) (k : Key) (i : Int) : (s.setRegI w k i).free = s.free := rfl

/-! ### State.setBlob -/

@[simp] theorem State.setBlob_pending (s : State) (k : Key) (b : List Byte) : (s.setBlob k b).pending = s.pending := rfl
@[simp] theorem State.setBlob_regs (s : State) (k : Key) (b : List Byte) : (s.setBlob k b).regs = s.regs := rfl
@[simp] theorem State.setBlob_cum (s : State) (k : Key) (b : List Byte) : (s.setBlob k b).cum = s.cum := rfl
@[simp] theorem State.setBlob_run (s : State) (k : Key) (b : List Byte) : (s.setBlob k b).run = s.run := rfl
@[simp] theorem State.setBlob_last (s : State) (k : Key) (b : List Byte) : (s.setBlob k b).last = s.last := rfl
@[simp] theorem State.setBlob_dict (s : State) (k : Key) (b : List Byte) : (s.setBlob k b).dict = s.dict := rfl
@[simp] theorem State.setBlob_mem (s : State) (k : Key) (b : List Byte) : (s.setBlob k b).mem = s.mem := rfl
@[simp] theorem State.setBlob_poison (s : State) (k : Key) (b : List Byte) : (s.setBlob k b).poison = s.poison := rfl
@[simp] theorem State.setBlob_time (s : State) (k : Key) (b : List Byte) : (s.setBlob k b).time = s.time := rfl
@[simp] theorem State.setBlob_spin (s : State) (k : Key) (b : List Byte) : (s.setBlob k b).spin = s.spin := rfl
@[simp] theorem State.setBlob_ctl (s : State) (k : Key) (b : List Byte) : (s.setBlob k b).ctl = s.ctl := rfl
@[simp] theorem State.setBlob_home (s : State) (k : Key) (b : List Byte) : (s.setBlob k b).home = s.home := rfl
@[simp] theorem State.setBlob_copy (s : State) (k : Key) (b : List Byte) : (s.setBlob k b).copy = s.copy := rfl
@[simp] theorem State.setBlob_passes (s : State) (k : Key) (b : List Byte) : (s.setBlob k b).passes = s.passes := rfl
@[simp] theorem State.setBlob_filters (s : State) (k : Key) (b : List Byte) : (s.setBlob k b).filters = s.filters := rfl
@[simp] theorem State.setBlob_rerank (s : State) (k : Key) (b : List Byte) : (s.setBlob k b).rerank = s.rerank := rfl
@[simp] theorem State.setBlob_idx (s : State) (k : Key) (b : List Byte) : (s.setBlob k b).idx = s.idx := rfl
@[simp] theorem State.setBlob_regWait (s : State) (k : Key) (b : List Byte) : (s.setBlob k b).regWait = s.regWait := rfl
@[simp] theorem State.setBlob_upd (s : State) (k : Key) (b : List Byte) : (s.setBlob k b).upd = s.upd := rfl
@[simp] theorem State.setBlob_builds (s : State) (k : Key) (b : List Byte) : (s.setBlob k b).builds = s.builds := rfl
@[simp] theorem State.setBlob_dense (s : State) (k : Key) (b : List Byte) : (s.setBlob k b).dense = s.dense := rfl
@[simp] theorem State.setBlob_emb (s : State) (k : Key) (b : List Byte) : (s.setBlob k b).emb = s.emb := rfl
@[simp] theorem State.setBlob_tier (s : State) (k : Key) (b : List Byte) : (s.setBlob k b).tier = s.tier := rfl
@[simp] theorem State.setBlob_flash (s : State) (k : Key) (b : List Byte) : (s.setBlob k b).flash = s.flash := rfl
@[simp] theorem State.setBlob_ports (s : State) (k : Key) (b : List Byte) : (s.setBlob k b).ports = s.ports := rfl
@[simp] theorem State.setBlob_net (s : State) (k : Key) (b : List Byte) : (s.setBlob k b).net = s.net := rfl
@[simp] theorem State.setBlob_map (s : State) (k : Key) (b : List Byte) : (s.setBlob k b).map = s.map := rfl
@[simp] theorem State.setBlob_fault (s : State) (k : Key) (b : List Byte) : (s.setBlob k b).fault = s.fault := rfl
@[simp] theorem State.setBlob_sched (s : State) (k : Key) (b : List Byte) : (s.setBlob k b).sched = s.sched := rfl
@[simp] theorem State.setBlob_rings (s : State) (k : Key) (b : List Byte) : (s.setBlob k b).rings = s.rings := rfl
@[simp] theorem State.setBlob_link (s : State) (k : Key) (b : List Byte) : (s.setBlob k b).link = s.link := rfl
@[simp] theorem State.setBlob_sec (s : State) (k : Key) (b : List Byte) : (s.setBlob k b).sec = s.sec := rfl
@[simp] theorem State.setBlob_pwr (s : State) (k : Key) (b : List Byte) : (s.setBlob k b).pwr = s.pwr := rfl
@[simp] theorem State.setBlob_mgmtOut (s : State) (k : Key) (b : List Byte) : (s.setBlob k b).mgmtOut = s.mgmtOut := rfl
@[simp] theorem State.setBlob_free (s : State) (k : Key) (b : List Byte) : (s.setBlob k b).free = s.free := rfl

/-! ### State.bump -/

@[simp] theorem State.bump_pending (s : State) (k : Key) (n : Nat) : (s.bump k n).pending = s.pending := by unfold State.bump; split <;> rfl
@[simp] theorem State.bump_regs (s : State) (k : Key) (n : Nat) : (s.bump k n).regs = s.regs := by unfold State.bump; split <;> rfl
@[simp] theorem State.bump_blobs (s : State) (k : Key) (n : Nat) : (s.bump k n).blobs = s.blobs := by unfold State.bump; split <;> rfl
@[simp] theorem State.bump_last (s : State) (k : Key) (n : Nat) : (s.bump k n).last = s.last := by unfold State.bump; split <;> rfl
@[simp] theorem State.bump_dict (s : State) (k : Key) (n : Nat) : (s.bump k n).dict = s.dict := by unfold State.bump; split <;> rfl
@[simp] theorem State.bump_mem (s : State) (k : Key) (n : Nat) : (s.bump k n).mem = s.mem := by unfold State.bump; split <;> rfl
@[simp] theorem State.bump_poison (s : State) (k : Key) (n : Nat) : (s.bump k n).poison = s.poison := by unfold State.bump; split <;> rfl
@[simp] theorem State.bump_time (s : State) (k : Key) (n : Nat) : (s.bump k n).time = s.time := by unfold State.bump; split <;> rfl
@[simp] theorem State.bump_spin (s : State) (k : Key) (n : Nat) : (s.bump k n).spin = s.spin := by unfold State.bump; split <;> rfl
@[simp] theorem State.bump_ctl (s : State) (k : Key) (n : Nat) : (s.bump k n).ctl = s.ctl := by unfold State.bump; split <;> rfl
@[simp] theorem State.bump_home (s : State) (k : Key) (n : Nat) : (s.bump k n).home = s.home := by unfold State.bump; split <;> rfl
@[simp] theorem State.bump_copy (s : State) (k : Key) (n : Nat) : (s.bump k n).copy = s.copy := by unfold State.bump; split <;> rfl
@[simp] theorem State.bump_passes (s : State) (k : Key) (n : Nat) : (s.bump k n).passes = s.passes := by unfold State.bump; split <;> rfl
@[simp] theorem State.bump_filters (s : State) (k : Key) (n : Nat) : (s.bump k n).filters = s.filters := by unfold State.bump; split <;> rfl
@[simp] theorem State.bump_rerank (s : State) (k : Key) (n : Nat) : (s.bump k n).rerank = s.rerank := by unfold State.bump; split <;> rfl
@[simp] theorem State.bump_idx (s : State) (k : Key) (n : Nat) : (s.bump k n).idx = s.idx := by unfold State.bump; split <;> rfl
@[simp] theorem State.bump_regWait (s : State) (k : Key) (n : Nat) : (s.bump k n).regWait = s.regWait := by unfold State.bump; split <;> rfl
@[simp] theorem State.bump_upd (s : State) (k : Key) (n : Nat) : (s.bump k n).upd = s.upd := by unfold State.bump; split <;> rfl
@[simp] theorem State.bump_builds (s : State) (k : Key) (n : Nat) : (s.bump k n).builds = s.builds := by unfold State.bump; split <;> rfl
@[simp] theorem State.bump_dense (s : State) (k : Key) (n : Nat) : (s.bump k n).dense = s.dense := by unfold State.bump; split <;> rfl
@[simp] theorem State.bump_emb (s : State) (k : Key) (n : Nat) : (s.bump k n).emb = s.emb := by unfold State.bump; split <;> rfl
@[simp] theorem State.bump_tier (s : State) (k : Key) (n : Nat) : (s.bump k n).tier = s.tier := by unfold State.bump; split <;> rfl
@[simp] theorem State.bump_flash (s : State) (k : Key) (n : Nat) : (s.bump k n).flash = s.flash := by unfold State.bump; split <;> rfl
@[simp] theorem State.bump_ports (s : State) (k : Key) (n : Nat) : (s.bump k n).ports = s.ports := by unfold State.bump; split <;> rfl
@[simp] theorem State.bump_net (s : State) (k : Key) (n : Nat) : (s.bump k n).net = s.net := by unfold State.bump; split <;> rfl
@[simp] theorem State.bump_map (s : State) (k : Key) (n : Nat) : (s.bump k n).map = s.map := by unfold State.bump; split <;> rfl
@[simp] theorem State.bump_fault (s : State) (k : Key) (n : Nat) : (s.bump k n).fault = s.fault := by unfold State.bump; split <;> rfl
@[simp] theorem State.bump_sched (s : State) (k : Key) (n : Nat) : (s.bump k n).sched = s.sched := by unfold State.bump; split <;> rfl
@[simp] theorem State.bump_rings (s : State) (k : Key) (n : Nat) : (s.bump k n).rings = s.rings := by unfold State.bump; split <;> rfl
@[simp] theorem State.bump_link (s : State) (k : Key) (n : Nat) : (s.bump k n).link = s.link := by unfold State.bump; split <;> rfl
@[simp] theorem State.bump_sec (s : State) (k : Key) (n : Nat) : (s.bump k n).sec = s.sec := by unfold State.bump; split <;> rfl
@[simp] theorem State.bump_pwr (s : State) (k : Key) (n : Nat) : (s.bump k n).pwr = s.pwr := by unfold State.bump; split <;> rfl
@[simp] theorem State.bump_mgmtOut (s : State) (k : Key) (n : Nat) : (s.bump k n).mgmtOut = s.mgmtOut := by unfold State.bump; split <;> rfl
@[simp] theorem State.bump_free (s : State) (k : Key) (n : Nat) : (s.bump k n).free = s.free := by unfold State.bump; split <;> rfl

/-! ### State.bumpIf -/

@[simp] theorem State.bumpIf_pending (s : State) (b : Bool) (k : Key) : (s.bumpIf b k).pending = s.pending := by unfold State.bumpIf; split <;> simp
@[simp] theorem State.bumpIf_regs (s : State) (b : Bool) (k : Key) : (s.bumpIf b k).regs = s.regs := by unfold State.bumpIf; split <;> simp
@[simp] theorem State.bumpIf_blobs (s : State) (b : Bool) (k : Key) : (s.bumpIf b k).blobs = s.blobs := by unfold State.bumpIf; split <;> simp
@[simp] theorem State.bumpIf_last (s : State) (b : Bool) (k : Key) : (s.bumpIf b k).last = s.last := by unfold State.bumpIf; split <;> simp
@[simp] theorem State.bumpIf_dict (s : State) (b : Bool) (k : Key) : (s.bumpIf b k).dict = s.dict := by unfold State.bumpIf; split <;> simp
@[simp] theorem State.bumpIf_mem (s : State) (b : Bool) (k : Key) : (s.bumpIf b k).mem = s.mem := by unfold State.bumpIf; split <;> simp
@[simp] theorem State.bumpIf_poison (s : State) (b : Bool) (k : Key) : (s.bumpIf b k).poison = s.poison := by unfold State.bumpIf; split <;> simp
@[simp] theorem State.bumpIf_time (s : State) (b : Bool) (k : Key) : (s.bumpIf b k).time = s.time := by unfold State.bumpIf; split <;> simp
@[simp] theorem State.bumpIf_spin (s : State) (b : Bool) (k : Key) : (s.bumpIf b k).spin = s.spin := by unfold State.bumpIf; split <;> simp
@[simp] theorem State.bumpIf_ctl (s : State) (b : Bool) (k : Key) : (s.bumpIf b k).ctl = s.ctl := by unfold State.bumpIf; split <;> simp
@[simp] theorem State.bumpIf_home (s : State) (b : Bool) (k : Key) : (s.bumpIf b k).home = s.home := by unfold State.bumpIf; split <;> simp
@[simp] theorem State.bumpIf_copy (s : State) (b : Bool) (k : Key) : (s.bumpIf b k).copy = s.copy := by unfold State.bumpIf; split <;> simp
@[simp] theorem State.bumpIf_passes (s : State) (b : Bool) (k : Key) : (s.bumpIf b k).passes = s.passes := by unfold State.bumpIf; split <;> simp
@[simp] theorem State.bumpIf_filters (s : State) (b : Bool) (k : Key) : (s.bumpIf b k).filters = s.filters := by unfold State.bumpIf; split <;> simp
@[simp] theorem State.bumpIf_rerank (s : State) (b : Bool) (k : Key) : (s.bumpIf b k).rerank = s.rerank := by unfold State.bumpIf; split <;> simp
@[simp] theorem State.bumpIf_idx (s : State) (b : Bool) (k : Key) : (s.bumpIf b k).idx = s.idx := by unfold State.bumpIf; split <;> simp
@[simp] theorem State.bumpIf_regWait (s : State) (b : Bool) (k : Key) : (s.bumpIf b k).regWait = s.regWait := by unfold State.bumpIf; split <;> simp
@[simp] theorem State.bumpIf_upd (s : State) (b : Bool) (k : Key) : (s.bumpIf b k).upd = s.upd := by unfold State.bumpIf; split <;> simp
@[simp] theorem State.bumpIf_builds (s : State) (b : Bool) (k : Key) : (s.bumpIf b k).builds = s.builds := by unfold State.bumpIf; split <;> simp
@[simp] theorem State.bumpIf_dense (s : State) (b : Bool) (k : Key) : (s.bumpIf b k).dense = s.dense := by unfold State.bumpIf; split <;> simp
@[simp] theorem State.bumpIf_emb (s : State) (b : Bool) (k : Key) : (s.bumpIf b k).emb = s.emb := by unfold State.bumpIf; split <;> simp
@[simp] theorem State.bumpIf_tier (s : State) (b : Bool) (k : Key) : (s.bumpIf b k).tier = s.tier := by unfold State.bumpIf; split <;> simp
@[simp] theorem State.bumpIf_flash (s : State) (b : Bool) (k : Key) : (s.bumpIf b k).flash = s.flash := by unfold State.bumpIf; split <;> simp
@[simp] theorem State.bumpIf_ports (s : State) (b : Bool) (k : Key) : (s.bumpIf b k).ports = s.ports := by unfold State.bumpIf; split <;> simp
@[simp] theorem State.bumpIf_net (s : State) (b : Bool) (k : Key) : (s.bumpIf b k).net = s.net := by unfold State.bumpIf; split <;> simp
@[simp] theorem State.bumpIf_map (s : State) (b : Bool) (k : Key) : (s.bumpIf b k).map = s.map := by unfold State.bumpIf; split <;> simp
@[simp] theorem State.bumpIf_fault (s : State) (b : Bool) (k : Key) : (s.bumpIf b k).fault = s.fault := by unfold State.bumpIf; split <;> simp
@[simp] theorem State.bumpIf_sched (s : State) (b : Bool) (k : Key) : (s.bumpIf b k).sched = s.sched := by unfold State.bumpIf; split <;> simp
@[simp] theorem State.bumpIf_rings (s : State) (b : Bool) (k : Key) : (s.bumpIf b k).rings = s.rings := by unfold State.bumpIf; split <;> simp
@[simp] theorem State.bumpIf_link (s : State) (b : Bool) (k : Key) : (s.bumpIf b k).link = s.link := by unfold State.bumpIf; split <;> simp
@[simp] theorem State.bumpIf_sec (s : State) (b : Bool) (k : Key) : (s.bumpIf b k).sec = s.sec := by unfold State.bumpIf; split <;> simp
@[simp] theorem State.bumpIf_pwr (s : State) (b : Bool) (k : Key) : (s.bumpIf b k).pwr = s.pwr := by unfold State.bumpIf; split <;> simp
@[simp] theorem State.bumpIf_mgmtOut (s : State) (b : Bool) (k : Key) : (s.bumpIf b k).mgmtOut = s.mgmtOut := by unfold State.bumpIf; split <;> simp
@[simp] theorem State.bumpIf_free (s : State) (b : Bool) (k : Key) : (s.bumpIf b k).free = s.free := by unfold State.bumpIf; split <;> simp

/-! ### State.issue -/

@[simp] theorem State.issue_pending (s : State) (i : Nat) (c : Option (Nat × Nat)) (t a g : Nat) (q : Option QName) : (s.issue i c t a g q).pending = s.pending := rfl
@[simp] theorem State.issue_regs (s : State) (i : Nat) (c : Option (Nat × Nat)) (t a g : Nat) (q : Option QName) : (s.issue i c t a g q).regs = s.regs := rfl
@[simp] theorem State.issue_blobs (s : State) (i : Nat) (c : Option (Nat × Nat)) (t a g : Nat) (q : Option QName) : (s.issue i c t a g q).blobs = s.blobs := rfl
@[simp] theorem State.issue_cum (s : State) (i : Nat) (c : Option (Nat × Nat)) (t a g : Nat) (q : Option QName) : (s.issue i c t a g q).cum = s.cum := rfl
@[simp] theorem State.issue_run (s : State) (i : Nat) (c : Option (Nat × Nat)) (t a g : Nat) (q : Option QName) : (s.issue i c t a g q).run = s.run := rfl
@[simp] theorem State.issue_last (s : State) (i : Nat) (c : Option (Nat × Nat)) (t a g : Nat) (q : Option QName) : (s.issue i c t a g q).last = s.last := rfl
@[simp] theorem State.issue_dict (s : State) (i : Nat) (c : Option (Nat × Nat)) (t a g : Nat) (q : Option QName) : (s.issue i c t a g q).dict = s.dict := rfl
@[simp] theorem State.issue_mem (s : State) (i : Nat) (c : Option (Nat × Nat)) (t a g : Nat) (q : Option QName) : (s.issue i c t a g q).mem = s.mem := rfl
@[simp] theorem State.issue_poison (s : State) (i : Nat) (c : Option (Nat × Nat)) (t a g : Nat) (q : Option QName) : (s.issue i c t a g q).poison = s.poison := rfl
@[simp] theorem State.issue_time (s : State) (i : Nat) (c : Option (Nat × Nat)) (t a g : Nat) (q : Option QName) : (s.issue i c t a g q).time = s.time := rfl
@[simp] theorem State.issue_spin (s : State) (i : Nat) (c : Option (Nat × Nat)) (t a g : Nat) (q : Option QName) : (s.issue i c t a g q).spin = s.spin := rfl
@[simp] theorem State.issue_home (s : State) (i : Nat) (c : Option (Nat × Nat)) (t a g : Nat) (q : Option QName) : (s.issue i c t a g q).home = s.home := rfl
@[simp] theorem State.issue_copy (s : State) (i : Nat) (c : Option (Nat × Nat)) (t a g : Nat) (q : Option QName) : (s.issue i c t a g q).copy = s.copy := rfl
@[simp] theorem State.issue_passes (s : State) (i : Nat) (c : Option (Nat × Nat)) (t a g : Nat) (q : Option QName) : (s.issue i c t a g q).passes = s.passes := rfl
@[simp] theorem State.issue_filters (s : State) (i : Nat) (c : Option (Nat × Nat)) (t a g : Nat) (q : Option QName) : (s.issue i c t a g q).filters = s.filters := rfl
@[simp] theorem State.issue_rerank (s : State) (i : Nat) (c : Option (Nat × Nat)) (t a g : Nat) (q : Option QName) : (s.issue i c t a g q).rerank = s.rerank := rfl
@[simp] theorem State.issue_idx (s : State) (i : Nat) (c : Option (Nat × Nat)) (t a g : Nat) (q : Option QName) : (s.issue i c t a g q).idx = s.idx := rfl
@[simp] theorem State.issue_regWait (s : State) (i : Nat) (c : Option (Nat × Nat)) (t a g : Nat) (q : Option QName) : (s.issue i c t a g q).regWait = s.regWait := rfl
@[simp] theorem State.issue_upd (s : State) (i : Nat) (c : Option (Nat × Nat)) (t a g : Nat) (q : Option QName) : (s.issue i c t a g q).upd = s.upd := rfl
@[simp] theorem State.issue_builds (s : State) (i : Nat) (c : Option (Nat × Nat)) (t a g : Nat) (q : Option QName) : (s.issue i c t a g q).builds = s.builds := rfl
@[simp] theorem State.issue_dense (s : State) (i : Nat) (c : Option (Nat × Nat)) (t a g : Nat) (q : Option QName) : (s.issue i c t a g q).dense = s.dense := rfl
@[simp] theorem State.issue_emb (s : State) (i : Nat) (c : Option (Nat × Nat)) (t a g : Nat) (q : Option QName) : (s.issue i c t a g q).emb = s.emb := rfl
@[simp] theorem State.issue_flash (s : State) (i : Nat) (c : Option (Nat × Nat)) (t a g : Nat) (q : Option QName) : (s.issue i c t a g q).flash = s.flash := rfl
@[simp] theorem State.issue_ports (s : State) (i : Nat) (c : Option (Nat × Nat)) (t a g : Nat) (q : Option QName) : (s.issue i c t a g q).ports = s.ports := rfl
@[simp] theorem State.issue_net (s : State) (i : Nat) (c : Option (Nat × Nat)) (t a g : Nat) (q : Option QName) : (s.issue i c t a g q).net = s.net := rfl
@[simp] theorem State.issue_map (s : State) (i : Nat) (c : Option (Nat × Nat)) (t a g : Nat) (q : Option QName) : (s.issue i c t a g q).map = s.map := rfl
@[simp] theorem State.issue_fault (s : State) (i : Nat) (c : Option (Nat × Nat)) (t a g : Nat) (q : Option QName) : (s.issue i c t a g q).fault = s.fault := rfl
@[simp] theorem State.issue_sched (s : State) (i : Nat) (c : Option (Nat × Nat)) (t a g : Nat) (q : Option QName) : (s.issue i c t a g q).sched = s.sched := rfl
@[simp] theorem State.issue_rings (s : State) (i : Nat) (c : Option (Nat × Nat)) (t a g : Nat) (q : Option QName) : (s.issue i c t a g q).rings = s.rings := rfl
@[simp] theorem State.issue_link (s : State) (i : Nat) (c : Option (Nat × Nat)) (t a g : Nat) (q : Option QName) : (s.issue i c t a g q).link = s.link := rfl
@[simp] theorem State.issue_sec (s : State) (i : Nat) (c : Option (Nat × Nat)) (t a g : Nat) (q : Option QName) : (s.issue i c t a g q).sec = s.sec := rfl
@[simp] theorem State.issue_pwr (s : State) (i : Nat) (c : Option (Nat × Nat)) (t a g : Nat) (q : Option QName) : (s.issue i c t a g q).pwr = s.pwr := rfl
@[simp] theorem State.issue_mgmtOut (s : State) (i : Nat) (c : Option (Nat × Nat)) (t a g : Nat) (q : Option QName) : (s.issue i c t a g q).mgmtOut = s.mgmtOut := rfl
@[simp] theorem State.issue_free (s : State) (i : Nat) (c : Option (Nat × Nat)) (t a g : Nat) (q : Option QName) : (s.issue i c t a g q).free = s.free := rfl

/-! ### State.stampUp -/

@[simp] theorem State.stampUp_pending (s : State) : (s.stampUp).pending = s.pending := rfl
@[simp] theorem State.stampUp_regs (s : State) : (s.stampUp).regs = s.regs := rfl
@[simp] theorem State.stampUp_blobs (s : State) : (s.stampUp).blobs = s.blobs := rfl
@[simp] theorem State.stampUp_cum (s : State) : (s.stampUp).cum = s.cum := rfl
@[simp] theorem State.stampUp_run (s : State) : (s.stampUp).run = s.run := rfl
@[simp] theorem State.stampUp_last (s : State) : (s.stampUp).last = s.last := rfl
@[simp] theorem State.stampUp_dict (s : State) : (s.stampUp).dict = s.dict := rfl
@[simp] theorem State.stampUp_mem (s : State) : (s.stampUp).mem = s.mem := rfl
@[simp] theorem State.stampUp_poison (s : State) : (s.stampUp).poison = s.poison := rfl
@[simp] theorem State.stampUp_time (s : State) : (s.stampUp).time = s.time := rfl
@[simp] theorem State.stampUp_spin (s : State) : (s.stampUp).spin = s.spin := rfl
@[simp] theorem State.stampUp_home (s : State) : (s.stampUp).home = s.home := rfl
@[simp] theorem State.stampUp_copy (s : State) : (s.stampUp).copy = s.copy := rfl
@[simp] theorem State.stampUp_passes (s : State) : (s.stampUp).passes = s.passes := rfl
@[simp] theorem State.stampUp_filters (s : State) : (s.stampUp).filters = s.filters := rfl
@[simp] theorem State.stampUp_rerank (s : State) : (s.stampUp).rerank = s.rerank := rfl
@[simp] theorem State.stampUp_idx (s : State) : (s.stampUp).idx = s.idx := rfl
@[simp] theorem State.stampUp_regWait (s : State) : (s.stampUp).regWait = s.regWait := rfl
@[simp] theorem State.stampUp_upd (s : State) : (s.stampUp).upd = s.upd := rfl
@[simp] theorem State.stampUp_builds (s : State) : (s.stampUp).builds = s.builds := rfl
@[simp] theorem State.stampUp_dense (s : State) : (s.stampUp).dense = s.dense := rfl
@[simp] theorem State.stampUp_emb (s : State) : (s.stampUp).emb = s.emb := rfl
@[simp] theorem State.stampUp_tier (s : State) : (s.stampUp).tier = s.tier := rfl
@[simp] theorem State.stampUp_flash (s : State) : (s.stampUp).flash = s.flash := rfl
@[simp] theorem State.stampUp_ports (s : State) : (s.stampUp).ports = s.ports := rfl
@[simp] theorem State.stampUp_net (s : State) : (s.stampUp).net = s.net := rfl
@[simp] theorem State.stampUp_map (s : State) : (s.stampUp).map = s.map := rfl
@[simp] theorem State.stampUp_fault (s : State) : (s.stampUp).fault = s.fault := rfl
@[simp] theorem State.stampUp_sched (s : State) : (s.stampUp).sched = s.sched := rfl
@[simp] theorem State.stampUp_rings (s : State) : (s.stampUp).rings = s.rings := rfl
@[simp] theorem State.stampUp_link (s : State) : (s.stampUp).link = s.link := rfl
@[simp] theorem State.stampUp_sec (s : State) : (s.stampUp).sec = s.sec := rfl
@[simp] theorem State.stampUp_pwr (s : State) : (s.stampUp).pwr = s.pwr := rfl
@[simp] theorem State.stampUp_mgmtOut (s : State) : (s.stampUp).mgmtOut = s.mgmtOut := rfl
@[simp] theorem State.stampUp_free (s : State) : (s.stampUp).free = s.free := rfl

/-! ### State.store -/

@[simp] theorem State.store_pending (s : State) (t a : Nat) (bs : List Byte) : (s.store t a bs).pending = s.pending := rfl
@[simp] theorem State.store_regs (s : State) (t a : Nat) (bs : List Byte) : (s.store t a bs).regs = s.regs := rfl
@[simp] theorem State.store_blobs (s : State) (t a : Nat) (bs : List Byte) : (s.store t a bs).blobs = s.blobs := rfl
@[simp] theorem State.store_cum (s : State) (t a : Nat) (bs : List Byte) : (s.store t a bs).cum = s.cum := rfl
@[simp] theorem State.store_run (s : State) (t a : Nat) (bs : List Byte) : (s.store t a bs).run = s.run := rfl
@[simp] theorem State.store_last (s : State) (t a : Nat) (bs : List Byte) : (s.store t a bs).last = s.last := rfl
@[simp] theorem State.store_dict (s : State) (t a : Nat) (bs : List Byte) : (s.store t a bs).dict = s.dict := rfl
@[simp] theorem State.store_time (s : State) (t a : Nat) (bs : List Byte) : (s.store t a bs).time = s.time := rfl
@[simp] theorem State.store_spin (s : State) (t a : Nat) (bs : List Byte) : (s.store t a bs).spin = s.spin := rfl
@[simp] theorem State.store_ctl (s : State) (t a : Nat) (bs : List Byte) : (s.store t a bs).ctl = s.ctl := rfl
@[simp] theorem State.store_home (s : State) (t a : Nat) (bs : List Byte) : (s.store t a bs).home = s.home := rfl
@[simp] theorem State.store_copy (s : State) (t a : Nat) (bs : List Byte) : (s.store t a bs).copy = s.copy := rfl
@[simp] theorem State.store_passes (s : State) (t a : Nat) (bs : List Byte) : (s.store t a bs).passes = s.passes := rfl
@[simp] theorem State.store_filters (s : State) (t a : Nat) (bs : List Byte) : (s.store t a bs).filters = s.filters := rfl
@[simp] theorem State.store_rerank (s : State) (t a : Nat) (bs : List Byte) : (s.store t a bs).rerank = s.rerank := rfl
@[simp] theorem State.store_idx (s : State) (t a : Nat) (bs : List Byte) : (s.store t a bs).idx = s.idx := rfl
@[simp] theorem State.store_regWait (s : State) (t a : Nat) (bs : List Byte) : (s.store t a bs).regWait = s.regWait := rfl
@[simp] theorem State.store_upd (s : State) (t a : Nat) (bs : List Byte) : (s.store t a bs).upd = s.upd := rfl
@[simp] theorem State.store_builds (s : State) (t a : Nat) (bs : List Byte) : (s.store t a bs).builds = s.builds := rfl
@[simp] theorem State.store_dense (s : State) (t a : Nat) (bs : List Byte) : (s.store t a bs).dense = s.dense := rfl
@[simp] theorem State.store_emb (s : State) (t a : Nat) (bs : List Byte) : (s.store t a bs).emb = s.emb := rfl
@[simp] theorem State.store_tier (s : State) (t a : Nat) (bs : List Byte) : (s.store t a bs).tier = s.tier := rfl
@[simp] theorem State.store_flash (s : State) (t a : Nat) (bs : List Byte) : (s.store t a bs).flash = s.flash := rfl
@[simp] theorem State.store_ports (s : State) (t a : Nat) (bs : List Byte) : (s.store t a bs).ports = s.ports := rfl
@[simp] theorem State.store_net (s : State) (t a : Nat) (bs : List Byte) : (s.store t a bs).net = s.net := rfl
@[simp] theorem State.store_map (s : State) (t a : Nat) (bs : List Byte) : (s.store t a bs).map = s.map := rfl
@[simp] theorem State.store_fault (s : State) (t a : Nat) (bs : List Byte) : (s.store t a bs).fault = s.fault := rfl
@[simp] theorem State.store_sched (s : State) (t a : Nat) (bs : List Byte) : (s.store t a bs).sched = s.sched := rfl
@[simp] theorem State.store_rings (s : State) (t a : Nat) (bs : List Byte) : (s.store t a bs).rings = s.rings := rfl
@[simp] theorem State.store_link (s : State) (t a : Nat) (bs : List Byte) : (s.store t a bs).link = s.link := rfl
@[simp] theorem State.store_sec (s : State) (t a : Nat) (bs : List Byte) : (s.store t a bs).sec = s.sec := rfl
@[simp] theorem State.store_pwr (s : State) (t a : Nat) (bs : List Byte) : (s.store t a bs).pwr = s.pwr := rfl
@[simp] theorem State.store_mgmtOut (s : State) (t a : Nat) (bs : List Byte) : (s.store t a bs).mgmtOut = s.mgmtOut := rfl
@[simp] theorem State.store_free (s : State) (t a : Nat) (bs : List Byte) : (s.store t a bs).free = s.free := rfl

/-! ### State.zeroRange -/

@[simp] theorem State.zeroRange_pending (s : State) (t a n : Nat) : (s.zeroRange t a n).pending = s.pending := rfl
@[simp] theorem State.zeroRange_regs (s : State) (t a n : Nat) : (s.zeroRange t a n).regs = s.regs := rfl
@[simp] theorem State.zeroRange_blobs (s : State) (t a n : Nat) : (s.zeroRange t a n).blobs = s.blobs := rfl
@[simp] theorem State.zeroRange_cum (s : State) (t a n : Nat) : (s.zeroRange t a n).cum = s.cum := rfl
@[simp] theorem State.zeroRange_run (s : State) (t a n : Nat) : (s.zeroRange t a n).run = s.run := rfl
@[simp] theorem State.zeroRange_last (s : State) (t a n : Nat) : (s.zeroRange t a n).last = s.last := rfl
@[simp] theorem State.zeroRange_dict (s : State) (t a n : Nat) : (s.zeroRange t a n).dict = s.dict := rfl
@[simp] theorem State.zeroRange_time (s : State) (t a n : Nat) : (s.zeroRange t a n).time = s.time := rfl
@[simp] theorem State.zeroRange_spin (s : State) (t a n : Nat) : (s.zeroRange t a n).spin = s.spin := rfl
@[simp] theorem State.zeroRange_ctl (s : State) (t a n : Nat) : (s.zeroRange t a n).ctl = s.ctl := rfl
@[simp] theorem State.zeroRange_home (s : State) (t a n : Nat) : (s.zeroRange t a n).home = s.home := rfl
@[simp] theorem State.zeroRange_copy (s : State) (t a n : Nat) : (s.zeroRange t a n).copy = s.copy := rfl
@[simp] theorem State.zeroRange_passes (s : State) (t a n : Nat) : (s.zeroRange t a n).passes = s.passes := rfl
@[simp] theorem State.zeroRange_filters (s : State) (t a n : Nat) : (s.zeroRange t a n).filters = s.filters := rfl
@[simp] theorem State.zeroRange_rerank (s : State) (t a n : Nat) : (s.zeroRange t a n).rerank = s.rerank := rfl
@[simp] theorem State.zeroRange_idx (s : State) (t a n : Nat) : (s.zeroRange t a n).idx = s.idx := rfl
@[simp] theorem State.zeroRange_regWait (s : State) (t a n : Nat) : (s.zeroRange t a n).regWait = s.regWait := rfl
@[simp] theorem State.zeroRange_upd (s : State) (t a n : Nat) : (s.zeroRange t a n).upd = s.upd := rfl
@[simp] theorem State.zeroRange_builds (s : State) (t a n : Nat) : (s.zeroRange t a n).builds = s.builds := rfl
@[simp] theorem State.zeroRange_dense (s : State) (t a n : Nat) : (s.zeroRange t a n).dense = s.dense := rfl
@[simp] theorem State.zeroRange_emb (s : State) (t a n : Nat) : (s.zeroRange t a n).emb = s.emb := rfl
@[simp] theorem State.zeroRange_tier (s : State) (t a n : Nat) : (s.zeroRange t a n).tier = s.tier := rfl
@[simp] theorem State.zeroRange_flash (s : State) (t a n : Nat) : (s.zeroRange t a n).flash = s.flash := rfl
@[simp] theorem State.zeroRange_ports (s : State) (t a n : Nat) : (s.zeroRange t a n).ports = s.ports := rfl
@[simp] theorem State.zeroRange_net (s : State) (t a n : Nat) : (s.zeroRange t a n).net = s.net := rfl
@[simp] theorem State.zeroRange_map (s : State) (t a n : Nat) : (s.zeroRange t a n).map = s.map := rfl
@[simp] theorem State.zeroRange_fault (s : State) (t a n : Nat) : (s.zeroRange t a n).fault = s.fault := rfl
@[simp] theorem State.zeroRange_sched (s : State) (t a n : Nat) : (s.zeroRange t a n).sched = s.sched := rfl
@[simp] theorem State.zeroRange_rings (s : State) (t a n : Nat) : (s.zeroRange t a n).rings = s.rings := rfl
@[simp] theorem State.zeroRange_link (s : State) (t a n : Nat) : (s.zeroRange t a n).link = s.link := rfl
@[simp] theorem State.zeroRange_sec (s : State) (t a n : Nat) : (s.zeroRange t a n).sec = s.sec := rfl
@[simp] theorem State.zeroRange_pwr (s : State) (t a n : Nat) : (s.zeroRange t a n).pwr = s.pwr := rfl
@[simp] theorem State.zeroRange_mgmtOut (s : State) (t a n : Nat) : (s.zeroRange t a n).mgmtOut = s.mgmtOut := rfl
@[simp] theorem State.zeroRange_free (s : State) (t a n : Nat) : (s.zeroRange t a n).free = s.free := rfl

/-! ### State.poisonLine -/

@[simp] theorem State.poisonLine_pending (s : State) (t a : Nat) : (s.poisonLine t a).pending = s.pending := rfl
@[simp] theorem State.poisonLine_regs (s : State) (t a : Nat) : (s.poisonLine t a).regs = s.regs := rfl
@[simp] theorem State.poisonLine_blobs (s : State) (t a : Nat) : (s.poisonLine t a).blobs = s.blobs := rfl
@[simp] theorem State.poisonLine_cum (s : State) (t a : Nat) : (s.poisonLine t a).cum = s.cum := rfl
@[simp] theorem State.poisonLine_run (s : State) (t a : Nat) : (s.poisonLine t a).run = s.run := rfl
@[simp] theorem State.poisonLine_last (s : State) (t a : Nat) : (s.poisonLine t a).last = s.last := rfl
@[simp] theorem State.poisonLine_dict (s : State) (t a : Nat) : (s.poisonLine t a).dict = s.dict := rfl
@[simp] theorem State.poisonLine_mem (s : State) (t a : Nat) : (s.poisonLine t a).mem = s.mem := rfl
@[simp] theorem State.poisonLine_time (s : State) (t a : Nat) : (s.poisonLine t a).time = s.time := rfl
@[simp] theorem State.poisonLine_spin (s : State) (t a : Nat) : (s.poisonLine t a).spin = s.spin := rfl
@[simp] theorem State.poisonLine_ctl (s : State) (t a : Nat) : (s.poisonLine t a).ctl = s.ctl := rfl
@[simp] theorem State.poisonLine_home (s : State) (t a : Nat) : (s.poisonLine t a).home = s.home := rfl
@[simp] theorem State.poisonLine_copy (s : State) (t a : Nat) : (s.poisonLine t a).copy = s.copy := rfl
@[simp] theorem State.poisonLine_passes (s : State) (t a : Nat) : (s.poisonLine t a).passes = s.passes := rfl
@[simp] theorem State.poisonLine_filters (s : State) (t a : Nat) : (s.poisonLine t a).filters = s.filters := rfl
@[simp] theorem State.poisonLine_rerank (s : State) (t a : Nat) : (s.poisonLine t a).rerank = s.rerank := rfl
@[simp] theorem State.poisonLine_idx (s : State) (t a : Nat) : (s.poisonLine t a).idx = s.idx := rfl
@[simp] theorem State.poisonLine_regWait (s : State) (t a : Nat) : (s.poisonLine t a).regWait = s.regWait := rfl
@[simp] theorem State.poisonLine_upd (s : State) (t a : Nat) : (s.poisonLine t a).upd = s.upd := rfl
@[simp] theorem State.poisonLine_builds (s : State) (t a : Nat) : (s.poisonLine t a).builds = s.builds := rfl
@[simp] theorem State.poisonLine_dense (s : State) (t a : Nat) : (s.poisonLine t a).dense = s.dense := rfl
@[simp] theorem State.poisonLine_emb (s : State) (t a : Nat) : (s.poisonLine t a).emb = s.emb := rfl
@[simp] theorem State.poisonLine_flash (s : State) (t a : Nat) : (s.poisonLine t a).flash = s.flash := rfl
@[simp] theorem State.poisonLine_ports (s : State) (t a : Nat) : (s.poisonLine t a).ports = s.ports := rfl
@[simp] theorem State.poisonLine_net (s : State) (t a : Nat) : (s.poisonLine t a).net = s.net := rfl
@[simp] theorem State.poisonLine_map (s : State) (t a : Nat) : (s.poisonLine t a).map = s.map := rfl
@[simp] theorem State.poisonLine_fault (s : State) (t a : Nat) : (s.poisonLine t a).fault = s.fault := rfl
@[simp] theorem State.poisonLine_sched (s : State) (t a : Nat) : (s.poisonLine t a).sched = s.sched := rfl
@[simp] theorem State.poisonLine_rings (s : State) (t a : Nat) : (s.poisonLine t a).rings = s.rings := rfl
@[simp] theorem State.poisonLine_link (s : State) (t a : Nat) : (s.poisonLine t a).link = s.link := rfl
@[simp] theorem State.poisonLine_sec (s : State) (t a : Nat) : (s.poisonLine t a).sec = s.sec := rfl
@[simp] theorem State.poisonLine_pwr (s : State) (t a : Nat) : (s.poisonLine t a).pwr = s.pwr := rfl
@[simp] theorem State.poisonLine_mgmtOut (s : State) (t a : Nat) : (s.poisonLine t a).mgmtOut = s.mgmtOut := rfl
@[simp] theorem State.poisonLine_free (s : State) (t a : Nat) : (s.poisonLine t a).free = s.free := rfl

/-! ### State.logReq -/

@[simp] theorem State.logReq_pending (s : State) (n : Nat × Nat) (d : Nat) (m : Msg) : (s.logReq n d m).pending = s.pending := rfl
@[simp] theorem State.logReq_regs (s : State) (n : Nat × Nat) (d : Nat) (m : Msg) : (s.logReq n d m).regs = s.regs := rfl
@[simp] theorem State.logReq_blobs (s : State) (n : Nat × Nat) (d : Nat) (m : Msg) : (s.logReq n d m).blobs = s.blobs := rfl
@[simp] theorem State.logReq_cum (s : State) (n : Nat × Nat) (d : Nat) (m : Msg) : (s.logReq n d m).cum = s.cum := rfl
@[simp] theorem State.logReq_run (s : State) (n : Nat × Nat) (d : Nat) (m : Msg) : (s.logReq n d m).run = s.run := rfl
@[simp] theorem State.logReq_last (s : State) (n : Nat × Nat) (d : Nat) (m : Msg) : (s.logReq n d m).last = s.last := rfl
@[simp] theorem State.logReq_dict (s : State) (n : Nat × Nat) (d : Nat) (m : Msg) : (s.logReq n d m).dict = s.dict := rfl
@[simp] theorem State.logReq_mem (s : State) (n : Nat × Nat) (d : Nat) (m : Msg) : (s.logReq n d m).mem = s.mem := rfl
@[simp] theorem State.logReq_poison (s : State) (n : Nat × Nat) (d : Nat) (m : Msg) : (s.logReq n d m).poison = s.poison := rfl
@[simp] theorem State.logReq_time (s : State) (n : Nat × Nat) (d : Nat) (m : Msg) : (s.logReq n d m).time = s.time := rfl
@[simp] theorem State.logReq_spin (s : State) (n : Nat × Nat) (d : Nat) (m : Msg) : (s.logReq n d m).spin = s.spin := rfl
@[simp] theorem State.logReq_ctl (s : State) (n : Nat × Nat) (d : Nat) (m : Msg) : (s.logReq n d m).ctl = s.ctl := rfl
@[simp] theorem State.logReq_home (s : State) (n : Nat × Nat) (d : Nat) (m : Msg) : (s.logReq n d m).home = s.home := rfl
@[simp] theorem State.logReq_copy (s : State) (n : Nat × Nat) (d : Nat) (m : Msg) : (s.logReq n d m).copy = s.copy := rfl
@[simp] theorem State.logReq_passes (s : State) (n : Nat × Nat) (d : Nat) (m : Msg) : (s.logReq n d m).passes = s.passes := rfl
@[simp] theorem State.logReq_filters (s : State) (n : Nat × Nat) (d : Nat) (m : Msg) : (s.logReq n d m).filters = s.filters := rfl
@[simp] theorem State.logReq_rerank (s : State) (n : Nat × Nat) (d : Nat) (m : Msg) : (s.logReq n d m).rerank = s.rerank := rfl
@[simp] theorem State.logReq_idx (s : State) (n : Nat × Nat) (d : Nat) (m : Msg) : (s.logReq n d m).idx = s.idx := rfl
@[simp] theorem State.logReq_regWait (s : State) (n : Nat × Nat) (d : Nat) (m : Msg) : (s.logReq n d m).regWait = s.regWait := rfl
@[simp] theorem State.logReq_upd (s : State) (n : Nat × Nat) (d : Nat) (m : Msg) : (s.logReq n d m).upd = s.upd := rfl
@[simp] theorem State.logReq_builds (s : State) (n : Nat × Nat) (d : Nat) (m : Msg) : (s.logReq n d m).builds = s.builds := rfl
@[simp] theorem State.logReq_dense (s : State) (n : Nat × Nat) (d : Nat) (m : Msg) : (s.logReq n d m).dense = s.dense := rfl
@[simp] theorem State.logReq_emb (s : State) (n : Nat × Nat) (d : Nat) (m : Msg) : (s.logReq n d m).emb = s.emb := rfl
@[simp] theorem State.logReq_tier (s : State) (n : Nat × Nat) (d : Nat) (m : Msg) : (s.logReq n d m).tier = s.tier := rfl
@[simp] theorem State.logReq_flash (s : State) (n : Nat × Nat) (d : Nat) (m : Msg) : (s.logReq n d m).flash = s.flash := rfl
@[simp] theorem State.logReq_ports (s : State) (n : Nat × Nat) (d : Nat) (m : Msg) : (s.logReq n d m).ports = s.ports := rfl
@[simp] theorem State.logReq_net (s : State) (n : Nat × Nat) (d : Nat) (m : Msg) : (s.logReq n d m).net = s.net := rfl
@[simp] theorem State.logReq_map (s : State) (n : Nat × Nat) (d : Nat) (m : Msg) : (s.logReq n d m).map = s.map := rfl
@[simp] theorem State.logReq_sched (s : State) (n : Nat × Nat) (d : Nat) (m : Msg) : (s.logReq n d m).sched = s.sched := rfl
@[simp] theorem State.logReq_rings (s : State) (n : Nat × Nat) (d : Nat) (m : Msg) : (s.logReq n d m).rings = s.rings := rfl
@[simp] theorem State.logReq_link (s : State) (n : Nat × Nat) (d : Nat) (m : Msg) : (s.logReq n d m).link = s.link := rfl
@[simp] theorem State.logReq_sec (s : State) (n : Nat × Nat) (d : Nat) (m : Msg) : (s.logReq n d m).sec = s.sec := rfl
@[simp] theorem State.logReq_pwr (s : State) (n : Nat × Nat) (d : Nat) (m : Msg) : (s.logReq n d m).pwr = s.pwr := rfl
@[simp] theorem State.logReq_mgmtOut (s : State) (n : Nat × Nat) (d : Nat) (m : Msg) : (s.logReq n d m).mgmtOut = s.mgmtOut := rfl
@[simp] theorem State.logReq_free (s : State) (n : Nat × Nat) (d : Nat) (m : Msg) : (s.logReq n d m).free = s.free := rfl

/-! ### State.score -/

@[simp] theorem State.score_pending (s : State) (a b w : Nat) : (s.score a b w).pending = s.pending := rfl
@[simp] theorem State.score_regs (s : State) (a b w : Nat) : (s.score a b w).regs = s.regs := rfl
@[simp] theorem State.score_blobs (s : State) (a b w : Nat) : (s.score a b w).blobs = s.blobs := rfl
@[simp] theorem State.score_cum (s : State) (a b w : Nat) : (s.score a b w).cum = s.cum := rfl
@[simp] theorem State.score_run (s : State) (a b w : Nat) : (s.score a b w).run = s.run := rfl
@[simp] theorem State.score_last (s : State) (a b w : Nat) : (s.score a b w).last = s.last := rfl
@[simp] theorem State.score_dict (s : State) (a b w : Nat) : (s.score a b w).dict = s.dict := rfl
@[simp] theorem State.score_mem (s : State) (a b w : Nat) : (s.score a b w).mem = s.mem := rfl
@[simp] theorem State.score_poison (s : State) (a b w : Nat) : (s.score a b w).poison = s.poison := rfl
@[simp] theorem State.score_time (s : State) (a b w : Nat) : (s.score a b w).time = s.time := rfl
@[simp] theorem State.score_spin (s : State) (a b w : Nat) : (s.score a b w).spin = s.spin := rfl
@[simp] theorem State.score_ctl (s : State) (a b w : Nat) : (s.score a b w).ctl = s.ctl := rfl
@[simp] theorem State.score_home (s : State) (a b w : Nat) : (s.score a b w).home = s.home := rfl
@[simp] theorem State.score_copy (s : State) (a b w : Nat) : (s.score a b w).copy = s.copy := rfl
@[simp] theorem State.score_passes (s : State) (a b w : Nat) : (s.score a b w).passes = s.passes := rfl
@[simp] theorem State.score_filters (s : State) (a b w : Nat) : (s.score a b w).filters = s.filters := rfl
@[simp] theorem State.score_rerank (s : State) (a b w : Nat) : (s.score a b w).rerank = s.rerank := rfl
@[simp] theorem State.score_idx (s : State) (a b w : Nat) : (s.score a b w).idx = s.idx := rfl
@[simp] theorem State.score_regWait (s : State) (a b w : Nat) : (s.score a b w).regWait = s.regWait := rfl
@[simp] theorem State.score_upd (s : State) (a b w : Nat) : (s.score a b w).upd = s.upd := rfl
@[simp] theorem State.score_builds (s : State) (a b w : Nat) : (s.score a b w).builds = s.builds := rfl
@[simp] theorem State.score_dense (s : State) (a b w : Nat) : (s.score a b w).dense = s.dense := rfl
@[simp] theorem State.score_emb (s : State) (a b w : Nat) : (s.score a b w).emb = s.emb := rfl
@[simp] theorem State.score_tier (s : State) (a b w : Nat) : (s.score a b w).tier = s.tier := rfl
@[simp] theorem State.score_flash (s : State) (a b w : Nat) : (s.score a b w).flash = s.flash := rfl
@[simp] theorem State.score_ports (s : State) (a b w : Nat) : (s.score a b w).ports = s.ports := rfl
@[simp] theorem State.score_net (s : State) (a b w : Nat) : (s.score a b w).net = s.net := rfl
@[simp] theorem State.score_map (s : State) (a b w : Nat) : (s.score a b w).map = s.map := rfl
@[simp] theorem State.score_sched (s : State) (a b w : Nat) : (s.score a b w).sched = s.sched := rfl
@[simp] theorem State.score_rings (s : State) (a b w : Nat) : (s.score a b w).rings = s.rings := rfl
@[simp] theorem State.score_link (s : State) (a b w : Nat) : (s.score a b w).link = s.link := rfl
@[simp] theorem State.score_sec (s : State) (a b w : Nat) : (s.score a b w).sec = s.sec := rfl
@[simp] theorem State.score_pwr (s : State) (a b w : Nat) : (s.score a b w).pwr = s.pwr := rfl
@[simp] theorem State.score_mgmtOut (s : State) (a b w : Nat) : (s.score a b w).mgmtOut = s.mgmtOut := rfl
@[simp] theorem State.score_free (s : State) (a b w : Nat) : (s.score a b w).free = s.free := rfl

/-! ### State.mgmtCopy -/

@[simp] theorem State.mgmtCopy_pending (s : State) (m : FaultMsg) : (s.mgmtCopy m).pending = s.pending := by unfold State.mgmtCopy; split <;> rfl
@[simp] theorem State.mgmtCopy_regs (s : State) (m : FaultMsg) : (s.mgmtCopy m).regs = s.regs := by unfold State.mgmtCopy; split <;> rfl
@[simp] theorem State.mgmtCopy_blobs (s : State) (m : FaultMsg) : (s.mgmtCopy m).blobs = s.blobs := by unfold State.mgmtCopy; split <;> rfl
@[simp] theorem State.mgmtCopy_cum (s : State) (m : FaultMsg) : (s.mgmtCopy m).cum = s.cum := by unfold State.mgmtCopy; split <;> rfl
@[simp] theorem State.mgmtCopy_run (s : State) (m : FaultMsg) : (s.mgmtCopy m).run = s.run := by unfold State.mgmtCopy; split <;> rfl
@[simp] theorem State.mgmtCopy_last (s : State) (m : FaultMsg) : (s.mgmtCopy m).last = s.last := by unfold State.mgmtCopy; split <;> rfl
@[simp] theorem State.mgmtCopy_dict (s : State) (m : FaultMsg) : (s.mgmtCopy m).dict = s.dict := by unfold State.mgmtCopy; split <;> rfl
@[simp] theorem State.mgmtCopy_mem (s : State) (m : FaultMsg) : (s.mgmtCopy m).mem = s.mem := by unfold State.mgmtCopy; split <;> rfl
@[simp] theorem State.mgmtCopy_poison (s : State) (m : FaultMsg) : (s.mgmtCopy m).poison = s.poison := by unfold State.mgmtCopy; split <;> rfl
@[simp] theorem State.mgmtCopy_time (s : State) (m : FaultMsg) : (s.mgmtCopy m).time = s.time := by unfold State.mgmtCopy; split <;> rfl
@[simp] theorem State.mgmtCopy_spin (s : State) (m : FaultMsg) : (s.mgmtCopy m).spin = s.spin := by unfold State.mgmtCopy; split <;> rfl
@[simp] theorem State.mgmtCopy_ctl (s : State) (m : FaultMsg) : (s.mgmtCopy m).ctl = s.ctl := by unfold State.mgmtCopy; split <;> rfl
@[simp] theorem State.mgmtCopy_home (s : State) (m : FaultMsg) : (s.mgmtCopy m).home = s.home := by unfold State.mgmtCopy; split <;> rfl
@[simp] theorem State.mgmtCopy_copy (s : State) (m : FaultMsg) : (s.mgmtCopy m).copy = s.copy := by unfold State.mgmtCopy; split <;> rfl
@[simp] theorem State.mgmtCopy_passes (s : State) (m : FaultMsg) : (s.mgmtCopy m).passes = s.passes := by unfold State.mgmtCopy; split <;> rfl
@[simp] theorem State.mgmtCopy_filters (s : State) (m : FaultMsg) : (s.mgmtCopy m).filters = s.filters := by unfold State.mgmtCopy; split <;> rfl
@[simp] theorem State.mgmtCopy_rerank (s : State) (m : FaultMsg) : (s.mgmtCopy m).rerank = s.rerank := by unfold State.mgmtCopy; split <;> rfl
@[simp] theorem State.mgmtCopy_idx (s : State) (m : FaultMsg) : (s.mgmtCopy m).idx = s.idx := by unfold State.mgmtCopy; split <;> rfl
@[simp] theorem State.mgmtCopy_regWait (s : State) (m : FaultMsg) : (s.mgmtCopy m).regWait = s.regWait := by unfold State.mgmtCopy; split <;> rfl
@[simp] theorem State.mgmtCopy_upd (s : State) (m : FaultMsg) : (s.mgmtCopy m).upd = s.upd := by unfold State.mgmtCopy; split <;> rfl
@[simp] theorem State.mgmtCopy_builds (s : State) (m : FaultMsg) : (s.mgmtCopy m).builds = s.builds := by unfold State.mgmtCopy; split <;> rfl
@[simp] theorem State.mgmtCopy_dense (s : State) (m : FaultMsg) : (s.mgmtCopy m).dense = s.dense := by unfold State.mgmtCopy; split <;> rfl
@[simp] theorem State.mgmtCopy_emb (s : State) (m : FaultMsg) : (s.mgmtCopy m).emb = s.emb := by unfold State.mgmtCopy; split <;> rfl
@[simp] theorem State.mgmtCopy_tier (s : State) (m : FaultMsg) : (s.mgmtCopy m).tier = s.tier := by unfold State.mgmtCopy; split <;> rfl
@[simp] theorem State.mgmtCopy_flash (s : State) (m : FaultMsg) : (s.mgmtCopy m).flash = s.flash := by unfold State.mgmtCopy; split <;> rfl
@[simp] theorem State.mgmtCopy_ports (s : State) (m : FaultMsg) : (s.mgmtCopy m).ports = s.ports := by unfold State.mgmtCopy; split <;> rfl
@[simp] theorem State.mgmtCopy_net (s : State) (m : FaultMsg) : (s.mgmtCopy m).net = s.net := by unfold State.mgmtCopy; split <;> rfl
@[simp] theorem State.mgmtCopy_map (s : State) (m : FaultMsg) : (s.mgmtCopy m).map = s.map := by unfold State.mgmtCopy; split <;> rfl
@[simp] theorem State.mgmtCopy_fault (s : State) (m : FaultMsg) : (s.mgmtCopy m).fault = s.fault := by unfold State.mgmtCopy; split <;> rfl
@[simp] theorem State.mgmtCopy_sched (s : State) (m : FaultMsg) : (s.mgmtCopy m).sched = s.sched := by unfold State.mgmtCopy; split <;> rfl
@[simp] theorem State.mgmtCopy_rings (s : State) (m : FaultMsg) : (s.mgmtCopy m).rings = s.rings := by unfold State.mgmtCopy; split <;> rfl
@[simp] theorem State.mgmtCopy_link (s : State) (m : FaultMsg) : (s.mgmtCopy m).link = s.link := by unfold State.mgmtCopy; split <;> rfl
@[simp] theorem State.mgmtCopy_sec (s : State) (m : FaultMsg) : (s.mgmtCopy m).sec = s.sec := by unfold State.mgmtCopy; split <;> rfl
@[simp] theorem State.mgmtCopy_pwr (s : State) (m : FaultMsg) : (s.mgmtCopy m).pwr = s.pwr := by unfold State.mgmtCopy; split <;> rfl
@[simp] theorem State.mgmtCopy_free (s : State) (m : FaultMsg) : (s.mgmtCopy m).free = s.free := by unfold State.mgmtCopy; split <;> rfl

/-! ### State.setRing -/

@[simp] theorem State.setRing_pending (s : State) (r : Ring) : (s.setRing r).pending = s.pending := rfl
@[simp] theorem State.setRing_regs (s : State) (r : Ring) : (s.setRing r).regs = s.regs := rfl
@[simp] theorem State.setRing_blobs (s : State) (r : Ring) : (s.setRing r).blobs = s.blobs := rfl
@[simp] theorem State.setRing_cum (s : State) (r : Ring) : (s.setRing r).cum = s.cum := rfl
@[simp] theorem State.setRing_run (s : State) (r : Ring) : (s.setRing r).run = s.run := rfl
@[simp] theorem State.setRing_last (s : State) (r : Ring) : (s.setRing r).last = s.last := rfl
@[simp] theorem State.setRing_dict (s : State) (r : Ring) : (s.setRing r).dict = s.dict := rfl
@[simp] theorem State.setRing_mem (s : State) (r : Ring) : (s.setRing r).mem = s.mem := rfl
@[simp] theorem State.setRing_poison (s : State) (r : Ring) : (s.setRing r).poison = s.poison := rfl
@[simp] theorem State.setRing_time (s : State) (r : Ring) : (s.setRing r).time = s.time := rfl
@[simp] theorem State.setRing_spin (s : State) (r : Ring) : (s.setRing r).spin = s.spin := rfl
@[simp] theorem State.setRing_ctl (s : State) (r : Ring) : (s.setRing r).ctl = s.ctl := rfl
@[simp] theorem State.setRing_home (s : State) (r : Ring) : (s.setRing r).home = s.home := rfl
@[simp] theorem State.setRing_copy (s : State) (r : Ring) : (s.setRing r).copy = s.copy := rfl
@[simp] theorem State.setRing_passes (s : State) (r : Ring) : (s.setRing r).passes = s.passes := rfl
@[simp] theorem State.setRing_filters (s : State) (r : Ring) : (s.setRing r).filters = s.filters := rfl
@[simp] theorem State.setRing_rerank (s : State) (r : Ring) : (s.setRing r).rerank = s.rerank := rfl
@[simp] theorem State.setRing_idx (s : State) (r : Ring) : (s.setRing r).idx = s.idx := rfl
@[simp] theorem State.setRing_regWait (s : State) (r : Ring) : (s.setRing r).regWait = s.regWait := rfl
@[simp] theorem State.setRing_upd (s : State) (r : Ring) : (s.setRing r).upd = s.upd := rfl
@[simp] theorem State.setRing_builds (s : State) (r : Ring) : (s.setRing r).builds = s.builds := rfl
@[simp] theorem State.setRing_dense (s : State) (r : Ring) : (s.setRing r).dense = s.dense := rfl
@[simp] theorem State.setRing_emb (s : State) (r : Ring) : (s.setRing r).emb = s.emb := rfl
@[simp] theorem State.setRing_tier (s : State) (r : Ring) : (s.setRing r).tier = s.tier := rfl
@[simp] theorem State.setRing_flash (s : State) (r : Ring) : (s.setRing r).flash = s.flash := rfl
@[simp] theorem State.setRing_ports (s : State) (r : Ring) : (s.setRing r).ports = s.ports := rfl
@[simp] theorem State.setRing_net (s : State) (r : Ring) : (s.setRing r).net = s.net := rfl
@[simp] theorem State.setRing_map (s : State) (r : Ring) : (s.setRing r).map = s.map := rfl
@[simp] theorem State.setRing_fault (s : State) (r : Ring) : (s.setRing r).fault = s.fault := rfl
@[simp] theorem State.setRing_sched (s : State) (r : Ring) : (s.setRing r).sched = s.sched := rfl
@[simp] theorem State.setRing_link (s : State) (r : Ring) : (s.setRing r).link = s.link := rfl
@[simp] theorem State.setRing_sec (s : State) (r : Ring) : (s.setRing r).sec = s.sec := rfl
@[simp] theorem State.setRing_pwr (s : State) (r : Ring) : (s.setRing r).pwr = s.pwr := rfl
@[simp] theorem State.setRing_mgmtOut (s : State) (r : Ring) : (s.setRing r).mgmtOut = s.mgmtOut := rfl
@[simp] theorem State.setRing_free (s : State) (r : Ring) : (s.setRing r).free = s.free := rfl

/-! ### The fields that they change -/

@[simp] theorem State.setReg_regs (s : State) (k : Key) (v : Nat) : (s.setReg k v).regs = put s.regs k v := rfl
@[simp] theorem State.setBlob_blobs (s : State) (k : Key) (b : List Byte) : (s.setBlob k b).blobs = put s.blobs k b := rfl
@[simp] theorem State.store_mem (s : State) (t a : Nat) (bs : List Byte) : (s.store t a bs).mem = Memory.setAll s.mem (memKey t a) bs := rfl
@[simp] theorem State.zeroRange_mem (s : State) (t a n : Nat) : (s.zeroRange t a n).mem = Memory.clear s.mem (memKey t a) n := rfl
@[simp] theorem State.draw_fst (s : State) : s.draw.1 = s.free := rfl
@[simp] theorem State.draw_snd (s : State) : s.draw.2 = { s with free := s.free + 1 } := rfl
@[simp] theorem State.bump_zero (s : State) (k : Key) : s.bump k 0 = s := rfl

end Sys2Proof.Machine
end

