-- ==== Sys2Proof/Laws/Memory.lean ====
section
/-! SUPPORT. Memory: every operation keeps the canonical form, a byte that was written reads back, and the others stay. -/

namespace Sys2Proof.Machine

/-- The canonical form, as a list of pairs: rising addresses and no byte of 0. -/
theorem Memory.wf_cons {k : Nat} {v : Byte} {r : List Host.Cell} :
    Memory.wf ((k, v) :: r) = true ↔ v ≠ 0 ∧ (∀ p ∈ r.head?, k < p.1) ∧ Memory.wf r = true := by
  cases r with
  | nil => simp [Memory.wf]
  | cons p r => obtain ⟨a, b⟩ := p; simp [Memory.wf, and_assoc, and_left_comm]

/-- Every address of a canonical tail lies above the head's. -/
theorem Memory.wf_lt {k : Nat} {v : Byte} {r : List Host.Cell} (h : Memory.wf ((k, v) :: r) = true) : ∀ p ∈ r, k < p.1 := by
  induction r generalizing k v with
  | nil => simp
  | cons q r ih =>
    obtain ⟨a, b⟩ := q
    obtain ⟨-, h2, h3⟩ := Memory.wf_cons.1 h
    have hka : k < a := h2 (a, b) (by simp)
    intro p hp
    rcases List.mem_cons.1 hp with rfl | hp
    · exact hka
    · exact Nat.lt_trans hka (ih h3 p hp)

theorem Memory.wf_of_forall {k : Nat} {v : Byte} {r : List Host.Cell} (hv : v ≠ 0) (hr : ∀ p ∈ r, k < p.1) (h : Memory.wf r = true) :
    Memory.wf ((k, v) :: r) = true :=
  Memory.wf_cons.2 ⟨hv, fun p hp => hr p (List.mem_of_mem_head? hp), h⟩

theorem Memory.mem_set {m : List Host.Cell} {a : Nat} {b : Byte} {p : Host.Cell} (h : p ∈ Memory.set m a b) : p = (a, b) ∨ p ∈ m := by
  induction m with
  | nil => simp only [Memory.set] at h; split at h <;> simp_all
  | cons q r ih =>
    obtain ⟨k, v⟩ := q
    simp only [Memory.set] at h
    split at h
    · split at h
      · exact .inr h
      · rcases List.mem_cons.1 h with rfl | h
        · exact .inl rfl
        · exact .inr h
    · split at h
      · split at h
        · exact .inr (List.mem_cons_of_mem _ h)
        · rcases List.mem_cons.1 h with rfl | h
          · exact .inl rfl
          · exact .inr (List.mem_cons_of_mem _ h)
      · rcases List.mem_cons.1 h with rfl | h
        · exact .inr (by simp)
        · rcases ih h with rfl | h
          · exact .inl rfl
          · exact .inr (List.mem_cons_of_mem _ h)

/-- Writing a byte keeps the canonical form. -/
theorem Memory.wf_set {m : List Host.Cell} (a : Nat) (b : Byte) (h : Memory.wf m = true) : Memory.wf (Memory.set m a b) = true := by
  induction m with
  | nil => simp only [Memory.set]; split <;> simp_all [Memory.wf]
  | cons q r ih =>
    obtain ⟨k, v⟩ := q
    have h0 := Memory.wf_cons.1 h
    have hlt := Memory.wf_lt h
    simp only [Memory.set]
    split
    · split
      · exact h
      · rename_i h1 h2
        refine Memory.wf_of_forall (by simpa using h2) (fun p hp => ?_) h
        rcases List.mem_cons.1 hp with rfl | hp
        · exact h1
        · exact Nat.lt_trans h1 (hlt p hp)
    · split
      · rename_i h1 h2
        have : a = k := by simpa using h2
        subst this
        split
        · exact h0.2.2
        · rename_i h3
          exact Memory.wf_of_forall (by simpa using h3) hlt h0.2.2
      · rename_i h1 h2
        refine Memory.wf_of_forall h0.1 (fun p hp => ?_) (ih h0.2.2)
        rcases Memory.mem_set hp with rfl | hp
        · have : a ≠ k := by simpa using h2
          show k < a
          omega
        · exact hlt p hp

theorem Memory.wf_setAll {m : List Host.Cell} (a : Nat) (bs : List Byte) (h : Memory.wf m = true) : Memory.wf (Memory.setAll m a bs) = true := by
  induction bs generalizing m a with
  | nil => simpa [Memory.setAll] using h
  | cons b bs ih => exact ih (a + 1) (Memory.wf_set a b h)

/-- Dropping cells keeps the canonical form. -/
theorem Memory.wf_filter {m : List Host.Cell} (p : Host.Cell → Bool) (h : Memory.wf m = true) : Memory.wf (m.filter p) = true := by
  induction m with
  | nil => rfl
  | cons q r ih =>
    obtain ⟨k, v⟩ := q
    have h0 := Memory.wf_cons.1 h
    by_cases hp : p (k, v)
    · rw [List.filter_cons_of_pos hp]
      exact Memory.wf_of_forall h0.1 (fun x hx => Memory.wf_lt h x (List.mem_of_mem_filter hx)) (ih h0.2.2)
    · rw [List.filter_cons_of_neg hp]
      exact ih h0.2.2

theorem Memory.wf_clear {m : List Host.Cell} (a n : Nat) (h : Memory.wf m = true) : Memory.wf (Memory.clear m a n) = true :=
  Memory.wf_filter _ h

/-! ### Reading -/

@[simp] theorem Memory.get_nil (a : Nat) : Memory.get [] a = 0 := rfl

theorem Memory.get_cons (k : Nat) (v : Byte) (r : List Host.Cell) (a : Nat) :
    Memory.get ((k, v) :: r) a = if k = a then v else Memory.get r a := by
  unfold Memory.get
  rw [show lk ((k, v) :: r) a = if k = a then some v else lk r a from lk_cons k v r a]
  split <;> rfl

/-- Below a canonical list everything reads 0. -/
theorem Memory.get_of_lt {m : List Host.Cell} {a : Nat} (h : ∀ p ∈ m, a < p.1) : Memory.get m a = 0 := by
  induction m with
  | nil => rfl
  | cons q r ih =>
    obtain ⟨k, v⟩ := q
    have : a < k := h (k, v) (by simp)
    rw [Memory.get_cons, if_neg (by omega)]
    exact ih fun p hp => h p (List.mem_cons_of_mem _ hp)

/-- A byte that was written reads back. -/
theorem Memory.get_set_same {m : List Host.Cell} (a : Nat) (b : Byte) (h : Memory.wf m = true) : Memory.get (Memory.set m a b) a = b := by
  induction m with
  | nil =>
    simp only [Memory.set]
    split
    · simp_all
    · simp [Memory.get_cons]
  | cons q r ih =>
    obtain ⟨k, v⟩ := q
    have h0 := Memory.wf_cons.1 h
    simp only [Memory.set]
    split
    · rename_i h1
      split
      · rename_i h2
        rw [Memory.get_of_lt]
        · exact (by simpa using h2 : b = 0).symm
        · intro p hp
          rcases List.mem_cons.1 hp with rfl | hp
          · exact h1
          · exact Nat.lt_trans h1 (Memory.wf_lt h p hp)
      · simp [Memory.get_cons]
    · split
      · rename_i h1 h2
        have : a = k := by simpa using h2
        subst this
        split
        · rename_i h3
          rw [Memory.get_of_lt (Memory.wf_lt h)]
          exact (by simpa using h3 : b = 0).symm
        · simp [Memory.get_cons]
      · rename_i h1 h2
        have : a ≠ k := by simpa using h2
        rw [Memory.get_cons, if_neg (fun h => this h.symm)]
        exact ih h0.2.2

/-- Writing one byte leaves the others. -/
theorem Memory.get_set_ne {m : List Host.Cell} {a c : Nat} (b : Byte) (h : c ≠ a) : Memory.get (Memory.set m a b) c = Memory.get m c := by
  induction m with
  | nil =>
    simp only [Memory.set]
    split
    · rfl
    · rw [Memory.get_cons, if_neg h.symm]
  | cons q r ih =>
    obtain ⟨k, v⟩ := q
    simp only [Memory.set]
    split
    · split
      · rfl
      · rw [Memory.get_cons, if_neg h.symm]
    · split
      · rename_i h1 h2
        have : a = k := by simpa using h2
        subst this
        split
        · rw [Memory.get_cons, if_neg h.symm]
        · rw [Memory.get_cons, Memory.get_cons, if_neg h.symm, if_neg h.symm]
      · rw [Memory.get_cons, Memory.get_cons, ih]

/-- Writing a run leaves every byte outside it. -/
theorem Memory.get_setAll_out {m : List Host.Cell} {a c : Nat} (bs : List Byte) (h : c < a ∨ a + bs.length ≤ c) :
    Memory.get (Memory.setAll m a bs) c = Memory.get m c := by
  induction bs generalizing m a with
  | nil => rfl
  | cons b bs ih =>
    simp only [List.length_cons] at h
    show Memory.get (Memory.setAll (Memory.set m a b) (a + 1) bs) c = _
    rw [ih (by omega), Memory.get_set_ne b (by omega)]

/-- A run that was written reads back. -/
theorem Memory.get_setAll_in {m : List Host.Cell} {a i : Nat} {bs : List Byte} (hm : Memory.wf m = true) (h : i < bs.length) :
    Memory.get (Memory.setAll m a bs) (a + i) = bs[i] := by
  induction bs generalizing m a i with
  | nil => simp at h
  | cons b bs ih =>
    show Memory.get (Memory.setAll (Memory.set m a b) (a + 1) bs) (a + i) = _
    cases i with
    | zero => rw [Memory.get_setAll_out bs (by omega)]; exact Memory.get_set_same a b hm
    | succ i =>
      have := ih (a := a + 1) (i := i) (Memory.wf_set a b hm) (by simpa using h)
      rw [show a + (i + 1) = a + 1 + i by omega, this]; rfl

theorem Memory.get_filter (m : List Host.Cell) (p : Nat → Bool) (a : Nat) :
    Memory.get (m.filter fun x => p x.1) a = if p a then Memory.get m a else 0 := by
  unfold Memory.get
  rw [show lk (m.filter fun x => p x.1) a = if p a then lk m a else none from lk_filter_key m p a]
  split <;> rfl

theorem Memory.get_clear_in {m : List Host.Cell} {a n c : Nat} (h1 : a ≤ c) (h2 : c < a + n) : Memory.get (Memory.clear m a n) c = 0 := by
  have := Memory.get_filter m (fun k => decide (k < a) || decide (a + n ≤ k)) c
  unfold Memory.clear
  rw [this, if_neg (by simp; omega)]

theorem Memory.get_clear_out {m : List Host.Cell} {a n c : Nat} (h : c < a ∨ a + n ≤ c) : Memory.get (Memory.clear m a n) c = Memory.get m c := by
  have := Memory.get_filter m (fun k => decide (k < a) || decide (a + n ≤ k)) c
  unfold Memory.clear
  rw [this, if_pos (by simp; omega)]

/-! ### The state's memory -/

/-- Memory after reset lists nothing. -/
theorem reset_memOk : State.reset.memOk = true := rfl

theorem State.memOk_congr {s t : State} (h : t.mem = s.mem) : t.memOk = s.memOk := by unfold State.memOk; rw [h]

theorem State.store_memOk {s : State} (t a : Nat) (bs : List Byte) (h : s.memOk = true) : (s.store t a bs).memOk = true :=
  Memory.wf_setAll _ bs h

theorem State.zeroRange_memOk {s : State} (t a n : Nat) (h : s.memOk = true) : (s.zeroRange t a n).memOk = true :=
  Memory.wf_clear _ n h

@[simp] theorem State.load_length (s : State) (t a n : Nat) : (s.load t a n).length = n := by simp [State.load]

/-- What was stored is loaded again. -/
theorem State.load_store_same {s : State} (t a : Nat) (bs : List Byte) (h : s.memOk = true) : (s.store t a bs).load t a bs.length = bs := by
  apply List.ext_getElem
  · simp
  · intro i h1 h2
    simp only [State.load, List.getElem_map, List.getElem_range, State.store_mem]
    rw [show memKey t (a + i) = memKey t a + i by unfold memKey; omega]
    exact Memory.get_setAll_in h h2

/-- A store leaves every byte outside it. -/
theorem State.get_store_out {s : State} (t a : Nat) (bs : List Byte) {k : Nat} (h : k < memKey t a ∨ memKey t a + bs.length ≤ k) :
    Memory.get (s.store t a bs).mem k = Memory.get s.mem k :=
  Memory.get_setAll_out bs h

theorem State.load_congr {s u : State} (h : u.mem = s.mem) (t a n : Nat) : u.load t a n = s.load t a n := by unfold State.load; rw [h]

end Sys2Proof.Machine
end

