-- ==== Sys2Proof/Laws/Frame.lean ====
section
/-! SUPPORT. Frames: how `keepsBut`, `regsBut`, `countsBut` and `countsGrow` combine, and the frame of every shared operation of Ops and Rings. -/

namespace Sys2Proof.Machine

/-! ### Combining frames -/

@[simp] theorem Part.same_refl (s : State) (p : Part) : p.same s s := by cases p <;> simp [Part.same]

theorem Part.same_trans {s t u : State} {p : Part} (h : p.same s t) (g : p.same t u) : p.same s u := by
  cases p <;> simp_all [Part.same]

@[simp] theorem keepsBut_refl (ps : List Part) (s : State) : keepsBut ps s s := fun _ _ => Part.same_refl s _

/-- A frame that lists less says more. -/
theorem keepsBut.mono {ps qs : List Part} {s t : State} (h : keepsBut ps s t) (hs : ps ⊆ qs) : keepsBut qs s t :=
  fun p hp => h p fun hq => hp (hs hq)

theorem keepsBut.trans {ps : List Part} {s t u : State} (h : keepsBut ps s t) (g : keepsBut ps t u) : keepsBut ps s u :=
  fun p hp => Part.same_trans (h p hp) (g p hp)

/-- One step after another keeps what both keep. -/
theorem keepsBut.trans' {ps qs rs : List Part} {s t u : State} (h : keepsBut ps s t) (g : keepsBut qs t u) (hp : ps ⊆ rs) (hq : qs ⊆ rs) :
    keepsBut rs s u := fun p hn => Part.same_trans (h p fun k => hn (hp k)) (g p fun k => hn (hq k))

/-- A fold over a list keeps what each of its steps keeps. -/
theorem keepsBut_foldl {α : Type} {ps : List Part} {f : State → α → State} (l : List α) (s : State) (h : ∀ s a, keepsBut ps s (f s a)) :
    keepsBut ps s (l.foldl f s) := by
  induction l generalizing s with
  | nil => simp
  | cons a l ih => exact (h s a).trans' (ih (f s a)) (List.Subset.refl _) (List.Subset.refl _)

@[simp] theorem regsBut_refl (ks : List Key) (s : State) : regsBut ks s s := fun _ _ => rfl
@[simp] theorem countsBut_refl (ks : List Key) (s : State) : countsBut ks s s := fun _ _ => rfl
@[simp] theorem countsGrow_refl (s : State) : countsGrow s s := fun _ => Nat.le_refl _

theorem countsGrow.trans {s t u : State} (h : countsGrow s t) (g : countsGrow t u) : countsGrow s u := fun k => Nat.le_trans (h k) (g k)

theorem countsGrow_foldl {α : Type} {f : State → α → State} (l : List α) (s : State) (h : ∀ s a, countsGrow s (f s a)) : countsGrow s (l.foldl f s) := by
  induction l generalizing s with
  | nil => simp
  | cons a l ih => exact (h s a).trans (ih (f s a))

/-- A frame without the counters has every counter grow by nothing. -/
theorem countsGrow_of_cum {s t : State} (h : t.cum = s.cum) : countsGrow s t := fun k => by unfold State.cnt; rw [h]

theorem keepsBut.countsGrow {ps : List Part} {s t : State} (h : keepsBut ps s t) (hp : Part.counts ∉ ps) : countsGrow s t :=
  countsGrow_of_cum (h .counts hp).1

/-- A frame without memory keeps its canonical form. -/
theorem keepsBut.memOk {ps : List Part} {s t : State} (h : keepsBut ps s t) (hp : Part.mem ∉ ps) (hs : s.memOk = true) : t.memOk = true := by
  rw [State.memOk_congr (h .mem hp)]; exact hs

theorem keepsBut.reg {ps : List Part} {s t : State} (h : keepsBut ps s t) (hp : Part.regs ∉ ps) (k : Key) : t.reg k = s.reg k := by
  have : t.regs = s.regs := h .regs hp
  unfold State.reg; rw [this]

theorem keepsBut.cnt {ps : List Part} {s t : State} (h : keepsBut ps s t) (hp : Part.counts ∉ ps) (k : Key) : t.cnt k = s.cnt k := by
  unfold State.cnt; rw [(h .counts hp).1]

theorem State.reg_congr {s t : State} (h : t.regs = s.regs) (k : Key) : t.reg k = s.reg k := by unfold State.reg; rw [h]
theorem State.cnt_congr {s t : State} (h : t.cum = s.cum) (k : Key) : t.cnt k = s.cnt k := by unfold State.cnt; rw [h]

/-! ### One part alone -/

theorem with_pending_frame (s : State) (x : List Instr) : keepsBut [.pending] s { s with pending := x } := fun p hp => by
  cases p <;> first | exact absurd (List.mem_singleton.2 rfl) hp | exact rfl | exact ⟨rfl, rfl⟩
theorem with_regs_frame (s : State) (x : List (Key × Nat)) : keepsBut [.regs] s { s with regs := x } := fun p hp => by
  cases p <;> first | exact absurd (List.mem_singleton.2 rfl) hp | exact rfl | exact ⟨rfl, rfl⟩
theorem with_blobs_frame (s : State) (x : List (Key × List Byte)) : keepsBut [.blobs] s { s with blobs := x } := fun p hp => by
  cases p <;> first | exact absurd (List.mem_singleton.2 rfl) hp | exact rfl | exact ⟨rfl, rfl⟩
theorem with_last_frame (s : State) (x : List (Key × Nat)) : keepsBut [.last] s { s with last := x } := fun p hp => by
  cases p <;> first | exact absurd (List.mem_singleton.2 rfl) hp | exact rfl | exact ⟨rfl, rfl⟩
theorem with_dict_frame (s : State) (x : DictS) : keepsBut [.dict] s { s with dict := x } := fun p hp => by
  cases p <;> first | exact absurd (List.mem_singleton.2 rfl) hp | exact rfl | exact ⟨rfl, rfl⟩
theorem with_mem_frame (s : State) (x : List Host.Cell) : keepsBut [.mem] s { s with mem := x } := fun p hp => by
  cases p <;> first | exact absurd (List.mem_singleton.2 rfl) hp | exact rfl | exact ⟨rfl, rfl⟩
theorem with_poison_frame (s : State) (x : List Nat) : keepsBut [.poison] s { s with poison := x } := fun p hp => by
  cases p <;> first | exact absurd (List.mem_singleton.2 rfl) hp | exact rfl | exact ⟨rfl, rfl⟩
theorem with_time_frame (s : State) (x : TimeS) : keepsBut [.time] s { s with time := x } := fun p hp => by
  cases p <;> first | exact absurd (List.mem_singleton.2 rfl) hp | exact rfl | exact ⟨rfl, rfl⟩
theorem with_spin_frame (s : State) (x : List (Nat × Spindle)) : keepsBut [.spin] s { s with spin := x } := fun p hp => by
  cases p <;> first | exact absurd (List.mem_singleton.2 rfl) hp | exact rfl | exact ⟨rfl, rfl⟩
theorem with_ctl_frame (s : State) (x : CtlS) : keepsBut [.ctl] s { s with ctl := x } := fun p hp => by
  cases p <;> first | exact absurd (List.mem_singleton.2 rfl) hp | exact rfl | exact ⟨rfl, rfl⟩
theorem with_home_frame (s : State) (x : List HomeQ) : keepsBut [.home] s { s with home := x } := fun p hp => by
  cases p <;> first | exact absurd (List.mem_singleton.2 rfl) hp | exact rfl | exact ⟨rfl, rfl⟩
theorem with_copy_frame (s : State) (x : List CopyQ) : keepsBut [.copy] s { s with copy := x } := fun p hp => by
  cases p <;> first | exact absurd (List.mem_singleton.2 rfl) hp | exact rfl | exact ⟨rfl, rfl⟩
theorem with_passes_frame (s : State) (x : List Pass) : keepsBut [.passes] s { s with passes := x } := fun p hp => by
  cases p <;> first | exact absurd (List.mem_singleton.2 rfl) hp | exact rfl | exact ⟨rfl, rfl⟩
theorem with_filters_frame (s : State) (x : List Filter) : keepsBut [.filters] s { s with filters := x } := fun p hp => by
  cases p <;> first | exact absurd (List.mem_singleton.2 rfl) hp | exact rfl | exact ⟨rfl, rfl⟩
theorem with_rerank_frame (s : State) (x : RerankS) : keepsBut [.rerank] s { s with rerank := x } := fun p hp => by
  cases p <;> first | exact absurd (List.mem_singleton.2 rfl) hp | exact rfl | exact ⟨rfl, rfl⟩
theorem with_idx_frame (s : State) (x : List Idx) : keepsBut [.idx] s { s with idx := x } := fun p hp => by
  cases p <;> first | exact absurd (List.mem_singleton.2 rfl) hp | exact rfl | exact ⟨rfl, rfl⟩
theorem with_regWait_frame (s : State) (x : List RegWait) : keepsBut [.regWait] s { s with regWait := x } := fun p hp => by
  cases p <;> first | exact absurd (List.mem_singleton.2 rfl) hp | exact rfl | exact ⟨rfl, rfl⟩
theorem with_upd_frame (s : State) (x : List UpdHome) : keepsBut [.upd] s { s with upd := x } := fun p hp => by
  cases p <;> first | exact absurd (List.mem_singleton.2 rfl) hp | exact rfl | exact ⟨rfl, rfl⟩
theorem with_builds_frame (s : State) (x : List BuildHome) : keepsBut [.builds] s { s with builds := x } := fun p hp => by
  cases p <;> first | exact absurd (List.mem_singleton.2 rfl) hp | exact rfl | exact ⟨rfl, rfl⟩
theorem with_dense_frame (s : State) (x : DenseS) : keepsBut [.dense] s { s with dense := x } := fun p hp => by
  cases p <;> first | exact absurd (List.mem_singleton.2 rfl) hp | exact rfl | exact ⟨rfl, rfl⟩
theorem with_emb_frame (s : State) (x : EmbS) : keepsBut [.emb] s { s with emb := x } := fun p hp => by
  cases p <;> first | exact absurd (List.mem_singleton.2 rfl) hp | exact rfl | exact ⟨rfl, rfl⟩
theorem with_tier_frame (s : State) (x : TierS) : keepsBut [.tier] s { s with tier := x } := fun p hp => by
  cases p <;> first | exact absurd (List.mem_singleton.2 rfl) hp | exact rfl | exact ⟨rfl, rfl⟩
theorem with_flash_frame (s : State) (x : FlashS) : keepsBut [.flash] s { s with flash := x } := fun p hp => by
  cases p <;> first | exact absurd (List.mem_singleton.2 rfl) hp | exact rfl | exact ⟨rfl, rfl⟩
theorem with_ports_frame (s : State) (x : List (Nat × Port)) : keepsBut [.ports] s { s with ports := x } := fun p hp => by
  cases p <;> first | exact absurd (List.mem_singleton.2 rfl) hp | exact rfl | exact ⟨rfl, rfl⟩
theorem with_net_frame (s : State) (x : NetS) : keepsBut [.net] s { s with net := x } := fun p hp => by
  cases p <;> first | exact absurd (List.mem_singleton.2 rfl) hp | exact rfl | exact ⟨rfl, rfl⟩
theorem with_map_frame (s : State) (x : MapS) : keepsBut [.map] s { s with map := x } := fun p hp => by
  cases p <;> first | exact absurd (List.mem_singleton.2 rfl) hp | exact rfl | exact ⟨rfl, rfl⟩
theorem with_fault_frame (s : State) (x : FaultS) : keepsBut [.fault] s { s with fault := x } := fun p hp => by
  cases p <;> first | exact absurd (List.mem_singleton.2 rfl) hp | exact rfl | exact ⟨rfl, rfl⟩
theorem with_sched_frame (s : State) (x : SchedS) : keepsBut [.sched] s { s with sched := x } := fun p hp => by
  cases p <;> first | exact absurd (List.mem_singleton.2 rfl) hp | exact rfl | exact ⟨rfl, rfl⟩
theorem with_rings_frame (s : State) (x : List Ring) : keepsBut [.rings] s { s with rings := x } := fun p hp => by
  cases p <;> first | exact absurd (List.mem_singleton.2 rfl) hp | exact rfl | exact ⟨rfl, rfl⟩
theorem with_link_frame (s : State) (x : LinkS) : keepsBut [.link] s { s with link := x } := fun p hp => by
  cases p <;> first | exact absurd (List.mem_singleton.2 rfl) hp | exact rfl | exact ⟨rfl, rfl⟩
theorem with_sec_frame (s : State) (x : SecS) : keepsBut [.sec] s { s with sec := x } := fun p hp => by
  cases p <;> first | exact absurd (List.mem_singleton.2 rfl) hp | exact rfl | exact ⟨rfl, rfl⟩
theorem with_pwr_frame (s : State) (x : PwrS) : keepsBut [.pwr] s { s with pwr := x } := fun p hp => by
  cases p <;> first | exact absurd (List.mem_singleton.2 rfl) hp | exact rfl | exact ⟨rfl, rfl⟩
theorem with_mgmtOut_frame (s : State) (x : List (FaultMsg × List Byte)) : keepsBut [.mgmtOut] s { s with mgmtOut := x } := fun p hp => by
  cases p <;> first | exact absurd (List.mem_singleton.2 rfl) hp | exact rfl | exact ⟨rfl, rfl⟩
theorem with_free_frame (s : State) (x : Nat) : keepsBut [.free] s { s with free := x } := fun p hp => by
  cases p <;> first | exact absurd (List.mem_singleton.2 rfl) hp | exact rfl | exact ⟨rfl, rfl⟩

/-! ### Registers -/

@[simp] theorem State.reg_setReg_same (s : State) (k : Key) (v : Nat) : (s.setReg k v).reg k = v := by simp [State.reg]

theorem State.reg_setReg_ne (s : State) {k j : Key} (v : Nat) (h : j ≠ k) : (s.setReg k v).reg j = s.reg j := by
  simp [State.reg, lk_put_ne _ _ h]

theorem State.reg_setReg (s : State) (k j : Key) (v : Nat) : (s.setReg k v).reg j = if j = k then v else s.reg j := by
  split
  · subst_vars; simp
  · exact State.reg_setReg_ne s v ‹_›

@[simp] theorem State.blob_setBlob_same (s : State) (k : Key) (b : List Byte) : (s.setBlob k b).blob k = b := by simp [State.blob]

theorem State.blob_setBlob_ne (s : State) {k j : Key} (b : List Byte) (h : j ≠ k) : (s.setBlob k b).blob j = s.blob j := by
  simp [State.blob, lk_put_ne _ _ h]

/-- Storing an integer in a register of `w` bits that can hold it, and reading it back (R489). -/
theorem toInt_ofInt {w : Nat} {i : Int} (hw : 0 < w) (h1 : -2 ^ (w - 1) ≤ i) (h2 : i < 2 ^ (w - 1)) : toInt w (ofInt w i) = i := by
  obtain ⟨n, rfl⟩ : ∃ n, w = n + 1 := ⟨w - 1, by omega⟩
  simp only [Nat.add_sub_cancel] at h1 h2
  unfold toInt ofInt
  simp only [Nat.add_sub_cancel]
  have hp : (2 : Int) ^ (n + 1) = 2 * 2 ^ n := by rw [pow_succ]; omega
  have hpos : (0 : Int) < 2 ^ n := by positivity
  have hnat : ((2 ^ n : Nat) : Int) = 2 ^ n := by push_cast; rfl
  rw [hp]
  rcases Int.lt_or_le i 0 with hi | hi
  · have he : i % (2 * 2 ^ n) = i + 2 * 2 ^ n := by
      rw [← Int.add_emod_right, Int.emod_eq_of_lt (by omega) (by omega)]
    rw [he, if_neg (by omega)]
    omega
  · rw [Int.emod_eq_of_lt hi (by omega), if_pos (by omega)]
    omega

theorem State.regI_setRegI (s : State) {w : Nat} (k : Key) {i : Int} (hw : 0 < w) (h1 : -2 ^ (w - 1) ≤ i) (h2 : i < 2 ^ (w - 1)) :
    (s.setRegI w k i).regI w k = i := by
  unfold State.setRegI State.regI
  rw [State.reg_setReg_same, toInt_ofInt hw h1 h2]

/-! ### Counters -/

@[simp] theorem State.cnt_bump_same (s : State) (k : Key) (n : Nat) : (s.bump k n).cnt k = s.cnt k + n := by
  unfold State.bump State.cnt
  split
  · simp_all
  · simp

theorem State.cnt_bump_ne (s : State) {k j : Key} (n : Nat) (h : j ≠ k) : (s.bump k n).cnt j = s.cnt j := by
  unfold State.bump State.cnt
  split
  · rfl
  · simp [lk_put_ne _ _ h]

theorem State.cnt_bump (s : State) (k j : Key) (n : Nat) : (s.bump k n).cnt j = s.cnt j + if j = k then n else 0 := by
  split
  · subst_vars; simp
  · simp [State.cnt_bump_ne s n ‹_›]

theorem State.cnt_bumpIf (s : State) (b : Bool) (k j : Key) : (s.bumpIf b k).cnt j = s.cnt j + if b = true ∧ j = k then 1 else 0 := by
  unfold State.bumpIf
  cases b <;> simp [State.cnt_bump]

@[simp] theorem State.bump_countsGrow (s : State) (k : Key) (n : Nat) : countsGrow s (s.bump k n) := fun j => by rw [State.cnt_bump]; omega
@[simp] theorem State.bumpIf_countsGrow (s : State) (b : Bool) (k : Key) : countsGrow s (s.bumpIf b k) := fun j => by rw [State.cnt_bumpIf]; omega

/-! ### The guards -/

theorem live_running {s : State} {f : State → State} (h : s.running = true) : live s f = .next { f s with pending := s.pending } := by
  simp [live, h]

theorem live_stopped {s : State} {f : State → State} (h : s.running = false) : live s f = .next s := by simp [live, h]

/-- A command of the running Molset answers the effect or leaves the state. -/
theorem live_cases {s t : State} {f : State → State} (h : live s f = .next t) :
    (s.running = true ∧ t = { f s with pending := s.pending }) ∨ (s.running = false ∧ t = s) := by
  unfold live at h
  injection h with h
  cases hr : s.running <;> simp_all

/-- What a command of the running Molset keeps, if its effect keeps it. -/
theorem live_keepsBut {ps : List Part} {s t : State} {f : State → State} (h : live s f = .next t) (hf : keepsBut ps s (f s)) : keepsBut ps s t := by
  rcases live_cases h with ⟨-, rfl⟩ | ⟨-, rfl⟩
  · intro p hp
    have := hf p hp
    cases p <;> simp_all [Part.same]
  · simp

theorem always_next (s : State) (f : State → State) : always s f = .next { f s with pending := s.pending } := rfl

theorem live_memOk {s t : State} {f : State → State} (h : live s f = .next t) (hs : s.memOk = true) (hf : (f s).memOk = true) : t.memOk = true := by
  rcases live_cases h with ⟨-, rfl⟩ | ⟨-, rfl⟩
  · exact hf
  · exact hs

theorem live_countsGrow {s t : State} {f : State → State} (h : live s f = .next t) (hf : countsGrow s (f s)) : countsGrow s t := by
  rcases live_cases h with ⟨-, rfl⟩ | ⟨-, rfl⟩
  · exact hf
  · simp

/-! ### The frames of the shared operations of Ops -/

@[simp] theorem setReg_frame (s : State) (k : Key) (v : Nat) : keepsBut [.regs] s (s.setReg k v) := by
  intro p hp; cases p <;> simp_all [Part.same]
@[simp] theorem setRegI_frame (s : State) (w : Nat) (k : Key) (i : Int) : keepsBut [.regs] s (s.setRegI w k i) := setReg_frame s k _
@[simp] theorem setBlob_frame (s : State) (k : Key) (b : List Byte) : keepsBut [.blobs] s (s.setBlob k b) := by
  intro p hp; cases p <;> simp_all [Part.same]
@[simp] theorem bump_frame (s : State) (k : Key) (n : Nat) : keepsBut [.counts] s (s.bump k n) := by
  intro p hp; cases p <;> simp_all [Part.same]
@[simp] theorem bumpIf_frame (s : State) (b : Bool) (k : Key) : keepsBut [.counts] s (s.bumpIf b k) := by
  intro p hp; cases p <;> simp_all [Part.same]
@[simp] theorem issue_frame (s : State) (i : Nat) (c : Option (Nat × Nat)) (t a g : Nat) (q : Option QName) :
    keepsBut [.tier, .ctl] s (s.issue i c t a g q) := by intro p hp; cases p <;> simp_all [Part.same]
@[simp] theorem stampUp_frame (s : State) : keepsBut [.ctl] s s.stampUp := by intro p hp; cases p <;> simp_all [Part.same]
@[simp] theorem store_frame (s : State) (t a : Nat) (bs : List Byte) : keepsBut [.mem, .poison] s (s.store t a bs) := by
  intro p hp; cases p <;> simp_all [Part.same]
@[simp] theorem zeroRange_frame (s : State) (t a n : Nat) : keepsBut [.mem, .poison] s (s.zeroRange t a n) := by
  intro p hp; cases p <;> simp_all [Part.same]
@[simp] theorem poisonLine_frame (s : State) (t a : Nat) : keepsBut [.poison, .tier] s (s.poisonLine t a) := by
  intro p hp; cases p <;> simp_all [Part.same]
@[simp] theorem logReq_frame (s : State) (n : Nat × Nat) (d : Nat) (m : Msg) : keepsBut [.fault] s (s.logReq n d m) := by
  intro p hp; cases p <;> simp_all [Part.same]
@[simp] theorem score_frame (s : State) (a b w : Nat) : keepsBut [.fault] s (s.score a b w) := by
  intro p hp; cases p <;> simp_all [Part.same]
@[simp] theorem mgmtCopy_frame (s : State) (m : FaultMsg) : keepsBut [.mgmtOut] s (s.mgmtCopy m) := by
  intro p hp; cases p <;> simp_all [Part.same]
@[simp] theorem setRing_frame (s : State) (r : Ring) : keepsBut [.rings] s (s.setRing r) := by
  intro p hp; cases p <;> simp_all [Part.same]

/-- Handing a packet to the transport changes the transport and may count a packet that has no route or no common binding (R350, R355, R471). -/
@[simp] theorem sendAt_frame (s : State) (d k t e : Nat) (r : Bool) (m : Msg) : keepsBut [.net, .counts] s (s.sendAt d k t e r m) := by
  unfold State.sendAt
  split
  · exact (bumpIf_frame s _ _).mono (by simp)
  · intro p hp; cases p <;> simp_all [Part.same]

@[simp] theorem send_frame (s : State) (d k t : Nat) (m : Msg) : keepsBut [.net, .counts] s (s.send d k t m) := sendAt_frame s d k t _ _ m
@[simp] theorem sendRole_frame (s : State) (d k t : Nat) (m : Msg) : keepsBut [.net, .counts] s (s.sendRole d k t m) := sendAt_frame s d k t _ _ m
@[simp] theorem sendAll_frame (s : State) (l : List Nat) (k t : Nat) (r : Bool) (m : Msg) : keepsBut [.net, .counts] s (s.sendAll l k t r m) :=
  keepsBut_foldl _ s fun _ _ => sendAt_frame _ _ _ _ _ _ _
@[simp] theorem sendEach_frame (s : State) (l : List Nat) (k t e : Nat) (m : Msg) : keepsBut [.net, .counts] s (s.sendEach l k t e m) :=
  keepsBut_foldl _ s fun _ _ => sendAt_frame _ _ _ _ _ _ _
@[simp] theorem sendFault_frame (s : State) (l : List Nat) (m : FaultMsg) : keepsBut [.net, .counts, .mgmtOut] s (s.sendFault l m) :=
  (sendAll_frame s l 0x14 0 false (.fault m)).trans' (mgmtCopy_frame _ m) (by simp) (by simp)

/-- A report that comes to this Molset opens a case here, or changes nothing (R379). -/
@[simp] theorem takeReport_frame (s : State) (m : FaultMsg) : keepsBut [.fault] s (s.takeReport m) := by
  unfold State.takeReport
  dsimp only
  split
  · simp
  · split
    · simp
    · exact with_fault_frame s _

/-- Raising a fault sends a report and its management copy, and may open a case here (R378 to R380, R385). -/
@[simp] theorem raiseFault_frame (s : State) (a b c d e : Nat) : keepsBut [.net, .counts, .mgmtOut, .fault] s (s.raiseFault a b c d e) :=
  (sendFault_frame s _ _).trans' (takeReport_frame _ _) (by simp) (by simp)

/-- Entry to the out-of-phase state (R41, R43). -/
@[simp] theorem outOfPhase_frame (s : State) : keepsBut [.regs, .time, .net, .counts, .mgmtOut, .fault] s s.outOfPhase := by
  unfold State.outOfPhase
  split
  · simp
  · refine keepsBut.trans' (ps := [.regs, .time, .counts]) ?_ (raiseFault_frame _ 3 _ 0 0 0) (by simp) (by simp)
    intro p hp; cases p <;> simp_all [Part.same]

/-- A decision that arrives after its tick (R25). -/
@[simp] theorem stale_frame (s : State) : keepsBut [.regs, .time, .net, .counts, .mgmtOut, .fault] s s.stale :=
  (bump_frame s 0xE0100B 1).trans' (outOfPhase_frame _) (by simp) (by simp)

/-! ### Counters grow in the shared operations -/

@[simp] theorem sendAt_countsGrow (s : State) (d k t e : Nat) (r : Bool) (m : Msg) : countsGrow s (s.sendAt d k t e r m) := by
  unfold State.sendAt
  split
  · simp
  · exact (State.bumpIf_countsGrow s _ 0xE0C00B).trans (countsGrow_of_cum rfl)

@[simp] theorem sendAll_countsGrow (s : State) (l : List Nat) (k t : Nat) (r : Bool) (m : Msg) : countsGrow s (s.sendAll l k t r m) :=
  countsGrow_foldl _ s fun _ _ => sendAt_countsGrow _ _ _ _ _ _ _
@[simp] theorem sendEach_countsGrow (s : State) (l : List Nat) (k t e : Nat) (m : Msg) : countsGrow s (s.sendEach l k t e m) :=
  countsGrow_foldl _ s fun _ _ => sendAt_countsGrow _ _ _ _ _ _ _
@[simp] theorem sendFault_countsGrow (s : State) (l : List Nat) (m : FaultMsg) : countsGrow s (s.sendFault l m) :=
  (sendAll_countsGrow s l 0x14 0 false (.fault m)).trans ((mgmtCopy_frame _ m).countsGrow (by simp))
@[simp] theorem raiseFault_countsGrow (s : State) (a b c d e : Nat) : countsGrow s (s.raiseFault a b c d e) :=
  (sendFault_countsGrow s _ _).trans ((takeReport_frame _ _).countsGrow (by simp))

/-! ### What a sent packet leaves at the transport -/

/-- A packet that is not withheld waits at the transport for its destination (R355). -/
theorem sendAt_hasSent (s : State) (d k t e : Nat) (r : Bool) (m : Msg) (h : carriesData m = false ∨ s.counts t d = true) :
    (s.sendAt d k t e r m).hasSent d k m := by
  unfold State.sendAt
  rw [if_neg (by rcases h with h | h <;> simp [h])]
  exact ⟨_, List.mem_append_right _ (List.mem_singleton.2 rfl), rfl, rfl, rfl⟩

/-- What waits at the transport keeps waiting while more is sent. -/
theorem sendAt_unacked (s : State) (d k t e : Nat) (r : Bool) (m : Msg) : ∀ p ∈ s.net.unacked, p ∈ (s.sendAt d k t e r m).net.unacked := by
  intro p hp
  unfold State.sendAt
  split
  · simpa using hp
  · exact List.mem_append_left _ (by simpa using hp)

theorem sendAll_unacked (s : State) (l : List Nat) (k t : Nat) (r : Bool) (m : Msg) : ∀ p ∈ s.net.unacked, p ∈ (s.sendAll l k t r m).net.unacked := by
  unfold State.sendAll
  generalize l.filter _ = l'
  intro p hp
  induction l' generalizing s with
  | nil => exact hp
  | cons a l' ih => exact ih (s.sendAt a k t s.epoch r m) (sendAt_unacked s a k t _ r m p hp)

/-! ### Rings -/

@[simp] theorem State.ring_setRing (s : State) (r : Ring) : (s.setRing r).ring r.tenant = r := by
  unfold State.setRing State.ring
  simp only
  generalize s.rings = l
  have key : ∀ l : List Ring, (∀ x ∈ l, x.tenant ≠ r.tenant) →
      (insertBy (fun (a b : Ring) => decide (a.tenant < b.tenant)) r l).find? (fun x => x.tenant == r.tenant) = some r := by
    intro l hl
    induction l with
    | nil => simp [insertBy]
    | cons y l ih =>
      simp only [insertBy]
      split
      · simp
      · rw [List.find?_cons_of_neg (by simpa using hl y (by simp)), ih fun x hx => hl x (by simp [hx])]
  rw [key _ (by simp)]
  rfl

@[simp] theorem leave_frame (s : State) (t n : Nat) : keepsBut [.rings] s (s.leave t n) := setRing_frame s _

/-- A completion entry: the ring, the memory under it and one count; a tenant in teardown gets none (R442 to R445). -/
@[simp] theorem complete_frame (s : State) (t seq kind status flags tag skein : Nat) (d : List Byte) (late : Nat) :
    keepsBut [.rings, .counts, .mem, .poison] s (s.complete t seq kind status flags tag skein d late) := by
  unfold State.complete
  split
  · simp
  · exact ((store_frame s t _ _).trans' (bump_frame _ 0xE0F00C 1) (rs := [.mem, .poison, .counts]) (by simp) (by simp)).trans'
      (setRing_frame _ _) (by simp) (by simp)

@[simp] theorem refuse_frame (s : State) (t seq kind status flags tag : Nat) :
    keepsBut [.rings, .counts, .mem, .poison] s (s.refuse t seq kind status flags tag) :=
  (leave_frame s t seq).trans' (complete_frame _ t seq kind status flags tag 0 [] 0) (by simp) (by simp)

@[simp] theorem markReady_frame (s : State) (t seq kind cost : Nat) (bulk : Bool) : keepsBut [.rings] s (s.markReady t seq kind cost bulk) :=
  setRing_frame s _

theorem complete_memOk {s : State} (t seq kind status flags tag skein : Nat) (d : List Byte) (late : Nat) (h : s.memOk = true) :
    (s.complete t seq kind status flags tag skein d late).memOk = true := by
  unfold State.complete
  split
  · exact h
  · refine ((setRing_frame _ _).memOk (by simp) ?_)
    exact (bump_frame _ 0xE0F00C 1).memOk (by simp) (State.store_memOk t _ _ h)

theorem complete_countsGrow (s : State) (t seq kind status flags tag skein : Nat) (d : List Byte) (late : Nat) :
    countsGrow s (s.complete t seq kind status flags tag skein d late) := by
  unfold State.complete
  split
  · simp
  · intro j
    rw [((setRing_frame _ _).cnt (by simp) j), State.cnt_bump, ((store_frame s t _ _).cnt (by simp) j)]
    omega

theorem refuse_memOk {s : State} (t seq kind status flags tag : Nat) (h : s.memOk = true) : (s.refuse t seq kind status flags tag).memOk = true :=
  complete_memOk t seq kind status flags tag 0 [] 0 ((leave_frame s t seq).memOk (by simp) h)

theorem refuse_countsGrow (s : State) (t seq kind status flags tag : Nat) : countsGrow s (s.refuse t seq kind status flags tag) :=
  ((leave_frame s t seq).countsGrow (by simp)).trans (complete_countsGrow _ t seq kind status flags tag 0 [] 0)

/-- An entry that was marked waits for admission with its cost and class (R412). -/
theorem markReady_ready (s : State) (t seq kind cost : Nat) (bulk : Bool) (h : (s.ring t).tenant = t) :
    ∃ x ∈ ((s.markReady t seq kind cost bulk).ring t).ready, x.seq = seq ∧ x.kind = kind ∧ x.cost = cost ∧ x.bulk = bulk := by
  have e : (s.markReady t seq kind cost bulk).ring t = { s.ring t with
      ready := insertBy (fun (a b : Ready) => a.seq < b.seq) { seq, kind, cost, bulk, since := s.now } ((s.ring t).ready.filter (·.seq != seq)) } := by
    have := State.ring_setRing s { s.ring t with
      ready := insertBy (fun (a b : Ready) => a.seq < b.seq) { seq, kind, cost, bulk, since := s.now } ((s.ring t).ready.filter (·.seq != seq)) }
    rwa [show ({ s.ring t with
      ready := insertBy (fun (a b : Ready) => a.seq < b.seq) { seq, kind, cost, bulk, since := s.now } ((s.ring t).ready.filter (·.seq != seq)) } : Ring).tenant = t
      from h] at this
  rw [e]
  exact ⟨{ seq, kind, cost, bulk, since := s.now }, mem_insertBy.2 (.inl rfl), rfl, rfl, rfl, rfl⟩

theorem State.ring_tenant (s : State) (t : Nat) : (s.ring t).tenant = t := by
  unfold State.ring
  cases h : s.rings.find? fun r => r.tenant == t with
  | none => rfl
  | some r => simpa using List.find?_some h

/-- The check of one entry keeps everything but what the check of its kind, a refusal and the ring change (R440, R442). -/
theorem checkEntry_frame {ps : List Part} (s : State) (t seq : Nat) (bad : Bool) (check : State → Entry → State × Chk)
    (hc : ∀ s e, keepsBut ps s (check s e).1) (hp : [.rings, .counts, .mem, .poison] ⊆ ps) : keepsBut ps s (s.checkEntry t seq bad check) := by
  have hr : ∀ (s : State) (r : Ring), keepsBut ps s (s.setRing r) := fun s r => (setRing_frame s r).mono (by intro x hx; apply hp; simp_all)
  have hb : ∀ (s : State) k n, keepsBut ps s (s.bump k n) := fun s k n => (bump_frame s k n).mono (by intro x hx; apply hp; simp_all)
  have hf : ∀ (s : State) k st f g, keepsBut ps s (s.refuse t seq k st f g) := fun s k st f g => (refuse_frame s t seq k st f g).mono hp
  unfold State.checkEntry
  split
  · simp
  · split
    · exact (hr s _).trans (hb _ _ _)
    · refine ((hr s { s.ring t with held := 0 }).trans (hb _ 0xE0F00A 1)).trans ?_
      dsimp only
      split
      · exact (hb _ _ _).trans (hf _ _ _ _ _)
      · have h := hc ((s.setRing { s.ring t with held := 0 }).bump 0xE0F00A 1)
          (((s.setRing { s.ring t with held := 0 }).bump 0xE0F00A 1).entryOf t seq)
        split <;> rename_i heq <;> rw [heq] at h
        · exact h.trans (hf _ _ _ _ _)
        · exact h.trans (hf _ _ _ _ _)
        · exact h.trans (hr _ _)
        · exact h.trans (hr _ _)

end Sys2Proof.Machine
end

