-- ==== Sys2Proof/Tests/Slice0.lean ====
section
/-! SUPPORT. Tests: each check of `Instr.wf` refuses an ill-formed term; the block idles on an empty queue; single steps; and, for every clause of a statement that has
hypotheses, a state and operands that meet them all (`wit_<statement>_<clause>`). -/

namespace Sys2Proof.Tests

open Sys2Proof Sys2Proof.Machine

set_option Elab.async false
set_option linter.unusedVariables false

/-! ### Small values -/

def r0 : State := State.reset
def q0 : QName := { home := 0, skein := 1, qidx := 0 }
def q9 : QName := { home := 9, skein := 1, qidx := 0 }
theorem any_wit {α : Type} {o : Option α} {P : α → Prop} [DecidablePred P] (h : (o.any fun d => decide (P d)) = true) : ∃ d, o = some d ∧ P d := by
  cases o with
  | none => simp at h
  | some d => exact ⟨d, rfl, by simpa using h⟩
def par0 : QParams := {
  tenant := 1, index := 2, k := 1, r := 0, p := 1, ceil := 1, prefilter := 0, filterMode := 0, filter := 0, bound := 0, metric := 0, dim := 4, sign := 0,
  bulk := false, widen := false }
/-- A shingle of one item; its check is not the right one. -/
def shBad : Shingle := {
  layout := 1, thatch := 1, num := 0, list := 0, count := 1, m := 1, shape := 0, d := 1, res1 := 0, cbset := 0, idOff := 64, signOff := 0, codeOff := 128, res2 := 0,
  check := 0, ids := [7], signs := [[]], codes := [[3]] }
/-- The same with its check. -/
def sh0 : Shingle := { shBad with check := shingleCheck shBad }
def im0 : Image := {
  version := 1, index := 2, tenant := 1, shard := 0, shards := 1, lists := 1, m := 1, shape := 0, d := 1, dim := 4, rr := 9, kind := 0, fold := 0, items := 1,
  cbset := 0, margin := 0, digest := [], codebook := [], centroids := [], listShard := [0], listTable := [⟨0, 0, 1, 1⟩], centShingles := [], shingles := [],
  itemMap := [] }
def th0 : Thatch := { im := im0, st := 2, since := 0 }
def desc0 : IdxDesc := { tenant := 1, index := 2, shards := 1, lists := 1, m := 1, shape := 0, d := 1, dim := 4, rr := 9, spill := false, margin := 0, deltaLimit := 100 }
def idx0 : Idx := { slot := 0, desc := desc0, home := 0, regTick := 0, thatches := [th0], views := [(1, 0)] }
def it0 : Item := {
  skein := 1, shingle := 0, mask := 0, stolen := false, check := false, kind := 0, tenant := 1, index := 2, shard := 0, version := 1, pass := 1, die := 0, role := 0, errors := 0 }
def copy0 : CopyQ := { name := q0, shard := 0, par := par0, vec := [0, 0, 0, 0], version := 1 }
def home0 : HomeQ := {
  name := q0, seq := 1, tag := 0, par := par0, vecAddr := 0, vecFmt := 9, resAddr := 4096, version := 1, weight := 1, phase := 1 }
def cand0 : Cand := ⟨q0, 0, 7, false, 0⟩
def imR : Image := { im0 with itemMap := [⟨7, 0, 0, 0⟩] }
def hank0 : Hank := sealHank {
  name := q0, shard := 0, level := 2, pass := 0, boundary := 0, nan := 0, low := 0, high := 0, items := 1, offered := 1, integrity := false, missing := false, digest := 0,
  res := 0, entries := [⟨7, false, 0, 0⟩] }
/-- A home and a copy of a query with one candidate whose read is under way. -/
def sCand : State := {
  r0 with
  idx := [{ idx0 with thatches := [{ th0 with im := imR }] }], home := [{ home0 with phase := 4, sent := [cand0] }], copy := [copy0], rerank := { reads := [cand0] } }
def acc0 : Access := { id := 1, tier := 2, issued := 0, ctx := none, tenant := 1, addr := 0, stage := 4, q := some q0 }
def page0 : Page := { tenant := 1, page := 0, home := .stack 0 }
def chk0 : Check := { id := 1, item := it0, first := 0, checker := 192, d1 := some 5, d2 := some 5, third := none, out := 0, queries := [] }
def tk0 : TickIn := { ns := 500, excess := [], power := 0, temps := [], slack := [] }
def mk0 : Marker := { sender := 3, reference := 0, hops := 1, align := 2, tick := 0, t1 := 0, t2 := 0, t3 := 0, phase := 0, t4 := 0, own := 0 }
def pc0 : PeriodChange := { period := 500, switch := 256, origin := true, peers := [3], acks := [] }
/-- A state with one index and a thatch of it. -/
def sIdx : State := { r0 with idx := [idx0] }
/-- A state with one query at its home and on a copy. -/
def sQ (h : HomeQ) (c : CopyQ) : State := { sIdx with home := [h], copy := [c] }
/-- A state in which tenant 1 owns page 0 and is in service. -/
def sPage : State := { r0 with tier := { r0.tier with pages := [page0] } }.setReg (pagedKey 0xA104 1) 3

def tab1 : Table := { entries := [[0, 0, 0, 5]], sigma := 0, offset := 0, sign := [], digest := 0 }
/-- An item of one query, whose tables are in slot 0. -/
def it1 : Item := { it0 with mask := 1 }
/-- Spindle 0 with that query, and a shingle whose words are given or not. -/
def spQ (tomb : Option (List Bool)) (c : Ctx) : Spindle := {
  tslots := [(0, { q := some (q0, 0), table := some tab1 })], shslots := [(0, { item := some it1, sh := some shBad, tomb := tomb })], ctxs := [c] }
def pass1 (b : Bool) : Pass := ⟨4, 1, 1, 2, 0, [(q0, 0, 0)], b⟩
/-- A state with a pass of one query, its tables given or not. -/
def sPass (b : Bool) (tab : Option Table) : State := {
  sQ home0 { copy0 with phase := 1, table := tab } with
  passes := [pass1 b], spin := [(0, { tslots := [(0, { q := some (q0, 0) })], bobOwner := some ⟨1, 0, 0⟩ })] }
/-- A state in which spindle 1 has eight items to steal. -/
def sSteal : State := { r0 with spin := [(0, {}), (1, { queue := List.replicate 8 it0 })] }.setReg 0x301102 0
/-- In it spindle 0 is a thief of spindle 1. -/
def sSteal2 : State := { sSteal with spin := put sSteal.spin 0 { steal := some 1 } }

/-- The index with its thatch in service. -/
def idxL : Idx := { idx0 with thatches := [{ th0 with st := 1 }] }
def me (kind tenant object shard a b c value : Nat) : MapEntry := { kind, action := 0, tenant, object, shard, a, b, c, value }
/-- A map in which this Molset has every role of index 2 and table 4. -/
def seqMap : List MapEntry := [me 2 1 0 0 3 0xFFFF 0xFFFF 1, me 3 1 2 0 0 3 0xFFFF 0, me 4 1 2 0 0 3 0xFFFF 0, me 5 1 4 0 0 0xFFFF 0xFFFF 0, me 6 1 4 0 0 3 0xFFFF 0]
/-- A map in which node 3 has them. -/
def othMap : List MapEntry := [me 2 1 0 0 3 0xFFFF 0xFFFF 1, me 3 1 2 0 3 0 0xFFFF 0, me 4 1 2 0 3 0 0xFFFF 0, me 5 1 4 0 3 0xFFFF 0xFFFF 0, me 6 1 4 0 3 0 0xFFFF 0]
def sSeq : State := { sIdx.setReg (pagedKey 0xA104 1) 3 with map := { entries := seqMap } }
def sOth : State := { sIdx.setReg (pagedKey 0xA104 1) 3 with map := { entries := othMap } }
def breq0 : BuildReq := {
  tenant := 1, index := 2, kind := 1, lend := 0, publish := 100, home := 0, ringSeq := 1, codebook := [], centroids := [], listShard := [0], margin := 0, fold := 1 }
def b0 : Build := { req := breq0, fold := 1, started := true, staged := [], p := none, acks := [], shingles := [], sent := [], fails := [] }
def bP : Build := { b0 with p := some 1 }
def bS : Build := { b0 with staged := [(0, 0), (0, 3)] }
def idxP : Idx := { idx0 with build := some bP }
def rw0 : RegWait := { tenant := 1, seq := 1, index := 2, nodes := [3, 5], yes := [], no := [], tick := 0 }
def upd0 : UpdHome := { tenant := 1, seq := 1, tag := 0, index := 2, op := 1, id := 7, addr := 0, fmt := 9, dim := 4, tick := 0 }
def ureq0 : UpdReq := { tenant := 1, index := 2, op := 2, id := 7, vec := [], home := 0, ringSeq := 1 }
def rec0 : DeltaRec := { tenant := 1, index := 2, seq := 1, id := 7, op := 2, home := 0, ringSeq := 1, parts := [], vec := [] }
def seal0 : SealRec := { tenant := 1, index := 2, tick := 4, first := 1, sealed := 1, count := 1, digest := 0, live := 0 }
def ly0 : Layer := {
  op := 1, inFmt := 9, outFmt := 9, fn := 0, inBuf := 1, in2 := 0, outBuf := 2, tier := 1, n := 1, l := 1, eps := 0, param := 0, dataAddr := 0, scaleAddr := 0, blocks := 1,
  fmt := 7, tagBase := 0, chanLen := 0, expAddr := 0, res := 0 }
def dj0 : DJob := {
  slot := 0, model := 0, seq := 1, tag := 0, tenant := 1, handle := 1, inAddr := 0, outAddr := 0, b := 1, first := 0, last := 0, inFmt := 9, bulk := false, adm := 0,
  frames := 1, cost := 1, ratio := 1, limit := 1, layer := 0 }
def mdlD (y : Layer) : Model := {
  slot := 0, tenant := 1, handle := 1, bmax := 1, layers := [y], params := 0, start := 0, stop := none, pins := [], pages := [] }
def sDense (j : DJob) (y : Layer) : State := { r0 with dense := { models := [mdlD y], jobs := [j] } }
def itD (n : Nat) : Item := { it0 with kind := 1, shingle := n }
def sRun (it : Item) (y : Layer) : State := { sDense dj0 y with spin := [(0, { ctxs := [{ st := 2, item := some it }] })] }
/-- A context of spindle 0 that waits for the refetch of a block. -/
def sMis (it : Item) : State := {
  sDense dj0 ly0 with ctl := { mismatches := [⟨0, 0, 0, 0, 0, 0, []⟩] }, spin := [(0, { ctxs := [{ st := 3, item := some it }] })] }
def tab0 : Tab := { slot := 0, tenant := 1, table := 4, fmt := 9, e := 16, z := 1, rows := 64, shardRows := 64, start := 0 }
def gj0 : GJob := {
  slot := 0, seq := 1, tag := 0, tenant := 1, table := 4, scatter := false, listAddr := 0, dataAddr := 0, n := 1, g := 1, pool := 0, fmt := 9, bulk := true, step := 0,
  eta := 0, parts := 1, adm := 0, frames := 1, cost := 1, version := 0, idxs := [0], items := [0] }
def img0 : RowImg := ⟨[], [], 0⟩
def sTab : State := { r0.setReg (pagedKey 0xA104 1) 3 with map := { entries := seqMap }, emb := { tabs := [tab0] } }
def sTabOth : State := { r0.setReg (pagedKey 0xA104 1) 3 with map := { entries := othMap }, emb := { tabs := [tab0] } }
def stg0 : TStage := { tenant := 1, table := 4, shard := 0, version := 1, seq := 1, tag := 0, tick := 0, mirrorOk := true, encoded := true }
def tabB : Tab := { tab0 with fmt := 1 }
/-- A job reads row 0, whose read is under way; the reads tried before. -/
def sRow (x : Tab) (tr : List (Nat × Nat × Nat)) : State := { sTabOth with emb := { tabs := [x], jobs := [gj0], outstanding := [(0, 0, 0, 1)], tries := tr } }
/-- Tenant 1 is served at nodes 0 and 3. -/
def sTab2 : State := { sTab with map := { entries := me 2 1 0 0 0 0xFFFF 0xFFFF 1 :: seqMap } }
def con0 : Contrib := { tenant := 1, table := 4, step := 1, row := 0, node := 0, pos := 0, grad := [] }
def sum0 : Summary := { tenant := 1, table := 4, step := 1, node := 0, version := 0, eta := 0, c := 1, count := 0 }
def es0 : EStep := { tenant := 1, table := 4, step := 1 }
def ov0 : Overlay := { tenant := 1, table := 4, version := 0, row := 0, step := 1, v := some 1, img := img0, mirror := false }
def mig0 : Migration := { tenant := 1, table := 4, a := 3, b := 0, rows := [0], tick := 9 }
def migA : Mig := { m := { tenant := 1, table := 4, a := 0, b := 3, rows := [0], tick := 0 } }
/-- Row 0 has moved to node 3. -/
def tabM : Tab := { tab0 with dirOver := [(0, 0, 3)] }
def sMoved (g : List Mig) : State := { sTab2 with emb := { tabs := [tabM], migs := g } }
def sSt (k : EStep) : State := { sTab with ctl := { gatherSet := [0] }, emb := { tabs := [tab0], steps := [k] } }
def pz0 : PageZero := { id := 1, tenant := 1, board := false, pages := [0], region := 0, seq := 0, tag := 0, tick := 0 }
def mv0 : Move := { tenant := 1, seq := 1, tag := 0, tick := 0, page := 0, board := false, left := [0, 1] }
def sMove : State := { r0.setReg (pagedKey 0x6040 1) 16 with tier := { pages := [{ page0 with home := .board 0 [] 0 0 0 }], moves := [mv0] } }
def sMoveL (l : List Nat) (f : Bool) : State := { sMove with tier := { sMove.tier with moves := [{ mv0 with left := l, freed := f }] } }
def fst0 : FStored := { block := 0, page := 0, sector := 0, count := 1, mode := 1, logical := 0, wseq := 1, tenant := 1024, data := [] }
def fe0 : FEntry := { mode := 1, sectors := 1, block := 0, page := 0, sector := 0, discarded := false, slc := false }
def fp0 : FProg := { id := 1, block := 0, page := 0, slc := false, stored := [], src := none, why := 0 }
def fbS : FBlock := { addr := 0, slc := true, next := 8, free := false }
def fbN : FBlock := { addr := 1, free := false }
/-- Flash with 2048 blocks. -/
def sFlash : State := { ((((r0.setReg 0x700003 1).setReg 0x700004 1).setReg 0x700005 8).setReg 0x700006 2048).setReg (pagedKey 0x7044 1) 4096 with flash := { targets := [0] } }
/-- Block 0 is the most worn one, with valid data. -/
def sWear : State := {
  ((sFlash.setReg 0x701001 1).setReg 0x702005 32) with
  flash := { targets := [0], blocks := [(0, { fbS with slc := false, erases := 33 })], stored := [fst0], map := [(0, fe0)] } }

/-- A state in which node 3 is reached through port 0, which is up. -/
def sNet : State := (r0.setReg 0x800101 3).setReg 0x805003 0
def hel0 : Hello := { node := 3, assigned := true, tray := 1, fabric := 0, port := 0, digest := [] }
def flit0 : Flit := { seq := 0, ack := 0, creditBuf := 0, credits := 0, fecOk := true, corrected := false, tagOk := true }
def rec3 : LinkRec := { origin := 3, tray := 1, seq := 1, digest := [], adj := [] }
def pkt0 : Packet := {
  dst := 0, src := 3, tenant := 1, system := false, kind := 0x20, hops := 0, cls := 3, roleRouted := false, epoch := 0, seq := 1, ack := 0, len := 0, tag := 0, target := 0 }
def mop0 : MemOp := { src := 3, dst := 0, tenant := 1, system := false, addr := 0, size := 8, op := 8, ty := 0, data := [1, 2, 3, 4, 5, 6, 7, 8], tag := 5 }
def oop0 : OpenOp := { op := { mop0 with src := 0, dst := 3 }, seq := 1 }
def sent0 : Sent := { dst := 3, cls := 3, kind := 0x20, seq := 1, tenant := 1, epoch := 0, role := false, interval := 9, bounces := 0, msg := .idxAck 1 2 true }
def sentOp : Sent := { sent0 with msg := .memOp oop0.op }
def chg0 : MapChange := { epoch := 1, eff := 100000, origin := 0, digest := 0, entries := [] }
def fm0 : FaultMsg := {
  subtype := 1, code := 9, sender := 3, case := 1, s := 0, node := 3, partKind := 0, partNo := 0, verdict := 0, reference := 0, epoch := 0, d := 0, detail := 0 }
def cs0 : Case := { num := 1, code := 9, s := 0, node := 3, partKind := 0, partNo := 0, role := 0, st := 0 }
def rsp0 : Respare := { tenant := 1, index := 2, shard := 0, z := 0, y := 0, staged := false, restore := false, x := none }
def log0 : LogReq := { req := 1, name := (0, 1), oldDst := 5, dst := 3, msg := .update ureq0, moved := none, answers := [], asked := false }
def bnc0 : Bounce := { src := 3, cls := 3, reason := 2, epoch := 0, tag := 0, seq := 1, redirect := 0 }
/-- Time 65,536 ticks after the start. -/
def sLate : State := r0.setReg 0x201002 65536

/-- A start whose slot A verifies. -/
def boot0 : BootIn := {
  strap := [], pufOk := true, slotAOk := some 1, slotBOk := none, mainOk := true, microOk := true, confOk := true, selfTestOk := true, release := 1, mrs := [], nonce := [],
  ddr := [], dimms := [], ddrRefused := [], flashTargets := [], ucie := [], inputMv := 48000, powerFailHigh := true }
def dreq0 : DapReq := {
  port := 0, format := 1, op := 4, whole := false, more := false, client := 0, res := 0, target := 0, num := 1, nonce := List.replicate 16 0, index := 0, sub := 0,
  offset := 0, value := [], tag := [] }
def dreq (op : Nat) : DapReq := { dreq0 with op := op, tag := Config.hmac [1] (dapBytes { dreq0 with op := op }) }
def sDap : State := { r0.setBlob 0xA00004 (List.replicate 16 0) with sec := { dapKey := some [1] } }
def sec0 : Securing := { nonce := [], endorse := [], attest := [], kem := [], quote := [], ct := [], witnessed := [] }
def krec0 : KeyRecord := { format := 1, tenant := 1, node := 0, res := 0, nonce := [], ct := [], wrapped := [], tag := [] }
/-- A node map with a witness for the counters in each of three other trays. -/
def sWit : State := {
  (((r0.setReg 0x800002 1).setReg 0x805003 0).setReg 0x805004 0).setReg 0x805005 0 with
  map := { entries := [me 1 0 1 0 3 0 0 5, me 1 0 2 0 4 0 0 5, me 1 0 3 0 5 0 0 5] } }
/-- The mailbox with one entry. -/
def sMail (kind : Byte) : State := {
  r0 with
  rings := [{ tenant := 1024, p := 1 }]
  mem := Memory.setAll [] (memKey 1024 256) [1, 0, 0, 0, 0, 0, 0, 0, kind] }

theorem sh0_ok : shingleOk sh0 0 1 0 1 0 1 = true := by
  have h : sh0.check = shingleCheck sh0 := (shingleCheck_check shBad _).symm
  unfold shingleOk; rw [h]; simp only [beq_self_eq_true, Bool.true_and]; decide +kernel

/-! ### The manual's worked examples -/

/-- The channel of the worked example of the number formats: 3.5, −1.75, 0.1875 in block 0 and 2.8, 2.7, −2.6, 0.1 in block 1. -/
def chan0 : List F32 :=
  [0x40600000, 0xBFE00000, 0x3E400000] ++ List.replicate 29 0 ++ [0x40333333, 0x402CCCCD, 0xC0266666, 0x3DCCCCCD] ++ List.replicate 28 0
/-- The bytes, records and exponent that the worked example of R92 to R105 writes. -/
theorem test_encodeChannel : (encodeChannel 2 48 1 0 chan0).1 = -9 ∧
    (encodeChannel 2 48 1 0 chan0).2.1.map (·.record) = [0x02020074, 0x02010154] ∧
    (encodeChannel 2 48 1 0 chan0).2.1.map (fun b => leBytes 2 b.header ++ b.payload.take 4) =
      [[0x00, 0x02, 0xB7, 0x01, 0, 0], [0x01, 0x12, 0x77, 0x73, 0x91, 0x04]] := by decide +kernel
/-- Its counters: 64 elements converted, one clipped in a block that stays narrow, one escape block. -/
theorem test_encodeChannel_counts : (encodeChannel 2 48 1 0 chan0).2.2.conv = 64 ∧ (encodeChannel 2 48 1 0 chan0).2.2.clip = 1 ∧
    (encodeChannel 2 48 1 0 chan0).2.2.escW = 1 := by decide +kernel
/-- What it decodes to: 2.625, −1.875, 0.375 and 2.7890625, 2.6953125, −2.6015625, 0.09375 (R94). -/
theorem test_decodeChannel : ((channelVals 2 64 (-9) (encodeChannel 2 48 1 0 chan0).2.1).1.take 3,
    ((channelVals 2 64 (-9) (encodeChannel 2 48 1 0 chan0).2.1).1.drop 32).take 4) =
      ([0x40280000, 0xBFF00000, 0x3EC00000], [0x40328000, 0x402C8000, 0xC0268000, 0x3DC00000]) := by decide +kernel
/-- The worked example of the tables: M = 64, 8-bit sub-codes, d = 16, D = 1,024 under the inner product (R127, R130), and 935 items (R120). -/
theorem test_build_costs : buildCycles 64 9 16 1024 = 9280 ∧ codebookCycles 64 1 16 = 19456 ∧ laneCycles 64 935 * 2 = 1870 := by decide +kernel
theorem test_capacity : fitsShingle 64 1 935 = true ∧ fitsShingle 64 1 936 = false := by decide +kernel
/-- Its score: σ = 2^−10, S = −3,840 and L = −5.0 give −0.8125 (R131). -/
theorem test_codeScore : codeScore { entries := List.replicate 64 [-60], sigma := 0x3A800000, offset := 0xC0A00000, sign := [], digest := 0 } (List.replicate 64 0) = 0xBF500000 := by
  decide +kernel
/-- The hanks of the worked example of Qa's ties. -/
def hk (shard level : Nat) (es : List (Nat × F32)) (boundary : Nat) : Hank := sealHank {
  hank0 with shard := shard, level := level, boundary := boundary, entries := es.map fun e => ⟨e.1, false, e.2, 0⟩ }
def seg0 : Hank := hk 0 0 [(0x12C40, 0xBF500000), (0xB777, 0xBF300000), (0xC001, 0xBF300000), (0xD0F2, 0xBF300000)] 0
def seg1 : Hank := hk 0 0 [(0x12C41, 0xBF500000), (0x12E07, 0xBF300000), (0x12E3A, 0xBF200000), (0x12E50, 0xBF000000)] 0
def peer1 : Hank := hk 1 2 [(0x2E010, 0xBF680000), (0x12C40, 0xBF500000), (0xB700, 0xBF300000), (0x2E011, 0xBF300000)] 0
/-- The die ply keeps four, with a boundary count of 2 (R177, R181). -/
theorem test_diePly : (ply q0 0 1 0 4 [seg0, seg1]).1.entries.map (·.id) = [0x12C40, 0x12C41, 0xB777, 0xC001] ∧
    (ply q0 0 1 0 4 [seg0, seg1]).1.boundary = 2 := by decide +kernel
/-- The fabric ply over both shards: five ties beyond k and one duplicate (R177, R183). -/
theorem test_fabricPly : (ply q0 0 3 0 4 [(ply q0 0 1 0 4 [seg0, seg1]).1, peer1]).1.entries.map (·.id) = [0x2E010, 0x12C40, 0x12C41, 0xB700] ∧
    (ply q0 0 3 0 4 [(ply q0 0 1 0 4 [seg0, seg1]).1, peer1]).1.boundary = 5 ∧
    (ply q0 0 3 0 4 [(ply q0 0 1 0 4 [seg0, seg1]).1, peer1]).2.eq = 1 := by decide +kernel
/-- R525: the worked reading of a code-8 board, 135 and 136, lies in its window of 131 to 140, and 130 in none. -/
theorem test_strap : strapCode 135 = some 8 ∧ strapCode 136 = some 8 ∧ strapCode 130 = none := by decide +kernel

/-! ### Single steps -/

/-- On an empty queue the block idles (entry 1). -/
theorem test_idle : step r0 = .next r0 := rfl
/-- The commands have no words. -/
theorem test_no_words : decodeTableWord 32 0 = none ∧ r0.withFetchWord 32 0 = r0 := ⟨rfl, rfl⟩
/-- A step runs the front command and leaves the rest: the first of two locates is done (R527). -/
theorem test_front_first : (match step { r0 with pending := [.locate 1, .locate 0] } with
    | .next t => t.reg 0xD20025 == 1 && t.pending == [.locate 0]
    | _ => false) = true := by decide +kernel
/-- R38: a period below 125 ns is refused and counted in 0xE010:0D. -/
theorem test_periodChange_refused : (match exec (.periodChange 124 256) r0 with
    | .next t => t.cnt 0xE0100D == 1 && t.reg 0x200002 == r0.reg 0x200002
    | _ => false) = true := by decide +kernel

/-! ### An ill-formed term is refused by each check -/

theorem test_refuses_node : Instr.wf (.periodChangeAck 4096) = false := by decide +kernel
theorem test_refuses_tenant : Instr.wf (.tenantCreate 1024) = false := by decide +kernel
theorem test_refuses_owner : Instr.wf (.pageMove 1025 0 none 0) = false := by decide +kernel
theorem test_refuses_spindle : Instr.wf (.zeroingDone 384) = false := by decide +kernel
theorem test_refuses_context : Instr.wf (.elementItem 0 ⟨8, ⟨0, false, 0⟩, []⟩) = false := by decide +kernel
theorem test_refuses_shingle_slot : Instr.wf (.shingleArrival 0 4 sh0) = false := by decide +kernel
theorem test_refuses_die : Instr.wf (.readSlotFree 2 0) = false := by decide +kernel
theorem test_refuses_u16 : Instr.wf (.mirrorAck 3 1 65536 ⟨0, 0⟩) = false := by decide +kernel
theorem test_refuses_u32 : Instr.wf (.caseOpen (2 ^ 32)) = false := by decide +kernel
theorem test_refuses_u64 : Instr.wf (.frameOverrun (2 ^ 64)) = false := by decide +kernel
theorem test_refuses_ring_seq : Instr.wf (.mailboxRead 0 false) = false := by decide +kernel
theorem test_refuses_job : Instr.wf (.gatherItem 2048 ⟨0, ⟨0, false, 0⟩⟩) = false := by decide +kernel
theorem test_refuses_port : Instr.wf (.pcsLock 16) = false := by decide +kernel
theorem test_refuses_class : Instr.wf (.ackDelay 3 4) = false := by decide +kernel
theorem test_refuses_module : Instr.wf (.ucieModuleRetrain 4 ⟨true, false⟩) = false := by decide +kernel
theorem test_refuses_window : Instr.wf (.windowOpen 4) = false := by decide +kernel
theorem test_refuses_stage : Instr.wf (.stageDeadline 5 q0 0) = false := by decide +kernel
theorem test_refuses_address : Instr.wf (.discard 1 (2 ^ 48) 1) = false := by decide +kernel
theorem test_refuses_item : Instr.wf (.rerankReadDone ⟨q0, 0, 2 ^ 48, false, 0⟩ ⟨false, ⟨[], false, 0⟩, 0⟩) = false := by decide +kernel
theorem test_refuses_sensor : Instr.wf (.sensorSilent 34) = false := by decide +kernel
theorem test_refuses_query_name : Instr.wf (.stopDecision { q0 with home := 4096 }) = false := by decide +kernel
theorem test_refuses_hank : Instr.wf (.hankArrival { hank0 with level := 4 } 0 3) = false := by decide +kernel
theorem test_refuses_mem_op : Instr.wf (.store { mop0 with size := 12 }) = false := by decide +kernel
theorem test_refuses_packet : Instr.wf (.packet { pkt0 with cls := 4 } none) = false := by decide +kernel
theorem test_refuses_fault_msg : Instr.wf (.faultReport { fm0 with subtype := 11 }) = false := by decide +kernel
theorem test_refuses_flit : Instr.wf (.flit 0 { flit0 with seq := 4096 }) = false := by decide +kernel
theorem test_refuses_write : Instr.wf (.registerWrite ⟨65536, 0, []⟩ false) = false := by decide +kernel
theorem test_refuses_dap : Instr.wf (.dapRead { dreq0 with port := 2 }) = false := by decide +kernel
theorem test_refuses_key_record : Instr.wf (.dapKeyRecord krec0) = false := by decide +kernel
theorem test_refuses_map_change : Instr.wf (.mapChange { chg0 with epoch := 2 ^ 32 }) = false := by decide +kernel
theorem test_refuses_row_image : Instr.wf (.rowLineArrival 0 0 { img0 with exp := 128 } false false false 0) = false := by decide +kernel
theorem test_refuses_boot : Instr.wf (.coldStart { boot0 with strap := [] }) = false := by decide +kernel
theorem test_refuses_compaction : Instr.wf (.elementItem 0 ⟨0, ⟨0, false, 0⟩, [⟨0, [65536], 0, 1⟩]⟩) = false := by decide +kernel
theorem test_refuses_host_flit : Instr.wf (.ucieFlit 0 true ⟨1, 4096, 0⟩) = false := by decide +kernel
theorem test_refuses_switch_count : Instr.wf (.rekey 0 sec0 ⟨[], 2 ^ 64⟩) = false := by decide +kernel
theorem test_accepts : Instr.wf (.hankArrival hank0 0 3) = true ∧ Instr.wf (.store mop0) = true ∧ Instr.wf (.packet pkt0 none) = true ∧ Instr.wf (.flit 15 flit0) = true := by decide +kernel

/-! ### Witnesses: the hypotheses of each statement can be met together -/

theorem wit_EveryCommandAnswers_1 : ∃ (s : State), s.pending = [] :=
  ⟨r0, by decide +kernel⟩

theorem wit_ResetLeavesDefaults_1 : ∃ (k : Nat), k ≠ 0x600004 ∧ k ≠ 0xD00001 ∧ k ≠ 0xD01001 :=
  ⟨0, by decide +kernel⟩

theorem wit_StepKeepsMemoryForm_1 : ∃ (s t : State), s.memOk = true ∧ step s = .next t :=
  ⟨r0, r0, by exact ⟨by decide +kernel, rfl⟩⟩

theorem wit_CountersOnlyGrow_1 : ∃ (i : Instr) (s t : State), (∀ b, i ≠ .coldStart b) ∧ (∀ b, i ≠ .holdUpEnd b) ∧ (∀ b, i ≠ .powerCycleCommand b) ∧ exec i s = .next t :=
  ⟨.frameOverrun 0, r0, r0, by refine ⟨?_, ?_, ?_, rfl⟩ <;> (intro _ h; cases h)⟩

theorem wit_TickRunsTheEdgeSteps_1 : ∃ (s : State) (x : TickIn), s.power = 2 :=
  ⟨r0, tk0, by decide +kernel⟩

theorem wit_TickRunsTheEdgeSteps_2 : ∃ (s : State) (x : TickIn), s.power ≠ 0 ∧ s.power ≠ 2 ∧ s.power ≠ 5 :=
  ⟨r0.setReg 0xD00001 3, tk0, by decide +kernel⟩

theorem wit_TickRunsTheEdgeSteps_3 : ∃ (s : State) (x : TickIn), s.power = 5 :=
  ⟨r0.setReg 0xD00001 5, tk0, by decide +kernel⟩

theorem wit_TickRunsTheEdgeSteps_4 : ∃ (s : State) (x : TickIn), s.power = 0 :=
  ⟨r0.setReg 0xD00001 0, tk0, by decide +kernel⟩

theorem wit_PeriodsAndDeadlines_1 : ∃ (s : State) (p sw : Nat), s.running = true ∧ s.time.change = none ∧ 125 ≤ p ∧ p ≤ 2000 ∧ s.ftick + 256 ≤ sw :=
  ⟨r0, 125, 256, by decide +kernel⟩

theorem wit_PeriodsAndDeadlines_2 : ∃ (s : State) (p sw : Nat), s.running = true ∧ (p < 125 ∨ 2000 < p ∨ sw < s.ftick + 256 ∨ s.time.change ≠ none) :=
  ⟨r0, 124, 256, by decide +kernel⟩

theorem wit_PeriodsAndDeadlines_3 : ∃ (s : State) (src p sw : Nat), s.running = true ∧ s.time.change = none ∧ s.ftick < sw :=
  ⟨r0, 3, 500, 1, by decide +kernel⟩

theorem wit_PeriodsAndDeadlines_4 : ∃ (s : State) (src : Nat) (c : PeriodChange), s.running = true ∧ s.time.change = some c ∧ src ∈ c.peers ∧ src ∉ c.acks :=
  ⟨{ r0 with time := { change := some pc0 } }, 3, pc0, by decide +kernel⟩

theorem wit_PeriodsAndDeadlines_5 : ∃ (s : State) (c : PeriodChange), s.running = true ∧ s.time.change = some c :=
  ⟨{ r0 with time := { change := some pc0 } }, pc0, by decide +kernel⟩

theorem wit_PeriodsAndDeadlines_6 : ∃ (s : State) (k : Nat), s.running = true ∧ s.overdue k = true ∧ k ∉ s.time.overrun :=
  ⟨{ r0.setReg 0x201002 100 with copy := [copy0] }, 1, by decide +kernel⟩

theorem wit_PeriodsAndDeadlines_7 : ∃ (s : State) (k : Nat), s.running = true ∧ k ∈ s.time.overrun :=
  ⟨{ r0 with time := { overrun := [1] } }, 1, by decide +kernel⟩

theorem wit_PeriodsAndDeadlines_8 : ∃ (s : State) (st cyc : Nat) (q : QName) (a : Access), s.running = true ∧ s.tier.accesses = [a] ∧ a.stage = st ∧ a.q = some q ∧ a.tier ≤ 2 :=
  ⟨{ r0 with tier := { accesses := [acc0] } }, 4, 10, q0, acc0, by decide +kernel⟩

theorem wit_AlignmentStateMoves_1 : ∃ (s : State), s.running = true ∧ s.reg 0x200104 = 2 ∧ 1 ≤ s.time.markerLost :=
  ⟨{ r0.setReg 0x200104 2 with time := { markerLost := 1 } }, by decide +kernel⟩

theorem wit_AlignmentStateMoves_2 : ∃ (s : State), s.running = true ∧ s.reg 0x200104 = 1 ∧ 16 ≤ s.time.lockCount ∧ s.time.joining = false :=
  ⟨{ r0.setReg 0x200104 1 with time := { lockCount := 16 } }, by decide +kernel⟩

theorem wit_AlignmentStateMoves_3 : ∃ (s : State), s.running = true ∧ s.reg 0x200104 = 1 ∧ s.reg 0x200107 ≤ s.time.acquire :=
  ⟨{ r0.setReg 0x200104 1 with time := { acquire := 4096 } }, by decide +kernel⟩

theorem wit_AlignmentStateMoves_4 : ∃ (s : State) (err : Nat), s.running = true ∧ s.reg 0x200104 = 3 ∧ (64 < s.reg 0x200105 ∨ 1000 < err) :=
  ⟨r0.setReg 0x200104 3, 1001, by decide +kernel⟩

theorem wit_AlignmentStateMoves_5 : ∃ (s : State), s.running = true ∧ s.linkUp = false ∧ s.reg 0x200104 = 1 :=
  ⟨r0.setReg 0x200104 1, by decide +kernel⟩

theorem wit_AlignmentStateMoves_6 : ∃ (s : State) (v : Nat), s.running = true ∧ v ≠ 1 :=
  ⟨r0, 0, by decide +kernel⟩

theorem wit_AlignmentStateMoves_7 : ∃ (s : State) (m : Marker), s.running = true ∧ s.linkUp = true ∧ s.reg 0x200101 = s.node ∧ s.reg 0x200104 = 2 :=
  ⟨(r0.setReg 0x800101 3).setReg 0x200104 2, mk0, by decide +kernel⟩

theorem wit_DeliveriesReachTheSpindle_1 : ∃ (s : State) (sp slot : Nat) (sh : Shingle) (it : Item) (x : Idx) (h : Thatch), s.running = true ∧ sp < 384 ∧ slot < 4 ∧ (s.sp sp).zeroing = false ∧ arrivalItem s (s.sp sp) ((lk (s.sp sp).shslots slot).getD {}) sh.num = some it ∧ (it.stolen && s.ctl.copies.any fun c => c.dst == sp) = false ∧ s.findIdx it.tenant it.index = some x ∧ thatchOf x it.shard it.version = some h ∧ shingleOk sh it.shingle it.version h.im.cbset h.im.m h.im.shape h.im.d = true :=
  ⟨{ sIdx with spin := [(0, { shslots := [(0, { item := some it0 })] })] }, 0, 0, sh0, it0, idx0, th0, by exact ⟨by decide +kernel, by decide, by decide, by decide +kernel, by decide +kernel, rfl, by decide +kernel, by decide +kernel, sh0_ok⟩⟩

theorem wit_DeliveriesReachTheSpindle_2 : ∃ (s : State) (sp slot : Nat) (sh : Shingle) (it : Item) (x : Idx) (h : Thatch), s.running = true ∧ sp < 384 ∧ slot < 4 ∧ (s.sp sp).zeroing = false ∧ arrivalItem s (s.sp sp) ((lk (s.sp sp).shslots slot).getD {}) sh.num = some it ∧ (it.stolen && s.ctl.copies.any fun c => c.dst == sp) = false ∧ s.findIdx it.tenant it.index = some x ∧ thatchOf x it.shard it.version = some h ∧ shingleOk sh it.shingle it.version h.im.cbset h.im.m h.im.shape h.im.d = false ∧ ((lk (s.sp sp).shslots slot).getD {}).fails < s.reg 0x40100C :=
  ⟨{ sIdx with spin := [(0, { shslots := [(0, { item := some it0 })] })] }, 0, 0, { sh0 with num := 5 }, it0, idx0, th0, by exact ⟨by decide +kernel, by decide, by decide, by decide +kernel, by decide +kernel, rfl, by decide +kernel, by decide +kernel, shingleOk_num (by decide), by decide +kernel⟩⟩

theorem wit_DeliveriesReachTheSpindle_3 : ∃ (s : State) (sp slot : Nat) (sh : Shingle) (it : Item) (x : Idx) (h : Thatch), s.running = true ∧ sp < 384 ∧ slot < 4 ∧ (s.sp sp).zeroing = false ∧ arrivalItem s (s.sp sp) ((lk (s.sp sp).shslots slot).getD {}) sh.num = some it ∧ (it.stolen && s.ctl.copies.any fun c => c.dst == sp) = false ∧ s.findIdx it.tenant it.index = some x ∧ thatchOf x it.shard it.version = some h ∧ shingleOk sh it.shingle it.version h.im.cbset h.im.m h.im.shape h.im.d = false ∧ s.reg 0x40100C ≤ ((lk (s.sp sp).shslots slot).getD {}).fails :=
  ⟨{ sIdx.setReg 0x40100C 1 with spin := [(0, { shslots := [(0, { item := some it0, fails := 1 })] })] }, 0, 0, { sh0 with num := 5 }, it0, idx0, th0, by exact ⟨by decide +kernel, by decide, by decide, by decide +kernel, by decide +kernel, by decide +kernel, by decide +kernel, by decide +kernel, shingleOk_num (by decide), by decide +kernel⟩⟩

theorem wit_DeliveriesReachTheSpindle_4 : ∃ (s : State) (id ns : Nat) (b b' : Bool) (c st : Nat) (a : Access), s.running = true ∧ s.tier.accesses.find? (fun x => x.id == id) = some a ∧ a.tier = 2 ∧ a.ctx = none ∧ s.reg 0x602003 < ns ∧ s.readOk (.access id) = true :=
  ⟨{ r0 with tier := { accesses := [acc0] } }, 1, 1000000000, false, false, 0, 0, acc0, by decide +kernel⟩

theorem wit_DeliveriesReachTheSpindle_5 : ∃ (s : State) (id ns : Nat) (b b' : Bool) (co st sp c : Nat) (a : Access) (x : Ctx), s.running = true ∧ s.tier.accesses.find? (fun x => x.id == id) = some a ∧ a.tier = 2 ∧ a.ctx = some (sp, c) ∧ s.readOk (.access id) = true ∧ (s.sp sp).ctxs[c]? = some x ∧ x.st = 3 :=
  ⟨{ r0 with tier := { accesses := [{ acc0 with ctx := some (0, 1) }] }, spin := [(0, { ctxs := [{}, { st := 3, item := some it0 }] })] }, 1, 5, false, false, 0, 4, 0, 1, { acc0 with ctx := some (0, 1) }, { st := 3, item := some it0 }, by decide +kernel⟩

theorem wit_ItemsAreFetchedAndScored_1 : ∃ (s : State) (sp slot : Nat) (st : List StreamRead) (bad : List (Nat × Nat)) (stall : Nat) (y : ShSlot) (it : Item) (sh : Shingle)  (x : Idx) (h : Thatch) (view : Nat), s.running = true ∧ lk (s.sp sp).shslots slot = some y ∧ y.item = some it ∧ y.sh = some sh ∧ y.tomb = none ∧ s.findIdx it.tenant it.index = some x ∧ thatchOf x it.shard it.version = some h ∧ viewOf x it.skein = some view ∧ (∀ k ∈ maskSlots it.mask, ((slotOf (s.sp sp) k).q.bind fun q => s.findCopy q.1 q.2).all (fun c => (slotWord s c sh.ids k st bad).isSome) = true) :=
  ⟨{ sQ home0 { copy0 with par := { par0 with filterMode := 2 } } with spin := [(0, spQ none { st := 3, item := some it1, slot := 0, blocked := true })] }, 0, 0, [], [], 0, { item := some it1, sh := some shBad }, it1, shBad, idx0, th0, 0, by decide +kernel⟩

theorem wit_ItemsAreFetchedAndScored_2 : ∃ (s : State) (sp c : Nat) (ev : ItemEv) (x : Ctx) (it : Item) (y : ShSlot) (sh : Shingle) (tw : List Bool) (i : Idx) (h : Thatch), s.running = true ∧ c < 8 ∧ (s.sp sp).ctxs.getD c {} = x ∧ x.item = some it ∧ x.st = 2 ∧ it.kind = 0 ∧ lk (s.sp sp).shslots x.slot = some y ∧ y.sh = some sh ∧ y.tomb = some tw ∧ s.findIdx it.tenant it.index = some i ∧ thatchOf i it.shard it.version = some h ∧ (s.sp sp).zeroing = false ∧ ((maskSlots it.mask).any fun k => (slotOf (s.sp sp) k).q.isSome && (slotOf (s.sp sp) k).table.isNone) = false ∧ ev.bad = false :=
  ⟨{ sQ home0 copy0 with spin := [(0, spQ (some [false]) { st := 2, item := some it1, slot := 0 })] }, 0, 0, ⟨1, false, 3⟩, { st := 2, item := some it1, slot := 0 }, it1, { item := some it1, sh := some shBad, tomb := some [false] }, shBad, [false], idx0, th0, by decide +kernel⟩

theorem wit_ItemsAreFetchedAndScored_3 : ∃ (s : State) (sp c : Nat) (ev : ItemEv) (x : Ctx) (it : Item) (y : ShSlot) (sh : Shingle) (tw : List Bool) (i : Idx) (h : Thatch), s.running = true ∧ c < 8 ∧ (s.sp sp).ctxs.getD c {} = x ∧ x.item = some it ∧ x.st = 2 ∧ it.kind = 0 ∧ lk (s.sp sp).shslots x.slot = some y ∧ y.sh = some sh ∧ y.tomb = some tw ∧ s.findIdx it.tenant it.index = some i ∧ thatchOf i it.shard it.version = some h ∧ (s.sp sp).zeroing = false ∧ ((maskSlots it.mask).any fun k => (slotOf (s.sp sp) k).q.isSome && (slotOf (s.sp sp) k).table.isNone) = false ∧ ev.bad = true :=
  ⟨{ sQ home0 copy0 with spin := [(0, spQ (some [false]) { st := 2, item := some it1, slot := 0 })] }, 0, 0, ⟨0, true, 0⟩, { st := 2, item := some it1, slot := 0 }, it1, { item := some it1, sh := some shBad, tomb := some [false] }, shBad, [false], idx0, th0, by decide +kernel⟩

theorem wit_StealsCopiesAndZeroing_1 : ∃ (s : State) (n cyc : Nat), s.running = true ∧ s.maySteal n cyc = true ∧ (s.sp n).steal = none :=
  ⟨r0, 0, 5, by decide +kernel⟩

theorem wit_StealsCopiesAndZeroing_2 : ∃ (s : State) (n cyc : Nat), s.running = true ∧ s.maySteal n cyc = false :=
  ⟨{ r0 with spin := [(0, { queue := [it0] })] }, 0, 5, by decide +kernel⟩

theorem wit_StealsCopiesAndZeroing_3 : ∃ (s u : State) (n v cyc : Nat) (f : List (Nat × Nat)), s.running = true ∧ (s.sp n).steal = some v ∧ s.reg (if dieOf v == dieOf n then 0x301002 else 0x301003) ≤ (s.headTaken n v).stealable v ∧ s.spUp v = true ∧ (s.headTaken n v).grantItems v n ≠ [] ∧ (s.headTaken n v).copyTables 0 v n (maskSlots (itemsMask ((s.headTaken n v).grantItems v n))) = some (u, f) := by
  have h : ((sSteal2.headTaken 0 1).copyTables 0 1 0 (maskSlots (itemsMask ((sSteal2.headTaken 0 1).grantItems 1 0)))).isSome = true := by decide +kernel
  obtain ⟨⟨u, f⟩, hu⟩ := Option.isSome_iff_exists.mp h
  exact ⟨sSteal2, u, 0, 1, 5, f, by decide +kernel, by decide +kernel, by decide +kernel, by decide +kernel, by decide +kernel, hu⟩

theorem wit_StealsCopiesAndZeroing_4 : ∃ (s : State) (n v cyc : Nat), s.running = true ∧ (s.sp n).steal = some v ∧ (s.headTaken n v).stealable v < s.reg (if dieOf v == dieOf n then 0x301002 else 0x301003) :=
  ⟨{ r0 with spin := [(0, { steal := some 1 }), (1, { queue := [it0] })] }, 0, 1, 5, by decide +kernel⟩

theorem wit_StealsCopiesAndZeroing_5 : ∃ (s : State) (c : TCopy), s.running = true ∧ s.ctl.copies.find? (fun x => x.id == c.id) = some c ∧ prepared (s.sp c.dst) (s.ownerOf 0 0) = true :=
  ⟨{ r0 with ctl := { copies := [⟨7, 1, 0, 1, [], 64⟩] }, spin := [(1, { bobOwner := some ⟨1, 0, 0⟩ })] }, ⟨7, 1, 0, 1, [], 64⟩, by decide +kernel⟩

theorem wit_StealsCopiesAndZeroing_6 : ∃ (s u : State) (it : Item) (qs : List (QName × Nat)) (ns : Nat), s.running = true ∧ s.ctl.redeal = [(it, qs, ns)] ∧ it.kind = 0 ∧ State.redealItem { s with ctl := { s.ctl with redeal := [] } } it qs = some u := by
  have h : (State.redealItem { r0 with ctl := { r0.ctl with redeal := [] } } it0 []).isSome = true := by decide +kernel
  obtain ⟨u, hu⟩ := Option.isSome_iff_exists.mp h
  exact ⟨{ r0 with ctl := { r0.ctl with redeal := [(it0, [], 0)] } }, u, it0, [], 0, by decide +kernel, rfl, rfl, hu⟩

theorem wit_StealsCopiesAndZeroing_7 : ∃ (s : State) (n : Nat), s.running = true ∧ (s.sp n).zeroing = true :=
  ⟨{ r0 with spin := [(0, { zeroing := true })] }, 0, by decide +kernel⟩

theorem wit_StealsCopiesAndZeroing_8 : ∃ (s : State) (n : Nat), s.running = true ∧ (s.sp n).zeroing = false :=
  ⟨r0, 0, by decide +kernel⟩

theorem wit_StealsCopiesAndZeroing_9 : ∃ (s : State) (n : Nat), s.running = true ∧ (s.sp n).roleZero = true ∧ (∀ c ∈ (s.sp n).ctxs, c.item = none) ∧ (s.sp n).hsets = [] ∧ (∀ i ∈ (s.sp n).queue, i.role = nodeRole s.map.entries s.node) :=
  ⟨{ r0 with spin := [(0, { roleZero := true })] }, 0, by decide +kernel⟩

theorem wit_ChecksOfSampledItems_1 : ∃ (s : State) (k : Check) (d : W64), s.running = true ∧ s.ctl.checks.find? (fun x => x.id == k.id) = some k ∧ k.d1 = some d ∧ k.d2 = some d ∧ k.out = 0 ∧ k.third = none :=
  ⟨{ r0 with ctl := { checks := [chk0] } }, chk0, 5, by decide +kernel⟩

theorem wit_ChecksOfSampledItems_2 : ∃ (s u : State) (k : Check) (d e : W64) (n : Nat), s.running = true ∧ s.ctl.checks.find? (fun x => x.id == k.id) = some k ∧ k.d1 = some d ∧ k.d2 = some e ∧ d ≠ e ∧ k.out = 0 ∧ k.third = none ∧ s.thirdOf k.first k.checker = some n ∧ s.placeCopy k.first n k.item k.queries = some u := by
  have h : (State.placeCopy { r0 with ctl := { checks := [{ chk0 with d2 := some 6 }] } } 0 96 it0 []).isSome = true := by decide +kernel
  obtain ⟨u, hu⟩ := Option.isSome_iff_exists.mp h
  exact ⟨{ r0 with ctl := { checks := [{ chk0 with d2 := some 6 }] } }, u, { chk0 with d2 := some 6 }, 5, 6, 96, by decide +kernel, by decide +kernel, rfl, rfl, by decide, rfl, rfl, by decide +kernel, hu⟩

theorem wit_ChecksOfSampledItems_3 : ∃ (s : State) (k : Check) (d e : W64), s.running = true ∧ s.ctl.checks.find? (fun x => x.id == k.id) = some k ∧ k.d1 = some d ∧ k.d2 = some e ∧ d ≠ e ∧ k.out = 0 ∧ k.third = none ∧ s.thirdOf k.first k.checker = none :=
  ⟨{ (List.range 384).foldl (fun s n => s.setReg (perSpindle 0x3001 0x3002 n) 2) r0 with ctl := { checks := [{ chk0 with d2 := some 6 }] } }, { chk0 with d2 := some 6 }, 5, 6, by decide +kernel⟩

theorem wit_ChecksOfSampledItems_4 : ∃ (s : State) (k : Check) (n : Nat) (d e : W64), s.running = true ∧ s.ctl.checks.find? (fun x => x.id == k.id) = some k ∧ k.third = some n ∧ k.d1 = some d ∧ k.d2 = some e ∧ k.d3 = some d ∧ k.out = 0 :=
  ⟨{ r0 with ctl := { checks := [{ chk0 with d2 := some 6, third := some 96, d3 := some 5 }] } }, { chk0 with d2 := some 6, third := some 96, d3 := some 5 }, 96, 5, 6, by decide +kernel⟩

theorem wit_ChecksOfSampledItems_5 : ∃ (s : State) (k : Check) (n : Nat) (d e : W64), s.running = true ∧ s.ctl.checks.find? (fun x => x.id == k.id) = some k ∧ k.third = some n ∧ k.d1 = some d ∧ k.d2 = some e ∧ d ≠ e ∧ k.d3 = some e ∧ k.out = 0 :=
  ⟨{ r0 with ctl := { checks := [{ chk0 with d2 := some 6, third := some 96, d3 := some 6 }] } }, { chk0 with d2 := some 6, third := some 96, d3 := some 6 }, 96, 5, 6, by decide +kernel⟩

theorem wit_ChecksOfSampledItems_6 : ∃ (s : State) (k : Check) (n : Nat) (d e g : W64), s.running = true ∧ s.ctl.checks.find? (fun x => x.id == k.id) = some k ∧ k.third = some n ∧ k.d1 = some d ∧ k.d2 = some e ∧ k.d3 = some g ∧ g ≠ d ∧ g ≠ e ∧ k.out = 0 :=
  ⟨{ r0 with ctl := { checks := [{ chk0 with d2 := some 6, third := some 96, d3 := some 7 }] } }, { chk0 with d2 := some 6, third := some 96, d3 := some 7 }, 96, 5, 6, 7, by decide +kernel⟩

theorem wit_PassesAndDispatches_1 : ∃ (s : State) (k t i b : Nat), s.running = true ∧ s.reg 0x40100A ≤ (((s.heldQueries k t i).map (·.name)).eraseDups).length ∧ s.mayBuild b = true ∧ (s.copy.any fun c => c.phase == 0 && c.par.tenant == t && c.par.index == i && c.name.skein < k) = false ∧ (s.passTake (s.heldQueries k t i)).length ≤ (freeSlots ((s.prepareSp b (s.ownerOf t 0)).sp b)).length :=
  ⟨{ r0.setReg 0x40100A 1 with copy := [copy0] }, 1, 1, 2, 0, by decide +kernel⟩

theorem wit_PassesAndDispatches_2 : ∃ (s : State) (k t i b : Nat), s.running = true ∧ s.heldQueries k t i ≠ [] ∧ s.mayBuild b = true ∧ (s.copy.any fun c => c.phase == 0 && c.par.tenant == t && c.par.index == i && c.name.skein < k) = false ∧ (s.passTake (s.heldQueries k t i)).length ≤ (freeSlots ((s.prepareSp b (s.ownerOf t 0)).sp b)).length :=
  ⟨{ r0 with copy := [copy0] }, 1, 1, 2, 383, by decide +kernel⟩

theorem wit_PassesAndDispatches_3 : ∃ (s : State) (p : Pass), s.running = true ∧ s.passes.find? (fun x => x.id == p.id) = some p ∧ p.built = false ∧ prepared (s.sp p.builder) (s.ownerOf p.tenant 0) = true :=
  ⟨{ r0 with passes := [⟨4, 1, 1, 2, 0, [], false⟩], spin := [(0, { bobOwner := some ⟨1, 0, 0⟩ })] }, ⟨4, 1, 1, 2, 0, [], false⟩, by decide +kernel⟩

theorem wit_PassesAndDispatches_4 : ∃ (s : State) (p : Pass) (q : QName) (sh slot : Nat) (c : CopyQ) (h : Thatch) (T : Table) (n : NumCnt), s.running = true ∧ s.passes.find? (fun x => x.id == p.id) = some p ∧ p.built = false ∧ prepared (s.sp p.builder) (s.ownerOf p.tenant 0) = true ∧ p.queries = [(q, sh, slot)] ∧ s.findCopy q sh = some c ∧ s.copyThatch c = some h ∧ (c.par.metric != shapeMetric h.im.shape || c.par.dim != h.im.dim || c.par.sign != field h.im.shape 2 1) = false ∧ s.builtTable c = none ∧ buildTable h.im.codebook h.im.m h.im.shape h.im.d c.vec = (.table T, n) := by
  have h : (match (buildTable im0.codebook 1 0 1 [0, 0, 0, 0]).1 with | .table _ => true | .refused _ => false) = true := by decide +kernel
  rcases hb : buildTable im0.codebook 1 0 1 [0, 0, 0, 0] with ⟨b, n⟩
  rw [hb] at h
  cases b with
  | refused _ => simp at h
  | table T => exact ⟨sPass false none, pass1 false, q0, 0, 0, { copy0 with phase := 1 }, th0, T, n, by decide +kernel, by decide +kernel, rfl, by decide +kernel, rfl, by decide +kernel, by decide +kernel, by decide +kernel, by decide +kernel, hb⟩

theorem wit_PassesAndDispatches_5 : ∃ (s : State) (p : Pass) (plan : List Place) (wrong : List (Nat × List Shingle)), s.running = true ∧ s.passes.find? (fun x => x.id == p.id) = some p ∧ p.built = true :=
  ⟨{ r0 with passes := [⟨4, 1, 1, 2, 0, [], true⟩] }, ⟨4, 1, 1, 2, 0, [], true⟩, [], [], by decide +kernel⟩

theorem wit_PassesAndDispatches_6 : ∃ (s : State) (p : Pass) (wrong : List (Nat × List Shingle)) (c : CopyQ) (h : Thatch) (T : Table) (slot : Nat), s.running = true ∧ s.passes.find? (fun x => x.id == p.id) = some p ∧ p.built = true ∧ s.passRuns p = [(c, h, T, slot)] :=
  ⟨sPass true (some tab1), pass1 true, [], { copy0 with phase := 1, table := some tab1 }, th0, tab1, 0, by decide +kernel⟩

theorem wit_PassesAndDispatches_7 : ∃ (s : State) (q : QName) (h : HomeQ), s.running = true ∧ s.findHome q = some h ∧ h.phase = 1 ∧ h.refusal = 0 ∧ (∀ g ∈ s.home, g.name.skein = q.skein → g.phase = 1 → g.refusal = 0 → q.qidx ≤ g.name.qidx) ∧ s.poisoned h.par.tenant h.vecAddr (h.par.dim * vecWidth h.vecFmt) = false ∧ s.ownedStacks h.par.tenant h.vecAddr (h.par.dim * vecWidth h.vecFmt) = true :=
  ⟨{ sPage with home := [home0] }, q0, home0, by decide +kernel⟩

theorem wit_PassesAndDispatches_8 : ∃ (s : State) (d : Dispatch) (x : Idx) (h : Thatch), s.running = true ∧ s.bindingDiffers d.par.tenant s.node = false ∧ (d.name.home = s.node → (s.findHome d.name).isSome = true) ∧ s.findCopy d.name d.shard = none ∧ s.findIdx d.par.tenant d.par.index = some x ∧ viewGone x d.name.skein = false ∧ liveAt x d.shard d.name.skein = some h :=
  ⟨sIdx, { name := q9, shard := 0, par := par0, vec := [0, 0, 0, 0], epoch := 0 }, idx0, th0, by decide +kernel⟩

theorem wit_PassesAndDispatches_9 : ∃ (s : State) (t f i p : Nat) (m : Bitmap) (w : Nat), s.running = true ∧ (s.filters.any fun x => x.tenant == t && x.handle == f && x.start == p) = false :=
  ⟨r0, 1, 1, 2, 3, ⟨0, 0, 0, []⟩, 1, by decide +kernel⟩

theorem wit_PassesAndDispatches_10 : ∃ (s : State) (t f i p w : Nat), s.running = true ∧ (s.filters.any fun x => x.tenant == t && x.handle == f && x.start == p) = false :=
  ⟨{ r0 with filters := [{ tenant := 1, handle := 2, index := 3, map := ⟨0, 0, 0, []⟩, start := 0, stop := none }] }, 1, 2, 3, 4, 0, by decide +kernel⟩

theorem wit_WideningIsDecided_1 : ∃ (s : State) (r : StepRep) (h : HomeQ), s.running = true ∧ r.name.home = s.node ∧ s.findHome r.name = some h ∧ (h.copies.any fun c => c.1 == r.shard) = true ∧ (h.reports.any fun x => x.shard == r.shard && x.step == r.step) = false :=
  ⟨{ r0 with home := [{ home0 with phase := 2, copies := [(0, 0)] }] }, ⟨q0, 0, 0, 0, 1⟩, { home0 with phase := 2, copies := [(0, 0)] }, by decide +kernel⟩

theorem wit_WideningIsDecided_2 : ∃ (s : State) (q : QName), s.running = true :=
  ⟨r0, q0, by decide +kernel⟩

theorem wit_WideningIsDecided_3 : ∃ (s : State) (c : CopyQ) (h : Thatch), s.running = true ∧ s.copy.filter (fun x => x.name == c.name) = [c] ∧ c.phase = 3 ∧ c.stop = false ∧ c.left = 0 ∧ canWiden c.par = true ∧ s.copyThatch c = some h :=
  ⟨sQ home0 { copy0 with phase := 3, par := { par0 with filterMode := 1, widen := true } }, { copy0 with phase := 3, par := { par0 with filterMode := 1, widen := true } }, th0, by decide +kernel⟩

theorem wit_PliesMerge_1 : ∃ (s : State) (h : Hank) (die src : Nat) (q : HomeQ), s.running = true ∧ h.level = 2 ∧ s.findHome h.name = some q ∧ h.res = 0 ∧ (q.copies.any fun c => c.1 == h.shard) = true ∧ h.digest = hankDigest h ∧ (q.hanks.find? fun x => x.shard == h.shard && x.pass == h.pass) = none :=
  ⟨{ r0 with home := [{ home0 with phase := 2, copies := [(0, 0)] }] }, hank0, 0, 3, { home0 with phase := 2, copies := [(0, 0)] }, by decide +kernel⟩

theorem wit_PliesMerge_2 : ∃ (s : State) (h g : Hank) (die src : Nat) (q : HomeQ), s.running = true ∧ h.level = 2 ∧ s.findHome h.name = some q ∧ h.res = 0 ∧ (q.copies.any fun c => c.1 == h.shard) = true ∧ h.digest = hankDigest h ∧ (q.hanks.find? fun x => x.shard == h.shard && x.pass == h.pass) = some g ∧ g.digest = h.digest :=
  ⟨{ r0 with home := [{ home0 with phase := 2, copies := [(0, 0)], hanks := [hank0] }] }, hank0, hank0, 0, 3, { home0 with phase := 2, copies := [(0, 0)], hanks := [hank0] }, by decide +kernel⟩

theorem wit_PliesMerge_3 : ∃ (s : State) (h : Hank) (die src : Nat) (q : HomeQ), s.running = true ∧ h.level = 2 ∧ s.findHome h.name = some q ∧ h.digest ≠ hankDigest h ∧ src ≠ s.node ∧ (h.shard, h.pass) ∉ q.asked :=
  ⟨{ r0 with home := [home0] }, { hank0 with digest := hank0.digest + 1 }, 0, 3, home0, by decide +kernel⟩

theorem wit_PliesMerge_4 : ∃ (s : State) (c : CopyQ) (die : Nat), s.running = true ∧ s.findCopy c.name c.shard = some c ∧ s.dieComplete die c = true ∧ s.olderCopy c.name.skein (s.dieComplete die) = false :=
  ⟨sQ home0 { copy0 with phase := 3, dealt := [(0, 1)], segs := [(0, 0, hank0)] }, { copy0 with phase := 3, dealt := [(0, 1)], segs := [(0, 0, hank0)] }, 0, by decide +kernel⟩

theorem wit_PliesMerge_5 : ∃ (s : State) (c : CopyQ) (late : Bool), s.running = true ∧ s.findCopy c.name c.shard = some c ∧ moduleReady c = true ∧ s.olderCopy c.name.skein moduleReady = false ∧ c.dieHanks ≠ [] ∧ c.stop = false :=
  ⟨sQ home0 { copy0 with phase := 3, dieHanks := [(0, hank0)] }, { copy0 with phase := 3, dieHanks := [(0, hank0)] }, false, by decide +kernel⟩

theorem wit_PliesMerge_6 : ∃ (s : State) (c : CopyQ) (late : Bool), s.running = true ∧ s.findCopy c.name c.shard = some c ∧ moduleReady c = true ∧ s.olderCopy c.name.skein moduleReady = false ∧ c.stop = true ∧ c.pass = passCount (keepCount c.par) ∧ c.name.home ≠ s.node :=
  ⟨{ r0 with copy := [{ copy0 with name := q9, phase := 3, stop := true, dieHanks := [(0, hank0)] }] }, { copy0 with name := q9, phase := 3, stop := true, dieHanks := [(0, hank0)] }, false, by decide +kernel⟩

theorem wit_PliesMerge_7 : ∃ (s : State) (q : QName) (h : HomeQ) (late : Bool), s.running = true ∧ s.findHome q = some h ∧ h.name = q ∧ s.fabricReady h = true ∧ s.olderHome q.skein s.fabricReady = false ∧ fabricInputs h ≠ [] :=
  ⟨{ r0.setReg 0x201002 2 with home := [{ home0 with phase := 2, stopped := true, copies := [(0, 0)], hanks := [hank0] }] }, q0, { home0 with phase := 2, stopped := true, copies := [(0, 0)], hanks := [hank0] }, false, by decide +kernel⟩

theorem wit_PliesMerge_8 : ∃ (s : State) (src p : Nat) (c : CopyQ) (h : Hank), s.running = true ∧ s.findCopy c.name c.shard = some c ∧ c.sent = some h :=
  ⟨{ r0 with copy := [{ copy0 with sent := some hank0 }] }, 3, 1, { copy0 with sent := some hank0 }, hank0, by decide +kernel⟩

theorem wit_CandidatesAndResults_1 : ∃ (s : State) (q : QName) (h : HomeQ), s.running = true ∧ s.findHome q = some h ∧ h.name = q ∧ s.rerankReady h = true ∧ s.olderHome q.skein s.rerankReady = false :=
  ⟨{ r0.setReg 0x201002 3 with home := [{ home0 with phase := 3, par := { par0 with r := 1 } }] }, q0, { home0 with phase := 3, par := { par0 with r := 1 } }, by decide +kernel⟩

theorem wit_CandidatesAndResults_2 : ∃ (s : State) (c : Cand) (x : CopyQ) (h : Thatch) (a : Nat), s.running = true ∧ s.findCopy c.name c.shard = some x ∧ c ∉ s.rerank.reads ∧ s.copyThatch x = some h ∧ candAddr h c = some a :=
  ⟨{ r0 with idx := [{ idx0 with thatches := [{ th0 with im := imR }] }], copy := [copy0] }, cand0, copy0, { th0 with im := imR }, 0, by decide +kernel⟩

theorem wit_CandidatesAndResults_3 : ∃ (s : State) (c : Cand) (sp : Nat) (inp : StreamIn) (x : CopyQ) (h : Thatch) (bs : List Byte) (g : HomeQ), s.running = true ∧ s.findCopy c.name c.shard = some x ∧ s.copyThatch x = some h ∧ c ∈ s.rerank.reads ∧ s.readOk (.rerank c) = true ∧ s.spUp sp = true ∧ h.im.rr ≠ 5 ∧ s.candBytes h x.par.tenant c = some bs ∧ c.name.home = s.node ∧ s.findHome c.name = some g ∧ g.phase = 4 ∧ (g.sent.any fun y => y.shard == c.shard && y.id == c.id) = true ∧ (g.scores.any fun y => y.shard == c.shard && y.id == c.id) = false := by
  have h : (sCand.candBytes { th0 with im := imR } 1 cand0).isSome = true := by decide +kernel
  obtain ⟨bs, h⟩ := Option.isSome_iff_exists.mp h
  exact ⟨sCand, cand0, 0, ⟨[], false, 0⟩, copy0, { th0 with im := imR }, bs, { home0 with phase := 4, sent := [cand0] }, by decide +kernel, by decide +kernel, by decide +kernel, by decide +kernel, by decide +kernel, by decide +kernel, by decide, h, by decide +kernel, by decide +kernel, rfl, by decide +kernel, by decide +kernel⟩

theorem wit_CandidatesAndResults_4 : ∃ (s : State) (c : Cand) (sp : Nat) (inp : StreamIn) (x : CopyQ) (h : Thatch), s.running = true ∧ s.findCopy c.name c.shard = some x ∧ s.copyThatch x = some h ∧ c ∈ s.rerank.reads ∧ s.readOk (.rerank c) = true ∧ s.spUp sp = true ∧ c.name.home ≠ s.node :=
  ⟨{ sIdx with copy := [{ copy0 with name := q9 }], rerank := { reads := [{ cand0 with name := q9 }] } }, { cand0 with name := q9 }, 0, ⟨[], false, 0⟩, { copy0 with name := q9 }, th0, by decide +kernel⟩

theorem wit_CandidatesAndResults_5 : ∃ (s : State) (a : CandScore) (h : HomeQ) (v : F32), s.running = true ∧ a.name.home = s.node ∧ s.findHome a.name = some h ∧ h.phase = 4 ∧ (h.sent.any fun c => c.shard == a.shard && c.id == a.id) = true ∧ (h.scores.any fun x => x.shard == a.shard && x.id == a.id) = false ∧ a.score = some v :=
  ⟨{ r0 with home := [{ home0 with phase := 4, sent := [cand0] }] }, ⟨q0, 0, 7, some 1, false⟩, { home0 with phase := 4, sent := [cand0] }, 1, by decide +kernel⟩

theorem wit_CandidatesAndResults_6 : ∃ (s : State) (a : CandScore) (h : HomeQ), s.running = true ∧ a.name.home = s.node ∧ s.findHome a.name = some h ∧ h.phase = 4 ∧ (h.sent.any fun c => c.shard == a.shard && c.id == a.id) = true ∧ (h.scores.any fun x => x.shard == a.shard && x.id == a.id) = false ∧ a.score = none :=
  ⟨{ r0 with home := [{ home0 with phase := 4, sent := [cand0] }] }, ⟨q0, 0, 7, none, true⟩, { home0 with phase := 4, sent := [cand0] }, by decide +kernel⟩

theorem wit_CandidatesAndResults_7 : ∃ (s : State) (q : QName) (h : HomeQ) (late : Bool), s.running = true ∧ s.findHome q = some h ∧ h.name = q ∧ s.rankReady h = true ∧ s.olderHome q.skein s.rankReady = false :=
  ⟨{ r0.setReg 0x201002 4 with home := [{ home0 with phase := 4, sent := [cand0], scores := [⟨q0, 0, 7, some 1, false⟩] }] }, q0, { home0 with phase := 4, sent := [cand0], scores := [⟨q0, 0, 7, some 1, false⟩] }, false, by decide +kernel⟩

theorem wit_CandidatesAndResults_8 : ∃ (s : State) (q : QName) (h : HomeQ), s.running = true ∧ s.memOk = true ∧ s.findHome q = some h ∧ h.name = q ∧ s.deliverable h = true ∧ s.olderHome q.skein s.deliverable = false ∧ s.ownedStacks h.par.tenant h.resAddr (64 + 16 * h.par.k) = true ∧ (s.sec.tenants.any fun r => r.tenant == h.par.tenant && r.down) = false ∧ (let a := s.complAddr h.par.tenant (s.ring h.par.tenant).nextJ; h.resAddr + (64 + 16 * h.par.k) ≤ a ∨ a + 128 ≤ h.resAddr) :=
  ⟨{ sPage.setReg 0x201002 3 with home := [{ home0 with phase := 3, merged := some hank0 }] }, q0, { home0 with phase := 3, merged := some hank0 }, by decide +kernel⟩

theorem wit_CandidatesAndResults_9 : ∃ (s : State) (q : QName) (h : HomeQ), s.running = true ∧ s.findHome q = some h ∧ h.name = q ∧ s.deliverable h = true ∧ s.olderHome q.skein s.deliverable = false ∧ (s.sec.tenants.any fun r => r.tenant == h.par.tenant && r.down) = false :=
  ⟨{ sPage.setReg 0x201002 3 with home := [{ home0 with phase := 3, merged := some hank0 }] }, q0, { home0 with phase := 3, merged := some hank0 }, by decide +kernel⟩

theorem wit_IndexesAndUpdates_1 : ∃ (s u : State) (src home : Nat) (d : IdxDesc), s.running = true ∧ s.bindingDiffers d.tenant s.node = false ∧ s.findIdx d.tenant d.index = none ∧ s.takeIndex d home = some u := by
  have h : (r0.takeIndex desc0 3).isSome = true := by decide +kernel
  obtain ⟨u, hu⟩ := Option.isSome_iff_exists.mp h
  exact ⟨r0, u, 3, 3, desc0, rfl, by decide +kernel, rfl, hu⟩

theorem wit_IndexesAndUpdates_2 : ∃ (s : State) (src home : Nat) (d : IdxDesc), s.running = true ∧ s.bindingDiffers d.tenant s.node = false ∧ s.findIdx d.tenant d.index = none ∧ s.takeIndex d home = none :=
  ⟨r0.setReg 0x404001 0, 3, 3, desc0, by decide +kernel⟩

theorem wit_IndexesAndUpdates_3 : ∃ (s : State) (src home : Nat) (d : IdxDesc) (x : Idx), s.running = true ∧ s.bindingDiffers d.tenant s.node = false ∧ s.findIdx d.tenant d.index = some x :=
  ⟨sIdx, 3, 3, desc0, idx0, by decide +kernel⟩

theorem wit_IndexesAndUpdates_4 : ∃ (s : State) (src : Nat) (w : RegWait), s.running = true ∧ s.regWait.find? (fun x => x.tenant == w.tenant && x.index == w.index) = some w ∧ src ∈ w.nodes ∧ src ∉ w.yes ∧ src ∉ w.no ∧ (∃ n ∈ w.nodes, n ≠ src ∧ n ∉ w.yes ∧ n ∉ w.no) :=
  ⟨{ r0 with regWait := [rw0] }, 3, rw0, by decide +kernel⟩

theorem wit_IndexesAndUpdates_5 : ∃ (s : State) (src : Nat) (w : RegWait), s.running = true ∧ s.regWait.find? (fun x => x.tenant == w.tenant && x.index == w.index) = some w ∧ src ∈ w.nodes ∧ src ∉ w.yes ∧ w.no = [] ∧ (∀ n ∈ w.nodes, n = src ∨ n ∈ w.yes) ∧ (s.sec.tenants.any fun r => r.tenant == w.tenant && r.down) = false :=
  ⟨{ r0 with regWait := [{ rw0 with yes := [5] }] }, 3, { rw0 with yes := [5] }, by decide +kernel⟩

theorem wit_IndexesAndUpdates_6 : ∃ (s : State) (src : Nat) (w : RegWait) (x : Idx), s.running = true ∧ s.findIdx w.tenant w.index = some x ∧ x.home = s.node ∧ s.regWait.find? (fun x => x.tenant == w.tenant && x.index == w.index) = some w ∧ src ∈ w.nodes ∧ src ∉ w.yes ∧ src ∉ w.no ∧ (∀ n ∈ w.nodes, n = src ∨ n ∈ w.yes ∨ n ∈ w.no) :=
  ⟨{ sIdx with regWait := [{ rw0 with no := [5] }] }, 3, { rw0 with no := [5] }, idx0, by decide +kernel⟩

theorem wit_IndexesAndUpdates_7 : ∃ (s : State) (u : UpdHome) (e : MapEntry), s.running = true ∧ s.upd.find? (fun x => x.tenant == u.tenant && x.seq == u.seq) = some u ∧ u.sent = false ∧ u.op = 1 ∧ s.poisoned u.tenant u.addr (u.dim * vecWidth u.fmt) = false ∧ s.ownedStacks u.tenant u.addr (u.dim * vecWidth u.fmt) = true ∧ idxService s.map.entries u.tenant u.index = some e ∧ e.a ≠ s.node :=
  ⟨{ sPage with map := { entries := othMap }, upd := [upd0] }, upd0, me 3 1 2 0 3 0 0xFFFF 0, by decide +kernel⟩

theorem wit_IndexesAndUpdates_8 : ∃ (s : State) (u : UpdHome), s.running = true ∧ s.upd.find? (fun x => x.tenant == u.tenant && x.seq == u.seq) = some u ∧ u.sent = false ∧ u.op = 1 ∧ (s.sec.tenants.any fun r => r.tenant == u.tenant && r.down) = false :=
  ⟨{ sPage with upd := [upd0] }, upd0, by decide +kernel⟩

theorem wit_IndexesAndUpdates_9 : ∃ (s : State) (u : UpdReq) (x : Idx), s.running = true ∧ s.bindingDiffers u.tenant s.node = false ∧ s.findIdx u.tenant u.index = some x ∧ s.isSequencer u.tenant u.index = true ∧ x.seqr.resume = none ∧ u.op ≠ 1 :=
  ⟨sSeq, ureq0, idx0, by decide +kernel⟩

theorem wit_IndexesAndUpdates_10 : ∃ (s : State) (u : UpdReq) (x : Idx) (l : ThatchPars), s.running = true ∧ s.bindingDiffers u.tenant s.node = false ∧ s.findIdx u.tenant u.index = some x ∧ s.isSequencer u.tenant u.index = true ∧ x.seqr.resume = none ∧ u.op = 1 ∧ liveParsOf x = some l ∧ (∀ p ∈ l :: x.seqr.succ.toList, ∃ d, (encodePart x.desc p u.vec).1 = some d ∧ ∀ sh ∈ partShards p d, sentItems x.seqr p.version sh < x.desc.deltaLimit * capacity x.desc.m x.desc.shape) :=
  ⟨{ sSeq with idx := [idxL] }, { ureq0 with op := 1, vec := [0, 0, 0, 0] }, idxL, imagePars im0, by refine ⟨by decide +kernel, by decide +kernel, by decide +kernel, by decide +kernel, rfl, rfl, rfl, fun p hp => ?_⟩; cases List.mem_singleton.mp hp; exact any_wit (by decide +kernel)⟩

theorem wit_IndexesAndUpdates_11 : ∃ (s : State) (u : UpdReq) (x : Idx) (l : ThatchPars), s.running = true ∧ s.bindingDiffers u.tenant s.node = false ∧ s.findIdx u.tenant u.index = some x ∧ s.isSequencer u.tenant u.index = true ∧ x.seqr.resume = none ∧ u.op = 1 ∧ liveParsOf x = some l ∧ (encodePart x.desc l u.vec).1 = none ∧ u.home ≠ s.node :=
  ⟨{ sSeq with idx := [idxL] }, { ureq0 with op := 1, home := 3, vec := [0x7FC00000, 0, 0, 0] }, idxL, imagePars im0, by decide +kernel⟩

theorem wit_IndexesAndUpdates_12 : ∃ (s : State) (src : Nat) (r : DeltaRec) (x : Idx) (e : MapEntry), s.running = true ∧ s.bindingDiffers r.tenant s.node = false ∧ s.findIdx r.tenant r.index = some x ∧ isCopy x = false ∧ (heldRecords x).any (fun y => y.seq == r.seq) = false ∧ idxService s.map.entries r.tenant r.index = some e ∧ s.node ∈ logHolders s.map.entries r.tenant r.index :=
  ⟨{ sOth with idx := [{ idx0 with thatches := [] }] }, 3, rec0, { idx0 with thatches := [] }, me 3 1 2 0 3 0 0xFFFF 0, by decide +kernel⟩

theorem wit_IndexesAndUpdates_13 : ∃ (s : State) (src : Nat) (r : DeltaRec) (x : Idx), s.running = true ∧ s.bindingDiffers r.tenant s.node = false ∧ s.findIdx r.tenant r.index = some x ∧ isCopy x = true ∧ x.pendSeals = [] ∧ (heldRecords x).any (fun y => y.seq == r.seq) = false :=
  ⟨sSeq, 3, rec0, idx0, by decide +kernel⟩

theorem wit_IndexesAndUpdates_14 : ∃ (s : State) (src q : Nat) (x : Idx), s.running = true ∧ s.findIdx x.desc.tenant x.desc.index = some x ∧ src ∈ logHolders s.map.entries x.desc.tenant x.desc.index ∧ s.isSequencer x.desc.tenant x.desc.index = true :=
  ⟨sSeq, 3, 1, idx0, by decide +kernel⟩

theorem wit_SealsAndLogsArrive_1 : ∃ (s : State) (r : SealRec) (cs rf : List (Nat × Nat)) (w : Nat) (x : Idx), s.running = true ∧ s.bindingDiffers r.tenant s.node = false ∧ s.findIdx r.tenant r.index = some x ∧ isCopy x = false ∧ x.build = none ∧ s.reg (pagedKey 0x4048 x.slot) % 4 ≠ 0 ∧ (x.seals.any fun y => y.tick == r.tick) = false ∧ (x.pendSeals.any fun y => y.tick == r.tick) = false :=
  ⟨{ r0.setReg (pagedKey 0x4048 0) 1 with idx := [{ idx0 with thatches := [] }] }, seal0, [], [], 1, { idx0 with thatches := [] }, by decide +kernel⟩

theorem wit_SealsAndLogsArrive_2 : ∃ (s : State) (r : SealRec) (w : Nat) (x : Idx), s.running = true ∧ s.bindingDiffers r.tenant s.node = false ∧ s.findIdx r.tenant r.index = some x ∧ isCopy x = true ∧ x.pendSeals = [] ∧ (x.seals.any fun y => y.tick == r.tick) = false ∧ (recordsIn (heldRecords x) (x.applied + 1) r.sealed).length = r.sealed - x.applied ∧ x.applied ≤ r.sealed ∧ recordsDigest x.desc.shape (recordsIn (heldRecords x) r.first r.sealed) = r.digest :=
  ⟨sIdx, { seal0 with sealed := 0, digest := recordsDigest 0 [] }, 1, idx0, by decide +kernel⟩

theorem wit_SealsAndLogsArrive_3 : ∃ (s : State) (r : SealRec) (q d : Nat) (u : UpdHome), s.running = true ∧ s.bindingDiffers r.tenant s.node = false ∧ s.findIdx r.tenant r.index = none ∧ s.upd.find? (fun y => y.tenant == r.tenant && y.index == r.index && y.seq == q) = some u ∧ (s.sec.tenants.any fun y => y.tenant == r.tenant && y.down) = false :=
  ⟨{ r0 with upd := [upd0] }, seal0, 1, 1, upd0, by decide +kernel⟩

theorem wit_SealsAndLogsArrive_4 : ∃ (s : State) (src a b : Nat) (x : Idx), s.running = true ∧ s.bindingDiffers x.desc.tenant s.node = false ∧ s.findIdx x.desc.tenant x.desc.index = some x ∧ s.counts x.desc.tenant src = true :=
  ⟨sSeq, 3, 1, 2, idx0, by decide +kernel⟩

theorem wit_SealsAndLogsArrive_5 : ∃ (s : State) (x : Idx) (rs : List DeltaRec) (ss : List SealRec), s.running = true ∧ s.bindingDiffers x.desc.tenant s.node = false ∧ s.findIdx x.desc.tenant x.desc.index = some x ∧ isCopy x = false ∧ x.seqr.resume = none ∧ s.fault.respares = [] :=
  ⟨{ r0 with idx := [{ idx0 with thatches := [] }] }, { idx0 with thatches := [] }, [rec0], [seal0], by decide +kernel⟩

theorem wit_BuildsAndImages_1 : ∃ (s : State) (b : BuildReq) (x : Idx), s.running = true ∧ s.bindingDiffers b.tenant s.node = false ∧ s.findIdx b.tenant b.index = some x ∧ s.isSequencer b.tenant b.index = false ∧ x.build = none :=
  ⟨sOth, breq0, idx0, by decide +kernel⟩

theorem wit_BuildsAndImages_2 : ∃ (s : State) (b : BuildReq) (x : Idx), s.running = true ∧ s.bindingDiffers b.tenant s.node = false ∧ s.findIdx b.tenant b.index = some x ∧ s.isSequencer b.tenant b.index = true ∧ x.build = none :=
  ⟨sSeq, breq0, idx0, by decide +kernel⟩

theorem wit_BuildsAndImages_3 : ∃ (s u : State) (x : Idx) (b : Build) (sh : Nat) (as : List (Nat × Nat)) (ex : List (Nat × List Byte × Nat)) (inp : List (Nat × StreamIn))  (os : List (Nat × Nat)) (im : Image) (e : MapEntry), s.running = true ∧ s.findIdx x.desc.tenant x.desc.index = some x ∧ x.build = some b ∧ b.started = true ∧ sh ∈ s.copy0 x.desc.tenant x.desc.index ∧ (b.sent.any fun y => y.1 == sh) = false ∧ (s.ctl.lendWait.any fun w => w.1 == x.slot) = false ∧ (x.thatches.filter (·.st == 1)).all (fun h => s.vectorsWritten h b.fold as) = true ∧ (s.zeroLent x.slot x.desc.tenant).buildImage x b sh ((minOf ((s.ctl.lent.filter fun l => l.1 == x.slot).map (·.2.1))).getD 0) as ex inp os = (u, some im) ∧ idxShard s.map.entries x.desc.tenant x.desc.index sh = some e ∧ e.b ≠ 0xFFFF ∧ e.b ≠ s.node ∧ s.counts x.desc.tenant e.b = true := by
  have h : ((({ sSeq with idx := [{ idxL with build := some b0 }] }.zeroLent 0 1).buildImage { idxL with build := some b0 } b0 0 0 [] [] [] []).2).isSome = true := by decide +kernel
  obtain ⟨im, hu⟩ := Option.isSome_iff_exists.mp h
  exact ⟨{ sSeq with idx := [{ idxL with build := some b0 }] }, _, { idxL with build := some b0 }, b0, 0, [], [], [], [], im, me 4 1 2 0 0 3 0xFFFF 0, by decide +kernel, by decide +kernel, rfl, rfl, by decide +kernel, rfl, rfl, by decide +kernel, Prod.ext rfl hu, by decide +kernel, by decide, by decide +kernel, by decide +kernel⟩

theorem wit_BuildsAndImages_4 : ∃ (s : State) (src : Nat) (im : Image) (x : Idx) (e : MapEntry), s.running = true ∧ s.bindingDiffers im.tenant s.node = false ∧ s.findIdx im.tenant im.index = some x ∧ s.fault.respares = [] ∧ s.liveVersion x ≠ 0 ∧ im.version = nextVersion (s.liveVersion x) ∧ imageOk x (s.liveVersion x) im = true ∧ im.digest = Config.sha256 (imageBody im) ∧ (x.thatches.any fun h => h.im.shard == im.shard && h.im.version == im.version) = false ∧ s.windowIn 6 = false ∧ idxShard s.map.entries im.tenant im.index im.shard = some e ∧ (e.a = s.node ∨ e.b = s.node) ∧ s.canTake im.tenant false (cdiv (imageLen im + tombLen im + deltaLen im x.desc.deltaLimit + vecsLen im x.desc.deltaLimit) pageSize) = true :=
  ⟨((({ sSeq with idx := [idxL] }.setReg (pagedKey 0x4042 0) 1).setReg (pagedKey 0x6040 1) 64).setReg (pagedKey 0x6044 1) 64), 3, { im0 with version := 2, digest := Config.sha256 (imageBody { im0 with version := 2 }) }, idxL, me 4 1 2 0 0 3 0xFFFF 0, by refine ⟨?_, ?_, ?_, ?_, ?_, ?_, ?_, rfl, ?_, ?_, ?_, ?_, ?_⟩ <;> decide +kernel⟩

theorem wit_BuildsAndImages_5 : ∃ (s : State) (src : Nat) (im : Image) (x : Idx), s.running = true ∧ s.bindingDiffers im.tenant s.node = false ∧ s.findIdx im.tenant im.index = some x ∧ s.fault.respares = [] ∧ s.liveVersion x ≠ 0 ∧ im.digest ≠ Config.sha256 (imageBody im) ∧ (x.imgFails.any fun y => y.1 == im.shard) = false :=
  ⟨sIdx.setReg (pagedKey 0x4042 0) 1, 3, { im0 with digest := 0 :: Config.sha256 (imageBody im0) }, idx0, by exact ⟨by decide +kernel, by decide +kernel, rfl, by decide +kernel, by decide +kernel, List.cons_ne_self _ _, rfl⟩⟩

theorem wit_BuildsAndImages_6 : ∃ (s : State) (src : Nat) (im : Image) (x : Idx), s.running = true ∧ s.bindingDiffers im.tenant s.node = false ∧ s.findIdx im.tenant im.index = some x ∧ s.fault.respares = [] ∧ s.liveVersion x ≠ 0 ∧ im.digest ≠ Config.sha256 (imageBody im) ∧ (x.imgFails.any fun y => y.1 == im.shard) = true :=
  ⟨{ r0 with idx := [{ idx0 with imgFails := [(0, 3)] }] }.setReg (pagedKey 0x4042 0) 1, 3, { im0 with digest := 0 :: Config.sha256 (imageBody im0) }, { idx0 with imgFails := [(0, 3)] }, by exact ⟨by decide +kernel, by decide +kernel, rfl, by decide +kernel, by decide +kernel, List.cons_ne_self _ _, rfl⟩⟩

theorem wit_BuildsAndImages_7 : ∃ (s : State) (src sh : Nat) (x : Idx) (h : Thatch), s.running = true ∧ s.findIdx x.desc.tenant x.desc.index = some x ∧ (x.thatches.filter fun h => h.im.shard == sh).getLast? = some h ∧ s.counts x.desc.tenant src = true :=
  ⟨sSeq, 3, 0, idx0, th0, by decide +kernel⟩

theorem wit_BuildsAndImages_8 : ∃ (s : State) (src sh : Nat) (x : Idx) (im : Image), s.running = true ∧ s.findIdx x.desc.tenant x.desc.index = some x ∧ (x.thatches.filter fun h => h.im.shard == sh) = [] ∧ (x.held.filter fun y => y.shard == sh).getLast? = some im ∧ s.counts x.desc.tenant src = true :=
  ⟨{ sSeq with idx := [{ idx0 with thatches := [], held := [im0] }] }, 3, 0, { idx0 with thatches := [], held := [im0] }, im0, by decide +kernel⟩

theorem wit_PublishesAreDecided_1 : ∃ (s : State) (x : Idx) (b : Build) (rs : List (Nat × Nat)), s.running = true ∧ s.findIdx x.desc.tenant x.desc.index = some x ∧ x.build = some b ∧ s.isSequencer x.desc.tenant x.desc.index = true ∧ b.p = none ∧ s.isStaged x { b with staged := b.staged ++ rs.filter fun r => !b.staged.contains r } = true ∧ s.ftick < max b.req.publish (s.ftick + s.reg 0x404006) :=
  ⟨{ sSeq with idx := [{ idx0 with build := some bS }] }, { idx0 with build := some bS }, bS, [], by decide +kernel⟩

theorem wit_PublishesAreDecided_2 : ∃ (s : State) (x : Idx) (b : Build) (rs : List (Nat × Nat)), s.running = true ∧ s.findIdx x.desc.tenant x.desc.index = some x ∧ x.build = some b ∧ s.isSequencer x.desc.tenant x.desc.index = true ∧ b.p = none ∧ s.isStaged x { b with staged := b.staged ++ rs.filter fun r => !b.staged.contains r } = false :=
  ⟨{ sSeq with idx := [{ idx0 with build := some b0 }] }, { idx0 with build := some b0 }, b0, [(0, 0)], by decide +kernel⟩

theorem wit_PublishesAreDecided_3 : ∃ (s : State) (src p v : Nat) (x : Idx), s.running = true ∧ s.findIdx x.desc.tenant x.desc.index = some x ∧ s.ftick < p :=
  ⟨sIdx, 3, 1, 2, idx0, by decide +kernel⟩

theorem wit_PublishesAreDecided_4 : ∃ (s : State) (src p v : Nat) (x : Idx), s.running = true ∧ s.findIdx x.desc.tenant x.desc.index = some x ∧ p ≤ s.ftick :=
  ⟨sIdx, 3, 0, 2, idx0, by decide +kernel⟩

theorem wit_PublishesAreDecided_5 : ∃ (s : State) (src p v st : Nat) (x : Idx), s.running = true ∧ s.findIdx x.desc.tenant x.desc.index = some x ∧ st ≠ 0 ∧ st ≠ 0x0202 ∧ s.building x = true :=
  ⟨{ r0 with idx := [{ idx0 with build := some b0 }] }, 3, 0, 1, 0x0206, { idx0 with build := some b0 }, by decide +kernel⟩

theorem wit_PublishesAreDecided_6 : ∃ (s : State) (src sh n : Nat) (x : Idx) (b : Build), s.running = true ∧ s.findIdx x.desc.tenant x.desc.index = some x ∧ x.build = some b :=
  ⟨{ sSeq with idx := [{ idx0 with build := some b0 }] }, 3, 0, 1, { idx0 with build := some b0 }, b0, by decide +kernel⟩

theorem wit_PublishesAreDecided_7 : ∃ (s : State) (x : Idx) (b : Build) (p : Nat), s.running = true ∧ s.findIdx x.desc.tenant x.desc.index = some x ∧ x.build = some b ∧ b.p = some p ∧ s.isSequencer x.desc.tenant x.desc.index = true ∧ p ≤ s.ftick + s.reg 0x404007 ∧ s.ftick < p ∧ (s.publishNodes x b.req.home).all (fun n => b.acks.contains n) = false :=
  ⟨{ sSeq with idx := [idxP] }, idxP, bP, 1, by decide +kernel⟩

theorem wit_DenseItemsRun_1 : ∃ (s : State) (j : DJob) (y : Layer) (bad : Bool), s.running = true ∧ s.djob j.slot = some j ∧ j.done = false ∧ j.due = false ∧ j.left = [] ∧ s.checksDone j.slot = true ∧ j.started = false ∧ j.status = 0 ∧ j.first ≤ j.last ∧ s.layerOfJob j j.first = some y :=
  ⟨sDense dj0 { ly0 with op := 2 }, dj0, { ly0 with op := 2 }, false, by decide +kernel⟩

theorem wit_DenseItemsRun_2 : ∃ (s : State) (j : DJob) (y : Layer) (bad : Bool), s.running = true ∧ s.djob j.slot = some j ∧ j.done = false ∧ j.due = false ∧ j.left = [] ∧ s.checksDone j.slot = true ∧ j.started = true ∧ j.conv1 = true ∧ j.status = 0 ∧ j.layer ≤ j.last ∧ s.layerOfJob j j.layer = some y ∧ (y.op ≠ 1 ∨ y.tier ≠ 1 ∨ j.layer ∈ j.staged) :=
  ⟨sDense { dj0 with started := true, conv1 := true, staged := [0] } ly0, { dj0 with started := true, conv1 := true, staged := [0] }, ly0, false, by decide +kernel⟩

theorem wit_DenseItemsRun_3 : ∃ (s : State) (j : DJob) (y : Layer) (bad : Bool), s.running = true ∧ s.djob j.slot = some j ∧ j.done = false ∧ j.due = false ∧ j.left = [] ∧ s.checksDone j.slot = true ∧ j.started = true ∧ j.conv1 = true ∧ j.status = 0 ∧ j.layer ≤ j.last ∧ s.layerOfJob j j.layer = some y ∧ y.op = 1 ∧ y.tier = 1 ∧ j.layer ∉ j.staged :=
  ⟨sDense { dj0 with started := true, conv1 := true } ly0, { dj0 with started := true, conv1 := true }, ly0, false, by decide +kernel⟩

theorem wit_DenseItemsRun_4 : ∃ (s : State) (j : DJob) (y : Layer) (bad : Bool), s.running = true ∧ s.djob j.slot = some j ∧ j.done = false ∧ j.due = false ∧ j.left = [] ∧ s.checksDone j.slot = true ∧ j.started = true ∧ j.conv1 = false ∧ j.status = 0 ∧ j.layer < j.last ∧ s.layerOfJob j (j.layer + 1) = some y :=
  ⟨{ r0 with dense := { models := [{ mdlD ly0 with layers := [ly0, ly0] }], jobs := [{ dj0 with last := 1, started := true, area := [(0, [])], staged := [0] }] } }, { dj0 with last := 1, started := true, area := [(0, [])], staged := [0] }, ly0, false, by decide +kernel⟩

theorem wit_DenseItemsRun_5 : ∃ (s : State) (j : DJob) (bad : Bool), s.running = true ∧ s.djob j.slot = some j ∧ j.done = false ∧ j.due = false ∧ j.left = [] ∧ s.checksDone j.slot = true ∧ (s.modelOf j).isSome = true ∧ (j.status ≠ 0 ∨ (j.started = true ∧ j.conv1 = false ∧ j.last ≤ j.layer)) :=
  ⟨sDense { dj0 with started := true, staged := [0] } ly0, { dj0 with started := true, staged := [0] }, false, by decide +kernel⟩

theorem wit_DenseItemsRun_6 : ∃ (s : State) (j : DJob) (y : Layer) (l late : Nat) (pages : List Nat), s.running = true ∧ s.djob j.slot = some j ∧ s.layerOfJob j l = some y ∧ lk j.area l = some pages ∧ j.done = false ∧ l ∉ j.staged ∧ (j.area.any fun x => x.1 < l && !j.staged.contains x.1) = false ∧ s.readOk (.stage j.slot l) = true ∧ (j.due = false ∨ j.layer ≠ l) :=
  ⟨sDense { dj0 with area := [(0, [2 ^ 27])] } ly0, { dj0 with area := [(0, [2 ^ 27])] }, ly0, 0, 1, [2 ^ 27], by decide +kernel⟩

theorem wit_DenseItemsRun_7 : ∃ (s : State) (j : DJob) (y : Layer) (late : Nat) (pages : List Nat), s.running = true ∧ s.djob j.slot = some j ∧ s.layerOfJob j j.layer = some y ∧ lk j.area j.layer = some pages ∧ j.done = false ∧ j.layer ∉ j.staged ∧ (j.area.any fun x => x.1 < j.layer && !j.staged.contains x.1) = false ∧ s.readOk (.stage j.slot j.layer) = true ∧ j.due = true :=
  ⟨sDense { dj0 with area := [(0, [2 ^ 27])], started := true, conv1 := true, due := true } ly0, { dj0 with area := [(0, [2 ^ 27])], started := true, conv1 := true, due := true }, ly0, 5, [2 ^ 27], by decide +kernel⟩

theorem wit_DenseItemsRun_8 : ∃ (s : State) (sp c : Nat) (ev : ItemEv) (it : Item) (j : DJob) (y : Layer), s.running = true ∧ s.runningDense sp c = some (it, j, y) ∧ it.check = false ∧ y.op = 1 ∧ 2 ^ 19 ≤ it.shingle % 2 ^ 20 ∧ ev.bad = false ∧ (y.inBuf = 0 → s.inputBad j 0 (it.shingle % 2 ^ 19) y.l = false) :=
  ⟨sRun (itD 524288) ly0, 0, 0, ⟨1, false, 3⟩, itD 524288, dj0, ly0, by decide +kernel⟩

theorem wit_DenseItemsRun_9 : ∃ (s : State) (sp c : Nat) (bad : Bool) (ev : ItemEv) (it : Item) (j : DJob) (y : Layer), s.running = true ∧ s.runningDense sp c = some (it, j, y) ∧ it.check = false ∧ y.op = 1 ∧ 2 ^ 19 ≤ it.shingle % 2 ^ 20 ∧ ev.bad = false ∧ y.inBuf = 0 ∧ (bad || s.inputBad j 0 (it.shingle % 2 ^ 19) y.l) = true :=
  ⟨sRun (itD 524288) { ly0 with inBuf := 0 }, 0, 0, true, ⟨0, false, 0⟩, itD 524288, dj0, { ly0 with inBuf := 0 }, by decide +kernel⟩

theorem wit_DenseItemsRun_10 : ∃ (s : State) (sp c : Nat) (ev : ItemEv) (cs : List Compaction) (it : Item) (j : DJob) (y : Layer), s.running = true ∧ s.runningDense sp c = some (it, j, y) ∧ it.check = false ∧ y.op ≠ 1 ∧ ev.bad = false ∧ ((layerReads y).any fun b => s.inputBad j b (it.shingle % 2 ^ 20) y.l) = false :=
  ⟨sRun (itD 0) { ly0 with op := 2, in2 := 1 }, 0, 0, ⟨0, false, 0⟩, [⟨1, [0x3F800000, 0x40000000], 0x3F000000, 1⟩], itD 0, dj0, { ly0 with op := 2, in2 := 1 }, by decide +kernel⟩

theorem wit_DenseItemsRun_11 : ∃ (s : State) (sp c : Nat) (ev : ItemEv) (cs : List Compaction) (it : Item) (j : DJob) (y : Layer), s.running = true ∧ s.runningDense sp c = some (it, j, y) ∧ it.check = false ∧ y.op ≠ 1 ∧ ev.bad = false ∧ ((layerReads y).any fun b => s.inputBad j b (it.shingle % 2 ^ 20) y.l) = true :=
  ⟨sRun (itD 0) { ly0 with op := 4, inBuf := 0 }, 0, 0, ⟨0, false, 0⟩, [], itD 0, dj0, { ly0 with op := 4, inBuf := 0 }, by decide +kernel⟩

theorem wit_DenseItemsRun_12 : ∃ (s : State) (sp c stall : Nat) (wrong : List (Nat × Block)) (endBad : Bool) (ev : ItemEv) (it : Item) (j : DJob) (y : Layer), s.running = true ∧ s.runningDense sp c = some (it, j, y) ∧ y.op = 1 ∧ it.shingle % 2 ^ 20 < 2 ^ 19 ∧ y.tier = 1 ∧ y.param ≠ 0 ∧ ((s.sp sp).ctxs.getD c {}).loaded = false :=
  ⟨sRun (itD 0) { ly0 with param := 64 }, 0, 0, 3, [], false, ⟨0, false, 0⟩, itD 0, dj0, { ly0 with param := 64 }, by decide +kernel⟩

theorem wit_DenseItemsRun_13 : ∃ (s : State) (sp c stall r n : Nat) (wrong : List (Nat × Block)) (ev : ItemEv) (it : Item) (j : DJob) (y : Layer), s.running = true ∧ s.runningDense sp c = some (it, j, y) ∧ it.check = false ∧ y.op = 1 ∧ it.shingle % 2 ^ 20 < 2 ^ 19 ∧ r = 128 * (it.shingle % 2 ^ 20) ∧ n = min 128 (y.n - r) ∧ (y.param = 0 ∨ y.tier ≠ 1 ∨ ((s.sp sp).ctxs.getD c {}).loaded = true) ∧ ev.bad = false ∧ (blockScaled y.fmt = false ∨ ((s.tileBlocks sp c it j y r n wrong).zipIdx.all fun b => b.2 < s.tilePast sp c || paired y.fmt (tileTag y r b.2) b.1) = true) :=
  ⟨sRun (itD 0) { ly0 with fmt := 0 }, 0, 0, 3, 0, 1, [], ⟨0, false, 0⟩, itD 0, dj0, { ly0 with fmt := 0 }, by decide +kernel⟩

theorem wit_DenseItemsRun_14 : ∃ (s : State) (sp c stall r n k : Nat) (wrong : List (Nat × Block)) (endBad : Bool) (ev : ItemEv) (it : Item) (j : DJob) (y : Layer) (b : Block), s.running = true ∧ s.runningDense sp c = some (it, j, y) ∧ y.op = 1 ∧ it.shingle % 2 ^ 20 < 2 ^ 19 ∧ r = 128 * (it.shingle % 2 ^ 20) ∧ n = min 128 (y.n - r) ∧ (y.param = 0 ∨ y.tier ≠ 1 ∨ ((s.sp sp).ctxs.getD c {}).loaded = true) ∧ blockScaled y.fmt = true ∧ (s.tileBlocks sp c it j y r n wrong)[k]? = some b ∧ s.tilePast sp c ≤ k ∧ paired y.fmt (tileTag y r k) b = false ∧ (((s.tileBlocks sp c it j y r n wrong).take k).zipIdx.all fun b => b.2 < s.tilePast sp c || paired y.fmt (tileTag y r b.2) b.1) = true :=
  ⟨sRun (itD 0) { ly0 with fmt := 0, tagBase := 1 }, 0, 0, 3, 0, 1, 0, [(0, ⟨7, 0, []⟩)], false, ⟨0, false, 0⟩, itD 0, dj0, { ly0 with fmt := 0, tagBase := 1 }, ⟨7, 0, []⟩, by decide +kernel⟩

theorem wit_DenseItemsRun_15 : ∃ (s : State) (sp c stall r n : Nat) (wrong : List (Nat × Block)) (ev : ItemEv) (it : Item) (j : DJob) (y : Layer), s.running = true ∧ s.runningDense sp c = some (it, j, y) ∧ y.op = 1 ∧ it.shingle % 2 ^ 20 < 2 ^ 19 ∧ r = 128 * (it.shingle % 2 ^ 20) ∧ n = min 128 (y.n - r) ∧ (y.param = 0 ∨ y.tier ≠ 1 ∨ ((s.sp sp).ctxs.getD c {}).loaded = true) ∧ blockScaled y.fmt = true ∧ r + n = y.n ∧ s.tilePast sp c < (s.tileBlocks sp c it j y r n wrong).length ∧ ((s.tileBlocks sp c it j y r n wrong).zipIdx.all fun b => b.2 < s.tilePast sp c || paired y.fmt (tileTag y r b.2) b.1) = true :=
  ⟨sRun (itD 0) { ly0 with fmt := 0 }, 0, 0, 3, 0, 1, [], ⟨0, false, 0⟩, itD 0, dj0, { ly0 with fmt := 0 }, by decide +kernel⟩

theorem wit_DenseItemsRun_16 : ∃ (s : State) (sp c cyc stall : Nat) (b : Block) (m : Mismatch) (x : Ctx) (it : Item), s.running = true ∧ s.mismatchOf sp c = some m ∧ (s.sp sp).ctxs.getD c {} = x ∧ x.item = some it ∧ x.st = 3 ∧ paired m.fmt m.expected b = true :=
  ⟨sMis it0, 0, 0, 9, 2, ⟨0, 0, []⟩, ⟨0, 0, 0, 0, 0, 0, []⟩, { st := 3, item := some it0 }, it0, by decide +kernel⟩

theorem wit_DenseItemsRun_17 : ∃ (s : State) (sp c cyc stall : Nat) (b : Block) (m : Mismatch) (x : Ctx) (it : Item), s.running = true ∧ s.mismatchOf sp c = some m ∧ (s.sp sp).ctxs.getD c {} = x ∧ x.item = some it ∧ x.st = 3 ∧ paired m.fmt m.expected b = false ∧ m.refetches + 1 < s.reg 0x304004 :=
  ⟨sMis it0, 0, 0, 9, 2, ⟨1, 0, []⟩, ⟨0, 0, 0, 0, 0, 0, []⟩, { st := 3, item := some it0 }, it0, by decide +kernel⟩

theorem wit_DenseItemsRun_18 : ∃ (s : State) (sp c cyc stall : Nat) (b : Block) (m : Mismatch) (x : Ctx) (it : Item), s.running = true ∧ s.mismatchOf sp c = some m ∧ (s.sp sp).ctxs.getD c {} = x ∧ x.item = some it ∧ x.st = 3 ∧ paired m.fmt m.expected b = false ∧ s.reg 0x304004 ≤ m.refetches + 1 ∧ it.errors = 0 :=
  ⟨(sMis it0).setReg 0x304004 1, 0, 0, 9, 2, ⟨1, 0, []⟩, ⟨0, 0, 0, 0, 0, 0, []⟩, { st := 3, item := some it0 }, it0, by decide +kernel⟩

theorem wit_DenseItemsRun_19 : ∃ (s : State) (sp c cyc stall : Nat) (b : Block) (m : Mismatch) (x : Ctx) (it : Item) (j : DJob) (y : Layer), s.running = true ∧ s.mismatchOf sp c = some m ∧ (s.sp sp).ctxs.getD c {} = x ∧ x.item = some it ∧ x.st = 3 ∧ paired m.fmt m.expected b = false ∧ s.reg 0x304004 ≤ m.refetches + 1 ∧ it.errors ≠ 0 ∧ it.check = false ∧ s.djob it.mask = some j ∧ s.layerOfJob j (it.shingle / 2 ^ 20) = some y :=
  ⟨(sMis { itD 0 with errors := 1 }).setReg 0x304004 1, 0, 0, 9, 2, ⟨1, 0, []⟩, ⟨0, 0, 0, 0, 0, 0, []⟩, { st := 3, item := some { itD 0 with errors := 1 } }, { itD 0 with errors := 1 }, dj0, ly0, by decide +kernel⟩

theorem wit_StagesAndSwitches_1 : ∃ (s : State) (g : TStage) (x : Tab), s.running = true ∧ s.emb.stages.find? (fun y => y.tenant == g.tenant && y.table == g.table && y.shard == g.shard) = some g ∧ g.encoded = true ∧ g.mirrorOk = true ∧ s.tabHeld g.tenant g.table = some x ∧ s.coordOf g.tenant g.table = some s.node ∧ g.shard < shardCount x ∧ g.shard ∉ x.stagedShards ∧ (s.sec.tenants.any fun r => r.tenant == g.tenant && r.down) = false :=
  ⟨{ sTab with emb := { tabs := [tab0], stages := [stg0] } }, stg0, tab0, by decide +kernel⟩

theorem wit_StagesAndSwitches_2 : ∃ (s : State) (g : TStage) (c : Nat), s.running = true ∧ s.emb.stages.find? (fun y => y.tenant == g.tenant && y.table == g.table && y.shard == g.shard) = some g ∧ g.encoded = true ∧ g.mirrorOk = true ∧ s.coordOf g.tenant g.table = some c ∧ c ≠ s.node ∧ (s.sec.tenants.any fun r => r.tenant == g.tenant && r.down) = false :=
  ⟨{ sTabOth with emb := { tabs := [tab0], stages := [stg0] } }, stg0, 3, by decide +kernel⟩

theorem wit_StagesAndSwitches_3 : ∃ (s : State) (t n sh : Nat) (x : Tab), s.running = true ∧ (s.emb.stages.any fun y => y.tenant == t && y.table == n && y.shard == sh) = false ∧ (tabShard s.map.entries t n sh).map (·.a) ≠ some s.node ∧ s.tabHeld t n = some x ∧ s.coordOf t n = some s.node ∧ sh < shardCount x ∧ sh ∉ x.stagedShards :=
  ⟨{ sTab with map := { entries := [me 5 1 4 0 0 0xFFFF 0xFFFF 0, me 6 1 4 0 3 0 0xFFFF 0] } }, 1, 4, 0, tab0, by decide +kernel⟩

theorem wit_StagesAndSwitches_4 : ∃ (s : State) (src t n p v : Nat), s.running = true ∧ v ≠ 0 ∧ s.ftick < p :=
  ⟨r0, 3, 1, 4, 1, 1, by decide +kernel⟩

theorem wit_StagesAndSwitches_5 : ∃ (s : State) (src t n p : Nat), s.running = true :=
  ⟨r0, 3, 1, 4, 1, by decide +kernel⟩

theorem wit_StagesAndSwitches_6 : ∃ (s : State) (src t n p v : Nat), s.running = true ∧ v ≠ 0 ∧ p ≤ s.ftick :=
  ⟨r0, 3, 1, 4, 0, 1, by decide +kernel⟩

theorem wit_StagesAndSwitches_7 : ∃ (s : State) (src : Nat) (w : TSwitch), s.running = true ∧ w ∈ s.emb.switches ∧ w.ring ≠ none ∧ src ∈ w.need ∧ src ∉ w.acks :=
  ⟨{ r0 with emb := { switches := [⟨1, 4, 1, 9, some (1, 1, 0), [3], []⟩] } }, 3, ⟨1, 4, 1, 9, some (1, 1, 0), [3], []⟩, by decide +kernel⟩

theorem wit_StagesAndSwitches_8 : ∃ (s : State) (w : TSwitch), s.running = true ∧ s.emb.switches.find? (fun y => y.tenant == w.tenant && y.table == w.table && y.ring.isSome) = some w ∧ w.p ≤ s.ftick + 4 ∧ switchShort w = true ∧ (s.sec.tenants.any fun r => r.tenant == w.tenant && r.down) = false :=
  ⟨{ r0 with emb := { switches := [⟨1, 4, 1, 4, some (1, 1, 0), [3], []⟩] } }, ⟨1, 4, 1, 4, some (1, 1, 0), [3], []⟩, by decide +kernel⟩

theorem wit_RowsAreReadAndPooled_1 : ∃ (s : State) (d slot pos w : Nat) (j : GJob) (x : Tab), s.running = true ∧ s.emb.waitReads.find? (fun r => r.1 == d) = some (d, slot, pos) ∧ s.gjob slot = some j ∧ s.tabJob j = some x ∧ s.linesOut d + rowLines x ≤ s.reg 0x580001 ∧ s.resetting 1 (2 + d) = false :=
  ⟨{ sTab with emb := { tabs := [tab0], jobs := [gj0], waitReads := [(0, 0, 0)] } }, 0, 0, 0, 3, gj0, tab0, by decide +kernel⟩

theorem wit_RowsAreReadAndPooled_2 : ∃ (s : State) (slot pos r : Nat) (img : RowImg) (expired endBad : Bool) (j : GJob) (x : Tab), s.running = true ∧ s.gjob slot = some j ∧ s.tabJob j = some x ∧ j.scatter = false ∧ (s.emb.outstanding.any fun o => o.2.1 == slot && o.2.2.1 == pos) = true ∧ (∀ q ∈ s.emb.tries, ¬(q.1 = slot ∧ q.2.1 = pos)) ∧ rowFault x (j.idxs.getD pos 0) ((s.localRow x j (j.idxs.getD pos 0)).2.getD (img, expired)).1 endBad = none :=
  ⟨sRow tab0 [], 0, 0, 0, img0, false, false, gj0, tab0, by decide +kernel⟩

theorem wit_RowsAreReadAndPooled_3 : ∃ (s : State) (slot pos r f : Nat) (img : RowImg) (expired endBad : Bool) (j : GJob) (x : Tab), s.running = true ∧ s.gjob slot = some j ∧ s.tabJob j = some x ∧ j.scatter = false ∧ (s.emb.outstanding.any fun o => o.2.1 == slot && o.2.2.1 == pos) = true ∧ (∀ q ∈ s.emb.tries, ¬(q.1 = slot ∧ q.2.1 = pos)) ∧ 0 < s.reg 0x304004 ∧ rowFault x (j.idxs.getD pos 0) ((s.localRow x j (j.idxs.getD pos 0)).2.getD (img, expired)).1 endBad = some f :=
  ⟨sRow tabB [], 0, 0, 0, 0, img0, false, false, gj0, tabB, by decide +kernel⟩

theorem wit_RowsAreReadAndPooled_4 : ∃ (s : State) (slot pos r v : Nat) (img : RowImg) (expired endBad : Bool) (j : GJob) (x : Tab), s.running = true ∧ s.gjob slot = some j ∧ s.tabJob j = some x ∧ j.scatter = false ∧ (s.emb.outstanding.any fun o => o.2.1 == slot && o.2.2.1 == pos) = true ∧ s.emb.tries.find? (fun q => q.1 == slot && q.2.1 == pos) = some (slot, pos, v) ∧ v % 65536 ≠ 0 ∧ rowFault x (j.idxs.getD pos 0) ((s.localRow x j (j.idxs.getD pos 0)).2.getD (img, expired)).1 endBad = none :=
  ⟨sRow tab0 [(0, 0, 1)], 0, 0, 7, 1, img0, false, false, gj0, tab0, by decide +kernel⟩

theorem wit_RowsAreReadAndPooled_5 : ∃ (s : State) (slot pos r v f : Nat) (img : RowImg) (expired endBad : Bool) (j : GJob) (x : Tab), s.running = true ∧ s.gjob slot = some j ∧ s.tabJob j = some x ∧ j.scatter = false ∧ (s.emb.outstanding.any fun o => o.2.1 == slot && o.2.2.1 == pos) = true ∧ s.emb.tries.find? (fun q => q.1 == slot && q.2.1 == pos) = some (slot, pos, v) ∧ 65536 < v ∧ s.reg 0x304004 ≤ v % 65536 ∧ v % 65536 ≠ 0 ∧ rowFault x (j.idxs.getD pos 0) ((s.localRow x j (j.idxs.getD pos 0)).2.getD (img, expired)).1 endBad = some f :=
  ⟨sRow tabB [(0, 0, 65544)], 0, 0, 7, 65544, 0, img0, false, false, gj0, tabB, by decide +kernel⟩

theorem wit_RowsAreReadAndPooled_6 : ∃ (s : State) (slot bag sp c : Nat) (ev : ItemEv) (j : GJob) (x : Tab) (it : Item), s.running = true ∧ s.gjob slot = some j ∧ s.tabJob j = some x ∧ s.runningGather slot bag = some (sp, c) ∧ ((s.sp sp).ctxs.getD c {}).item = some it ∧ bag ∈ j.items ∧ ev.bad = false ∧ (∀ p ∈ itemSpan j bag, j.reads x p = true → (lk j.rows p).isSome = true) :=
  ⟨{ sTab with emb := { tabs := [tab0], jobs := [{ gj0 with rows := [(0, some img0)] }] }, spin := [(0, { ctxs := [{ st := 2, item := some { it0 with kind := 2 } }] })] }, 0, 0, 0, 0, ⟨0, false, 0⟩, { gj0 with rows := [(0, some img0)] }, tab0, { it0 with kind := 2 }, by decide +kernel⟩

theorem wit_RowsAreReadAndPooled_7 : ∃ (s : State) (src t n row k w mw tag seq : Nat) (bulk : Bool) (x : Tab) (img : RowImg) (e : Bool), s.running = true ∧ s.tabAny t n = some x ∧ s.inService t = true ∧ s.bindingDiffers t s.node = false ∧ row < x.rows ∧ s.homesRow x (versionAt x k) row = true ∧ s.migOf t n row = none ∧ s.sealPending x (versionAt x k) row k = false ∧ s.rowView x (versionAt x k) row k = some (img, e) ∧ s.counts t src = true :=
  ⟨{ sTab2 with emb := { tabs := [tab0], rows := [⟨1, 4, 0, 0, img0, false⟩] } }, 3, 1, 4, 0, 1, 2, 5, 0, 1, false, tab0, img0, false, by decide +kernel⟩

theorem wit_RowsAreReadAndPooled_8 : ∃ (s : State) (src t n row k h w mw tag seq : Nat) (bulk : Bool) (x : Tab) (g : Mig), s.running = true ∧ s.tabAny t n = some x ∧ s.inService t = true ∧ s.bindingDiffers t s.node = false ∧ row < x.rows ∧ s.homesRow x (versionAt x k) row = false ∧ s.homeOf x (versionAt x k) row = some h ∧ s.migOf t n row = some g ∧ g.m.a = s.node ∧ g.m.tick = s.ftick :=
  ⟨sMoved [migA], 5, 1, 4, 0, 1, 3, 2, 5, 0, 1, false, tabM, migA, by decide +kernel⟩

theorem wit_RowsAreReadAndPooled_9 : ∃ (s : State) (src t n row k h w mw tag seq : Nat) (bulk : Bool) (x : Tab), s.running = true ∧ s.tabAny t n = some x ∧ s.inService t = true ∧ s.bindingDiffers t s.node = false ∧ row < x.rows ∧ s.homesRow x (versionAt x k) row = false ∧ s.homeOf x (versionAt x k) row = some h ∧ s.migOf t n row = none ∧ (x.dirOver.any fun d => d.1 == versionAt x k && d.2.1 == row) = true :=
  ⟨sMoved [], 5, 1, 4, 0, 1, 3, 2, 5, 0, 1, false, tabM, by decide +kernel⟩

theorem wit_RowsAreReadAndPooled_10 : ∃ (s : State) (src t n row k w mw tag seq : Nat) (bulk : Bool), s.running = true ∧ s.tabAny t n = none ∧ s.counts t src = true :=
  ⟨sTab2, 3, 1, 5, 0, 1, 2, 5, 0, 1, false, by decide +kernel⟩

theorem wit_StepsAreGatheredAndSealed_1 : ∃ (s : State) (slot : Nat) (j : GJob) (x : Tab), s.running = true ∧ s.gjob slot = some j ∧ s.tabJob j = some x ∧ j.scatter = true ∧ j.sent = false ∧ s.poisoned j.tenant j.listAddr (8 * j.n) = false ∧ s.owned j.tenant j.listAddr (8 * j.n) = true ∧ s.poisoned j.tenant j.dataAddr (j.n * (x.e * elemWidth j.fmt)) = false ∧ s.owned j.tenant j.dataAddr (j.n * (x.e * elemWidth j.fmt)) = true :=
  ⟨{ sPage with map := { entries := othMap }, emb := { tabs := [tab0], jobs := [{ gj0 with scatter := true, n := 1 }] } }, 0, { gj0 with scatter := true, n := 1 }, tab0, by decide +kernel⟩

theorem wit_StepsAreGatheredAndSealed_2 : ∃ (s : State) (slot : Nat) (badGrad : Bool) (j : GJob) (x : Tab), s.running = true ∧ s.gjob slot = some j ∧ s.tabJob j = some x ∧ j.scatter = true ∧ j.sent = false :=
  ⟨{ sTab with emb := { tabs := [tab0], jobs := [{ gj0 with scatter := true, n := 1 }] } }, 0, false, { gj0 with scatter := true, n := 1 }, tab0, by decide +kernel⟩

theorem wit_StepsAreGatheredAndSealed_3 : ∃ (s : State) (r : Contrib) (f : Bool) (q : Nat) (x : Tab), s.running = true ∧ s.bindingDiffers r.tenant s.node = false ∧ s.tabAny r.tenant r.table = some x ∧ r.row < x.rows ∧ (f = true ∨ (stepClosed x r.step = false ∧ (s.estep r.tenant r.table r.step).closed = false)) ∧ s.homesRow x x.live r.row = true :=
  ⟨sTab, con0, false, 1, tab0, by decide +kernel⟩

theorem wit_StepsAreGatheredAndSealed_4 : ∃ (s : State) (r : Contrib) (q h : Nat) (x : Tab) (g : Mig), s.running = true ∧ s.bindingDiffers r.tenant s.node = false ∧ s.tabAny r.tenant r.table = some x ∧ r.row < x.rows ∧ stepClosed x r.step = false ∧ (s.estep r.tenant r.table r.step).closed = false ∧ s.homesRow x x.live r.row = false ∧ s.homeOf x x.live r.row = some h ∧ s.migOf r.tenant r.table r.row = some g ∧ g.m.a = s.node ∧ g.m.tick = s.ftick ∧ s.counts r.tenant h = true :=
  ⟨sMoved [migA], con0, 1, 3, tabM, migA, by decide +kernel⟩

theorem wit_StepsAreGatheredAndSealed_5 : ∃ (s : State) (m : Summary) (x : Tab), s.running = true ∧ s.bindingDiffers m.tenant s.node = false ∧ s.tabAny m.tenant m.table = some x ∧ s.coordOf m.tenant m.table = some s.node ∧ (s.estep m.tenant m.table m.step).closed = false ∧ stepClosed x m.step = false ∧ (s.estep m.tenant m.table m.step).summaries = [] :=
  ⟨sTab, sum0, tab0, by decide +kernel⟩

theorem wit_StepsAreGatheredAndSealed_6 : ∃ (s : State) (m f : Summary) (x : Tab), s.running = true ∧ s.bindingDiffers m.tenant s.node = false ∧ s.tabAny m.tenant m.table = some x ∧ s.coordOf m.tenant m.table = some s.node ∧ (s.estep m.tenant m.table m.step).closed = false ∧ stepClosed x m.step = false ∧ (s.estep m.tenant m.table m.step).summaries.head? = some f ∧ f.eta = m.eta ∧ f.version = m.version ∧ ((s.estep m.tenant m.table m.step).summaries.any fun q => q.node == m.node) = false :=
  ⟨sSt { es0 with summaries := [sum0] }, { sum0 with node := 3 }, sum0, tab0, by decide +kernel⟩

theorem wit_StepsAreGatheredAndSealed_7 : ∃ (s : State) (t n step : Nat) (held : List (Nat × Nat)) (x : Tab), s.running = true ∧ s.tabAny t n = some x ∧ s.mayClose (s.estep t n step) = true ∧ (s.estep t n step).summaries.length = ((s.estep t n step).summaries.head?.map (·.c)).getD 0 ∧ heldCount (s.estep t n step) + (held.filter fun h => h.1 != s.node).foldl (fun a h => a + h.2) 0 = (s.estep t n step).summaries.foldl (fun a m => a + m.count) 0 :=
  ⟨sSt { es0 with summaries := [{ sum0 with count := 2 }] }, 1, 4, 1, [(3, 2)], tab0, by decide +kernel⟩

theorem wit_StepsAreGatheredAndSealed_8 : ∃ (s : State) (t n step f : Nat) (held : List (Nat × Nat)) (x : Tab), s.running = true ∧ s.tabAny t n = some x ∧ s.mayClose (s.estep t n step) = true ∧ (s.estep t n step).firstTick = some f ∧ f + s.reg 0x58000C ≤ s.ftick :=
  ⟨{ (sSt { es0 with summaries := [sum0], firstTick := some 0 }).setReg 0x201002 65536 with ctl := {} }, 1, 4, 1, 0, [], tab0, by decide +kernel⟩

theorem wit_StepsAreGatheredAndSealed_9 : ∃ (s : State) (t n step v w : Nat) (only : List Nat) (eta : F32) (inp : List (Nat × StreamIn)) (x : Tab) (k : EStep) (kept : List Contrib) (rows : List Nat), s.running = true ∧ s.tabAny t n = some x ∧ s.estep t n step = k ∧ k.merged = false ∧ (k.records ≠ [] ∨ k.forwarded ≠ 0) ∧ s.mayMerge k = true ∧ kept = (if only = [] then k.records else k.records.filter fun r => only.contains r.node) ∧ rows = ((kept.drop k.folded).map (·.row)).eraseDups ∧ (s.emb.overlays.filter fun o => !o.mirror).length + rows.length ≤ s.reg 0x58000B ∧ (rows = [] ∨ (s.gatherSp t).isSome = true) ∧ (rows.all fun r => (s.readRow x v r 0 inp).1.isSome) = true :=
  ⟨sSt { es0 with records := [con0] }, 1, 4, 1, 0, 9, [], 0x3F800000, [], tab0, { es0 with records := [con0] }, [con0], [0], by decide +kernel⟩

theorem wit_StepsAreGatheredAndSealed_10 : ∃ (s : State) (t n step v w : Nat) (only : List Nat) (eta : F32) (inp : List (Nat × StreamIn)) (x : Tab) (k : EStep) (kept : List Contrib) (rows : List Nat), s.running = true ∧ s.tabAny t n = some x ∧ s.estep t n step = k ∧ k.merged = false ∧ (k.records ≠ [] ∨ k.forwarded ≠ 0) ∧ kept = (if only = [] then k.records else k.records.filter fun r => only.contains r.node) ∧ rows = ((kept.drop k.folded).map (·.row)).eraseDups ∧ s.reg 0x58000B < (s.emb.overlays.filter fun o => !o.mirror).length + rows.length :=
  ⟨(sSt { es0 with records := [con0] }).setReg 0x58000B 0, 1, 4, 1, 0, 9, [0], 0x3F800000, [], tab0, { es0 with records := [con0] }, [con0], [0], by decide +kernel⟩

theorem wit_StepsAreGatheredAndSealed_11 : ∃ (s : State) (src t n step sh : Nat), s.running = true ∧ step ≠ 0 ∧ src ∈ (s.estep t n step).mirrors :=
  ⟨{ r0 with emb := { steps := [{ es0 with mirrors := [3] }] } }, 3, 1, 4, 1, 0, by decide +kernel⟩

theorem wit_StepsAreGatheredAndSealed_12 : ∃ (s : State) (src : Nat) (g : TStage), s.running = true ∧ g ∈ s.emb.stages ∧ g.encoded = true ∧ g.mirrorOk = false ∧ (tabShard s.map.entries g.tenant g.table g.shard).map (·.b) = some src :=
  ⟨{ sTab with emb := { tabs := [tab0], stages := [{ stg0 with mirrorOk := false }] } }, 3, { stg0 with mirrorOk := false }, by decide +kernel⟩

theorem wit_StepsAreGatheredAndSealed_13 : ∃ (s : State) (src t n step : Nat) (ds : List Nat), s.running = true ∧ (s.estep t n step).closed = true ∧ s.coordOf t n = some s.node :=
  ⟨sSt { es0 with closed := true }, 3, 1, 4, 1, [5], by decide +kernel⟩

theorem wit_StepsAreGatheredAndSealed_14 : ∃ (s : State) (t n step v w : Nat) (inc : Bool) (x : Tab), s.running = true ∧ s.tabAny t n = some x ∧ s.ftick < v :=
  ⟨sTab, 1, 4, 1, 1, 0, false, tab0, by decide +kernel⟩

theorem wit_StepsAreGatheredAndSealed_15 : ∃ (s : State) (t n step v w : Nat) (inc : Bool) (x : Tab), s.running = true ∧ s.tabAny t n = some x ∧ v ≤ s.ftick ∧ s.liveAt x v = w :=
  ⟨{ sTab with emb := { tabs := [tab0], overlays := [{ ov0 with v := none }] } }, 1, 4, 1, 0, 0, false, tab0, by decide +kernel⟩

theorem wit_StepsAreGatheredAndSealed_16 : ∃ (s : State) (t n step v w r : Nat) (inc : Bool) (j : GJob), s.running = true ∧ r ≠ 0 ∧ s.emb.jobs.find? (fun j => j.scatter && j.tenant == t && j.table == n && j.step == step && j.sent && !j.done) = some j :=
  ⟨{ sTab with emb := { tabs := [tab0], jobs := [{ gj0 with scatter := true, step := 1, sent := true, frames := 9 }] } }, 1, 4, 1, 0, 0, 0x040D, false, { gj0 with scatter := true, step := 1, sent := true, frames := 9 }, by decide +kernel⟩

theorem wit_StepsAreGatheredAndSealed_17 : ∃ (s : State) (t n row v : Nat) (o : Overlay) (x : Tab), s.running = true ∧ s.emb.overlays = [o] ∧ o.tenant = t ∧ o.table = n ∧ o.row = row ∧ o.v = some v ∧ s.tabAny t n = some x ∧ v + s.reg 0x58000A ≤ s.ftick :=
  ⟨{ sTab.setReg 0x201002 65536 with emb := { tabs := [tab0], overlays := [ov0] } }, 1, 4, 0, 1, ov0, tab0, by decide +kernel⟩

theorem wit_RowsMigrateAndReplicate_1 : ∃ (s : State), s.running = true ∧ s.emb.windowStart + s.reg 0x58000E ≤ s.ftick :=
  ⟨r0.setReg 0x201002 65536, by decide +kernel⟩

theorem wit_RowsMigrateAndReplicate_2 : ∃ (s : State) (src t n load h : Nat) (top : List (Nat × Nat)) (x : Tab) (e : MapEntry), s.running = true ∧ s.tabNow t n = some x ∧ s.coordOf t n = some s.node ∧ e ∈ tabShards s.map.entries t n ∧ e.a = h ∧ h ≠ 0xFFFF ∧ h ≠ src ∧ x.tenant = t ∧ x.table = n ∧ (∀ r ∈ s.emb.reports, ¬(r.home = h ∧ r.tenant = t ∧ r.table = n)) :=
  ⟨sTab, 3, 1, 4, 5, 0, [], tab0, me 6 1 4 0 0 3 0xFFFF 0, by decide +kernel⟩

theorem wit_RowsMigrateAndReplicate_3 : ∃ (s : State) (m : Migration), s.running = true ∧ s.ftick < m.tick ∧ (s.emb.migs.any fun g => g.m == m) = false :=
  ⟨r0, mig0, by decide +kernel⟩

theorem wit_RowsMigrateAndReplicate_4 : ∃ (s : State) (m : Migration), s.running = true ∧ m.tick ≤ s.ftick :=
  ⟨sLate, mig0, by decide +kernel⟩

theorem wit_RowsMigrateAndReplicate_5 : ∃ (s : State) (t n : Nat) (rs : List RowState) (x : Tab), s.running = true ∧ s.bindingDiffers t s.node = false ∧ s.tabNow t n = some x ∧ (∀ r ∈ rs, s.homesRow x x.live r.row = false) :=
  ⟨sTabOth, 1, 4, [⟨0, img0, []⟩], tab0, by decide +kernel⟩

theorem wit_RowsMigrateAndReplicate_6 : ∃ (s : State) (t n : Nat) (rs : List RowState) (x : Tab), s.running = true ∧ s.bindingDiffers t s.node = false ∧ s.tabNow t n = some x ∧ (∀ r ∈ rs, s.homesRow x x.live r.row = true ∧ s.migOf t n r.row = none) :=
  ⟨sTab, 1, 4, [⟨0, img0, []⟩], tab0, by decide +kernel⟩

theorem wit_RowsMigrateAndReplicate_7 : ∃ (s : State) (t n w : Nat) (rs : List RowState) (hs : List (Nat × Nat)) (x : Tab) (g : Mig), s.running = true ∧ s.bindingDiffers t s.node = false ∧ s.tabNow t n = some x ∧ g ∈ s.emb.migs ∧ g.m.tenant = t ∧ g.m.table = n ∧ g.m.b = s.node ∧ g.handed = false ∧ (∀ r ∈ rs, r.row ∈ g.m.rows) :=
  ⟨{ sTab with emb := { tabs := [tab0], migs := [{ m := mig0 }] } }, 1, 4, 1, [⟨0, img0, []⟩], [(0, 3)], tab0, { m := mig0 }, by decide +kernel⟩

theorem wit_RowsMigrateAndReplicate_8 : ∃ (s : State) (t n step c : Nat), s.running = true :=
  ⟨r0, 1, 4, 1, 0, by decide +kernel⟩

theorem wit_RowsMigrateAndReplicate_9 : ∃ (s : State) (src t n step v : Nat) (r : RowState) (rs : List RowState) (x : Tab), s.running = true ∧ s.bindingDiffers t s.node = false ∧ s.tabAny t n = some x ∧ step ≠ 0 :=
  ⟨sTab, 3, 1, 4, 1, 0, ⟨0, img0, [⟨1, none, img0⟩]⟩, [], tab0, by decide +kernel⟩

theorem wit_RowsMigrateAndReplicate_10 : ∃ (s : State) (src t n v row : Nat) (img : RowImg) (x : Tab), s.running = true ∧ s.bindingDiffers t s.node = false ∧ s.tabAny t n = some x :=
  ⟨(sTab.setReg (pagedKey 0x6040 1) 64).setReg (pagedKey 0x6044 1) 64, 3, 1, 4, 0, 0, img0, tab0, by decide +kernel⟩

theorem wit_RowsMigrateAndReplicate_11 : ∃ (s : State) (src t n row view : Nat) (img : RowImg) (x : Tab), s.running = true ∧ s.bindingDiffers t s.node = false ∧ s.tabNow t n = some x ∧ s.homeOf x x.live row = some src ∧ (∀ o ∈ x.old, o.2 ≤ view) ∧ replicaBytes img ≤ s.reg 0x580012 :=
  ⟨sTabOth.setReg 0x580012 1, 3, 1, 4, 0, 0, img0, tab0, by decide +kernel⟩

theorem wit_RowsMigrateAndReplicate_12 : ∃ (s : State) (src t n row view : Nat) (img : RowImg) (x : Tab), s.running = true ∧ s.bindingDiffers t s.node = false ∧ s.tabNow t n = some x ∧ (s.homeOf x x.live row ≠ some src ∨ (∃ o ∈ x.old, view < o.2) ∨ s.reg 0x580012 < replicaBytes img) :=
  ⟨sTabOth.setReg 0x580012 0, 3, 1, 4, 0, 0, img0, tab0, by decide +kernel⟩

theorem wit_RowsMigrateAndReplicate_13 : ∃ (s : State) (src t n row : Nat), s.running = true :=
  ⟨r0, 3, 1, 4, 0, by decide +kernel⟩

theorem wit_PagesAreZeroedAndMoved_1 : ∃ (s : State) (z : PageZero) (n : Nat) (p : Page), s.running = true ∧ s.ctl.zeroings.find? (fun x => x.id == z.id) = some z ∧ z.pages = [n] ∧ s.pageAt z.tenant n = some p ∧ n < 2 ^ 27 ∧ z.seq = 0 :=
  ⟨{ sPage with ctl := { zeroings := [pz0] } }, pz0, 0, page0, by decide +kernel⟩

theorem wit_PagesAreZeroedAndMoved_2 : ∃ (s : State) (z : PageZero) (n : Nat) (p : Page) (r : Region), s.running = true ∧ s.ctl.zeroings.find? (fun x => x.id == z.id) = some z ∧ z.pages = [n] ∧ s.pageAt z.tenant n = some p ∧ n < 2 ^ 27 ∧ z.seq ≠ 0 ∧ z.kind ≠ 6 ∧ s.regionAt z.tenant z.region = some r ∧ r.page = n ∧ r.count = 1 ∧ (s.sec.tenants.any fun y => y.tenant == z.tenant && y.down) = false :=
  ⟨{ sPage with ctl := { zeroings := [{ pz0 with seq := 1 }] }, tier := { regions := [⟨1, 0, 1, 0⟩], pages := [page0] } }, { pz0 with seq := 1 }, 0, page0, ⟨1, 0, 1, 0⟩, by decide +kernel⟩

theorem wit_PagesAreZeroedAndMoved_3 : ∃ (s : State) (z : PageZero) (n : Nat) (p : Page) (m : Model), s.running = true ∧ s.ctl.zeroings.find? (fun x => x.id == z.id) = some z ∧ z.pages = [n] ∧ s.pageAt z.tenant n = some p ∧ z.seq ≠ 0 ∧ z.kind = 6 ∧ s.dense.models = [m] ∧ m.slot = z.region ∧ m.tenant = z.tenant ∧ m.ready = false ∧ m.pages = [n] ∧ (s.sec.tenants.any fun y => y.tenant == z.tenant && y.down) = false :=
  ⟨{ sPage with ctl := { zeroings := [{ pz0 with seq := 1, kind := 6 }] }, dense := { models := [{ mdlD ly0 with ready := false, pages := [0] }] } }, { pz0 with seq := 1, kind := 6 }, 0, page0, { mdlD ly0 with ready := false, pages := [0] }, by decide +kernel⟩

theorem wit_PagesAreZeroedAndMoved_4 : ∃ (s u : State) (tenant page next waited : Nat) (more : List Nat) (m : Move) (rest : List Move) (p : Page) (h : PHome), s.running = true ∧ s.tier.moves = m :: rest ∧ s.pageAt tenant page = some p ∧ m.tenant = tenant ∧ m.left = page :: next :: more ∧ m.freed = false ∧ s.tier.waits = [] ∧ s.moverSpent = false ∧ s.movePinned m = false ∧ s.poisoned tenant (page * pageSize) pageSize = false ∧ s.canTake tenant m.board 1 = true ∧ s.takePage m.board = some (u, h) := by
  have h : (sMove.takePage false).isSome = true := by decide +kernel
  obtain ⟨⟨u, p⟩, hu⟩ := Option.isSome_iff_exists.mp h
  exact ⟨sMove, u, 1, 0, 1, 5, [], mv0, [], { page0 with home := .board 0 [] 0 0 0 }, p, by decide +kernel, rfl, by decide +kernel, rfl, rfl, rfl, rfl, by decide +kernel, by decide +kernel, by decide +kernel, by decide +kernel, hu⟩

theorem wit_PagesAreZeroedAndMoved_5 : ∃ (s u : State) (tenant page waited : Nat) (m : Move) (p : Page) (h : PHome), s.running = true ∧ s.tier.moves = [m] ∧ s.pageAt tenant page = some p ∧ m.tenant = tenant ∧ m.left = [page] ∧ m.freed = false ∧ s.tier.waits = [] ∧ s.moverSpent = false ∧ s.movePinned m = false ∧ s.resetting 1 0 = false ∧ (s.sec.tenants.any fun y => y.tenant == tenant && y.down) = false ∧ s.poisoned tenant (page * pageSize) pageSize = false ∧ s.canTake tenant m.board 1 = true ∧ s.takePage m.board = some (u, h) := by
  have h : ((sMoveL [0] false).takePage false).isSome = true := by decide +kernel
  obtain ⟨⟨u, p⟩, hu⟩ := Option.isSome_iff_exists.mp h
  exact ⟨sMoveL [0] false, u, 1, 0, 5, { mv0 with left := [0], freed := false }, { page0 with home := .board 0 [] 0 0 0 }, p, by decide +kernel, rfl, by decide +kernel, rfl, rfl, rfl, rfl, by decide +kernel, by decide +kernel, by decide +kernel, by decide +kernel, by decide +kernel, by decide +kernel, hu⟩

theorem wit_PagesAreZeroedAndMoved_6 : ∃ (s : State) (tenant page waited : Nat) (bad : Option Nat) (m : Move) (p : Page), s.running = true ∧ s.tier.moves = [m] ∧ s.pageAt tenant page = some p ∧ m.tenant = tenant ∧ m.left.head? = some page ∧ m.freed = false ∧ s.tier.waits = [] ∧ s.moverSpent = false ∧ s.movePinned m = false ∧ (s.sec.tenants.any fun y => y.tenant == tenant && y.down) = false ∧ (s.poisoned tenant (page * pageSize) pageSize || bad.isSome || !s.canTake tenant m.board 1) = true :=
  ⟨sMoveL [0, 1] false, 1, 0, 5, some 64, { mv0 with left := [0, 1], freed := false }, { page0 with home := .board 0 [] 0 0 0 }, by decide +kernel⟩

theorem wit_PagesAreZeroedAndMoved_7 : ∃ (s : State) (tenant page waited : Nat) (bad : Option Nat) (m : Move) (p : Page), s.running = true ∧ s.tier.moves = [m] ∧ s.pageAt tenant page = some p ∧ m.tenant = tenant ∧ m.left = [page] ∧ m.freed = true ∧ s.tier.waits = [] ∧ s.moverSpent = false ∧ s.resetting 1 0 = false ∧ (s.sec.tenants.any fun y => y.tenant == tenant && y.down) = false :=
  ⟨sMoveL [0] true, 1, 0, 5, none, { mv0 with left := [0], freed := true }, { page0 with home := .board 0 [] 0 0 0 }, by decide +kernel⟩

theorem wit_BoardPagesArePacked_1 : ∃ (s : State) (tenant addr : Nat) (data : List Byte) (p : Page), s.running = true ∧ s.memOk = true ∧ s.pageAt tenant (addr / pageSize) = some p ∧ p.inStacks = false ∧ p.zero = false ∧ p.inMove = false ∧ data ≠ [] ∧ addr % 4096 + data.length ≤ 4096 ∧ s.rangeFailed tenant addr data.length = false :=
  ⟨{ r0 with tier := { pages := [{ page0 with home := .board 0 [] 0 0 0 }] } }, 1, 4095, [1], { page0 with home := .board 0 [] 0 0 0 }, by decide +kernel⟩

theorem wit_BoardPagesArePacked_2 : ∃ (s : State) (tenant addr : Nat) (data : List Byte) (p : Page), s.running = true ∧ s.pageAt tenant (addr / pageSize) = some p ∧ p.inStacks = false ∧ p.zero = false ∧ p.inMove = true ∧ data ≠ [] ∧ addr % 4096 + data.length ≤ 4096 :=
  ⟨{ r0 with tier := { pages := [{ page0 with home := .board 0 [] 0 0 0, inMove := true }] } }, 1, 4095, [1], { page0 with home := .board 0 [] 0 0 0, inMove := true }, by decide +kernel⟩

theorem wit_BoardPagesArePacked_3 : ∃ (s : State) (tenant page ch chunks dead used : Nat) (map : List (Nat × Nat × Nat)) (p : Page), s.running = true ∧ s.pageAt tenant page = some p ∧ p.home = .board ch map chunks dead used ∧ p.inMove = false ∧ chunks * 1024 < dead * 4 :=
  ⟨{ r0 with tier := { pages := [{ page0 with home := .board 0 [] 1 257 0 }] } }, 1, 0, 0, 1, 257, 0, [], { page0 with home := .board 0 [] 1 257 0 }, by decide +kernel⟩

theorem wit_BoardPagesArePacked_4 : ∃ (s : State) (n : Nat), s.running = true ∧ n < 12 ∧ s.reg (0x600101 + n) ≠ 2 :=
  ⟨r0, 11, by decide +kernel⟩

theorem wit_BoardPagesArePacked_5 : ∃ (s : State) (n : Nat), s.running = true ∧ n < 8 ∧ s.reg (0x601101 + n) ≠ 3 :=
  ⟨r0, 7, by decide +kernel⟩

theorem wit_PackedFormsReadBack_1 : ∃ (bs : List Byte), bs.length = 4096 :=
  ⟨List.replicate 4096 1, by decide +kernel⟩

theorem wit_PackedFormsReadBack_2 : ∃ (e : FEntry), e.mode < 4 ∧ e.sectors < 128 ∧ e.block < 2 ^ 27 ∧ e.page < 4096 ∧ e.sector < 256 :=
  ⟨{ fe0 with mode := 3, sectors := 127, block := 2 ^ 27 - 1, page := 4095, sector := 255 }, by decide +kernel⟩

theorem wit_StoredBytesAreReadBack_1 : ∃ (s : State) (tenant addr : Nat) (bs : List Byte) (a : Nat), s.memOk = true ∧ (a < memKey tenant addr ∨ memKey tenant addr + bs.length ≤ a) :=
  ⟨r0, 1, 0, [1], 0, by decide +kernel⟩

theorem wit_WritesReachFlash_1 : ∃ (s : State) (w : Nat), s.running = true ∧ w < 4 ∧ bit (s.reg 0x701001) w = false :=
  ⟨r0, 3, by decide +kernel⟩

theorem wit_WritesReachFlash_2 : ∃ (s : State) (w : Nat), s.running = true ∧ w < 4 ∧ bit (s.reg 0x701001) w = true ∧ s.flashIdle = true ∧ s.windowWorkDone w = true ∧ (w = 3 ∨ s.hkDone = true) :=
  ⟨r0.setReg 0x701001 1, 0, by decide +kernel⟩

theorem wit_WritesReachFlash_3 : ∃ (s : State) (w : Nat), s.running = true ∧ (s.flashIdle = false ∨ s.windowWorkDone w = false ∨ (w ≠ 3 ∧ s.hkDone = false)) :=
  ⟨{ r0 with flash := { progs := [fp0] } }, 0, by decide +kernel⟩

theorem wit_WritesReachFlash_4 : ∃ (s : State) (w k : Nat), s.running = true ∧ lk s.flash.winTicks w = some k ∧ bit (s.reg 0x701001) w = true ∧ k + s.reg 0x70200D ≤ s.now ∧ (w ≠ 1 ∨ s.publishing = false) :=
  ⟨{ (r0.setReg 0x701001 1).setReg 0x201002 65535 with flash := { winTicks := [(0, 0)] } }, 0, 0, by decide +kernel⟩

theorem wit_WritesReachFlash_5 : ∃ (s : State) (tenant block w : Nat) (data : List (List Byte)), s.running = true ∧ s.windowIn w = false :=
  ⟨r0.setReg 0x701001 0, 1, 0, 1, [], by decide +kernel⟩

theorem wit_WritesReachFlash_6 : ∃ (s : State) (tenant block w : Nat) (data : List (List Byte)), s.running = true ∧ s.windowIn w = true ∧ s.reg (pagedKey 0x7048 tenant) = 1 :=
  ⟨(r0.setReg 0x701001 1).setReg (pagedKey 0x7048 1) 1, 1, 0, 1, [], by decide +kernel⟩

theorem wit_WritesReachFlash_7 : ∃ (s : State) (tenant block w : Nat) (data : List (List Byte)), s.running = true ∧ s.windowIn w = true ∧ s.reg (pagedKey 0x7048 tenant) ≠ 1 ∧ s.inRegion tenant block data.length = false :=
  ⟨r0.setReg 0x701001 1, 1, 1, 1, [[1]], by decide +kernel⟩

theorem wit_WritesReachFlash_8 : ∃ (s : State) (tenant block w : Nat) (data : List (List Byte)) (d : List Byte), s.running = true ∧ s.windowIn w = true ∧ s.reg (pagedKey 0x7048 tenant) ≠ 1 ∧ s.inRegion tenant block data.length = true ∧ d ∈ data ∧ d.length = 4096 ∧ d.any (· != 0) = true ∧ s.openRoom 1 = false ∧ s.flashFull = true :=
  ⟨(sFlash.setReg 0x701001 1).setReg 0x702003 5000, 1, 0, 1, [List.replicate 4096 1], List.replicate 4096 1, by decide +kernel⟩

theorem wit_WritesReachFlash_9 : ∃ (s : State) (tenant block w : Nat) (data : List (List Byte)) (d : List Byte), s.running = true ∧ s.windowIn w = true ∧ s.reg (pagedKey 0x7048 tenant) ≠ 1 ∧ s.inRegion tenant block data.length = true ∧ d ∈ data ∧ d.length = 4096 ∧ d.any (· != 0) = true ∧ s.openRoom 1 = false ∧ s.flashFull = false ∧ s.freeBlocks ≤ s.reg 0x702003 :=
  ⟨{ (sFlash.setReg 0x701001 1).setReg 0x702003 2047 with flash := { targets := [0], blocks := [(0, { addr := 0, free := false, erasing := true })] } }, 1, 0, 1, [List.replicate 4096 1], List.replicate 4096 1, by decide +kernel⟩

theorem wit_WritesReachFlash_10 : ∃ (s : State) (tenant block w : Nat) (data : List (List Byte)), s.running = true ∧ s.windowIn w = true ∧ s.reg (pagedKey 0x7048 tenant) ≠ 1 ∧ s.inRegion tenant block data.length = true ∧ (∀ d ∈ data, d.length = 4096) ∧ data.length ≤ 3 ∧ s.openRoom 1 = true :=
  ⟨{ (sFlash.setReg 0x701001 1).setReg (pagedKey 0x7044 1) 16384 with flash := { targets := [0], blocks := [(0, { addr := 0, free := false, slc := true })] } }, 1, 0, 1, [List.replicate 4096 1, List.replicate 4096 0], by decide +kernel⟩

theorem wit_WritesReachFlash_11 : ∃ (s : State) (tenant block w : Nat) (data : List (List Byte)) (b : FBlock), s.running = true ∧ s.windowIn w = true ∧ s.reg (pagedKey 0x7048 tenant) ≠ 1 ∧ s.inRegion tenant block data.length = true ∧ (∀ d ∈ data, d.length = 4096) ∧ s.flash.blocks = [(b.addr, b)] ∧ s.openOf s.toSlc = some b ∧ b.next + data.length ≤ s.reg 0x700005 :=
  ⟨{ (sFlash.setReg 0x701001 1).setReg (pagedKey 0x7044 1) 16384 with flash := { targets := [0], blocks := [(0, { addr := 0, free := false, slc := true })] } }, 1, 0, 1, [List.replicate 4096 1, List.replicate 4096 0], { addr := 0, free := false, slc := true }, by decide +kernel⟩

theorem wit_WritesReachFlash_12 : ∃ (s : State) (tenant block w : Nat) (d : List Byte) (b : FBlock), s.running = true ∧ s.windowIn w = true ∧ s.reg (pagedKey 0x7048 tenant) ≠ 1 ∧ s.inRegion tenant block 1 = true ∧ s.flashFull = false ∧ s.reg 0x702003 < s.freeBlocks ∧ d.length = 4096 ∧ d.any (· != 0) = true ∧ s.openOf s.toSlc = some b :=
  ⟨{ (sFlash.setReg 0x701001 1).setReg (pagedKey 0x7044 1) 16384 with flash := { targets := [0], blocks := [(0, { addr := 0, free := false, slc := true })] } }, 1, 0, 1, List.replicate 4096 1, { addr := 0, free := false, slc := true }, by decide +kernel⟩

theorem wit_WritesReachFlash_13 : ∃ (s u : State) (tenant block w : Nat) (d : List Byte) (b : FBlock), s.running = true ∧ s.windowIn w = true ∧ s.reg (pagedKey 0x7048 tenant) ≠ 1 ∧ s.inRegion tenant block 1 = true ∧ s.reg 0x702003 < s.freeBlocks ∧ d.length = 4096 ∧ d.any (· != 0) = true ∧ s.openOf s.toSlc = none ∧ (∀ x ∈ s.flash.blocks, x.2.addr = x.1) ∧ s.openBlock s.toSlc false = some (u, b) := by
  refine ⟨sFlash.setReg 0x701001 1, ((sFlash.setReg 0x701001 1).openBlock (sFlash.setReg 0x701001 1).toSlc false).elim r0 (·.1), 1, 0, 1, List.replicate 4096 1, ((sFlash.setReg 0x701001 1).openBlock (sFlash.setReg 0x701001 1).toSlc false).elim fbN (·.2), ?_, ?_, ?_, ?_, ?_, ?_, ?_, ?_, ?_, ?_⟩ <;> decide +kernel

theorem wit_WritesReachFlash_14 : ∃ (s : State) (tenant block w : Nat) (data : List (List Byte)), s.running = true ∧ s.windowIn w = true ∧ s.reg (pagedKey 0x7048 tenant) ≠ 1 ∧ s.inRegion tenant block data.length = true ∧ (∀ d ∈ data, d.length = 4096 ∧ d.all (· == 0) = true) :=
  ⟨sFlash.setReg 0x701001 1, 1, 0, 1, [List.replicate 4096 0], by decide +kernel⟩

theorem wit_FlashReadsAndMapPages_1 : ∃ (s : State) (tenant block retries ns : Nat) (soft ok tagOk susp lat : Bool), s.running = true ∧ s.windowIn 16 = false ∧ s.flash.recovering = false ∧ s.inRegion tenant block 1 = true ∧ s.flash.cache.contains (mapPage block) = true ∧ (s.fentry block).mode ≠ 0 ∧ (s.fblock (s.fentry block).block).addr = (s.fentry block).block :=
  ⟨{ sFlash with flash := { targets := [0], cache := [0], map := [(0, fe0)] } }, 1, 0, 0, 0, false, true, true, false, true, by decide +kernel⟩

theorem wit_FlashReadsAndMapPages_2 : ∃ (s : State) (tenant block retries ns : Nat) (soft ok tagOk susp lat : Bool), s.running = true ∧ s.windowIn 16 = false ∧ s.flash.recovering = false ∧ s.inRegion tenant block 1 = true ∧ s.flash.cache.contains (mapPage block) = true ∧ (s.fentry block).mode = 0 :=
  ⟨{ sFlash with flash := { targets := [0], cache := [0] } }, 1, 0, 0, 0, false, true, true, false, false, by decide +kernel⟩

theorem wit_FlashReadsAndMapPages_3 : ∃ (s : State) (tenant block retries ns : Nat) (soft ok tagOk susp lat : Bool), s.running = true ∧ s.windowIn 16 = false ∧ s.flash.recovering = false ∧ s.inRegion tenant block 1 = true ∧ s.flash.cache.contains (mapPage block) = false ∧ s.flash.asked.contains (mapPage block) = false ∧ s.reg 0x703003 ≠ 0 ∧ s.link.error = false :=
  ⟨sFlash.setReg 0x703003 1, 1, 0, 0, 0, false, true, true, false, false, by decide +kernel⟩

theorem wit_FlashReadsAndMapPages_4 : ∃ (s : State) (tenant block retries ns : Nat) (soft ok tagOk susp lat : Bool), s.running = true ∧ s.windowIn 16 = false ∧ s.flash.recovering = false ∧ s.inRegion tenant block 1 = true ∧ s.flash.cache.contains (mapPage block) = false ∧ s.flash.asked.contains (mapPage block) = false ∧ (s.reg 0x703003 = 0 ∨ s.link.error = true) :=
  ⟨sFlash.setReg 0x703003 0, 1, 0, 0, 0, false, true, true, false, false, by decide +kernel⟩

theorem wit_FlashReadsAndMapPages_5 : ∃ (s : State) (page : Nat) (es : List W64), s.running = true ∧ s.flash.asked.contains page = true ∧ es.length ≤ 512 :=
  ⟨{ r0 with flash := { asked := [0] } }, 0, [], by decide +kernel⟩

theorem wit_FlashReadsAndMapPages_6 : ∃ (s : State) (page version : Nat) (ok : Bool) (es : List W64), s.running = true ∧ s.flash.asked.contains page = true ∧ (version ≠ (lk s.flash.dirVer page).getD 0 ∨ ok = false) :=
  ⟨{ r0 with flash := { asked := [0] } }, 0, 1, true, [], by decide +kernel⟩

theorem wit_FlashReadsAndMapPages_7 : ∃ (s : State) (page other version : Nat) (ok : Bool) (es : List W64), s.running = true ∧ s.flash.asked.contains page = true ∧ other ≠ page :=
  ⟨{ r0 with flash := { asked := [0] } }, 0, 1, 0, true, [], by decide +kernel⟩

theorem wit_FlashReadsAndMapPages_8 : ∃ (s : State) (page : Nat), s.running = true ∧ s.flash.asked.contains page = true :=
  ⟨{ r0 with flash := { asked := [0] } }, 0, by decide +kernel⟩

theorem wit_HousekeepingCopiesBlocks_1 : ∃ (s : State) (block used : Nat) (ladder : Bool), s.running = true ∧ (s.fblock block).addr = block ∧ (s.fblock block).free = false ∧ (s.fblock block).retired = false ∧ s.reg 0x702008 ≤ (s.fblock block).reads :=
  ⟨{ r0 with flash := { blocks := [(0, { addr := 0, free := false, reads := 65536 })] } }, 0, 5, false, by decide +kernel⟩

theorem wit_HousekeepingCopiesBlocks_2 : ∃ (s : State) (block : Nat), s.running = true ∧ (s.fblock block).addr = block ∧ (s.fblock block).due = true ∧ (s.fblock block).free = false ∧ (s.fblock block).retired = false ∧ (s.fblock block).erasing = false ∧ s.flash.eraseQ.any (·.1 == block) = false ∧ (∀ x ∈ s.validIn block, s.keyed x.tenant = true) :=
  ⟨{ r0 with flash := { blocks := [(0, { addr := 0, free := false, due := true })], stored := [fst0], map := [(0, fe0)] } }, 0, by decide +kernel⟩

theorem wit_HousekeepingCopiesBlocks_3 : ∃ (s : State) (b v : FBlock), s.running = true ∧ s.hkAllowed = true ∧ s.flushPick = some b ∧ s.openOf false = some v ∧ (cutPages (s.validIn b.addr)).length = 1 :=
  ⟨{ ((sFlash.setReg 0x701001 1).setReg 0x702004 0) with flash := { targets := [0], blocks := [(0, fbS), (1, fbN)], stored := [fst0], map := [(0, fe0)] } }, fbS, fbN, by decide +kernel⟩

theorem wit_HousekeepingCopiesBlocks_4 : ∃ (s : State) (b : FBlock), s.running = true ∧ s.hkAllowed = true ∧ s.flushPick = some b ∧ s.validIn b.addr = [] :=
  ⟨{ ((sFlash.setReg 0x701001 1).setReg 0x702004 0) with flash := { targets := [0], blocks := [(0, fbS), (1, fbN)] } }, fbS, by decide +kernel⟩

theorem wit_HousekeepingCopiesBlocks_5 : ∃ (s : State) (b : FBlock), s.running = true ∧ s.hkAllowed = true ∧ s.wantsReclaim = true ∧ s.reclaimPick = some b :=
  ⟨{ r0.setReg 0x700005 8 |>.setReg 0x701001 1 with flash := { blocks := [(0, { fbS with slc := false }), (1, fbN)] } }, { fbS with slc := false }, by decide +kernel⟩

theorem wit_HousekeepingCopiesBlocks_6 : ∃ (s : State) (b v : FBlock), s.running = true ∧ s.hkAllowed = true ∧ s.wantsReclaim = true ∧ s.reclaimPick = some b ∧ s.openOf s.toSlc = some v ∧ (cutPages (s.validIn b.addr)).length = 1 :=
  ⟨{ r0.setReg 0x700005 8 |>.setReg 0x701001 1 with flash := { blocks := [(0, { fbS with slc := false }), (1, fbN)], stored := [fst0], map := [(0, fe0)] } }, { fbS with slc := false }, fbN, by decide +kernel⟩

theorem wit_HousekeepingCopiesBlocks_7 : ∃ (s : State), s.running = true ∧ (s.hkAllowed = false ∨ s.wantsReclaim = false) :=
  ⟨r0.setReg 0x701001 0, by decide +kernel⟩

theorem wit_HousekeepingCopiesBlocks_8 : ∃ (s : State) (b : FBlock), s.running = true ∧ s.hkAllowed = true ∧ s.levelPick = some b :=
  ⟨sWear, { fbS with slc := false, erases := 33 }, by decide +kernel⟩

theorem wit_HousekeepingCopiesBlocks_9 : ∃ (s u : State) (b v : FBlock), s.running = true ∧ s.hkAllowed = true ∧ s.levelPick = some b ∧ s.openBlock false true = some (u, v) ∧ (cutPages (s.validIn b.addr)).length = 1 := by
  refine ⟨sWear, (sWear.openBlock false true).elim r0 (·.1), { fbS with slc := false, erases := 33 }, (sWear.openBlock false true).elim fbN (·.2), ?_, ?_, ?_, ?_, ?_⟩ <;> decide +kernel

theorem wit_ProgramsDiscardsCheckpoints_1 : ∃ (s : State) (p : FProg), s.running = true ∧ s.flash.progs.find? (fun x => x.id == p.id && x.why == 0) = some p :=
  ⟨{ r0 with flash := { progs := [fp0] } }, fp0, by decide +kernel⟩

theorem wit_ProgramsDiscardsCheckpoints_2 : ∃ (s : State) (p : FProg) (b v : FBlock), s.running = true ∧ s.flash.progs = [p] ∧ p.why = 0 ∧ s.flash.blocks = [(p.block, b), (v.addr, v)] ∧ b.addr = p.block ∧ v.addr ≠ p.block ∧ s.openOf p.slc = some v :=
  ⟨{ r0.setReg 0x700005 8 with flash := { progs := [fp0], blocks := [(0, { fbN with addr := 0 }), (1, { fbN with opened := 1 })] } }, fp0, { fbN with addr := 0 }, { fbN with opened := 1 }, by decide +kernel⟩

theorem wit_ProgramsDiscardsCheckpoints_3 : ∃ (s : State) (p : FProg), s.running = true ∧ s.flash.progs.find? (fun x => x.id == p.id && x.why != 0) = some p :=
  ⟨{ r0 with flash := { progs := [{ fp0 with why := 1, src := some 4 }] } }, { fp0 with why := 1, src := some 4 }, by decide +kernel⟩

theorem wit_ProgramsDiscardsCheckpoints_4 : ∃ (s : State) (p : FProg) (a : Nat), s.running = true ∧ s.flash.progs.find? (fun x => x.id == p.id && x.why != 0) = some p ∧ p.src = some a ∧ (∀ x ∈ s.flash.progs, x.id ≠ p.id → x.src ≠ some a) :=
  ⟨{ r0 with flash := { progs := [{ fp0 with why := 2, src := some 4 }] } }, { fp0 with why := 2, src := some 4 }, 4, by decide +kernel⟩

theorem wit_ProgramsDiscardsCheckpoints_5 : ∃ (s : State) (rs : List JRec) (r : JRec), s.running = true ∧ s.flash.inPage = rs ++ [r] :=
  ⟨{ r0 with flash := { inPage := [⟨1, 1, 0, 0, 0⟩, ⟨2, 1, 0, 0, 0⟩] } }, [⟨1, 1, 0, 0, 0⟩], ⟨2, 1, 0, 0, 0⟩, by decide +kernel⟩

theorem wit_ProgramsDiscardsCheckpoints_6 : ∃ (s : State) (r : JRec), s.running = true ∧ s.flash.inPage = [r] ∧ r.kind = 1 :=
  ⟨{ r0 with flash := { inPage := [⟨1, 1, 0, 1, 0⟩] } }, ⟨1, 1, 0, 1, 0⟩, by decide +kernel⟩

theorem wit_ProgramsDiscardsCheckpoints_7 : ∃ (s : State) (r : JRec), s.running = true ∧ s.flash.inPage = [r] ∧ r.kind = 4 :=
  ⟨{ r0 with flash := { inPage := [⟨1, 4, 0, 1, 0⟩] } }, ⟨1, 4, 0, 1, 0⟩, by decide +kernel⟩

theorem wit_ProgramsDiscardsCheckpoints_8 : ∃ (s : State) (r : JRec), s.running = true ∧ s.flash.inPage = [r] ∧ r.kind = 7 :=
  ⟨{ r0 with flash := { inPage := [⟨1, 7, 0, 1, 0⟩] } }, ⟨1, 7, 0, 1, 0⟩, by decide +kernel⟩

theorem wit_ProgramsDiscardsCheckpoints_9 : ∃ (s : State) (block : Nat), s.running = true ∧ (s.fblock block).addr = block ∧ (s.fblock block).erasing = true ∧ s.flash.eraseQ.any (·.1 == block) = true ∧ (s.reg 0x70200A = 0 ∨ (s.fblock block).erases + 1 < s.reg 0x70200A) :=
  ⟨{ r0.setReg 0x70200A 0 with flash := { blocks := [(0, { addr := 0, free := false, erasing := true })], eraseQ := [(0, 0)] } }, 0, by decide +kernel⟩

theorem wit_ProgramsDiscardsCheckpoints_10 : ∃ (s : State) (block : Nat), s.running = true ∧ (s.fblock block).addr = block ∧ (s.fblock block).erasing = true ∧ s.flash.eraseQ.any (·.1 == block) = true ∧ s.reg 0x70200A ≠ 0 ∧ s.reg 0x70200A ≤ (s.fblock block).erases + 1 :=
  ⟨{ r0.setReg 0x70200A 1 with flash := { blocks := [(0, { addr := 0, free := false, erasing := true })], eraseQ := [(0, 0)] } }, 0, by decide +kernel⟩

theorem wit_ProgramsDiscardsCheckpoints_11 : ∃ (s : State) (tenant addr len : Nat), s.running = true ∧ (addr % 4096 ≠ 0 ∨ len % 4096 ≠ 0) :=
  ⟨r0, 1, 1, 4096, by decide +kernel⟩

theorem wit_ProgramsDiscardsCheckpoints_12 : ∃ (s : State) (tenant addr len : Nat), s.running = true ∧ addr % 4096 = 0 ∧ len % 4096 = 0 ∧ len ≠ 0 ∧ s.inRegion tenant (addr / 4096) (len / 4096) = true ∧ (s.flash.discards.foldl (fun a d => a + d.2) 0) + len / 4096 ≤ s.reg 0x70200C ∧ s.windowIn 7 = false :=
  ⟨sFlash.setReg 0x701001 0, 1, 0, 4096, by decide +kernel⟩

theorem wit_ProgramsDiscardsCheckpoints_13 : ∃ (s : State) (tenant addr len : Nat), s.running = true ∧ addr % 4096 = 0 ∧ len % 4096 = 0 ∧ len ≠ 0 ∧ s.inRegion tenant (addr / 4096) (len / 4096) = true ∧ s.reg 0x70200C < (s.flash.discards.foldl (fun a d => a + d.2) 0) + len / 4096 ∧ s.windowIn 7 = false :=
  ⟨(sFlash.setReg 0x701001 0).setReg 0x70200C 0, 1, 0, 4096, by decide +kernel⟩

theorem wit_ProgramsDiscardsCheckpoints_14 : ∃ (s : State) (tenant addr len : Nat), s.running = true ∧ addr % 4096 = 0 ∧ len % 4096 = 0 ∧ len ≠ 0 ∧ s.inRegion tenant (addr / 4096) (len / 4096) = true ∧ s.windowIn 7 = true :=
  ⟨sFlash.setReg 0x701001 1, 1, 0, 4096, by decide +kernel⟩

theorem wit_ProgramsDiscardsCheckpoints_15 : ∃ (s : State), s.running = true ∧ s.windowIn 7 = true ∧ s.canAdvance = true :=
  ⟨r0.setReg 0x701001 1, by decide +kernel⟩

theorem wit_ProgramsDiscardsCheckpoints_16 : ∃ (s : State), s.running = true ∧ (s.windowIn 7 = false ∨ s.canAdvance = false) :=
  ⟨r0.setReg 0x701001 0, by decide +kernel⟩

theorem wit_ProgramsDiscardsCheckpoints_17 : ∃ (s : State) (lost : Nat), s.running = true ∧ bit (s.reg 0x701001) 0 = true ∧ s.flash.recovering = true ∧ s.flash.progs = [] ∧ s.flash.inPage = [] ∧ s.flash.journal = [] ∧ s.accepts 3 s.flash.ckpt = true :=
  ⟨{ r0.setReg 0x701001 1 with flash := { recovering := true } }, 0, by decide +kernel⟩

theorem wit_ProgramsDiscardsCheckpoints_18 : ∃ (s : State) (lost : Nat) (r : JRec), s.running = true ∧ bit (s.reg 0x701001) 0 = true ∧ s.flash.recovering = true ∧ s.flash.progs = [] ∧ s.flash.inPage = [] ∧ s.flash.journal = [r] ∧ s.accepts 3 s.flash.ckpt = true ∧ r.kind = 1 ∧ s.flash.ckptSeq < r.seq :=
  ⟨{ r0.setReg 0x701001 1 with flash := { recovering := true, journal := [⟨1, 1, 0, 0, 0⟩], nextPage := 1 } }, 0, ⟨1, 1, 0, 0, 0⟩, by decide +kernel⟩

theorem wit_ProgramsDiscardsCheckpoints_19 : ∃ (s : State) (lost : Nat), s.running = true ∧ bit (s.reg 0x701001) 0 = true ∧ s.flash.recovering = true ∧ s.flash.progs = [] ∧ s.flash.inPage = [] ∧ s.flash.journal = [] ∧ s.accepts 3 s.flash.ckpt = false :=
  ⟨{ r0.setReg 0x701001 1 with flash := { recovering := true, ckpt := 9 } }, 0, by decide +kernel⟩

theorem wit_ProgramsDiscardsCheckpoints_20 : ∃ (s : State) (lost : Nat) (b : FBlock), s.running = true ∧ bit (s.reg 0x701001) 0 = true ∧ s.flash.recovering = true ∧ s.flash.progs = [] ∧ s.flash.inPage = [] ∧ s.flash.journal = [] ∧ s.accepts 3 s.flash.ckpt = true ∧ s.flash.blocks = [(b.addr, b)] ∧ b.free = false ∧ b.retired = false ∧ (∀ x ∈ s.flash.stored, x.block ≠ b.addr) :=
  ⟨{ r0.setReg 0x701001 1 with flash := { recovering := true, blocks := [(0, { fbN with addr := 0 })] } }, 0, { fbN with addr := 0 }, by decide +kernel⟩

theorem wit_ProgramsDiscardsCheckpoints_21 : ∃ (s : State) (ch : Nat), s.running = true ∧ ch < 32 ∧ s.reg (0x700101 + ch) = 0 :=
  ⟨r0, 31, by decide +kernel⟩

theorem wit_PortsHellosAndFlits_1 : ∃ (s : State) (port kind : Nat), s.running = true ∧ port < 16 ∧ 1 ≤ kind ∧ kind ≤ 3 ∧ (s.portState port = 0 ∨ 4 ≤ s.portState port) :=
  ⟨r0.setReg 0x800101 4, 0, 3, by decide +kernel⟩

theorem wit_PortsHellosAndFlits_2 : ∃ (s : State) (port kind : Nat), s.running = true ∧ port < 16 ∧ 1 ≤ kind ∧ kind ≤ 3 ∧ 1 ≤ s.portState port ∧ s.portState port ≤ 3 ∧ s.reg (0x800301 + port) ≠ kind :=
  ⟨(r0.setReg 0x800101 3).setReg 0x800301 2, 0, 3, by decide +kernel⟩

theorem wit_PortsHellosAndFlits_3 : ∃ (s : State) (port kind : Nat), s.running = true ∧ port < 16 ∧ 1 ≤ kind ∧ kind ≤ 3 ∧ 1 ≤ s.portState port ∧ s.portState port ≤ 3 ∧ s.reg (0x800301 + port) = kind :=
  ⟨(r0.setReg 0x800101 3).setReg 0x800301 3, 0, 3, by decide +kernel⟩

theorem wit_PortsHellosAndFlits_4 : ∃ (s : State) (port : Nat), s.running = true ∧ port < 16 ∧ s.portState port = 1 :=
  ⟨r0.setReg 0x800110 1, 15, by decide +kernel⟩

theorem wit_PortsHellosAndFlits_5 : ∃ (s : State) (port : Nat), s.running = true ∧ port < 16 ∧ (s.portState port = 2 ∨ s.portState port = 3) :=
  ⟨r0.setReg 0x800101 3, 0, by decide +kernel⟩

theorem wit_PortsHellosAndFlits_6 : ∃ (s : State) (port : Nat) (h : Hello), s.running = true ∧ port < 16 ∧ s.portState port = 2 ∧ (s.port port).keySet = true ∧ s.helloReason port h = 0 :=
  ⟨{ (r0.setReg 0x800101 2).setReg 0x800002 1 with ports := [(0, { keySet := true })] }, 0, hel0, by decide +kernel⟩

theorem wit_PortsHellosAndFlits_7 : ∃ (s : State) (port r : Nat) (h : Hello), s.running = true ∧ port < 16 ∧ s.portState port = 2 ∧ (s.port port).keySet = true ∧ s.helloReason port h = r ∧ r ≠ 0 :=
  ⟨{ r0.setReg 0x800101 2 with ports := [(0, { keySet := true, peerDigest := [1] })] }, 0, 1, hel0, by decide +kernel⟩

theorem wit_PortsHellosAndFlits_8 : ∃ (s : State) (port : Nat) (f : Flit), s.running = true ∧ port < 16 ∧ (s.portState port = 2 ∨ s.portState port = 3) ∧ (s.port port).keySet = true ∧ f.fecOk = true ∧ f.tagOk = true ∧ f.seq = (s.port port).rxSeq :=
  ⟨{ r0.setReg 0x800101 3 with ports := [(0, { keySet := true, rxSeq := 4095 })] }, 0, { flit0 with seq := 4095 }, by decide +kernel⟩

theorem wit_PortsHellosAndFlits_9 : ∃ (s : State) (port : Nat) (f : Flit), s.running = true ∧ port < 16 ∧ (s.portState port = 2 ∨ s.portState port = 3) ∧ (s.port port).keySet = true ∧ (f.fecOk = false ∨ (f.tagOk = false ∧ f.corrected = true) ∨ (f.tagOk = true ∧ f.seq ≠ (s.port port).rxSeq)) ∧ (s.port port).rxDrop = false ∧ (s.port port).retries + 1 ≤ s.reg 0x801003 :=
  ⟨{ r0.setReg 0x800101 3 with ports := [(0, { keySet := true })] }, 0, { flit0 with fecOk := false }, by decide +kernel⟩

theorem wit_PortsHellosAndFlits_10 : ∃ (s : State) (port : Nat) (f : Flit), s.running = true ∧ port < 16 ∧ (s.portState port = 2 ∨ s.portState port = 3) ∧ (s.port port).keySet = true ∧ (f.fecOk = false ∨ (f.tagOk = false ∧ f.corrected = true) ∨ (f.tagOk = true ∧ f.seq ≠ (s.port port).rxSeq)) ∧ (s.port port).rxDrop = false ∧ s.reg 0x801003 < (s.port port).retries + 1 :=
  ⟨{ r0.setReg 0x800101 3 with ports := [(0, { keySet := true, retries := 99999 })] }, 0, { flit0 with seq := 1 }, by decide +kernel⟩

theorem wit_PortsHellosAndFlits_11 : ∃ (s : State) (port : Nat) (f : Flit), s.running = true ∧ port < 16 ∧ (s.portState port = 2 ∨ s.portState port = 3) ∧ (s.port port).keySet = true ∧ (f.fecOk = false ∨ (f.tagOk = false ∧ f.corrected = true) ∨ (f.tagOk = true ∧ f.seq ≠ (s.port port).rxSeq)) ∧ (s.port port).rxDrop = true :=
  ⟨{ r0.setReg 0x800101 3 with ports := [(0, { keySet := true, rxDrop := true })] }, 0, { flit0 with tagOk := false, corrected := true }, by decide +kernel⟩

theorem wit_PortsHellosAndFlits_12 : ∃ (s : State) (port seq : Nat), s.running = true ∧ port < 16 ∧ (s.portState port = 2 ∨ s.portState port = 3) :=
  ⟨r0.setReg 0x800101 3, 0, 5, by decide +kernel⟩

theorem wit_RoutesAreLearned_1 : ∃ (s : State) (port : Nat) (r h : LinkRec) (k : Nat), s.running = true ∧ port < 16 ∧ s.portState port = 3 ∧ r.origin ≠ s.node ∧ s.net.lsdb.find? (fun x => x.1.origin == r.origin) = some (h, k) ∧ h.digest = r.digest ∧ h.seq < r.seq :=
  ⟨{ r0.setReg 0x800101 3 with net := { lsdb := [(rec3, 0)] } }, 0, { rec3 with seq := 2 }, rec3, 0, by decide +kernel⟩

theorem wit_RoutesAreLearned_2 : ∃ (s : State) (port : Nat) (r : LinkRec), s.running = true ∧ port < 16 ∧ s.portState port = 3 ∧ r.origin ≠ s.node ∧ s.net.lsdb.find? (fun x => x.1.origin == r.origin) = none :=
  ⟨r0.setReg 0x800101 3, 0, rec3, by decide +kernel⟩

theorem wit_RoutesAreLearned_3 : ∃ (s : State) (port : Nat) (r h : LinkRec) (k : Nat), s.running = true ∧ port < 16 ∧ s.portState port = 3 ∧ r.origin ≠ s.node ∧ s.net.lsdb.find? (fun x => x.1.origin == r.origin) = some (h, k) ∧ h.digest = r.digest ∧ r.seq ≤ h.seq :=
  ⟨{ r0.setReg 0x800101 3 with net := { lsdb := [(rec3, 0)] } }, 0, rec3, rec3, 0, by decide +kernel⟩

theorem wit_RoutesAreLearned_4 : ∃ (s : State) (port : Nat) (r : LinkRec), s.running = true ∧ port < 16 ∧ s.portState port = 3 ∧ r.origin = s.node ∧ r.digest = s.blob 0xA00005 ∧ s.net.ownSeq ≤ r.seq :=
  ⟨r0.setReg 0x800101 3, 0, { rec3 with origin := r0.node, digest := r0.blob 0xA00005, seq := 9 }, by decide +kernel⟩

theorem wit_RoutesAreLearned_5 : ∃ (s : State), s.running = true ∧ s.net.ownTick + s.reg 0x802002 ≤ s.now :=
  ⟨sLate, by decide +kernel⟩

theorem wit_RoutesAreLearned_6 : ∃ (s : State) (x : LinkRec × Nat), s.running = true ∧ x ∈ s.net.lsdb ∧ x.2 + 4 * s.reg 0x802002 ≤ s.now :=
  ⟨{ r0.setReg 0x201002 1000000 with net := { lsdb := [(rec3, 0)] } }, (rec3, 0), by decide +kernel⟩

theorem wit_RoutesAreLearned_7 : ∃ (s : State), s.running = true ∧ s.net.dirty = true :=
  ⟨{ r0 with net := { dirty := true } }, by decide +kernel⟩

theorem wit_PacketsTravelAndBounce_1 : ∃ (s : State) (p : Packet), s.running = true ∧ p.dst = s.node ∧ p.kind ≠ 8 ∧ p.seq = s.rxTop p.src p.cls + 1 ∧ s.net.rxHeld = [] ∧ (p.roleRouted = false ∨ p.epoch = s.epoch) :=
  ⟨r0, pkt0, by decide +kernel⟩

theorem wit_PacketsTravelAndBounce_2 : ∃ (s : State) (p : Packet) (n : Nat × Nat), s.running = true ∧ p.dst = s.node ∧ p.kind ≠ 8 ∧ p.seq = s.rxTop p.src p.cls + 1 ∧ s.net.rxHeld = [] ∧ (p.roleRouted = false ∨ p.epoch = s.epoch) ∧ (∀ x ∈ s.fault.served, x.1 = n → x.2 + s.reg 0x90000B < s.ftick) :=
  ⟨r0, pkt0, (1, 2), by decide +kernel⟩

theorem wit_PacketsTravelAndBounce_3 : ∃ (s : State) (p : Packet) (n : Nat × Nat) (k : Nat), s.running = true ∧ p.dst = s.node ∧ p.kind ≠ 8 ∧ p.seq = s.rxTop p.src p.cls + 1 ∧ s.net.rxHeld = [] ∧ (p.roleRouted = false ∨ p.epoch = s.epoch) ∧ (n, k) ∈ s.fault.served ∧ s.ftick ≤ k + s.reg 0x90000B :=
  ⟨{ r0 with fault := { r0.fault with served := [((1, 2), 0)] } }, pkt0, (1, 2), 0, by decide +kernel⟩

theorem wit_PacketsTravelAndBounce_4 : ∃ (s : State) (p : Packet) (name : Option (Nat × Nat)), s.running = true ∧ p.dst = s.node ∧ p.kind ≠ 8 ∧ p.seq = s.rxTop p.src p.cls + 1 ∧ s.net.rxHeld = [] ∧ p.roleRouted = true ∧ p.epoch + 1 < s.epoch :=
  ⟨r0.setReg 0x800007 3, { pkt0 with roleRouted := true }, none, by decide +kernel⟩

theorem wit_PacketsTravelAndBounce_5 : ∃ (s : State) (p : Packet) (name : Option (Nat × Nat)), s.running = true ∧ p.dst = s.node ∧ p.kind ≠ 8 ∧ p.seq = s.rxTop p.src p.cls + 1 ∧ s.net.rxHeld = [] ∧ p.roleRouted = true ∧ s.epoch < p.epoch :=
  ⟨r0, { pkt0 with roleRouted := true, epoch := 1 }, none, by decide +kernel⟩

theorem wit_PacketsTravelAndBounce_6 : ∃ (s : State) (p : Packet) (name : Option (Nat × Nat)), s.running = true ∧ p.dst = s.node ∧ p.kind ≠ 8 ∧ s.rxTop p.src p.cls + 1 < p.seq ∧ (∀ q ∈ s.net.rxHeld, q.seq ≠ p.seq) ∧ s.net.rxHeld.length < s.reg 0x803005 :=
  ⟨r0, { pkt0 with seq := 2 }, none, by decide +kernel⟩

theorem wit_PacketsTravelAndBounce_7 : ∃ (s : State) (p : Packet) (name : Option (Nat × Nat)), s.running = true ∧ p.dst = s.node ∧ p.kind = 8 :=
  ⟨{ r0 with net := { unacked := [{ sent0 with seq := 0 }] } }, { pkt0 with kind := 8 }, none, by decide +kernel⟩

theorem wit_PacketsTravelAndBounce_8 : ∃ (s : State) (p : Packet) (name : Option (Nat × Nat)), s.running = true ∧ p.dst = s.node ∧ p.kind ≠ 8 ∧ p.seq ≤ s.rxTop p.src p.cls :=
  ⟨r0, { pkt0 with seq := 0 }, none, by decide +kernel⟩

theorem wit_PacketsTravelAndBounce_9 : ∃ (s : State) (p : Packet) (name : Option (Nat × Nat)), s.running = true ∧ p.dst ≠ s.node ∧ p.hops + 1 < s.reg 0x802001 ∧ s.usable p.dst = true :=
  ⟨sNet, { pkt0 with dst := 3 }, none, by decide +kernel⟩

theorem wit_PacketsTravelAndBounce_10 : ∃ (s : State) (p : Packet) (name : Option (Nat × Nat)), s.running = true ∧ p.dst ≠ s.node ∧ p.hops + 1 < s.reg 0x802001 ∧ s.usable p.dst = false :=
  ⟨r0, { pkt0 with dst := 3 }, none, by decide +kernel⟩

theorem wit_PacketsTravelAndBounce_11 : ∃ (s : State) (p : Packet) (name : Option (Nat × Nat)), s.running = true ∧ p.dst ≠ s.node ∧ s.reg 0x802001 ≤ p.hops + 1 :=
  ⟨r0, { pkt0 with dst := 3, hops := 64 }, none, by decide +kernel⟩

theorem wit_PacketsTravelAndBounce_12 : ∃ (s : State) (src cls : Nat), s.running = true ∧ (src, cls) ∈ s.net.owed :=
  ⟨{ r0 with net := { owed := [(3, 3)] } }, 3, 3, by decide +kernel⟩

theorem wit_PacketsTravelAndBounce_13 : ∃ (s : State) (x : Sent), s.running = true ∧ s.sentOf x.dst x.cls x.seq = some x ∧ s.opOf x = none :=
  ⟨{ r0 with net := { unacked := [sent0] } }, sent0, by decide +kernel⟩

theorem wit_PacketsTravelAndBounce_14 : ∃ (s : State) (x : Sent) (o : OpenOp), s.running = true ∧ s.sentOf x.dst x.cls x.seq = some x ∧ s.opOf x = some o ∧ s.alive x.dst = true :=
  ⟨{ sNet with net := { unacked := [sentOp], ops := [oop0] } }, sentOp, oop0, by decide +kernel⟩

theorem wit_PacketsTravelAndBounce_15 : ∃ (s : State) (x : Sent) (o : OpenOp), s.running = true ∧ s.sentOf x.dst x.cls x.seq = some x ∧ s.opOf x = some o ∧ s.alive x.dst = false :=
  ⟨{ r0 with net := { unacked := [sentOp], ops := [oop0] } }, sentOp, oop0, by decide +kernel⟩

theorem wit_PacketsTravelAndBounce_16 : ∃ (s : State) (b : Bounce) (x : Sent), s.running = true ∧ s.sentOf b.src b.cls b.seq = some x ∧ x.bounces + 1 < s.reg 0x804004 ∧ b.reason = 2 :=
  ⟨{ r0 with net := { unacked := [sent0] } }, bnc0, sent0, by decide +kernel⟩

theorem wit_PacketsTravelAndBounce_17 : ∃ (s : State) (b : Bounce) (x : Sent), s.running = true ∧ s.sentOf b.src b.cls b.seq = some x ∧ x.bounces + 1 < s.reg 0x804004 ∧ b.reason ≠ 2 ∧ x.role = false ∧ carriesData x.msg = false ∧ (b.reason ≠ 3 ∨ b.redirect = 0xFFFF) :=
  ⟨{ r0 with net := { unacked := [sent0] } }, { bnc0 with reason := 1 }, sent0, by decide +kernel⟩

theorem wit_PacketsTravelAndBounce_18 : ∃ (s : State) (b : Bounce) (x : Sent), s.running = true ∧ s.sentOf b.src b.cls b.seq = some x ∧ x.bounces + 1 < s.reg 0x804004 ∧ b.reason = 3 ∧ x.role = false ∧ carriesData x.msg = false ∧ b.redirect ≠ 0xFFFF :=
  ⟨{ r0 with net := { unacked := [sent0] } }, { bnc0 with reason := 3, redirect := 5 }, sent0, by decide +kernel⟩

theorem wit_PacketsTravelAndBounce_19 : ∃ (s : State) (b : Bounce) (x : Sent), s.running = true ∧ s.sentOf b.src b.cls b.seq = some x ∧ s.reg 0x804004 ≤ x.bounces + 1 ∧ s.opOf x = none :=
  ⟨{ r0 with net := { unacked := [{ sent0 with bounces := 64 }] } }, bnc0, { sent0 with bounces := 64 }, by decide +kernel⟩

theorem wit_PacketsTravelAndBounce_20 : ∃ (s : State) (b : Bounce) (x : Sent) (o : OpenOp), s.running = true ∧ s.sentOf b.src b.cls b.seq = some x ∧ s.reg 0x804004 ≤ x.bounces + 1 ∧ s.opOf x = some o :=
  ⟨{ r0 with net := { unacked := [{ sentOp with bounces := 64 }], ops := [oop0] } }, bnc0, { sentOp with bounces := 64 }, oop0, by decide +kernel⟩

theorem wit_PacketsTravelAndBounce_21 : ∃ (s : State) (p : Packet) (k : Nat), s.running = true ∧ s.epoch < p.epoch ∧ k + 2 ≤ s.ftick ∧ s.net.epochHeld = [(p, k)] :=
  ⟨{ r0.setReg 0x201002 2 with net := { epochHeld := [({ pkt0 with epoch := 1 }, 0)] } }, { pkt0 with epoch := 1 }, 0, by decide +kernel⟩

theorem wit_PacketsTravelAndBounce_22 : ∃ (s : State) (dst tag : Nat) (o : OpenOp), s.running = true ∧ s.net.ops.find? (fun x => x.op.tag == tag && x.op.dst == dst) = some o :=
  ⟨{ r0 with net := { ops := [oop0] } }, 3, 5, oop0, by decide +kernel⟩

theorem wit_MemoryOperationsAreIssued_1 : ∃ (s : State) (work : Nat) (engine role : Bool) (op : MemOp), s.running = true ∧ op.src = s.node ∧ (∀ o ∈ s.net.ops, o.op.tag ≠ op.tag) ∧ s.opAllowed work engine op = true ∧ s.alive op.dst = true :=
  ⟨{ sNet.setReg (pagedKey 0xA104 1) 3 with map := { entries := seqMap } }, 1, false, false, oop0.op, by decide +kernel⟩

theorem wit_MemoryOperationsAreIssued_2 : ∃ (s : State) (work : Nat) (engine role : Bool) (op : MemOp), s.running = true ∧ op.src = s.node ∧ (∀ o ∈ s.net.ops, o.op.tag ≠ op.tag) ∧ s.opAllowed work engine op = false :=
  ⟨r0, 2, false, false, oop0.op, by decide +kernel⟩

theorem wit_MemoryOperationsAreIssued_3 : ∃ (s : State) (work : Nat) (engine role : Bool) (op : MemOp), s.running = true ∧ op.src = s.node ∧ (∀ o ∈ s.net.ops, o.op.tag ≠ op.tag) ∧ s.opAllowed work engine op = true ∧ s.alive op.dst = false :=
  ⟨{ r0.setReg (pagedKey 0xA104 1) 3 with map := { entries := seqMap } }, 1, false, false, oop0.op, by decide +kernel⟩

theorem wit_MemoryOperationsAreIssued_4 : ∃ (s : State) (o : OpenOp) (data : List Byte) (status : Nat), s.running = true ∧ s.net.ops.find? (fun x => x.op.tag == o.op.tag && x.op.dst == o.op.dst) = some o ∧ o.op.op = 0 :=
  ⟨{ r0 with net := { ops := [{ oop0 with op := { oop0.op with op := 0, data := [] } }] } }, { oop0 with op := { oop0.op with op := 0, data := [] } }, [1], 0, by decide +kernel⟩

theorem wit_MemoryOperationsAreIssued_5 : ∃ (s : State) (o : OpenOp) (data : List Byte) (status : Nat), s.running = true ∧ s.net.ops.find? (fun x => x.op.tag == o.op.tag && x.op.dst == o.op.dst) = some o ∧ o.op.op = 8 :=
  ⟨{ r0 with net := { ops := [oop0] } }, oop0, [], 1, by decide +kernel⟩

theorem wit_MemoryOperationsAreIssued_6 : ∃ (s : State) (o : OpenOp) (data : List Byte) (status : Nat), s.running = true ∧ s.net.ops.find? (fun x => x.op.tag == o.op.tag && x.op.dst == o.op.dst) = some o ∧ 1 ≤ o.op.op ∧ o.op.op ≤ 4 :=
  ⟨{ r0 with net := { ops := [{ oop0 with op := { oop0.op with op := 1 } }] } }, { oop0 with op := { oop0.op with op := 1 } }, [1], 0, by decide +kernel⟩

theorem wit_MemoryOperationsAreIssued_7 : ∃ (s : State) (src tag status : Nat) (data : List Byte), s.running = true ∧ (∀ o ∈ s.net.ops, o.op.tag ≠ tag) :=
  ⟨r0, 3, 5, 0, [], by decide +kernel⟩

theorem wit_MemoryOperationsAtTheTarget_1 : ∃ (s : State) (op : MemOp) (bad again : Bool) (i : Instr), s.running = true ∧ op.dst = s.node ∧ opRow op bad again = some i ∧ op.system = false ∧ s.bindingDiffers op.tenant s.node = true :=
  ⟨{ (r0.setReg (pagedKey 0xA104 1) 3).setReg (pagedKey 0xA10C 1) 7 with map := { entries := [me 2 1 0 0 0 0xFFFF 0xFFFF 1] } }, mop0, false, false, .store mop0, by decide +kernel⟩

theorem wit_MemoryOperationsAtTheTarget_2 : ∃ (s : State) (op : MemOp) (bad again : Bool) (i : Instr), s.running = true ∧ op.dst = s.node ∧ opRow op bad again = some i ∧ (op.system = true ∨ s.bindingDiffers op.tenant s.node = false) ∧ s.rangeMoving (opSpace op) op.addr op.size = false ∧ (s.inService (opSpace op) = false ∨ s.owned (opSpace op) op.addr op.size = false) :=
  ⟨r0, mop0, false, false, .store mop0, by decide +kernel⟩

theorem wit_MemoryOperationsAtTheTarget_3 : ∃ (s : State) (op : MemOp) (i : Instr), s.running = true ∧ op.dst = s.node ∧ opRow op false false = some i ∧ op.op ≠ 0 ∧ (op.system = true ∨ s.bindingDiffers op.tenant s.node = false) ∧ s.owned (opSpace op) op.addr op.size = true ∧ s.rangeMoving (opSpace op) op.addr op.size = true :=
  ⟨{ sPage with tier := { sPage.tier with pages := [{ page0 with inMove := true }] } }, mop0, .store mop0, by decide +kernel⟩

theorem wit_MemoryOperationsAtTheTarget_4 : ∃ (s : State) (op : MemOp) (bad again : Bool), s.running = true ∧ op.dst = s.node ∧ op.op = 0 ∧ (op.system = true ∨ s.bindingDiffers op.tenant s.node = false) ∧ s.inService (opSpace op) = true ∧ s.owned (opSpace op) op.addr op.size = true ∧ (s.poisoned (opSpace op) op.addr op.size = true ∨ (bad = true ∧ again = true)) :=
  ⟨sPage, { mop0 with op := 0 }, true, true, by decide +kernel⟩

theorem wit_MemoryOperationsAtTheTarget_5 : ∃ (s : State) (op : MemOp) (bad again : Bool), s.running = true ∧ op.dst = s.node ∧ op.op = 0 ∧ (op.system = true ∨ s.bindingDiffers op.tenant s.node = false) ∧ s.inService (opSpace op) = true ∧ s.owned (opSpace op) op.addr op.size = true ∧ s.poisoned (opSpace op) op.addr op.size = false ∧ (bad = false ∨ again = false) :=
  ⟨sPage, { mop0 with op := 0 }, true, false, by decide +kernel⟩

theorem wit_MemoryOperationsAtTheTarget_6 : ∃ (s : State) (op : MemOp), s.running = true ∧ s.memOk = true ∧ op.dst = s.node ∧ (op.system = true ∨ s.bindingDiffers op.tenant s.node = false) ∧ s.inService (opSpace op) = true ∧ 0 < op.size ∧ s.owned (opSpace op) op.addr op.size = true ∧ s.rangeMoving (opSpace op) op.addr op.size = false ∧ s.poisoned (opSpace op) op.addr op.size = false ∧ s.rangeFailed (opSpace op) op.addr op.size = false ∧ op.op = 8 ∧ op.data.length = op.size :=
  ⟨sPage, mop0, by decide +kernel⟩

theorem wit_MemoryOperationsAtTheTarget_7 : ∃ (s : State) (op : MemOp), s.running = true ∧ s.memOk = true ∧ op.dst = s.node ∧ (op.system = true ∨ s.bindingDiffers op.tenant s.node = false) ∧ s.inService (opSpace op) = true ∧ 0 < op.size ∧ s.owned (opSpace op) op.addr op.size = true ∧ s.rangeMoving (opSpace op) op.addr op.size = false ∧ s.poisoned (opSpace op) op.addr op.size = false ∧ s.rangeFailed (opSpace op) op.addr op.size = false ∧ op.op = 1 ∧ op.size = 8 :=
  ⟨sPage, { mop0 with op := 1 }, by decide +kernel⟩

theorem wit_MemoryOperationsAtTheTarget_8 : ∃ (s : State) (op : MemOp), s.running = true ∧ s.memOk = true ∧ op.dst = s.node ∧ (op.system = true ∨ s.bindingDiffers op.tenant s.node = false) ∧ s.inService (opSpace op) = true ∧ 0 < op.size ∧ s.owned (opSpace op) op.addr op.size = true ∧ s.rangeMoving (opSpace op) op.addr op.size = false ∧ s.poisoned (opSpace op) op.addr op.size = false ∧ s.rangeFailed (opSpace op) op.addr op.size = false ∧ op.op = 2 ∧ op.data.length = 2 * op.size :=
  ⟨sPage, { mop0 with op := 2, data := List.replicate 16 1 }, by decide +kernel⟩

theorem wit_MemoryOperationsAtTheTarget_9 : ∃ (s : State) (op : MemOp), s.running = true ∧ s.memOk = true ∧ op.dst = s.node ∧ (op.system = true ∨ s.bindingDiffers op.tenant s.node = false) ∧ s.inService (opSpace op) = true ∧ 0 < op.size ∧ s.owned (opSpace op) op.addr op.size = true ∧ s.rangeMoving (opSpace op) op.addr op.size = false ∧ s.poisoned (opSpace op) op.addr op.size = false ∧ s.rangeFailed (opSpace op) op.addr op.size = false ∧ op.op = 3 ∧ op.ty ≤ 1 ∧ op.data.length = op.size :=
  ⟨sPage, { mop0 with op := 3, ty := 1 }, by decide +kernel⟩

theorem wit_MemoryOperationsAtTheTarget_10 : ∃ (s : State) (op : MemOp), s.running = true ∧ s.memOk = true ∧ op.dst = s.node ∧ (op.system = true ∨ s.bindingDiffers op.tenant s.node = false) ∧ s.inService (opSpace op) = true ∧ 0 < op.size ∧ s.owned (opSpace op) op.addr op.size = true ∧ s.rangeMoving (opSpace op) op.addr op.size = false ∧ s.poisoned (opSpace op) op.addr op.size = false ∧ s.rangeFailed (opSpace op) op.addr op.size = false ∧ op.op = 4 ∧ op.ty ≤ 1 ∧ op.data.length = op.size :=
  ⟨sPage, { mop0 with op := 4 }, by decide +kernel⟩

theorem wit_MemoryOperationsAtTheTarget_11 : ∃ (s : State) (op : MemOp), s.running = true ∧ s.memOk = true ∧ op.dst = s.node ∧ (op.system = true ∨ s.bindingDiffers op.tenant s.node = false) ∧ s.inService (opSpace op) = true ∧ 0 < op.size ∧ s.owned (opSpace op) op.addr op.size = true ∧ s.rangeMoving (opSpace op) op.addr op.size = false ∧ s.poisoned (opSpace op) op.addr op.size = false ∧ s.rangeFailed (opSpace op) op.addr op.size = false ∧ (op.op = 3 ∨ op.op = 4) ∧ op.ty = 2 ∧ op.data.length = op.size ∧ isNaN (entryOfBytes op.data).score = true :=
  ⟨sPage, { mop0 with op := 3, ty := 2, size := 16, data := [0, 0, 0, 0, 0, 0, 0, 0, 0, 0, 0xC0, 0x7F, 0, 0, 0, 0] }, by decide +kernel⟩

theorem wit_MemoryOperationsAtTheTarget_12 : ∃ (s : State) (op : MemOp), s.running = true ∧ s.memOk = true ∧ op.dst = s.node ∧ (op.system = true ∨ s.bindingDiffers op.tenant s.node = false) ∧ s.inService (opSpace op) = true ∧ 0 < op.size ∧ s.owned (opSpace op) op.addr op.size = true ∧ s.rangeMoving (opSpace op) op.addr op.size = false ∧ s.poisoned (opSpace op) op.addr op.size = false ∧ s.rangeFailed (opSpace op) op.addr op.size = false ∧ (op.op = 3 ∨ op.op = 4) ∧ op.ty = 2 ∧ op.data.length = op.size ∧ isNaN (entryOfBytes op.data).score = false :=
  ⟨sPage, { mop0 with op := 4, ty := 2, size := 16, data := List.replicate 16 1 }, by decide +kernel⟩

theorem wit_MapChangesAreAgreed_1 : ∃ (s : State) (c : MapChange), s.running = true ∧ s.changeFault { c with origin := 0 } = 0 :=
  ⟨r0, chg0, by decide +kernel⟩

theorem wit_MapChangesAreAgreed_2 : ∃ (s : State) (c : MapChange) (f : Nat), s.running = true ∧ s.changeFault { c with origin := 0 } = f ∧ f ≠ 0 :=
  ⟨r0, { chg0 with epoch := 2 }, 2, by decide +kernel⟩

theorem wit_MapChangesAreAgreed_3 : ∃ (s : State) (src : Nat) (c : MapChange), s.running = true ∧ src ≠ s.node ∧ c.epoch = s.epoch + 1 ∧ s.ftick < c.eff ∧ s.map.pending = none ∧ mapDigest (applyChange s.map.entries c.entries) = c.digest :=
  ⟨r0, 3, { chg0 with digest := mapDigest [] }, by decide +kernel⟩

theorem wit_MapChangesAreAgreed_4 : ∃ (s : State) (src : Nat) (c : MapChange), s.running = true ∧ src ≠ s.node ∧ s.epoch + 1 < c.epoch ∧ s.ftick < c.eff ∧ s.map.pending = none ∧ (∀ d ∈ s.map.later, d.epoch ≠ c.epoch) :=
  ⟨r0, 3, { chg0 with epoch := 2 }, by decide +kernel⟩

theorem wit_MapChangesAreAgreed_5 : ∃ (s : State) (src : Nat) (c : MapChange), s.running = true ∧ c.epoch = s.epoch + 1 ∧ s.ftick < c.eff ∧ s.map.pending = none ∧ mapDigest (applyChange s.map.entries c.entries) ≠ c.digest :=
  ⟨r0, 3, { chg0 with digest := mapDigest [] + 1 }, by decide +kernel⟩

theorem wit_MapChangesAreAgreed_6 : ∃ (s : State) (src : Nat) (c : MapChange), s.running = true ∧ src ≠ s.node ∧ c.epoch ≤ s.epoch ∧ (c.entries ≠ [] ∨ c.eff ≠ 0) :=
  ⟨r0, 3, { chg0 with epoch := 0 }, by decide +kernel⟩

theorem wit_MapChangesAreAgreed_7 : ∃ (s : State) (src : Nat) (c : MapChange), s.running = true ∧ s.epoch < c.epoch ∧ c.eff ≤ s.ftick ∧ (c.entries ≠ [] ∨ c.eff ≠ 0) ∧ s.reg 0x200104 ≠ 4 :=
  ⟨r0.setReg 0x201002 100000, 3, chg0, by decide +kernel⟩

theorem wit_MapChangesAreAgreed_8 : ∃ (s : State) (src : Nat) (c p : MapChange), s.running = true ∧ c.eff = 0 ∧ c.entries = [] ∧ s.map.pending = some p ∧ p.epoch = c.epoch ∧ p.origin = c.origin :=
  ⟨{ r0 with map := { pending := some chg0 } }, 3, { chg0 with eff := 0 }, chg0, by decide +kernel⟩

theorem wit_MapChangesAreAgreed_9 : ∃ (s : State) (src : Nat) (c : MapChange), s.running = true ∧ s.map.pending = some c ∧ s.map.own = true ∧ src ∈ s.map.need ∧ src ∉ s.map.acks :=
  ⟨{ r0 with map := { pending := some chg0, own := true, need := [3] } }, 3, chg0, by decide +kernel⟩

theorem wit_MapChangesAreAgreed_10 : ∃ (s : State) (c : MapChange) (n : Nat), s.running = true ∧ s.map.pending = some c ∧ s.map.own = true ∧ c.origin = 0 ∧ c.eff ≤ s.ftick + s.reg 0x804003 ∧ n ∈ s.map.need ∧ n ∉ s.map.acks ∧ n ≠ s.node :=
  ⟨{ sLate.setReg 0x201002 100000 with map := { pending := some chg0, own := true, need := [3] } }, chg0, 3, by decide +kernel⟩

theorem wit_MapChangesAreAgreed_11 : ∃ (s : State) (src : Nat), s.running = true ∧ src ≠ s.node ∧ s.alive src = true :=
  ⟨sNet, 3, by decide +kernel⟩

theorem wit_MapChangesAreAgreed_12 : ∃ (s : State) (src : Nat) (c : MapChange), s.running = true ∧ (s.map.fetching = true ∨ s.epoch < c.epoch) ∧ s.epoch ≤ c.epoch ∧ s.alive src = true ∧ mapDigest (applyChange [] c.entries) = c.digest :=
  ⟨{ sNet with map := { fetching := true } }, 3, { chg0 with digest := mapDigest [] }, by decide +kernel⟩

theorem wit_CasesAreOpenedAndVoted_1 : ∃ (s : State) (f : FaultMsg) (i : Nat), s.running = true ∧ f.subtype = 1 ∧ f ∉ s.fault.seen ∧ i < 4 ∧ (s.deciders f.node)[i]? = some s.node ∧ (∀ j < i, (s.deciders f.node)[j]? ≠ some s.node) ∧ (∀ c ∈ s.fault.cases, c.node ≠ f.node) :=
  ⟨r0, fm0, 0, by decide +kernel⟩

theorem wit_CasesAreOpenedAndVoted_2 : ∃ (s : State) (f : FaultMsg), s.running = true ∧ f.subtype = 1 ∧ f ∉ s.fault.seen ∧ (∀ i < 4, (s.deciders f.node)[i]? ≠ some s.node) ∨ s.fault.cases.any (fun c => c.role != 2 && c.node == f.node && c.partKind == f.partKind && c.partNo == f.partNo && c.st < 3) = true :=
  ⟨r0, { fm0 with node := 0 }, by decide +kernel⟩

theorem wit_CasesAreOpenedAndVoted_3 : ∃ (s : State) (f : FaultMsg), s.running = true ∧ f ∈ s.fault.seen :=
  ⟨{ r0 with fault := { seen := [fm0] } }, fm0, by decide +kernel⟩

theorem wit_CasesAreOpenedAndVoted_4 : ∃ (s : State) (c : Case), s.running = true ∧ s.fault.cases = [c] ∧ c.role = 0 ∧ c.st = 0 ∧ c.s + 1 ≤ s.ftick ∧ evidence c.code = false :=
  ⟨{ sLate with fault := { cases := [cs0] } }, cs0, by decide +kernel⟩

theorem wit_CasesAreOpenedAndVoted_5 : ∃ (s : State) (c : Case), s.running = true ∧ s.fault.cases = [c] ∧ c.role = 0 ∧ c.st = 0 ∧ c.s + 1 ≤ s.ftick ∧ evidence c.code = true :=
  ⟨{ sLate with fault := { cases := [{ cs0 with code := 5 }] } }, { cs0 with code := 5 }, by decide +kernel⟩

theorem wit_CasesAreOpenedAndVoted_6 : ∃ (s : State) (c : Case), s.running = true ∧ s.fault.cases = [c] ∧ c.role = 1 ∧ c.st = 0 ∧ c.s + 2 + 4 * c.rank ≤ s.ftick ∧ evidence c.code = false :=
  ⟨{ sLate with fault := { cases := [{ cs0 with role := 1, rank := 1 }] } }, { cs0 with role := 1, rank := 1 }, by decide +kernel⟩

theorem wit_CasesAreOpenedAndVoted_7 : ∃ (s : State) (c : Case), s.running = true ∧ s.fault.cases = [c] ∧ c.role = 1 ∧ c.st = 0 ∧ c.s + 2 + 4 * c.rank ≤ s.ftick ∧ evidence c.code = true :=
  ⟨{ sLate with fault := { cases := [{ cs0 with role := 1, rank := 1, code := 5 }] } }, { cs0 with role := 1, rank := 1, code := 5 }, by decide +kernel⟩

theorem wit_CasesAreOpenedAndVoted_8 : ∃ (s : State) (f : FaultMsg), s.running = true ∧ f.subtype = 2 ∧ f ∉ s.fault.seen ∧ (∀ c ∈ s.fault.cases, c.num ≠ f.case) :=
  ⟨r0, { fm0 with subtype := 2 }, by decide +kernel⟩

theorem wit_CasesAreOpenedAndVoted_9 : ∃ (s : State) (c : Case), s.running = true ∧ s.fault.cases = [c] ∧ c.role = 2 ∧ c.st = 1 ∧ c.node ≠ s.node :=
  ⟨{ r0 with fault := { cases := [{ cs0 with role := 2, st := 1 }] } }, { cs0 with role := 2, st := 1 }, by decide +kernel⟩

theorem wit_CasesAreOpenedAndVoted_10 : ∃ (s : State) (f : FaultMsg), s.running = true ∧ f.subtype = 3 ∧ f.node = s.node ∧ f.sender ≠ s.node :=
  ⟨r0, { fm0 with subtype := 3, node := 0 }, by decide +kernel⟩

theorem wit_CasesAreOpenedAndVoted_11 : ∃ (s : State) (f : FaultMsg) (c : Case), s.running = true ∧ f.subtype = 4 ∧ f.sender = f.node ∧ s.fault.cases = [c] ∧ c.num = f.case ∧ c.role = 2 ∧ c.st = 1 :=
  ⟨{ r0 with fault := { cases := [{ cs0 with role := 2, st := 1 }] } }, { fm0 with subtype := 4 }, { cs0 with role := 2, st := 1 }, by decide +kernel⟩

theorem wit_CasesAreOpenedAndVoted_12 : ∃ (s : State) (f : FaultMsg) (c : Case), s.running = true ∧ f.subtype = 5 ∧ s.fault.cases = [c] ∧ c.num = f.case ∧ c.role = 0 ∧ c.st = 1 ∧ f.sender ∈ c.witnesses ∧ (∀ v ∈ c.votes, v.1 ≠ f.sender) :=
  ⟨{ r0 with fault := { cases := [{ cs0 with st := 1, witnesses := [3] }] } }, { fm0 with subtype := 5 }, { cs0 with st := 1, witnesses := [3] }, by decide +kernel⟩

theorem wit_CasesAreOpenedAndVoted_13 : ∃ (s : State) (c : Case), s.running = true ∧ s.fault.cases = [c] ∧ c.role = 0 ∧ c.st = 1 ∧ votesTick c ≤ s.ftick :=
  ⟨{ sLate with fault := { cases := [{ cs0 with st := 1, witnesses := [3] }] } }, { cs0 with st := 1, witnesses := [3] }, by decide +kernel⟩

theorem wit_CasesAreDecided_1 : ∃ (s : State) (c : Case), s.running = true ∧ s.fault.cases = [c] ∧ c.role = 0 ∧ c.st = 2 ∧ decideTick c ≤ s.ftick :=
  ⟨{ sLate with fault := { cases := [{ cs0 with st := 2 }] } }, { cs0 with st := 2 }, by decide +kernel⟩

theorem wit_CasesAreDecided_2 : ∃ (s : State) (f : FaultMsg) (g : Option MapChange), s.running = true ∧ f.subtype = 6 ∧ f ∉ s.fault.seen ∧ (f.verdict ≠ 3 ∨ f.node ≠ s.node) ∧ s.ftick < f.d ∧ f.sender ≠ s.node :=
  ⟨r0, { fm0 with subtype := 6, verdict := 1, d := 1 }, none, by decide +kernel⟩

theorem wit_CasesAreDecided_3 : ∃ (s : State) (f : FaultMsg) (c : MapChange), s.running = true ∧ f.subtype = 6 ∧ f ∉ s.fault.seen ∧ (f.verdict ≠ 3 ∨ f.node ≠ s.node) ∧ s.ftick < f.d ∧ c.epoch = s.epoch + 1 ∧ s.ftick < c.eff ∧ s.map.pending = none ∧ mapDigest (applyChange s.map.entries c.entries) = c.digest :=
  ⟨r0, { fm0 with subtype := 6, verdict := 1, d := 1 }, { chg0 with digest := mapDigest [] }, by decide +kernel⟩

theorem wit_CasesAreDecided_4 : ∃ (s : State) (f : FaultMsg) (g : Option MapChange), s.running = true ∧ f.subtype = 6 ∧ f ∉ s.fault.seen ∧ f.verdict = 3 ∧ f.node = s.node ∧ s.pwr.seqRank = 0 :=
  ⟨r0, { fm0 with subtype := 6, verdict := 3, node := 0 }, none, by decide +kernel⟩

theorem wit_CasesAreDecided_5 : ∃ (s : State) (f : FaultMsg) (g : Option MapChange), s.running = true ∧ f.subtype = 6 ∧ f ∉ s.fault.seen ∧ (f.verdict ≠ 3 ∨ f.node ≠ s.node) ∧ f.d ≤ s.ftick :=
  ⟨r0, { fm0 with subtype := 6, verdict := 1 }, none, by decide +kernel⟩

theorem wit_CasesAreDecided_6 : ∃ (s : State) (f : FaultMsg) (c : Case), s.running = true ∧ f.subtype = 7 ∧ s.fault.cases = [c] ∧ c.num = f.case ∧ c.role = 0 ∧ c.st = 3 ∧ f.sender ∈ c.need ∧ f.sender ∉ c.acks :=
  ⟨{ r0 with fault := { cases := [{ cs0 with st := 3, need := [3] }] } }, { fm0 with subtype := 7 }, { cs0 with st := 3, need := [3] }, by decide +kernel⟩

theorem wit_CasesAreDecided_7 : ∃ (s : State) (f : FaultMsg) (k : List Byte), s.running = true ∧ s.sec.mgmtKey = some k ∧ f.sender ≠ s.node ∧ f.subtype = 1 :=
  ⟨{ r0 with sec := { mgmtKey := some [1] } }, { fm0 with subtype := 1 }, [1], by decide +kernel⟩

theorem wit_CasesAreDecided_8 : ∃ (s : State) (f : FaultMsg) (k : List Byte), s.running = true ∧ s.sec.mgmtKey = some k ∧ f.sender ≠ s.node ∧ f.subtype = 2 :=
  ⟨{ r0 with sec := { mgmtKey := some [1] } }, { fm0 with subtype := 2 }, [1], by decide +kernel⟩

theorem wit_CasesAreDecided_9 : ∃ (s : State) (f : FaultMsg) (k : List Byte), s.running = true ∧ s.sec.mgmtKey = some k ∧ f.sender ≠ s.node ∧ f.subtype = 5 :=
  ⟨{ r0 with sec := { mgmtKey := some [1] } }, { fm0 with subtype := 5 }, [1], by decide +kernel⟩

theorem wit_CasesAreDecided_10 : ∃ (s : State) (f : FaultMsg) (k : List Byte), s.running = true ∧ s.sec.mgmtKey = some k ∧ f.sender ≠ s.node ∧ f.subtype = 6 :=
  ⟨{ r0 with sec := { mgmtKey := some [1] } }, { fm0 with subtype := 6 }, [1], by decide +kernel⟩

theorem wit_CasesAreDecided_11 : ∃ (s : State) (f : FaultMsg) (k : List Byte), s.running = true ∧ s.sec.mgmtKey = some k ∧ f.sender ≠ s.node ∧ f.subtype = 7 :=
  ⟨{ r0 with sec := { mgmtKey := some [1] } }, { fm0 with subtype := 7 }, [1], by decide +kernel⟩

theorem wit_CasesAreDecided_12 : ∃ (s : State) (f : FaultMsg) (k : List Byte), s.running = true ∧ s.sec.mgmtKey = some k ∧ f.sender ≠ s.node ∧ f.subtype = 3 ∧ f.node = s.node :=
  ⟨{ r0 with sec := { mgmtKey := some [1] } }, { fm0 with subtype := 3, node := 0 }, [1], by decide +kernel⟩

theorem wit_CasesAreDecided_13 : ∃ (s : State) (f : FaultMsg) (k : List Byte) (c : Case), s.running = true ∧ s.sec.mgmtKey = some k ∧ f.sender ≠ s.node ∧ f.subtype = 4 ∧ f.sender = f.node ∧ s.fault.cases = [c] ∧ c.num = f.case ∧ c.role = 0 ∧ c.st < 3 :=
  ⟨{ r0 with sec := { mgmtKey := some [1] }, fault := { cases := [cs0] } }, { fm0 with subtype := 4 }, [1], cs0, by decide +kernel⟩

theorem wit_CasesAreDecided_14 : ∃ (s : State) (f : FaultMsg) (k mac : List Byte), s.running = true ∧ s.sec.mgmtKey = some k ∧ s.sec.mgmtOld = none ∧ s.sec.mgmtNext = none ∧ Config.hmac k (faultBytes f) ≠ mac :=
  ⟨{ r0 with sec := { mgmtKey := some [1] } }, fm0, [1], 0 :: Config.hmac [1] (faultBytes fm0), by exact ⟨by decide +kernel, rfl, rfl, rfl, fun h => List.cons_ne_self _ _ h.symm⟩⟩

theorem wit_ScoresDrainsAndRespares_1 : ∃ (s : State), s.running = true ∧ s.fault.windowStart + s.reg 0x902001 ≤ s.ftick :=
  ⟨sLate.setReg 0x201002 1000000000, by decide +kernel⟩

theorem wit_ScoresDrainsAndRespares_2 : ∃ (s : State) (tray : Nat) (e : MapEntry), s.running = true ∧ tray < 65536 ∧ s.map.entries.find? (fun e => e.kind == 1 && e.object == tray) = some e :=
  ⟨{ r0 with map := { entries := [me 1 0 7 0 3 0 0 5] } }, 7, me 1 0 7 0 3 0 0 5, by decide +kernel⟩

theorem wit_ScoresDrainsAndRespares_3 : ∃ (s : State) (x : Idx) (r : Respare) (h : Thatch), s.running = true ∧ s.findIdx r.tenant r.index = some x ∧ h ∈ x.thatches ∧ h.im.shard = r.shard ∧ h.st = 1 ∧ r ∈ s.fault.respares ∧ r.y = s.node ∧ r.restore = false :=
  ⟨{ r0 with idx := [{ idx0 with thatches := [{ th0 with st := 1 }] }], fault := { respares := [rsp0] } }, { idx0 with thatches := [{ th0 with st := 1 }] }, rsp0, { th0 with st := 1 }, by decide +kernel⟩

theorem wit_ScoresDrainsAndRespares_4 : ∃ (s : State) (f : FaultMsg) (e : MapEntry), s.running = true ∧ f.subtype = 10 ∧ f ∉ s.fault.seen ∧ s.map.pending = none ∧ s.map.later = [] ∧ idxShard s.map.entries e.tenant e.object e.shard = some e ∧ e.a ≠ 0xFFFF ∧ e.b = 0xFFFF ∧ nodeState s.map.entries e.a = 1 ∧ f.sender ≠ e.a ∧ f.sender ≠ 0xFFFF ∧ (s.deciders f.sender).head? = some s.node :=
  ⟨{ r0 with map := { entries := [me 1 0 7 0 5 0 0 5, me 4 1 2 0 5 0xFFFF 0xFFFF 0] } }, { fm0 with subtype := 10 }, me 4 1 2 0 5 0xFFFF 0xFFFF 0, by decide +kernel⟩

theorem wit_ScoresDrainsAndRespares_5 : ∃ (s : State) (f : FaultMsg) (e : MapEntry), s.running = true ∧ f.subtype = 10 ∧ f ∉ s.fault.seen ∧ s.map.pending = none ∧ s.map.later = [] ∧ idxShard s.map.entries e.tenant e.object e.shard = some e ∧ e.a ≠ 0xFFFF ∧ e.b = 0xFFFF ∧ nodeState s.map.entries e.a ≠ 1 ∧ f.sender ≠ e.a ∧ f.sender ≠ 0xFFFF ∧ (s.deciders f.sender).head? = some s.node :=
  ⟨{ r0 with map := { entries := [me 1 0 7 0 5 0 0 9, me 4 1 2 0 5 0xFFFF 0xFFFF 0] } }, { fm0 with subtype := 10 }, me 4 1 2 0 5 0xFFFF 0xFFFF 0, by decide +kernel⟩

theorem wit_ScoresDrainsAndRespares_6 : ∃ (s : State) (x : Idx) (r : Respare) (im : Image), s.running = true ∧ r ∈ s.fault.respares ∧ r.y = s.node ∧ r.restore = true ∧ s.findIdx r.tenant r.index = some x ∧ im.shard = r.shard ∧ im.digest = Config.sha256 (imageBody im) ∧ x.pendSeals = [] ∧ x.seqr.waitUpd = [] :=
  ⟨{ sIdx with fault := { respares := [{ rsp0 with restore := true }] } }, idx0, { rsp0 with restore := true }, { im0 with digest := Config.sha256 (imageBody im0) }, by refine ⟨?_, ?_, ?_, ?_, ?_, ?_, rfl, ?_, ?_⟩ <;> decide +kernel⟩

theorem wit_ScoresDrainsAndRespares_7 : ∃ (s : State) (x : Idx) (r : Respare) (im : Image), s.running = true ∧ r ∈ s.fault.respares ∧ r.y = s.node ∧ r.restore = true ∧ s.findIdx r.tenant r.index = some x ∧ (im.shard ≠ r.shard ∨ im.digest ≠ Config.sha256 (imageBody im)) ∧ (r.tenant, r.index, r.shard) ∉ s.fault.lost :=
  ⟨{ sIdx with fault := { respares := [{ rsp0 with restore := true }] } }, idx0, { rsp0 with restore := true }, { im0 with shard := 1 }, by refine ⟨?_, ?_, ?_, ?_, ?_, Or.inl (by decide +kernel), ?_⟩ <;> decide +kernel⟩

theorem wit_ScoresDrainsAndRespares_8 : ∃ (s : State) (x : Idx) (r : Respare), s.running = true ∧ r ∈ s.fault.respares ∧ r.y = s.node ∧ r.restore = true ∧ s.findIdx r.tenant r.index = some x ∧ (r.tenant, r.index, r.shard) ∉ s.fault.lost :=
  ⟨{ sIdx with fault := { respares := [{ rsp0 with restore := true }] } }, idx0, { rsp0 with restore := true }, by decide +kernel⟩

theorem wit_OwnersAreAsked_1 : ∃ (s : State) (l : LogReq) (p : Nat), s.running = true ∧ s.fault.log = [l] ∧ l.moved = some p ∧ l.asked = false ∧ p + s.reg 0x900007 ≤ s.ftick ∧ l.dst ≠ s.node :=
  ⟨{ sLate with fault := { log := [{ log0 with moved := some 0 }] } }, { log0 with moved := some 0 }, 0, by decide +kernel⟩

theorem wit_OwnersAreAsked_2 : ∃ (s : State) (f : FaultMsg) (kind tenant object : Nat) (name : Nat × Nat), s.running = true ∧ f.subtype = 8 ∧ f.sender ≠ s.node ∧ s.holdsRequest f.sender kind tenant object name = false :=
  ⟨r0, { fm0 with subtype := 8 }, 0, 1, 2, (3, 1), by decide +kernel⟩

theorem wit_OwnersAreAsked_3 : ∃ (s : State) (f : FaultMsg) (kind tenant object tag : Nat) (name : Nat × Nat), s.running = true ∧ f.subtype = 8 ∧ f.sender ≠ s.node ∧ s.holdsRequest f.sender kind tenant object name = true ∧ s.fault.tags.find? (fun x => x.1 == kind && x.2.1 == tenant && x.2.2.1 == object) = some (kind, tenant, object, tag) :=
  ⟨{ r0 with fault := { served := [((3, 1), 0)], tags := [(0, 1, 2, 7)] } }, { fm0 with subtype := 8 }, 0, 1, 2, 7, (3, 1), by decide +kernel⟩

theorem wit_OwnersAreAsked_4 : ∃ (s : State) (l : LogReq) (src tag : Nat), s.running = true ∧ s.fault.log = [l] ∧ l.asked = true ∧ l.oldDst ≠ l.dst ∧ l.answers = [] ∧ (src = l.oldDst ∨ src = l.dst) ∧ s.hasFailed (if src = l.dst then l.oldDst else l.dst) = false :=
  ⟨{ r0 with fault := { log := [{ log0 with asked := true }] } }, { log0 with asked := true }, 5, 7, by decide +kernel⟩

theorem wit_OwnersAreAsked_5 : ∃ (s : State) (l : LogReq) (tag old : Nat), s.running = true ∧ s.fault.log = [l] ∧ l.asked = true ∧ l.oldDst ≠ l.dst ∧ l.answers = [(l.oldDst, old)] ∧ old ≠ 0 ∧ tag ≠ 0 ∧ old / 2 ^ 32 ≠ tag / 2 ^ 32 :=
  ⟨{ r0 with fault := { log := [{ log0 with asked := true, answers := [(5, 7)] }] } }, { log0 with asked := true, answers := [(5, 7)] }, 4294967303, 7, by decide +kernel⟩

theorem wit_OwnersAreAsked_6 : ∃ (s : State) (l : LogReq) (tag old : Nat), s.running = true ∧ s.fault.log = [l] ∧ l.asked = true ∧ l.oldDst ≠ l.dst ∧ l.answers = [(l.oldDst, old)] ∧ old ≠ 0 ∧ tag ≠ 0 ∧ old / 2 ^ 32 = tag / 2 ^ 32 ∧ field old 31 20 ≠ field tag 31 20 :=
  ⟨{ r0 with fault := { log := [{ log0 with asked := true, answers := [(5, 7)] }] } }, { log0 with asked := true, answers := [(5, 7)] }, 1048576, 7, by decide +kernel⟩

theorem wit_OwnersAreAsked_7 : ∃ (s : State) (l : LogReq) (tag : Nat), s.running = true ∧ s.fault.log = [l] ∧ l.asked = true ∧ l.oldDst ≠ l.dst ∧ l.answers = [(l.oldDst, tag)] ∧ tag ≠ 0 :=
  ⟨{ r0 with fault := { log := [{ log0 with asked := true, answers := [(5, 7)] }] } }, { log0 with asked := true, answers := [(5, 7)] }, 7, by decide +kernel⟩

theorem wit_OwnersAreAsked_8 : ∃ (s : State) (l : LogReq) (u : UpdReq), s.running = true ∧ s.fault.log = [l] ∧ l.asked = true ∧ l.oldDst ≠ l.dst ∧ l.answers = [(l.oldDst, 0)] ∧ l.msg = .update u ∧ l.dst ≠ s.node :=
  ⟨{ r0 with fault := { log := [{ log0 with asked := true, answers := [(5, 0)] }] } }, { log0 with asked := true, answers := [(5, 0)] }, ureq0, by decide +kernel⟩

theorem wit_TheHostLinkServes_1 : ∃ (s : State) (m : Nat) (rep : Bool), s.running = true ∧ m < 4 ∧ s.reg (0xC00101 + m) ≠ 3 ∧ s.link.error = false ∧ s.reg 0xC00009 ≤ (s.ucie m).fails + 1 :=
  ⟨r0.setReg 0xC00009 1, 3, false, by decide +kernel⟩

theorem wit_TheHostLinkServes_2 : ∃ (s : State) (m : Nat) (rep : Bool), s.running = true ∧ m < s.link.modules.length ∧ m < 4 ∧ s.reg (0xC00101 + m) ≠ 3 ∧ s.link.error = false ∧ (s.ucie m).fails + 1 < s.reg 0xC00009 :=
  ⟨r0.setReg 0xC00009 3, 0, true, by decide +kernel⟩

theorem wit_TheHostLinkServes_3 : ∃ (s : State) (m : Nat) (ok : Bool) (f : HostFlit), s.running = true ∧ s.moduleUp m = true ∧ m < s.link.modules.length ∧ ok = true ∧ f.ty = 1 ∧ f.seq % 4096 = (s.ucie m).rxSeq :=
  ⟨{ r0 with link := { modules := [{ rxSeq := 4095 }, {}, {}, {}] } }, 0, true, ⟨1, 4095, 0⟩, by decide +kernel⟩

theorem wit_TheHostLinkServes_4 : ∃ (s : State) (m : Nat) (ok : Bool) (f : HostFlit), s.running = true ∧ s.moduleUp m = true ∧ m < s.link.modules.length ∧ ok = true ∧ f.ty = 0 :=
  ⟨r0, 0, true, ⟨0, 0, 0⟩, by decide +kernel⟩

theorem wit_TheHostLinkServes_5 : ∃ (s : State) (m : Nat) (ok : Bool) (f : HostFlit), s.running = true ∧ s.moduleUp m = true ∧ m < s.link.modules.length ∧ ok = true ∧ f.ty = 2 :=
  ⟨r0, 0, true, ⟨2, 0, 0⟩, by decide +kernel⟩

theorem wit_TheHostLinkServes_6 : ∃ (s : State) (m : Nat) (ok : Bool) (f : HostFlit), s.running = true ∧ s.moduleUp m = true ∧ m < s.link.modules.length ∧ (ok = false ∨ (f.ty = 1 ∧ f.seq % 4096 ≠ (s.ucie m).rxSeq)) ∧ (s.ucie m).rxDrop = false :=
  ⟨r0, 0, true, ⟨1, 5, 0⟩, by decide +kernel⟩

theorem wit_TheHostLinkServes_7 : ∃ (s : State) (m : Nat) (ok : Bool) (f : HostFlit), s.running = true ∧ s.moduleUp m = true ∧ (ok = false ∨ (f.ty = 1 ∧ f.seq % 4096 ≠ (s.ucie m).rxSeq)) ∧ (s.ucie m).rxDrop = true :=
  ⟨{ r0 with link := { modules := [{ rxDrop := true }, {}, {}, {}] } }, 0, false, ⟨1, 0, 0⟩, by decide +kernel⟩

theorem wit_TheHostLinkServes_8 : ∃ (s : State) (m addr len tag : Nat) (bad again : Bool) (a : Aperture), s.running = true ∧ s.moduleUp m = true ∧ s.hostCheck addr len false = .ok a ∧ s.poisoned a.tenant (a.base + addr % 2 ^ 48) len = false ∧ (bad = false ∨ again = false) :=
  ⟨r0, 0, 0, 8, 1, true, false, ⟨1024, 0, 0x200000, true, true⟩, by decide +kernel⟩

theorem wit_TheHostLinkServes_9 : ∃ (s : State) (m addr len tag : Nat) (bad again : Bool) (a : Aperture), s.running = true ∧ s.moduleUp m = true ∧ s.hostCheck addr len false = .ok a ∧ (s.poisoned a.tenant (a.base + addr % 2 ^ 48) len = true ∨ (bad = true ∧ again = true)) :=
  ⟨r0, 0, 0, 8, 1, true, true, ⟨1024, 0, 0x200000, true, true⟩, by decide +kernel⟩

theorem wit_TheHostLinkServes_10 : ∃ (s : State) (m addr len tag st : Nat) (b b' : Bool), s.running = true ∧ s.moduleUp m = true ∧ s.hostCheck addr len false = .error st :=
  ⟨r0, 0, 0, 4, 1, 4, false, false, by decide +kernel⟩

theorem wit_TheHostLinkServes_11 : ∃ (s : State) (m addr tag st : Nat) (data : List Byte), s.running = true ∧ s.moduleUp m = true ∧ s.hostCheck addr data.length true = .error st :=
  ⟨r0, 0, 0, 1, 4, [1], by decide +kernel⟩

theorem wit_TheHostLinkServes_12 : ∃ (s : State) (m addr tag : Nat) (data : List Byte) (a : Aperture), s.running = true ∧ s.moduleUp m = true ∧ s.hostCheck addr data.length true = .ok a ∧ a.tenant = systemTenant ∧ s.rangeMoving a.tenant (a.base + addr % 2 ^ 48) data.length = true :=
  ⟨{ r0 with tier := { r0.tier with pages := [{ tenant := 1024, page := 0, home := .stack 0, inMove := true }] } }, 0, 0, 1, List.replicate 8 1, ⟨1024, 0, 0x200000, true, true⟩, by decide +kernel⟩

theorem wit_TheHostLinkServes_13 : ∃ (s : State) (m addr tag : Nat) (data : List Byte) (a : Aperture), s.running = true ∧ s.memOk = true ∧ s.moduleUp m = true ∧ s.hostCheck addr data.length true = .ok a ∧ s.rangeMoving a.tenant (a.base + addr % 2 ^ 48) data.length = false ∧ s.rangeFailed a.tenant (a.base + addr % 2 ^ 48) data.length = false :=
  ⟨r0, 0, 0x1FFFF8, 1, List.replicate 8 1, ⟨1024, 0, 0x200000, true, true⟩, by decide +kernel⟩

theorem wit_TheHostLinkServes_14 : ∃ (s : State) (r : HReq) (data : List Byte), s.running = true ∧ r ∈ s.link.toHost ∧ (r.op = 3 ∨ (r.op = 1 ∧ data ≠ [])) :=
  ⟨{ r0 with link := { toHost := [⟨0, 1, 3, 0, [1], 0⟩] } }, ⟨0, 1, 3, 0, [1], 0⟩, [], by decide +kernel⟩

theorem wit_TheHostLinkServes_15 : ∃ (s : State), s.running = true :=
  ⟨r0, by decide +kernel⟩

theorem wit_RegistersAndRequests_1 : ∃ (s : State) (w : DWrite) (k : Key) (v : DVal), s.running = true ∧ s.checkWrite s.dict.pend w false = .ok (k, v) ∧ (accOf k ≠ .wo ∧ accOf k ≠ .rw) ∨ (0xA10000 ≤ k ∧ k < 0xA10400) :=
  ⟨r0, ⟨0x3010, 2, [4, 0]⟩, 0x301002, .num 4, by decide +kernel⟩

theorem wit_RegistersAndRequests_2 : ∃ (s : State) (w : DWrite) (k : Key) (v : DVal), s.running = true ∧ s.checkWrite s.dict.pend w false = .ok (k, v) ∧ (accOf k = .wo ∨ accOf k = .rw) ∧ (k < 0xA10000 ∨ 0xA10400 ≤ k) :=
  ⟨r0, ⟨0xB000, 0x0C, [1]⟩, 0xB0000C, .num 1, by decide +kernel⟩

theorem wit_RegistersAndRequests_3 : ∃ (s : State) (w : DWrite) (k : Key) (v : DVal), s.running = true ∧ s.checkWrite s.dict.pend w true = .ok (k, v) :=
  ⟨r0, ⟨0x3010, 2, [64, 0]⟩, 0x301002, .num 64, by decide +kernel⟩

theorem wit_RegistersAndRequests_4 : ∃ (s : State) (w : DWrite) (sg : Bool) (st d : Nat), s.running = true ∧ s.checkWrite s.dict.pend w sg = .error (st, d) :=
  ⟨r0, ⟨0x3010, 2, [65, 0]⟩, false, 0x0D06, 0, by decide +kernel⟩

theorem wit_RegistersAndRequests_5 : ∃ (s : State) (w : PWrite) (n : Nat), w.tick ≤ s.now ∧ w.v = .num n ∧ s.dict.pend = [w] ∧ 0x604000 ≤ w.k ∧ w.k < 0x604800 :=
  ⟨{ r0 with dict := { pend := [⟨0x604000, .num 1, 0, false⟩] } }, ⟨0x604000, .num 1, 0, false⟩, 1, by decide +kernel⟩

theorem wit_RegistersAndRequests_6 : ∃ (s : State), s.running = true :=
  ⟨r0, by decide +kernel⟩

theorem wit_RegistersAndRequests_9 : ∃ (s : State) (seq : Nat) (bad badBuf : Bool) (i : Instr), s.running = true ∧ s.covered systemTenant seq = true ∧ seq = (s.ring systemTenant).cLive + 1 ∧ s.link.taken < s.reg 0xC00008 ∧ (bad = true ∨ s.poisoned systemTenant (s.slotAddr systemTenant seq) 128 = true) ∧ (i = .mailboxRead seq bad ∨ i = .mailboxWrite seq bad badBuf ∨ i = .mailboxSignedCommand seq bad badBuf) :=
  ⟨sMail 0x20, 1, true, false, .mailboxSignedCommand 1 true false, by decide +kernel⟩

theorem wit_RegistersAndRequests_10 : ∃ (s : State) (d : DapReq) (k : List Byte), (s.power = 2 ∨ s.power = 3) ∧ d.port < 2 ∧ s.resetting 1 (4 + d.port) = false ∧ s.sec.dapKey = some k ∧ d.tag = Config.hmac k (dapBytes d) ∧ s.reg 0xA00001 = 0 ∧ s.dapForm d = 0 ∧ s.reg (0x1F1101 + d.client) < d.num ∧ s.dict.dapCount < s.reg 0x1F1005 ∧ d.op = 4 :=
  ⟨sDap, dreq 4, [1], by refine ⟨?_, ?_, ?_, ?_, rfl, ?_, ?_, ?_, ?_, ?_⟩ <;> decide +kernel⟩

theorem wit_RegistersAndRequests_11 : ∃ (s : State) (d : DapReq) (k : List Byte), (s.power = 2 ∨ s.power = 3) ∧ d.port < 2 ∧ s.resetting 1 (4 + d.port) = false ∧ s.sec.dapKey = some k ∧ d.tag = Config.hmac k (dapBytes d) ∧ s.reg 0xA00001 = 0 ∧ s.dapForm d = 0 ∧ s.reg (0x1F1101 + d.client) < d.num ∧ s.dict.dapCount < s.reg 0x1F1005 ∧ d.op = 1 :=
  ⟨sDap, dreq 1, [1], by refine ⟨?_, ?_, ?_, ?_, rfl, ?_, ?_, ?_, ?_, ?_⟩ <;> decide +kernel⟩

theorem wit_RegistersAndRequests_12 : ∃ (s : State) (d : DapReq) (k : List Byte), (s.power = 2 ∨ s.power = 3) ∧ d.port < 2 ∧ s.resetting 1 (4 + d.port) = false ∧ s.sec.dapKey = some k ∧ d.tag = Config.hmac k (dapBytes d) ∧ s.reg 0xA00001 = 0 ∧ s.dapForm d = 0 ∧ s.reg (0x1F1101 + d.client) < d.num ∧ s.dict.dapCount < s.reg 0x1F1005 ∧ d.op = 2 ∧ d.more = false ∧ d.offset = (s.dapClient d.client).gathered.length ∧ d.offset + d.value.length ≤ 65536 :=
  ⟨sDap, dreq 2, [1], by refine ⟨?_, ?_, ?_, ?_, rfl, ?_, ?_, ?_, ?_, ?_, ?_, ?_, ?_⟩ <;> decide +kernel⟩

theorem wit_RegistersAndRequests_13 : ∃ (s : State) (d : DapReq) (k : List Byte), (s.power = 2 ∨ s.power = 3) ∧ d.port < 2 ∧ s.resetting 1 (4 + d.port) = false ∧ s.sec.dapKey = some k ∧ d.tag = Config.hmac k (dapBytes d) ∧ s.reg 0xA00001 = 0 ∧ s.dapForm d = 0 ∧ s.reg (0x1F1101 + d.client) < d.num ∧ s.dict.dapCount < s.reg 0x1F1005 ∧ d.op = 3 ∧ d.more = false ∧ d.offset = (s.dapClient d.client).gathered.length ∧ d.offset + d.value.length ≤ 65536 :=
  ⟨sDap, dreq 3, [1], by refine ⟨?_, ?_, ?_, ?_, rfl, ?_, ?_, ?_, ?_, ?_, ?_, ?_, ?_⟩ <;> decide +kernel⟩

theorem wit_RegistersAndRequests_14 : ∃ (s : State) (d : DapReq) (k : List Byte), (s.power = 2 ∨ s.power = 3) ∧ d.port < 2 ∧ s.resetting 1 (4 + d.port) = false ∧ s.sec.dapKey = some k ∧ d.tag = Config.hmac k (dapBytes d) ∧ s.reg 0xA00001 = 0 ∧ s.dapForm d = 0 ∧ s.reg (0x1F1101 + d.client) < d.num ∧ s.dict.dapCount < s.reg 0x1F1005 ∧ (d.op = 2 ∨ d.op = 3) ∧ d.more = true ∧ d.offset = (s.dapClient d.client).gathered.length ∧ d.offset + d.value.length ≤ 65536 :=
  ⟨sDap, { dreq0 with op := 2, more := true, tag := Config.hmac [1] (dapBytes { dreq0 with op := 2, more := true }) }, [1], by refine ⟨?_, ?_, ?_, ?_, rfl, ?_, ?_, ?_, ?_, ?_, ?_, ?_, ?_⟩ <;> decide +kernel⟩

theorem wit_RegistersAndRequests_15 : ∃ (s : State) (d : DapReq) (k : List Byte), (s.power = 2 ∨ s.power = 3) ∧ d.port < 2 ∧ s.resetting 1 (4 + d.port) = false ∧ s.sec.dapKey = some k ∧ d.tag = Config.hmac k (dapBytes d) ∧ s.reg 0xA00001 = 0 ∧ s.dapForm d = 0 ∧ d.num ≤ s.reg (0x1F1101 + d.client) ∧ (d.num ≠ s.reg (0x1F1101 + d.client) ∨ (s.dapClient d.client).tag ≠ d.tag) :=
  ⟨sDap.setReg 0x1F1101 5, dreq 2, [1], by refine ⟨?_, ?_, ?_, ?_, rfl, ?_, ?_, ?_, .inl ?_⟩ <;> decide +kernel⟩

theorem wit_RegistersAndRequests_16 : ∃ (s : State) (d : DapReq) (k : List Byte) (r : DapResp), (s.power = 2 ∨ s.power = 3) ∧ d.port < 2 ∧ s.resetting 1 (4 + d.port) = false ∧ s.sec.dapKey = some k ∧ d.tag = Config.hmac k (dapBytes d) ∧ s.reg 0xA00001 = 0 ∧ s.dapForm d = 0 ∧ d.num = s.reg (0x1F1101 + d.client) ∧ (s.dapClient d.client).tag = d.tag ∧ (s.dapClient d.client).resp = some r :=
  ⟨{ sDap.setReg 0x1F1101 1 with dict := { clients := [{ client := 0, tag := (dreq 2).tag, resp := some ⟨130, 0, 0, 1, 0, 0, 0, 0, 0, 0, [], true⟩ }] } }, dreq 2, [1], ⟨130, 0, 0, 1, 0, 0, 0, 0, 0, 0, [], true⟩, by refine ⟨?_, ?_, ?_, ?_, rfl, ?_, ?_, ?_, ?_, ?_⟩ <;> first | rfl | decide +kernel⟩

theorem wit_RegistersAndRequests_17 : ∃ (s : State) (d : DapReq) (k : List Byte), (s.power = 2 ∨ s.power = 3) ∧ d.port < 2 ∧ s.resetting 1 (4 + d.port) = false ∧ s.sec.dapKey = some k ∧ d.tag ≠ Config.hmac k (dapBytes d) ∧ (d.op = 2 ∨ d.op = 3 ∨ (d.op = 1 ∧ (openIndex d.index = false ∨ s.reg 0xA00001 = 0))) :=
  ⟨sDap, { dreq0 with op := 2, tag := 0 :: Config.hmac [1] (dapBytes { dreq0 with op := 2 }) }, [1], by exact ⟨by decide +kernel, by decide, by decide +kernel, by decide +kernel, List.cons_ne_self _ _, by decide⟩⟩

theorem wit_LinksAndFirmware_1 : ∃ (s : State) (port : Nat) (x : Securing) (own : List Byte), s.running = true ∧ port < 16 ∧ s.portState port = 2 ∧ s.sec.advance = [] ∧ (∀ w ∈ x.witnessed, w.2 ≤ s.counter w.1) :=
  ⟨r0.setReg 0x800101 2, 0, { sec0 with witnessed := [(1, 0)] }, [], by decide +kernel⟩

theorem wit_LinksAndFirmware_2 : ∃ (s : State) (port i v : Nat) (x : Securing) (own : List Byte) (wit acks : List Nat), s.running = true ∧ port < 16 ∧ s.portState port = 2 ∧ s.sec.advance = [(i, v, wit, acks)] ∧ x.witnessed = [(i, v)] :=
  ⟨{ r0.setReg 0x800101 2 with sec := { advance := [(2, 1, [3], [])] } }, 0, 2, 1, { sec0 with witnessed := [(2, 1)] }, [], [3], [], by decide +kernel⟩

theorem wit_LinksAndFirmware_3 : ∃ (s : State) (port : Nat) (x : Securing) (own : List Byte), s.running = true ∧ port < 16 ∧ s.portState port = 2 ∧ s.sec.advance = [] ∧ (∃ w ∈ x.witnessed, s.counter w.1 < w.2) :=
  ⟨r0.setReg 0x800101 2, 0, { sec0 with witnessed := [(2, 1)] }, [], by decide +kernel⟩

theorem wit_LinksAndFirmware_4 : ∃ (s : State) (port rxSwitch n : Nat) (x : Securing) (own tx rx : List Byte), s.running = true ∧ port < 16 ∧ s.portState port = 3 ∧ (s.port port).keySet = true ∧ ((s.port port).rekey ≠ none ∨ (s.port port).lastRekey + s.reg 0xA04001 ≤ s.now) ∧ n = ((s.port port).rekey.map (·.1)).getD ((s.port port).sent + s.reg 0xA04002) ∧ (tx, rx) = s.linkKeys x own (s.port port).peerDigest :=
  ⟨{ r0.setReg 0x800101 3 with ports := [(0, { keySet := true, rekey := some (1, 0) })] }, 0, 0, 1, sec0, [], _, _, by exact ⟨by decide +kernel, by decide, by decide +kernel, by decide +kernel, by decide +kernel, by decide +kernel, rfl⟩⟩

theorem wit_LinksAndFirmware_5 : ∃ (s : State) (port a b : Nat), s.running = true ∧ port < 16 ∧ s.portState port = 3 ∧ (s.port port).rekey = some (a, b) ∧ b + 16 ≤ s.now :=
  ⟨{ sLate.setReg 0x800101 3 with ports := [(0, { rekey := some (1, 65520) })] }, 0, 1, 65520, by decide +kernel⟩

theorem wit_LinksAndFirmware_6 : ∃ (s : State) (off : Nat) (data : List Byte), s.running = true :=
  ⟨r0, 0, [1], by decide +kernel⟩

theorem wit_LinksAndFirmware_7 : ∃ (s : State), s.running = true :=
  ⟨r0, by decide +kernel⟩

theorem wit_LinksAndFirmware_8 : ∃ (s : State) (st : Nat), s.running = true ∧ st ≠ 0 :=
  ⟨r0, 1, by decide +kernel⟩

theorem wit_LinksAndFirmware_9 : ∃ (s : State) (slot tn : Nat) (nonce : List Byte), s.running = true ∧ 1 ≤ slot ∧ slot ≤ 16 :=
  ⟨r0, 16, 1, [1], by decide +kernel⟩

theorem wit_LinksAndFirmware_10 : ∃ (s : State) (slot tn : Nat) (nonce : List Byte), s.running = true ∧ lk s.sec.quotes slot = some (nonce, tn) :=
  ⟨{ r0 with sec := { quotes := [(1, [1], 0)] } }, 1, 0, [1], by decide +kernel⟩

theorem wit_KeysAreDelivered_1 : ∃ (s : State) (r : KeyRecord), s.running = true :=
  ⟨r0, krec0, by decide +kernel⟩

theorem wit_KeysAreDelivered_2 : ∃ (s : State) (r : KeyRecord) (sg : Bool), s.running = true :=
  ⟨r0, krec0, true, by decide +kernel⟩

theorem wit_KeysAreDelivered_3 : ∃ (s : State) (epoch start : Nat) (k : List Byte), s.running = true ∧ (∀ n ∈ s.sec.mgmtNext.toList, n.1 < epoch) ∧ (s.sec.mgmtNext = none → s.sec.mgmtKey ≠ none → s.reg 0xA03001 < epoch) ∧ 0 < epoch ∧ (start ≤ s.ftick ∨ s.sec.mgmtKey = none) :=
  ⟨{ r0 with sec := { mgmtNext := some (1, [1], 0) } }, 2, 0, [1], by decide +kernel⟩

theorem wit_KeysAreDelivered_4 : ∃ (s : State) (epoch start : Nat) (k o : List Byte), s.running = true ∧ (∀ n ∈ s.sec.mgmtNext.toList, n.1 < epoch) ∧ s.sec.mgmtKey = some o ∧ (s.sec.mgmtNext = none → s.reg 0xA03001 < epoch) ∧ s.ftick < start ∧ 0 < epoch :=
  ⟨{ r0 with sec := { mgmtKey := some [1] } }, 1, 1, [2], [1], by decide +kernel⟩

theorem wit_KeysAreDelivered_5 : ∃ (s : State) (epoch start : Nat) (k o : List Byte), s.running = true ∧ s.sec.mgmtKey = some o ∧ epoch ≤ ((s.sec.mgmtNext.map (·.1)).getD (s.reg 0xA03001)) :=
  ⟨{ r0.setReg 0xA03001 2 with sec := { mgmtKey := some [1] } }, 2, 1, [2], [1], by decide +kernel⟩

theorem wit_TenantsComeAndGo_1 : ∃ (s : State) (n : Nat), s.running = true ∧ n < 1024 ∧ s.tstate n = 0 :=
  ⟨r0, 1023, by decide +kernel⟩

theorem wit_TenantsComeAndGo_2 : ∃ (s : State) (n : Nat), s.running = true ∧ n < 1024 ∧ s.tstate n = 2 :=
  ⟨r0.setReg (pagedKey 0xA104 1023) 2, 1023, by decide +kernel⟩

theorem wit_TenantsComeAndGo_3 : ∃ (s : State) (n : Nat), s.running = true ∧ n < 1024 ∧ (s.tstate n = 2 ∨ s.tstate n = 3) ∧ s.hasRoles n = false :=
  ⟨r0.setReg (pagedKey 0xA104 1) 3, 1, by decide +kernel⟩

theorem wit_TenantsComeAndGo_4 : ∃ (s : State) (n : Nat), s.running = true ∧ n < 1024 ∧ (s.tstate n = 2 ∨ s.tstate n = 3) ∧ s.hasRoles n = true :=
  ⟨{ r0.setReg (pagedKey 0xA104 1) 3 with map := { entries := seqMap } }, 1, by decide +kernel⟩

theorem wit_TenantsComeAndGo_5 : ∃ (s : State) (n : Nat), s.running = true ∧ n < 1024 ∧ s.tstate n = 4 ∧ s.busy n = false ∧ (∀ r ∈ s.sec.tenants, r.tenant = n → r.release = false) :=
  ⟨r0.setReg (pagedKey 0xA104 1) 4, 1, by decide +kernel⟩

theorem wit_TenantsComeAndGo_6 : ∃ (s : State) (n : Nat) (r : TRec), s.running = true ∧ n < 1024 ∧ s.tstate n = 4 ∧ s.busy n = false ∧ s.tenantRec n = some r ∧ r.release = true :=
  ⟨{ r0.setReg (pagedKey 0xA104 1) 4 with sec := { tenants := [{ tenant := 1, release := true }] } }, 1, { tenant := 1, release := true }, by decide +kernel⟩

theorem wit_TenantsComeAndGo_7 : ∃ (s : State) (n : Nat) (i : Instr), s.running = true ∧ boundTenant i = some n ∧ s.bindingDiffers n s.node = true :=
  ⟨{ r0.setReg (pagedKey 0xA10C 1) 7 with map := { entries := [me 2 1 0 0 0 0xFFFF 0xFFFF 1] } }, 1, .scatterSummary sum0, by decide +kernel⟩

theorem wit_CountersAndChecks_1 : ∃ (s : State) (v : Nat), s.running = true ∧ v ≤ s.reg 0xA00002 :=
  ⟨r0.setReg 0xA00002 3, 3, by decide +kernel⟩

theorem wit_CountersAndChecks_2 : ∃ (s : State) (i v : Nat), s.running = true ∧ (i, v) ∈ s.sec.waitAdv ∧ (∀ a ∈ s.sec.advance, a.1 ≠ i) ∧ s.reg 0x800002 = 0 :=
  ⟨{ r0 with sec := { waitAdv := [(2, 1)] } }, 2, 1, by decide +kernel⟩

theorem wit_CountersAndChecks_3 : ∃ (s : State) (i v : Nat), s.running = true ∧ (i, v) ∈ s.sec.waitAdv ∧ (∀ a ∈ s.sec.advance, a.1 ≠ i) ∧ s.reg 0x800002 ≠ 0 ∧ s.counterWitnesses.length = 3 :=
  ⟨{ sWit with sec := { waitAdv := [(2, 1)] } }, 2, 1, by decide +kernel⟩

theorem wit_CountersAndChecks_4 : ∃ (s : State) (i v : Nat), s.running = true ∧ (s.canAdvance = false ∨ (∃ a ∈ s.sec.advance, a.1 = i)) :=
  ⟨{ r0 with sec := { advance := [(2, 1, [3], [])] } }, 2, 5, by exact ⟨by decide +kernel, .inr ⟨_, List.mem_cons_self, rfl⟩⟩⟩

theorem wit_CountersAndChecks_5 : ∃ (s : State) (src i v : Nat), s.running = true ∧ s.sec.witness.find? (fun (w : Nat × Nat × Nat) => w.1 == src && w.2.1 == i) = none :=
  ⟨r0, 3, 2, 6, by decide +kernel⟩

theorem wit_CountersAndChecks_6 : ∃ (s : State) (src i v old : Nat), s.running = true ∧ s.sec.witness.find? (fun (w : Nat × Nat × Nat) => w.1 == src && w.2.1 == i) = some (src, i, old) :=
  ⟨{ r0 with sec := { witness := [(3, 2, 5)] } }, 3, 2, 6, 5, by decide +kernel⟩

theorem wit_CountersAndChecks_7 : ∃ (s : State) (src i v : Nat) (w acks : List Nat), s.running = true ∧ s.sec.advance = [(i, v, w, acks)] ∧ src ∈ w ∧ src ∉ acks :=
  ⟨{ r0 with sec := { advance := [(2, 1, [3], [])] } }, 3, 2, 1, [3], [], by decide +kernel⟩

theorem wit_CountersAndChecks_8 : ∃ (s : State) (code : Nat), s.running = true ∧ code ∈ [1, 2, 4, 5] ∧ (s.pwr.seqRank = 0 ∨ 4 < s.pwr.seqRank) :=
  ⟨r0, 5, by decide +kernel⟩

theorem wit_CountersAndChecks_9 : ∃ (s : State), s.running = true ∧ (s.pwr.seqRank = 0 ∨ 4 < s.pwr.seqRank) :=
  ⟨{ r0 with pwr := { r0.pwr with seqRank := 5 } }, by decide +kernel⟩

theorem wit_CountersAndChecks_10 : ∃ (s : State) (code : Nat), s.running = true ∧ code ∈ [1, 2, 4, 5] ∧ s.pwr.seqRank ≠ 0 ∧ s.pwr.seqRank ≤ 4 :=
  ⟨{ r0 with pwr := { r0.pwr with seqRank := 4 } }, 1, by decide +kernel⟩

theorem wit_StartsAndPowerFails_1 : ∃ (s : State) (b : BootIn) (v : Nat), s.power = 0 ∧ s.reg 0xD0000F ≤ b.inputMv ∧ b.powerFailHigh = true ∧ b.pufOk = true ∧ b.strap = [] ∧ bootsFrom s b v :=
  ⟨r0.setReg 0xD00001 0, boot0, 1, by unfold bootsFrom; decide +kernel⟩

theorem wit_StartsAndPowerFails_2 : ∃ (s : State) (b : BootIn), s.power = 0 ∧ s.reg 0xD0000F ≤ b.inputMv ∧ b.powerFailHigh = true ∧ b.pufOk = false :=
  ⟨r0.setReg 0xD00001 0, { boot0 with pufOk := false }, by decide +kernel⟩

theorem wit_StartsAndPowerFails_3 : ∃ (s : State) (b : BootIn) (v : Nat), (s.power = 2 ∨ s.power = 3) ∧ s.pwr.seqRank = 0 ∧ s.reg 0xD02001 = 0 ∧ bootsFrom s b v ∧ s.sbPin 0x0B = true :=
  ⟨(r0.setReg 0xD2000B 0x1F4).setReg 0xD00001 3, boot0, 1, by unfold bootsFrom; decide +kernel⟩

theorem wit_StartsAndPowerFails_4 : ∃ (s : State) (b : BootIn) (v : Nat), s.power ≠ 0 ∧ (s.pwr.seqRank = 0 ∨ 2 < s.pwr.seqRank) ∧ b.pufOk = true ∧ b.strap = [] ∧ bootsFrom s b v :=
  ⟨{ r0 with pwr := { r0.pwr with seqRank := 4 } }, boot0, 1, by unfold bootsFrom; decide +kernel⟩

theorem wit_StartsAndPowerFails_5 : ∃ (s : State) (b : BootIn) (v : Nat), s.power = 4 ∧ s.reg 0xD02001 = 0 ∧ bootsFrom s b v :=
  ⟨r0.setReg 0xD00001 4, boot0, 1, by unfold bootsFrom; decide +kernel⟩

theorem wit_StartsAndPowerFails_6 : ∃ (s : State) (b : BootIn) (i : Instr), s.power ≠ 0 ∧ s.pwr.seqRank ≠ 0 ∧ ((i = .moduleReset b ∨ i = .warmResetCommand b ∨ (i = .sidebandResetRequest b ∧ s.sbPin 0x0B = true)) ∧ s.pwr.seqRank ≤ 5) ∨ (i = .powerCycleCommand b ∧ s.pwr.seqRank ≤ 2) ∨ (i = .watchdogExpiry ∧ s.pwr.seqRank ≤ 4) :=
  ⟨{ r0 with pwr := { r0.pwr with seqRank := 4 } }, boot0, .moduleReset boot0, by decide +kernel⟩

theorem wit_StartsAndPowerFails_7 : ∃ (s : State), s.power ≠ 0 ∧ s.power ≠ 5 :=
  ⟨r0, by decide +kernel⟩

theorem wit_StartsAndPowerFails_8 : ∃ (s : State), (s.power = 0 ∨ s.power = 5) :=
  ⟨r0.setReg 0xD00001 5, by decide +kernel⟩

theorem wit_StartsAndPowerFails_9 : ∃ (s : State) (mv : Nat), s.power ≠ 0 ∧ s.power ≠ 5 ∧ (mv < s.reg 0xD0000D ∨ s.reg 0xD0000E < mv) :=
  ⟨r0, 0, by decide +kernel⟩

theorem wit_StartsAndPowerFails_10 : ∃ (s : State) (mv : Nat), s.running = true ∧ ((s.reg 0xD0000D ≤ mv ∧ mv < 40000) ∨ (60000 < mv ∧ mv ≤ s.reg 0xD0000E)) :=
  ⟨r0, 39999, by decide +kernel⟩

theorem wit_StartsAndPowerFails_11 : ∃ (s : State) (p : Bool), s.power = 5 :=
  ⟨r0.setReg 0xD00001 5, true, by decide +kernel⟩

theorem wit_FatalFaultsAndBlockResets_1 : ∃ (s : State) (cause : Nat), 7 ≤ cause ∧ cause ≤ 9 ∧ 1 ≤ s.reg 0xD00001 ∧ s.reg 0xD00001 ≤ 4 ∧ (s.pwr.seqRank = 0 ∨ (if cause = 9 then 3 else 4) < s.pwr.seqRank) :=
  ⟨r0.setReg 0xD00001 4, 9, by decide +kernel⟩

theorem wit_FatalFaultsAndBlockResets_2 : ∃ (s : State) (cause : Nat), 7 ≤ cause ∧ cause ≤ 9 ∧ 1 ≤ s.reg 0xD00001 ∧ s.reg 0xD00001 ≤ 4 ∧ s.pwr.seqRank ≠ 0 ∧ s.pwr.seqRank ≤ (if cause = 9 then 3 else 4) :=
  ⟨{ r0 with pwr := { r0.pwr with seqRank := 1 } }, 7, by decide +kernel⟩

theorem wit_FatalFaultsAndBlockResets_3 : ∃ (s : State), s.power ≠ 0 ∧ (s.pwr.seqRank = 0 ∨ 4 < s.pwr.seqRank) :=
  ⟨r0, by decide +kernel⟩

theorem wit_FatalFaultsAndBlockResets_4 : ∃ (s : State) (sub mask : Nat), s.running = true ∧ 1 ≤ sub ∧ sub ≤ 6 ∧ s.maskRefused sub mask = false :=
  ⟨r0, 5, 1, by decide +kernel⟩

theorem wit_FatalFaultsAndBlockResets_5 : ∃ (s : State) (sub mask : Nat), s.running = true ∧ s.maskRefused sub mask = true :=
  ⟨r0, 1, 48, by decide +kernel⟩

theorem wit_SidebandPinsAndAgeing_1 : ∃ (s : State) (e : MapEntry), s.running = true ∧ s.sbPin 0x0C = true ∧ s.map.entries.find? (fun e => e.kind == 1 && e.object == s.reg 0x800003) = some e :=
  ⟨{ (r0.setReg 0xD2000C 7).setReg 0x800003 7 with map := { entries := [me 1 0 7 0 3 0 0 5] } }, me 1 0 7 0 3 0 0 5, by decide +kernel⟩

theorem wit_SidebandPinsAndAgeing_2 : ∃ (s : State) (a : Bool), s.running = true ∧ s.sbPin 0x0A = true :=
  ⟨r0.setReg 0xD2000A 0x1F3, true, by decide +kernel⟩

theorem wit_SidebandPinsAndAgeing_3 : ∃ (s : State) (tm : Nat), s.running = true ∧ tm < 4 ∧ s.sbPin 7 = true ∧ s.sbEntry 7 / 16 % 16 = tm :=
  ⟨r0.setReg 0xD20007 0x11, 1, by decide +kernel⟩

theorem wit_SidebandPinsAndAgeing_4 : ∃ (s : State) (tm : Nat), s.running = true ∧ tm < 4 ∧ s.sbPin 8 = true ∧ s.sbEntry 8 / 16 % 16 = tm :=
  ⟨r0.setReg 0xD20008 0x11, 1, by decide +kernel⟩

theorem wit_SidebandPinsAndAgeing_5 : ∃ (s : State) (tm : Nat), s.running = true ∧ tm < 4 ∧ s.sbPin 3 = true ∧ s.sbEntry 3 / 16 % 16 = tm ∧ s.reg 0xD20025 = 1 :=
  ⟨(r0.setReg 0xD20003 0x11).setReg 0xD20025 1, 1, by decide +kernel⟩

theorem wit_SidebandPinsAndAgeing_6 : ∃ (s : State) (v : Nat), s.running = true :=
  ⟨r0, 0, by decide +kernel⟩

theorem wit_SidebandPinsAndAgeing_7 : ∃ (s : State) (n k : Nat), s.power ≠ 0 ∧ s.power ≠ 5 ∧ lk s.pwr.silent n = some k ∧ 16 ≤ k :=
  ⟨{ r0 with pwr := { silent := [(1, 16)] } }, 1, 16, by decide +kernel⟩

theorem wit_SidebandPinsAndAgeing_8 : ∃ (s : State) (n : Nat), lk s.pwr.silent n = none :=
  ⟨r0, 1, by decide +kernel⟩

theorem wit_SidebandPinsAndAgeing_9 : ∃ (s : State) (a : Bool) (tm : Nat), s.running = true ∧ s.sbPin 0x0A = false :=
  ⟨r0.setReg 0xD2000A 0x1FF, true, 0, by decide +kernel⟩

theorem wit_SidebandPinsAndAgeing_10 : ∃ (s : State) (a : Bool) (tm : Nat), s.running = true ∧ s.sbPin 0x0C = false :=
  ⟨r0, true, 0, by decide +kernel⟩

theorem wit_SidebandPinsAndAgeing_11 : ∃ (s : State) (a : Bool) (tm : Nat), s.running = true ∧ (∀ n ∈ [3, 7, 8], s.sbPin n = false ∨ s.sbEntry n / 16 % 16 ≠ tm) :=
  ⟨r0, true, 9, by decide +kernel⟩

theorem wit_SidebandPinsAndAgeing_12 : ∃ (s : State) (slack : List (Nat × Int)) (freq : List (Nat × Nat)), s.running = true :=
  ⟨r0, [], [], by decide +kernel⟩

theorem wit_SidebandPinsAndAgeing_13 : ∃ (s : State), s.running = true ∧ s.reg 0xD30008 ≠ 1 :=
  ⟨r0.setReg 0xD30008 0, by decide +kernel⟩

theorem wit_NothingActsUnlessRunning_1 : ∃ (i : Instr) (s : State), s.running = false ∧ beyondRunning i = false :=
  ⟨.frameOverrun 0, r0.setReg 0xD00001 4, by decide +kernel⟩

theorem wit_ReadsShowTheValueInEffect_1 : ∃ (s : State) (k : Key) (r : ObjRow), objRow k = some r ∧ r.acc ≠ .wo ∧ cntRow k = none ∧ k / 256 ≠ 0x1F20 ∧ k / 256 ≠ 0x1F21 ∧ k ≠ 0x1F0001 ∧ k ≠ 0x1F0003 :=
  ⟨r0, 0x301002, ⟨0x301002, 0x301002, .u16, .rwt, 4, 2, 64, 1⟩, by decide +kernel⟩

theorem wit_ReadsShowTheValueInEffect_2 : ∃ (s : State) (k : Key) (c : CntRow), objRow k = none ∧ cntRow k = some c :=
  ⟨r0, 0xE0C004, ⟨0xE0C004, 0xE0C004, false⟩, by decide +kernel⟩

theorem wit_SilentSensorsAreHot_2 : ∃ (s : State) (n k : Nat), s.power ≠ 0 ∧ s.power ≠ 5 ∧ n ∈ sensors ∧ lk s.pwr.silent n = some k ∧ 16 ≤ k :=
  ⟨{ r0 with pwr := { silent := [(33, 16)] } }, 33, 16, by decide +kernel⟩

theorem wit_SilentSensorsAreHot_3 : ∃ (s : State) (n : Nat), n ∈ sensors ∧ s.temp n = -2147483648 :=
  ⟨r0.setRegI 32 0xD40001 (-2147483648), 1, by decide +kernel⟩

theorem wit_TripsAreHeldUntilCool_1 : ∃ (s : State) (n : Nat) (r : Int), 1 ≤ s.power ∧ s.power ≤ 4 ∧ (s.pwr.seqRank = 0 ∨ 3 < s.pwr.seqRank) ∧ 1 ≤ n ∧ n ≤ 33 ∧ tripOf n ≤ r ∧ r < 2 ^ 31 :=
  ⟨r0, 33, tripOf 33, by decide +kernel⟩

theorem wit_TripsAreHeldUntilCool_2 : ∃ (s : State) (n : Nat) (r : Int), s.power ≠ 0 ∧ s.pwr.seqRank ≠ 0 ∧ s.pwr.seqRank ≤ 3 ∧ 1 ≤ n ∧ n ≤ 33 ∧ tripOf n ≤ r ∧ r < 2 ^ 31 :=
  ⟨{ r0 with pwr := { r0.pwr with seqRank := 3 } }, 33, tripOf 33, by decide +kernel⟩

theorem wit_TripsAreHeldUntilCool_3 : ∃ (s : State), s.power = 6 ∧ (∀ i ∈ sensors, s.temp i ≠ silentReading ∧ s.temp i + 20000 ≤ tripOf i) :=
  ⟨r0.setReg 0xD00001 6, by decide +kernel⟩

theorem wit_TripsAreHeldUntilCool_4 : ∃ (s : State) (i : Nat), s.power = 6 ∧ i ∈ sensors ∧ tripOf i < s.temp i + 20000 :=
  ⟨(r0.setReg 0xD00001 6).setReg 0xD40001 105000, 1, by decide +kernel⟩

theorem wit_TripsAreHeldUntilCool_5 : ∃ (s : State) (b : BootIn), s.power = 6 :=
  ⟨r0.setReg 0xD00001 6, boot0, by decide +kernel⟩

theorem wit_TripsAreHeldUntilCool_6 : ∃ (s : State) (b : BootIn), s.power = 4 :=
  ⟨r0.setReg 0xD00001 4, boot0, by decide +kernel⟩

theorem wit_FailedTagsRetrainTheLink_1 : ∃ (s : State) (port : Nat) (f : Flit), s.running = true ∧ port < 16 ∧ (s.portState port = 2 ∨ s.portState port = 3) ∧ (s.port port).keySet = true ∧ f.fecOk = true ∧ f.corrected = false ∧ f.tagOk = false :=
  ⟨{ r0.setReg 0x800101 3 with ports := [(0, { keySet := true })] }, 0, { flit0 with tagOk := false }, by decide +kernel⟩

theorem wit_FailedPagesAreReplaced_1 : ∃ (s u : State) (z : PageZero) (n : Nat) (p : Page) (h : PHome), s.running = true ∧ s.ctl.zeroings.find? (fun x => x.id == z.id) = some z ∧ z.pages = [n] ∧ s.pageAt z.tenant n = some p ∧ s.takePage z.board = some (u, h) := by
  have h : (({ sPage with ctl := { zeroings := [pz0] } } : State).takePage false).isSome = true := by decide +kernel
  obtain ⟨⟨u, p⟩, hu⟩ := Option.isSome_iff_exists.mp h
  exact ⟨{ sPage with ctl := { zeroings := [pz0] } }, u, pz0, 0, page0, p, by decide +kernel, by decide +kernel, rfl, by decide +kernel, hu⟩


/-! ### Ring entries -/

/-- The hypotheses of `ringRowPasses`, met together. -/
def RingWit (kind : Nat) (mine : Entry → Bool) (passes : Nat → Nat → State → Entry → Bool) : Prop :=
  ∃ (s : State) (t seq : Nat), s.running = true ∧ s.covered t seq = true ∧ s.room t = true ∧
    s.poisoned t (s.slotAddr t seq) 128 = false ∧ ringCheck false seq false (s.entryOf t seq) = none ∧ entryKind (s.entryOf t seq) = kind ∧
    mine (s.entryOf t seq) = true ∧ passes t seq (s.looked t) (s.entryOf t seq) = true

theorem ringWit_of (s : State) {kind : Nat} {mine : Entry → Bool} {passes : Nat → Nat → State → Entry → Bool}
    (h : (s.running && s.covered 1 1 && s.room 1 && !s.poisoned 1 (s.slotAddr 1 1) 128 && (ringCheck false 1 false (s.entryOf 1 1)).isNone &&
      entryKind (s.entryOf 1 1) == kind && mine (s.entryOf 1 1) && passes 1 1 (s.looked 1) (s.entryOf 1 1)) = true) : RingWit kind mine passes := by
  simp only [Bool.and_eq_true, Bool.not_eq_true', beq_iff_eq, Option.isNone_iff_eq_none] at h
  obtain ⟨⟨⟨⟨⟨⟨⟨h1, h2⟩, h3⟩, h4⟩, h5⟩, h6⟩, h7⟩, h8⟩ := h
  exact ⟨s, 1, 1, h1, h2, h3, h4, h5, h6, h7, h8⟩

/-- A mixed Molset with tenant 1 in service, page 0, index 2, table 4 and one ring entry given by fields of (offset, length, value). -/
def sEnt (fs : List (Nat × Nat × Nat)) : State := {
  (((sPage.setReg (pagedKey 0xC010 1) 0x100000).setReg (pagedKey 0x4042 0) 1).setReg (pagedKey 0x6040 1) 64).setReg (pagedKey 0x6044 1) 64 with
  rings := [{ tenant := 1, p := 1 }], map := { entries := me 1 0 1 0 0 0 0 7 :: seqMap }, idx := [idx0], emb := { tabs := [{ tab0 with live := 1 }] }
  mem := ((0, 8, 1) :: fs).foldl (fun m f => Memory.setAll m (memKey 1 (0x100100 + f.1)) (leBytes f.2.1 f.2.2)) [] }

def sModel : State := sEnt [
  (8, 1, 6), (16, 4, 1), (20, 1, 1), (22, 2, 1), (24, 2, 2), (26, 2, 1), (28, 8, 0x100500),
  (1024, 1, 4), (1026, 1, 9), (1027, 1, 1), (1030, 2, 0xFFFF), (1032, 2, 1), (1036, 4, 8), (1040, 4, 8)]
def mdl0 : Model := {
  slot := 0, tenant := 1, handle := 1, bmax := 1, layers := [{ ly0 with op := 4, inFmt := 0, fn := 1, inBuf := 0, in2 := 0xFFFF, outBuf := 1, tier := 0, n := 8, l := 8 }],
  params := 0, start := 0, stop := none, pins := [], pages := [] }
def sIndex : State := sEnt [(8, 1, 3), (16, 2, 5), (18, 2, 1), (20, 4, 1), (24, 1, 8), (26, 2, 1), (28, 2, 8), (30, 1, 5), (36, 2, 16)]

theorem wit_ring_query : RingWit 1 anyEntry (fun t _ s e => (s.bump 0xE05001 1).queryStatus t e == 0) :=
  ringWit_of (sEnt [(8, 1, 1), (32, 8, 4096), (52, 2, 2), (56, 2, 4), (58, 2, 1), (60, 2, 1), (66, 2, 0xFFFF), (68, 1, 9)]) (by decide +kernel)
theorem wit_ring_updateInsert : RingWit 2 (opIs 40 4 1 [1, 2]) (fun t _ s e => s.updatePasses t e) :=
  ringWit_of (sEnt [(8, 1, 2), (32, 6, 7), (38, 2, 2), (40, 1, 1), (41, 1, 9), (42, 2, 4)]) (by decide +kernel)
theorem wit_ring_updateDelete : RingWit 2 (opIs 40 4 2 [1, 2]) (fun t _ s e => s.updatePasses t e) :=
  ringWit_of (sEnt [(8, 1, 2), (32, 6, 7), (38, 2, 2), (40, 1, 2)]) (by decide +kernel)
theorem wit_ring_buildFold : RingWit 4 (opIs 26 256 0 [0, 1]) (fun t seq s e => s.buildStatus t seq e == 0) :=
  ringWit_of (sEnt [(8, 1, 4), (24, 2, 2), (27, 1, 1)]) (by decide +kernel)
theorem wit_ring_buildRetrain : RingWit 4 (opIs 26 256 1 [0, 1]) (fun t seq s e => s.buildStatus t seq e == 0) :=
  ringWit_of (sEnt [(8, 1, 4), (24, 2, 2), (26, 1, 1), (27, 1, 1)]) (by decide +kernel)
theorem wit_ring_filterRegister : RingWit 5 (opIs 38 256 1 [1, 2, 3]) (fun t seq s e => s.filterStatus t seq e == 0) :=
  ringWit_of (sEnt [(8, 1, 5), (32, 4, 1), (36, 2, 2), (38, 1, 1)]) (by decide +kernel)
theorem wit_ring_filterReplace : RingWit 5 (opIs 38 256 2 [1, 2, 3]) (fun t seq s e => s.filterStatus t seq e == 0) :=
  ringWit_of { sEnt [(8, 1, 5), (32, 4, 1), (36, 2, 2), (38, 1, 2)] with filters := [⟨1, 1, 2, ⟨0, 0, 0, []⟩, 0, none, []⟩] } (by decide +kernel)
theorem wit_ring_filterRelease : RingWit 5 (opIs 38 256 3 [1, 2, 3]) (fun t seq s e => s.filterStatus t seq e == 0) :=
  ringWit_of { sEnt [(8, 1, 5), (32, 4, 1), (36, 2, 2), (38, 1, 3)] with filters := [⟨1, 1, 2, ⟨0, 0, 0, []⟩, 0, none, []⟩] } (by decide +kernel)
theorem wit_ring_tableRegister : RingWit 8 (opIs 18 4 1 [1, 2]) (fun t _ s e => s.tableStatus t e == 0) :=
  ringWit_of (sEnt [(8, 1, 8), (16, 2, 5), (18, 1, 1), (19, 1, 9), (20, 2, 16), (24, 8, 64), (32, 8, 4096)]) (by decide +kernel)
theorem wit_ring_tableRelease : RingWit 8 (opIs 18 4 2 [1, 2]) (fun t _ s e => s.tableStatus t e == 0) :=
  ringWit_of (sEnt [(8, 1, 8), (16, 2, 4), (18, 1, 2)]) (by decide +kernel)
theorem wit_ring_tableStage : RingWit 9 anyEntry (fun t _ s e => s.stageStatus t e == 0) :=
  ringWit_of (sEnt [(8, 1, 9), (32, 2, 4), (34, 2, 2), (40, 1, 9)]) (by decide +kernel)
theorem wit_ring_tableSwitch : RingWit 0xA anyEntry (fun t _ s e => s.switchStatus t e == 0) :=
  ringWit_of { sEnt [(8, 1, 10), (24, 2, 4), (26, 2, 2)] with emb := { tabs := [{ tab0 with live := 1, stagedShards := [0] }] } } (by decide +kernel)
theorem wit_ring_gather : RingWit 0xB anyEntry (fun t _ s e => (s.bump 0xE09001 1).gatherStatus t e == 0) :=
  ringWit_of (sEnt [(8, 1, 11), (32, 8, 4096), (40, 4, 1), (44, 2, 4), (46, 2, 1), (49, 1, 9)]) (by decide +kernel)
theorem wit_ring_scatter : RingWit 0xC anyEntry (fun t _ s e => (s.bump 0xE09001 1).scatterStatus t e == 0) :=
  ringWit_of (sEnt [(8, 1, 12), (32, 8, 4096), (40, 4, 1), (44, 2, 4), (46, 1, 9), (60, 2, 1)]) (by decide +kernel)
theorem wit_ring_regionAllocate : RingWit 0x0D (opIs 36 4 1 [1, 2, 3]) (fun t _ s e => s.placeStatus t e == 0) :=
  ringWit_of (sEnt [(8, 1, 13), (24, 8, 0x200000), (32, 4, 1), (36, 1, 1)]) (by decide +kernel)
theorem wit_ring_regionFree : RingWit 0x0D (opIs 36 4 2 [1, 2, 3]) (fun t _ s e => s.placeStatus t e == 0) :=
  ringWit_of { sEnt [(8, 1, 13), (36, 1, 2)] with tier := { regions := [⟨1, 0, 1, 0⟩], pages := [page0] } } (by decide +kernel)
theorem wit_ring_regionMove : RingWit 0x0D (opIs 36 4 3 [1, 2, 3]) (fun t _ s e => s.placeStatus t e == 0) :=
  ringWit_of { sEnt [(8, 1, 13), (36, 1, 3)] with tier := { regions := [⟨1, 0, 1, 0⟩], pages := [page0] } } (by decide +kernel)
theorem wit_ring_modelRegister : RingWit 6 (opIs 20 4 1 [1, 2]) (fun t _ s e => s.modelEntryStatus t e == 0) :=
  ringWit_of sModel (by decide +kernel)
theorem wit_ring_modelRelease : RingWit 6 (opIs 20 4 2 [1, 2]) (fun t _ s e => s.modelEntryStatus t e == 0) :=
  ringWit_of { sEnt [(8, 1, 6), (16, 4, 1), (20, 1, 2)] with dense := { models := [mdl0] } } (by decide +kernel)
theorem wit_ring_denseJob : RingWit 7 anyEntry (fun t _ s e => s.densePasses t e) :=
  ringWit_of { (sEnt [(8, 1, 7), (24, 8, 4096), (32, 8, 8192), (40, 4, 1), (44, 2, 1), (50, 1, 9)]) with dense := { models := [mdl0] } } (by decide +kernel)
theorem wit_ring_indexRegister : RingWit 3 anyEntry (fun t seq s e => s.indexStatus t seq e == 0) :=
  ringWit_of sIndex (by decide +kernel)

/-! ### Witnesses written out -/

theorem wit_RingChecksRefuse_1 : ∃ (s : State) (t seq : Nat) (bad : Bool), s.running = true ∧ s.covered t seq = true ∧ s.room t = true ∧
    (bad || s.poisoned t (s.slotAddr t seq) 128 || !kindValid false (entryKind (s.entryOf t seq))) = true :=
  ⟨sEnt [], 1, 1, true, by decide +kernel⟩
theorem wit_NarrowElementsArePacked_1 : ∃ (w : Nat) (cs : List Nat), (w = 1 ∨ w = 2 ∨ w = 4) ∧ (∀ c ∈ cs, c < 2 ^ w) ∧ ∃ k j, j < 8 / w ∧ 8 / w * k + j < cs.length :=
  ⟨4, [1, 2, 15], by decide, by decide, 1, 0, by decide⟩
theorem wit_SilentSensorsAreHot_1 : ∃ (n : Nat) (v : Int), 1 ≤ n ∧ n ≤ 33 ∧ -2147483648 < v ∧ v < 2 ^ 31 ∧ v < throttleOf n :=
  ⟨33, 0, by decide +kernel⟩
/-- The mailbox is read at a request of each kind (R449, R450, R452): a read, a write, a signed command. -/
theorem wit_RegistersAndRequests_7 : ∀ kind ∈ [0x20, 0x21, 0x22], ∃ (s : State) (seq : Nat) (badBuf : Bool), s.running = true ∧ s.memOk = true ∧
    s.covered systemTenant seq = true ∧ seq = (s.ring systemTenant).cLive + 1 ∧ s.link.taken < s.reg 0xC00008 ∧ s.room systemTenant = true ∧
    s.poisoned systemTenant (s.slotAddr systemTenant seq) 128 = false ∧ s.mailboxRingCheck seq false badBuf (s.entryOf systemTenant seq) = none ∧
    (eNat (s.entryOf systemTenant seq) 32 8 = 0 ∨ (0x100000 ≤ eNat (s.entryOf systemTenant seq) 32 8 ∧
      eNat (s.entryOf systemTenant seq) 32 8 + eNat (s.entryOf systemTenant seq) 28 4 ≤ 0x200000 ∧
      s.bufClash (eNat (s.entryOf systemTenant seq) 32 8) (eNat (s.entryOf systemTenant seq) 28 4) = none)) ∧
    entryKind (s.entryOf systemTenant seq) = kind ∧ badBuf = false := by
  intro kind hk
  simp only [List.mem_cons, List.not_mem_nil, or_false] at hk
  rcases hk with rfl | rfl | rfl
  · exact ⟨sMail 0x20, 1, false, by decide +kernel⟩
  · exact ⟨sMail 0x21, 1, false, by decide +kernel⟩
  · exact ⟨sMail 0x22, 1, false, by decide +kernel⟩
/-- The value of that signed command holds no write, so its first write agrees with the request (clause 8). -/
theorem wit_RegistersAndRequests_8 : ∀ w ∈ (parseSigned ((sMail 0x22).mailboxValue ((sMail 0x22).entryOf systemTenant 1))).writes.head?,
    w.index = eNat ((sMail 0x22).entryOf systemTenant 1) 24 2 ∧ w.sub = eNat ((sMail 0x22).entryOf systemTenant 1) 26 1 := by decide +kernel

end Sys2Proof.Tests
end

section
/-! PROOF. Write windows (O31). A write window that opens may have a waiting image refused; the build of that image then fails, the staged successor is discarded and its pages
are given back (R223). A page that has held a poisoned line is retired instead of freed (R302), and the model scores its stack: `fault` changes. -/

namespace Sys2Proof.Machine

/-- The effect of the row WINDOW_OPEN in the running state (R306). -/
theorem exec_windowOpen {s : State} {w : Nat} (hrun : s.running = true) (hw : w < 4) :
    exec (.windowOpen w) s = .next { s.openWindow w with pending := s.pending } := by
  change live s (fun s => if w < 4 then s.openWindow w else s) = _
  rw [live_running hrun, if_pos hw]

/-- What the row WINDOW_OPEN leaves in `fault` is what opening the window leaves there. -/
theorem exec_windowOpen_fault {s t : State} {w : Nat} (hrun : s.running = true) (hw : w < 4) (h : exec (.windowOpen w) s = .next t) :
    t.fault = (s.openWindow w).fault := by
  rw [exec_windowOpen hrun hw] at h
  cases h
  rfl

/-- An image of a shard of index 2 of tenant 1: version 2, the successor of the live version 1. -/
def refusedImage (shard : Nat) : Image where
  version := 2
  index := 2
  tenant := 1
  shard := shard
  shards := 2
  lists := 2
  m := 1
  shape := 0
  d := 1
  dim := 4
  rr := 9
  kind := 0
  fold := 0
  items := 0
  cbset := 0
  margin := 0
  digest := []
  codebook := []
  centroids := []
  listShard := [0, 1]
  listTable := []
  centShingles := []
  shingles := []
  itemMap := []

/-- That index on a Molset that is a copy of shard 0 and the flash holder of shard 1: the successor of shard 0 is staged in hidden page 2^27, and the image of shard 1
waits for a window. -/
def refusedIdx : Idx where
  slot := 0
  desc := {
    tenant := 1, index := 2, shards := 2, lists := 2, m := 1, shape := 0, d := 1, dim := 4, rr := 9, spill := false, margin := 0, deltaLimit := 100 }
  home := 0
  regTick := 0
  thatches := [{ im := refusedImage 0, st := 0, pages := [2 ^ 27] }]
  heldWait := [refusedImage 1]

/-- Service, in which no window is open, with that index: the region of tenant 1 is read-only (0x7048), and the hidden page lies in stack 0 and has held a poisoned line. -/
def refusedImageState : State :=
  { ((State.reset.setReg 0x701001 0).setReg (pagedKey 0x7048 1) 1).setReg (pagedKey 0x4042 0) 1 with
    idx := [refusedIdx]
    tier := { pages := [{ tenant := 1, page := 2 ^ 27, home := .stack 0, poisoned := true }] } }

/-- Before the publish window opens no part has an event in its score. -/
theorem refusedImageState_events : refusedImageState.fault.events = [] := by decide +kernel

/-- When it opens, the retired page is charged to stack 0 with weight 1,024. -/
theorem refusedImageState_openWindow_events : (refusedImageState.openWindow 1).fault.events = [(partStack * 4096 + 0, 0, 1024)] := by decide +kernel

/-- Refutes O31: the frame that its first clause gives to every window that opens leaves out `fault`. In `refusedImageState` the publish window opens and writes the waiting
image; the read-only region refuses it, so the build fails and the page of the staged successor is given back. That page has held a poisoned line, and retiring it charges
its stack in the part scores, which are in `fault`. -/
theorem not_writesReachFlash : ¬ Obligations.WritesReachFlash := by
  unfold Obligations.WritesReachFlash
  rintro ⟨⟨windowOpens, -⟩, -⟩
  have hrun : refusedImageState.running = true := by decide +kernel
  have hclosed : bit (refusedImageState.reg 0x701001) 1 = false := by decide +kernel
  obtain ⟨t, hexec, -, -, -, -, -, hkeeps⟩ := windowOpens refusedImageState 1 hrun (by decide) hclosed
  have hkept : t.fault = refusedImageState.fault := hkeeps .fault (by decide)
  have hopen : t.fault = (refusedImageState.openWindow 1).fault := exec_windowOpen_fault hrun (by decide) hexec
  have hevents : (refusedImageState.openWindow 1).fault.events = refusedImageState.fault.events := by rw [← hopen, hkept]
  rw [refusedImageState_openWindow_events, refusedImageState_events] at hevents
  exact List.cons_ne_nil _ _ hevents

end Sys2Proof.Machine
end

section
/-! PROOF. Counters only grow (O5). `Moves` says what a command that keeps the power on can do to the counters and to memory; the rules of `Moves` follow the model's functions
one by one, in the order of the model's files: the lemma of a function bears the function's name. -/

set_option Elab.async false

namespace Sys2Proof.Machine

/-- The moves that commands are made of, as far as the counters and memory go: a step beside both, a count, a store, a range that is cleared, and memory that is lost while the
counters stay, as at a warm reach (R519). Cutting a counter back is not among them. -/
inductive Moves : State → State → Prop
  | beside {s t : State} : t.cum = s.cum → t.mem = s.mem → Moves s t
  | count (s : State) (k : Key) (n : Nat) : Moves s (s.bump k n)
  | write (s : State) (t a : Nat) (bs : List Byte) : Moves s (s.store t a bs)
  | clear {s t : State} (a n : Nat) : t.cum = s.cum → t.mem = Memory.clear s.mem a n → Moves s t
  | empty {s t : State} : t.cum = s.cum → t.mem = [] → Moves s t
  | trans {s t u : State} : Moves s t → Moves t u → Moves s u

/-- An outcome whose next state, where it has one, is reached by moves. -/
def ResMoves (s : State) (r : Res) : Prop := ∀ t, r = .next t → Moves s t

/-- No move lets a counter read less. -/
theorem Moves.countsGrow {s t : State} (h : Moves s t) : countsGrow s t := by
  induction h with
  | beside hcum _ => exact countsGrow_of_cum hcum
  | count s k n => exact State.bump_countsGrow s k n
  | write s t a bs => exact countsGrow_of_cum rfl
  | clear _ _ hcum _ => exact countsGrow_of_cum hcum
  | empty hcum _ => exact countsGrow_of_cum hcum
  | trans _ _ hst htu => exact Machine.countsGrow.trans hst htu

namespace Moves

variable {o s t : State}

/-! ### Rules of the moves themselves -/

@[refl] theorem refl (s : State) : Moves s s := .beside rfl rfl

theorem bump (h : Moves o s) (k n) : Moves o (s.bump k n) := h.trans (.count ..)

theorem store (h : Moves o s) (a b c) : Moves o (s.store a b c) := h.trans (.write ..)

theorem zeroRange (h : Moves o s) (a b c) : Moves o (s.zeroRange a b c) := h.trans (.clear _ _ rfl rfl)

/-- A state written out as a record beside the counters and memory of `s`. -/
theorem aside (h : Moves o s) {pending regs blobs run last dict poison time spin ctl home copy passes filters rerank idx regWait upd builds
      dense emb tier flash ports net map fault sched rings link sec pwr mgmtOut free} :
    Moves o (State.mk pending regs blobs s.cum run last dict s.mem poison time spin ctl home copy passes filters rerank idx regWait upd builds
      dense emb tier flash ports net map fault sched rings link sec pwr mgmtOut free) :=
  h.trans (.beside rfl rfl)

/-- A state written out as a record that clears a range of the memory of `s`. -/
theorem asideClear (h : Moves o s) {a n pending regs blobs run last dict poison time spin ctl home copy passes filters rerank idx regWait upd
      builds dense emb tier flash ports net map fault sched rings link sec pwr mgmtOut free} :
    Moves o (State.mk pending regs blobs s.cum run last dict (Memory.clear s.mem a n) poison time spin ctl home copy passes filters rerank idx
      regWait upd builds dense emb tier flash ports net map fault sched rings link sec pwr mgmtOut free) :=
  h.trans (.clear a n rfl rfl)

theorem ite {p : Prop} {_ : Decidable p} (h : Moves o s) (g : Moves o t) : Moves o (if p then s else t) := by split <;> assumption

theorem ite_fst {α : Type} {a b : State × α} {p : Prop} {_ : Decidable p} (h : Moves o a.1) (g : Moves o b.1) : Moves o (if p then a else b).1 := by
  split <;> assumption

theorem foldl {α : Type} {f : State → α → State} (l : List α) {t : State} (h : Moves s t) (hf : ∀ t a, Moves s t → Moves s (f t a)) :
    Moves s (l.foldl f t) := by
  induction l generalizing t with
  | nil => exact h
  | cons a l ih => exact ih (hf t a h)

theorem foldl_fst {α β : Type} {f : State × β → α → State × β} (l : List α) {t : State × β} (h : Moves s t.1)
    (hf : ∀ t a, Moves s t.1 → Moves s (f t a).1) : Moves s (l.foldl f t).1 := by
  induction l generalizing t with
  | nil => exact h
  | cons a l ih => exact ih (hf t a h)

/-! ### The wrappers of the command rows -/

theorem always {f : State → State} (h : Moves s (f s)) : ResMoves s (always s f) := by
  rintro _ ⟨⟩; exact h.aside

theorem live {f : State → State} (h : Moves s (f s)) : ResMoves s (live s f) := by
  rintro _ ⟨⟩; split
  · exact h.aside
  · exact refl _

theorem liveFor {f : State → State} (t) (h : Moves s (f s)) : ResMoves s (liveFor t s f) := by
  refine live ?_
  split
  · exact (refl s).bump ..
  · exact h

theorem dapLive {f : State → State} (h : Moves s (f s)) : ResMoves s (dapLive s f) := by
  refine always ?_
  split
  · exact h
  · exact refl _

/-- A row that runs within another row. -/
theorem runRes {f : State → Res} (h : Moves o s) (hf : ∀ s, ResMoves s (f s)) : Moves o (runRes f s) := by
  unfold Machine.runRes
  have := hf s
  cases e : f s with
  | next t => exact h.trans (this t e)
  | fault r => exact h
  | refused r => exact h

/-! ### The functions of Machine/Ops -/

theorem setReg (h : Moves o s) (k v) : Moves o (s.setReg k v) := h.aside

theorem setRegI (h : Moves o s) (w k i) : Moves o (s.setRegI w k i) := h.setReg _ _

theorem setBlob (h : Moves o s) (k b) : Moves o (s.setBlob k b) := h.aside

theorem bumpIf (h : Moves o s) (b k) : Moves o (s.bumpIf b k) := by
  unfold State.bumpIf
  exact ite (h.bump _ _) h

theorem draw (h : Moves o s) : Moves o s.draw.2 := by
  unfold State.draw
  dsimp only
  exact h.aside

theorem issue (h : Moves o s) (tier ctx tenant addr stage q) : Moves o (s.issue tier ctx tenant addr stage q) := h.aside

theorem stampUp (h : Moves o s) : Moves o s.stampUp := h.aside

theorem poisonLine (h : Moves o s) (tenant addr) : Moves o (s.poisonLine tenant addr) := h.aside

theorem sendAt (h : Moves o s) (dst kind tenant epoch role m) : Moves o (s.sendAt dst kind tenant epoch role m) := by
  unfold State.sendAt
  exact ite (h.bumpIf _ _) ((h.bumpIf _ _).aside)

theorem send (h : Moves o s) (dst kind tenant m) : Moves o (s.send dst kind tenant m) := h.sendAt _ _ _ _ _ _

theorem sendRole (h : Moves o s) (dst kind tenant m) : Moves o (s.sendRole dst kind tenant m) := h.sendAt _ _ _ _ _ _

theorem sendAll (h : Moves o s) (dsts kind tenant role m) : Moves o (s.sendAll dsts kind tenant role m) := foldl _ h fun _ _ h => h.sendAt _ _ _ _ _ _

theorem sendEach (h : Moves o s) (dsts kind tenant epoch m) : Moves o (s.sendEach dsts kind tenant epoch m) :=
  foldl _ h fun _ _ h => h.sendAt _ _ _ _ _ _

theorem logReq (h : Moves o s) (name dst m) : Moves o (s.logReq name dst m) := h.aside

theorem score (h : Moves o s) (kind no weight) : Moves o (s.score kind no weight) := h.aside

theorem mgmtCopy (h : Moves o s) (m) : Moves o (s.mgmtCopy m) := by
  unfold State.mgmtCopy
  split
  · exact h.aside
  · exact h

theorem sendFault (h : Moves o s) (dsts m) : Moves o (s.sendFault dsts m) := (h.sendAll _ _ _ _ _).mgmtCopy _

theorem takeReport (h : Moves o s) (m) : Moves o (s.takeReport m) := by
  unfold State.takeReport
  dsimp only
  split
  · exact h
  · exact ite h h.aside

theorem raiseFault (h : Moves o s) (code node partKind partNo detail) : Moves o (s.raiseFault code node partKind partNo detail) :=
  (h.sendFault _ _).takeReport _

theorem outOfPhase (h : Moves o s) : Moves o s.outOfPhase := by
  unfold State.outOfPhase
  exact ite h ((((h.setReg _ _).bump _ _).aside).raiseFault _ _ _ _ _)

theorem setReference (h : Moves o s) (ref) : Moves o (s.setReference ref) := by
  unfold State.setReference
  exact ite h (h.aside.setReg _ _)

theorem stale (h : Moves o s) : Moves o s.stale := (h.bump _ _).outOfPhase

/-! ### The functions of Machine/Numbers -/

theorem charge (h : Moves o s) (sp c) : Moves o (s.charge sp c) := by
  unfold State.charge
  dsimp only
  split
  · exact ((((((((((((h.bump _ _).bump _ _).bump _ _).bump _ _).bump _ _).bump _ _).bump _ _).bump _ _).bump _ _).bump _ _).bump _ _).bump _ _).bump _ _
  · exact ((((((((((h.bump _ _).bump _ _).bump _ _).bump _ _).bump _ _).bump _ _).bump _ _).bump _ _).bump _ _).bump _ _).bump _ _

theorem reservedFmt (h : Moves o s) (fmt) : Moves o (s.reservedFmt fmt) := h.bumpIf _ _

/-! ### The functions of Machine/Media -/

theorem countStream (h : Moves o s) (sp c cycles) : Moves o (s.countStream sp c cycles) := by
  unfold State.countStream
  extract_lets counted again
  have hc : Moves o counted := (((h.bump _ _).bump _ _).bump _ _).bump _ _
  clear_value counted
  have ha : Moves o again := ite hc (hc.bump _ _)
  exact ite (ha.raiseFault _ _ _ _ _) ha

theorem refuseWrite (h : Moves o s) (status) : Moves o (s.refuseWrite status) := (h.setReg _ _).bump _ _

/-! ### The functions of Machine/Rings -/

theorem setRing (h : Moves o s) (r) : Moves o (s.setRing r) := h.aside

theorem leave (h : Moves o s) (t seq) : Moves o (s.leave t seq) := h.setRing _

theorem complete (h : Moves o s) (t seq kind status flags tag skein detail late) : Moves o (s.complete t seq kind status flags tag skein detail late) := by
  unfold State.complete
  exact ite h (((h.store _ _ _).bump _ _).setRing _)

theorem refuse (h : Moves o s) (t seq kind status flags tag) : Moves o (s.refuse t seq kind status flags tag) :=
  (h.leave _ _).complete _ _ _ _ _ _ _ _ _

theorem markReady (h : Moves o s) (t seq kind cost bulk) : Moves o (s.markReady t seq kind cost bulk) := h.setRing _

theorem checkEntry (h : Moves o s) (t seq bad) {check} (hc : ∀ s e, Moves o s → Moves o (check s e).1) : Moves o (s.checkEntry t seq bad check) := by
  unfold State.checkEntry
  split
  · exact h
  split
  · exact (h.setRing _).bump _ _
  have looked := (h.setRing { s.ring t with held := 0 }).bump 0xE0F00A 1
  dsimp only
  split
  · exact (looked.bump _ _).refuse _ _ _ _ _ _
  · have checked := hc _ (((s.setRing { s.ring t with held := 0 }).bump 0xE0F00A 1).entryOf t seq) looked
    split <;> rename_i e <;> rw [e] at checked
    · exact checked.refuse _ _ _ _ _ _
    · exact checked.refuse _ _ _ _ _ _
    · exact checked.setRing _
    · exact checked.markReady _ _ _ _ _

theorem ringRow (h : Moves o s) (t seq bad kind mine) {check} (hc : ∀ s e, Moves o s → Moves o (check s e).1) :
    Moves o (s.ringRow t seq bad kind mine check) :=
  .ite (h.checkEntry _ _ _ hc) h

/-! ### The functions of Machine/Share -/

theorem setWq (h : Moves o s) (q) : Moves o (s.setWq q) := h.aside

theorem tagHead (h : Moves o s) (res tenant bulk cost) : Moves o (s.tagHead res tenant bulk cost) := by
  unfold State.tagHead
  exact ite h ((h.setWq _).bumpIf _ _)

theorem sleepQueue (h : Moves o s) (res tenant bulk) : Moves o (s.sleepQueue res tenant bulk) := by
  unfold State.sleepQueue
  exact ite h (h.setWq _)

theorem refillOne (h : Moves o s) (t res bulk) : Moves o (s.refillOne t res bulk) := h.setRegI _ _ _

theorem refill (h : Moves o s) (res) : Moves o (s.refill res) := foldl _ h fun _ _ h => foldl _ h fun _ _ h => (h.refillOne _ _ _).refillOne _ _ _

theorem bucketTake (h : Moves o s) (t res bulk cost) : Moves o (s.bucketTake t res bulk cost) := by
  unfold State.bucketTake
  exact ite h (h.setRegI _ _ _)

theorem serveWant (h : Moves o s) (res w) : Moves o (s.serveWant res w) := by
  unfold State.serveWant
  dsimp only
  split
  · exact h.tagHead _ _ _ _
  · exact (((h.tagHead _ _ _ _).setWq _).aside).bucketTake _ _ _ _

theorem serveNow (h : Moves o s) (res w) : Moves o (s.serveNow res w) := (h.serveWant _ _).sleepQueue _ _ _

theorem tagWants (h : Moves o s) (res cap l) : Moves o (s.tagWants res cap l) := by
  unfold State.tagWants
  refine .foldl _ h fun _ _ h => ?_
  dsimp only
  split
  · exact ite (h.tagHead _ _ _ _) (h.sleepQueue _ _ _)
  · exact h

theorem serveLoop (h : Moves o s) (res cap n used l left) : Moves o (Machine.serveLoop res cap n used l left s).1 := by
  induction n generalizing s used l left with
  | zero => exact h
  | succ n ih =>
    unfold Machine.serveLoop
    dsimp only
    split
    · exact h.tagWants _ _ _
    · exact ih ((h.tagWants _ _ _).serveWant _ _) _ _ _

theorem serveAll (h : Moves o s) (res cap l) : Moves o (s.serveAll res cap l).1 := by
  unfold State.serveAll
  split
  · exact h
  · dsimp only
    exact foldl _ (h.serveLoop _ _ _ _ _ _) fun _ _ h => h.sleepQueue _ _ _

theorem leavePort (h : Moves o s) (e) : Moves o (s.leavePort e) := h.aside.bump _ _

theorem serveEgress (h : Moves o s) (port) : Moves o (s.serveEgress port) :=
  foldl _ ((foldl _ h fun _ _ h => h.leavePort _).serveAll _ _ _) fun _ _ h => h.leavePort _

theorem serveReads (h : Moves o s) (res) : Moves o (s.serveReads res) := (h.serveAll _ _ _).aside

theorem serveFrame (h : Moves o s) : Moves o s.serveFrame := (((foldl _ h fun _ _ h => h.serveEgress _).serveReads _).serveReads _).aside

theorem sentOut (h : Moves o s) (gone) : Moves o (s.sentOut gone) := by
  unfold State.sentOut
  exact foldl _ h fun _ _ h => ite (h.leavePort _) (ite ((h.leavePort _).serveWant _ _) (((h.leavePort _).serveWant _ _).sleepQueue _ _ _))

theorem askRead (h : Moves o s) (res tenant bulk blocks what) : Moves o (s.askRead res tenant bulk blocks what) := h.aside

theorem readDone (h : Moves o s) (what) : Moves o (s.readDone what) := by
  unfold State.readDone
  split
  · exact h
  · exact ite (h.aside.serveWant _ _) ((h.aside.serveWant _ _).sleepQueue _ _ _)

theorem dropRead (h : Moves o s) (p') : Moves o (s.dropRead p') := h.aside

theorem dealTag (h : Moves o s) (tenant bulk cost) : Moves o (s.dealTag tenant bulk cost) := by
  unfold State.dealTag
  dsimp only
  split
  · exact h.tagHead _ _ _ _
  · exact ((h.tagHead _ _ _ _).setWq _).aside

theorem dealtOut (h : Moves o s) (tenant) : Moves o (s.dealtOut tenant) := (h.sleepQueue _ _ _).sleepQueue _ _ _

/-! ### The functions of Machine/Pages -/

theorem tierRegs (h : Moves o s) (t) : Moves o (s.tierRegs t) := (((h.setReg _ _).setReg _ _).setReg _ _).setReg _ _

theorem addFree (h : Moves o s) (h' n) : Moves o (s.addFree h' n) := by
  unfold State.addFree
  dsimp only
  split
  · exact h.aside
  · exact h.aside

theorem takePage (h : Moves o s) {board u} (e : s.takePage board = some u) : Moves o u.1 := by
  obtain ⟨n, -, rfl⟩ := Option.map_eq_some_iff.1 e
  exact h.addFree _ _

theorem giveHome (h : Moves o s) (h' poisoned) : Moves o (s.giveHome h' poisoned) := by
  unfold State.giveHome
  exact ite ((h.bump _ _).score _ _ _) (h.addFree _ _)

theorem hidStore (h : Moves o s) (t addr bs) : Moves o (s.hidStore t addr bs) := h.store _ _ _

theorem dropPage (h : Moves o s) (p') : Moves o (s.dropPage p') := by
  unfold State.dropPage
  exact (ite ((h.giveHome _ _).zeroRange _ _ _) ((h.giveHome _ _).zeroRange _ _ _)).aside

theorem allocPages (h : Moves o s) (t board pages) : Moves o (s.allocPages t board pages) := by
  unfold State.allocPages
  refine .foldl _ h fun _ _ h => ?_
  split
  · rename_i e; exact (h.takePage e).aside
  · exact h

theorem zeroPages (h : Moves o s) (z) : Moves o (s.zeroPages z) := h.aside

theorem takeHidden (h : Moves o s) (t board n) : Moves o (s.takeHidden t board n).1 := by
  unfold State.takeHidden
  split
  · dsimp only
    exact h.bump _ _
  · dsimp only
    exact (((h.allocPages _ _ _).aside).bump _ _).tierRegs _

theorem dropHidden (h : Moves o s) (t pages) : Moves o (s.dropHidden t pages) := by
  unfold State.dropHidden
  exact ite h ((foldl _ h fun _ _ h => h.dropPage _).tierRegs _)

theorem repackPage (h : Moves o s) (p) : Moves o (s.repackPage p) := by
  unfold State.repackPage
  generalize s.packPage p.tenant p.page = packed
  obtain ⟨map, n⟩ := packed
  rcases e : s.takePage true with _ | ⟨u, place⟩
  · exact (((h.bump _ _).bump _ _).bump _ _).aside
  · exact ((((((h.takePage e).giveHome _ _).bump _ _).bump _ _).bump _ _).bump _ _).aside

theorem repackBlock (h : Moves o s) (t page b) : Moves o (s.repackBlock t page b) := by
  unfold State.repackBlock
  split
  · exact h
  · split
    · exact h
    · generalize packBlock _ = packed
      obtain ⟨mode, bs⟩ := packed
      exact ite (h.repackPage _) ((h.bump _ _).bump _ _).aside

theorem memWrite (h : Moves o s) (t addr bs) : Moves o (s.memWrite t addr bs) := by
  unfold State.memWrite
  exact ite h (ite (h.bump _ _) (foldl _ (h.store _ _ _) fun _ _ h => h.repackBlock _ _ _))

theorem readLine (h : Moves o s) (t addr n bad badAgain) : Moves o (s.readLine t addr n bad badAgain).1 := by
  unfold State.readLine
  split
  · exact h
  · split
    · exact h
    · dsimp only
      split
      · dsimp only
        exact ((h.bump _ _).score _ _ _).poisonLine _ _
      · dsimp only
        exact (h.bump _ _).score _ _ _

/-! ### The functions of Machine/Select -/

theorem scoreDups (h : Moves o s) (d sps) : Moves o (s.scoreDups d sps) := by
  unfold State.scoreDups
  have hs : Moves o (if d.eq == 0 then (0, s) else s.draw).2 := by
    split
    · exact h
    · exact h.draw
  refine .foldl _ hs fun _ _ h => ?_
  exact ite (ite h (h.score _ _ _)) ((ite h (h.score _ _ _)).score _ _ _)

theorem countDups (h : Moves o s) (d oneShard) : Moves o (s.countDups d oneShard) := by
  unfold State.countDups
  exact ite (((h.bump _ _).bump _ _).bump _ _) ((h.bump _ _).bump _ _)

/-! ### The functions of Machine/Search -/

theorem setSp (h : Moves o s) (n p') : Moves o (s.setSp n p') := h.aside

theorem countZero (h : Moves o s) (cycles) : Moves o (s.countZero cycles) := (h.bump _ _).bump _ _

theorem zeroFor (h : Moves o s) (p' held o' cycles) : Moves o (s.zeroFor p' held o' cycles) := by
  unfold State.zeroFor
  exact ite h (h.countZero _)

theorem setCopy (h : Moves o s) (c) : Moves o (s.setCopy c) := h.aside

theorem startCopy (h : Moves o s) (kind src dst dsts) : Moves o (s.startCopy kind src dst dsts) := by
  unfold State.startCopy
  exact ite h h.aside

theorem flushSet (h : Moves o s) (sp k) : Moves o (s.flushSet sp k) := by
  unfold State.flushSet
  dsimp only
  split
  · exact h
  · split
    · exact (h.setSp _ _).setCopy _
    · exact h.setSp _ _

theorem flushSets (h : Moves o s) (sp) : Moves o (s.flushSets sp) := foldl _ h fun _ _ h => h.flushSet _ _

theorem zeroBobbin (h : Moves o s) (n o') : Moves o (s.zeroBobbin n o') := ((((h.flushSets _).setSp _ _).countZero _).startCopy _ _ _ _).aside

theorem zeroNow (h : Moves o s) (n o') : Moves o (s.zeroNow n o') := (h.zeroBobbin _ _).setSp _ _

theorem prepareSp (h : Moves o s) (n o') : Moves o (s.prepareSp n o') := by
  unfold State.prepareSp
  exact ite h (h.zeroBobbin _ _)

theorem bindSlot (h : Moves o s) (n slot q temp) : Moves o (s.bindSlot n slot q temp) := h.setSp _ _

theorem loadSlot (h : Moves o s) (n k c desc t) : Moves o (s.loadSlot n k c desc t) := (h.zeroFor _ _ _ _).setSp _ _

theorem freeOne (h : Moves o s) (n k) : Moves o (s.freeOne n k) := h.setSp _ _

theorem freeSlot (h : Moves o s) (n q) : Moves o (s.freeSlot n q) := by
  unfold State.freeSlot
  exact foldl _ h fun _ _ h => ite (h.freeOne _ _) h

theorem freeSlotsAll (h : Moves o s) (q) : Moves o (s.freeSlotsAll q) := foldl _ h fun _ _ h => h.freeSlot _ _

theorem takeItem (h : Moves o s) (n) : Moves o (s.takeItem n) := by
  unfold State.takeItem
  dsimp only
  split
  · split
    · exact h
    · split
      · exact ite (h.zeroBobbin _ _) h
      · split
        · exact h
        · exact (((h.zeroFor _ _ _ _).bumpIf _ _).aside).setSp _ _
  · exact h

theorem schedule (h : Moves o s) (n) : Moves o (s.schedule n) := by
  unfold State.schedule
  dsimp only
  split
  · exact foldl _ h fun _ _ h => h.takeItem _
  · split
    · exact ((foldl _ h fun _ _ h => h.takeItem _).setSp _ _).bump _ _
    · exact foldl _ h fun _ _ h => h.takeItem _

theorem countStall (h : Moves o s) (n but cycles) : Moves o (s.countStall n but cycles) := by
  unfold State.countStall
  exact ite h (h.bump _ _)

theorem freeCtx (h : Moves o s) (n c) : Moves o (s.freeCtx n c) := h.aside.setSp _ _

theorem setIdx (h : Moves o s) (x) : Moves o (s.setIdx x) := h.aside

theorem setHome (h : Moves o s) (h') : Moves o (s.setHome h') := h.aside

theorem widenCharge (h : Moves o s) (h' n) : Moves o (s.widenCharge h' n) := ((h.setReg _ _).bump _ _).aside

theorem stopLocal (h : Moves o s) (q) : Moves o (s.stopLocal q) := h.aside

theorem decideOnce (h : Moves o s) (q) : Moves o (s.decideOnce q) := by
  unfold State.decideOnce
  split
  · exact h
  · exact ite h (ite (h.setHome _) (ite (((((h.setHome _).bump _ _).bumpIf _ _).sendEach _ _ _ _ _).stopLocal _) ((((((h.setHome _).bump _ _).bump _ _).bumpIf _ _).widenCharge _ _).sendEach _ _ _ _ _)))

theorem decideLoop (h : Moves o s) (n q) : Moves o (Machine.decideLoop n q s) := by
  induction n generalizing s with
  | zero => exact h
  | succ n ih =>
    unfold Machine.decideLoop
    dsimp only
    split
    · exact .ite (ih (h.decideOnce _)) (h.decideOnce _)
    · exact h.decideOnce _

theorem decideStep (h : Moves o s) (q) : Moves o (s.decideStep q) := h.decideLoop _ _

theorem homeReport (h : Moves o s) (r) : Moves o (s.homeReport r) := by
  unfold State.homeReport
  split
  · exact h
  · exact ite h (((h.setHome _).bumpIf _ _).decideStep _)

theorem stepDone (h : Moves o s) (q sh) : Moves o (s.stepDone q sh) := by
  unfold State.stepDone
  split
  · exact h
  · exact ite (((h.setCopy _).bump _ _).homeReport _) (((h.setCopy _).bump _ _).sendAt _ _ _ _ _ _)

theorem lendTables (h : Moves o s) {kind src dst qs u} (e : s.lendTables kind src dst qs = some u) : Moves o u.1 := by
  unfold State.lendTables at e
  simp only [Option.ite_none_left_eq_some] at e
  obtain ⟨-, e⟩ := e
  cases e
  exact (Moves.foldl _ (h.prepareSp _ _) fun _ _ h => h.bindSlot _ _ _ _).startCopy _ _ _ _

theorem copyTables (h : Moves o s) {kind src dst slots u} (e : s.copyTables kind src dst slots = some u) : Moves o u.1 := by
  obtain ⟨v, lent, rfl⟩ := Option.map_eq_some_iff.1 e
  exact h.lendTables lent

theorem placeCopy (h : Moves o s) {src c it qs u} (e : s.placeCopy src c it qs = some u) : Moves o u := by
  unfold State.placeCopy at e
  split at e
  · cases e
  · obtain ⟨v, lent, rfl⟩ := Option.map_eq_some_iff.1 e
    split at lent
    · exact (h.lendTables lent).setSp _ _
    · cases lent
      exact h.setSp _ _

theorem placeChecker (h : Moves o s) (n it) : Moves o (s.placeChecker n it) := by
  unfold State.placeChecker
  extract_lets qs
  split
  · exact h.bump _ _
  · rename_i e
    obtain ⟨c, -, e⟩ := Option.bind_eq_some_iff.1 e
    obtain ⟨v, placed, e⟩ := Option.map_eq_some_iff.1 e
    cases e
    exact (h.placeCopy placed).aside.schedule _

theorem sampleItem (h : Moves o s) (n it) : Moves o (s.sampleItem n it) := by
  unfold State.sampleItem
  exact ite h ((h.placeChecker _ _).bumpIf _ _)

theorem waitItem (h : Moves o s) (it qs) : Moves o (s.waitItem it qs) := h.aside

theorem enqueue (h : Moves o s) (n it) : Moves o (s.enqueue n it) := by
  unfold State.enqueue
  exact ite (h.setSp _ _) (h.waitItem _ _)

theorem dealItem (h : Moves o s) (h' c d) : Moves o (State.dealItem h' c s d) := by
  unfold State.dealItem
  dsimp only
  split
  · refine .sampleItem ?_ _ _
    refine .foldl _ ?_ fun _ _ h => ite h (h.dealTag _ _ _)
    refine .foldl _ ?_ fun _ _ h => ?_
    · split
      · exact h.enqueue _ _
      · exact h.waitItem _ _
    · split
      · exact h.setCopy _
      · exact h
  · refine .foldl _ ?_ fun _ _ h => ite h (h.dealTag _ _ _)
    refine .foldl _ ?_ fun _ _ h => ?_
    · split
      · exact h.enqueue _ _
      · exact h.waitItem _ _
    · split
      · exact h.setCopy _
      · exact h

theorem dealAsks (h : Moves o s) (h' l) : Moves o (s.dealAsks h' l) := by
  unfold State.dealAsks
  refine .foldl _ ?_ fun _ _ h => ?_
  · split
    · split
      · refine .foldl _ ?_ fun _ _ h => ?_
        · split
          · exact foldl _ h fun _ _ h => h.dealItem _ _ _
          · exact h
        · split
          · exact ite (h.stepDone _ _) h
          · exact h
      · refine .dealtOut ?_ _
        refine .foldl _ ?_ fun _ _ h => ?_
        · split
          · exact foldl _ h fun _ _ h => h.dealItem _ _ _
          · exact h
        · split
          · exact ite (h.stepDone _ _) h
          · exact h
    · refine .foldl _ ?_ fun _ _ h => ?_
      · split
        · exact foldl _ h fun _ _ h => h.dealItem _ _ _
        · exact h
      · split
        · exact ite (h.stepDone _ _) h
        · exact h
  · split
    · exact h.schedule _
    · exact h

theorem deal (h : Moves o s) (h' qs) : Moves o (s.deal h' qs) := by
  unfold State.deal
  refine .dealAsks ?_ _ _
  refine .foldl _ h fun _ _ h => ?_
  split
  · exact h.setCopy _
  · exact h

theorem dealView (h : Moves o s) (t i skein) : Moves o (s.dealView t i skein) := by
  unfold State.dealView
  refine .foldl _ h fun _ _ h => ?_
  dsimp only
  split
  · exact h
  · refine .dealAsks ?_ _ _
    refine .foldl _ h fun _ _ h => ?_
    split
    · exact h.setCopy _
    · exact h

theorem placeWaiting (h : Moves o s) (n) : Moves o (s.placeWaiting n) := by
  unfold State.placeWaiting
  refine ite h ?_
  split
  · exact h
  split
  · exact h
  refine ite ((h.setCopy _).deal _ _) ?_
  split
  · exact h
  split
  · rename_i e; exact ((h.copyTables e).setCopy _).deal _ _
  · exact h

theorem homeHank (h : Moves o s) (h' src) : Moves o (s.homeHank h' src) := by
  unfold State.homeHank
  dsimp only
  split
  · exact ite (h.bump _ _) (((h.bump _ _).aside).sendAt _ _ _ _ _ _)
  · split
    · exact ite ((h.bump _ _).setHome _) (ite ((h.bump _ _).setHome _) (((h.bump _ _).setHome _).sendAt _ _ _ _ _ _))
    · split
      · exact ite (h.bump _ _) ((h.setHome _).bump _ _)
      · exact h.setHome _

theorem sendModule (h : Moves o s) (c late) : Moves o (s.sendModule c late) := by
  unfold State.sendModule
  exact foldl _ (ite ((((h.setCopy _).freeSlotsAll _).bumpIf _ _).homeHank _ _) ((((h.setCopy _).freeSlotsAll _).bumpIf _ _).sendAt _ _ _ _ _ _)) fun _ _ h => h.placeWaiting _

/-! ### The functions of Machine/Spindle -/

theorem flagIntegrity (h : Moves o s) (qs) : Moves o (s.flagIntegrity qs) := h.aside

theorem execShingleArrival (sp slot sh) : ResMoves s (Machine.execShingleArrival sp slot sh s) := by
  unfold Machine.execShingleArrival
  refine .live ?_
  extract_lets p x
  refine ite (refl _) ?_
  split
  · exact refl _
  · refine ite (refl _) ?_
    split
    · exact refl _
    · extract_lets im o own zeroed missed
      have hz : Moves s zeroed := ite (refl _) ((refl _).zeroFor _ _ _ _)
      clear_value zeroed
      refine ite ((hz.setSp _ _).schedule _) (ite ((hz.bump _ _).setSp _ _) ?_)
      exact ((((((hz.bump _ _).draw).bump _ _).flagIntegrity _).score _ _ _).setSp _ _).schedule _

theorem noteWord (h : Moves o s) (c w) : Moves o (s.noteWord c w) := ((h.bump _ _).bump _ _).setCopy _

theorem execFilterWordsArrival (sp slot streamed bad stall) : ResMoves s (Machine.execFilterWordsArrival sp slot streamed bad stall s) := by
  unfold Machine.execFilterWordsArrival
  refine .live ?_
  dsimp only
  split
  · exact refl _
  · split
    · exact refl _
    · split
      · exact refl _
      · split
        · exact refl _
        · refine .schedule ?_ _
          refine .setSp ?_ _ _
          refine .stampUp ?_
          refine .zeroFor ?_ _ _ _ _
          refine .foldl _ ((refl _).countStall _ _ _) fun _ _ h => ?_
          split
          · exact h.noteWord _ _
          · exact h

theorem noteDigest (h : Moves o s) (sp it d o') : Moves o (s.noteDigest sp it d o') := h.aside

theorem select (h : Moves o s) (sp slot c it es) : Moves o (s.select sp slot c it es) := by
  unfold State.select
  dsimp only
  split
  · refine .setCopy ?_ _
    refine .scoreDups ?_ _ _
    refine .countDups ?_ _ _
    refine .bump ?_ _ _
    refine .bumpIf ?_ _ _
    refine .setSp ?_ _ _
    split
    · exact ite h (h.flushSet _ _)
    · exact h
  · refine .scoreDups ?_ _ _
    refine .countDups ?_ _ _
    refine .bump ?_ _ _
    refine .bumpIf ?_ _ _
    refine .setSp ?_ _ _
    split
    · exact ite h (h.flushSet _ _)
    · exact h

theorem sendSegments (h : Moves o s) (sp slots) : Moves o (s.sendSegments sp slots) := by
  unfold State.sendSegments
  refine .foldl _ h fun s k h => ?_
  extract_lets flushed x needed
  have hf : Moves o flushed := by
    unfold flushed
    split
    · exact ite h (h.flushSet _ _)
    · exact h
  clear_value flushed
  split
  · exact ite (hf.freeOne _ _) hf
  · exact hf

theorem putBack (h : Moves o s) (sp ctx it) : Moves o (s.putBack sp ctx it) := (h.freeCtx _ _).setSp _ _

theorem bobbinError (h : Moves o s) (sp ctx it) : Moves o (s.bobbinError sp ctx it) := by
  unfold State.bobbinError
  exact ite ((((h.bump _ _).score _ _ _).putBack _ _ _).bump _ _) (((((h.bump _ _).score _ _ _).putBack _ _ _).setSp _ _).raiseFault _ _ _ _ _)

theorem withEv (h : Moves o s) (sp ctx it ev) {go} (hg : ∀ s, Moves o s → Moves o (go s)) : Moves o (s.withEv sp ctx it ev go) := by
  have scored : Moves o (if ev.corrected == 0 then s.countStall sp (some ctx) ev.stall
      else (s.countStall sp (some ctx) ev.stall).score partSpindle sp ev.corrected) :=
    .ite (h.countStall _ _ _) ((h.countStall _ _ _).score _ _ _)
  exact .ite ((scored.bobbinError _ _ _).schedule _) (hg _ scored)

theorem loadLut (h : Moves o s) (sp k t) : Moves o (s.loadLut sp k t) := h.setSp _ _

theorem scoreRun (h : Moves o s) (sp ctx it h' sh tomb words) : Moves o (s.scoreRun sp ctx it h' sh tomb words) := by
  unfold State.scoreRun
  extract_lets runs loaded counted noted slots selected freed left_
  have hl : Moves o loaded := by
    refine ite (.foldl _ h fun _ _ h => ?_) h
    split
    · exact h.loadLut _ _ _
    · exact h
  clear_value loaded
  have hc : Moves o counted := 
    .foldl _ hl fun _ _ h => ((((((h.bump _ _).bump _ _).bump _ _).bump _ _).bump _ _).bump _ _).bump _ _
  clear_value counted
  have hn : Moves o noted := ite (hc.noteDigest _ _ _ _) hc
  clear_value noted
  refine ite (((hn.freeCtx _ _).sendSegments _ _).schedule _) ?_
  have hs : Moves o selected := by
    refine .foldl _ hn fun s r h => ?_
    obtain ⟨k, q, _, es⟩ := r
    dsimp only
    split
    · exact h.select _ _ _ _ _
    · exact h
  clear_value selected
  have hf : Moves o freed := (hs.freeCtx _ _).sendSegments _ _
  clear_value freed
  have hd : Moves o left_ := by
    refine .foldl _ hf fun s r h => ?_
    obtain ⟨_, q, _, _⟩ := r
    dsimp only
    split
    · exact ite ((h.setCopy _).stepDone _ _) (h.setCopy _)
    · exact h
  clear_value left_
  exact (hd.schedule _).placeWaiting _

theorem execScoreItem (sp ctx corrected bad stall) : ResMoves s (Machine.execScoreItem sp ctx corrected bad stall s) := by
  unfold Machine.execScoreItem
  refine .live ?_
  dsimp only
  split
  · split
    · exact ite (refl _) (ite (refl _) ((refl _).withEv _ _ _ _ (fun _ h => h.scoreRun _ _ _ _ _ _ _)))
    · exact refl _
  · exact refl _

theorem chooseVictim (h : Moves o s) (thief cycle) : Moves o (s.chooseVictim thief cycle) := by
  unfold State.chooseVictim
  exact ite (h.setSp _ _) h

theorem execStealRequest (thief cycle) : ResMoves s (Machine.execStealRequest thief cycle s) := .live ((refl _).chooseVictim _ _)

theorem execStealRechoose (thief cycle) : ResMoves s (Machine.execStealRechoose thief cycle s) := .live ((refl _).chooseVictim _ _)

theorem followThief (h : Moves o s) (victim thief it stolen) : Moves o (s.followThief victim thief it stolen) := by
  unfold State.followThief
  split
  · exact h
  · exact ite h.aside (((h.setSp _ _).aside).placeChecker _ _)

theorem moveItems (h : Moves o s) (v thief taken f) : Moves o (s.moveItems v thief taken f) :=
  (foldl _ ((((h.setSp _ _).setSp _ _).bump _ _).bump _ _) fun _ _ h => h.followThief _ _ _ _).sendSegments _ _

theorem execStealGrant (r) : ResMoves s (Machine.execStealGrant r s) := by
  unfold Machine.execStealGrant
  refine .live ?_
  extract_lets p
  split
  · exact refl _
  · rename_i v _
    extract_lets ready taken
    have hr : Moves s ready := ((refl s).setSp _ _).schedule _
    clear_value ready
    refine ite ((hr.bump _ _).chooseVictim _ _) (ite (hr.bump _ _) ?_)
    split
    · exact hr.bump _ _
    · rename_i e; exact (hr.copyTables e).moveItems _ _ _ _

theorem receiveTable (h : Moves o s) (n k) : Moves o (s.receiveTable n k) := by
  unfold State.receiveTable
  split
  · split
    · exact h.loadSlot _ _ _ _ _
    · exact h
  · exact h

theorem execTableCopyDone (id) : ResMoves s (Machine.execTableCopyDone id s) := by
  unfold Machine.execTableCopyDone
  refine .live ?_
  split
  · exact refl _
  · extract_lets src taken counted received freed
    have hr : Moves s received := .foldl _ ((refl s).aside.bump _ _) fun _ _ h => h.receiveTable _ _
    clear_value received
    have hf : Moves s freed := by
      refine ite hr (.foldl _ hr fun s d h => ?_)
      obtain ⟨_, d⟩ := d
      dsimp only
      split
      · exact h
      · split
        · exact ite h (h.freeSlot _ _)
        · exact h
    clear_value freed
    exact ite (refl _) ((hf.schedule _).placeWaiting _)

theorem redealItem (h : Moves o s) {it qs u} (e : s.redealItem it qs = some u) : Moves o u := by
  unfold State.redealItem at e
  extract_lets mine apart fits at e
  split at e
  · cases e
  · obtain ⟨v, lent, rfl⟩ := Option.map_eq_some_iff.1 e
    have hv := h.lendTables lent
    exact .schedule (.ite (.setSp hv.aside _ _) (.sampleItem (.setSp hv.aside _ _) _ _)) _

theorem redealSet (h : Moves o s) {it u} (e : s.redealSet it = some u) : Moves o u := by
  obtain ⟨n, -, rfl⟩ := Option.map_eq_some_iff.1 e
  exact .schedule (.ite (.setSp h.aside _ _) (.sampleItem (.setSp h.aside _ _) _ _)) _

theorem dealSet (h : Moves o s) (it) : Moves o (s.dealSet it) := by
  unfold State.dealSet
  cases e : s.redealSet it with
  | none => exact h.waitItem _ _
  | some u => exact h.redealSet e

theorem redealAll (h : Moves o s) : Moves o s.redealAll := by
  unfold State.redealAll
  refine .foldl _ h.aside fun _ _ h => ?_
  split
  · rename_i e
    split at e
    · exact h.redealSet e
    · exact h.redealItem e
  · exact h.aside

theorem execRedealOnSlotFree : ResMoves s (Machine.execRedealOnSlotFree s) := .live ((refl _).redealAll)

theorem countSpindles (h : Moves o s) : Moves o s.countSpindles := (h.setReg _ _).setReg _ _

theorem setSpState (h : Moves o s) (n st) : Moves o (s.setSpState n st) := by
  unfold State.setSpState
  exact ite h ((foldl _ (foldl _ ((((h.setReg _ _).countSpindles).setSp _ _).sendSegments _ _) fun _ _ h => h.waitItem _ _) fun _ _ h => h.dealSet _).redealAll)

theorem execZeroingDone (sp) : ResMoves s (Machine.execZeroingDone sp s) := .live (ite (refl _) (((refl _).setSp _ _).schedule _))

theorem roleChanged (h : Moves o s) : Moves o s.roleChanged := h.aside

theorem execRoleChangeZeroing (sp) : ResMoves s (Machine.execRoleChangeZeroing sp s) :=
  .live (ite (refl _) (((((refl _).setSp _ _).zeroBobbin _ _).bump _ _).bump _ _))

theorem chargeSpindle (h : Moves o s) (n) : Moves o (s.chargeSpindle n) := (h.bump _ _).score _ _ _

theorem allDiffer (h : Moves o s) (k) : Moves o (s.allDiffer k) := by
  unfold State.allDiffer
  exact (ite (((h.bump _ _).flagIntegrity _).aside) ((h.bump _ _).flagIntegrity _)).raiseFault _ _ _ _ _

theorem takeOuts (h : Moves o s) (k) : Moves o (s.takeOuts k) := by
  unfold State.takeOuts
  exact ite h h.aside

theorem setCheck (h : Moves o s) (k) : Moves o (s.setCheck k) := h.aside

theorem execDigestCompare (id) : ResMoves s (Machine.execDigestCompare id s) := by
  unfold Machine.execDigestCompare
  refine .live ?_
  split
  · exact refl _
  split
  · split
    · exact refl _
    split
    · exact (refl _).setCheck _
    split
    · rename_i e
      obtain ⟨c, -, e⟩ := Option.bind_eq_some_iff.1 e
      obtain ⟨v, placed, e⟩ := Option.map_eq_some_iff.1 e
      cases e
      exact (((refl _).placeCopy placed).setCheck _).schedule _
    · exact (((refl _).setCheck _).bump _ _).allDiffer _
  · exact refl _

theorem execThirdDigestCompare (id third) : ResMoves s (Machine.execThirdDigestCompare id third s) := by
  unfold Machine.execThirdDigestCompare
  refine .live ?_
  split
  · exact refl _
  · split
    · exact ite (refl _) (ite ((((refl _).setCheck _).bump _ _).chargeSpindle _) (ite (((((refl _).setCheck _).bump _ _).chargeSpindle _).takeOuts _) (((refl _).setCheck _).allDiffer _)))
    · exact refl _

/-! ### The functions of Machine/Query -/

theorem checkQuery (h : Moves o s) (t e) : Moves o (Machine.checkQuery t s e).1 := by
  unfold Machine.checkQuery
  dsimp only
  split
  · dsimp only
    exact h.bump _ _
  · split
    · dsimp only
      exact ((((h.bump _ _).bump _ _).bumpIf _ _).reservedFmt _).bumpIf _ _
    · split
      · dsimp only
        exact ((((((h.bump _ _).bump _ _).bumpIf _ _).reservedFmt _).bumpIf _ _).bump _ _).score _ _ _
      · dsimp only
        exact ((((((((h.bump _ _).bump _ _).bumpIf _ _).reservedFmt _).bumpIf _ _).draw).draw).draw).store _ _ _

theorem execQuery (tenant seq bad) : ResMoves s (Machine.execQuery tenant seq bad s) :=
  .live ((refl _).ringRow _ _ _ _ _ (fun _ _ h => h.checkQuery _ _))

theorem admitQuery (h : Moves o s) (t seq qidx) : Moves o (s.admitQuery t seq qidx) := by
  unfold State.admitQuery
  dsimp only
  split
  · exact h
  · exact h.aside.bump _ _

theorem acceptDispatch (h : Moves o s) (d) : Moves o (s.acceptDispatch d) := by
  unfold State.acceptDispatch
  split
  · exact h
  · dsimp only
    split
    · exact h.aside
    · exact ite (((h.bump _ _).bump _ _).homeReport _) (((h.bump _ _).bump _ _).sendAt _ _ _ _ _ _)

theorem dispatchTo (h : Moves o s) (q h' vec c) : Moves o (State.dispatchTo q h' vec s c) := by
  unfold State.dispatchTo
  exact ite (h.acceptDispatch _) (((h.bump _ _).sendRole _ _ _ _).logReq _ _ _)

theorem execVectorReadDone (q bad) : ResMoves s (Machine.execVectorReadDone q bad s) := by
  unfold Machine.execVectorReadDone
  refine .live ?_
  split
  · exact refl _
  · exact ite (refl _) (ite (((refl _).setHome _).bump _ _) ((foldl _ (((refl _).setHome _).bumpIf _ _) fun _ _ h => h.dispatchTo _ _ _ _).decideStep _))

theorem execDispatch (d) : ResMoves s (Machine.execDispatch d s) := .liveFor _ (ite (refl _) (((refl _).bump _ _).acceptDispatch _))

theorem closePass (h : Moves o s) (skein tenant index builder least) : Moves o (s.closePass skein tenant index builder least) := by
  unfold State.closePass
  exact ite h (ite (h.prepareSp _ _) ((foldl _ (h.prepareSp _ _) fun _ _ h => (h.bindSlot _ _ _ _).setCopy _).aside))

theorem execBuildPassClose (skein tenant index builder) : ResMoves s (Machine.execBuildPassClose skein tenant index builder s) :=
  .live ((refl _).closePass _ _ _ _ _)

theorem execPassGatherTimeout (skein tenant index builder) : ResMoves s (Machine.execPassGatherTimeout skein tenant index builder s) :=
  .live ((refl _).closePass _ _ _ _ _)

theorem refuseBuild (h : Moves o s) (builder c st) : Moves o (s.refuseBuild builder c st) := ((h.setCopy _).freeSlot _ _).stepDone _ _

theorem buildOne (h : Moves o s) (builder h' c slot) : Moves o (s.buildOne builder h' c slot) := by
  unfold State.buildOne
  dsimp only
  split
  · exact (h.bump _ _).refuseBuild _ _ _
  · split
    · exact (h.setCopy _).loadSlot _ _ _ _ _
    · split
      · exact ((h.charge _ _).bump _ _).refuseBuild _ _ _
      · exact ((((h.charge _ _).bump _ _).bumpIf _ _).setCopy _).loadSlot _ _ _ _ _

theorem execTableBuild (pass) : ResMoves s (Machine.execTableBuild pass s) := by
  unfold Machine.execTableBuild
  refine .live ?_
  split
  · exact refl _
  · refine ite (refl _) ?_
    refine .bump (.bump ?_ _ _) _ _
    refine foldl_fst _ ?_ fun r x h => ?_
    · exact (refl s).aside
    obtain ⟨s, cyc, stream⟩ := r
    obtain ⟨q, sh, slot⟩ := x
    dsimp only
    split
    · exact h
    · exact h.buildOne _ _ _ _

theorem countCoarse (h : Moves o s) (builder h' wrong qs) : Moves o (s.countCoarse builder h' wrong qs) := by
  unfold State.countCoarse
  exact ite (((((h.bump _ _).bump _ _).bump _ _).bump _ _).bump _ _) ((((((((h.bump _ _).bump _ _).bump _ _).bump _ _).bump _ _).draw).flagIntegrity _).score _ _ _)

theorem reside {p : State × List Nat} (h : Moves o p.1) (builder slot tenant n) : Moves o (State.reside builder slot tenant p n).1 := by
  obtain ⟨s, got⟩ := p
  unfold State.reside
  refine ite_fst h (ite_fst h ?_)
  split
  · rename_i e; exact (h.prepareSp _ _).copyTables e
  · exact h

theorem execCoarseScan (pass x) : ResMoves s (Machine.execCoarseScan pass x s) := by
  unfold Machine.execCoarseScan
  refine .live ?_
  split
  · exact refl _
  · split
    · exact refl _
    · refine .foldl _ ?_ fun _ _ h => ?_
      · refine .foldl _ ?_ fun _ _ h => ?_
        · refine .foldl _ ((refl _).aside) fun _ _ h => ?_
          split
          · exact h
          · exact h.countCoarse _ _ _ _
        · dsimp only
          split
          · exact (foldl_fst _ h fun _ _ h => h.reside _ _ _ _).setCopy _
          · exact foldl_fst _ h fun _ _ h => h.reside _ _ _ _
      · split
        · exact h
        · exact h.deal _ _

theorem keepFilter (h : Moves o s) (f) : Moves o (s.keepFilter f) := by
  unfold State.keepFilter
  refine ite ?_ h.aside
  have taken := h.takeHidden f.tenant false (cdiv (32 + f.map.bits.length) pageSize)
  generalize s.takeHidden _ _ _ = r at taken ⊢
  obtain ⟨u, pages⟩ := r
  exact taken.aside

theorem execResidentFilterCopy (tenant handle index tick map waited) : ResMoves s (Machine.execResidentFilterCopy tenant handle index tick map waited s) := by
  unfold Machine.execResidentFilterCopy
  refine .live ?_
  split
  · exact refl _
  · dsimp only
    split
    · exact (refl _).aside
    · exact ((((refl _).aside).keepFilter _).bump _ _).bump _ _

theorem execStepReport (r) : ResMoves s (Machine.execStepReport r s) := .live (ite ((refl _).homeReport _) (refl _))

theorem widenCopy (h : Moves o s) (step c) : Moves o (State.widenCopy step s c) := by
  unfold State.widenCopy
  split
  · exact h
  · split
    · exact h
    · exact (h.setCopy _).deal _ _

theorem execWidenDecision (q step) : ResMoves s (Machine.execWidenDecision q step s) := .live (foldl _ (refl _) fun _ _ h => h.widenCopy _ _)

theorem execStopDecision (q) : ResMoves s (Machine.execStopDecision q s) := .live ((refl _).stopLocal _)

theorem execHankArrival (h' die src) : ResMoves s (Machine.execHankArrival h' die src s) := by
  unfold Machine.execHankArrival
  refine .live ?_
  split
  · exact (refl _).homeHank _ _
  · dsimp only
    split
    · exact refl _
    · split
      · exact ((refl _).bump _ _).aside
      · split
        · exact (refl _).bump _ _
        · exact ((refl _).bump _ _).setCopy _

theorem dropChecks (h : Moves o s) (c die) : Moves o (s.dropChecks c die) := h.aside

theorem plyBuf (h : Moves o s) (k tenant) : Moves o (s.plyBuf k tenant) := by
  unfold State.plyBuf
  exact ite h (h.draw.aside.bump _ _)

theorem execDiePly (q shard die) : ResMoves s (Machine.execDiePly q shard die s) := by
  unfold Machine.execDiePly
  refine .live ?_
  split
  · exact refl _
  · exact ite (refl _) ((((((((refl _).plyBuf _ _).bump _ _).bump _ _).countDups _ _).scoreDups _ _).dropChecks _ _).setCopy _)

theorem execModulePly (q shard late) : ResMoves s (Machine.execModulePly q shard late s) := by
  unfold Machine.execModulePly
  refine .live ?_
  split
  · exact refl _
  · refine ite (refl _) ?_
    extract_lets buf n dies ins plied froms
    have hp : Moves s plied := (((refl s).plyBuf _ _).bump _ _).bump _ _
    clear_value plied
    rcases ply q shard 2 _ n ins with ⟨h, d⟩
    have hs : Moves s ((plied.countDups d true).scoreDups d (dupFrom froms)) := (hp.countDups _ _).scoreDups _ _
    dsimp only at hs ⊢
    refine ite (hs.setCopy _) (ite ?_ (hs.sendModule _ _))
    split
    · exact hs
    · exact (hs.setCopy _).deal _ _

theorem scoreNodes (h : Moves o s) (h' ins) : Moves o (s.scoreNodes h' ins) := foldl _ h fun _ _ h => h.score _ _ _

theorem execFabricPly (q late) : ResMoves s (Machine.execFabricPly q late s) := by
  unfold Machine.execFabricPly
  refine .live ?_
  split
  · exact refl _
  · exact ite (refl _) (((((((((refl _).plyBuf _ _).bump _ _).bump _ _).countDups _ _).scoreNodes _ _).bumpIf _ _).bumpIf _ _).setHome _)

theorem excludeCand (h : Moves o s) (q shard id) : Moves o (s.excludeCand q shard id) := by
  unfold State.excludeCand
  split
  · exact h
  · exact ite h ((h.setHome _).bump _ _)

theorem homeScore (h : Moves o s) (a1) : Moves o (s.homeScore a1) := by
  unfold State.homeScore
  split
  · exact h
  · split
    · exact h
    · split
      · exact (h.setHome _).excludeCand _ _ _
      · exact h.setHome _

theorem takeCand (h : Moves o s) (c) : Moves o (s.takeCand c) := by
  unfold State.takeCand
  split
  · exact h
  · exact ite h (((ite (h.issue _ _ _ _ _ _) ((h.issue _ _ _ _ _ _).askRead _ _ _ _ _)).aside).stampUp)

theorem sendCand (h : Moves o s) (h' c) : Moves o (State.sendCand h' s c) := by
  unfold State.sendCand
  split
  · exact h.excludeCand _ _ _
  · exact ite (h.excludeCand _ _ _) (ite ((h.bump _ _).takeCand _) ((h.bump _ _).sendAt _ _ _ _ _ _))

theorem execRerankDispatch (q) : ResMoves s (Machine.execRerankDispatch q s) := by
  unfold Machine.execRerankDispatch
  refine .live ?_
  split
  · exact refl _
  · exact ite (refl _) (foldl _ ((refl _).setHome _) fun _ _ h => h.sendCand _ _)

theorem execRerankCandidate (c) : ResMoves s (Machine.execRerankCandidate c s) := .live ((refl _).takeCand _)

theorem vectorVals (h : Moves o s) (rr dim bs inp sp) : Moves o (s.vectorVals rr dim bs inp sp).2 := by
  unfold State.vectorVals
  split
  · exact h
  · dsimp only
    split
    · dsimp only
      exact h.countStream _ _ _
    · dsimp only
      exact (h.countStream _ _ _).charge _ _

theorem scoreVector (h : Moves o s) (im query xs sp) : Moves o (s.scoreVector im query xs sp).2 := by
  unfold State.scoreVector
  dsimp only
  exact ((h.bump _ _).bumpIf _ _).charge _ _

theorem candRead (h : Moves o s) (c a2) : Moves o (s.candRead c a2) := h.aside.readDone _

theorem execRerankReadDone (c r) : ResMoves s (Machine.execRerankReadDone c r s) := by
  unfold Machine.execRerankReadDone
  refine .live ?_
  split
  · exact refl _
  split
  · exact refl _
  rename_i th _
  refine ite (refl _) ?_
  extract_lets read
  have hr : Moves s read := (refl s).candRead _ _
  clear_value read
  split
  rename_i scored e
  have hs : Moves s scored := by
    split at e
    · cases e; exact hr
    · rename_i bs _
      have hv := hr.vectorVals th.im.rr th.im.dim bs r.inp r.sp
      split at e
      · rename_i ev; rw [ev] at hv; cases e; exact hv
      · rename_i ev; rw [ev] at hv; cases e; exact hv.scoreVector _ _ _ _
  clear e
  refine ite (.homeScore ?_ _) (.sendAt ?_ _ _ _ _ _ _) <;> exact ite ((hs.setCopy _).bump _ _) hs

theorem execRerankScoreReceive (a0) : ResMoves s (Machine.execRerankScoreReceive a0 s) := .live (ite ((refl _).homeScore _) (refl _))

theorem execRerankedPly (q late) : ResMoves s (Machine.execRerankedPly q late s) := by
  unfold Machine.execRerankedPly
  refine .live ?_
  split
  · exact refl _
  · exact ite (refl _) ((((((refl _).bump _ _).bump _ _).countDups _ _).bumpIf _ _).setHome _)

theorem execHankResendRequest (src q shard _pass) : ResMoves s (Machine.execHankResendRequest src q shard _pass s) := by
  unfold Machine.execHankResendRequest
  refine .live ?_
  split
  · split
    · exact (refl _).sendAt _ _ _ _ _ _
    · exact refl _
  · exact refl _

theorem execResultDelivery (q bad) : ResMoves s (Machine.execResultDelivery q bad s) := by
  unfold Machine.execResultDelivery
  refine .live ?_
  split
  · exact refl _
  · exact ite (refl _) (((((((((ite (((refl _).bump _ _).score _ _ _) ((refl _).store _ _ _)).bumpIf _ _).bumpIf _ _).bumpIf _ _).bumpIf _ _).bumpIf _ _).complete _ _ _ _ _ _ _ _ _).setHome _).aside)

/-! ### The functions of Machine/Tier -/

theorem memAnswer (h : Moves o s) (op status data) : Moves o (s.memAnswer op status data) := (h.bumpIf _ _).send _ _ _ _

theorem memDo (h : Moves o s) (op bad badAgain) : Moves o (s.memDo op bad badAgain) := by
  unfold State.memDo
  dsimp only
  split
  · exact h.memAnswer _ _ _
  · split
    · exact h.memAnswer _ _ _
    · split
      · exact (h.memWrite _ _ _).memAnswer _ _ _
      · split
        · exact (h.readLine _ _ _ _ _).memAnswer _ _ _
        · split
          · exact (h.readLine _ _ _ _ _).memAnswer _ _ _
          · split
            · exact ((h.readLine _ _ _ _ _).bump _ _).memAnswer _ _ _
            · exact ((ite (h.readLine _ _ _ _ _) ((h.readLine _ _ _ _ _).memWrite _ _ _)).bump _ _).memAnswer _ _ _

theorem waitMove (h : Moves o s) (w) : Moves o (s.waitMove w) := h.aside.bump _ _

theorem memArrive (h : Moves o s) (op bad badAgain) : Moves o (s.memArrive op bad badAgain) := by
  unfold State.memArrive
  exact ite (h.waitMove _) (h.memDo _ _ _)

theorem setUcie (h : Moves o s) (m u) : Moves o (s.setUcie m u) := h.aside

theorem hostFlits (h : Moves o s) (m bytes) : Moves o (s.hostFlits m bytes) := (h.setUcie _ _).bump _ _

theorem hostAsk (h : Moves o s) (op x y) : Moves o (s.hostAsk op x y) := ((h.aside.hostFlits _ _).hostFlits _ _).bump _ _

theorem hostAnswer (h : Moves o s) (m tag op status data) : Moves o (s.hostAnswer m tag op status data) := by
  unfold State.hostAnswer
  exact (ite ((h.hostFlits _ _).bump _ _) ((h.hostFlits _ _).bump _ _)).aside

theorem runWaits (h : Moves o s) (t page) : Moves o (s.runWaits t page) := by
  unfold State.runWaits
  refine .foldl _ h.aside fun _ _ h => ?_
  split
  · exact ite ((h.memWrite _ _ _).hostAnswer _ _ _ _ _) (h.hostAnswer _ _ _ _ _)
  · exact h.memDo _ _ _
  · exact h.memWrite _ _ _

theorem checkPlacement (h : Moves o s) (t e) : Moves o (Machine.checkPlacement t s e).1 := by
  unfold Machine.checkPlacement
  dsimp only
  split
  · exact h
  · dsimp only
    exact h.bump _ _

theorem execRegionAllocate (tenant seq bad) : ResMoves s (Machine.execRegionAllocate tenant seq bad s) :=
  .live ((refl _).ringRow _ _ _ _ _ (fun _ _ h => h.checkPlacement _ _))

theorem execRegionFree (tenant seq bad) : ResMoves s (Machine.execRegionFree tenant seq bad s) :=
  .live ((refl _).ringRow _ _ _ _ _ (fun _ _ h => h.checkPlacement _ _))

theorem execRegionMove (tenant seq bad) : ResMoves s (Machine.execRegionMove tenant seq bad s) :=
  .live ((refl _).ringRow _ _ _ _ _ (fun _ _ h => h.checkPlacement _ _))

theorem pin (h : Moves o s) (t starts up) : Moves o (s.pin t starts up) := h.aside

theorem placeDone (h : Moves o s) (t seq status tag tick) : Moves o (s.placeDone t seq status tag tick) := h.complete _ _ _ _ _ _ _ _ _

theorem moverNext (h : Moves o s) (n) : Moves o (Machine.moverNext n s) := by
  induction n generalizing s with
  | zero => exact h
  | succ n ih =>
    unfold Machine.moverNext
    split
    · exact h
    · refine ite (ih (h.aside.placeDone _ _ _ _ _)) ?_
      split
      · exact ih (h.aside.placeDone _ _ _ _ _)
      · exact h.aside

theorem mover (h : Moves o s) : Moves o s.mover := by
  unfold State.mover
  exact ite h (h.moverNext _)

theorem freeRegion (h : Moves o s) (r) : Moves o (s.freeRegion r) := (((foldl _ h fun _ _ h => h.dropPage _).aside).tierRegs _).mover

theorem admitPlacement (h : Moves o s) (t seq) : Moves o (s.admitPlacement t seq) := by
  unfold State.admitPlacement
  dsimp only
  split
  · exact (h.bump _ _).placeDone _ _ _ _ _
  · split
    · exact (((h.allocPages _ _ _).aside).zeroPages _).tierRegs _
    · split
      · exact h
      · exact (h.freeRegion _).placeDone _ _ _ _ _
    · split
      · exact h
      · exact h.aside.mover

theorem zeroOne {p : State × List Nat} (h : Moves o p.1) (z failed page) : Moves o (Machine.zeroOne z failed p page).1 := by
  unfold Machine.zeroOne
  dsimp only
  split
  · exact h
  split
  · dsimp only
    exact (ite (.zeroRange h.aside _ _ _) (.zeroRange h.aside _ _ _)).bump _ _
  · have scored := (h.bump 0xE0200E 1).score
    split
    · rename_i e; exact ((scored _ _ _).takePage e).aside
    · exact (scored _ _ _).aside

theorem modelZeroed (h : Moves o s) (z) : Moves o (s.modelZeroed z) := by
  unfold State.modelZeroed
  split
  · exact h
  · exact ite ((h.aside.bump _ _).complete _ _ _ _ _ _ _ _ _) ((((h.aside.dropHidden _ _).pin _ _ _).bump _ _).complete _ _ _ _ _ _ _ _ _)

theorem execPageZeroingDone (id failed) : ResMoves s (Machine.execPageZeroingDone id failed s) := by
  unfold Machine.execPageZeroingDone
  refine .live ?_
  split
  · exact refl _
  · dsimp only
    split
    · refine .zeroPages ?_ _
      refine .tierRegs ?_ _
      refine .foldl_fst _ ?_ fun _ _ h => h.zeroOne _ _ _
      dsimp only
      exact (refl _).aside
    · split
      · refine .tierRegs ?_ _
        refine .foldl_fst _ ?_ fun _ _ h => h.zeroOne _ _ _
        dsimp only
        exact (refl _).aside
      · split
        · refine .modelZeroed ?_ _
          refine .tierRegs ?_ _
          refine .foldl_fst _ ?_ fun _ _ h => h.zeroOne _ _ _
          dsimp only
          exact (refl _).aside
        · split
          · refine .tierRegs ?_ _
            refine .foldl_fst _ ?_ fun _ _ h => h.zeroOne _ _ _
            dsimp only
            exact (refl _).aside
          · split
            · refine .placeDone ?_ _ _ _ _ _
              refine .tierRegs ?_ _
              refine .foldl_fst _ ?_ fun _ _ h => h.zeroOne _ _ _
              dsimp only
              exact (refl _).aside
            · refine .placeDone ?_ _ _ _ _ _
              refine .freeRegion ?_ _
              refine .tierRegs ?_ _
              refine .foldl_fst _ ?_ fun _ _ h => h.zeroOne _ _ _
              dsimp only
              exact (refl _).aside

theorem moveEnd (h : Moves o s) (m page waited) : Moves o (s.moveEnd m page waited) := by
  unfold State.moveEnd
  exact ((ite (h.bump _ _) h).aside).runWaits _ _

theorem execPageMove (tenant page bad waited) : ResMoves s (Machine.execPageMove tenant page bad waited s) := by
  unfold Machine.execPageMove
  refine .live ?_
  split
  · exact refl _
  split
  · exact refl _
  refine ite (refl _) (ite ((((refl _).moveEnd _ _ _).tierRegs _).mover) (ite ?_ ?_))
  · exact (((((refl _).dropPage _).aside).moveEnd _ _ _).tierRegs _).mover
  · extract_lets poisonedNow read
    have hr : Moves s read := by
      unfold read
      split
      · exact ite (refl _) ((refl _).readLine _ _ _ _ _)
      · exact refl _
    clear_value read
    split
    · exact (((hr.aside.bump _ _).placeDone _ _ _ _ _).moveEnd _ _ _).mover
    · rename_i u place e
      have taken : Moves s u := by
        split at e
        · cases e
        · exact hr.takePage e
      split
      refine .mover (.tierRegs (.moveEnd (.aside (.giveHome (.serveNow (.bump ?_ _ _) _ _) _ _)) _ _ _) _)
      exact ite (((taken.bump _ _).bump _ _).bump _ _) (taken.bump _ _)

theorem execBoardBlockWrite (tenant addr data) : ResMoves s (Machine.execBoardBlockWrite tenant addr data s) := by
  unfold Machine.execBoardBlockWrite
  refine .live ?_
  split
  · exact refl _
  · exact ite (refl _) (ite ((refl _).waitMove _) ((refl _).memWrite _ _ _))

theorem execBoardPageRepack (tenant page) : ResMoves s (Machine.execBoardPageRepack tenant page s) := by
  unfold Machine.execBoardPageRepack
  refine .live ?_
  split
  · exact refl _
  · split
    · exact ite (refl _) (((refl _).repackPage _).tierRegs _)
    · exact refl _

theorem execTierPartFail (board n) : ResMoves s (Machine.execTierPartFail board n s) :=
  .live (ite (refl _) ((((((refl _).setReg _ _).bump _ _).setReg _ _).setReg _ _).raiseFault _ _ _ _ _))

theorem execAccessComplete (id ns bad badAgain x) : ResMoves s (Machine.execAccessComplete id ns bad badAgain x s) := by
  unfold Machine.execAccessComplete
  refine .live ?_
  split
  · exact refl _
  · refine ite (refl _) ?_
    extract_lets read src dropped late counted part corrected ended
    have hc : Moves s counted := ((refl _).readDone _).aside.bumpIf _ _
    clear_value counted
    have hr : Moves s corrected := (hc.bump _ _).score _ _ _
    have he : Moves s ended := ite (ite hr (hr.readLine _ _ _ _ _)) hc
    clear_value ended
    split
    · exact he
    · exact (((he.countStall _ _ _).stampUp).setSp _ _).schedule _

theorem execStageDeadline (stage q cycles) : ResMoves s (Machine.execStageDeadline stage q cycles s) := by
  unfold Machine.execStageDeadline
  refine .live ?_
  dsimp only
  split
  · exact (refl _).aside
  · exact (((refl _).aside).bump _ _).bump _ _

/-! ### The functions of Machine/Dense -/

theorem checkModel (h : Moves o s) (t e) : Moves o (Machine.checkModel t s e).1 := by
  unfold Machine.checkModel
  dsimp only
  split
  · exact h
  · dsimp only
    exact (h.bump _ _).bumpIf _ _

theorem execModelRegister (tenant seq bad) : ResMoves s (Machine.execModelRegister tenant seq bad s) :=
  .live ((refl _).ringRow _ _ _ _ _ (fun _ _ h => h.checkModel _ _))

theorem execModelRelease (tenant seq bad) : ResMoves s (Machine.execModelRelease tenant seq bad s) :=
  .live ((refl _).ringRow _ _ _ _ _ (fun _ _ h => h.checkModel _ _))

theorem admitModel (h : Moves o s) (t seq) : Moves o (s.admitModel t seq) := by
  unfold State.admitModel
  dsimp only
  split
  · exact (h.bump _ _).complete _ _ _ _ _ _ _ _ _
  · split
    · exact (((foldl _ h fun _ _ h => h.setReg _ _).aside).bump _ _).complete _ _ _ _ _ _ _ _ _
    · split
      · exact h
      · exact ite ((((((h.allocPages _ _ _).pin _ _ _).aside).tierRegs _).bump _ _).complete _ _ _ _ _ _ _ _ _) (((((h.allocPages _ _ _).pin _ _ _).aside).tierRegs _).zeroPages _)

theorem modelsTick (h : Moves o s) : Moves o s.modelsTick :=
  foldl _ (foldl _ h fun _ _ h => ((h.setReg _ _).setReg _ _).setReg _ _) fun _ _ h => (((((((h.dropHidden _ _).bump _ _).aside).pin _ _ _).setReg _ _).setReg _ _).setReg _ _).tierRegs _

theorem checkDense (h : Moves o s) (t e) : Moves o (Machine.checkDense t s e).1 := by
  unfold Machine.checkDense
  dsimp only
  split
  · dsimp only
    exact ((h.bump _ _).bump _ _).reservedFmt _
  · split
    · dsimp only
      exact (h.bump _ _).bump _ _
    · dsimp only
      exact h.bump _ _

theorem execDenseJob (tenant seq bad) : ResMoves s (Machine.execDenseJob tenant seq bad s) :=
  .live ((refl _).ringRow _ _ _ _ _ (fun _ _ h => h.checkDense _ _))

theorem setDjob (h : Moves o s) (j) : Moves o (s.setDjob j) := h.aside

theorem dealStep (h : Moves o s) (j y layer conv) : Moves o (s.dealStep j y layer conv) := foldl _ (h.setDjob _) fun _ _ h => h.dealSet _

theorem stageJob_step (h : Moves o s) {n slot} {f : @Nat.below (fun _ => Nat → State → State) (n + 1)} (hf : ∀ {s}, Moves o s → Moves o (f.1 slot s)) : Moves o (Machine.stageJob._f (n + 1) f slot s) := by
  delta Machine.stageJob._f
  conv => arg 2; whnf
  split
  · exact h
  rename_i j layer y _
  refine ite h ?_
  have taken := h.takeHidden j.tenant false (cdiv (s.weightBytes j.tenant y) pageSize)
  generalize s.takeHidden _ _ _ = r at taken ⊢
  obtain ⟨u, mine⟩ := r
  exact hf ((taken.setDjob _).askRead _ _ _ _ _)

theorem brecOn_succ {α : Type} (F : (n : Nat) → @Nat.below (fun _ => α) n → α) (n : Nat) : ∃ f : @Nat.below (fun _ => α) (n + 1), f.1 = @Nat.brecOn (fun _ => α) n F ∧ @Nat.brecOn (fun _ => α) (n + 1) F = F (n + 1) f :=
  ⟨@Nat.brecOn.go (fun _ => α) n F, rfl, rfl⟩

theorem stageJob (h : Moves o s) (n slot) : Moves o (Machine.stageJob n slot s) := by
  delta Machine.stageJob
  induction n generalizing s with
  | zero => exact h
  | succ n ih =>
    obtain ⟨f, hf, e⟩ := brecOn_succ Machine.stageJob._f n
    rw [e]
    exact stageJob_step h fun h => hf ▸ ih h

theorem stageNext (h : Moves o s) : Moves o s.stageNext := foldl _ h fun _ _ h => h.stageJob _ _

theorem stageBytes (h : Moves o s) (t src dst n) : Moves o (s.stageBytes t src dst n) := by
  unfold State.stageBytes
  exact foldl _ (h.hidStore _ _ _) fun _ _ h => ite (h.poisonLine _ _) h

theorem stageIn (h : Moves o s) (j y pages) : Moves o (s.stageIn j y pages) := by
  unfold State.stageIn
  exact ite ((h.stageBytes _ _ _ _).stageBytes _ _ _ _) (h.stageBytes _ _ _ _)

theorem dropJobChecks (h : Moves o s) (slot) : Moves o (s.dropJobChecks slot) := h.aside

theorem unstage (h : Moves o s) (slot) : Moves o (s.unstage slot) := by
  unfold State.unstage
  split
  · exact h
  · split
    · exact h
    · exact ite h (((h.setDjob _).dropHidden _ _).stageNext)

theorem endStaging (h : Moves o s) (slot) : Moves o (s.endStaging slot) := by
  unfold State.endStaging
  split
  · exact h
  · exact ite (((h.dropRead _).setDjob _).dropHidden _ _) ((((h.dropRead _).setDjob _).dropHidden _ _).stageNext)

theorem admitDense (h : Moves o s) (t seq) : Moves o (s.admitDense t seq) := by
  unfold State.admitDense
  dsimp only
  split
  · exact ite ((h.bump _ _).complete _ _ _ _ _ _ _ _ _) ((h.aside.bump _ _).stageNext)
  · exact (h.bump _ _).complete _ _ _ _ _ _ _ _ _

theorem finishJob (h : Moves o s) (j) : Moves o (s.finishJob j) := by
  unfold State.finishJob
  exact ite h (((((h.bumpIf _ _).bump _ _).bumpIf _ _).aside).complete _ _ _ _ _ _ _ _ _)

theorem jobOutput (h : Moves o s) (j bad) : Moves o (s.jobOutput j bad) := by
  unfold State.jobOutput
  split
  · exact h
  · exact ite ((h.setDjob _).finishJob _) (((h.memWrite _ _ _).setDjob _).finishJob _)

theorem execStepDeal (job bad) : ResMoves s (Machine.execStepDeal job bad s) := by
  unfold Machine.execStepDeal
  refine .live ?_
  split
  · exact refl _
  · refine ite (refl _) ?_
    extract_lets cleared j
    have hc : Moves s cleared := ((refl s).dropJobChecks _).unstage _
    clear_value cleared
    split
    refine ite ((hc.endStaging _).jobOutput _ _) ?_
    split
    · exact hc
    · exact ite (hc.dealStep _ _ _ _) (ite (hc.dealStep _ _ _ _) (ite (((hc.setDjob _).bump _ _).bump _ _) (hc.dealStep _ _ _ _)))

theorem execLayerStaged (job layer late) : ResMoves s (Machine.execLayerStaged job layer late s) := by
  unfold Machine.execLayerStaged
  refine .live ?_
  split
  · exact refl _
  · split
    · exact ite (refl _) (ite (((((((refl _).readDone _).bump _ _).stageIn _ _ _).bump _ _).bump _ _).dealStep _ _ _ _) (((((refl _).readDone _).bump _ _).stageIn _ _ _).setDjob _))
    · exact refl _

theorem endDense (h : Moves o s) (sp ctx it fmt o' c f) : Moves o (s.endDense sp ctx it fmt o' c f) := by
  unfold State.endDense
  refine .unstage ?_ _
  refine .schedule ?_ _
  refine .freeCtx ?_ _ _
  split
  · exact ite (((h.charge _ _).setSp _ _).noteDigest _ _ _ _) (h.charge _ _)
  · split
    · exact (ite (((h.charge _ _).setSp _ _).noteDigest _ _ _ _) (h.charge _ _)).setDjob _
    · exact ite (((h.charge _ _).setSp _ _).noteDigest _ _ _ _) (h.charge _ _)

theorem useRegions (h : Moves o s) (sp o' slots filter mac d exps) : Moves o (s.useRegions sp o' slots filter mac d exps) := by
  unfold State.useRegions
  exact (ite ((foldl _ (foldl _ h fun _ _ h => h.zeroFor _ _ _ _) fun _ _ h => h.zeroFor _ _ _ _).zeroFor _ _ _ _) (foldl _ (foldl _ h fun _ _ h => h.zeroFor _ _ _ _) fun _ _ h => h.zeroFor _ _ _ _)).setSp _ _

theorem execConversionItem (sp ctx r) : ResMoves s (Machine.execConversionItem sp ctx r s) := by
  unfold Machine.execConversionItem
  refine .live ?_
  split
  · exact refl _
  · exact ite (refl _) ((refl _).withEv _ _ _ _ (fun _ h => ite ((h.bump _ _).endDense _ _ _ _ _ _ _) (((h.bump _ _).useRegions _ _ _ _ _ _ _).endDense _ _ _ _ _ _ _)))

theorem abandonTile (h : Moves o s) (sp ctx it y b r n) : Moves o (s.abandonTile sp ctx it y b r n) := by
  unfold State.abandonTile
  exact h.endDense _ _ _ _ _ _ _

theorem runTile (h : Moves o s) (sp ctx it j y r n blocks stall) : Moves o (s.runTile sp ctx it j y r n blocks stall) := by
  unfold State.runTile
  exact ((((h.useRegions _ _ _ _ _ _ _).setSp _ _).bump _ _).bump _ _).endDense _ _ _ _ _ _ _

theorem ctxWaits (h : Moves o s) (sp ctx) : Moves o (s.ctxWaits sp ctx) := by
  unfold State.ctxWaits
  exact (h.setSp _ _).schedule _

theorem setMismatch (h : Moves o s) (sp ctx m) : Moves o (s.setMismatch sp ctx m) := h.aside

theorem execTileItem (sp ctx wrong endBad x) : ResMoves s (Machine.execTileItem sp ctx wrong endBad x s) := by
  unfold Machine.execTileItem
  refine .live ?_
  split
  · exact refl _
  · dsimp only
    split
    · exact refl _
    · split
      · exact ((((refl _).askRead _ _ _ _ _).issue _ _ _ _ _ _).stampUp).ctxWaits _ _
      · split
        · exact ((((refl _).bump _ _).bumpIf _ _).setMismatch _ _ _).ctxWaits _ _
        · exact (refl _).withEv _ _ _ _ (fun _ h => ((ite (h.setMismatch _ _ _) (((((h.setMismatch _ _ _).bump _ _).bump _ _).bump _ _).bump _ _)).countStall _ _ _).runTile _ _ _ _ _ _ _ _ _)

theorem execMismatchRefetchDone (sp ctx b w) : ResMoves s (Machine.execMismatchRefetchDone sp ctx b w s) := by
  unfold Machine.execMismatchRefetchDone
  refine .live ?_
  split
  · exact refl _
  · extract_lets p c counted taken running dropped raised
    have hc : Moves s counted := ((((refl s).countStall _ _ _).bump _ _).bump _ _)
    clear_value counted
    have hd : Moves s dropped := (hc.setMismatch _ _ _).bump _ _
    clear_value dropped
    split
    · exact (refl _).setMismatch _ _ _
    · refine ite (refl _) (ite ?_ (ite (hc.setMismatch _ _ _) (ite ((hd.putBack _ _ _).schedule _) ?_)))
      · exact (((hc.setMismatch _ _ _).setSp _ _).stampUp).schedule _
      · have hr : Moves s raised := hd.raiseFault _ _ _ _ _
        clear_value raised
        split
        · exact hr.abandonTile _ _ _ _ _ _ _
        · exact (hr.freeCtx _ _).schedule _

theorem countMax (h : Moves o s) (xs) : Moves o (s.countMax xs) := ((h.bump _ _).bump _ _).bumpIf _ _

theorem countComps (h : Moves o s) (cs) : Moves o (s.countComps cs) := foldl _ h fun _ _ h => (((h.bump _ _).bump _ _).bump _ _).bumpIf _ _

theorem execElementItem (sp x) : ResMoves s (Machine.execElementItem sp x s) := by
  unfold Machine.execElementItem
  refine .live ?_
  split
  · exact refl _
  · refine ite (refl _) ((refl _).withEv _ _ _ _ fun s h => ?_)
    have hc {a b c} : Moves _ ((s.bump a b).countComps c) := (h.bump _ _).countComps _
    refine ite (hc.endDense _ _ _ _ _ _ _) ?_
    exact ((ite (hc.countMax _) (ite (hc.bump _ _) hc)).useRegions _ _ _ _ _ _ _).endDense _ _ _ _ _ _ _

theorem nameDense (h : Moves o s) : Moves o s.nameDense := (foldl _ h.aside fun _ _ h => foldl _ (h.setSp _ _) fun _ _ h => h.dealSet _).redealAll

theorem jobsTick (h : Moves o s) : Moves o s.jobsTick := foldl _ h fun _ _ h => h.finishJob _

/-! ### The functions of Machine/Embed -/

theorem setTab (h : Moves o s) (x) : Moves o (s.setTab x) := h.aside

theorem gatherSp (h : Moves o s) {tenant u} (e : s.gatherSp tenant = some u) : Moves o u.1 := by
  obtain ⟨n, -, rfl⟩ := Option.map_eq_some_iff.1 e
  exact (((ite h (h.zeroNow _ _)).zeroFor _ _ _ _).setSp _ _).useRegions _ _ _ _ _ _ _

theorem encodeRow (h : Moves o s) (x ratio limit sp row xs) : Moves o (s.encodeRow x ratio limit sp row xs).1 := by
  unfold State.encodeRow
  dsimp only
  exact (h.charge _ _).bump _ _

theorem putRow (h : Moves o s) (x version row mirror img) : Moves o (s.putRow x version row mirror img) := h.aside

theorem putOverlay (h : Moves o s) (x version row mirror e) : Moves o (s.putOverlay x version row mirror e) := h.aside

theorem dropRow (h : Moves o s) (x version row) : Moves o (s.dropRow x version row) := h.aside

theorem tabReg (h : Moves o s) (x) : Moves o (s.tabReg x) := (((((h.setReg _ _).setReg _ _).setReg _ _).setReg _ _).setReg _ _).setReg _ _

theorem tabRegs (h : Moves o s) : Moves o s.tabRegs := foldl _ h fun _ _ h => h.tabReg _

theorem tabClear (h : Moves o s) (slot) : Moves o (s.tabClear slot) := foldl _ h fun _ _ h => h.setReg _ _

theorem checkTable (h : Moves o s) (t e) : Moves o (Machine.checkTable t s e).1 := by
  unfold Machine.checkTable
  dsimp only
  split
  · exact h
  · dsimp only
    exact h.reservedFmt _

theorem execTableRegister (tenant seq bad) : ResMoves s (Machine.execTableRegister tenant seq bad s) :=
  .live ((refl _).ringRow _ _ _ _ _ (fun _ _ h => h.checkTable _ _))

theorem execTableRelease (tenant seq bad) : ResMoves s (Machine.execTableRelease tenant seq bad s) :=
  .live ((refl _).ringRow _ _ _ _ _ (fun _ _ h => h.checkTable _ _))

theorem admitTable (h : Moves o s) (t seq) : Moves o (s.admitTable t seq) := by
  unfold State.admitTable
  dsimp only
  split
  · exact h.complete _ _ _ _ _ _ _ _ _
  · split
    · exact h.aside.complete _ _ _ _ _ _ _ _ _
    · split
      · exact h
      · exact h.aside.complete _ _ _ _ _ _ _ _ _

theorem freeVersion (h : Moves o s) (x version) : Moves o (s.freeVersion x version) := ((h.dropHidden _ _).setTab _).aside

theorem dropReplicas (h : Moves o s) (t n p') : Moves o (s.dropReplicas t n p') := (h.bump _ _).aside

theorem checkStage (h : Moves o s) (t e) : Moves o (Machine.checkStage t s e).1 := by
  unfold Machine.checkStage
  dsimp only
  split
  · exact h
  · dsimp only
    exact h.reservedFmt _

theorem execTableStage (tenant seq bad) : ResMoves s (Machine.execTableStage tenant seq bad s) :=
  .live ((refl _).ringRow _ _ _ _ _ (fun _ _ h => h.checkStage _ _))

theorem stageRows (h : Moves o s) (g) : Moves o (s.stageRows g) := by
  unfold State.stageRows
  split
  · rename_i x s' sp ex e
    split
    rename_i first n er
    extract_lets w
    generalize hr : List.foldl _ (s', []) (List.range n) = r
    have hf : Moves o r.1 := by
      rw [← hr]
      exact foldl_fst _ (h.gatherSp e) fun _ _ h => (h.encodeRow _ _ _ _ _ _).putRow _ _ _ _ _
    clear hr
    obtain ⟨encoded, rows⟩ := r
    refine .aside ?_
    split
    · exact (hf.bump _ _).send _ _ _ _
    · exact hf.bump _ _
  · exact h

theorem admitStage (h : Moves o s) (t seq) : Moves o (s.admitStage t seq) := by
  unfold State.admitStage
  obtain ⟨take, e⟩ : ∃ f, f = @State.takeHidden := ⟨_, rfl⟩
  rw [← e]
  extract_lets
  split
  · exact h.complete _ _ _ _ _ _ _ _ _
  · split
    rename_i hp
    have taken := congrArg Prod.fst hp ▸ e ▸ h.takeHidden _ _ _
    exact ((Moves.setTab taken _).aside).stageRows _

theorem execShardStageDone (tenant table shard) : ResMoves s (Machine.execShardStageDone tenant table shard s) := by
  unfold Machine.execShardStageDone
  refine .live ?_
  extract_lets note
  have hn : ∀ {t}, Moves s t → Moves s (note t) := by
    intro t h
    unfold note
    split
    · exact ite h (h.setTab _)
    · exact h
  clear_value note
  split
  · exact ite (refl _) (hn (refl _))
  · rename_i gone src taken told _ _ _
    have ht : Moves s told := by
      unfold told
      split
      · exact ite (hn (refl s).aside) ((refl s).aside.sendRole _ _ _ _)
      · exact (refl s).aside
    clear_value told
    exact ite (refl _) (ht.complete _ _ _ _ _ _ _ _ _)

theorem checkSwitch (h : Moves o s) (t e) : Moves o (Machine.checkSwitch t s e).1 := by
  unfold Machine.checkSwitch
  dsimp only
  split
  · exact h
  · exact h

theorem execTableSwitch (tenant seq bad) : ResMoves s (Machine.execTableSwitch tenant seq bad s) :=
  .live ((refl _).ringRow _ _ _ _ _ (fun _ _ h => h.checkSwitch _ _))

theorem admitSwitch (h : Moves o s) (t seq) : Moves o (s.admitSwitch t seq) := by
  unfold State.admitSwitch
  exact ite (h.complete _ _ _ _ _ _ _ _ _) (h.aside.sendAll _ _ _ _ _)

theorem execSwitchDecision (src tenant table p' version) : ResMoves s (Machine.execSwitchDecision src tenant table p' version s) :=
  .live (ite ((refl _).aside) (ite ((refl _).stale) (((refl _).aside).send _ _ _ _)))

theorem execSwitchAck (src tenant table) : ResMoves s (Machine.execSwitchAck src tenant table s) := .live ((refl _).aside)

theorem cancelSwitch (h : Moves o s) (w) : Moves o (s.cancelSwitch w) := by
  unfold State.cancelSwitch
  split
  · exact h
  · exact (h.aside.sendAll _ _ _ _ _).complete _ _ _ _ _ _ _ _ _

theorem execSwitchAckTimeout (tenant table) : ResMoves s (Machine.execSwitchAckTimeout tenant table s) := by
  unfold Machine.execSwitchAckTimeout
  refine .live ?_
  split
  · exact ite ((refl _).cancelSwitch _) (refl _)
  · exact refl _

theorem applySwitch (h : Moves o s) (w) : Moves o (s.applySwitch w) := by
  unfold State.applySwitch
  split
  · exact h.cancelSwitch _
  · dsimp only
    split
    · exact h.aside
    · split
      · exact ((((h.aside.setTab _).bump _ _).dropReplicas _ _ _).aside).complete _ _ _ _ _ _ _ _ _
      · exact (((h.aside.setTab _).bump _ _).dropReplicas _ _ _).aside

theorem checkGather (h : Moves o s) (t e) : Moves o (Machine.checkGather t s e).1 := by
  unfold Machine.checkGather
  dsimp only
  split
  · dsimp only
    exact ((h.bump _ _).bump _ _).reservedFmt _
  · dsimp only
    exact h.bump _ _

theorem execGather (tenant seq bad) : ResMoves s (Machine.execGather tenant seq bad s) :=
  .live ((refl _).ringRow _ _ _ _ _ (fun _ _ h => h.checkGather _ _))

theorem checkScatter (h : Moves o s) (t e) : Moves o (Machine.checkScatter t s e).1 := by
  unfold Machine.checkScatter
  dsimp only
  split
  · dsimp only
    exact ((h.bump _ _).bump _ _).reservedFmt _
  · dsimp only
    exact h.bump _ _

theorem execScatter (tenant seq bad) : ResMoves s (Machine.execScatter tenant seq bad s) :=
  .live ((refl _).ringRow _ _ _ _ _ (fun _ _ h => h.checkScatter _ _))

theorem setGjob (h : Moves o s) (j) : Moves o (s.setGjob j) := h.aside

theorem issueRow (h : Moves o s) (x j die pos) : Moves o (s.issueRow x j die pos) := by
  unfold State.issueRow
  dsimp only
  split
  · split
    · exact ite h.aside (h.aside.sendRole _ _ _ _)
    · exact h.aside
  · exact h.aside

theorem dealGather (h : Moves o s) (x j item) : Moves o (s.dealGather x j item) := foldl _ (h.dealSet _) fun _ _ h => h.issueRow _ _ _ _

theorem admitGather (h : Moves o s) (t seq) : Moves o (s.admitGather t seq) := by
  unfold State.admitGather
  dsimp only
  split
  · exact foldl _ (h.aside.bump _ _) fun _ _ h => h.dealGather _ _ _
  · exact (h.bump _ _).complete _ _ _ _ _ _ _ _ _

theorem admitScatter (h : Moves o s) (t seq) : Moves o (s.admitScatter t seq) := by
  unfold State.admitScatter
  dsimp only
  split
  · exact h.aside.bump _ _
  · exact (h.bump _ _).complete _ _ _ _ _ _ _ _ _

theorem execReadSlotFree (die waited) : ResMoves s (Machine.execReadSlotFree die waited s) := by
  unfold Machine.execReadSlotFree
  refine .live ?_
  split
  · exact refl _
  · split
    · exact ite (refl _) ((((refl _).aside).issueRow _ _ _ _).bump _ _)
    · exact (refl _).aside

theorem localRow (h : Moves o s) (x j row) : Moves o (s.localRow x j row).1 := by
  unfold State.localRow
  dsimp only
  split
  · dsimp only
    exact h.aside
  · exact h

theorem addLoad (h : Moves o s) (x row n) : Moves o (s.addLoad x row n) := h.aside

theorem countRead (h : Moves o s) (x src row bulk) : Moves o (s.countRead x src row bulk) := by
  unfold State.countRead
  exact ite ((h.addLoad _ _ _).aside) h.aside

theorem endRead (h : Moves o s) (x j pos img expired) : Moves o (s.endRead x j pos img expired) := h.aside.setGjob _

theorem rerunGather (h : Moves o s) (slot item) : Moves o (s.rerunGather slot item) := by
  unfold State.rerunGather
  split
  · exact (h.putBack _ _ _).schedule _
  · exact h

theorem setTry (h : Moves o s) (j pos v expired) : Moves o (s.setTry j pos v expired) := (h.setGjob _).aside

theorem execRowLineArrival (job pos img bad expired endBad refetch) : ResMoves s (Machine.execRowLineArrival job pos img bad expired endBad refetch s) := by
  unfold Machine.execRowLineArrival
  refine .live ?_
  split
  · refine ite (refl _) ?_
    rename_i j x _ _
    extract_lets row seen fetch item
    have hl := (refl s).localRow x j row
    generalize s.localRow x j row = r at hl ⊢
    obtain ⟨u, own⟩ := r
    dsimp -zeta only at hl ⊢
    extract_lets served read fault lines lined counted missed last raised
    have hr : Moves s read := ite (hl.countRead _ _ _ _) hl
    have hc : Moves s counted := ite ((hr.bump _ _).bumpIf _ _) ((((hr.bump _ _).bumpIf _ _).bump _ _).bump _ _)
    have hm : Moves s missed := ite ((hc.bump _ _).bumpIf _ _) hc
    have hf : Moves s raised := by
      unfold raised
      split
      · exact (hm.bump _ _).raiseFault _ _ _ _ _
      · exact hm.bump _ _
    clear_value raised fault
    refine ite ((hc.bump _ _).endRead _ _ _ _ _) ?_
    split
    · exact hc.endRead _ _ _ _ _
    · refine ite (hm.setTry _ _ _ _) (ite (((hm.bump _ _).rerunGather _ _).setTry _ _ _ _) (hf.endRead _ _ _ _ _))
  · exact refl _

theorem bounceMoved (h : Moves o s) (src cls tag seq home) : Moves o (s.bounceMoved src cls tag seq home) := ((h.bump _ _).bump _ _).send _ _ _ _

theorem execRowRead (src tenant table row skein bulk sealWait moveWait tag seq) : ResMoves s (Machine.execRowRead src tenant table row skein bulk sealWait moveWait tag seq s) := by
  unfold Machine.execRowRead
  refine .live ?_
  split
  · exact (refl _).send _ _ _ _
  · extract_lets version answer g incoming moved charged src waited
    have answered {t} (h : Moves s t) (img e) : Moves s (answer t img e) := h.send _ _ _ _
    clear_value answer
    refine ite (ite ?_ ?_) (answered (refl _) _ _)
    · have hm : Moves s moved := ite ((refl _).bump _ _) (refl _)
      have hw : Moves s waited := by
        refine ite hm ?_
        split
        · exact ite (hm.bump _ _) ((hm.bump _ _).aside.bump _ _)
        · exact hm.bump _ _
      clear_value waited
      refine ite (refl _) ?_
      split
      · exact answered ((hw.countRead _ _ _ _).bumpIf _ _) _ _
      · exact answered hw _ _
    · split
      · split
        · exact ite (((refl _).bump _ _).sendRole _ _ _ _) ((refl _).bounceMoved _ _ _ _ _)
        · exact ite ((refl _).bounceMoved _ _ _ _ _) (answered (refl _) _ _)
      · exact answered (refl _) _ _

theorem finishGather (h : Moves o s) (j) : Moves o (s.finishGather j) := by
  unfold State.finishGather
  exact ite h (ite ((((h.bumpIf _ _).bump _ _).aside).complete _ _ _ _ _ _ _ _ _) ((((h.bumpIf _ _).bump _ _).aside).complete _ _ _ _ _ _ _ _ _))

theorem gatherEnd (h : Moves o s) (j) : Moves o (s.gatherEnd j) := by
  unfold State.gatherEnd
  split
  · exact h
  · split
    · exact (h.setGjob _).finishGather _
    · exact ((ite h (h.memWrite _ _ _)).setGjob _).finishGather _

theorem execGatherItem (job r) : ResMoves s (Machine.execGatherItem job r s) := by
  unfold Machine.execGatherItem
  refine .live ?_
  split
  · extract_lets span
    split
    · exact refl _
    · refine ite (refl _) ((refl _).withEv _ _ _ _ fun s h => ?_)
      have hu {a b c d e f g} : Moves _ (s.useRegions a b c d e f g) := h.useRegions _ _ _ _ _ _ _
      refine .gatherEnd (.schedule (.freeCtx (.setGjob (.bump (.bump (.bump (.charge ?_ _ _) _ _) _ _) _ _) _) _ _) _) _
      exact ite hu (.foldl _ hu fun _ _ h => h.memWrite _ _ _)
  · exact refl _

theorem setStep (h : Moves o s) (k) : Moves o (s.setStep k) := h.aside

theorem forwardRecords (h : Moves o s) (b rs) : Moves o (s.forwardRecords b rs) := (foldl _ h fun _ _ h => h.sendRole _ _ _ _).bump _ _

theorem takeRecord (h : Moves o s) (x r forwarded seq) : Moves o (s.takeRecord x r forwarded seq) := by
  unfold State.takeRecord
  dsimp only
  split
  · exact h
  · split
    · exact h.setStep _
    · split
      · exact ite ((h.setStep _).forwardRecords _ _) (h.bounceMoved _ _ _ _ _)
      · exact ite (h.bounceMoved _ _ _ _ _) h
      · exact h

theorem execContributionRecord (r forwarded seq) : ResMoves s (Machine.execContributionRecord r forwarded seq s) := by
  unfold Machine.execContributionRecord
  refine .liveFor _ ?_
  split
  · exact ite ((refl _).takeRecord _ _ _ _) (refl _)
  · exact refl _

theorem endScatter (h : Moves o s) (t n step status v version incomplete refused) : Moves o (s.endScatter t n step status v version incomplete refused) := by
  unfold State.endScatter
  split
  · exact h
  · exact ite ((h.aside.setGjob _).finishGather _) (h.aside.aside.complete _ _ _ _ _ _ _ _ _)

theorem scatterRefused (h : Moves o s) (t n step status) : Moves o (s.scatterRefused t n step status) := by
  unfold State.scatterRefused
  exact (ite (h.setStep _) h).endScatter _ _ _ _ _ _ _ _

theorem refuseSummary (h : Moves o s) (m status) : Moves o (s.refuseSummary m status) := by
  unfold State.refuseSummary
  exact ite (h.scatterRefused _ _ _ _) (h.send _ _ _ _)

theorem takeSummary (h : Moves o s) (m) : Moves o (s.takeSummary m) := by
  unfold State.takeSummary
  split
  · exact h
  · split
    · exact h
    · dsimp only
      split
      · exact h.refuseSummary _ _
      · split
        · exact h.setStep _
        · exact ite (h.refuseSummary _ _) (ite h (h.setStep _))

theorem execScatterSummary (m) : ResMoves s (Machine.execScatterSummary m s) := .liveFor _ ((refl _).takeSummary _)

theorem execScatterSend (job badList badGrad) : ResMoves s (Machine.execScatterSend job badList badGrad s) := by
  unfold Machine.execScatterSend
  refine .live ?_
  split
  · refine ite (refl _) ?_
    extract_lets w noList noGrad idxs pad range counted recs sent total m j done
    have hs : Moves s sent := by
      refine .foldl _ (((refl s).bump _ _).bump _ _) fun _ _ h => ?_
      split
      · exact ite (h.takeRecord _ _ _ _) ((h.sendRole _ _ _ _).logReq _ _ _)
      · exact h
    clear_value sent
    have hd : Moves s done := ((hs.bump _ _).setGjob _).finishGather _
    clear_value done
    split
    · exact ite (hd.takeSummary _) (hd.sendRole _ _ _ _)
    · exact hd
  · exact refl _

theorem closeStep (h : Moves o s) (x k held incomplete) : Moves o (s.closeStep x k held incomplete) :=
  ((((h.setStep _).setTab _).bump _ _).bumpIf _ _).sendAll _ _ _ _ _

theorem execStepClose (tenant table step held) : ResMoves s (Machine.execStepClose tenant table step held s) := by
  unfold Machine.execStepClose
  refine .live ?_
  split
  · exact refl _
  · exact ite ((refl _).closeStep _ _ _ _) (refl _)

theorem execStepWaitTimeout (tenant table step held) : ResMoves s (Machine.execStepWaitTimeout tenant table step held s) := by
  unfold Machine.execStepWaitTimeout
  refine .live ?_
  split
  · exact refl _
  · exact ite ((refl _).closeStep _ _ _ _) (refl _)

theorem takeReady (h : Moves o s) (src t n step delegates) : Moves o (s.takeReady src t n step delegates) := by
  unfold State.takeReady
  exact ite h (h.setStep _)

theorem execReadyReceive (src tenant table step delegates) : ResMoves s (Machine.execReadyReceive src tenant table step delegates s) :=
  .live ((refl _).takeReady _ _ _ _ _)

theorem finishMerge (h : Moves o s) (k) : Moves o (s.finishMerge k) := by
  unfold State.finishMerge
  refine ite h ?_
  extract_lets rows
  split
  rename_i dropped k' e
  have hd : Moves o dropped := by
    split at e
    · cases e; exact h
    · cases e; exact .foldl _ h fun _ _ h => h.send _ _ _ _
  clear e
  extract_lets left_ closed readied
  refine ite (hd.setStep _) ?_
  have hr : Moves o readied := hd.setStep _
  clear_value readied
  split
  · exact ite (hr.takeReady _ _ _ _ _) (hr.send _ _ _ _)
  · exact hr

theorem handOff (h : Moves o s) (m) : Moves o (s.handOff m) := by
  unfold State.handOff
  split
  · exact ite h (h.aside.send _ _ _ _)
  · exact h

theorem readRow (h : Moves o s) (x version row sp inp) : Moves o (s.readRow x version row sp inp).2 := by
  unfold State.readRow
  dsimp only
  split
  · exact h
  · dsimp only
    exact h.countStream _ _ _

theorem mergeRow (h : Moves o s) (x sp step version row eta rs inp) : Moves o (s.mergeRow x sp step version row eta rs inp).1 := by
  unfold State.mergeRow
  have read := h.readRow x version row sp inp
  split <;> rename_i e <;> rw [e] at read
  · exact read
  · exact ((((((read.charge _ _).setSp _ _).encodeRow _ _ _ _ _ _).putOverlay _ _ _ _ _).bump _ _).bump _ _)

theorem sendMerged (h : Moves o s) (x step version states mirrors) : Moves o (s.sendMerged x step version states mirrors) := by
  unfold State.sendMerged
  exact foldl _ (foldl _ h fun _ _ h => h.send _ _ _ _) fun _ _ h => ite (ite h (h.send _ _ _ _)) h

theorem execCloseStepMerge (tenant table step only version eta m) : ResMoves s (Machine.execCloseStepMerge tenant table step only version eta m s) := by
  unfold Machine.execCloseStepMerge
  refine .live ?_
  split
  · exact refl _
  · rename_i x _
    extract_lets k dated marked kept recs rows held
    refine ite (refl _) ?_
    have hm : Moves s marked := (refl _).setStep _
    clear_value marked
    refine ite hm ?_
    split
    · exact hm
    · rename_i u sp e
      have hu : Moves s u := by
        split at e
        · cases e; exact hm
        · exact hm.gatherSp e
      extract_lets waited
      generalize hr : List.foldl _ (waited, []) rows = r
      have hf : Moves s r.1 := by
        rw [← hr]
        exact foldl_fst _ (hu.bump _ _) fun _ _ h => h.mergeRow _ _ _ _ _ _ _ _
      clear hr
      obtain ⟨merged, states⟩ := r
      refine .foldl _ (.finishMerge (.setStep (ite ?_ (.setTab ?_ _)) _) _) fun _ _ h => h.handOff _
      all_goals
        refine .foldl _ (.foldl _ (hf.sendMerged _ _ _ _ _) fun _ _ h => h.send _ _ _ _) fun _ _ h => h.addLoad _ _ _

theorem execMirrorAck (src tenant table w) : ResMoves s (Machine.execMirrorAck src tenant table w s) :=
  .live (ite ((refl _).aside) (ite (refl _) (((refl _).setStep _).finishMerge _)))

theorem mirrorPages (h : Moves o s) (x version row) : Moves o (s.mirrorPages x version row) := by
  unfold State.mirrorPages
  obtain ⟨take, e⟩ : ∃ f, f = @State.takeHidden := ⟨_, rfl⟩
  rw [← e]
  refine ite h ?_
  have taken := e ▸ h.takeHidden x.tenant (s.rowTier x.tenant) (shardPages x (row / x.shardRows))
  exact taken.setTab _

theorem execMirrorImages (src tenant table step version rows) : ResMoves s (Machine.execMirrorImages src tenant table step version rows s) := by
  unfold Machine.execMirrorImages
  refine .liveFor _ ?_
  split
  · exact refl _
  · refine .send ?_ _ _ _ _
    refine .foldl _ ?_ fun _ _ h => foldl _ (ite h (h.putRow _ _ _ _ _)) fun _ _ h => h.putOverlay _ _ _ _ _
    split
    · exact (refl _).mirrorPages _ _ _
    · exact refl _

theorem installSteps (h : Moves o s) : Moves o s.installSteps := foldl _ h fun _ _ h => h.aside

theorem takeSeal (h : Moves o s) (t n step v version incomplete refused) : Moves o (s.takeSeal t n step v version incomplete refused) := by
  unfold State.takeSeal
  refine ite (h.scatterRefused _ _ _ _) ?_
  split
  · exact h.endScatter _ _ _ _ _ _ _ _
  · extract_lets status ended closed k sealed warmed
    have hs : Moves o sealed := ((h.endScatter _ _ _ _ _ _ _ _).setTab _).setStep _
    clear_value sealed
    have hw : Moves o warmed := .foldl _ hs fun _ _ h => ite (ite h (h.send _ _ _ _)) h
    exact ite hw.installSteps hw

theorem execStepSeal (tenant table step v version incomplete refused) : ResMoves s (Machine.execStepSeal tenant table step v version incomplete refused s) :=
  .live ((refl _).takeSeal _ _ _ _ _ _ _)

theorem sealSteps (h : Moves o s) : Moves o s.sealSteps := foldl _ h fun _ _ h => (h.sendAll _ _ _ _ _).takeSeal _ _ _ _ _ _ _

theorem stepsTick (h : Moves o s) : Moves o s.stepsTick := by
  unfold State.stepsTick
  refine .sealSteps ?_
  refine .foldl _ ?_ fun _ _ h => h.finishMerge _
  refine .foldl _ h fun _ _ h => ?_
  split
  · exact ite h (h.send _ _ _ _)
  · exact h

theorem execOverlayWriteback (tenant table row) : ResMoves s (Machine.execOverlayWriteback tenant table row s) := by
  unfold Machine.execOverlayWriteback
  refine .live ?_
  refine .foldl _ (refl _) fun _ _ h => ?_
  split
  · split
    · exact ite h ((h.aside.putRow _ _ _ _ _).bump _ _)
    · exact h
  · exact h

theorem decideMigration (h : Moves o s) (x) : Moves o (s.decideMigration x) := by
  unfold State.decideMigration
  dsimp only
  split
  · exact h
  · split
    · exact ite h.aside (ite h.aside ((((h.aside.bump _ _).bump _ _).sendAll _ _ _ _ _).aside))
    · exact h.aside

theorem startWarm (h : Moves o s) (m) : Moves o (s.startWarm m) := by
  unfold State.startWarm
  split
  · exact ite h (h.send _ _ _ _)
  · exact h

theorem takeReport' (h : Moves o s) (r) : Moves o (s.takeReport' r) := by
  unfold State.takeReport'
  split
  · exact h
  · exact ite h (foldl _ (h.aside.decideMigration _) fun _ _ h => h.startWarm _)

theorem replicate (h : Moves o s) (x) : Moves o (s.replicate x) := by
  unfold State.replicate
  refine .foldl _ h fun _ _ h => ?_
  split
  · exact (h.send _ _ _ _).aside
  · exact h

theorem execLoadWindowEnd : ResMoves s (Machine.execLoadWindowEnd s) := by
  unfold Machine.execLoadWindowEnd
  refine .live ?_
  split
  · exact refl _
  · refine .aside ?_
    refine .foldl _ (refl _) fun _ _ h => ?_
    dsimp only
    split
    · exact (h.setReg _ _).replicate _
    · split
      · exact ite (((h.setReg _ _).replicate _).takeReport' _) (((h.setReg _ _).replicate _).sendRole _ _ _ _)
      · exact (h.setReg _ _).replicate _

theorem execLoadReport (src tenant table load top) : ResMoves s (Machine.execLoadReport src tenant table load top s) :=
  .live ((refl _).takeReport' _)

theorem execMigrationDecision (m) : ResMoves s (Machine.execMigrationDecision m s) :=
  .live (ite ((refl _).stale) (ite (refl _) (((refl _).aside).startWarm _)))

theorem takeRows (h : Moves o s) (x rows) : Moves o (s.takeRows x rows) := by
  unfold State.takeRows
  exact foldl _ h fun _ _ h => foldl _ (ite h (h.putRow _ _ _ _ _)) fun _ _ h => ite h (h.putOverlay _ _ _ _ _)

theorem execWarmCopy (tenant table rows) : ResMoves s (Machine.execWarmCopy tenant table rows s) := by
  unfold Machine.execWarmCopy
  refine .liveFor _ ?_
  split
  · exact refl _
  · exact ((refl _).aside).takeRows _ _

theorem execMigrationHandoff (tenant table rows holders waited) : ResMoves s (Machine.execMigrationHandoff tenant table rows holders waited s) := by
  unfold Machine.execMigrationHandoff
  refine .liveFor _ ?_
  split
  · exact refl _
  · exact ite (refl _) ((((refl _).bump _ _).aside).takeRows _ _)

theorem execForwardComplete (tenant table step count) : ResMoves s (Machine.execForwardComplete tenant table step count s) :=
  .live ((refl _).setStep _)

theorem switchRows (h : Moves o s) (x m) : Moves o (s.switchRows x m) := by
  unfold State.switchRows
  exact ite ((h.setTab _).aside) (foldl _ ((h.setTab _).aside) fun _ _ h => ite h (ite h ((h.setStep _).forwardRecords _ _)))

theorem migrationsTick (h : Moves o s) : Moves o s.migrationsTick := by
  unfold State.migrationsTick
  refine .foldl _ h fun _ _ h => ?_
  dsimp only
  split
  · exact h
  · exact ite ((h.switchRows _ _).handOff _) (ite (ite h ((ite (foldl _ h fun _ _ h => h.dropRow _ _ _) h).aside)) h)

theorem execReplicaReceive (src tenant table row view img) : ResMoves s (Machine.execReplicaReceive src tenant table row view img s) := by
  unfold Machine.execReplicaReceive
  refine .liveFor _ ?_
  split
  · exact refl _
  · exact ite (refl _) ((((refl _).aside).bump _ _).bump _ _)

theorem execReplicaDrop (src tenant table row) : ResMoves s (Machine.execReplicaDrop src tenant table row s) :=
  .live (((refl _).dropReplicas _ _ _).send _ _ _ _)

theorem execReplicaDropAck (src tenant table row) : ResMoves s (Machine.execReplicaDropAck src tenant table row s) :=
  .live (foldl _ ((refl _).aside) fun _ _ h => (h.setStep _).finishMerge _)

theorem tabsTick (h : Moves o s) : Moves o s.tabsTick := by
  unfold State.tabsTick
  refine .tabRegs ?_
  refine .foldl _ ?_ fun _ _ h => ?_
  · refine .foldl _ ((foldl _ h fun _ _ h => h.applySwitch _).migrationsTick) fun _ _ h => ?_
    refine .foldl _ h fun _ _ h => ?_
    split
    · exact (h.freeVersion _ _).bump _ _
    · exact h
  · refine .tabClear ?_ _
    refine .aside ?_
    refine .dropReplicas ?_ _ _ _
    refine .foldl _ h fun _ _ h => ?_
    split
    · exact h.freeVersion _ _
    · exact h

theorem rerole (h : Moves o s) : Moves o s.rerole := h.aside

theorem gathersTick (h : Moves o s) : Moves o s.gathersTick := by
  unfold State.gathersTick
  exact foldl _ (foldl _ h fun _ _ h => h.stageRows _) fun _ _ h => ite (h.finishGather _) (ite (h.gatherEnd _) h)

theorem nameGather (h : Moves o s) : Moves o s.nameGather :=
  (foldl _ ((h.bumpIf _ _).aside) fun _ _ h => foldl _ (h.setSp _ _) fun _ _ h => h.dealSet _).redealAll

/-! ### The functions of Machine/Thatch -/

theorem claim (h : Moves o s) (kind t seq i) : Moves o (s.claim kind t seq i) := h.aside

theorem takeIndex (h : Moves o s) {d home u} (e : s.takeIndex d home = some u) : Moves o u := by
  obtain ⟨n, -, rfl⟩ := Option.map_eq_some_iff.1 e
  exact (h.aside.setReg _ _).setReg _ _

theorem dropThatches (h : Moves o s) (t hs) : Moves o (s.dropThatches t hs) := foldl _ h fun _ _ h => h.dropHidden _ _

theorem dropIndex (h : Moves o s) (t i) : Moves o (s.dropIndex t i) := by
  unfold State.dropIndex
  split
  · exact h
  · exact foldl _ ((h.dropThatches _ _).aside) fun _ _ h => h.setReg _ _

theorem finishIndex (h : Moves o s) (w) : Moves o (s.finishIndex w) := by
  unfold State.finishIndex
  exact ite h (ite (h.aside.complete _ _ _ _ _ _ _ _ _) ((((h.aside.dropIndex _ _).sendAll _ _ _ _ _).bump _ _).complete _ _ _ _ _ _ _ _ _))

theorem answerIndex (h : Moves o s) (src t i ok) : Moves o (s.answerIndex src t i ok) := by
  unfold State.answerIndex
  split
  · exact h
  · exact ite h (h.aside.finishIndex _)

theorem admitIndex (h : Moves o s) (t seq) : Moves o (s.admitIndex t seq) := by
  unfold State.admitIndex
  extract_lets d holders nodes w asked
  have ha : Moves o asked := h.aside.sendAll _ _ _ _ _
  clear_value asked
  split
  · rename_i e; exact (ha.takeIndex e).answerIndex _ _ _ _
  · exact ha.answerIndex _ _ _ _

theorem checkIndex (h : Moves o s) (t seq e) : Moves o (Machine.checkIndex t seq s e).1 := by
  unfold Machine.checkIndex
  dsimp only
  split
  · dsimp only
    exact h.claim _ _ _ _
  · dsimp only
    exact (h.bump _ _).reservedFmt _

theorem execIndexRegister (tenant seq bad) : ResMoves s (Machine.execIndexRegister tenant seq bad s) :=
  .live ((refl _).ringRow _ _ _ _ _ (fun _ _ h => h.checkIndex _ _ _))

theorem execIndexDescriptor (src m) : ResMoves s (Machine.execIndexDescriptor src m s) := by
  unfold Machine.execIndexDescriptor
  refine .liveFor _ ?_
  split
  · exact (refl _).send _ _ _ _
  split
  · rename_i e; exact ((refl _).takeIndex e).send _ _ _ _
  · exact (refl _).send _ _ _ _

theorem execIndexAck (src tenant index ok) : ResMoves s (Machine.execIndexAck src tenant index ok s) := by
  unfold Machine.execIndexAck
  refine .live ?_
  split
  · exact ite ((refl _).dropIndex _ _) ((refl _).answerIndex _ _ _ _)
  · exact (refl _).answerIndex _ _ _ _

theorem serviceJoined (h : Moves o s) (old) : Moves o (s.serviceJoined old) := by
  unfold State.serviceJoined
  exact foldl _ h fun _ _ h => foldl _ h fun _ _ h => ite (h.send _ _ _ _) h

theorem applied (h : Moves o s) (t c) : Moves o (s.applied t c) := foldl _ (((h.bump _ _).bump _ _).bump _ _) fun _ _ h => h.hidStore _ _ _

theorem noteIndex (h : Moves o s) (x) : Moves o (s.noteIndex x) := (h.setReg _ _).setReg _ _

theorem installOne (h : Moves o s) {x r u} (e : s.installOne x r = some u) : Moves o u := by
  unfold State.installOne at e
  dsimp only at e
  split at e
  · cases e; exact (h.setIdx _).dealView _ _ _
  split at e
  · cases e
  split at e
  · split at e
    · cases e
    split at e <;> cases e
    · exact ((h.setIdx _).bump _ _).sendRole _ _ _ _
    · exact (h.setIdx _).bump _ _
  · cases e
    exact (((((h.setIdx _).bump _ _).applied _ _).setReg _ _).noteIndex _).dealView _ _ _

theorem installSeals (h : Moves o s) (t i n) : Moves o (s.installSeals t i n) := by
  induction n generalizing s with
  | zero => exact h
  | succ n ih =>
    unfold State.installSeals
    split
    · exact h
    split
    · exact h
    split
    · rename_i e; exact ih (h.installOne e)
    · exact h

theorem install (h : Moves o s) (t i) : Moves o (s.install t i) := by
  unfold State.install
  split
  · exact ite (h.installSeals _ _ _) h
  · exact h

theorem lend (h : Moves o s) (slot count) : Moves o (s.lend slot count) := by
  unfold State.lend
  exact ite h.aside (((foldl _ h fun _ _ h => h.setSpState _ _).aside).bump _ _)

theorem lentReturn (h : Moves o s) (slot) : Moves o (s.lentReturn slot) := h.aside

theorem startBuild (h : Moves o s) (x) : Moves o (s.startBuild x) := by
  unfold State.startBuild
  split
  · exact h
  · exact ite h (ite ((h.setIdx _).setReg _ _) (((h.setIdx _).setReg _ _).aside))

theorem copySeal (h : Moves o s) (r) : Moves o (s.copySeal r) := by
  unfold State.copySeal
  split
  · exact h
  · exact ite h (ite ((h.setIdx _).install _ _) (ite (h.setIdx _) h))

theorem homeSeal (h : Moves o s) (r covers refused) : Moves o (s.homeSeal r covers refused) := by
  unfold State.homeSeal
  refine .foldl _ (.foldl _ h fun s x h => ?_) fun s x h => ?_
  all_goals
    obtain ⟨q, d⟩ := x
    dsimp only
    split
    · exact h
    · exact h.aside.aside.complete _ _ _ _ _ _ _ _ _

theorem commit (h : Moves o s) (t i) : Moves o (s.commit t i) := by
  unfold State.commit
  split
  · exact h
  · exact ite h ((h.setIdx _).bump _ _)

theorem sealIndex (h : Moves o s) (x tick live) : Moves o (s.sealIndex x tick live) := by
  unfold State.sealIndex
  exact (ite ((foldl _ ((h.setIdx _).bump _ _) fun _ _ h => h.sendRole _ _ _ _).copySeal _) (foldl _ ((h.setIdx _).bump _ _) fun _ _ h => h.sendRole _ _ _ _)).homeSeal _ _ _

theorem checkUpdate (h : Moves o s) (t e) : Moves o (Machine.checkUpdate t s e).1 := by
  unfold Machine.checkUpdate
  dsimp only
  split
  · dsimp only
    exact ((h.bump _ _).bump _ _).reservedFmt _
  · split
    · dsimp only
      exact h.bump _ _
    · dsimp only
      exact (h.bump _ _).aside

theorem execUpdateInsert (tenant seq bad) : ResMoves s (Machine.execUpdateInsert tenant seq bad s) :=
  .live ((refl _).ringRow _ _ _ _ _ (fun _ _ h => h.checkUpdate _ _))

theorem execUpdateDelete (tenant seq bad) : ResMoves s (Machine.execUpdateDelete tenant seq bad s) :=
  .live ((refl _).ringRow _ _ _ _ _ (fun _ _ h => h.checkUpdate _ _))

theorem seqRefuse (h : Moves o s) (x u status) : Moves o (s.seqRefuse x u status) := by
  unfold State.seqRefuse
  exact ite ((h.bump _ _).homeSeal _ _ _) ((h.bump _ _).setIdx _)

theorem appendRecord (h : Moves o s) (x u parts vec) : Moves o (s.appendRecord x u parts vec) :=
  ((((h.setIdx _).bump _ _).sendAll _ _ _ _ _).install _ _).commit _ _

theorem askPars (h : Moves o s) (x u) : Moves o (s.askPars x u) := by
  unfold State.askPars
  refine ite (h.setIdx _) ?_
  split
  · rename_i e _
    cases (entryCopies e).head? with
    | none => exact h.setIdx _
    | some n => exact (h.setIdx _).send _ _ _ _
  · exact h.setIdx _

theorem sequence (h : Moves o s) (u) : Moves o (s.sequence u) := by
  unfold State.sequence
  split
  · exact h
  · split
    · exact h
    · split
      · exact h.setIdx _
      · split
        · exact h.appendRecord _ _ _ _
        · split
          · exact h.askPars _ _
          · exact ite ((((h.charge _ _).bump _ _).bumpIf _ _).seqRefuse _ _ _) (ite (((h.charge _ _).bump _ _).seqRefuse _ _ _) ((((h.charge _ _).bump _ _).charge _ _).appendRecord _ _ _ _))

theorem sendUpdate (h : Moves o s) (u vec) : Moves o (s.sendUpdate u vec) := by
  unfold State.sendUpdate
  dsimp only
  split
  · exact h.aside
  · exact ite (h.aside.sequence _) ((h.aside.sendRole _ _ _ _).logReq _ _ _)

theorem admitUpdate (h : Moves o s) (t seq) : Moves o (s.admitUpdate t seq) := by
  unfold State.admitUpdate
  exact ite (h.aside.sendUpdate _ _) h.aside

theorem execUpdateVectorRead (tenant seq bad) : ResMoves s (Machine.execUpdateVectorRead tenant seq bad s) := by
  unfold Machine.execUpdateVectorRead
  refine .live ?_
  split
  · exact refl _
  · exact ite (refl _) (ite ((((refl _).aside).bump _ _).complete _ _ _ _ _ _ _ _ _) ((refl _).sendUpdate _ _))

theorem execSequencerUpdate (u) : ResMoves s (Machine.execSequencerUpdate u s) := .liveFor _ ((refl _).sequence _)

theorem execDeltaRecord (_src r) : ResMoves s (Machine.execDeltaRecord _src r s) := by
  unfold Machine.execDeltaRecord
  refine .liveFor _ ?_
  split
  · exact refl _
  · refine ite (refl _) ?_
    extract_lets x kept acked ys
    have ha : Moves s acked := by
      refine ite ?_ ((refl _).setIdx _)
      split
      · exact ((refl _).setIdx _).send _ _ _ _
      · exact (refl _).setIdx _
    clear_value acked
    exact (ha.sendAll _ _ _ _ _).install _ _

theorem execDeltaCommit (src tenant index seq) : ResMoves s (Machine.execDeltaCommit src tenant index seq s) := by
  unfold Machine.execDeltaCommit
  refine .live ?_
  split
  · exact refl _
  · exact ite (refl _) (((refl _).setIdx _).commit _ _)

theorem execSealRecord (r covers refused waited) : ResMoves s (Machine.execSealRecord r covers refused waited s) := by
  unfold Machine.execSealRecord
  refine .liveFor _ ?_
  dsimp only
  split
  · exact ((((((refl _).bumpIf _ _).bump _ _).copySeal _).sendAll _ _ _ _ _).homeSeal _ _ _).startBuild _
  · exact (((((refl _).bumpIf _ _).bump _ _).copySeal _).sendAll _ _ _ _ _).homeSeal _ _ _

theorem shardLost (h : Moves o s) (t i sh) : Moves o (s.shardLost t i sh) := by
  unfold State.shardLost
  exact ite h ((h.aside.bump _ _).setReg _ _)

theorem takeOver (h : Moves o s) (t i records) : Moves o (s.takeOver t i records) := by
  unfold State.takeOver
  split
  · exact h
  · split
    · exact h
    · refine .foldl _ ?_ fun _ _ h => h.sequence _
      refine .foldl _ (h.setIdx _) fun _ _ h => ?_
      split
      · exact h.sealIndex _ _ _
      · exact h

theorem execLogFetchDone (tenant index records seals) : ResMoves s (Machine.execLogFetchDone tenant index records seals s) := by
  unfold Machine.execLogFetchDone
  refine .liveFor _ ?_
  split
  · exact refl _
  · dsimp only
    split
    · exact (((refl _).setIdx _).install _ _).takeOver _ _ _
    · split
      · exact (((refl _).setIdx _).install _ _).takeOver _ _ _
      · exact ite (((((refl _).setIdx _).install _ _).takeOver _ _ _).shardLost _ _ _) ((((refl _).setIdx _).install _ _).takeOver _ _ _)

theorem execLogFetchRequest (src tenant index first last) : ResMoves s (Machine.execLogFetchRequest src tenant index first last s) := by
  unfold Machine.execLogFetchRequest
  refine .liveFor _ ?_
  split
  · exact refl _
  · exact (refl _).send _ _ _ _

theorem checkBuild (h : Moves o s) (t seq e) : Moves o (Machine.checkBuild t seq s e).1 := by
  unfold Machine.checkBuild
  dsimp only
  split
  · dsimp only
    exact h.claim _ _ _ _
  · exact h

theorem execBuildFold (tenant seq bad) : ResMoves s (Machine.execBuildFold tenant seq bad s) :=
  .live ((refl _).ringRow _ _ _ _ _ (fun _ _ h => h.checkBuild _ _ _))

theorem execBuildRetrain (tenant seq bad) : ResMoves s (Machine.execBuildRetrain tenant seq bad s) :=
  .live ((refl _).ringRow _ _ _ _ _ (fun _ _ h => h.checkBuild _ _ _))

theorem finishBuild (h : Moves o s) (t i status version p') : Moves o (s.finishBuild t i status version p') := by
  unfold State.finishBuild
  split
  · exact h
  · exact h.aside.complete _ _ _ _ _ _ _ _ _

theorem publishOver (h : Moves o s) : Moves o s.publishOver := by
  unfold State.publishOver
  exact ite h.aside h

theorem dropBuild (h : Moves o s) (t i status) : Moves o (s.dropBuild t i status) := by
  unfold State.dropBuild
  split
  · exact h
  · exact ite h ((((((((h.dropThatches _ _).setIdx _).bump _ _).setReg _ _).setReg _ _).lentReturn _).finishBuild _ _ _ _ _).publishOver)

theorem failBuild (h : Moves o s) (t i status) : Moves o (s.failBuild t i status) := by
  unfold State.failBuild
  split
  · exact h
  · exact ite h ((h.dropBuild _ _ _).sendAll _ _ _ _ _)

theorem receiveBuild (h : Moves o s) (b) : Moves o (s.receiveBuild b) := by
  unfold State.receiveBuild
  split
  · exact h
  · split
    · split
      · exact ite (h.finishBuild _ _ _ _ _) (h.send _ _ _ _)
      · dsimp only
        split
        · exact ite ((((h.setIdx _).setReg _ _).sendAll _ _ _ _ _).startBuild _) (((h.setIdx _).setReg _ _).sendAll _ _ _ _ _)
        · exact ((h.setIdx _).setReg _ _).sendAll _ _ _ _ _
    · exact ite h ((h.setIdx _).startBuild _)

theorem admitBuild (h : Moves o s) (t seq) : Moves o (s.admitBuild t seq) := by
  unfold State.admitBuild
  dsimp only
  split
  · exact h
  · split
    · exact h.aside
    · exact ite (h.aside.receiveBuild _) ((h.aside.sendRole _ _ _ _).logReq _ _ _)

theorem execBuildReceive (b) : ResMoves s (Machine.execBuildReceive b s) := .liveFor _ ((refl _).receiveBuild _)

theorem retrainOne {p : State × Retrained} (h : Moves o p.1) (d p' shard sp inp it) : Moves o (State.retrainOne d p' shard sp inp p it).1 := by
  obtain ⟨s, acc⟩ := p
  obtain ⟨id, bs, addr⟩ := it
  unfold State.retrainOne
  have hv := h.vectorVals d.rr d.dim bs ((lk inp id).getD { wrong := [], endBad := false, cycles := 0 }) sp
  dsimp only
  generalize State.vectorVals _ _ _ _ _ _ = r at hv ⊢
  obtain ⟨xs, u⟩ := r
  cases xs with
  | none => exact hv
  | some xs =>
    dsimp only
    split
    · exact hv
    · exact hv

theorem buildImage (h : Moves o s) (x b shard sp addrs extra inp others) : Moves o (s.buildImage x b shard sp addrs extra inp others).1 := by
  unfold State.buildImage
  dsimp only
  split
  · exact h
  · dsimp only
    refine .charge ?_ _ _
    refine .bump ?_ _ _
    refine .bump ?_ _ _
    refine .bump ?_ _ _
    split
    · exact h
    · exact foldl_fst _ h fun _ _ h => h.retrainOne _ _ _ _ _ _

theorem tellStaged (h : Moves o s) (t i sh) : Moves o (s.tellStaged t i sh) := by
  unfold State.tellStaged
  split
  · exact h
  · split
    · exact h.send _ _ _ _
    · split
      · exact h.setIdx _
      · exact h

theorem writeImage (h : Moves o s) (t i im) : Moves o (s.writeImage t i im) := by
  unfold State.writeImage
  split
  · exact h
  · exact ite (((h.setIdx _).refuseWrite _).failBuild _ _ _) (ite (((((h.setIdx _).refuseWrite _).setReg _ _).bump _ _).failBuild _ _ _) (ite ((h.setIdx _).setIdx _) (((h.setIdx _).setIdx _).tellStaged _ _ _)))

theorem writeImages (h : Moves o s) : Moves o s.writeImages := by
  unfold State.writeImages
  exact ite h (foldl _ h fun _ _ h => foldl _ h fun _ _ h => h.writeImage _ _ _)

theorem stageCopy (h : Moves o s) (x im) : Moves o (s.stageCopy x im) := by
  unfold State.stageCopy
  obtain ⟨take, e⟩ : ∃ f, f = @State.takeHidden := ⟨_, rfl⟩
  rw [← e]
  extract_lets t live before n
  refine ite (ite (h.bump _ _) ((h.bump _ _).failBuild _ _ _)) ?_
  have taken := e ▸ h.takeHidden t false n
  exact (((taken.dropThatches _ _).setIdx _).applied _ _)

theorem stageImage (h : Moves o s) (x im) : Moves o (s.stageImage x im) := by
  unfold State.stageImage
  extract_lets t i e copy flash live kept wait take src x' set copied staged told installed written
  have hc : Moves o copied := ite ((h.setIdx _).stageCopy _ _) (h.setIdx _)
  have ht : Moves o told := ite hc ((hc.setReg _ _).tellStaged _ _ _)
  have hw : Moves o written := (ite (ht.install _ _) ht).writeImages
  exact ite (.foldl _ hw fun _ _ h => h.sequence _) hw

theorem zeroLent (h : Moves o s) (slot tenant) : Moves o (s.zeroLent slot tenant) := foldl _ h fun _ _ h => h.zeroNow _ _

theorem execImageBuildDone (tenant index shard addrs r others) : ResMoves s (Machine.execImageBuildDone tenant index shard addrs r others s) := by
  unfold Machine.execImageBuildDone
  refine .live ?_
  split
  · exact refl _
  · rename_i x _
    split
    · exact refl _
    · rename_i b _
      extract_lets mine sp
      refine ite (refl _) ?_
      have built := ((refl s).zeroLent x.slot tenant).buildImage x b shard (sp.getD 0) addrs r.extra r.inp others
      generalize State.buildImage _ _ _ _ _ _ _ _ _ = p at built ⊢
      obtain ⟨u, im⟩ := p
      cases im with
      | none => exact refl _
      | some im =>
        refine ite (.lentReturn ?_ _) ?_
        all_goals
          split
          · exact ((built.setIdx _).stageImage _ _).sendAll _ _ _ _ _
          · exact (built.setIdx _).stageImage _ _

theorem execImageReceive (src im) : ResMoves s (Machine.execImageReceive src im s) := by
  unfold Machine.execImageReceive
  refine .liveFor _ ?_
  split
  · exact refl _
  · extract_lets joins joined missed
    have hj : Moves s joined := ite (((refl _).setReg _ _).setReg _ _) (refl _)
    refine ite (ite hj (hj.stageImage _ _)) (ite ((hj.bump _ _).failBuild _ _ _) ?_)
    exact ((hj.bump _ _).setIdx _).send _ _ _ _

theorem execImageResendRequest (src tenant index shard) : ResMoves s (Machine.execImageResendRequest src tenant index shard s) := by
  unfold Machine.execImageResendRequest
  refine .live ?_
  split
  · exact refl _
  · split
    · exact (refl _).send _ _ _ _
    · split
      · exact ((refl _).serveNow _ _).send _ _ _ _
      · exact refl _

theorem publishAcked (h : Moves o s) (src t i shard n) : Moves o (s.publishAcked src t i shard n) := by
  unfold State.publishAcked
  split
  · exact h
  · exact h.setIdx _

theorem takePublish (h : Moves o s) (src t i p' v) : Moves o (s.takePublish src t i p' v) := by
  unfold State.takePublish
  split
  · exact h
  · exact ite h.stale (foldl _ (((h.setIdx _).setReg _ _).setReg _ _) fun _ _ h => foldl _ h fun _ _ h => ite (h.publishAcked _ _ _ _ _) (h.send _ _ _ _))

theorem execAllStaged (tenant m) : ResMoves s (Machine.execAllStaged tenant m s) := by
  unfold Machine.execAllStaged
  refine .live ?_
  split
  · exact refl _
  · split
    · exact refl _
    · refine ite (refl _) (ite ((refl _).setIdx _) ?_)
      have hp {x y k v k' v' ns a b c d} : Moves s (((((s.setIdx x).setIdx y).setReg k v).setReg k' v').sendAll ns a b c d) :=
        (((((refl _).setIdx _).setIdx _).setReg _ _).setReg _ _).sendAll _ _ _ _ _
      exact ite (hp.takePublish _ _ _ _ _) hp

theorem execPublishDecision (src tenant index p' v) : ResMoves s (Machine.execPublishDecision src tenant index p' v s) :=
  .live (ite ((refl _).takePublish _ _ _ _ _) (ite ((refl _).finishBuild _ _ _ _ _) (ite ((refl _).failBuild _ _ _) ((refl _).dropBuild _ _ _))))

theorem execPublishAck (src tenant index shard shingles) : ResMoves s (Machine.execPublishAck src tenant index shard shingles s) :=
  .live ((refl _).publishAcked _ _ _ _ _)

theorem execPublishAckTimeout (tenant index) : ResMoves s (Machine.execPublishAckTimeout tenant index s) := by
  unfold Machine.execPublishAckTimeout
  refine .live ?_
  split
  · exact refl _
  · split
    · exact refl _
    · split
      · exact refl _
      · exact ite (refl _) ((refl _).failBuild _ _ _)

theorem applyPublish (h : Moves o s) (x v) : Moves o (s.applyPublish x v) :=
  (((((((((h.setIdx _).bump _ _).setReg _ _).setReg _ _).setReg _ _).setReg _ _).noteIndex _).lentReturn _).finishBuild _ _ _ _ _).publishOver

theorem freeThatches (h : Moves o s) (x) : Moves o (s.freeThatches x) := by
  unfold State.freeThatches
  exact ((ite (h.dropThatches _ _) h).setIdx _).bump _ _

theorem checkFilter (h : Moves o s) (t seq e) : Moves o (Machine.checkFilter t seq s e).1 := by
  unfold Machine.checkFilter
  dsimp only
  split
  · exact h
  · dsimp only
    exact h.aside

theorem execFilterRegister (tenant seq bad) : ResMoves s (Machine.execFilterRegister tenant seq bad s) :=
  .live ((refl _).ringRow _ _ _ _ _ (fun _ _ h => h.checkFilter _ _ _))

theorem execFilterReplace (tenant seq bad) : ResMoves s (Machine.execFilterReplace tenant seq bad s) :=
  .live ((refl _).ringRow _ _ _ _ _ (fun _ _ h => h.checkFilter _ _ _))

theorem execFilterRelease (tenant seq bad) : ResMoves s (Machine.execFilterRelease tenant seq bad s) :=
  .live ((refl _).ringRow _ _ _ _ _ (fun _ _ h => h.checkFilter _ _ _))

theorem admitFilter (h : Moves o s) (t seq) : Moves o (s.admitFilter t seq) := by
  unfold State.admitFilter
  exact (ite (h.aside.sendAll _ _ _ _ _) ((h.aside.keepFilter _).sendAll _ _ _ _ _)).complete _ _ _ _ _ _ _ _ _

/-! ### The functions of Machine/Trust -/

theorem wantAdvance (h : Moves o s) (i v) : Moves o (s.wantAdvance i v) := by
  unfold State.wantAdvance
  exact ite h h.aside

theorem configChange (h : Moves o s) : Moves o s.configChange := by
  unfold State.configChange
  exact ite h (h.wantAdvance _ _)

theorem commitCounter (h : Moves o s) (i v) : Moves o (s.commitCounter i v) := by
  unfold State.commitCounter
  exact ite ((((ite (h.aside.setReg _ _) h.aside).bump _ _).aside).setReg _ _) ((ite (h.aside.setReg _ _) h.aside).bump _ _)

theorem execCounterAdvance (i v) : ResMoves s (Machine.execCounterAdvance i v s) :=
  .live (ite (refl _) (ite (((refl _).aside).commitCounter _ _) ((((refl _).aside).aside).sendAll _ _ _ _ _)))

theorem execWitnessRequest (src i v) : ResMoves s (Machine.execWitnessRequest src i v s) := .live ((((refl _).aside).bump _ _).send _ _ _ _)

theorem execWitnessAck (src i) : ResMoves s (Machine.execWitnessAck src i s) := by
  unfold Machine.execWitnessAck
  refine .live ?_
  split
  · exact refl _
  · exact ite ((refl _).commitCounter _ _) ((refl _).aside)

theorem witnessed (h : Moves o s) (w) : Moves o (s.witnessed w) := by
  unfold State.witnessed
  exact ite (h.commitCounter _ _) h

theorem useKey (h : Moves o s) (epoch k until₁) : Moves o (s.useKey epoch k until₁) := (h.aside.setReg _ _).bump _ _

theorem newMgmtKey (h : Moves o s) (start) : Moves o (s.newMgmtKey start) := by
  unfold State.newMgmtKey
  exact (ite (h.draw.useKey _ _ _) h.draw.aside).sendAll _ _ _ _ _

theorem shareKey (h : Moves o s) (peer) : Moves o (s.shareKey peer) := by
  unfold State.shareKey
  extract_lets keyed sent
  have hk : Moves o keyed := ite (h.newMgmtKey _) h
  clear_value keyed
  have hs : Moves o sent := by
    unfold sent
    split
    · exact hk.send _ _ _ _
    · exact hk
  clear_value sent
  split
  · exact ite hs (hs.aside.send _ _ _ _)
  · exact hs

theorem execManagementKey (epoch k src) : ResMoves s (Machine.execManagementKey epoch k src s) :=
  .live (ite (refl _) (ite ((refl _).useKey _ _ _) ((refl _).aside)))

theorem mgmtTick (h : Moves o s) : Moves o s.mgmtTick := by
  unfold State.mgmtTick
  split
  · exact ite (h.useKey _ _ _) h
  · exact h

/-! ### The functions of Machine/Fabric -/

theorem setPort (h : Moves o s) (p' x) : Moves o (s.setPort p' x) := h.aside

theorem setPortState (h : Moves o s) (p' v) : Moves o (s.setPortState p' v) := h.setReg _ _

theorem floodRec (h : Moves o s) (r skip) : Moves o (s.floodRec r skip) := foldl _ (h.bump _ _) fun _ _ h => h.sendAt _ _ _ _ _ _

theorem flood (h : Moves o s) : Moves o s.flood := h.aside.floodRec _ _

theorem linkLost (h : Moves o s) (p') : Moves o (s.linkLost p') := by
  unfold State.linkLost
  exact (ite h.aside (h.aside.bump _ _)).flood

theorem toTraining (h : Moves o s) (p') : Moves o (s.toTraining p') := by
  unfold State.toTraining
  exact ite (((h.setPort _ _).setPortState _ _).linkLost _) ((h.setPort _ _).setPortState _ _)

theorem retrain (h : Moves o s) (p') : Moves o (s.retrain p') := ((h.bump _ _).score _ _ _).toTraining _

theorem portDown (h : Moves o s) (p') : Moves o (s.portDown p') := by
  unfold State.portDown
  dsimp only
  split
  · exact (ite (((((h.bump _ _).score _ _ _).setPort _ _).setPortState _ _).linkLost _) ((((h.bump _ _).score _ _ _).setPort _ _).setPortState _ _)).raiseFault _ _ _ _ _
  · exact ite (((((h.bump _ _).score _ _ _).setPort _ _).setPortState _ _).linkLost _) ((((h.bump _ _).score _ _ _).setPort _ _).setPortState _ _)

theorem refusePort (h : Moves o s) (p' node peerPort reason) : Moves o (s.refusePort p' node peerPort reason) := by
  unfold State.refusePort
  exact ite (((((h.setPortState _ _).setReg _ _).bump _ _).setPort _ _).linkLost _) ((((h.setPortState _ _).setReg _ _).bump _ _).setPort _ _)

theorem setPortKind (h : Moves o s) (p' kind) : Moves o (s.setPortKind p' kind) := by
  unfold State.setPortKind
  exact ite (ite ((((h.setReg _ _).setPort _ _).setPortState _ _).linkLost _) (((h.setReg _ _).setPort _ _).setPortState _ _)) (ite (((h.setReg _ _).setPort _ _).setPortState _ _) (ite ((h.setReg _ _).retrain _) (h.setReg _ _)))

theorem execPortKind (port kind) : ResMoves s (Machine.execPortKind port kind s) := .live (ite ((refl _).setPortKind _ _) (refl _))

theorem execPcsLock (port) : ResMoves s (Machine.execPcsLock port s) := .live (ite (((refl _).setPort _ _).setPortState _ _) (refl _))

theorem execTrainingTimeout (port) : ResMoves s (Machine.execTrainingTimeout port s) := .live (ite ((refl _).portDown _) (refl _))

theorem execLockLoss (port) : ResMoves s (Machine.execLockLoss port s) := .live (ite ((refl _).portDown _) (refl _))

theorem execSilenceTimeout (port) : ResMoves s (Machine.execSilenceTimeout port s) := .live (ite ((refl _).portDown _) (refl _))

theorem execHello (port h') : ResMoves s (Machine.execHello port h' s) :=
  .live (ite (ite (((refl _).bumpIf _ _).refusePort _ _ _ _) ((((((refl _).setPort _ _).setReg _ _).setPortState _ _).flood).shareKey _)) (refl _))

theorem askReplay (h : Moves o s) (p') : Moves o (s.askReplay p') := by
  unfold State.askReplay
  exact ite h (ite ((((h.bump _ _).score _ _ _).setPort _ _).retrain _) (((h.bump _ _).score _ _ _).setPort _ _))

theorem execFlit (port f) : ResMoves s (Machine.execFlit port f s) :=
  .live (ite (ite ((((refl _).bump _ _).retrain _).raiseFault _ _ _ _ _) (ite (((refl _).bump _ _).setPort _ _) ((refl _).askReplay _))) (refl _))

theorem execRetryRequest (port seq) : ResMoves s (Machine.execRetryRequest port seq s) := .live (ite (((refl _).setPort _ _).bump _ _) (refl _))

theorem storeRec (h : Moves o s) (r) : Moves o (s.storeRec r) := h.aside

theorem execLinkStateRecord (port r) : ResMoves s (Machine.execLinkStateRecord port r s) := by
  unfold Machine.execLinkStateRecord
  refine .live ?_
  split
  · exact refl _
  · split
    · exact ite (ite (((refl _).aside).flood) (refl _)) (ite ((((refl _).bump _ _).refusePort _ _ _ _).raiseFault _ _ _ _ _) ((refl _).bump _ _))
    · split
      · exact ite (ite ((((refl _).bump _ _).storeRec _).floodRec _ _) ((refl _).bump _ _)) (ite (((refl _).storeRec _).floodRec _ _) (refl _))
      · exact ((refl _).storeRec _).floodRec _ _

theorem execLinkStateRefresh : ResMoves s (Machine.execLinkStateRefresh s) := .live (ite ((refl _).flood) (refl _))

theorem execLinkStateExpiry (origin) : ResMoves s (Machine.execLinkStateExpiry origin s) := .live (ite ((refl _).aside) (refl _))

theorem liveRegs (h : Moves o s) : Moves o s.liveRegs := ((h.setReg _ _).setReg _ _).setReg _ _

theorem tellJoined (h : Moves o s) (was) : Moves o (s.tellJoined was) := by
  unfold State.tellJoined
  split
  · exact ite h (h.aside.sendAll _ _ _ _ _)
  · exact h

theorem execRouteRecompute : ResMoves s (Machine.execRouteRecompute s) :=
  .live (ite (refl _) (((((refl _).aside).liveRegs).bump _ _).tellJoined _))

theorem mapRegs (h : Moves o s) : Moves o s.mapRegs :=
  ((((((h.aside.setReg _ _).setReg _ _).setReg _ _).setReg _ _).setReg _ _).setReg _ _).setBlob _ _

theorem releaseHeld (h : Moves o s) : Moves o s.releaseHeld := h.aside

theorem installMap (h : Moves o s) (m epoch) : Moves o (s.installMap m epoch) := ((((h.aside.setReg _ _).mapRegs).rerole).releaseHeld).serviceJoined _

theorem promote (h : Moves o s) : Moves o s.promote := by
  unfold State.promote
  split
  · exact h
  · exact ite h.aside.stale (h.aside.aside.setReg _ _)

theorem mapLoop (h : Moves o s) (n) : Moves o (State.mapLoop n s) := by
  induction n generalizing s with
  | zero => exact h
  | succ n ih =>
    unfold State.mapLoop
    extract_lets promoted
    have hp : Moves o promoted := ite h.promote h
    clear_value promoted
    split
    · exact hp
    · exact ite hp (ite (ih (((hp.aside.setReg _ _).installMap _ _).bump _ _)) (hp.aside.setReg _ _).stale)

theorem mapTick (h : Moves o s) : Moves o s.mapTick := h.mapLoop _

theorem cancelChange (h : Moves o s) : Moves o s.cancelChange := (h.aside.setReg _ _).bump _ _

theorem issueChange (h : Moves o s) (c) : Moves o (s.issueChange c) := (h.aside.setReg _ _).sendAll _ _ _ _ _

theorem writeChange (h : Moves o s) (c) : Moves o (s.writeChange c) := by
  unfold State.writeChange
  exact ite ((((h.setBlob _ _).setReg _ _).setReg _ _).bump _ _) (((h.setBlob _ _).setReg _ _).issueChange _)

theorem execMapChange (c) : ResMoves s (Machine.execMapChange c s) := .live ((refl _).writeChange _)

theorem ackChange (h : Moves o s) (src epoch) : Moves o (s.ackChange src epoch) := by
  unfold State.ackChange
  exact ite h (h.send _ _ _ _)

theorem takeChange (h : Moves o s) (src c) : Moves o (s.takeChange src c) := by
  unfold State.takeChange
  refine ite ?_ (ite (h.ackChange _ _) (ite h.stale ?_))
  · split
    · exact ite h.cancelChange h
    · exact h
  · extract_lets mine others cancelled yielded
    have hy : Moves o yielded := by
      unfold yielded
      split
      · exact ite (ite (h.cancelChange.sendAll _ _ _ _ _) h.cancelChange) h
      · exact h
    clear_value yielded
    refine ite ((ite hy hy.aside).ackChange _ _) (ite (hy.ackChange _ _) (ite ?_ ?_))
    · exact (hy.aside.bump _ _).send _ _ _ _
    · exact (hy.aside.setReg _ _).ackChange _ _

theorem execMapChangeReceive (src c) : ResMoves s (Machine.execMapChangeReceive src c s) := .live ((refl _).takeChange _ _)

theorem execFullMapFetchDone (src c) : ResMoves s (Machine.execFullMapFetchDone src c s) := .live (ite (((refl _).aside).installMap _ _) (refl _))

theorem execMapAck (src epoch) : ResMoves s (Machine.execMapAck src epoch s) := by
  unfold Machine.execMapAck
  refine .live ?_
  split
  · exact ite ((refl _).aside) (refl _)
  · exact refl _

theorem execMapAckTimeout : ResMoves s (Machine.execMapAckTimeout s) := by
  unfold Machine.execMapAckTimeout
  refine .live ?_
  split
  · exact ite (((refl _).cancelChange).sendAll _ _ _ _ _) (refl _)
  · exact refl _

theorem execMapFetchRequest (src) : ResMoves s (Machine.execMapFetchRequest src s) :=
  .live (ite (refl _) (foldl _ ((refl _).send _ _ _ _) fun _ _ h => h.send _ _ _ _))

theorem again (h : Moves o s) (x) : Moves o (s.again x) := by
  unfold State.again
  exact ite (h.bumpIf _ _) ((h.bumpIf _ _).aside)

theorem dropSent (h : Moves o s) (dst cls seq) : Moves o (s.dropSent dst cls seq) := h.aside

theorem copyMoved (h : Moves o s) (m dst) : Moves o (s.copyMoved m dst) := by
  unfold State.copyMoved
  split
  · exact h.aside
  · exact h

theorem takeOwn (h : Moves o s) {m u} (e : s.takeOwn m = some u) : Moves o u := by
  unfold State.takeOwn at e
  split at e
  · cases e; exact (h.bump _ _).acceptDispatch _
  · cases e; exact h.sequence _
  · cases e; exact h.receiveBuild _
  · obtain ⟨x, -, rfl⟩ := Option.map_eq_some_iff.1 e; exact h.takeRecord _ _ _ _
  · cases e; exact h.takeSummary _
  · cases e

theorem resendTo (h : Moves o s) (x dst) : Moves o (s.resendTo x dst) := by
  unfold State.resendTo
  extract_lets seq moved
  have hm : Moves o moved := (h.dropSent _ _ _).copyMoved _ _
  clear_value moved
  split
  · rename_i e
    split at e
    · exact hm.takeOwn e
    · cases e
  · exact (hm.sendAt _ _ _ _ _ _).aside

theorem failDest (h : Moves o s) (n) : Moves o (s.failDest n) := by
  unfold State.failDest
  refine .foldl _ h fun _ _ h => ?_
  split
  · exact h
  · split
    · exact ite (h.dropSent _ _ _) (h.resendTo _ _)
    · exact h.dropSent _ _ _

theorem bounceOut (h : Moves o s) (p' reason) : Moves o (s.bounceOut p' reason) := (h.bump _ _).send _ _ _ _

theorem deliver (h : Moves o s) (p' name) : Moves o (s.deliver p' name) := by
  unfold State.deliver
  dsimp only
  split
  · exact h.bounceOut _ _
  · split
    · exact h.aside
    · split
      · exact h
      · exact ite (h.bump _ _) h.aside

theorem deliverHeld (h : Moves o s) (src cls n) : Moves o (Machine.deliverHeld src cls n s) := by
  induction n generalizing s with
  | zero => exact h
  | succ n ih =>
    unfold Machine.deliverHeld
    extract_lets next
    split
    · exact h
    · exact ih (h.aside.deliver _ _)

theorem takeAck (h : Moves o s) (src cls ack) : Moves o (s.takeAck src cls ack) := h.aside.sentOut _

theorem oweAck (h : Moves o s) (src cls) : Moves o (s.oweAck src cls) := h.aside

theorem receive (h : Moves o s) (p' name) : Moves o (s.receive p' name) := by
  unfold State.receive
  extract_lets acked owed top mine src taken
  have ha : Moves o acked := h.takeAck _ _ _
  have ho : Moves o owed := ha.oweAck _ _
  exact ite ha (ite (ho.bump _ _) (ite ((ho.aside.deliver _ _).deliverHeld _ _ _) (ite ho.aside ho)))

theorem forward (h : Moves o s) (p') : Moves o (s.forward p') := by
  unfold State.forward
  exact ite (h.bump _ _) (ite (h.bump _ _) h.aside)

theorem execPacket (p' name) : ResMoves s (Machine.execPacket p' name s) := .live (ite ((refl _).receive _ _) ((refl _).forward _))

theorem execAckDelay (src cls) : ResMoves s (Machine.execAckDelay src cls s) := .live (ite (((refl _).aside).bumpIf _ _) (refl _))

theorem opDone (h : Moves o s) (op status data) : Moves o (s.opDone op status data) := h.aside

theorem closeOp (h : Moves o s) (o' status data) : Moves o (s.closeOp o' status data) := ((h.dropSent _ _ _).aside).opDone _ _ _

theorem opUnreachable (h : Moves o s) (o') : Moves o (s.opUnreachable o') := ((h.closeOp _ _ _).bump _ _).raiseFault _ _ _ _ _

theorem opDead (h : Moves o s) (o') : Moves o (s.opDead o') := ((h.closeOp _ _ _).bump _ _).raiseFault _ _ _ _ _

theorem execMemoryOpIssue (work engine role op) : ResMoves s (Machine.execMemoryOpIssue work engine role op s) :=
  .live (ite (refl _) (ite (((((refl _).bump _ _).bumpIf _ _).bump _ _).opDone _ _ _) (ite (((refl _).bump _ _).opUnreachable _) ((((refl _).bump _ _).sendAt _ _ _ _ _ _).aside))))

theorem opArrive (h : Moves o s) (op bad badAgain) : Moves o (s.opArrive op bad badAgain) := by
  unfold State.opArrive
  exact ite h (ite ((h.bump _ _).memAnswer _ _ _) (h.memArrive _ _ _))

theorem execLoad (op bad badAgain) : ResMoves s (Machine.execLoad op bad badAgain s) := .live (ite ((refl _).opArrive _ _ _) (refl _))

theorem execStore (op) : ResMoves s (Machine.execStore op s) := .live (ite ((refl _).opArrive _ _ _) (refl _))

theorem execFetchAdd (op) : ResMoves s (Machine.execFetchAdd op s) := .live (ite ((refl _).opArrive _ _ _) (refl _))

theorem execCompareSwap (op) : ResMoves s (Machine.execCompareSwap op s) := .live (ite ((refl _).opArrive _ _ _) (refl _))

theorem execAtomicMin (op) : ResMoves s (Machine.execAtomicMin op s) := .live (ite ((refl _).opArrive _ _ _) (refl _))

theorem execAtomicMax (op) : ResMoves s (Machine.execAtomicMax op s) := .live (ite ((refl _).opArrive _ _ _) (refl _))

theorem takeResponse (h : Moves o s) (src tag status data mine) : Moves o (s.takeResponse src tag status data mine) := by
  unfold State.takeResponse
  split
  · exact h.closeOp _ _ _
  · exact h.bump _ _

theorem execLoadResponse (src tag status data) : ResMoves s (Machine.execLoadResponse src tag status data s) :=
  .live ((refl _).takeResponse _ _ _ _ _)

theorem execStoreDone (src tag status) : ResMoves s (Machine.execStoreDone src tag status s) := .live ((refl _).takeResponse _ _ _ _ _)

theorem execAtomicResponse (src tag status data) : ResMoves s (Machine.execAtomicResponse src tag status data s) :=
  .live ((refl _).takeResponse _ _ _ _ _)

theorem execDeadTarget (dst tag) : ResMoves s (Machine.execDeadTarget dst tag s) := by
  unfold Machine.execDeadTarget
  refine .live ?_
  split
  · exact (refl _).opDead _
  · exact refl _

theorem execResend (dst cls seq) : ResMoves s (Machine.execResend dst cls seq s) := by
  unfold Machine.execResend
  refine .live ?_
  split
  · exact refl _
  · split
    · exact ite ((refl _).opUnreachable _) (((refl _).bump _ _).again _)
    · exact (((refl _).aside).bump _ _).again _

theorem reroute (h : Moves o s) (x) : Moves o (s.reroute x) := (h.resendTo _ _).bump _ _

theorem afterTick (h : Moves o s) (x) : Moves o (s.afterTick x) := h.aside

theorem execBounce (b) : ResMoves s (Machine.execBounce b s) := by
  unfold Machine.execBounce
  refine .live ?_
  split
  · exact refl _
  · dsimp only
    split
    · split
      · exact (((refl _).aside).bump _ _).opDead _
      · exact ((((refl _).aside).bump _ _).raiseFault _ _ _ _ _).afterTick _
    · exact ite (((refl _).aside).afterTick _) (ite ((((refl _).aside).resendTo _ _).bump _ _) (((refl _).aside).reroute _))

theorem netTick (h : Moves o s) : Moves o s.netTick := by
  unfold State.netTick
  refine .foldl _ h.aside fun _ _ h => ?_
  split
  · exact h
  · exact ite ((h.reroute _).afterTick _) ((h.bump _ _).again _)

theorem execBehindHoldExpiry (src cls seq) : ResMoves s (Machine.execBehindHoldExpiry src cls seq s) := by
  unfold Machine.execBehindHoldExpiry
  refine .live ?_
  split
  · exact refl _
  · exact (((refl _).aside).bump _ _).bounceOut _ _

/-! ### The functions of Machine/Fault -/

theorem fatal (h : Moves o s) (cause) : Moves o (s.fatal cause) := by
  unfold State.fatal
  extract_lets rank counted answered active errs shown told src failed
  refine ite (h.bump _ _) ?_
  have ha : Moves o answered := .foldl _ (h.bump _ _) fun _ _ h => h.hostAnswer _ _ _ _ _
  clear_value answered
  have ht : Moves o told := .foldl _ (ite ha (ha.bump _ _)) fun _ _ h => h.hostFlits _ _
  exact ((ht.aside.setReg _ _).setReg _ _).mgmtCopy _

theorem execFatalFault (cause) : ResMoves s (Machine.execFatalFault cause s) := .always (ite ((refl _).fatal _) (refl _))

theorem setCase (h : Moves o s) (c) : Moves o (s.setCase c) := h.aside

theorem caseRegs (h : Moves o s) : Moves o s.caseRegs := h.setReg _ _

theorem beWitness (h : Moves o s) (m) : Moves o (s.beWitness m) := by
  unfold State.beWitness
  exact ite h h.aside

theorem openCase (h : Moves o s) (c) : Moves o (s.openCase c) := by
  unfold State.openCase
  exact ite (((h.bump _ _).setCase _).caseRegs) ((ite (((((h.bump _ _).setCase _).sendFault _ _).mgmtCopy _).beWitness _) ((((h.bump _ _).setCase _).sendFault _ _).mgmtCopy _)).caseRegs)

theorem execCaseOpen (case) : ResMoves s (Machine.execCaseOpen case s) := by
  unfold Machine.execCaseOpen
  refine .live ?_
  split
  · exact (refl _).openCase _
  · exact refl _

theorem execBackupTakeover (case) : ResMoves s (Machine.execBackupTakeover case s) := by
  unfold Machine.execBackupTakeover
  refine .live ?_
  split
  · exact ((refl _).openCase _).bumpIf _ _
  · exact refl _

theorem note (h : Moves o s) (m) : Moves o (s.note m) := h.aside

theorem onReport (h : Moves o s) (f) : Moves o (s.onReport f) := by
  unfold State.onReport
  exact ite ((h.note _).takeReport _) h

theorem execFaultReport (f) : ResMoves s (Machine.execFaultReport f s) := .live ((refl _).onReport _)

theorem onProbeRequest (h : Moves o s) (f) : Moves o (s.onProbeRequest f) := by
  unfold State.onProbeRequest
  exact ite ((h.note _).beWitness _) h

theorem execProbeRequest (f) : ResMoves s (Machine.execProbeRequest f s) := .live ((refl _).onProbeRequest _)

theorem execWitnessProbe (case) : ResMoves s (Machine.execWitnessProbe case s) := by
  unfold Machine.execWitnessProbe
  refine .live ?_
  split
  · exact (refl _).sendFault _ _
  · exact refl _

theorem onProbe (h : Moves o s) (f mgmt) : Moves o (s.onProbe f mgmt) := by
  unfold State.onProbe
  exact ite h (ite (h.mgmtCopy _) (h.sendFault _ _))

theorem execProbe (f) : ResMoves s (Machine.execProbe f s) := .live ((refl _).onProbe _ _)

theorem onAnswer (h : Moves o s) (f mgmt) : Moves o (s.onAnswer f mgmt) := by
  unfold State.onAnswer
  split
  · exact h
  · split
    · split
      · exact h.setCase _
      · exact h
    · split
      · exact h.setCase _
      · exact h

theorem execProbeAnswer (f) : ResMoves s (Machine.execProbeAnswer f s) := .live ((refl _).onAnswer _ _)

theorem onVote (h : Moves o s) (f) : Moves o (s.onVote f) := by
  unfold State.onVote
  split
  · exact h
  · split
    · exact h.setCase _
    · exact h

theorem execVote (f) : ResMoves s (Machine.execVote f s) := .live ((refl _).onVote _)

theorem votesTickAll (h : Moves o s) : Moves o s.votesTickAll := foldl _ h fun _ _ h => (h.aside.sendFault _ _).onVote _

theorem execVotesDue (case) : ResMoves s (Machine.execVotesDue case s) := by
  unfold Machine.execVotesDue
  refine .live ?_
  split
  · exact (refl _).setCase _
  · exact refl _

theorem faultChange (h : Moves o s) (es eff) : Moves o (s.faultChange es eff).1 := by
  unfold State.faultChange
  split
  · exact h
  · dsimp only
    exact (h.sendAll _ _ _ _ _).takeChange _ _

theorem decideAll (h : Moves o s) (d) : Moves o (s.decideAll d) := by
  unfold State.decideAll
  extract_lets due
  generalize hr : List.foldl _ (s, []) due = r
  have hf : Moves o r.1 := by
    rw [← hr]
    exact foldl_fst _ h fun _ _ h => h.aside
  clear hr
  obtain ⟨filed, vs⟩ := r
  refine .caseRegs (.foldl _ ?_ fun _ _ h => ((((h.setCase _).sendFault _ _).bump _ _).bumpIf _ _).aside)
  exact ((hf.faultChange _ _).bump _ _).aside

theorem execDecide (case) : ResMoves s (Machine.execDecide case s) := by
  unfold Machine.execDecide
  refine .live ?_
  split
  · exact (refl _).decideAll _
  · exact refl _

theorem onDecision (h : Moves o s) (f c) : Moves o (s.onDecision f c) := by
  unfold State.onDecision
  split
  · exact h
  · dsimp only
    split
    · exact (h.note _).fatal _
    · split
      · exact (h.note _).stale
      · refine .caseRegs ?_
        refine .sendFault ?_ _ _
        split
        · exact ((h.note _).aside).takeChange _ _
        · exact (h.note _).aside

theorem execDecision (f c) : ResMoves s (Machine.execDecision f c s) := .live ((refl _).onDecision _ _)

theorem onDecisionAck (h : Moves o s) (f) : Moves o (s.onDecisionAck f) := by
  unfold State.onDecisionAck
  split
  · exact h
  · split
    · exact h.setCase _
    · exact h

theorem execDecisionAck (f) : ResMoves s (Machine.execDecisionAck f s) := .live ((refl _).onDecisionAck _)

theorem execManagementCopy (f mac) : ResMoves s (Machine.execManagementCopy f mac s) := by
  unfold Machine.execManagementCopy
  refine .live ?_
  extract_lets ok good
  clear_value good
  refine ite ((refl _).bump _ _) (ite (refl _) ?_)
  split
  · exact (refl _).onReport _
  · exact (refl _).onProbeRequest _
  · exact (refl _).onProbe _ _
  · exact (refl _).onAnswer _ _
  · exact (refl _).onVote _
  · exact (refl _).onDecision _ _
  · exact (refl _).onDecisionAck _
  · exact refl _

theorem execScoreWindow : ResMoves s (Machine.execScoreWindow s) := by
  unfold Machine.execScoreWindow
  obtain ⟨parts, hp⟩ : ∃ l, l = scoredParts := ⟨_, rfl⟩
  rw [← hp]
  refine .live (ite (refl _) ?_)
  extract_lets events src begun
  have hb : Moves s begun := (refl s).aside
  generalize hd : List.foldl _ (begun, 0, 0) parts = r
  replace hd : Moves s r.1 := by
    rw [← hd]
    refine foldl_fst _ hb fun _ _ h => ?_
    split
    · exact h
    · exact ite_fst h (h.setReg _ _)
  obtain ⟨decayed, top, watch⟩ := r
  exact ite ((hd.setReg _ _).bump _ _) (((hd.setReg _ _).bump _ _).aside.raiseFault _ _ _ _ _)

theorem raiseDrain (h : Moves o s) (tray) : Moves o (s.raiseDrain tray) := h.raiseFault _ _ _ _ _

theorem execDrainRequest (tray) : ResMoves s (Machine.execDrainRequest tray s) := .live (((refl _).setReg _ _).raiseDrain _)

theorem releaseNode (h : Moves o s) (n) : Moves o (s.releaseNode n) := h.aside

theorem fence (h : Moves o s) (partKind partNo) : Moves o (s.fence partKind partNo) := by
  unfold State.fence
  exact ite ((h.setSpState _ _).bump _ _) (ite (ite ((((h.setPort _ _).setPortState _ _).bump _ _).linkLost _) (((h.setPort _ _).setPortState _ _).bump _ _)) h)

theorem faultApply (h : Moves o s) : Moves o s.faultApply.1 := by
  unfold State.faultApply
  refine .foldl_fst _ ?_ fun _ _ h => ?_
  · dsimp only
    exact foldl _ h.aside fun _ _ h => h.stale
  · dsimp only
    split
    · dsimp only
      exact ite (h.fence _ _) h
    · dsimp only
      exact h.aside
    · dsimp only
      exact ((h.aside.bump _ _).setReference _).releaseNode _
    · exact h

theorem missedAcks (h : Moves o s) : Moves o s.missedAcks := foldl _ h.aside fun _ _ h => h.raiseFault _ _ _ _ _

theorem setTag (h : Moves o s) (kind t obj owner) : Moves o (s.setTag kind t obj owner) := h.aside

theorem moveService (h : Moves o s) (old x) : Moves o (s.moveService old x) := by
  unfold State.moveService
  extract_lets t i last mine top
  split
  · extract_lets was tagged other both q q' indexed news
    have ht : Moves o tagged := ite h (h.setTag _ _ _ _)
    clear_value tagged
    refine ite ?_ (ite (ht.sendAll _ _ _ _ _) ht)
    have hi : Moves o indexed := ht.setIdx _
    clear_value indexed other
    split
    · exact hi.sendRole _ _ _ _
    · refine .foldl _ hi fun _ _ h => ?_
      split
      · exact h.sealIndex _ _ _
      · exact h
  · exact h

theorem moveFlash (h : Moves o s) (old x) : Moves o (s.moveFlash old x) := by
  unfold State.moveFlash
  refine .foldl _ h fun _ _ h => ?_
  split
  · exact ite (h.sendRole _ _ _ _) h
  · exact h

theorem moveMirror (h : Moves o s) (old x) : Moves o (s.moveMirror old x) := by
  unfold State.moveMirror
  refine .foldl _ h fun _ _ h => ?_
  split
  · exact ite (h.sendRole _ _ _ _) h
  · exact h

theorem buildsLose (h : Moves o s) (old failed) : Moves o (s.buildsLose old failed) := by
  unfold State.buildsLose
  refine .foldl _ h fun _ _ h => ?_
  dsimp only
  split
  · exact ite (h.failBuild _ _ _) h
  · exact h

theorem startRespare (h : Moves o s) (r) : Moves o (s.startRespare r) := by
  unfold State.startRespare
  split
  · exact h
  · split
    · split
      · exact h
      · exact ((h.aside.bump _ _).sendRole _ _ _ _).sendRole _ _ _ _
    · split
      · dsimp only
        split
        · exact ite ((h.setIdx _).sendRole _ _ _ _) (h.setIdx _)
        · exact h.setIdx _
      · exact h

theorem respareRegs (h : Moves o s) : Moves o s.respareRegs := h.setReg _ _

theorem rolesMoved (h : Moves o s) (old failed trays) : Moves o (s.rolesMoved old failed trays) := by
  unfold State.rolesMoved
  dsimp only
  split
  · exact foldl _ h fun _ _ h => h.failDest _
  · refine .respareRegs ?_
    refine .foldl _ ?_ fun _ _ h => ?_
    · refine .buildsLose ?_ _ _
      refine .foldl _ (foldl _ ((foldl _ h fun _ _ h => h.failDest _).aside) fun _ _ h => h.startRespare _) fun _ _ h => ?_
      split
      · exact h
      · exact ((h.setReg _ _).moveService _ _).moveFlash _ _
    · refine .moveMirror ?_ _ _
      split
      · exact ite h (h.setTag _ _ _ _)
      · exact h

theorem drainedTick (h : Moves o s) : Moves o s.drainedTick := by
  unfold State.drainedTick
  exact foldl _ h fun _ _ h => ite (ite h ((((h.faultChange _ _).setReg _ _).bump _ _).aside)) h

theorem respareTick (h : Moves o s) : Moves o s.respareTick := by
  unfold State.respareTick
  refine .foldl _ h fun _ _ h => ?_
  split
  · exact h
  · exact ite h (h.aside.sendFault _ _)

theorem execRespareImageDone (tenant index shard) : ResMoves s (Machine.execRespareImageDone tenant index shard s) := by
  unfold Machine.execRespareImageDone
  refine .live ?_
  split
  · exact refl _
  · exact ite (refl _) ((refl _).aside)

theorem execRestoreReady (f tenant index shard) : ResMoves s (Machine.execRestoreReady f tenant index shard s) := by
  unfold Machine.execRestoreReady
  refine .live ?_
  split
  · exact refl _
  · dsimp only
    split
    · exact (refl _).note _
    · exact ite ((refl _).note _) ((((refl _).note _).faultChange _ _).bumpIf _ _)

theorem execRestoreFromFlash (tenant index shard im) : ResMoves s (Machine.execRestoreFromFlash tenant index shard im s) := by
  unfold Machine.execRestoreFromFlash
  refine .live ?_
  dsimp only
  split
  · exact refl _
  · split
    · exact ite ((refl _).shardLost _ _ _) (((((((refl _).setReg _ _).setReg _ _).stageImage _ _).aside).bump _ _).sendAll _ _ _ _ _)
    · exact (refl _).shardLost _ _ _
    · exact refl _

theorem execOwnershipQuery (req) : ResMoves s (Machine.execOwnershipQuery req s) := by
  unfold Machine.execOwnershipQuery
  refine .live ?_
  split
  · exact refl _
  · split
    · exact refl _
    · exact ite (refl _) ((((refl _).aside).bump _ _).sendFault _ _)

theorem execOwnershipQueryReceive (f kind tenant object name) : ResMoves s (Machine.execOwnershipQueryReceive f kind tenant object name s) :=
  .live (ite (refl _) ((refl _).sendFault _ _))

theorem replay (h : Moves o s) (l) : Moves o (s.replay l) := by
  unfold State.replay
  extract_lets src asked kind t moved
  have hm : Moves o moved := (h.aside.bump _ _).copyMoved _ _
  clear_value moved
  split
  · rename_i e
    split at e
    · exact hm.takeOwn e
    · cases e
  · exact hm.sendRole _ _ _ _

theorem ownedBy (h : Moves o s) (l n) : Moves o (s.ownedBy l n) := (h.copyMoved _ _).aside

theorem execOwnershipAnswer (req src tag) : ResMoves s (Machine.execOwnershipAnswer req src tag s) := by
  unfold Machine.execOwnershipAnswer
  refine .live ?_
  split
  · exact refl _
  · split
    · exact refl _
    · dsimp only
      split
      · exact (refl _).aside
      · split
        · exact ((refl _).aside).replay _
        · exact ((refl _).aside).ownedBy _ _
        · exact ite (((refl _).aside).ownedBy _ _) (ite (((refl _).aside).ownedBy _ _) (((((refl _).aside).ownedBy _ _).bump _ _).raiseFault _ _ _ _ _))

/-! ### The functions of Machine/Flash -/

theorem setFblock (h : Moves o s) (b) : Moves o (s.setFblock b) := h.aside

theorem flashRegs (h : Moves o s) : Moves o s.flashRegs :=
  foldl _ (((((((h.setReg _ _).setReg _ _).setReg _ _).setReg _ _).setReg _ _).setReg _ _).setReg _ _) fun _ _ h => h.setReg _ _

theorem openBlock (h : Moves o s) {slc worn u} (e : s.openBlock slc worn = some u) : Moves o u.1 := by
  unfold State.openBlock at e
  simp only [Option.ite_none_left_eq_some] at e
  obtain ⟨-, e⟩ := e
  split at e
  · cases e
  · cases e; exact (h.setFblock _).aside

theorem journal (h : Moves o s) (rs) : Moves o (s.journal rs) := foldl _ h fun _ _ h => h.aside

theorem startPage (h : Moves o s) : Moves o s.startPage := by
  unfold State.startPage
  exact ite h h.aside

theorem cachePage (h : Moves o s) (p') : Moves o (s.cachePage p') := by
  unfold State.cachePage
  dsimp only
  split
  · exact h.aside
  · exact ite h.aside (h.aside.aside.hostAsk _ _ _)

theorem touchPage (h : Moves o s) (p') : Moves o (s.touchPage p') := h.aside.cachePage _

theorem applyRec (h : Moves o s) (r) : Moves o (s.applyRec r) := by
  unfold State.applyRec
  split
  · exact h.aside.touchPage _
  · exact foldl _ h fun _ _ h => h.aside.touchPage _
  · exact h.aside
  · exact h

theorem startErases (h : Moves o s) : Moves o s.startErases := by
  unfold State.startErases
  exact ite h (foldl _ h fun _ _ h => h.setFblock _)

theorem execJournalPageProgrammed : ResMoves s (Machine.execJournalPageProgrammed s) := by
  unfold Machine.execJournalPageProgrammed
  refine .live ?_
  split
  · exact refl _
  · exact ((((((foldl _ ((refl _).aside) fun _ _ h => h.applyRec _).bump _ _).setReg _ _).aside).startErases).startPage).flashRegs

theorem takeDiscards (h : Moves o s) : Moves o s.takeDiscards := by
  unfold State.takeDiscards
  exact ite h (((h.aside.journal _).bump _ _).startPage)

theorem issueWaiting (h : Moves o s) : Moves o s.issueWaiting := h.aside

theorem openWindow (h : Moves o s) (w) : Moves o (s.openWindow w) := by
  unfold State.openWindow
  refine ite h ?_
  extract_lets shown src opened started cleared
  have hs : Moves o started := ite (h.setReg _ _).aside.issueWaiting.takeDiscards.startErases (h.setReg _ _).aside
  have hc : Moves o cleared := ite (.foldl _ hs fun _ _ h => h.setReg _ _) hs
  exact (ite hc.writeImages hc).flashRegs

theorem execWindowOpen (w) : ResMoves s (Machine.execWindowOpen w s) := .live (ite ((refl _).openWindow _) (refl _))

theorem execHousekeepingLimit (w) : ResMoves s (Machine.execHousekeepingLimit w s) := by
  unfold Machine.execHousekeepingLimit
  refine .live ?_
  split
  · exact ite ((refl _).aside) (refl _)
  · exact refl _

theorem programPage (h : Moves o s) {slc worn why src xs u} (e : s.programPage slc worn why src xs = some u) : Moves o u := by
  unfold State.programPage at e
  split at e
  · cases e
  · rename_i opened
    cases e
    split at opened
    · exact ((h.openBlock opened).setFblock _).aside
    split at opened
    · cases opened; exact (h.setFblock _).aside
    · exact ((h.openBlock opened).setFblock _).aside

theorem program (h : Moves o s) (native worn why src xs) : Moves o (s.program native worn why src xs) := by
  unfold State.program
  refine .foldl _ h fun _ _ h => ?_
  dsimp only
  split
  · rename_i e; exact h.programPage e
  · exact h

theorem execFlashWrite (tenant block data windows) : ResMoves s (Machine.execFlashWrite tenant block data windows s) := by
  unfold Machine.execFlashWrite
  refine .live (ite ((refl _).refuseWrite _) (ite ((refl _).refuseWrite _) (ite ((refl _).refuseWrite _) (ite ?_ (ite (refl _) ?_)))))
  · exact (((refl _).refuseWrite _).setReg _ _).bump _ _
  · exact ((((refl _).journal _).bump _ _).program _ _ _ _ _).startPage.flashRegs

theorem programOk (h : Moves o s) (p') : Moves o (s.programOk p') := ((h.aside.bump _ _).journal _).startPage

theorem retire (h : Moves o s) (a1 cause) : Moves o (s.retire a1 cause) := (((h.setFblock _).journal _).bump _ _).startPage

theorem programBad (h : Moves o s) (p) : Moves o (s.programBad p) := by
  unfold State.programBad
  extract_lets src dropped retired
  have hr : Moves o retired := (h.aside.bump _ _).retire _ _
  clear_value retired
  split
  · rename_i e; exact hr.programPage e
  · exact hr

theorem execPageProgramDone (id ok) : ResMoves s (Machine.execPageProgramDone id ok s) := by
  unfold Machine.execPageProgramDone
  refine .live ?_
  split
  · exact refl _
  · exact (ite (((refl _).programOk _).bump _ _) ((refl _).programBad _)).flashRegs

theorem queueErase (h : Moves o s) (a1) : Moves o (s.queueErase a1) := by
  unfold State.queueErase
  exact ite h h.aside.startErases

theorem execCopyProgramDone (id ok) : ResMoves s (Machine.execCopyProgramDone id ok s) := by
  unfold Machine.execCopyProgramDone
  refine .live ?_
  split
  · exact refl _
  · split
    · exact ((refl _).programBad _).flashRegs
    · refine .flashRegs ?_
      split
      · exact (ite (((refl _).programOk _).bump _ _) ((refl _).programOk _)).queueErase _
      · exact ite (((refl _).programOk _).bump _ _) ((refl _).programOk _)

theorem execEraseDone (block ok) : ResMoves s (Machine.execEraseDone block ok s) := by
  unfold Machine.execEraseDone
  refine .live ?_
  extract_lets b src taken n counted freed limit
  have ht : Moves s taken := (refl _).aside
  clear_value taken
  have hf : Moves s freed := ((ht.bump _ _).journal _).setFblock _
  clear_value freed
  exact ite (refl _) (ite ((ht.bump _ _).retire _ _).flashRegs (ite (hf.retire _ _) hf.startPage).flashRegs)

theorem mapFromFlash (h : Moves o s) (p') : Moves o (s.mapFromFlash p') := (h.aside.bump _ _).cachePage _

theorem lookPage (h : Moves o s) (p') : Moves o (s.lookPage p').1 := by
  unfold State.lookPage
  split
  · dsimp only
    exact h.cachePage _
  · split
    · exact h
    · dsimp only
      split
      · dsimp only
        exact (h.bump _ _).mapFromFlash _
      · dsimp only
        exact ((h.bump _ _).aside).hostAsk _ _ _

theorem execFlashRead (tenant block retries soft ok tagOk ns suspended latency) :
    ResMoves s (Machine.execFlashRead tenant block retries soft ok tagOk ns suspended latency s) := by
  unfold Machine.execFlashRead
  refine .live (ite (refl _) ?_)
  have hl := (refl s).lookPage (mapPage block)
  generalize State.lookPage _ _ = r at hl ⊢
  obtain ⟨looked, found⟩ := r
  have hc {a b c d e f g i} : Moves s ((((looked.bump a b).bump c d).bumpIf e f).bumpIf g i) := (((hl.bump _ _).bump _ _).bumpIf _ _).bumpIf _ _
  refine ite hl (ite (ite (hc.bumpIf _ _) (hc.serveNow _ _)) ?_)
  exact ((((((ite (hc.bumpIf _ _) (hc.serveNow _ _)).bump _ _).score _ _ _).bumpIf _ _).bumpIf _ _).bumpIf _ _).setFblock _

theorem execColdMapRecord (page recPage version tagOk entries) : ResMoves s (Machine.execColdMapRecord page recPage version tagOk entries s) :=
  .live (ite (refl _) (ite ((refl _).mapFromFlash _) (ite ((((refl _).bump _ _).score _ _ _).mapFromFlash _) ((((refl _).aside).bump _ _).cachePage _))))

theorem execColdMapTimeout (page) : ResMoves s (Machine.execColdMapTimeout page s) := .live (ite (((refl _).bump _ _).mapFromFlash _) (refl _))

theorem execDisturbScan (block used ladder) : ResMoves s (Machine.execDisturbScan block used ladder s) :=
  .live (ite (refl _) (((refl _).bump _ _).setFblock _))

theorem copyBlock (h : Moves o s) (a1 why native worn) : Moves o (s.copyBlock a1 why native worn) := by
  unfold State.copyBlock
  exact (ite ((((h.journal _).program _ _ _ _ _).startPage).queueErase _) (((h.journal _).program _ _ _ _ _).startPage)).flashRegs

theorem execRefresh (block) : ResMoves s (Machine.execRefresh block s) :=
  .live (ite (refl _) (((((refl _).openWindow _).bump _ _).setFblock _).copyBlock _ _ _ _))

theorem execSlcFlush : ResMoves s (Machine.execSlcFlush s) := by
  unfold Machine.execSlcFlush
  refine .live ?_
  split
  · exact refl _
  · split
    · exact ((refl _).bump _ _).copyBlock _ _ _ _
    · exact refl _

theorem execReclaim : ResMoves s (Machine.execReclaim s) := by
  unfold Machine.execReclaim
  refine .live ?_
  split
  · exact (refl _).aside
  · split
    · exact (((refl _).aside).bump _ _).copyBlock _ _ _ _
    · exact refl _

theorem execWearLevelling : ResMoves s (Machine.execWearLevelling s) := by
  unfold Machine.execWearLevelling
  refine .live ?_
  split
  · exact refl _
  · split
    · exact (((refl _).aside).bump _ _).copyBlock _ _ _ _
    · exact refl _

theorem execWindowClose (w) : ResMoves s (Machine.execWindowClose w s) := .live (ite (((refl _).setReg _ _).aside) (refl _))

theorem discardBlocks (h : Moves o s) (block n) : Moves o (s.discardBlocks block n) := by
  unfold State.discardBlocks
  exact ite h (ite h.aside.takeDiscards.flashRegs (ite h.aside h.aside.flashRegs))

theorem execDiscard (tenant addr len) : ResMoves s (Machine.execDiscard tenant addr len s) :=
  .live (ite ((refl _).bump _ _) (ite ((refl _).discardBlocks _ _) (refl _)))

theorem discardRegion (h : Moves o s) (t) : Moves o (s.discardRegion t) := h.discardBlocks _ _

theorem execDirectoryCheckpoint : ResMoves s (Machine.execDirectoryCheckpoint s) :=
  .live (ite (refl _) (((((foldl _ (refl _) fun _ _ h => h.draw.journal _).aside).journal _).startPage).wantAdvance _ _))

theorem eraseAtRecovery (h : Moves o s) (b) : Moves o (s.eraseAtRecovery b) := (((h.bump _ _).journal _).setFblock _).aside

theorem execPowerLossRecovery (lostPages) : ResMoves s (Machine.execPowerLossRecovery lostPages s) := by
  unfold Machine.execPowerLossRecovery
  refine .live (ite (refl _) ?_)
  refine .flashRegs (.startPage (.bump (.foldl _ (.setReg (.foldl _ (.aside (ite (refl _) (refl _).aside)) ?_) _ _) ?_) _ _))
  · exact fun _ _ h => h.applyRec _
  · exact fun _ _ h => ite h (ite ((h.eraseAtRecovery _).bump _ _) (ite h ((h.eraseAtRecovery _).bump _ _)))

theorem flashPowerFail (h : Moves o s) : Moves o s.flashPowerFail := by
  unfold State.flashPowerFail
  exact (foldl _ (h.setReg _ _) fun _ _ h => ite h.draw.aside h.draw).aside

/-! ### The functions of Machine/Power -/

theorem warmBase (h : Moves o s) : Moves o s.warmBase := h.trans (.empty rfl rfl)

/-! ### The functions of Machine/Flash -/

theorem execFlashChannelRetrain (ch) : ResMoves s (Machine.execFlashChannelRetrain ch s) := .live (ite ((refl _).aside) (refl _))

/-! ### The functions of Machine/Sched -/

theorem tagRing (h : Moves o s) (r c) : Moves o (s.tagRing r c) := by
  unfold State.tagRing
  dsimp only
  split
  · exact ite (ite h ((h.setWq _).bumpIf _ _)) (h.setWq _)
  · exact ite h (h.setWq _)

theorem admitKind (h : Moves o s) (t x qidx) : Moves o (s.admitKind t x qidx) := by
  unfold State.admitKind
  split
  · exact h.admitQuery _ _ _
  · exact h.admitUpdate _ _
  · exact h.admitIndex _ _
  · exact h.admitBuild _ _
  · exact h.admitFilter _ _
  · exact h.admitModel _ _
  · exact h.admitDense _ _
  · exact h.admitTable _ _
  · exact h.admitStage _ _
  · exact h.admitSwitch _ _
  · exact h.admitGather _ _
  · exact h.admitScatter _ _
  · exact h.admitPlacement _ _

theorem admitLoop (h : Moves o s) (a0 a d0 n c) : Moves o (Machine.admitLoop a0 a d0 n c s).1 := by
  induction n generalizing s c with
  | zero => exact h
  | succ n ih =>
    unfold Machine.admitLoop
    dsimp only
    split
    · exact .foldl _ h fun _ _ h => h.tagRing _ _
    · exact ih ((((((((((foldl _ h fun _ _ h => h.tagRing _ _).leave _ _).admitKind _ _ _).setReg _ _).setReg _ _).bump _ _).bumpIf _ _).setWq _).bucketTake
        _ _ _ _).bump _ _ |>.bump _ _) _

theorem admitTick (h : Moves o s) : Moves o s.admitTick := by
  unfold State.admitTick
  extract_lets filled a0 d a ready fuel
  have hr : Moves o ready := ((h.refill _).setReg _ _).setReg _ _
  clear_value ready
  refine .bump (.bump (.aside ?_) _ _) _ _
  exact ite_fst (hr.admitLoop _ _ _ _ _) hr

theorem sampleRing (h : Moves o s) (r) : Moves o (s.sampleRing r) := by
  unfold State.sampleRing
  refine .bumpIf ?_ _ _
  refine .setReg ?_ _ _
  split
  · exact ((((((h.setReg _ _).setReg _ _).setReg _ _).setReg _ _).setReg _ _).setReg _ _).bump _ _
  · exact ((((((h.setReg _ _).setReg _ _).setReg _ _).setReg _ _).setReg _ _).setReg _ _).bump _ _
  · exact ((((((h.setReg _ _).setReg _ _).setReg _ _).setReg _ _).setReg _ _).setReg _ _).bump _ _
  · exact ((((((h.setReg _ _).setReg _ _).setReg _ _).setReg _ _).setReg _ _).setReg _ _).bump _ _
  · exact (((((h.setReg _ _).setReg _ _).setReg _ _).setReg _ _).setReg _ _).setReg _ _

theorem sampleShared (h : Moves o s) : Moves o s.sampleShared := by
  unfold State.sampleShared
  exact foldl _ h.aside fun _ _ h => ite h (((h.setReg _ _).setReg _ _).setReg _ _)

theorem sampleTick (h : Moves o s) : Moves o s.sampleTick := (((foldl _ h fun _ _ h => h.sampleRing _).sampleShared).bump _ _).setReg _ _

theorem execClearPeaks (v) : ResMoves s (Machine.execClearPeaks v s) := .live (ite ((refl _).aside) (refl _))

/-! ### The functions of Machine/Host -/

theorem linkRegs (h : Moves o s) : Moves o s.linkRegs := ((h.setReg _ _).setReg _ _).setReg _ _

theorem execUcieModuleRetrain (m r) : ResMoves s (Machine.execUcieModuleRetrain m r s) := by
  unfold Machine.execUcieModuleRetrain
  refine .live (ite (refl _) ?_)
  extract_lets counted u fails set out shown scored
  have hs : Moves s shown := (((refl _).bump _ _).setUcie _ _).setReg _ _
  clear_value shown
  have hc : Moves s scored := ite ((hs.bump _ _).score _ _ _) hs
  exact (ite (hc.bump _ _) hc).linkRegs

theorem hostAck (h : Moves o s) (m expects) : Moves o (s.hostAck m expects) := by
  unfold State.hostAck
  exact ite ((h.setUcie _ _).aside) (h.setUcie _ _)

theorem execUcieFlit (m crcOk f) : ResMoves s (Machine.execUcieFlit m crcOk f s) := by
  unfold Machine.execUcieFlit
  have acked {n} : Moves s (s.hostAck m n) := (refl _).hostAck _ _
  refine .live (ite (refl _) (ite (ite acked (acked.bump _ _)) (ite (ite acked (refl _)) (ite ((acked.setUcie _ _).bump _ _) ?_))))
  exact ite (refl _) (ite (((((refl _).setUcie _ _).bump _ _).setReg _ _).linkRegs) (((refl _).setUcie _ _).bump _ _))

theorem linkTick (h : Moves o s) : Moves o s.linkTick := h.aside

theorem execHostRead (m addr len tag bad badAgain) : ResMoves s (Machine.execHostRead m addr len tag bad badAgain s) := by
  unfold Machine.execHostRead
  refine .live ?_
  split
  · exact refl _
  · split
    · exact (refl _).hostAnswer _ _ _ _ _
    · exact ite (((refl _).readLine _ _ _ _ _).hostAnswer _ _ _ _ _) (((refl _).readLine _ _ _ _ _).hostAnswer _ _ _ _ _)

theorem execHostWrite (m addr data tag) : ResMoves s (Machine.execHostWrite m addr data tag s) := by
  unfold Machine.execHostWrite
  refine .live ?_
  split
  · exact refl _
  · split
    · exact (refl _).hostAnswer _ _ _ _ _
    · exact ite (((refl _).aside).waitMove _) (((refl _).memWrite _ _ _).hostAnswer _ _ _ _ _)

theorem execHostMemoryCompletion (tag data) : ResMoves s (Machine.execHostMemoryCompletion tag data s) := .live ((refl _).aside)

theorem setRingArea (h : Moves o s) (t) {set} (hs : ∀ s, Moves o s → Moves o (set s)) : Moves o (s.setRingArea t set) := by
  unfold State.setRingArea
  extract_lets dropped placed need fits made cleared reset
  have hp : Moves o placed := hs _ (foldl _ h fun _ _ h => h.dropPage _)
  clear_value placed
  have hm : Moves o made := ite hp (ite ((hp.allocPages _ _ _).zeroPages _) (hp.bump _ _))
  clear_value made
  have hc : Moves o cleared := hm.asideClear
  clear_value cleared
  have hr : Moves o reset := (((hc.setReg _ _).setReg _ _).setReg _ _).setReg _ _
  clear_value reset
  exact (hr.setRing _).tierRegs _

theorem captureRing (h : Moves o s) (r) : Moves o (s.captureRing r) := by
  unfold State.captureRing
  exact ite h ((ite ((h.bumpIf _ _).bumpIf _ _) (((h.bumpIf _ _).bumpIf _ _).setReg _ _)).setRing _)

theorem captureRings (h : Moves o s) : Moves o s.captureRings := by
  unfold State.captureRings
  exact foldl _ (ite h (h.setRing _)) fun _ _ h => h.captureRing _

theorem publishRing (h : Moves o s) (r) : Moves o (s.publishRing r) := by
  unfold State.publishRing
  exact ite h ((ite (((h.bump _ _).bump _ _).memWrite _ _ _) ((((((h.bump _ _).bump _ _).memWrite _ _ _).setReg _ _).setReg _ _).setReg _ _)).setRing _)

theorem publishRings (h : Moves o s) : Moves o s.publishRings := foldl _ h fun _ _ h => h.publishRing _

/-! ### The functions of Machine/Security -/

theorem bootStop (h : Moves o s) (code) : Moves o (s.bootStop code) := by
  unfold State.bootStop
  exact foldl _ (((h.setReg _ _).setReg _ _).setReg _ _) fun _ _ h => ite ((h.setPort _ _).setPortState _ _) h

theorem execLinkSecuring (port x own) : ResMoves s (Machine.execLinkSecuring port x own s) :=
  .live (ite (refl _) (ite (((refl _).bump _ _).refusePort _ _ _ _) (ite (((((foldl _ (refl _) fun _ _ h => h.witnessed _).bump _ _).bump _ _).refusePort _ _ _ _).bootStop _) ((foldl _ (refl _) fun _ _ h => h.witnessed _).setPort _ _))))

theorem execRekey (port x r) : ResMoves s (Machine.execRekey port x r s) := .live (ite (refl _) (((refl _).setPort _ _).bump _ _))

theorem rekeyTick (h : Moves o s) : Moves o s.rekeyTick := h.aside

theorem execRekeyTimeout (port) : ResMoves s (Machine.execRekeyTimeout port s) := by
  unfold Machine.execRekeyTimeout
  refine .live ?_
  split
  · exact ite ((refl _).retrain _) (refl _)
  · exact refl _

theorem execFirmwareImagePiece (off data) : ResMoves s (Machine.execFirmwareImagePiece off data s) := .live ((refl _).aside)

theorem execFirmwareActivate (fail) : ResMoves s (Machine.execFirmwareActivate fail s) :=
  .live (ite ((refl _).setReg _ _) (((refl _).setReg _ _).aside))

theorem execQuoteRequest (slot nonce tenant) : ResMoves s (Machine.execQuoteRequest slot nonce tenant s) :=
  .live (ite (refl _) (((refl _).aside).setBlob _ _))

theorem execQuoteReady (slot) : ResMoves s (Machine.execQuoteReady slot s) := by
  unfold Machine.execQuoteReady
  refine .live ?_
  split
  · exact refl _
  · exact (((refl _).aside).setBlob _ _).bump _ _

theorem updTenant (h : Moves o s) (t f) : Moves o (s.updTenant t f) := h.aside

theorem setTstate (h : Moves o s) (t v) : Moves o (s.setTstate t v) := h.setReg _ _

theorem execTenantKeyRecord (r) : ResMoves s (Machine.execTenantKeyRecord r s) := by
  unfold Machine.execTenantKeyRecord
  refine .live ?_
  split
  · exact (refl _).bump _ _
  · exact ite (((((((refl _).aside).setTstate _ _).setReg _ _).bump _ _).updTenant _ _).configChange) (((((refl _).aside).setTstate _ _).setReg _ _).bump _ _)

theorem execOperatorKeyRecord (r signed) : ResMoves s (Machine.execOperatorKeyRecord r signed s) := by
  unfold Machine.execOperatorKeyRecord
  refine .live ?_
  split
  · exact (refl _).bump _ _
  · exact (((((refl _).aside).setReg _ _).wantAdvance _ _).configChange).bump _ _

theorem execDapKeyRecord (r) : ResMoves s (Machine.execDapKeyRecord r s) := by
  unfold Machine.execDapKeyRecord
  refine .live ?_
  split
  · exact (refl _).bump _ _
  · exact ((((refl _).aside).setReg _ _).configChange).bump _ _

theorem execTenantCreate (t) : ResMoves s (Machine.execTenantCreate t s) := .live (ite (refl _) ((((refl _).aside).setTstate _ _).configChange))

theorem execEnterService (t) : ResMoves s (Machine.execEnterService t s) := .live (ite ((refl _).setTstate _ _) (refl _))

theorem dropRegs (h : Moves o s) (p') : Moves o (s.dropRegs p') := h.aside

theorem dropApertures (h : Moves o s) (t) : Moves o (s.dropApertures t) := h.dropRegs _

theorem discardRing (h : Moves o s) (t) : Moves o (s.discardRing t) := by
  unfold State.discardRing
  split
  · exact h
  · exact h.setRing _

theorem startTeardown (h : Moves o s) (t) : Moves o (s.startTeardown t) :=
  ((((h.setTstate _ _).updTenant _ _).dropApertures _).discardRing _).bump _ _

theorem execTeardown (t) : ResMoves s (Machine.execTeardown t s) := .live (ite (refl _) (ite ((refl _).bump _ _) ((refl _).startTeardown _)))

theorem execForcedTeardown (t) : ResMoves s (Machine.execForcedTeardown t s) := .live (ite (refl _) ((refl _).startTeardown _))

theorem dropTenant (h : Moves o s) (t) : Moves o (s.dropTenant t) := (((foldl _ h fun _ _ h => h.dropPage _).aside).dropRegs _).tierRegs _

theorem dropKey (h : Moves o s) (t) : Moves o (s.dropKey t) := h.aside.setReg _ _

theorem dropRecord (h : Moves o s) (t) : Moves o (s.dropRecord t) := (h.aside.setTstate _ _).configChange

theorem execTenantRelease (t) : ResMoves s (Machine.execTenantRelease t s) :=
  .live (ite (refl _) (ite (((((refl _).dropKey _).dropTenant _).dropApertures _).dropRecord _) (ite ((refl _).updTenant _ _) (refl _))))

theorem execTeardownComplete (t) : ResMoves s (Machine.execTeardownComplete t s) :=
  .live (ite (refl _) (ite (((((refl _).dropKey _).discardRegion _).dropTenant _).dropRecord _) ((((((refl _).dropKey _).discardRegion _).dropTenant _).setTstate _ _).updTenant _ _)))

theorem execRaiseFloor (v) : ResMoves s (Machine.execRaiseFloor v s) := .live (ite ((refl _).wantAdvance _ _) (refl _))

theorem checkFails (h : Moves o s) (code) : Moves o (s.checkFails code) := ((h.setReg _ _).bump _ _).fatal _

theorem execRuntimeCheck (code failed) : ResMoves s (Machine.execRuntimeCheck code failed s) := .live (ite ((refl _).checkFails _) (refl _))

theorem execGlitchDetected : ResMoves s (Machine.execGlitchDetected s) := .live ((refl _).checkFails _)

/-! ### The functions of Machine/Power -/

theorem readTemps (h : Moves o s) (l) : Moves o (s.readTemps l) := by
  unfold State.readTemps
  refine .foldl _ h fun _ _ h => ?_
  split
  · exact h
  · split
    · exact (h.setRegI _ _ _).aside
    · exact h.aside

theorem execSensorSilent (sensor) : ResMoves s (Machine.execSensorSilent sensor s) :=
  .always (ite (refl _) (ite ((refl _).setRegI _ _ _) (refl _)))

theorem meterTick (h : Moves o s) (power ns) : Moves o (s.meterTick power ns) :=
  ((((h.aside.setReg _ _).setReg _ _).setReg _ _).setReg _ _).setReg _ _

theorem dutyTick (h : Moves o s) : Moves o s.dutyTick := (((h.bump _ _).bumpIf _ _).bumpIf _ _).setReg _ _

theorem execClearPeakPower (v) : ResMoves s (Machine.execClearPeakPower v s) := .live (ite ((refl _).setReg _ _) (refl _))

theorem execInputExcursion (mv) : ResMoves s (Machine.execInputExcursion mv s) := .live (ite (((refl _).setReg _ _).bump _ _) (refl _))

theorem latchStrap (h : Moves o s) (sets) : Moves o (s.latchStrap sets) := by
  unfold State.latchStrap
  split
  · exact (((h.setReg _ _).setReg _ _).setReg _ _).bumpIf _ _
  · exact ((h.setReg _ _).setReg _ _).bump _ _

theorem identify (h : Moves o s) (b slot) : Moves o (s.identify b slot) :=
  (foldl _ (((((((foldl _ (((h.setReg _ _).setReg _ _).setReg _ _) fun _ _ h => h.setBlob _ _).setBlob _ _).setBlob _ _).setBlob _ _).setBlob _ _).setBlob _ _).setBlob _ _) fun _ _ h => (h.setReg _ _).setReg _ _).setReg _ _

theorem putVal (h : Moves o s) (k v) : Moves o (s.putVal k v) := by
  unfold State.putVal
  split
  · exact h.setReg _ _
  · exact h.setBlob _ _

theorem applyStored (h : Moves o s) (cold) : Moves o (s.applyStored cold) := by
  unfold State.applyStored
  extract_lets strap ids stored named
  have hs : Moves o stored := .foldl _ h fun _ _ h => h.putVal _ _
  clear_value stored
  have hn : Moves o named := ite (hs.setReg _ _) hs
  exact ite h (ite hn (.foldl _ hn fun _ _ h => h.setReg _ _))

theorem trainBoard (h : Moves o s) (b) : Moves o (s.trainBoard b) := by
  unfold State.trainBoard
  exact ((((((foldl _ (foldl _ h fun _ _ h => ite (h.setReg _ _) (ite (((h.setReg _ _).bump _ _).score _ _ _) (h.setReg _ _))) fun _ _ h => ite (h.setReg _ _) h).aside).setReg _ _).setReg _ _).setReg _ _).setReg _ _).setReg _ _

theorem trainFlash (h : Moves o s) (b) : Moves o (s.trainFlash b) := by
  unfold State.trainFlash
  extract_lets ts
  clear_value ts
  split
  · exact foldl _ (h.setReg _ _) fun _ _ h => h.setReg _ _
  · refine .openWindow (.setReg (.setReg (.setReg (.setReg (.setReg (.setReg (.setReg (.setReg (.setReg (.setReg (.setReg (.setReg
      (.aside ?_) _ _) _ _) _ _) _ _) _ _) _ _) _ _) _ _) _ _) _ _) _ _) _ _) _
    refine .foldl _ (.foldl _ h fun _ _ h => (h.bump _ _).score _ _ _) fun _ _ h => ?_
    exact ite (h.setReg _ _) (ite ((h.setReg _ _).score _ _ _) (h.setReg _ _))

theorem trainHost (h : Moves o s) (b) : Moves o (s.trainHost b) := by
  unfold State.trainHost
  exact ite (((foldl _ h fun _ _ h => h.setReg _ _).aside).linkRegs) (((foldl _ (h.bump _ _) fun _ _ h => ite (h.setReg _ _) (((h.setReg _ _).bump _ _).score _ _ _)).setReg _ _).linkRegs)

theorem startPorts (h : Moves o s) : Moves o s.startPorts := by
  unfold State.startPorts
  exact foldl _ h fun _ _ h => (ite (h.setReg _ _) h).setPortState _ _

theorem testSpindles (h : Moves o s) : Moves o s.testSpindles := by
  unfold State.testSpindles
  exact ite (foldl _ h fun _ _ h => h.setReg _ _) h

theorem startFails (h : Moves o s) (st) : Moves o (s.startFails st) := (h.setReg _ _).setReg _ _

theorem start (h : Moves o s) (b cold code) : Moves o (s.start b cold code) := by
  unfold State.start
  extract_lets coded strapped powered st
  have hp : Moves o powered := (ite (((h.setReg _ _).latchStrap _).setBlob _ _) (h.setReg _ _)).setReg _ _
  clear_value powered
  refine ite (hp.startFails _) ?_
  split
  · exact hp.startFails _
  · refine ite ((hp.identify _ _).startFails _) (.aside (.liveRegs (.setReg (.setReg (.setReg (.startPorts (.trainHost ?_ _)) _ _) _ _) _ _)))
    exact ((((hp.identify _ _).applyStored _).trainBoard _).trainFlash _).testSpindles

theorem warmReach (h : Moves o s) (b code) : Moves o (s.warmReach b code) := by
  unfold State.warmReach
  exact (h.flashPowerFail.warmBase.bump _ _).start _ _ _

theorem ignored (h : Moves o s) : Moves o s.ignored := h.bump _ _

theorem holdUp (h : Moves o s) : Moves o s.holdUp := by
  unfold State.holdUp
  exact ite h ((h.flashPowerFail.setReg _ _).aside)

theorem execPowerFail : ResMoves s (Machine.execPowerFail s) := .always ((refl _).holdUp)

theorem execInputTrip (mv) : ResMoves s (Machine.execInputTrip mv s) := .always (ite (((refl _).setReg _ _).holdUp) (refl _))

theorem warmSource (h : Moves o s) (b code) : Moves o (s.warmSource b code) := by
  unfold State.warmSource
  exact ite h (ite h.ignored (ite (h.warmReach _ _) h))

theorem execModuleReset (b) : ResMoves s (Machine.execModuleReset b s) := .always ((refl _).warmSource _ _)

theorem execSidebandResetRequest (b) : ResMoves s (Machine.execSidebandResetRequest b s) := .always (ite ((refl _).warmSource _ _) (refl _))

theorem execWarmResetCommand (b) : ResMoves s (Machine.execWarmResetCommand b s) := .always ((refl _).warmSource _ _)

theorem execWatchdogExpiry : ResMoves s (Machine.execWatchdogExpiry s) := .always (ite (refl _) ((refl _).fatal _))

theorem execThermalTrip (sensor reading) : ResMoves s (Machine.execThermalTrip sensor reading s) :=
  .always (ite (refl _) (ite (((refl _).setRegI _ _ _).ignored) ((((refl _).setRegI _ _ _).fatal _).aside)))

theorem execThermalHoldExit : ResMoves s (Machine.execThermalHoldExit s) := .always (ite ((refl _).setReg _ _) (refl _))

theorem fatalReset (h : Moves o s) (b) : Moves o (s.fatalReset b) := (h.warmReach _ _).bump _ _

theorem execHostLinkResetRequest (b) : ResMoves s (Machine.execHostLinkResetRequest b s) := .always (ite ((refl _).fatalReset _) (refl _))

theorem execFatalResetTimeout (b) : ResMoves s (Machine.execFatalResetTimeout b s) := .always (ite ((refl _).fatalReset _) (refl _))

theorem setOut (h : Moves o s) (n v) : Moves o (s.setOut n v) := h.aside

theorem execSidebandTimer (t) : ResMoves s (Machine.execSidebandTimer t s) :=
  .live (ite ((ite ((ite ((refl _).setOut _ _) (refl _)).setOut _ _) (ite ((refl _).setOut _ _) (refl _))).setOut _ _) (ite ((ite ((refl _).setOut _ _) (refl _)).setOut _ _) (ite ((refl _).setOut _ _) (refl _))))

theorem pulseTick (h : Moves o s) : Moves o s.pulseTick := by
  unfold State.pulseTick
  exact ite (h.setOut _ _) h

theorem execLocate (v) : ResMoves s (Machine.execLocate v s) := .live (ite (((refl _).setReg _ _).setOut _ _) ((refl _).setReg _ _))

theorem execTrayUnseated : ResMoves s (Machine.execTrayUnseated s) := .live (ite ((refl _).raiseDrain _) (refl _))

theorem execBoardThermalAlert (asserted) : ResMoves s (Machine.execBoardThermalAlert asserted s) := .live (ite ((refl _).aside) (refl _))

theorem quiesce (h : Moves o s) (sub b) : Moves o (s.quiesce sub b) := by
  unfold State.quiesce
  exact ite (ite (((h.aside.setPort _ _).setPortState _ _).linkLost _) ((h.aside.setPort _ _).setPortState _ _)) (ite ((h.aside.setReg _ _).linkRegs) h.aside)

theorem execPerBlockReset (sub mask) : ResMoves s (Machine.execPerBlockReset sub mask s) :=
  .live (ite (refl _) (foldl _ ((refl _).setReg _ _) fun _ _ h => h.quiesce _ _))

theorem release (h : Moves o s) (sub b) : Moves o (s.release sub b) := by
  unfold State.release
  dsimp only
  split
  · split
    · exact (h.aside.setReg _ _).bump _ _
    · split
      · exact (h.aside.setReg _ _).bump _ _
      · exact (((((h.aside.setReg _ _).bump _ _).aside).bump _ _).placeDone _ _ _ _ _).mover
  · exact ((h.aside.setReg _ _).bump _ _).aside
  · exact (((h.aside.setReg _ _).bump _ _).bump _ _).setPortState _ _
  · exact (h.aside.setReg _ _).bump _ _

theorem blocksTick (h : Moves o s) : Moves o s.blocksTick := by
  unfold State.blocksTick
  exact foldl _ h fun _ _ h => ite (h.release _ _) h

theorem execMonitorSample (slack freq) : ResMoves s (Machine.execMonitorSample slack freq s) :=
  .live (foldl _ (foldl _ (foldl _ (refl _) fun _ _ h => h.setRegI _ _ _) fun _ _ h => h.setReg _ _) fun _ _ h => (h.setRegI _ _ _).setReg _ _)

theorem startReplan (h : Moves o s) : Moves o s.startReplan := by
  unfold State.startReplan
  exact ite h ((((h.setReg _ _).setReg _ _).bump _ _).aside)

theorem execReplan : ResMoves s (Machine.execReplan s) := .live (ite ((refl _).startReplan) (refl _))

theorem execReplanRequest (v) : ResMoves s (Machine.execReplanRequest v s) := .live (ite ((refl _).startReplan) (refl _))

theorem stepVolt (h : Moves o s) (d up) : Moves o (s.stepVolt d up) := (h.setReg _ _).bump _ _

theorem replanDomain (h : Moves o s) (x) : Moves o (s.replanDomain x).1 := by
  unfold State.replanDomain
  dsimp only
  split
  · split
    · split
      · dsimp only
        exact h.stepVolt _ _
      · exact h
    · split
      · dsimp only
        exact h.stepVolt _ _
      · exact h
  · split
    · dsimp only
      exact h.stepVolt _ _
    · exact h
  · split
    · dsimp only
      exact h.stepVolt _ _
    · split
      · dsimp only
        exact h.stepVolt _ _
      · exact h
  · exact h

theorem ageTick (h : Moves o s) (slack) : Moves o (s.ageTick slack) := by
  unfold State.ageTick
  dsimp only
  split
  · exact h.aside
  · split
    · refine .setReg ?_ _ _
      refine .aside ?_
      refine .foldl _ ?_ fun _ _ h => (h.setReg _ _).setReg _ _
      refine .aside ?_
      refine .foldl_fst _ ?_ fun _ _ h => h.replanDomain _
      dsimp only
      exact foldl _ h.aside fun _ _ h => h.setRegI _ _ _
    · refine .foldl _ ?_ fun _ _ h => (h.setReg _ _).setReg _ _
      refine .aside ?_
      refine .foldl_fst _ ?_ fun _ _ h => h.replanDomain _
      dsimp only
      exact foldl _ h.aside fun _ _ h => h.setRegI _ _ _

/-! ### The functions of Machine/Time -/

theorem capacities (h : Moves o s) (p') : Moves o (s.capacities p') := (((((h.setReg _ _).setReg _ _).setReg _ _).setReg _ _).setReg _ _).setReg _ _

theorem periodStart (h : Moves o s) (period switch) : Moves o (s.periodStart period switch) :=
  (((h.aside.setReg _ _).setReg _ _).setReg _ _).sendAll _ _ _ _ _

theorem periodWrite (h : Moves o s) (period switch) : Moves o (s.periodWrite period switch) := by
  unfold State.periodWrite
  exact ite (h.periodStart _ _) (h.bump _ _)

theorem execPeriodChange (period switch) : ResMoves s (Machine.execPeriodChange period switch s) := .live ((refl _).periodWrite _ _)

theorem execPeriodChangeReceive (src period switch) : ResMoves s (Machine.execPeriodChangeReceive src period switch s) := by
  unfold Machine.execPeriodChangeReceive
  refine .live ?_
  split
  · exact ite ((refl _).send _ _ _ _) (refl _)
  · exact ite ((refl _).stale) ((((((refl _).aside).setReg _ _).setReg _ _).setReg _ _).send _ _ _ _)

theorem execPeriodChangeAck (src) : ResMoves s (Machine.execPeriodChangeAck src s) := by
  unfold Machine.execPeriodChangeAck
  refine .live ?_
  split
  · exact ite ((refl _).aside) (refl _)
  · exact refl _

theorem periodCancel (h : Moves o s) : Moves o s.periodCancel := by
  unfold State.periodCancel
  exact ite h ((h.aside.setReg _ _).bump _ _)

theorem execPeriodChangeCancel : ResMoves s (Machine.execPeriodChangeCancel s) := .live ((refl _).periodCancel)

theorem periodMargin (h : Moves o s) : Moves o s.periodMargin := by
  unfold State.periodMargin
  split
  · exact ite ((h.sendAll _ _ _ _ _).periodCancel) h
  · exact h

theorem periodTick (h : Moves o s) : Moves o s.periodTick := by
  unfold State.periodTick
  split
  · exact ite h (ite ((((h.aside.setReg _ _).setReg _ _).bump _ _).capacities _) ((h.aside.setReg _ _).stale))
  · exact h

theorem acquire (h : Moves o s) : Moves o s.acquire := h.aside.setReg _ _

theorem phaseError (h : Moves o s) (err) : Moves o (s.phaseError err) := by
  unfold State.phaseError
  exact ite (((h.setRegI _ _ _).setReg _ _).outOfPhase) ((h.setRegI _ _ _).setReg _ _)

theorem joinOffset (h : Moves o s) (m) : Moves o (s.joinOffset m) := by
  unfold State.joinOffset
  exact ite h (h.aside.setRegI _ _ _)

theorem markerState (h : Moves o s) (m) : Moves o (s.markerState m) := by
  unfold State.markerState
  split
  · exact h.acquire.aside.joinOffset _
  · exact h.joinOffset _
  · exact ite (h.setReg _ _) h
  · exact h.acquire
  · exact h

theorem sendMarkers (h : Moves o s) : Moves o s.sendMarkers := h.aside

theorem execTickMarker (m) : ResMoves s (Machine.execTickMarker m s) := by
  unfold Machine.execTickMarker
  refine .live ?_
  split
  · exact refl _
  · dsimp only
    split
    · exact ((((refl _).aside).markerState _).aside).phaseError _
    · split
      · exact ((refl _).aside).markerState _
      · exact ite ((((refl _).aside).markerState _).aside) ((((((refl _).aside).markerState _).aside).aside).phaseError _)

theorem execMarkerLost : ResMoves s (Machine.execMarkerLost s) :=
  .live (ite ((((refl _).setReg _ _).setReg _ _).bump _ _) (ite ((refl _).outOfPhase) (refl _)))

theorem execAlignmentLock : ResMoves s (Machine.execAlignmentLock s) := by
  unfold Machine.execAlignmentLock
  refine .live ?_
  split
  · exact refl _
  · dsimp only
    split
    · exact (refl _).setReg _ _
    · split
      · exact (((refl _).setReg _ _).aside).send _ _ _ _
      · exact ((refl _).setReg _ _).aside

theorem execAcquireTimeout : ResMoves s (Machine.execAcquireTimeout s) := .live (ite ((refl _).outOfPhase) (refl _))

theorem execHoldoverTimeout (err) : ResMoves s (Machine.execHoldoverTimeout err s) := .live (ite ((refl _).outOfPhase) (refl _))

theorem execFreeRunTimeout : ResMoves s (Machine.execFreeRunTimeout s) := .live (ite (refl _) (ite (((refl _).aside).setReg _ _) (refl _)))

theorem execClearPeakPhase (v) : ResMoves s (Machine.execClearPeakPhase v s) := .live (ite ((refl _).setReg _ _) (refl _))

theorem alignTick (h : Moves o s) : Moves o s.alignTick := by
  unfold State.alignTick
  exact (ite (h.setReg _ _) h).aside

theorem slewTick (h : Moves o s) : Moves o s.slewTick := h.aside

theorem referenceTick (h : Moves o s) : Moves o s.referenceTick := h.setReference _

theorem execFrameOverrun (skein) : ResMoves s (Machine.execFrameOverrun skein s) :=
  .live (ite (refl _) ((((refl _).aside).bump _ _).raiseFault _ _ _ _ _))

/-! ### The functions of Machine/Dict -/

theorem clockRead (h : Moves o s) (i) : Moves o (s.clockRead i) := by
  unfold State.clockRead
  exact ite h (h.draw.setReg _ _)

theorem refusal (h : Moves o s) (st k) : Moves o (s.refusal st k) := ((((h.bumpIf _ _).bumpIf _ _).bumpIf _ _).bumpIf _ _).bumpIf _ _

theorem unstored (h : Moves o s) (k v) : Moves o (s.unstored k v) := (h.aside.setReg _ _).configChange

theorem saveNow (h : Moves o s) : Moves o s.saveNow := h.aside.configChange

theorem discardSaved (h : Moves o s) : Moves o s.discardSaved := h.aside.configChange

theorem execSaveSettings : ResMoves s (Machine.execSaveSettings s) := .live ((refl _).saveNow)

theorem execDiscardSettings : ResMoves s (Machine.execDiscardSettings s) := .live ((refl _).discardSaved)

theorem control (h : Moves o s) (t code) : Moves o (s.control t code) := by
  unfold State.control
  dsimp only
  split
  · exact (h.setReg _ _).runRes fun _ => execTenantCreate _
  · exact (h.setReg _ _).runRes fun _ => execEnterService _
  · exact (h.setReg _ _).runRes fun _ => execTeardown _
  · exact (h.setReg _ _).runRes fun _ => execForcedTeardown _
  · exact (h.setReg _ _).runRes fun _ => execTenantRelease _
  · exact h.setReg _ _

theorem perform (h : Moves o s) (k v signed) : Moves o (s.perform k v signed) := by
  unfold State.perform
  split
  · refine ite (h.writeChange _) (ite (h.runRes fun _ => execOperatorKeyRecord _ _) (ite (h.runRes fun _ => execDapKeyRecord _) (ite ?_ (ite ?_ (ite ?_ ?_)))))
    · exact h.runRes fun _ => execFirmwareImagePiece _ _
    · exact h.runRes fun _ => execQuoteRequest _ _ _
    · exact h.runRes fun _ => execTenantKeyRecord _
    · exact (h.setBlob _ _).unstored _ _
  · refine ite (ite h (ite (h.bump _ _) (h.periodStart _ _))) (ite (h.runRes fun _ => execClearPeakPhase _) (ite (h.setPortKind _ _) (ite (h.unstored _ _) ?_)))
    refine ite (h.runRes fun _ => execDrainRequest _) (ite (h.runRes fun _ => execClearPeaks _) (ite (h.setRingArea _ fun _ h => h.setReg _ _) ?_))
    refine ite (h.runRes fun _ => execRaiseFloor _) (ite (h.control _ _) (ite (ite h.saveNow h.discardSaved) (ite (h.runRes fun _ => execClearPeakPower _) ?_)))
    refine ite (h.runRes fun _ => execPerBlockReset _ _) (ite (h.runRes fun _ => execLocate _) (ite (h.runRes fun _ => execReplanRequest _) ?_))
    exact ite ((h.setReg _ _).unstored _ _) (h.setReg _ _)

theorem applyWrites (h : Moves o s) : Moves o s.applyWrites := foldl _ h.aside fun _ _ h => (h.perform _ _ _).bump _ _

theorem accepted (h : Moves o s) (k v signed) : Moves o (s.accepted k v signed).1 := by
  unfold State.accepted
  dsimp only
  split
  · dsimp only
    exact (h.bump _ _).perform _ _ _
  · dsimp only
    exact (h.bump _ _).aside

theorem plainWrite (h : Moves o s) (w) : Moves o (s.plainWrite w).1 := by
  unfold State.plainWrite
  split
  · dsimp only
    exact h.refusal _ _
  · exact h.accepted _ _ _

theorem signedCommand (h : Moves o s) (bytes) : Moves o (s.signedCommand bytes).1 := by
  unfold State.signedCommand
  dsimp only
  split
  · dsimp only
    exact h.bump _ _
  · split
    · dsimp only
      exact (h.setReg _ _).bump _ _
    · split
      · dsimp only
        exact (h.setReg _ _).refusal _ _
      · dsimp only
        exact foldl _ ((h.setReg _ _).bump _ _) fun _ _ h => h.accepted _ _ _

theorem execRegisterWrite (w signed) : ResMoves s (Machine.execRegisterWrite w signed s) := by
  unfold Machine.execRegisterWrite
  refine .live ?_
  split
  · split
    · exact (refl _).refusal _ _
    · exact (refl _).accepted _ _ _
  · exact (refl _).plainWrite _

theorem respond (h : Moves o s) (seq kind fail status detail tag len off inl) : Moves o (s.respond seq kind fail status detail tag len off inl) :=
  ((((h.leave _ _).store _ _ _).bump _ _).bumpIf _ _).setRing _

theorem mailboxGet (h : Moves o s) (seq tag e) : Moves o (s.mailboxGet seq tag e) := by
  unfold State.mailboxGet
  extract_lets len off start read
  have hr : Moves o read := h.clockRead _
  clear_value read
  split
  · exact (hr.refusal _ _).respond _ _ _ _ _ _ _ _ _
  · refine ite ((hr.refusal _ _).respond _ _ _ _ _ _ _ _ _) (ite ((hr.bump _ _).respond _ _ _ _ _ _ _ _ _) ?_)
    exact ite ((hr.bump _ _).respond _ _ _ _ _ _ _ _ _) (((hr.bump _ _).store _ _ _).respond _ _ _ _ _ _ _ _ _)

theorem mailboxTake (h : Moves o s) (seq bad badBuf) : Moves o (s.mailboxTake seq bad badBuf) := by
  unfold State.mailboxTake
  extract_lets ring link taken ring' looked e kind tag len off src held value first
  have hl : Moves o looked := ((h.aside.setRing _).bump _ _).bump _ _
  clear_value looked
  have hh : Moves o held := ite hl hl.aside
  clear_value held
  refine ite h (ite ((h.setRing _).bump _ _) ?_)
  split
  · exact (hl.bump _ _).respond _ _ _ _ _ _ _ _ _
  · refine ite ((hl.refusal _ _).respond _ _ _ _ _ _ _ _ _) ?_
    split
    · exact (hl.refusal _ _).respond _ _ _ _ _ _ _ _ _
    · refine ite (hh.mailboxGet _ _ _) (ite ((hh.plainWrite _).respond _ _ _ _ _ _ _ _ _) ?_)
      refine ite ((hh.bump _ _).respond _ _ _ _ _ _ _ _ _) ?_
      have hs := hh.signedCommand value
      generalize held.signedCommand value = r at hs ⊢
      obtain ⟨signed, st, d, i⟩ := r
      exact hs.respond _ _ _ _ _ _ _ _ _

theorem mailboxRow (h : Moves o s) (seq bad badBuf kind) : Moves o (s.mailboxRow seq bad badBuf kind) := by
  unfold State.mailboxRow
  exact ite (h.mailboxTake _ _ _) h

theorem execMailboxRead (seq bad) : ResMoves s (Machine.execMailboxRead seq bad s) := .live ((refl _).mailboxRow _ _ _ _)

theorem execMailboxWrite (seq bad badBuf) : ResMoves s (Machine.execMailboxWrite seq bad badBuf s) := .live ((refl _).mailboxRow _ _ _ _)

theorem execMailboxSignedCommand (seq bad badBuf) : ResMoves s (Machine.execMailboxSignedCommand seq bad badBuf s) :=
  .live ((refl _).mailboxRow _ _ _ _)

theorem mailboxTick (h : Moves o s) : Moves o s.mailboxTick := foldl _ h.aside fun _ _ h => h.mailboxTake _ _ _

theorem setDapClient (h : Moves o s) (c) : Moves o (s.setDapClient c) := h.aside

theorem dapSend (h : Moves o s) (port r) : Moves o (s.dapSend port r) := h.aside

theorem dapPerform (h : Moves o s) (d tagged) : Moves o (s.dapPerform d tagged).1 := by
  unfold State.dapPerform
  split
  · exact h
  · dsimp only
    split
    · dsimp only
      exact (h.clockRead _).refusal _ _
    · split
      · dsimp only
        exact (h.clockRead _).refusal _ _
      · dsimp only
        exact (h.clockRead _).bump _ _
  · dsimp only
    split
    · dsimp only
      exact (h.setDapClient _).refusal _ _
    · split
      · dsimp only
        exact h.setDapClient _
      · split
        · exact (h.setDapClient _).plainWrite _
        · exact (h.setDapClient _).signedCommand _

theorem dapIn (h : Moves o s) (d) : Moves o (s.dapIn d) := by
  unfold State.dapIn
  refine ite h ?_
  extract_lets seen auth stopped st c last counted src numbered
  have hs : Moves o seen := h.bump _ _
  clear_value seen
  refine ite (ite (hs.bump _ _) ((hs.refusal _ _).dapSend _ _)) (ite hs (ite ?_ (ite (ite ?_ ?_) (ite ?_ ?_))))
  · exact ((hs.refusal _ _).bumpIf _ _).dapSend _ _
  · exact (((hs.refusal _ _).bump _ _).bumpIf _ _).dapSend _ _
  · exact (((((hs.setReg _ _).aside).dapPerform _ _).setDapClient _).dapSend _ _).bumpIf _ _
  · split
    · exact ((hs.dapSend _ _).bump _ _).bumpIf _ _
    · exact hs.bump _ _
  · exact hs.bump _ _

theorem execDapRead (d) : ResMoves s (Machine.execDapRead d s) := .dapLive (ite ((refl _).dapIn _) (refl _))

theorem execDapWrite (d) : ResMoves s (Machine.execDapWrite d s) := .dapLive (ite ((refl _).dapIn _) (refl _))

theorem execDapSignedCommand (d) : ResMoves s (Machine.execDapSignedCommand d s) := .dapLive (ite ((refl _).dapIn _) (refl _))

theorem execDapHello (d) : ResMoves s (Machine.execDapHello d s) := .dapLive (ite ((refl _).dapIn _) (refl _))

/-! ### The functions of Machine/Tick -/

theorem clockTick (h : Moves o s) (ns) : Moves o (s.clockTick ns) := ((h.setReg _ _).setReg _ _).setReg _ _

theorem viewTick (h : Moves o s) : Moves o s.viewTick := h.aside

theorem edgeTick (h : Moves o s) (excess) : Moves o (s.edgeTick excess) := h.aside.bump _ _

theorem captureCommitted (h : Moves o s) : Moves o s.captureCommitted := h.aside

theorem step1 (h : Moves o s) (t) : Moves o (s.step1 t) := by
  unfold State.step1
  extract_lets clocked src guarded measured captured dict shown voted
  have hc : Moves o clocked := (h.viewTick.clockTick _).edgeTick _
  clear_value clocked
  have hm : Moves o measured := (((hc.aside.slewTick.readTemps _).meterTick _ _).dutyTick).ageTick _
  clear_value measured
  have hp : Moves o captured := ((hm.serveFrame.refill _).sampleTick.captureRings).captureCommitted
  clear_value captured
  have hv : Moves o voted := (hp.aside.setReg _ _).votesTickAll.stepsTick
  exact hv.linkTick.netTick.rekeyTick.mgmtTick.alignTick.sendMarkers

theorem homeLoses (h : Moves o s) (failed) : Moves o (s.homeLoses failed) := by
  unfold State.homeLoses
  exact foldl _ h fun _ _ h => ite h (ite (((h.setHome _).bumpIf _ _).decideStep _) (ite (foldl _ h fun _ _ h => h.excludeCand _ _ _) h))

theorem lentBack (h : Moves o s) : Moves o s.lentBack := by
  unfold State.lentBack
  exact foldl _ h.aside fun _ _ h => ite (h.setSpState _ _) h

theorem steps23 (h : Moves o s) : Moves o s.steps23 := by
  unfold State.steps23
  extract_lets old lent
  have ha := h.lentBack.faultApply
  generalize State.faultApply _ = r at ha ⊢
  obtain ⟨applied, failed, trays⟩ := r
  dsimp -zeta only at ha ⊢
  extract_lets moved keyed mapped changed
  have hm : Moves o moved := (ha.homeLoses _).referenceTick
  clear_value moved
  have hp : Moves o mapped := ((ite (hm.newMgmtKey _) hm).mapTick).rolesMoved _ _ _
  clear_value mapped
  exact (ite hp hp.roleChanged).missedAcks.drainedTick.caseRegs

theorem step5 (h : Moves o s) : Moves o s.step5 := by
  unfold State.step5
  refine .respareTick ?_
  refine .installSteps ?_
  refine .foldl _ h fun _ _ h => ?_
  split
  · exact ite (h.sealIndex _ _ _) h
  · exact h

theorem step6 (h : Moves o s) : Moves o s.step6 := by
  unfold State.step6
  refine .modelsTick ?_
  refine .tabsTick ?_
  refine .foldl _ ?_ fun _ _ h => ?_
  · refine .foldl _ h fun _ _ h => ?_
    split
    · split
      · exact ite (h.applyPublish _ _) (ite ((h.setIdx _).stale) h)
      · exact h
    · exact h
  · split
    · exact h.freeThatches _
    · exact h

theorem lendTick (h : Moves o s) : Moves o s.lendTick := by
  unfold State.lendTick
  refine .foldl _ ?_ fun _ _ h => ite (h.lend _ _) h
  refine .foldl _ h fun _ _ h => ?_
  split
  · exact ite (h.startBuild _) h
  · exact h

theorem step7 (h : Moves o s) : Moves o s.step7 := by
  unfold State.step7
  exact h.applyWrites.blocksTick.pulseTick.nameDense.nameGather.lendTick

theorem kindCheck (h : Moves o s) (t seq e) : Moves o (Machine.kindCheck t seq s e).1 := by
  unfold Machine.kindCheck
  split
  · exact h.checkQuery _ _
  · exact h.checkUpdate _ _
  · exact h.checkIndex _ _ _
  · exact h.checkBuild _ _ _
  · exact h.checkFilter _ _ _
  · exact h.checkModel _ _
  · exact h.checkDense _ _
  · exact h.checkTable _ _
  · exact h.checkStage _ _
  · exact h.checkSwitch _ _
  · exact h.checkGather _ _
  · exact h.checkScatter _ _
  · exact h.checkPlacement _ _

theorem checkRing (h : Moves o s) (t) : Moves o (s.checkRing t) := by
  unfold State.checkRing
  exact ite h (foldl _ h fun _ _ h => ite (h.checkEntry _ _ _ (fun _ _ h => h.kindCheck _ _ _)) h)

theorem step8 (h : Moves o s) : Moves o s.step8 := (foldl _ h.aside.mailboxTick fun _ _ h => h.checkRing _).publishRings

theorem forget (h : Moves o s) : Moves o s.forget := (foldl _ h fun _ _ h => h.dropHidden _ _).aside

theorem releaseRoles (h : Moves o s) : Moves o s.releaseRoles := by
  unfold State.releaseRoles
  exact ite h h.aside

theorem edge (h : Moves o s) (t) : Moves o (s.edge t) :=
  foldl _ (((((((((((((h.step1 _).steps23).periodMargin).periodTick).step5).step6).step7).step8).admitTick).jobsTick).gathersTick).releaseRoles).forget) fun _ _ h => h.schedule _

theorem execTick (t) : ResMoves s (Machine.execTick t s) := by
  unfold Machine.execTick
  refine .always ?_
  split
  · exact refl _
  · exact (refl _).clockTick _
  · exact (refl _).edge _
  · exact ((refl _).clockTick _).readTemps _

end Moves

/-- Every command but the three that take the power away moves the state: it only counts up, and memory stays canonical. -/
theorem exec_moves {i : Instr} (hc : ∀ b, i ≠ .coldStart b) (he : ∀ b, i ≠ .holdUpEnd b) (hp : ∀ b, i ≠ .powerCycleCommand b) (s : State) : ResMoves s (exec i s) := by
  cases i with
  | tick => exact Moves.execTick _
  | stageDeadline => exact Moves.execStageDeadline _ _ _
  | frameOverrun => exact Moves.execFrameOverrun _
  | periodChange => exact Moves.execPeriodChange _ _
  | periodChangeReceive => exact Moves.execPeriodChangeReceive _ _ _
  | periodChangeAck => exact Moves.execPeriodChangeAck _
  | periodChangeCancel => exact Moves.execPeriodChangeCancel
  | tickMarker => exact Moves.execTickMarker _
  | markerLost => exact Moves.execMarkerLost
  | alignmentLock => exact Moves.execAlignmentLock
  | acquireTimeout => exact Moves.execAcquireTimeout
  | holdoverTimeout => exact Moves.execHoldoverTimeout _
  | freeRunTimeout => exact Moves.execFreeRunTimeout
  | clearPeakPhase => exact Moves.execClearPeakPhase _
  | shingleArrival => exact Moves.execShingleArrival _ _ _
  | filterWordsArrival => exact Moves.execFilterWordsArrival _ _ _ _ _
  | scoreItem => exact Moves.execScoreItem _ _ _ _ _
  | accessComplete => exact Moves.execAccessComplete _ _ _ _ _
  | stealRequest => exact Moves.execStealRequest _ _
  | stealRechoose => exact Moves.execStealRechoose _ _
  | stealGrant => exact Moves.execStealGrant _
  | tableCopyDone => exact Moves.execTableCopyDone _
  | redealOnSlotFree => exact Moves.execRedealOnSlotFree
  | zeroingDone => exact Moves.execZeroingDone _
  | pageZeroingDone => exact Moves.execPageZeroingDone _ _
  | roleChangeZeroing => exact Moves.execRoleChangeZeroing _
  | digestCompare => exact Moves.execDigestCompare _
  | thirdDigestCompare => exact Moves.execThirdDigestCompare _ _
  | mismatchRefetchDone => exact Moves.execMismatchRefetchDone _ _ _ _
  | buildPassClose => exact Moves.execBuildPassClose _ _ _ _
  | passGatherTimeout => exact Moves.execPassGatherTimeout _ _ _ _
  | tableBuild => exact Moves.execTableBuild _
  | coarseScan => exact Moves.execCoarseScan _ _
  | rerankCandidate => exact Moves.execRerankCandidate _
  | rerankReadDone => exact Moves.execRerankReadDone _ _
  | rerankScoreReceive => exact Moves.execRerankScoreReceive _
  | query => exact Moves.execQuery _ _ _
  | vectorReadDone => exact Moves.execVectorReadDone _ _
  | dispatch => exact Moves.execDispatch _
  | residentFilterCopy => exact Moves.execResidentFilterCopy _ _ _ _ _ _
  | stepReport => exact Moves.execStepReport _
  | widenDecision => exact Moves.execWidenDecision _ _
  | stopDecision => exact Moves.execStopDecision _
  | rerankDispatch => exact Moves.execRerankDispatch _
  | resultDelivery => exact Moves.execResultDelivery _ _
  | hankArrival => exact Moves.execHankArrival _ _ _
  | diePly => exact Moves.execDiePly _ _ _
  | modulePly => exact Moves.execModulePly _ _ _
  | fabricPly => exact Moves.execFabricPly _ _
  | rerankedPly => exact Moves.execRerankedPly _ _
  | indexRegister => exact Moves.execIndexRegister _ _ _
  | indexDescriptor => exact Moves.execIndexDescriptor _ _
  | indexAck => exact Moves.execIndexAck _ _ _ _
  | updateInsert => exact Moves.execUpdateInsert _ _ _
  | updateDelete => exact Moves.execUpdateDelete _ _ _
  | updateVectorRead => exact Moves.execUpdateVectorRead _ _ _
  | sequencerUpdate => exact Moves.execSequencerUpdate _
  | deltaRecord src => exact Moves.execDeltaRecord src _
  | deltaCommit => exact Moves.execDeltaCommit _ _ _ _
  | sealRecord => exact Moves.execSealRecord _ _ _ _
  | logFetchDone => exact Moves.execLogFetchDone _ _ _ _
  | buildFold => exact Moves.execBuildFold _ _ _
  | buildRetrain => exact Moves.execBuildRetrain _ _ _
  | buildReceive => exact Moves.execBuildReceive _
  | imageBuildDone => exact Moves.execImageBuildDone _ _ _ _ _ _
  | imageReceive => exact Moves.execImageReceive _ _
  | allStaged => exact Moves.execAllStaged _ _
  | publishDecision => exact Moves.execPublishDecision _ _ _ _ _
  | publishAckTimeout => exact Moves.execPublishAckTimeout _ _
  | modelRegister => exact Moves.execModelRegister _ _ _
  | modelRelease => exact Moves.execModelRelease _ _ _
  | denseJob => exact Moves.execDenseJob _ _ _
  | stepDeal => exact Moves.execStepDeal _ _
  | conversionItem => exact Moves.execConversionItem _ _ _
  | tileItem => exact Moves.execTileItem _ _ _ _ _
  | elementItem => exact Moves.execElementItem _ _
  | layerStaged => exact Moves.execLayerStaged _ _ _
  | tableRegister => exact Moves.execTableRegister _ _ _
  | tableRelease => exact Moves.execTableRelease _ _ _
  | tableStage => exact Moves.execTableStage _ _ _
  | shardStageDone => exact Moves.execShardStageDone _ _ _
  | tableSwitch => exact Moves.execTableSwitch _ _ _
  | switchDecision => exact Moves.execSwitchDecision _ _ _ _ _
  | switchAckTimeout => exact Moves.execSwitchAckTimeout _ _
  | gather => exact Moves.execGather _ _ _
  | gatherItem => exact Moves.execGatherItem _ _
  | rowLineArrival => exact Moves.execRowLineArrival _ _ _ _ _ _ _
  | readSlotFree => exact Moves.execReadSlotFree _ _
  | rowRead => exact Moves.execRowRead _ _ _ _ _ _ _ _ _ _
  | scatter => exact Moves.execScatter _ _ _
  | scatterSend => exact Moves.execScatterSend _ _ _
  | contributionRecord => exact Moves.execContributionRecord _ _ _
  | scatterSummary => exact Moves.execScatterSummary _
  | stepClose => exact Moves.execStepClose _ _ _ _
  | stepWaitTimeout => exact Moves.execStepWaitTimeout _ _ _ _
  | closeStepMerge => exact Moves.execCloseStepMerge _ _ _ _ _ _ _
  | mirrorAck => exact Moves.execMirrorAck _ _ _ _
  | readyReceive => exact Moves.execReadyReceive _ _ _ _ _
  | stepSeal => exact Moves.execStepSeal _ _ _ _ _ _ _
  | overlayWriteback => exact Moves.execOverlayWriteback _ _ _
  | loadWindowEnd => exact Moves.execLoadWindowEnd
  | loadReport => exact Moves.execLoadReport _ _ _ _ _
  | migrationDecision => exact Moves.execMigrationDecision _
  | migrationHandoff => exact Moves.execMigrationHandoff _ _ _ _ _
  | forwardComplete => exact Moves.execForwardComplete _ _ _ _
  | replicaDrop => exact Moves.execReplicaDrop _ _ _ _
  | replicaDropAck => exact Moves.execReplicaDropAck _ _ _ _
  | regionAllocate => exact Moves.execRegionAllocate _ _ _
  | regionFree => exact Moves.execRegionFree _ _ _
  | regionMove => exact Moves.execRegionMove _ _ _
  | pageMove => exact Moves.execPageMove _ _ _ _
  | boardBlockWrite => exact Moves.execBoardBlockWrite _ _ _
  | boardPageRepack => exact Moves.execBoardPageRepack _ _
  | tierPartFail => exact Moves.execTierPartFail _ _
  | windowOpen => exact Moves.execWindowOpen _
  | windowClose => exact Moves.execWindowClose _
  | housekeepingLimit => exact Moves.execHousekeepingLimit _
  | flashWrite => exact Moves.execFlashWrite _ _ _ _
  | flashRead => exact Moves.execFlashRead _ _ _ _ _ _ _ _ _
  | coldMapRecord => exact Moves.execColdMapRecord _ _ _ _ _
  | coldMapTimeout => exact Moves.execColdMapTimeout _
  | disturbScan => exact Moves.execDisturbScan _ _ _
  | refresh => exact Moves.execRefresh _
  | slcFlush => exact Moves.execSlcFlush
  | reclaim => exact Moves.execReclaim
  | wearLevelling => exact Moves.execWearLevelling
  | copyProgramDone => exact Moves.execCopyProgramDone _ _
  | journalPageProgrammed => exact Moves.execJournalPageProgrammed
  | eraseDone => exact Moves.execEraseDone _ _
  | discard => exact Moves.execDiscard _ _ _
  | directoryCheckpoint => exact Moves.execDirectoryCheckpoint
  | powerLossRecovery => exact Moves.execPowerLossRecovery _
  | portKind => exact Moves.execPortKind _ _
  | pcsLock => exact Moves.execPcsLock _
  | trainingTimeout => exact Moves.execTrainingTimeout _
  | lockLoss => exact Moves.execLockLoss _
  | silenceTimeout => exact Moves.execSilenceTimeout _
  | linkSecuring => exact Moves.execLinkSecuring _ _ _
  | hello => exact Moves.execHello _ _
  | flit => exact Moves.execFlit _ _
  | retryRequest => exact Moves.execRetryRequest _ _
  | linkStateRecord => exact Moves.execLinkStateRecord _ _
  | linkStateRefresh => exact Moves.execLinkStateRefresh
  | linkStateExpiry => exact Moves.execLinkStateExpiry _
  | routeRecompute => exact Moves.execRouteRecompute
  | packet => exact Moves.execPacket _ _
  | ackDelay => exact Moves.execAckDelay _ _
  | resend => exact Moves.execResend _ _ _
  | memoryOpIssue => exact Moves.execMemoryOpIssue _ _ _ _
  | load => exact Moves.execLoad _ _ _
  | store => exact Moves.execStore _
  | fetchAdd => exact Moves.execFetchAdd _
  | compareSwap => exact Moves.execCompareSwap _
  | atomicMin => exact Moves.execAtomicMin _
  | atomicMax => exact Moves.execAtomicMax _
  | loadResponse => exact Moves.execLoadResponse _ _ _ _
  | storeDone => exact Moves.execStoreDone _ _ _
  | atomicResponse => exact Moves.execAtomicResponse _ _ _ _
  | deadTarget => exact Moves.execDeadTarget _ _
  | bounce => exact Moves.execBounce _
  | behindHoldExpiry => exact Moves.execBehindHoldExpiry _ _ _
  | mapChange => exact Moves.execMapChange _
  | mapChangeReceive => exact Moves.execMapChangeReceive _ _
  | fullMapFetchDone => exact Moves.execFullMapFetchDone _ _
  | mapAck => exact Moves.execMapAck _ _
  | mapAckTimeout => exact Moves.execMapAckTimeout
  | faultReport => exact Moves.execFaultReport _
  | caseOpen => exact Moves.execCaseOpen _
  | probeRequest => exact Moves.execProbeRequest _
  | witnessProbe => exact Moves.execWitnessProbe _
  | probe => exact Moves.execProbe _
  | probeAnswer => exact Moves.execProbeAnswer _
  | vote => exact Moves.execVote _
  | votesDue => exact Moves.execVotesDue _
  | decide => exact Moves.execDecide _
  | decision => exact Moves.execDecision _ _
  | decisionAck => exact Moves.execDecisionAck _
  | backupTakeover => exact Moves.execBackupTakeover _
  | managementCopy => exact Moves.execManagementCopy _ _
  | scoreWindow => exact Moves.execScoreWindow
  | drainRequest => exact Moves.execDrainRequest _
  | respareImageDone => exact Moves.execRespareImageDone _ _ _
  | restoreReady => exact Moves.execRestoreReady _ _ _ _
  | restoreFromFlash => exact Moves.execRestoreFromFlash _ _ _ _
  | ownershipQuery => exact Moves.execOwnershipQuery _
  | ownershipQueryReceive => exact Moves.execOwnershipQueryReceive _ _ _ _ _
  | ownershipAnswer => exact Moves.execOwnershipAnswer _ _ _
  | fatalFault => exact Moves.execFatalFault _
  | clearPeaks => exact Moves.execClearPeaks _
  | ucieModuleRetrain => exact Moves.execUcieModuleRetrain _ _
  | ucieFlit => exact Moves.execUcieFlit _ _ _
  | hostRead => exact Moves.execHostRead _ _ _ _ _ _
  | hostWrite => exact Moves.execHostWrite _ _ _ _
  | hostMemoryCompletion => exact Moves.execHostMemoryCompletion _ _
  | hostLinkResetRequest => exact Moves.execHostLinkResetRequest _
  | filterRegister => exact Moves.execFilterRegister _ _ _
  | filterReplace => exact Moves.execFilterReplace _ _ _
  | filterRelease => exact Moves.execFilterRelease _ _ _
  | mailboxRead => exact Moves.execMailboxRead _ _
  | mailboxWrite => exact Moves.execMailboxWrite _ _ _
  | mailboxSignedCommand => exact Moves.execMailboxSignedCommand _ _ _
  | registerWrite => exact Moves.execRegisterWrite _ _
  | saveSettings => exact Moves.execSaveSettings
  | discardSettings => exact Moves.execDiscardSettings
  | dapRead => exact Moves.execDapRead _
  | dapWrite => exact Moves.execDapWrite _
  | dapSignedCommand => exact Moves.execDapSignedCommand _
  | dapHello => exact Moves.execDapHello _
  | firmwareImagePiece => exact Moves.execFirmwareImagePiece _ _
  | firmwareActivate => exact Moves.execFirmwareActivate _
  | quoteRequest => exact Moves.execQuoteRequest _ _ _
  | quoteReady => exact Moves.execQuoteReady _
  | operatorKeyRecord => exact Moves.execOperatorKeyRecord _ _
  | dapKeyRecord => exact Moves.execDapKeyRecord _
  | tenantKeyRecord => exact Moves.execTenantKeyRecord _
  | tenantCreate => exact Moves.execTenantCreate _
  | enterService => exact Moves.execEnterService _
  | teardown => exact Moves.execTeardown _
  | forcedTeardown => exact Moves.execForcedTeardown _
  | tenantRelease => exact Moves.execTenantRelease _
  | teardownComplete => exact Moves.execTeardownComplete _
  | rekey => exact Moves.execRekey _ _ _
  | rekeyTimeout => exact Moves.execRekeyTimeout _
  | managementKey => exact Moves.execManagementKey _ _ _
  | counterAdvance => exact Moves.execCounterAdvance _ _
  | witnessRequest => exact Moves.execWitnessRequest _ _ _
  | witnessAck => exact Moves.execWitnessAck _ _
  | raiseFloor => exact Moves.execRaiseFloor _
  | runtimeCheck => exact Moves.execRuntimeCheck _ _
  | glitchDetected => exact Moves.execGlitchDetected
  | coldStart b => exact absurd rfl (hc b)
  | inputTrip => exact Moves.execInputTrip _
  | inputExcursion => exact Moves.execInputExcursion _
  | powerFail => exact Moves.execPowerFail
  | holdUpEnd b => exact absurd rfl (he b)
  | moduleReset => exact Moves.execModuleReset _
  | sidebandResetRequest => exact Moves.execSidebandResetRequest _
  | warmResetCommand => exact Moves.execWarmResetCommand _
  | powerCycleCommand b => exact absurd rfl (hp b)
  | watchdogExpiry => exact Moves.execWatchdogExpiry
  | thermalTrip => exact Moves.execThermalTrip _ _
  | thermalHoldExit => exact Moves.execThermalHoldExit
  | fatalResetTimeout => exact Moves.execFatalResetTimeout _
  | trayUnseated => exact Moves.execTrayUnseated
  | boardThermalAlert => exact Moves.execBoardThermalAlert _
  | sidebandTimer => exact Moves.execSidebandTimer _
  | locate => exact Moves.execLocate _
  | perBlockReset => exact Moves.execPerBlockReset _ _
  | monitorSample => exact Moves.execMonitorSample _ _
  | replan => exact Moves.execReplan
  | replanRequest => exact Moves.execReplanRequest _
  | clearPeakPower => exact Moves.execClearPeakPower _
  | sensorSilent => exact Moves.execSensorSilent _
  | publishAck => exact Moves.execPublishAck _ _ _ _ _
  | switchAck => exact Moves.execSwitchAck _ _ _
  | mirrorImages => exact Moves.execMirrorImages _ _ _ _ _ _
  | warmCopy => exact Moves.execWarmCopy _ _ _
  | hankResendRequest _ _ _ pass => exact Moves.execHankResendRequest _ _ _ pass
  | imageResendRequest => exact Moves.execImageResendRequest _ _ _ _
  | logFetchRequest => exact Moves.execLogFetchRequest _ _ _ _ _
  | mapFetchRequest => exact Moves.execMapFetchRequest _
  | replicaReceive => exact Moves.execReplicaReceive _ _ _ _ _ _
  | pageProgramDone => exact Moves.execPageProgramDone _ _
  | flashChannelRetrain => exact Moves.execFlashChannelRetrain _

/-- Settles O5: every other command is made of moves, and no move cuts a counter back. -/
theorem countersOnlyGrow : Obligations.CountersOnlyGrow := by
  unfold Obligations.CountersOnlyGrow
  intro i s t hc he hp h
  exact (exec_moves hc he hp s t h).countsGrow

end Sys2Proof.Machine
end

section
/-! PROOF. The ridge tick (O6). -/

namespace Sys2Proof.Machine

/-- A row gives the queue of the state before back (entry 1), which no frame loses by. -/
theorem keepsBut.withQueue {ps : List Part} {s t : State} (h : keepsBut ps s t) : keepsBut ps s { t with pending := s.pending } := fun p hp => by
  have := h p hp
  cases p <;> first | exact rfl | exact this

/-- A fold keeps a register that each of its steps keeps. -/
theorem reg_foldl {α : Type} {k : Key} {f : State → α → State} (l : List α) (s : State) (h : ∀ s a, (f s a).reg k = s.reg k) :
    (l.foldl f s).reg k = s.reg k := by
  induction l generalizing s with
  | nil => rfl
  | cons a l ih => exact (ih _).trans (h s a)

/-! ### What a tick does in each power state (R22, R45, R515; entry 26) -/

theorem exec_tick_running {s : State} (x : TickIn) (h : s.power = 2) : exec (.tick x) s = .next { s.edge x with pending := s.pending } := by
  change always s (fun s => _) = _
  rw [always_next, h]
  rfl

theorem exec_tick_holdUp {s : State} (x : TickIn) (h : s.power = 5) : exec (.tick x) s = .next { s.clockTick x.ns with pending := s.pending } := by
  change always s (fun s => _) = _
  rw [always_next, h]
  rfl

theorem exec_tick_off {s : State} (x : TickIn) (h : s.power = 0) : exec (.tick x) s = .next s := by
  change always s (fun s => _) = _
  rw [always_next, h]
  rfl

theorem exec_tick_other {s : State} (x : TickIn) (h0 : s.power ≠ 0) (h2 : s.power ≠ 2) (h5 : s.power ≠ 5) :
    exec (.tick x) s = .next { (s.clockTick x.ns).readTemps x.temps with pending := s.pending } := by
  change always s (fun s => _) = _
  rw [always_next]
  split <;> first | contradiction | rfl

/-! ### The clock and the temperatures -/

@[simp] theorem clockTick_frame (s : State) (ns : Nat) : keepsBut [.regs] s (s.clockTick ns) :=
  ((setReg_frame s 0x201001 _).trans (setReg_frame _ 0x201004 _)).trans (setReg_frame _ 0x201002 _)

@[simp] theorem clockTick_now (s : State) (ns : Nat) : (s.clockTick ns).reg 0x201002 = s.now + 1 := State.reg_setReg_same _ _ _

@[simp] theorem clockTick_ns (s : State) (ns : Nat) : (s.clockTick ns).reg 0x201001 = max s.ns (s.reg 0x201004 + ns) := by
  unfold State.clockTick
  simp [State.reg_setReg]

theorem clockTick_regs (s : State) (ns : Nat) : regsBut [0x201001, 0x201002, 0x201004] s (s.clockTick ns) := by
  intro k hk
  unfold State.clockTick
  simp_all [State.reg_setReg]

/-- Reading the temperatures keeps every register below those of the readings. -/
theorem readTemps_frame (s : State) (l : List (Nat × Option Int)) : keepsBut [.regs, .pwr] s (s.readTemps l) := by
  refine keepsBut_foldl l s fun s x => ?_
  dsimp only
  split
  · simp
  · split
    · exact (setRegI_frame s 32 _ _).trans' (with_pwr_frame _ _) (by simp) (by simp)
    · exact (with_pwr_frame s _).mono (by simp)

theorem readTemps_reg (s : State) (l : List (Nat × Option Int)) {k : Nat} (hk : k ≤ 0xD40000) : (s.readTemps l).reg k = s.reg k := by
  refine reg_foldl l s fun s x => ?_
  split
  · rfl
  · rename_i hx
    split
    · exact State.reg_setReg_ne _ _ fun (e : (k : Nat) = 0xD40000 + x.1) => by simp at hx; omega
    · rfl

/-- Settles O6: in each power state the row is the effect that the statement writes out. -/
theorem tickRunsTheEdgeSteps : Obligations.TickRunsTheEdgeSteps := by
  unfold Obligations.TickRunsTheEdgeSteps
  refine ⟨fun s x h => ⟨_, exec_tick_running x h, rfl⟩, fun s x h0 h2 h5 => ⟨_, exec_tick_other x h0 h2 h5, ?_, ?_, ?_⟩,
    fun s x h => ⟨_, exec_tick_holdUp x h, ?_, ?_, ?_, ?_⟩, fun s x h => exec_tick_off x h⟩
  · exact (readTemps_reg _ _ (by decide)).trans (clockTick_now s x.ns)
  · exact (readTemps_reg _ _ (by decide)).trans (clockTick_ns s x.ns)
  · exact (((clockTick_frame s x.ns).mono (by simp)).trans (readTemps_frame _ _)).withQueue
  · exact clockTick_now s x.ns
  · exact clockTick_ns s x.ns
  · exact (clockTick_frame s x.ns).withQueue
  · exact clockTick_regs s x.ns

end Sys2Proof.Machine
end

section
/-! SUPPORT. Frames of registers and counters: how `regsBut` and `countsBut` combine, what sending and reporting count, and the effect of a row in the running state. -/

namespace Sys2Proof.Machine

/-! ### Registers and counters that stay -/

theorem regsBut.trans' {ks ls ms : List Key} {s t u : State} (h : regsBut ks s t) (g : regsBut ls t u) (hk : ks ⊆ ms) (hl : ls ⊆ ms) : regsBut ms s u :=
  fun k hn => (g k fun m => hn (hl m)).trans (h k fun m => hn (hk m))

theorem regsBut.trans {ks : List Key} {s t u : State} (h : regsBut ks s t) (g : regsBut ks t u) : regsBut ks s u :=
  h.trans' g (List.Subset.refl _) (List.Subset.refl _)

theorem regsBut.mono {ks ls : List Key} {s t : State} (h : regsBut ks s t) (hs : ks ⊆ ls) : regsBut ls s t := fun k hn => h k fun m => hn (hs m)

theorem keepsBut.regsBut {ps : List Part} {s t : State} (h : keepsBut ps s t) (hp : Part.regs ∉ ps) (ks : List Key) : regsBut ks s t :=
  fun k _ => h.reg hp k

theorem regsBut_setReg (s : State) (k : Key) (v : Nat) : regsBut [k] s (s.setReg k v) :=
  fun j hj => State.reg_setReg_ne s v fun e => hj (by simp [e])

theorem countsBut.trans' {ks ls ms : List Key} {s t u : State} (h : countsBut ks s t) (g : countsBut ls t u) (hk : ks ⊆ ms) (hl : ls ⊆ ms) :
    countsBut ms s u :=
  fun k hn => (g k fun m => hn (hl m)).trans (h k fun m => hn (hk m))

theorem countsBut.trans {ks : List Key} {s t u : State} (h : countsBut ks s t) (g : countsBut ks t u) : countsBut ks s u :=
  h.trans' g (List.Subset.refl _) (List.Subset.refl _)

theorem countsBut.mono {ks ls : List Key} {s t : State} (h : countsBut ks s t) (hs : ks ⊆ ls) : countsBut ls s t := fun k hn => h k fun m => hn (hs m)

theorem keepsBut.countsBut {ps : List Part} {s t : State} (h : keepsBut ps s t) (hp : Part.counts ∉ ps) (ks : List Key) : countsBut ks s t :=
  fun k _ => h.cnt hp k

theorem countsBut_bump (s : State) (k : Key) (n : Nat) : countsBut [k] s (s.bump k n) :=
  fun j hj => State.cnt_bump_ne s n fun e => hj (by simp [e])

theorem countsBut_bumpIf (s : State) (b : Bool) (k : Key) : countsBut [k] s (s.bumpIf b k) := by
  intro j hj
  rw [State.cnt_bumpIf, if_neg (by simp_all), Nat.add_zero]

theorem countsBut_foldl {α : Type} {ks : List Key} {f : State → α → State} (l : List α) (s : State) (h : ∀ s a, countsBut ks s (f s a)) :
    countsBut ks s (l.foldl f s) := by
  induction l generalizing s with
  | nil => simp
  | cons a l ih => exact (h s a).trans (ih _)

/-! ### The effect of a row in the running state -/

/-- A row of the running Molset answers its effect, with the queue of the state before (entry 1); what is shown of the effect must not speak of the queue. -/
theorem exists_live {s u : State} {f : State → State} {P : State → Prop} (hrun : s.running = true) (he : f s = u) (h : P u)
    (hq : ∀ t, P t → P { t with pending := s.pending }) : ∃ t, live s f = .next t ∧ P t :=
  ⟨_, live_running hrun, hq _ (he ▸ h)⟩

/-- A row of the running Molset whose effect is none answers the state itself. -/
theorem live_idle {s : State} {f : State → State} (hrun : s.running = true) (he : f s = s) : live s f = .next s := by
  rw [live_running hrun, he]

theorem regsBut.withQueue {ks : List Key} {s t : State} (h : regsBut ks s t) : regsBut ks s { t with pending := s.pending } := h

theorem countsBut.withQueue {ks : List Key} {s t : State} (h : countsBut ks s t) : countsBut ks s { t with pending := s.pending } := h

/-! ### What sending and reporting count (R350, R471) -/

/-- A packet that carries no tenant's data may count in 0xE0C0:0B, for want of a route. -/
theorem sendAt_countsBut (s : State) (d k t e : Nat) (r : Bool) {m : Msg} (hm : carriesData m = false) : countsBut [0xE0C00B] s (s.sendAt d k t e r m) := by
  unfold State.sendAt
  rw [if_neg (by simp [hm])]
  exact countsBut_bumpIf s _ _

theorem sendAll_countsBut (s : State) (l : List Nat) (k t : Nat) (r : Bool) {m : Msg} (hm : carriesData m = false) :
    countsBut [0xE0C00B] s (s.sendAll l k t r m) :=
  countsBut_foldl _ s fun _ _ => sendAt_countsBut _ _ _ _ _ _ hm

theorem raiseFault_countsBut (s : State) (a b c d e : Nat) : countsBut [0xE0C00B] s (s.raiseFault a b c d e) :=
  ((sendAll_countsBut s _ 0x14 0 false (m := .fault _) rfl).trans ((mgmtCopy_frame _ _).countsBut (by simp) _)).trans
    ((takeReport_frame _ _).countsBut (by simp) _)

/-- Raising a fault counts nothing but the packets without a route. -/
theorem raiseFault_cnt (s : State) (a b c d e : Nat) {k : Key} (hk : k ≠ 0xE0C00B) : (s.raiseFault a b c d e).cnt k = s.cnt k :=
  raiseFault_countsBut s a b c d e k (by simpa using hk)

theorem raiseFault_time (s : State) (a b c d e : Nat) : (s.raiseFault a b c d e).time = s.time := raiseFault_frame s a b c d e .time (by simp)

end Sys2Proof.Machine
end

section
/-! PROOF. The period and the deadlines (O7). -/

namespace Sys2Proof.Machine

/-! ### Period changes (R37, R38) -/

theorem periodOk_iff (s : State) (p sw : Nat) : s.periodOk p sw = true ↔ 125 ≤ p ∧ p ≤ 2000 ∧ s.ftick + 256 ≤ sw ∧ s.time.change = none := by
  simp [State.periodOk, and_assoc]

/-- The registers and the change of a period change that becomes pending, before any peer is told. -/
def State.periodPending (s : State) (c : PeriodChange) : State :=
  (({ s with time := { s.time with change := some c } }.setReg 0x200002 c.period).setReg 0x200003 c.switch).setReg 0x200004 1

theorem periodStart_eq (s : State) (p sw : Nat) : s.periodStart p sw =
    (s.periodPending { period := p, switch := sw, origin := true, peers := s.liveSet.filter (· != s.node), acks := [] }).sendAll
      (s.liveSet.filter (· != s.node)) 0x15 0 false (.period p sw) := rfl

theorem periodPending_frame (s : State) (c : PeriodChange) : keepsBut [.regs, .time] s (s.periodPending c) :=
  (with_time_frame s _).trans' (((setReg_frame _ _ _).trans (setReg_frame _ _ _)).trans (setReg_frame _ _ _)) (by simp) (by simp)

theorem periodPending_regs (s : State) (c : PeriodChange) : regsBut [0x200002, 0x200003, 0x200004] s (s.periodPending c) := by
  intro k hk
  simp only [List.mem_cons, List.not_mem_nil, or_false, not_or] at hk
  obtain ⟨h2, h3, h4⟩ := hk
  unfold State.periodPending
  rw [State.reg_setReg_ne _ _ h4, State.reg_setReg_ne _ _ h3, State.reg_setReg_ne _ _ h2]
  rfl

theorem periodPending_holds (s : State) (c : PeriodChange) : (s.periodPending c).reg 0x200002 = c.period ∧ (s.periodPending c).reg 0x200003 = c.switch ∧
    (s.periodPending c).reg 0x200004 = 1 := by
  simp [State.periodPending, State.reg_setReg]

/-- What the pending change keeps when its peers are told of it. -/
theorem periodPending_told {s t : State} {c : PeriodChange} (h : keepsBut [.net, .counts] (s.periodPending c) t) :
    (t.reg 0x200002 = c.period ∧ t.reg 0x200003 = c.switch ∧ t.reg 0x200004 = 1) ∧ t.time.change = some c ∧
      keepsBut [.regs, .counts, .time, .net] s t ∧ regsBut [0x200002, 0x200003, 0x200004] s t := by
  obtain ⟨hp, hsw, hst⟩ := periodPending_holds s c
  refine ⟨⟨(h.reg (by simp) _).trans hp, (h.reg (by simp) _).trans hsw, (h.reg (by simp) _).trans hst⟩, congrArg TimeS.change (h .time (by simp)), ?_, ?_⟩
  · exact (periodPending_frame s c).trans' h (by simp) (by simp)
  · exact (periodPending_regs s c).trans (h.regsBut (by simp) _)

theorem exec_periodChange_accepted (s : State) (p sw : Nat) (hrun : s.running = true) (hc : s.time.change = none) (h1 : 125 ≤ p) (h2 : p ≤ 2000)
    (h3 : s.ftick + 256 ≤ sw) : ∃ t, exec (.periodChange p sw) s = .next t ∧ t.reg 0x200002 = p ∧ t.reg 0x200003 = sw ∧ t.reg 0x200004 = 1 ∧
      t.time.change = some { period := p, switch := sw, origin := true, peers := s.liveSet.filter (· != s.node), acks := [] } ∧
      keepsBut [.regs, .counts, .time, .net] s t ∧ regsBut [0x200002, 0x200003, 0x200004] s t := by
  have hok : s.periodWrite p sw = s.periodStart p sw := if_pos ((periodOk_iff s p sw).2 ⟨h1, h2, h3, hc⟩)
  rw [periodStart_eq] at hok
  obtain ⟨⟨hp, hsw, hst⟩, hch, hf, hr⟩ := periodPending_told (sendAll_frame (s.periodPending _) _ 0x15 0 false (.period p sw))
  change ∃ t, live s (fun s => s.periodWrite p sw) = .next t ∧ _
  exact exists_live hrun hok ⟨hp, hsw, hst, hch, hf, hr⟩ fun _ ⟨a, b, c, d, f, r⟩ => ⟨a, b, c, d, f.withQueue, r⟩

theorem exec_periodChange_refused (s : State) (p sw : Nat) (hrun : s.running = true)
    (h : p < 125 ∨ 2000 < p ∨ sw < s.ftick + 256 ∨ s.time.change ≠ none) :
    ∃ t, exec (.periodChange p sw) s = .next t ∧ t.cnt 0xE0100D = s.cnt 0xE0100D + 1 ∧ keepsBut [.counts] s t ∧ countsBut [0xE0100D] s t := by
  have hno : s.periodWrite p sw = s.bump 0xE0100D 1 := by
    refine if_neg fun hok => ?_
    obtain ⟨h1, h2, h3, h4⟩ := (periodOk_iff s p sw).1 hok
    rcases h with h | h | h | h
    · omega
    · omega
    · omega
    · exact h h4
  change ∃ t, live s (fun s => s.periodWrite p sw) = .next t ∧ _
  exact exists_live hrun hno ⟨State.cnt_bump_same s _ 1, bump_frame s _ 1, countsBut_bump s _ 1⟩ fun _ ⟨a, f, c⟩ => ⟨a, f.withQueue, c⟩

theorem exec_periodChangeReceive_new (s : State) (src p sw : Nat) (hrun : s.running = true) (hc : s.time.change = none) (hsw : s.ftick < sw) :
    ∃ t, exec (.periodChangeReceive src p sw) s = .next t ∧ t.reg 0x200002 = p ∧ t.reg 0x200003 = sw ∧
      t.time.change = some { period := p, switch := sw, origin := false, peers := [], acks := [] } ∧
      (∃ k ∈ t.net.unacked, k.dst = src ∧ k.kind = 0x15 ∧ k.msg = .periodAck sw) ∧
      keepsBut [.regs, .counts, .time, .net] s t ∧ regsBut [0x200002, 0x200003, 0x200004] s t := by
  obtain ⟨⟨hp, hs, -⟩, hch, hf, hr⟩ := periodPending_told (send_frame (s.periodPending { period := p, switch := sw, origin := false, peers := [], acks := [] })
    src 0x15 0 (.periodAck sw))
  change ∃ t, execPeriodChangeReceive src p sw s = .next t ∧ _
  unfold execPeriodChangeReceive
  refine exists_live hrun ?_ ⟨hp, hs, hch, sendAt_hasSent _ _ _ _ _ _ _ (.inl rfl), hf, hr⟩ fun _ ⟨a, b, c, d, f, r⟩ => ⟨a, b, c, d, f.withQueue, r⟩
  simp only [hc]
  exact if_neg (by omega)

theorem exec_periodChangeAck_new (s : State) (src : Nat) (c : PeriodChange) (hrun : s.running = true) (hc : s.time.change = some c)
    (hp : src ∈ c.peers) (ha : src ∉ c.acks) :
    ∃ t, exec (.periodChangeAck src) s = .next t ∧ t.time.change = some { c with acks := c.acks ++ [src] } ∧ keepsBut [.time] s t := by
  change ∃ t, execPeriodChangeAck src s = .next t ∧ _
  unfold execPeriodChangeAck
  refine exists_live hrun (u := { s with time := { s.time with change := some { c with acks := c.acks ++ [src] } } }) ?_ ⟨rfl, with_time_frame s _⟩
    fun _ ⟨a, f⟩ => ⟨a, f.withQueue⟩
  simp only [hc]
  exact if_pos (by simp [hp, ha])

theorem periodCancel_pending {s : State} {c : PeriodChange} (hc : s.time.change = some c) :
    s.periodCancel = ({ s with time := { s.time with change := none } }.setReg 0x200004 2).bump 0xE0100D 1 := if_neg (by simp [hc])

theorem exec_periodChangeCancel_pending (s : State) (c : PeriodChange) (hrun : s.running = true) (hc : s.time.change = some c) :
    ∃ t, exec .periodChangeCancel s = .next t ∧ t.time.change = none ∧ t.reg 0x200004 = 2 ∧ t.cnt 0xE0100D = s.cnt 0xE0100D + 1 ∧
      keepsBut [.regs, .counts, .time] s t ∧ regsBut [0x200004] s t ∧ countsBut [0xE0100D] s t := by
  have htime := with_time_frame s { s.time with change := none }
  refine exists_live hrun (periodCancel_pending hc) ⟨rfl, State.reg_setReg_same _ _ _, State.cnt_bump_same _ _ 1, ?_, ?_, ?_⟩
    fun _ ⟨a, b, c, f, r, k⟩ => ⟨a, b, c, f.withQueue, r, k⟩
  · exact (htime.trans' (setReg_frame _ _ _) (rs := [.time, .regs]) (by simp) (by simp)).trans' (bump_frame _ _ _) (by simp) (by simp)
  · exact (htime.regsBut (by simp) _).trans ((regsBut_setReg _ _ _).trans ((bump_frame _ _ _).regsBut (by simp) _))
  · exact (htime.countsBut (by simp) _).trans (((setReg_frame _ _ _).countsBut (by simp) _).trans (countsBut_bump _ _ _))

/-! ### Overruns and deadlines (R33, R49, R301) -/

theorem exec_frameOverrun_first (s : State) (k : Nat) (hrun : s.running = true) (ho : s.overdue k = true) (hk : k ∉ s.time.overrun) :
    ∃ t, exec (.frameOverrun k) s = .next t ∧ t.cnt 0xE01007 = s.cnt 0xE01007 + 1 ∧ t.time.overrun = s.time.overrun ++ [k] ∧
      keepsBut [.counts, .time, .net, .fault, .mgmtOut] s t := by
  change ∃ t, execFrameOverrun k s = .next t ∧ _
  unfold execFrameOverrun
  refine exists_live hrun (if_neg (by simp [ho, hk])) ⟨?_, ?_, ?_⟩ fun _ ⟨a, b, f⟩ => ⟨a, b, f.withQueue⟩
  · rw [raiseFault_cnt _ _ _ _ _ _ (by decide), State.cnt_bump_same]
    rfl
  · rw [raiseFault_time]
    rfl
  · exact ((with_time_frame s _).trans' (bump_frame _ _ _) (rs := [.time, .counts]) (by simp) (by simp)).trans' (raiseFault_frame _ _ _ _ _ _)
      (by simp) (by simp)

theorem exec_frameOverrun_again (s : State) (k : Nat) (hrun : s.running = true) (hk : k ∈ s.time.overrun) : exec (.frameOverrun k) s = .next s := by
  change execFrameOverrun k s = _
  exact live_idle hrun (if_pos (by simp [hk]))

/-- A missed deadline: two counters count beside the guard (R49, R301). -/
theorem deadlineMiss (s : State) (x : TimeS) (n m : Nat) {j k : Key} (hne : j ≠ k) :
    (({ s with time := x }.bump j n).bump k m).cnt j = s.cnt j + n ∧ (({ s with time := x }.bump j n).bump k m).cnt k = s.cnt k + m ∧
      (({ s with time := x }.bump j n).bump k m).time = x ∧ keepsBut [.counts, .time] s (({ s with time := x }.bump j n).bump k m) ∧
      countsBut [j, k] s (({ s with time := x }.bump j n).bump k m) := by
  have htime := with_time_frame s x
  refine ⟨?_, ?_, ((bump_frame _ j n).trans (bump_frame _ k m)) .time (by simp), ?_, ?_⟩
  · rw [State.cnt_bump_ne _ _ hne, State.cnt_bump_same]
    rfl
  · rw [State.cnt_bump_same, State.cnt_bump_ne _ _ hne.symm]
    rfl
  · exact (htime.trans' (bump_frame _ _ _) (rs := [.counts, .time]) (by simp) (by simp)).trans' (bump_frame _ _ _) (by simp) (by simp)
  · exact (htime.countsBut (by simp) _).trans ((countsBut_bump _ _ _).trans' (countsBut_bump _ _ _) (by simp) (by simp))

theorem exec_stageDeadline_single (s : State) (st cyc : Nat) (q : QName) (a : Access) (hrun : s.running = true) (h : s.tier.accesses = [a])
    (hst : a.stage = st) (hq : a.q = some q) (ht : a.tier ≤ 2) :
    ∃ t, exec (.stageDeadline st q cyc) s = .next t ∧ t.cnt (0xE0A004 + 2 * a.tier) = s.cnt (0xE0A004 + 2 * a.tier) + 1 ∧
      t.cnt (0xE0A005 + 2 * a.tier) = s.cnt (0xE0A005 + 2 * a.tier) + cyc ∧ t.time.guard = true ∧ keepsBut [.counts, .time] s t ∧
      countsBut [0xE0A004 + 2 * a.tier, 0xE0A005 + 2 * a.tier] s t := by
  have hne : (0xE0A004 + 2 * a.tier : Nat) ≠ 0xE0A005 + 2 * a.tier := by omega
  obtain ⟨hj, hk, htime, hf, hc⟩ := deadlineMiss s { s.time with guard := true } 1 cyc hne
  have hmine : s.tier.accesses.filter (fun a => a.stage == st && a.q == some q && a.tier ≤ 2) = [a] := by simp [h, hst, hq, ht]
  change ∃ t, execStageDeadline st q cyc s = .next t ∧ _
  unfold execStageDeadline
  refine exists_live hrun ?_ ⟨hj, hk, congrArg TimeS.guard htime, hf, hc⟩ fun _ ⟨a, b, c, f, k⟩ => ⟨a, b, c, f.withQueue, k⟩
  dsimp only
  rw [hmine]
  rfl

/-- Settles O7: a lemma for each clause, from the frames of the operations of its row. -/
theorem periodsAndDeadlines : Obligations.PeriodsAndDeadlines := by
  unfold Obligations.PeriodsAndDeadlines
  exact ⟨⟨exec_periodChange_accepted, exec_periodChange_refused, exec_periodChangeReceive_new, exec_periodChangeAck_new,
    exec_periodChangeCancel_pending⟩, exec_frameOverrun_first, exec_frameOverrun_again, exec_stageDeadline_single⟩

end Sys2Proof.Machine
end

section
/-! PROOF. The alignment state (O8), with what entering the out-of-phase state does to registers and counters. -/

namespace Sys2Proof.Machine

/-! ### Entry to the out-of-phase state (R25, R41, R43) -/

theorem raiseFault_reg (s : State) (a b c d e : Nat) (k : Key) : (s.raiseFault a b c d e).reg k = s.reg k :=
  (raiseFault_frame s a b c d e).reg (by simp) k

/-- A Molset that is not out of phase enters the state and counts it. -/
theorem outOfPhase_enter {s : State} (h : s.reg 0x200104 ≠ 4) : s.outOfPhase =
    State.raiseFault { (s.setReg 0x200104 4).bump 0xE01009 1 with time := { s.time with noLink := 0, lockCount := 0 } } 3 s.node 0 0 0 := by
  unfold State.outOfPhase
  rw [if_neg (by simp [h])]
  have ht : ((s.setReg 0x200104 4).bump 0xE01009 1).time = s.time := ((setReg_frame s _ _).trans' (bump_frame _ _ _) (rs := [.regs, .counts]) (by simp)
    (by simp)) .time (by simp)
  have hn : State.node ((s.setReg 0x200104 4).bump 0xE01009 1) = s.node :=
    congrArg (· % 4096) (((bump_frame _ 0xE01009 1).reg (by simp) 0x800001).trans (State.reg_setReg_ne s 4 (by decide)))
  dsimp only
  rw [ht]
  exact congrArg (fun n => State.raiseFault _ 3 n 0 0 0) hn

theorem outOfPhase_align (s : State) : s.outOfPhase.reg 0x200104 = 4 := by
  by_cases h : s.reg 0x200104 = 4
  · unfold State.outOfPhase
    rw [if_pos (by simp [h]), h]
  · rw [outOfPhase_enter h, raiseFault_reg]
    exact ((bump_frame _ _ _).reg (by simp) _).trans (State.reg_setReg_same s _ _)

theorem outOfPhase_regs (s : State) : regsBut [0x200104] s s.outOfPhase := by
  intro k hk
  by_cases h : s.reg 0x200104 = 4
  · unfold State.outOfPhase
    rw [if_pos (by simp [h])]
  · rw [outOfPhase_enter h, raiseFault_reg]
    exact ((bump_frame _ _ _).reg (by simp) _).trans (regsBut_setReg s _ _ k hk)

theorem outOfPhase_counted {s : State} (h : s.reg 0x200104 ≠ 4) : s.outOfPhase.cnt 0xE01009 = s.cnt 0xE01009 + 1 := by
  rw [outOfPhase_enter h, raiseFault_cnt _ _ _ _ _ _ (by decide)]
  exact (State.cnt_bump_same _ _ 1).trans (congrArg (· + 1) ((setReg_frame s _ _).cnt (by simp) _))

theorem outOfPhase_counts (s : State) : countsBut [0xE01009, 0xE0C00B] s s.outOfPhase := by
  intro k hk
  simp only [List.mem_cons, List.not_mem_nil, or_false, not_or] at hk
  obtain ⟨h9, hB⟩ := hk
  by_cases h : s.reg 0x200104 = 4
  · unfold State.outOfPhase
    rw [if_pos (by simp [h])]
  · rw [outOfPhase_enter h, raiseFault_cnt _ _ _ _ _ _ hB]
    exact (State.cnt_bump_ne _ _ h9).trans ((setReg_frame s _ _).cnt (by simp) _)

/-- A stale decision is counted in 0xE010:0B (R25). -/
theorem stale_cnt (s : State) : s.stale.cnt 0xE0100B = s.cnt 0xE0100B + 1 :=
  (outOfPhase_counts _ _ (by decide)).trans (State.cnt_bump_same s _ 1)

theorem stale_align (s : State) : s.stale.reg 0x200104 = 4 := outOfPhase_align _

theorem stale_regs (s : State) : regsBut [0x200104] s s.stale := ((bump_frame s _ _).regsBut (by simp) _).trans (outOfPhase_regs _)

/-- A row by which a decision comes after its tick. -/
theorem exists_stale {s : State} {f : State → State} (hrun : s.running = true) (hf : f s = s.stale) :
    ∃ t, live s f = .next t ∧ t.cnt 0xE0100B = s.cnt 0xE0100B + 1 ∧ t.reg 0x200104 = 4 ∧ keepsBut [.regs, .counts, .time, .net, .fault, .mgmtOut] s t :=
  exists_live hrun hf ⟨stale_cnt s, stale_align s, (stale_frame s).mono (by simp)⟩ fun _ ⟨a, b, k⟩ => ⟨a, b, k.withQueue⟩

/-! ### The moves of the alignment state (R41, R42, R43, R48) -/

theorem exec_markerLost_locked (s : State) (hrun : s.running = true) (h : s.reg 0x200104 = 2) (hm : 1 ≤ s.time.markerLost) :
    ∃ t, exec .markerLost s = .next t ∧ t.reg 0x200104 = 3 ∧ t.reg 0x200105 = 0 ∧ t.cnt 0xE0100A = s.cnt 0xE0100A + 1 ∧
      keepsBut [.regs, .counts] s t ∧ regsBut [0x200104, 0x200105] s t ∧ countsBut [0xE0100A] s t := by
  have hb : ∀ u : State, keepsBut [.counts] u (u.bump 0xE0100A 1) := fun u => bump_frame u _ _
  change ∃ t, execMarkerLost s = .next t ∧ _
  unfold execMarkerLost
  refine exists_live hrun (if_pos (by simp [h, hm])) ⟨?_, ?_, ?_, ?_, ?_, ?_⟩ fun _ ⟨a, b, c, f, r, k⟩ => ⟨a, b, c, f.withQueue, r, k⟩
  · exact ((hb _).reg (by simp) _).trans ((State.reg_setReg_ne _ _ (by decide)).trans (State.reg_setReg_same _ _ _))
  · exact ((hb _).reg (by simp) _).trans (State.reg_setReg_same _ _ _)
  · exact (State.cnt_bump_same _ _ 1).trans (congrArg (· + 1) (((setReg_frame s _ _).trans (setReg_frame _ _ _)).cnt (by simp) _))
  · exact ((setReg_frame s _ _).trans (setReg_frame _ _ _)).trans' (hb _) (by simp) (by simp)
  · exact ((regsBut_setReg s _ _).trans' (regsBut_setReg _ _ _) (by simp) (by simp)).trans ((hb _).regsBut (by simp) _)
  · exact (((setReg_frame s _ _).trans (setReg_frame _ _ _)).countsBut (by simp) _).trans (countsBut_bump _ _ _)

theorem exec_alignmentLock_locks (s : State) (hrun : s.running = true) (h : s.reg 0x200104 = 1) (hl : 16 ≤ s.time.lockCount) (hj : s.time.joining = false) :
    ∃ t, exec .alignmentLock s = .next t ∧ t.reg 0x200104 = 2 ∧ keepsBut [.regs] s t ∧ regsBut [0x200104] s t := by
  change ∃ t, execAlignmentLock s = .next t ∧ _
  unfold execAlignmentLock
  refine exists_live hrun (u := s.setReg 0x200104 2) ?_ ⟨State.reg_setReg_same _ _ _, setReg_frame _ _ _, regsBut_setReg _ _ _⟩
    fun _ ⟨a, f, r⟩ => ⟨a, f.withQueue, r⟩
  rw [if_neg (by simp [h, hl])]
  exact if_pos (by simp [hj])

/-- What the limits of acquiring and of holdover do. -/
theorem exists_outOfPhase {s : State} {f : State → State} (hrun : s.running = true) (hf : f s = s.outOfPhase) (h : s.reg 0x200104 ≠ 4) :
    ∃ t, live s f = .next t ∧ t.reg 0x200104 = 4 ∧ t.cnt 0xE01009 = s.cnt 0xE01009 + 1 ∧ keepsBut [.regs, .counts, .time, .net, .fault, .mgmtOut] s t ∧
      regsBut [0x200104] s t :=
  exists_live hrun hf ⟨outOfPhase_align s, outOfPhase_counted h, (outOfPhase_frame s).mono (by simp), outOfPhase_regs s⟩
    fun _ ⟨a, b, f, r⟩ => ⟨a, b, f.withQueue, r⟩

theorem exec_acquireTimeout_late (s : State) (hrun : s.running = true) (h : s.reg 0x200104 = 1) (ha : s.reg 0x200107 ≤ s.time.acquire) :
    ∃ t, exec .acquireTimeout s = .next t ∧ t.reg 0x200104 = 4 ∧ t.cnt 0xE01009 = s.cnt 0xE01009 + 1 ∧
      keepsBut [.regs, .counts, .time, .net, .fault, .mgmtOut] s t ∧ regsBut [0x200104] s t := by
  change ∃ t, execAcquireTimeout s = .next t ∧ _
  unfold execAcquireTimeout
  exact exists_outOfPhase hrun (if_pos (by simp [h, ha])) (by simp [h])

theorem exec_holdoverTimeout_late (s : State) (err : Nat) (hrun : s.running = true) (h : s.reg 0x200104 = 3) (he : 64 < s.reg 0x200105 ∨ 1000 < err) :
    ∃ t, exec (.holdoverTimeout err) s = .next t ∧ t.reg 0x200104 = 4 ∧ t.cnt 0xE01009 = s.cnt 0xE01009 + 1 ∧
      keepsBut [.regs, .counts, .time, .net, .fault, .mgmtOut] s t ∧ regsBut [0x200104] s t := by
  change ∃ t, execHoldoverTimeout err s = .next t ∧ _
  unfold execHoldoverTimeout
  exact exists_outOfPhase hrun (if_pos (by simp [h, he])) (by simp [h])

theorem exec_freeRunTimeout_acquiring (s : State) (hrun : s.running = true) (hl : s.linkUp = false) (h : s.reg 0x200104 = 1) :
    ∃ t, exec .freeRunTimeout s = .next t ∧ t.reg 0x200104 = 0 ∧ t.time.upstream = none ∧ t.time.joining = false ∧
      keepsBut [.regs, .time] s t ∧ regsBut [0x200104] s t := by
  change ∃ t, execFreeRunTimeout s = .next t ∧ _
  unfold execFreeRunTimeout
  refine exists_live hrun (u := { s with time := { s.time with joining := false, marks := [], upstream := none, hops := 0xFF } }.setReg 0x200104 0) ?_
    ⟨State.reg_setReg_same _ _ _, rfl, rfl, ?_, ?_⟩ fun _ ⟨a, b, c, f, r⟩ => ⟨a, b, c, f.withQueue, r⟩
  · rw [if_neg (by simp [hl])]
    exact if_pos (by simp [h])
  · exact (with_time_frame s _).trans' (setReg_frame _ _ _) (by simp) (by simp)
  · exact ((with_time_frame s _).regsBut (by simp) _).trans (regsBut_setReg _ _ _)

theorem exec_clearPeakPhase_one (s : State) (hrun : s.running = true) :
    ∃ t, exec (.clearPeakPhase 1) s = .next t ∧ t.reg 0x200103 = 0 ∧ keepsBut [.regs] s t ∧ regsBut [0x200103] s t := by
  change ∃ t, execClearPeakPhase 1 s = .next t ∧ _
  unfold execClearPeakPhase
  exact exists_live hrun (if_pos rfl) ⟨State.reg_setReg_same _ _ _, setReg_frame s _ _, regsBut_setReg s _ _⟩ fun _ ⟨a, f, r⟩ => ⟨a, f.withQueue, r⟩

theorem exec_clearPeakPhase_other (s : State) (v : Nat) (hrun : s.running = true) (hv : v ≠ 1) : exec (.clearPeakPhase v) s = .next s := by
  change execClearPeakPhase v s = _
  exact live_idle hrun (if_neg (by simpa using hv))

/-! ### The markers at the tick reference (R343) -/

/-- The measurements kept of the sender of a marker. -/
def measured (m : Marker) : PeerMark :=
  { node := m.sender, age := 0, t1 := m.t1, t4 := m.t4, delay := ((m.t4 - m.t2) - (m.t1 - m.t3)) / 2, align := m.align, hops := m.hops, phase := m.phase }

/-- A locked Molset takes a marker without a move of its alignment state (R41). -/
theorem markerState_locked {s : State} (m : Marker) (h : s.reg 0x200104 = 2) : s.markerState m = s := by
  unfold State.markerState
  rw [h]
  rfl

/-- A locked Molset whose phase error is 0 stays locked, and its peak stays (R41, R48). -/
theorem phaseError_zero {s : State} (h : s.reg 0x200104 = 2) : (s.phaseError 0).regI 32 0x200102 = 0 ∧ (s.phaseError 0).reg 0x200104 = 2 ∧
    keepsBut [.regs] s (s.phaseError 0) ∧ regsBut [0x200102, 0x200103] s (s.phaseError 0) := by
  have he : s.phaseError 0 = (s.setRegI 32 0x200102 0).setReg 0x200103 (max (s.reg 0x200103) 0) := by
    unfold State.phaseError
    refine if_neg ?_
    rw [Bool.and_eq_true]
    exact fun h => absurd h.2 (by decide)
  have hr : regsBut [0x200102, 0x200103] s (s.phaseError 0) := by
    rw [he]
    exact (regsBut_setReg s _ _).trans' (regsBut_setReg _ _ _) (by simp) (by simp)
  refine ⟨?_, (hr _ (by decide)).trans h, ?_, hr⟩
  · rw [he]
    unfold State.regI
    rw [State.reg_setReg_ne _ _ (by decide)]
    exact State.regI_setRegI s _ (by decide) (by decide) (by decide)
  · rw [he]
    exact (setRegI_frame s _ _ _).trans (setReg_frame _ _ _)

theorem exec_tickMarker_reference (s : State) (m : Marker) (hrun : s.running = true) (hl : s.linkUp = true) (href : s.reg 0x200101 = s.node)
    (h : s.reg 0x200104 = 2) :
    ∃ t, exec (.tickMarker m) s = .next t ∧ t.regI 32 0x200102 = 0 ∧ t.reg 0x200104 = 2 ∧ t.time.upstream = none ∧ t.time.hops = 0 ∧
      (∃ k ∈ t.time.marks, k.node = m.sender ∧ k.delay = ((m.t4 - m.t2) - (m.t1 - m.t3)) / 2) ∧
      keepsBut [.regs, .time] s t ∧ regsBut [0x200102, 0x200103] s t := by
  have hstay : ∀ x : TimeS, ({ s with time := x } : State).reg 0x200104 = 2 := fun _ => h
  have hmk : measured m ∈ sortBy (fun (a b : PeerMark) => a.node < b.node) (measured m :: s.time.marks.filter (·.node != m.sender)) :=
    mem_sortBy.2 (List.mem_cons_self ..)
  have hp : ∀ x : TimeS, (State.phaseError { s with time := x } 0).regI 32 0x200102 = 0 ∧ (State.phaseError { s with time := x } 0).reg 0x200104 = 2 ∧
      (State.phaseError { s with time := x } 0).time = x ∧ keepsBut [.regs, .time] s (State.phaseError { s with time := x } 0) ∧
      regsBut [0x200102, 0x200103] s (State.phaseError { s with time := x } 0) := fun x => by
    obtain ⟨hz, h2, hf, hr⟩ := phaseError_zero (hstay x)
    exact ⟨hz, h2, hf .time (by simp), (with_time_frame s x).trans' hf (by simp) (by simp), ((with_time_frame s x).regsBut (by simp) _).trans hr⟩
  obtain ⟨hz, h2, ht, hf, hr⟩ := hp { s.time with
    marks := sortBy (fun (a b : PeerMark) => a.node < b.node) (measured m :: s.time.marks.filter (·.node != m.sender))
    upstream := none, hops := 0, markerSeen := true, markerLost := 0 }
  change ∃ t, execTickMarker m s = .next t ∧ _
  unfold execTickMarker
  refine exists_live hrun ?_ ⟨hz, h2, congrArg TimeS.upstream ht, congrArg TimeS.hops ht, ⟨measured m, by rw [ht]; exact hmk, rfl, rfl⟩, hf, hr⟩
    fun _ ⟨a, b, c, d, e, f, r⟩ => ⟨a, b, c, d, e, f.withQueue, r⟩
  rw [if_neg (by simp [hl])]
  dsimp only
  rw [markerState_locked m (hstay _)]
  exact if_pos (beq_iff_eq.2 href)

/-- Settles O8: a lemma for each move of the table, and one for the markers at the reference. -/
theorem alignmentStateMoves : Obligations.AlignmentStateMoves := by
  unfold Obligations.AlignmentStateMoves
  exact ⟨⟨exec_markerLost_locked, exec_alignmentLock_locks, exec_acquireTimeout_late, exec_holdoverTimeout_late, exec_freeRunTimeout_acquiring,
    exec_clearPeakPhase_one, exec_clearPeakPhase_other⟩, exec_tickMarker_reference⟩

end Sys2Proof.Machine
end

section
/-! SUPPORT. The queries at their homes and on their copies, and what the plies count. -/

namespace Sys2Proof.Machine

/-! ### Rows whose effect is shown with a witness -/

theorem exists_live₂ {α : Type} {s u : State} {f : State → State} {P : State → α → Prop} {y : α} (hrun : s.running = true) (he : f s = u) (h : P u y)
    (hq : ∀ t y, P t y → P { t with pending := s.pending } y) : ∃ t y, live s f = .next t ∧ P t y :=
  ⟨_, y, live_running hrun, hq _ _ (he ▸ h)⟩

theorem exists_live₃ {α β : Type} {s u : State} {f : State → State} {P : State → α → β → Prop} {y : α} {z : β} (hrun : s.running = true) (he : f s = u)
    (h : P u y z) (hq : ∀ t y z, P t y z → P { t with pending := s.pending } y z) : ∃ t y z, live s f = .next t ∧ P t y z :=
  ⟨_, y, z, live_running hrun, hq _ _ _ (he ▸ h)⟩

/-! ### Finding what was set -/

/-- What replaces the first element that passes `p`, among others, is found in its place if it passes `p` itself. -/
theorem find?_updIf {α : Type} {p q : α → Bool} {l : List α} {x y : α} (h : l.find? p = some x) (hx : q x = true) (hy : p y = true) :
    (updIf q (fun _ => y) l).find? p = some y := by
  induction l with
  | nil => simp at h
  | cons a l ih =>
    rw [show updIf q (fun _ => y) (a :: l) = (if q a then y else a) :: updIf q (fun _ => y) l from rfl]
    by_cases ha : p a = true
    · rw [List.find?_cons_of_pos ha] at h
      cases h
      rw [if_pos hx, List.find?_cons_of_pos hy]
    · rw [List.find?_cons_of_neg ha] at h
      by_cases hq : q a = true
      · rw [if_pos hq, List.find?_cons_of_pos hy]
      · rw [if_neg hq, List.find?_cons_of_neg ha, ih h]

@[simp] theorem length_sortBy {α : Type} (lt : α → α → Bool) (l : List α) : (sortBy lt l).length = l.length := by
  have h : ∀ acc : List α, (l.foldl (fun acc x => insertBy lt x acc) acc).length = acc.length + l.length := by
    induction l with
    | nil => simp
    | cons a l ih => intro acc; rw [List.foldl_cons, ih, length_insertBy, List.length_cons]; omega
  simpa [sortBy] using h []

theorem findCopy_congr {s t : State} (h : t.copy = s.copy) (q : QName) (sh : Nat) : t.findCopy q sh = s.findCopy q sh := by
  unfold State.findCopy
  rw [h]

theorem findHome_congr {s t : State} (h : t.home = s.home) (q : QName) : t.findHome q = s.findHome q := by
  unfold State.findHome
  rw [h]

theorem findCopy_setCopy {s : State} {c x : CopyQ} (h : s.findCopy c.name c.shard = some x) : (s.setCopy c).findCopy c.name c.shard = some c := by
  unfold State.findCopy at h
  have hx := List.find?_some h
  exact find?_updIf h hx (by simp)

theorem findHome_setHome {s : State} {h x : HomeQ} (hf : s.findHome h.name = some x) : (s.setHome h).findHome h.name = some h := by
  unfold State.findHome at hf
  have hx := List.find?_some hf
  exact find?_updIf hf hx (by simp)

theorem findHome_name {s : State} {q : QName} {h : HomeQ} (hf : s.findHome q = some h) : h.name = q := by simpa using List.find?_some hf

@[simp] theorem setCopy_frame (s : State) (c : CopyQ) : keepsBut [.copy] s (s.setCopy c) := with_copy_frame s _
@[simp] theorem setHome_frame (s : State) (h : HomeQ) : keepsBut [.home] s (s.setHome h) := with_home_frame s _

/-! ### What a ply counts and scores (R71, R178, R183, R184) -/

@[simp] theorem draw_frame (s : State) : keepsBut [.free] s s.draw.2 := with_free_frame s _

/-- The ply buffers are zeroed for a new owner (R71). -/
theorem plyBuf_frame (s : State) (k tenant : Nat) : keepsBut [.ctl, .counts, .free] s (s.plyBuf k tenant) := by
  unfold State.plyBuf
  dsimp only
  split
  · simp
  · exact ((draw_frame s).trans' (with_ctl_frame _ _) (rs := [.free, .ctl]) (by simp) (by simp)).trans' (bump_frame _ _ _) (by simp) (by simp)

theorem plyBuf_checks (s : State) (k tenant : Nat) : (s.plyBuf k tenant).ctl.checks = s.ctl.checks := by
  unfold State.plyBuf
  dsimp only
  split
  · rfl
  · exact (congrArg CtlS.checks (bump_frame _ 0xE0200C _ .ctl (by simp))).trans rfl

theorem plyBuf_counts (s : State) (k tenant : Nat) : countsBut [0xE0200C] s (s.plyBuf k tenant) := by
  unfold State.plyBuf
  dsimp only
  split
  · simp
  · exact (((draw_frame s).trans' (with_ctl_frame _ _) (rs := [.free, .ctl]) (by simp) (by simp)).countsBut (by simp) _).trans (countsBut_bump _ _ _)

@[simp] theorem countDups_frame (s : State) (d : DupCnt) (one : Bool) : keepsBut [.counts] s (s.countDups d one) := by
  unfold State.countDups
  dsimp only
  split
  · exact ((bump_frame _ _ _).trans (bump_frame _ _ _)).trans (bump_frame _ _ _)
  · exact (bump_frame _ _ _).trans (bump_frame _ _ _)

theorem countDups_counts (s : State) (d : DupCnt) (one : Bool) : countsBut [0xE06007, 0xE06008, 0xE06009] s (s.countDups d one) := by
  have h : countsBut [0xE06007, 0xE06008] s ((s.bump 0xE06007 d.eq).bump 0xE06008 d.ne) :=
    (countsBut_bump _ _ _).trans' (countsBut_bump _ _ _) (by simp) (by simp)
  unfold State.countDups
  dsimp only
  split
  · exact h.trans' (countsBut_bump _ _ _) (by simp) (by simp)
  · exact h.mono (by simp)

@[simp] theorem scoreDups_frame (s : State) (d : DupCnt) (sps : List Nat) : keepsBut [.fault, .free] s (s.scoreDups d sps) := by
  have hif : ∀ (b : Prop) [Decidable b] (t u : State), keepsBut [.fault, .free] t u → keepsBut [.fault, .free] t (if b then t else u) := fun b _ t u h => by
    split
    · simp
    · exact h
  have hs : ∀ (t : State) a b c, keepsBut [.fault, .free] t (t.score a b c) := fun t a b c => (score_frame t a b c).mono (by simp)
  unfold State.scoreDups
  split
  rename_i n u hu
  refine keepsBut.trans (t := u) ?_ (keepsBut_foldl _ _ fun t sp => (hif _ t _ (hs t _ _ _)).trans (hif _ _ _ (hs _ _ _ _)))
  split at hu
  · cases hu; simp
  · cases hu; exact (draw_frame s).mono (by simp)

@[simp] theorem dropChecks_frame (s : State) (c : CopyQ) (die : Nat) : keepsBut [.ctl] s (s.dropChecks c die) := with_ctl_frame s _

theorem dropChecks_congr {s t : State} (h : t.ctl.checks = s.ctl.checks) (c : CopyQ) (die : Nat) :
    (t.dropChecks c die).ctl.checks = (s.dropChecks c die).ctl.checks := by
  unfold State.dropChecks
  rw [h]

@[simp] theorem scoreNodes_frame (s : State) (h : HomeQ) (ins : List Hank) : keepsBut [.fault] s (s.scoreNodes h ins) :=
  keepsBut_foldl _ _ fun _ _ => score_frame _ _ _ _

/-- What a die, module or fabric ply counts before it scores: its inputs in 0xE060:04, 05 or 06. -/
theorem plyCounted (s : State) {a : Key} (ha : a ∈ [0xE06004, 0xE06005, 0xE06006]) (k tenant n m : Nat) (d : DupCnt) (one : Bool) :
    keepsBut [.ctl, .counts, .free] s ((((s.plyBuf k tenant).bump a n).bump 0xE0600A m).countDups d one) ∧
      ((((s.plyBuf k tenant).bump a n).bump 0xE0600A m).countDups d one).ctl.checks = s.ctl.checks ∧
      ((((s.plyBuf k tenant).bump a n).bump 0xE0600A m).countDups d one).cnt a = s.cnt a + n := by
  have hne : ∀ b : Key, b ∉ [0xE06004, 0xE06005, 0xE06006] → a ≠ b := fun b hb e => hb (e ▸ ha)
  have hf : keepsBut [.counts] (s.plyBuf k tenant) ((((s.plyBuf k tenant).bump a n).bump 0xE0600A m).countDups d one) :=
    ((bump_frame _ _ _).trans (bump_frame _ _ _)).trans (countDups_frame _ _ _)
  refine ⟨(plyBuf_frame s k tenant).trans' hf (by simp) (by simp), ?_, ?_⟩
  · exact (congrArg CtlS.checks (hf .ctl (by simp))).trans (plyBuf_checks s k tenant)
  · rw [countDups_counts _ d one a (by simp [hne 0xE06007 (by decide), hne 0xE06008 (by decide), hne 0xE06009 (by decide)]),
      State.cnt_bump_ne _ _ (hne 0xE0600A (by decide)), State.cnt_bump_same, plyBuf_counts s k tenant a (by simp [hne 0xE0200C (by decide)])]

end Sys2Proof.Machine
end

section
/-! PROOF. The plies (O15). -/

namespace Sys2Proof.Machine

/-! ### Module hanks at the home (R172, R186, R187) -/

/-- A module hank goes to the home of its query. -/
theorem exec_hankArrival_module {s : State} {h : Hank} (die src : Nat) (hl : h.level = 2) :
    exec (.hankArrival h die src) s = live s fun s => s.homeHank h src := by
  change execHankArrival h die src s = _
  unfold execHankArrival
  congr 1
  funext t
  exact if_pos (by simp [hl])

/-- Has a hank the right form for its query: no reserved field, level 2, a shard that is awaited, and its own digest (R172, R187)? -/
def hankFits (q : HomeQ) (h : Hank) : Bool := !(h.res != 0 || h.level != 2 || !(q.copies.any fun c => c.1 == h.shard) || h.digest != hankDigest h)

theorem homeHank_fits {s : State} {h : Hank} {q : HomeQ} (src : Nat) (hq : s.findHome h.name = some q) (hok : hankFits q h = true) :
    s.homeHank h src = match q.hanks.find? fun x => x.shard == h.shard && x.pass == h.pass with
      | some x => if x.digest == h.digest then s.bump 0xE0600D 1 else (s.setHome { q with integrity := true }).bump 0xE0600E 1
      | none => s.setHome { q with hanks := q.hanks ++ [h] } := by
  unfold State.homeHank
  simp only [hq]
  exact if_neg (by simpa [hankFits] using hok)

theorem hankFits_of {q : HomeQ} {h : Hank} (hl : h.level = 2) (hres : h.res = 0) (hc : (q.copies.any fun c => c.1 == h.shard) = true)
    (hd : h.digest = hankDigest h) : hankFits q h = true := by
  simp [hankFits, hl, hres, hc, hd]

theorem exec_hankArrival_joins (s : State) (h : Hank) (die src : Nat) (q : HomeQ) (hrun : s.running = true) (hl : h.level = 2)
    (hq : s.findHome h.name = some q) (hres : h.res = 0) (hc : (q.copies.any fun c => c.1 == h.shard) = true) (hd : h.digest = hankDigest h)
    (hnew : (q.hanks.find? fun x => x.shard == h.shard && x.pass == h.pass) = none) :
    ∃ t, exec (.hankArrival h die src) s = .next t ∧ t.findHome h.name = some { q with hanks := q.hanks ++ [h] } ∧ keepsBut [.home] s t := by
  have he := homeHank_fits src hq (hankFits_of hl hres hc hd)
  rw [hnew] at he
  have hname := findHome_name hq
  rw [exec_hankArrival_module die src hl]
  refine exists_live hrun he ⟨?_, setHome_frame s _⟩ fun _ ⟨a, f⟩ => ⟨a, f.withQueue⟩
  have hset : (s.setHome { q with hanks := q.hanks ++ [h] }).findHome q.name = some { q with hanks := q.hanks ++ [h] } :=
    findHome_setHome (h := { q with hanks := q.hanks ++ [h] }) (hname.symm ▸ hq)
  exact hname ▸ hset

theorem exec_hankArrival_repeats (s : State) (h g : Hank) (die src : Nat) (q : HomeQ) (hrun : s.running = true) (hl : h.level = 2)
    (hq : s.findHome h.name = some q) (hres : h.res = 0) (hc : (q.copies.any fun c => c.1 == h.shard) = true) (hd : h.digest = hankDigest h)
    (hold : (q.hanks.find? fun x => x.shard == h.shard && x.pass == h.pass) = some g) (hg : g.digest = h.digest) :
    exec (.hankArrival h die src) s = .next (s.bump 0xE0600D 1) := by
  have he := homeHank_fits src hq (hankFits_of hl hres hc hd)
  rw [hold] at he
  rw [exec_hankArrival_module die src hl, live_running hrun, he]
  dsimp only
  rw [if_pos (by simp [hg])]
  rfl

theorem exec_hankArrival_wrong (s : State) (h : Hank) (die src : Nat) (q : HomeQ) (hrun : s.running = true) (hl : h.level = 2)
    (hq : s.findHome h.name = some q) (hd : h.digest ≠ hankDigest h) (hsrc : src ≠ s.node) (hask : (h.shard, h.pass) ∉ q.asked) :
    ∃ t, exec (.hankArrival h die src) s = .next t ∧ t.findHome h.name = some { q with asked := q.asked ++ [(h.shard, h.pass)] } ∧
      t.cnt 0xE06014 = s.cnt 0xE06014 + 1 ∧ t.hasSent src 0x20 (.askHank q.name h.shard h.pass) ∧ keepsBut [.home, .counts, .net] s t := by
  have hname := findHome_name hq
  have hbump := bump_frame s 0xE06014 1
  have hset := setHome_frame (s.bump 0xE06014 1) { q with asked := q.asked ++ [(h.shard, h.pass)] }
  have hsend := sendAt_frame ((s.bump 0xE06014 1).setHome { q with asked := q.asked ++ [(h.shard, h.pass)] }) src 0x20 q.par.tenant q.epoch false
    (.askHank q.name h.shard h.pass)
  have hnode : ((s.bump 0xE06014 1).setHome { q with asked := q.asked ++ [(h.shard, h.pass)] }).node = s.node :=
    congrArg (· % 4096) ((hbump.trans' hset (rs := [.counts, .home]) (by simp) (by simp)).reg (by simp) _)
  rw [exec_hankArrival_module die src hl]
  refine exists_live hrun (u := ((s.bump 0xE06014 1).setHome { q with asked := q.asked ++ [(h.shard, h.pass)] }).sendAt src 0x20 q.par.tenant q.epoch false
    (.askHank q.name h.shard h.pass)) ?_ ⟨?_, ?_, sendAt_hasSent _ _ _ _ _ _ _ (.inl rfl), ?_⟩ fun _ ⟨a, b, c, f⟩ => ⟨a, b, c, f.withQueue⟩
  · unfold State.homeHank
    simp only [hq]
    rw [if_pos (by simp [hd]), if_neg (by simpa using hask), if_neg (by simpa [hnode] using hsrc)]
  · rw [findHome_congr (hsend .home (by simp)), ← hname]
    refine findHome_setHome (h := { q with asked := q.asked ++ [(h.shard, h.pass)] }) (x := q) ?_
    rw [findHome_congr (hbump .home (by simp))]
    exact hname.symm ▸ hq
  · rw [sendAt_countsBut _ src 0x20 q.par.tenant q.epoch false (m := .askHank q.name h.shard h.pass) rfl 0xE06014 (by decide), hset.cnt (by simp),
      State.cnt_bump_same]
  · exact (hbump.trans' hset (rs := [.counts, .home]) (by simp) (by simp)).trans' hsend (by simp) (by simp)

/-! ### The die ply (R178) -/

theorem exec_diePly_complete (s : State) (c : CopyQ) (die : Nat) (hrun : s.running = true) (hc : s.findCopy c.name c.shard = some c)
    (hdone : s.dieComplete die c = true) (hold : s.olderCopy c.name.skein (s.dieComplete die) = false) :
    ∃ t c', exec (.diePly c.name c.shard die) s = .next t ∧ t.findCopy c.name c.shard = some c' ∧ lk c'.dealt die = some 0 ∧
      (∀ x ∈ c'.segs, x.1 ≠ die) ∧
      c'.dieHanks = c.dieHanks ++ [(die, (ply c.name c.shard 1 c.pass (passKeep (keepCount c.par) c.pass)
        (checkedInputs (s.dieChecks c die) (c.name, c.shard) (dieSegs c die))).1)] ∧
      t.ctl.checks = (s.dropChecks c die).ctl.checks ∧ t.cnt 0xE06004 = s.cnt 0xE06004 + (dieSegs c die).length ∧
      keepsBut [.copy, .counts, .fault, .ctl, .free] s t := by
  have hin : (s.plyBuf die c.par.tenant).dieChecks c die = s.dieChecks c die := by
    unfold State.dieChecks
    rw [plyBuf_checks]
  generalize hp : ply c.name c.shard 1 c.pass (passKeep (keepCount c.par) c.pass)
    (checkedInputs (s.dieChecks c die) (c.name, c.shard) (dieSegs c die)) = p
  obtain ⟨m, d⟩ := p
  obtain ⟨hf, hch, hcnt⟩ := plyCounted s (a := 0xE06004) (by simp) die c.par.tenant (dieSegs c die).length
    (plyCycles (s.plyBuf die c.par.tenant) (checkedInputs (s.dieChecks c die) (c.name, c.shard) (dieSegs c die))) d true
  generalize hv : (((s.plyBuf die c.par.tenant).bump 0xE06004 (dieSegs c die).length).bump 0xE0600A
    (plyCycles (s.plyBuf die c.par.tenant) (checkedInputs (s.dieChecks c die) (c.name, c.shard) (dieSegs c die)))).countDups d true = v at hf hch hcnt
  have hscore := scoreDups_frame v d (dupFrom (dieFrom c die))
  have hdrop := dropChecks_frame (v.scoreDups d (dupFrom (dieFrom c die))) c die
  have hall := (hf.trans' hscore (rs := [.ctl, .counts, .free, .fault]) (by simp) (by simp)).trans' hdrop (rs := [.ctl, .counts, .free, .fault]) (by simp) (by simp)
  have hset := setCopy_frame ((v.scoreDups d (dupFrom (dieFrom c die))).dropChecks c die)
    { c with dealt := put c.dealt die 0, segs := c.segs.filter fun x => x.1 != die, dieHanks := c.dieHanks ++ [(die, m)] }
  change ∃ t c', execDiePly c.name c.shard die s = .next t ∧ _
  unfold execDiePly
  refine exists_live₂ hrun (u := ((v.scoreDups d (dupFrom (dieFrom c die))).dropChecks c die).setCopy
    { c with dealt := put c.dealt die 0, segs := c.segs.filter fun x => x.1 != die, dieHanks := c.dieHanks ++ [(die, m)] }) ?_
    ⟨findCopy_setCopy (x := c) ?_, lk_put_same _ _ _, ?_, rfl, ?_, ?_, ?_⟩ fun _ _ ⟨a, b, c, d, e, g, f⟩ => ⟨a, b, c, d, e, g, f.withQueue⟩
  · simp only [hc]
    rw [if_neg (by simp [hdone, hold])]
    rw [hin, hp, hv]
  · exact (findCopy_congr (hall .copy (by simp)) _ _).trans hc
  · simp
  · refine (congrArg CtlS.checks (hset .ctl (by simp))).trans (dropChecks_congr ?_ c die)
    exact (congrArg CtlS.checks (hscore .ctl (by simp))).trans hch
  · rw [hset.cnt (by simp), hdrop.cnt (by simp), hscore.cnt (by simp), hcnt]
  · exact hall.trans' hset (by simp) (by simp)

/-! ### The module ply (R180) -/

/-- The inputs of a module ply with the spindles that are named for them. -/
def moduleFrom (c : CopyQ) : List (Nat × Hank) :=
  (c.open_.toList.map fun x => ((c.plySp.head?.map (·.2)).getD 0, x)) ++ c.dieHanks.map fun x => ((lk c.plySp x.1).getD 0, x.2)

theorem exec_modulePly_open (s : State) (c : CopyQ) (late : Bool) (hrun : s.running = true) (hc : s.findCopy c.name c.shard = some c)
    (hready : moduleReady c = true) (hold : s.olderCopy c.name.skein moduleReady = false) (hd : c.dieHanks ≠ []) (hstop : c.stop = false) :
    ∃ t c', exec (.modulePly c.name c.shard late) s = .next t ∧ t.findCopy c.name c.shard = some c' ∧ c'.dieHanks = [] ∧
      c'.open_ = some (ply c.name c.shard 2 c.pass (passKeep (keepCount c.par) c.pass)
        (c.open_.toList ++ (sortBy (fun (a b : Nat × Hank) => a.1 < b.1) c.dieHanks).map (·.2))).1 ∧
      t.cnt 0xE06005 = s.cnt 0xE06005 + c.dieHanks.length ∧ keepsBut [.copy, .counts, .fault, .ctl, .free] s t := by
  generalize hdies : (sortBy (fun (a b : Nat × Hank) => a.1 < b.1) c.dieHanks).map (·.2) = dies
  have hlen : dies.length = c.dieHanks.length := by rw [← hdies, List.length_map, length_sortBy]
  generalize hp : ply c.name c.shard 2 c.pass (passKeep (keepCount c.par) c.pass) (c.open_.toList ++ dies) = p
  obtain ⟨m, d⟩ := p
  obtain ⟨x, l, rfl⟩ : ∃ x l, dies = x :: l := List.exists_cons_of_ne_nil fun h => hd (List.length_eq_zero_iff.1 (by rw [← hlen, h]; rfl))
  obtain ⟨hf, hch, hcnt⟩ := plyCounted s (a := 0xE06005) (by simp) 2 c.par.tenant (x :: l).length
    (plyCycles (s.plyBuf 2 c.par.tenant) (c.open_.toList ++ x :: l)) d true
  generalize hv : (((s.plyBuf 2 c.par.tenant).bump 0xE06005 (x :: l).length).bump 0xE0600A
    (plyCycles (s.plyBuf 2 c.par.tenant) (c.open_.toList ++ x :: l))).countDups d true = v at hf hch hcnt
  have hscore := scoreDups_frame v d (dupFrom (moduleFrom c))
  have hset := setCopy_frame (v.scoreDups d (dupFrom (moduleFrom c))) { c with dieHanks := [], open_ := some m }
  have hall := hf.trans' hscore (rs := [.ctl, .counts, .free, .fault]) (by simp) (by simp)
  change ∃ t c', execModulePly c.name c.shard late s = .next t ∧ _
  unfold execModulePly
  refine exists_live₂ hrun (u := (v.scoreDups d (dupFrom (moduleFrom c))).setCopy { c with dieHanks := [], open_ := some m }) ?_
    ⟨findCopy_setCopy (x := c) ?_, rfl, rfl, ?_, ?_⟩ fun _ _ ⟨a, b, c, d, f⟩ => ⟨a, b, c, d, f.withQueue⟩
  · simp only [hc]
    rw [if_neg (by simp [hready, hold])]
    rw [hdies, hp]
    simp only [List.isEmpty_cons, Bool.false_eq_true, if_false, hstop, Bool.not_false, if_true]
    rw [hv]
    rfl
  · exact (findCopy_congr (hall .copy (by simp)) _ _).trans hc
  · rw [hset.cnt (by simp), hscore.cnt (by simp), hcnt, hlen]
  · exact hall.trans' hset (by simp) (by simp)

/-! ### The fabric ply (R178, R182) -/

/-- A sealed hank carries its own digest, which leaves the digest field out (R172). -/
theorem sealHank_digest (h : Hank) : (sealHank h).digest = hankDigest (sealHank h) := by
  unfold sealHank
  dsimp only
  unfold hankDigest
  dsimp only

theorem exec_fabricPly_ready (s : State) (q : QName) (h : HomeQ) (late : Bool) (hrun : s.running = true) (hq : s.findHome q = some h) (hname : h.name = q)
    (hready : s.fabricReady h = true) (hold : s.olderHome q.skein s.fabricReady = false) (hin : fabricInputs h ≠ []) :
    ∃ t g m, exec (.fabricPly q late) s = .next t ∧ t.findHome q = some g ∧ g.phase = 3 ∧ g.merged = some m ∧
      m.entries = (ply q 0 3 0 (keepCount h.par) (fabricInputs h)).1.entries ∧ m.boundary = (ply q 0 3 0 (keepCount h.par) (fabricInputs h)).1.boundary ∧
      (h.missing ≠ [] → m.missing = true) ∧ m.digest = hankDigest m ∧ t.cnt 0xE06006 = s.cnt 0xE06006 + (fabricInputs h).length ∧
      keepsBut [.home, .counts, .fault, .ctl, .free] s t := by
  generalize hp : ply q 0 3 0 (keepCount h.par) (fabricInputs h) = p
  obtain ⟨m, d⟩ := p
  generalize hcyc : (s.plyBuf 3 h.par.tenant).reg 0x403005 * (fabricInputs h).length * passCount (keepCount h.par) +
    cdiv ((fabricInputs h).foldl (fun n x => n + (realEntries x).length) 0) ((s.plyBuf 3 h.par.tenant).reg 0x403004) = cyc
  obtain ⟨hf, -, hcnt⟩ := plyCounted s (a := 0xE06006) (by simp) 3 h.par.tenant (fabricInputs h).length cyc d false
  generalize hv : (((s.plyBuf 3 h.par.tenant).bump 0xE06006 (fabricInputs h).length).bump 0xE0600A cyc).countDups d false = v at hf hcnt
  generalize hm : sealHank { m with missing := m.missing || !h.missing.isEmpty } = out
  have hscore := scoreNodes_frame v h (fabricInputs h)
  generalize hw : v.scoreNodes h (fabricInputs h) = w at hscore
  generalize hl : (late || w.pastDeadline (q.skein + 1)) = b1
  generalize hb : (h.par.r != 0 && out.boundary != 0) = b2
  have hb1 := bumpIf_frame w b1 0xE01002
  have hb2 := bumpIf_frame (w.bumpIf b1 0xE01002) b2 0xE0600C
  have hset := setHome_frame ((w.bumpIf b1 0xE01002).bumpIf b2 0xE0600C) { h with phase := 3, merged := some out, integrity := h.integrity || out.integrity }
  have hall := (hf.trans' hscore (rs := [.ctl, .counts, .free, .fault]) (by simp) (by simp)).trans' (hb1.trans hb2) (rs := [.ctl, .counts, .free, .fault])
    (by simp) (by simp)
  change ∃ t g m, execFabricPly q late s = .next t ∧ _
  unfold execFabricPly
  refine exists_live₃ (y := { h with phase := 3, merged := some out, integrity := h.integrity || out.integrity }) (z := out) hrun (u := ((w.bumpIf b1 0xE01002).bumpIf b2 0xE0600C).setHome
    { h with phase := 3, merged := some out, integrity := h.integrity || out.integrity }) ?_
    ⟨?_, rfl, rfl, ?_, ?_, ?_, ?_, ?_, ?_⟩ fun _ _ _ ⟨a, b, c, d, e, f, g, i, k⟩ => ⟨a, b, c, d, e, f, g, i, k.withQueue⟩
  · simp only [hq]
    rw [if_neg (by simp [hready, hold])]
    rw [hp, hcyc]
    simp only [List.isEmpty_iff, hin, if_false]
    rw [hv, hw, hl]
    subst hm
    rw [hb]
  · subst hname
    refine findHome_setHome (h := { h with phase := 3, merged := some out, integrity := h.integrity || out.integrity }) (x := h) ?_
    exact (findHome_congr (hall .home (by simp)) _).trans hq
  · rw [← hm]; rfl
  · rw [← hm]; rfl
  · rw [← hm]
    intro hne
    simp [sealHank, hne]
  · rw [← hm]; exact sealHank_digest _
  · rw [hset.cnt (by simp), State.cnt_bumpIf, State.cnt_bumpIf, hscore.cnt (by simp), hcnt]
    simp
  · exact hall.trans' hset (by simp) (by simp)

/-! ### Resending (R187) -/

theorem exec_hankResendRequest_sent (s : State) (src p : Nat) (c : CopyQ) (h : Hank) (hrun : s.running = true) (hc : s.findCopy c.name c.shard = some c)
    (hs : c.sent = some h) :
    ∃ t, exec (.hankResendRequest src c.name c.shard p) s = .next t ∧ t.hasSent src 0x20 (.hank h) ∧ keepsBut [.net, .counts] s t := by
  change ∃ t, execHankResendRequest src c.name c.shard p s = .next t ∧ _
  unfold execHankResendRequest
  refine exists_live hrun (u := s.sendAt src 0x20 c.par.tenant c.epoch false (.hank h)) ?_ ⟨sendAt_hasSent _ _ _ _ _ _ _ (.inl rfl), sendAt_frame _ _ _ _ _ _ _⟩
    fun _ ⟨a, f⟩ => ⟨a, f.withQueue⟩
  simp only [hc, hs]

end Sys2Proof.Machine
end

section
/-! SUPPORT. What stays once a copy has sent its module hank (R180): the rules follow the functions by which waiting queries are placed and dealt. -/

namespace Sys2Proof.Machine

/-- A copy of a query has sent its module hank in the state `o`: later states keep memory, the rings, what waits at the transport, and the copy with its hank. -/
structure HankSent (q : QName) (sh : Nat) (hk : Hank) (o t : State) : Prop where
  mem : t.mem = o.mem
  rings : t.rings = o.rings
  waits : ∀ p ∈ o.net.unacked, p ∈ t.net.unacked
  copies : ∀ x ∈ t.copy, x.name = q → x.shard = sh → x.sent = some hk ∧ x.phase = 4
  stays : ∃ x ∈ t.copy, x.name = q ∧ x.shard = sh

namespace HankSent

variable {q : QName} {sh : Nat} {hk : Hank} {o s t : State}

/-! ### Rules of the predicate itself -/

/-- What keeps memory, the rings, the transport and the copies. -/
theorem keep (h : HankSent q sh hk o s) {ps : List Part} (f : keepsBut ps s t) (hps : Part.mem ∉ ps ∧ Part.rings ∉ ps ∧ Part.net ∉ ps ∧ Part.copy ∉ ps) :
    HankSent q sh hk o t := by
  obtain ⟨hm, hr, hn, hc⟩ := hps
  have hcopy : t.copy = s.copy := f .copy hc
  exact ⟨(f .mem hm : t.mem = s.mem).trans h.mem, (f .rings hr : t.rings = s.rings).trans h.rings,
    fun p hp => (f .net hn : t.net = s.net) ▸ h.waits p hp, hcopy ▸ h.copies, hcopy ▸ h.stays⟩

/-- A state written out as a record beside them. -/
theorem aside (h : HankSent q sh hk o s) {pending regs blobs cum run last dict poison time spin ctl home passes filters rerank idx regWait upd builds
      dense emb tier flash ports map fault sched link sec pwr mgmtOut free} :
    HankSent q sh hk o (State.mk pending regs blobs cum run last dict s.mem poison time spin ctl home s.copy passes filters rerank idx regWait upd builds
      dense emb tier flash ports s.net map fault sched s.rings link sec pwr mgmtOut free) := ⟨h.mem, h.rings, h.waits, h.copies, h.stays⟩

/-- A change of copies that leaves their names and shards, and those of the sent hank their hank and phase. -/
theorem mapCopy (h : HankSent q sh hk o s) (f : CopyQ → CopyQ) (hf : ∀ x, (f x).name = x.name ∧ (f x).shard = x.shard)
    (hs : ∀ x ∈ s.copy, x.name = q → x.shard = sh → (f x).sent = some hk ∧ (f x).phase = 4) : HankSent q sh hk o { s with copy := s.copy.map f } := by
  refine ⟨h.mem, h.rings, h.waits, fun y hy hn hsh => ?_, ?_⟩
  · obtain ⟨x, hx, rfl⟩ := List.mem_map.1 hy
    exact hs x hx ((hf x).1 ▸ hn) ((hf x).2 ▸ hsh)
  · obtain ⟨x, hx, hn, hsh⟩ := h.stays
    exact ⟨f x, List.mem_map_of_mem hx, (hf x).1.trans hn, (hf x).2.trans hsh⟩

theorem ite {p : Prop} {_ : Decidable p} (h : HankSent q sh hk o s) (g : HankSent q sh hk o t) : HankSent q sh hk o (if p then s else t) := by
  split <;> assumption

theorem foldl {α : Type} {f : State → α → State} (l : List α) (h : HankSent q sh hk o s) (hf : ∀ t a, HankSent q sh hk o t → HankSent q sh hk o (f t a)) :
    HankSent q sh hk o (l.foldl f s) := by
  induction l generalizing s with
  | nil => exact h
  | cons a l ih => exact ih (hf s a h)

/-- A copy that is found holds the sent hank, if it is the one. -/
theorem found (h : HankSent q sh hk o s) {q' : QName} {sh' : Nat} {c : CopyQ} (e : s.findCopy q' sh' = some c) (hn : c.name = q) (hs : c.shard = sh) :
    c.sent = some hk ∧ c.phase = 4 := h.copies c (List.mem_of_find?_eq_some e) hn hs

/-! ### The rules of the functions -/

theorem setCopy (h : HankSent q sh hk o s) (c : CopyQ) (hc : c.name = q → c.shard = sh → c.sent = some hk ∧ c.phase = 4) :
    HankSent q sh hk o (s.setCopy c) := by
  refine h.mapCopy _ (fun x => ?_) fun x hx hn hs => ?_
  · split
    · simp_all
    · exact ⟨rfl, rfl⟩
  · split
    · rename_i e
      simp only [Bool.and_eq_true, beq_iff_eq] at e
      exact hc (e.1.symm.trans hn) (e.2.symm.trans hs)
    · exact h.copies x hx hn hs

/-- A found copy is set anew with its name, shard, hank and phase. -/
theorem setFound (h : HankSent q sh hk o s) {q' : QName} {sh' : Nat} {c d : CopyQ} (e : s.findCopy q' sh' = some c) (hname : d.name = c.name)
    (hshard : d.shard = c.shard) (hsent : d.sent = c.sent) (hphase : d.phase = c.phase) : HankSent q sh hk o (s.setCopy d) :=
  h.setCopy d fun hn hs => hsent ▸ hphase ▸ h.found e (hname ▸ hn) (hshard ▸ hs)

theorem stopLocal (h : HankSent q sh hk o s) (q' : QName) : HankSent q sh hk o (s.stopLocal q') := by
  refine h.mapCopy _ (fun x => ?_) fun x hx hn hs => ?_
  · split <;> exact ⟨rfl, rfl⟩
  · split <;> exact h.copies x hx hn hs

theorem bump (h : HankSent q sh hk o s) (k n) : HankSent q sh hk o (s.bump k n) := h.keep (bump_frame s k n) (by simp)

theorem bumpIf (h : HankSent q sh hk o s) (b k) : HankSent q sh hk o (s.bumpIf b k) := h.keep (bumpIf_frame s b k) (by simp)

theorem setReg (h : HankSent q sh hk o s) (k v) : HankSent q sh hk o (s.setReg k v) := h.aside

theorem setSp (h : HankSent q sh hk o s) (n p') : HankSent q sh hk o (s.setSp n p') := h.aside

theorem setHome (h : HankSent q sh hk o s) (h') : HankSent q sh hk o (s.setHome h') := h.aside

theorem setWq (h : HankSent q sh hk o s) (w) : HankSent q sh hk o (s.setWq w) := h.aside

theorem sendAt (h : HankSent q sh hk o s) (d k t e r m) : HankSent q sh hk o (s.sendAt d k t e r m) := by
  have f := sendAt_frame s d k t e r m
  have hcopy : (s.sendAt d k t e r m).copy = s.copy := f .copy (by simp)
  exact ⟨(f .mem (by simp)).trans h.mem, (f .rings (by simp)).trans h.rings, fun p hp => sendAt_unacked s d k t e r m p (h.waits p hp),
    hcopy ▸ h.copies, hcopy ▸ h.stays⟩

theorem sendEach (h : HankSent q sh hk o s) (dsts k t e m) : HankSent q sh hk o (s.sendEach dsts k t e m) := foldl _ h fun _ _ h => h.sendAt _ _ _ _ _ _

theorem tagHead (h : HankSent q sh hk o s) (res tenant bulk cost) : HankSent q sh hk o (s.tagHead res tenant bulk cost) := by
  unfold State.tagHead
  exact ite h ((h.setWq _).bumpIf _ _)

theorem dealTag (h : HankSent q sh hk o s) (tenant bulk cost) : HankSent q sh hk o (s.dealTag tenant bulk cost) := by
  unfold State.dealTag
  dsimp only
  split
  · exact h.tagHead _ _ _ _
  · exact ((h.tagHead _ _ _ _).setWq _).aside

theorem sleepQueue (h : HankSent q sh hk o s) (res tenant bulk) : HankSent q sh hk o (s.sleepQueue res tenant bulk) := by
  unfold State.sleepQueue
  exact ite h (h.setWq _)

theorem dealtOut (h : HankSent q sh hk o s) (tenant) : HankSent q sh hk o (s.dealtOut tenant) := (h.sleepQueue _ _ _).sleepQueue _ _ _

theorem countZero (h : HankSent q sh hk o s) (cycles) : HankSent q sh hk o (s.countZero cycles) := (h.bump _ _).bump _ _

theorem zeroFor (h : HankSent q sh hk o s) (p' held o' cycles) : HankSent q sh hk o (s.zeroFor p' held o' cycles) := by
  unfold State.zeroFor
  exact ite h (h.countZero _)

theorem startCopy (h : HankSent q sh hk o s) (kind src dst dsts) : HankSent q sh hk o (s.startCopy kind src dst dsts) := by
  unfold State.startCopy
  exact ite h h.aside

theorem flushSet (h : HankSent q sh hk o s) (sp k) : HankSent q sh hk o (s.flushSet sp k) := by
  unfold State.flushSet
  dsimp only
  split
  · exact h
  · split
    · rename_i e
      obtain ⟨_, -, e⟩ := Option.bind_eq_some_iff.1 e
      obtain ⟨c, hc, e⟩ := Option.map_eq_some_iff.1 e
      cases e
      exact (h.setSp _ _).setFound hc rfl rfl rfl rfl
    · exact h.setSp _ _

theorem flushSets (h : HankSent q sh hk o s) (sp) : HankSent q sh hk o (s.flushSets sp) := foldl _ h fun _ _ h => h.flushSet _ _

theorem zeroBobbin (h : HankSent q sh hk o s) (n o') : HankSent q sh hk o (s.zeroBobbin n o') := by
  refine ((((h.flushSets _).setSp _ _).countZero _).startCopy _ _ _ _).mapCopy _ (fun x => ?_) fun x hx hn hs => ?_
  · split <;> exact ⟨rfl, rfl⟩
  · split <;> exact (((((h.flushSets _).setSp _ _).countZero _).startCopy _ _ _ _).copies x hx hn hs)

theorem prepareSp (h : HankSent q sh hk o s) (n o') : HankSent q sh hk o (s.prepareSp n o') := by
  unfold State.prepareSp
  exact ite h (h.zeroBobbin _ _)

theorem bindSlot (h : HankSent q sh hk o s) (n slot q' temp) : HankSent q sh hk o (s.bindSlot n slot q' temp) := h.setSp _ _

theorem lendTables (h : HankSent q sh hk o s) {kind src dst qs u} (e : s.lendTables kind src dst qs = some u) : HankSent q sh hk o u.1 := by
  unfold State.lendTables at e
  simp only [Option.ite_none_left_eq_some] at e
  obtain ⟨-, e⟩ := e
  cases e
  exact (foldl _ (h.prepareSp _ _) fun _ _ h => h.bindSlot _ _ _ _).startCopy _ _ _ _

theorem copyTables (h : HankSent q sh hk o s) {kind src dst slots u} (e : s.copyTables kind src dst slots = some u) : HankSent q sh hk o u.1 := by
  obtain ⟨v, lent, rfl⟩ := Option.map_eq_some_iff.1 e
  exact h.lendTables lent

theorem takeItem (h : HankSent q sh hk o s) (n) : HankSent q sh hk o (s.takeItem n) := by
  unfold State.takeItem
  dsimp only
  split
  · split
    · exact h
    · split
      · exact ite (h.zeroBobbin _ _) h
      · split
        · exact h
        · exact (((h.zeroFor _ _ _ _).bumpIf _ _).aside).setSp _ _
  · exact h

theorem schedule (h : HankSent q sh hk o s) (n) : HankSent q sh hk o (s.schedule n) := by
  have taken : HankSent q sh hk o ((List.range 8).foldl (fun s _ => s.takeItem n) s) := foldl _ h fun _ _ h => h.takeItem _
  unfold State.schedule
  dsimp only
  split
  · exact taken
  · split
    · exact (taken.setSp _ _).bump _ _
    · exact taken

theorem placeCopy (h : HankSent q sh hk o s) {src c it qs u} (e : s.placeCopy src c it qs = some u) : HankSent q sh hk o u := by
  unfold State.placeCopy at e
  split at e
  · cases e
  · obtain ⟨v, lent, rfl⟩ := Option.map_eq_some_iff.1 e
    split at lent
    · exact (h.lendTables lent).setSp _ _
    · cases lent
      exact h.setSp _ _

theorem placeChecker (h : HankSent q sh hk o s) (n it) : HankSent q sh hk o (s.placeChecker n it) := by
  unfold State.placeChecker
  extract_lets qs
  split
  · exact h.bump _ _
  · rename_i e
    obtain ⟨c, -, e⟩ := Option.bind_eq_some_iff.1 e
    obtain ⟨v, placed, e⟩ := Option.map_eq_some_iff.1 e
    cases e
    exact (h.placeCopy placed).aside.schedule _

theorem sampleItem (h : HankSent q sh hk o s) (n it) : HankSent q sh hk o (s.sampleItem n it) := by
  unfold State.sampleItem
  exact ite h ((h.placeChecker _ _).bumpIf _ _)

theorem waitItem (h : HankSent q sh hk o s) (it qs) : HankSent q sh hk o (s.waitItem it qs) := h.aside

theorem enqueue (h : HankSent q sh hk o s) (n it) : HankSent q sh hk o (s.enqueue n it) := by
  unfold State.enqueue
  exact ite (h.setSp _ _) (h.waitItem _ _)

/-- An item is put into a queue, or waits, and is counted on the copies of its queries. -/
theorem noteItem (h : HankSent q sh hk o s) (mine : List (QName × Nat)) (at_ : Option Nat) :
    HankSent q sh hk o (mine.foldl (fun s q => match s.findCopy q.1 q.2 with | some c => s.setCopy (noteDealt c (at_.getD c.builder)) | none => s) s) := by
  refine foldl _ h fun t a h => ?_
  split
  · rename_i e
    exact h.setFound e rfl rfl rfl rfl
  · exact h

theorem dealItem (h : HankSent q sh hk o s) (h' c d) : HankSent q sh hk o (State.dealItem h' c s d) := by
  unfold State.dealItem
  dsimp only
  split
  · exact .sampleItem (.foldl _ ((h.enqueue _ _).noteItem _ _) fun _ _ h => ite h (h.dealTag _ _ _)) _ _
  · exact .foldl _ ((h.waitItem _ _).noteItem _ _) fun _ _ h => ite h (h.dealTag _ _ _)

theorem widenCharge (h : HankSent q sh hk o s) (h' n) : HankSent q sh hk o (s.widenCharge h' n) := ((h.setReg _ _).bump _ _).aside

theorem decideOnce (h : HankSent q sh hk o s) (q') : HankSent q sh hk o (s.decideOnce q') := by
  unfold State.decideOnce
  split
  · exact h
  · exact ite h (ite (h.setHome _) (ite (((((h.setHome _).bump _ _).bumpIf _ _).sendEach _ _ _ _ _).stopLocal _)
      ((((((h.setHome _).bump _ _).bump _ _).bumpIf _ _).widenCharge _ _).sendEach _ _ _ _ _)))

theorem decideLoop (h : HankSent q sh hk o s) (n q') : HankSent q sh hk o (Machine.decideLoop n q' s) := by
  induction n generalizing s with
  | zero => exact h
  | succ n ih =>
    unfold Machine.decideLoop
    dsimp only
    split
    · exact .ite (ih (h.decideOnce _)) (h.decideOnce _)
    · exact h.decideOnce _

theorem homeReport (h : HankSent q sh hk o s) (r) : HankSent q sh hk o (s.homeReport r) := by
  unfold State.homeReport
  split
  · exact h
  · exact ite h (((h.setHome _).bumpIf _ _).decideLoop _ _)

theorem stepDone (h : HankSent q sh hk o s) (q' sh') : HankSent q sh hk o (s.stepDone q' sh') := by
  unfold State.stepDone
  split
  · exact h
  · rename_i c e
    have stopped := (h.setFound e (d := { c with stop := c.stop || !canWiden c.par || c.status != 0 }) rfl rfl rfl rfl).bump 0xE05014 1
    exact ite (stopped.homeReport _) (stopped.sendAt _ _ _ _ _ _)

theorem dealAsks (h : HankSent q sh hk o s) (h' l) : HankSent q sh hk o (s.dealAsks h' l) := by
  unfold State.dealAsks
  extract_lets ds dealt done closed
  have hd : HankSent q sh hk o dealt := by
    unfold dealt
    split
    · exact foldl _ h fun _ _ h => h.dealItem _ _ _
    · exact h
  have hdone : HankSent q sh hk o done := by
    refine foldl _ hd fun t a h => ?_
    split
    · exact ite (h.stepDone _ _) h
    · exact h
  have hclosed : HankSent q sh hk o closed := by
    unfold closed
    split
    · exact ite hdone (hdone.dealtOut _)
    · exact hdone
  refine foldl _ hclosed fun t a h => ?_
  split
  · exact h.schedule _
  · exact h

theorem deal (h : HankSent q sh hk o s) (h' qs) : HankSent q sh hk o (s.deal h' qs) := by
  unfold State.deal
  refine .dealAsks (.foldl _ h fun t a h => ?_) _ _
  split
  · rename_i e
    exact h.setFound e rfl rfl rfl rfl
  · exact h

/-- A query that waits for placement is none that has sent its hank. -/
theorem placeWaiting (h : HankSent q sh hk o s) (n) : HankSent q sh hk o (s.placeWaiting n) := by
  unfold State.placeWaiting
  refine ite h ?_
  split
  · exact h
  rename_i c e
  have hother : c.name = q → c.shard = sh → False := fun hn hs => by
    have h4 : c.phase = 4 := (h.copies c (List.mem_of_find?_eq_some e) hn hs).2
    simpa [h4] using List.find?_some e
  have placed : ∀ {t : State}, HankSent q sh hk o t → HankSent q sh hk o (t.setCopy { c with phase := 3, plan := [n] }) := fun h =>
    h.setCopy _ fun hn hs => (hother hn hs).elim
  split
  · exact h
  refine ite ((placed h).deal _ _) ?_
  split
  · exact h
  split
  · rename_i e
    exact (placed (h.copyTables e)).deal _ _
  · exact h

end HankSent

end Sys2Proof.Machine
end

section
/-! PROOF. The last pass of a module ply (R180), and O15. -/

namespace Sys2Proof.Machine

/-- A module hank is one of level 2 (R172, R181). -/
theorem joinPasses_level (c : CopyQ) (ps : List Hank) : (joinPasses c ps).level = 2 := by
  match ps with
  | [] => rfl
  | [_] => rfl
  | _ :: _ :: _ => rfl

@[simp] theorem setSp_frame (s : State) (n : Nat) (p : Spindle) : keepsBut [.spin] s (s.setSp n p) := with_spin_frame s _

@[simp] theorem freeSlotsAll_frame (s : State) (q : QName × Nat) : keepsBut [.spin] s (s.freeSlotsAll q) := by
  refine keepsBut_foldl _ s fun s x => keepsBut_foldl _ s fun s y => ?_
  split
  · exact setSp_frame _ _ _
  · simp

/-- A copy whose home is elsewhere sends its module hank there, and waiting queries are placed (R148, R180). -/
theorem sendModule_away {s : State} {c x : CopyQ} (late : Bool) (hc : s.findCopy c.name c.shard = some x) (hhome : c.name.home ≠ s.node) :
    ∃ c', (s.sendModule c late).findCopy c.name c.shard = some c' ∧ c'.sent = some (joinPasses c c.passes) ∧ c'.phase = 4 ∧
      (s.sendModule c late).hasSent c.name.home 0x20 (.hank (joinPasses c c.passes)) ∧ (s.sendModule c late).mem = s.mem ∧
      (s.sendModule c late).rings = s.rings := by
  have hset := setCopy_frame s { c with sent := some (joinPasses c c.passes), phase := 4, waiting := [] }
  have hfree := freeSlotsAll_frame (s.setCopy { c with sent := some (joinPasses c c.passes), phase := 4, waiting := [] }) (c.name, c.shard)
  generalize hu : (s.setCopy { c with sent := some (joinPasses c c.passes), phase := 4, waiting := [] }).freeSlotsAll (c.name, c.shard) = u at hfree
  generalize hb : (late || (s.setCopy { c with sent := some (joinPasses c c.passes), phase := 4, waiting := [] }).pastDeadline c.name.skein) = b
  have hbump := bumpIf_frame u b 0xE01001
  generalize hv : u.bumpIf b 0xE01001 = v at hbump
  have hsend := sendAt_frame v c.name.home 0x20 c.par.tenant c.epoch false (.hank (joinPasses c c.passes))
  have hsent := sendAt_hasSent v c.name.home 0x20 c.par.tenant c.epoch false (.hank (joinPasses c c.passes)) (.inl rfl)
  generalize hw : v.sendAt c.name.home 0x20 c.par.tenant c.epoch false (.hank (joinPasses c c.passes)) = w at hsend hsent
  have hsv := (hset.trans' hfree (rs := [.copy, .spin]) (by simp) (by simp)).trans' hbump (rs := [.copy, .spin, .counts]) (by simp) (by simp)
  have hsw := hsv.trans' hsend (rs := [.copy, .spin, .counts, .net]) (by simp) (by simp)
  have hnode : v.node = s.node := congrArg (· % 4096) (hsv.reg (by simp) _)
  have hcopy : w.copy = (s.setCopy { c with sent := some (joinPasses c c.passes), phase := 4, waiting := [] }).copy :=
    ((hfree.trans' hbump (rs := [.spin, .counts]) (by simp) (by simp)).trans' hsend (rs := [.spin, .counts, .net]) (by simp) (by simp)) .copy (by simp)
  have heff : s.sendModule c late = w.spin.foldl (fun s x => s.placeWaiting x.1) w := by
    unfold State.sendModule
    dsimp only
    rw [hu, hb, hv, if_neg (by simpa [hnode] using hhome), hw]
  have hstart : HankSent c.name c.shard (joinPasses c c.passes) w w := by
    refine ⟨rfl, rfl, fun _ h => h, fun y hy hn hsh => ?_, ?_⟩
    · rw [hcopy] at hy
      obtain ⟨z, -, rfl⟩ := List.mem_map.1 hy
      split at hn
      · simp_all
      · rename_i hz
        simp_all
    · have hfound := findCopy_setCopy (c := { c with sent := some (joinPasses c c.passes), phase := 4, waiting := [] }) hc
      rw [hcopy]
      exact ⟨_, List.mem_of_find?_eq_some hfound, rfl, rfl⟩
  have hend := HankSent.foldl (f := fun s (x : Nat × Spindle) => s.placeWaiting x.1) w.spin hstart fun _ _ h => h.placeWaiting _
  rw [heff]
  generalize w.spin.foldl (fun s x => s.placeWaiting x.1) w = t at hend
  obtain ⟨y, hy, hyn, hys⟩ := hend.stays
  obtain ⟨c', hc'⟩ := Option.isSome_iff_exists.1 (List.find?_isSome (p := fun x : CopyQ => x.name == c.name && x.shard == c.shard) |>.2 ⟨y, hy, by simp [hyn, hys]⟩)
  have hkey := List.find?_some hc'
  simp only [Bool.and_eq_true, beq_iff_eq] at hkey
  obtain ⟨h1, h4⟩ := hend.copies c' (List.mem_of_find?_eq_some hc') hkey.1 hkey.2
  obtain ⟨k, hk, hkd⟩ := hsent
  exact ⟨c', hc', h1, h4, ⟨k, hend.waits k hk, hkd⟩, hend.mem.trans (hsw .mem (by simp)), hend.rings.trans (hsw .rings (by simp))⟩

/-- After the last pass of a stopped query, the module ply sends. -/
theorem execModulePly_last {s : State} {c : CopyQ} (late : Bool) (hc : s.findCopy c.name c.shard = some c) (hready : moduleReady c = true)
    (hold : s.olderCopy c.name.skein moduleReady = false) (hstop : c.stop = true) (hpass : c.pass = passCount (keepCount c.par)) :
    ∃ w m, execModulePly c.name c.shard late s =
        live s (fun _ => w.sendModule { c with passes := c.passes ++ [m], open_ := none, dieHanks := [] } late) ∧
      keepsBut [.ctl, .counts, .free, .fault] s w := by
  have hlive : ∀ f, live s f = live s fun _ => f s := fun _ => rfl
  unfold execModulePly
  rw [hlive]
  simp only [hc]
  rw [if_neg (by simp [hready, hold])]
  generalize ply c.name c.shard 2 c.pass (passKeep (keepCount c.par) c.pass)
    (c.open_.toList ++ (sortBy (fun (a b : Nat × Hank) => a.1 < b.1) c.dieHanks).map (·.2)) = p
  obtain ⟨m, d⟩ := p
  simp only [hstop, Bool.not_true, Bool.false_eq_true, if_false, ← hpass, Nat.lt_irrefl, decide_false, Bool.and_false]
  refine ⟨_, _, rfl, ?_⟩
  exact (plyCounted s (a := 0xE06005) (by simp) 2 _ _ _ d true).1.trans' (scoreDups_frame _ _ _) (by simp) (by simp)

theorem exec_modulePly_sends (s : State) (c : CopyQ) (late : Bool) (hrun : s.running = true) (hc : s.findCopy c.name c.shard = some c)
    (hready : moduleReady c = true) (hold : s.olderCopy c.name.skein moduleReady = false) (hstop : c.stop = true)
    (hpass : c.pass = passCount (keepCount c.par)) (hhome : c.name.home ≠ s.node) :
    ∃ t c' h, exec (.modulePly c.name c.shard late) s = .next t ∧ t.findCopy c.name c.shard = some c' ∧ c'.sent = some h ∧ c'.phase = 4 ∧ h.level = 2 ∧
      t.hasSent c.name.home 0x20 (.hank h) ∧ t.mem = s.mem ∧ t.rings = s.rings := by
  obtain ⟨w, m, he, hf⟩ := execModulePly_last late hc hready hold hstop hpass
  have hnode : w.node = s.node := congrArg (· % 4096) (hf.reg (by simp) _)
  obtain ⟨c', hc', hsent, hphase, hnet, hmem, hrings⟩ := sendModule_away (s := w) (c := { c with passes := c.passes ++ [m], open_ := none, dieHanks := [] }) late
    ((findCopy_congr (hf .copy (by simp)) _ _).trans hc) (hnode ▸ hhome)
  change ∃ t c' h, execModulePly c.name c.shard late s = .next t ∧ _
  rw [he]
  exact exists_live₃ hrun rfl ⟨hc', hsent, hphase, joinPasses_level _ _, hnet, hmem.trans (hf .mem (by simp)), hrings.trans (hf .rings (by simp))⟩
    fun _ _ _ h => h

/-- Settles O15: a lemma for each clause; that of the sent hank follows the queries that are placed after it. -/
theorem pliesMerge : Obligations.PliesMerge := by
  unfold Obligations.PliesMerge
  exact ⟨exec_hankArrival_joins, exec_hankArrival_repeats, exec_hankArrival_wrong, exec_diePly_complete, exec_modulePly_open, exec_modulePly_sends,
    exec_fabricPly_ready, exec_hankResendRequest_sent⟩

end Sys2Proof.Machine
end

section
/-! SUPPORT. Indexes and what a build or a publish touches. -/

namespace Sys2Proof.Machine

/-! ### Completions (R442 to R445) -/

theorem complete_counts (s : State) (t seq kind status flags tag skein : Nat) (d : List Byte) (late : Nat) :
    countsBut [0xE0F00C] s (s.complete t seq kind status flags tag skein d late) := by
  unfold State.complete
  split
  · simp
  · exact (((store_frame s t _ _).countsBut (by simp) _).trans (countsBut_bump _ _ _)).trans ((setRing_frame _ _).countsBut (by simp) _)

/-- The completion of a tenant that is not in teardown counts. -/
theorem complete_counted (s : State) (t seq kind status flags tag skein : Nat) (d : List Byte) (late : Nat)
    (h : (s.sec.tenants.any fun r => r.tenant == t && r.down) = false) :
    (s.complete t seq kind status flags tag skein d late).cnt 0xE0F00C = s.cnt 0xE0F00C + 1 := by
  unfold State.complete
  rw [if_neg (by simp [h]), (setRing_frame _ _).cnt (by simp), State.cnt_bump_same, (store_frame s t _ _).cnt (by simp)]

/-- What waits at the transport waits while the transport stays. -/
theorem hasSent_congr {s t : State} {d k : Nat} {m : Msg} (h : t.net = s.net) (hs : s.hasSent d k m) : t.hasSent d k m := by
  unfold State.hasSent
  rw [h]
  exact hs

/-! ### The indexes of a Molset (R195) -/

theorem findIdx_congr {s t : State} (h : t.idx = s.idx) (n i : Nat) : t.findIdx n i = s.findIdx n i := by
  unfold State.findIdx
  rw [h]

@[simp] theorem setIdx_frame (s : State) (x : Idx) : keepsBut [.idx] s (s.setIdx x) := with_idx_frame s _

/-- An index is found by its number and tenant. -/
theorem findIdx_desc {s : State} {n i : Nat} {x : Idx} (h : s.findIdx n i = some x) : x.desc.tenant = n ∧ x.desc.index = i := by
  simpa using List.find?_some h

/-- An index that is stored in its slot under its own name is found. -/
theorem findIdx_setIdx {s : State} {n i : Nat} {x y : Idx} (h : s.findIdx n i = some x) (hslot : y.slot = x.slot) (hn : y.desc.tenant = n)
    (hi : y.desc.index = i) : (s.setIdx y).findIdx n i = some y := by
  unfold State.findIdx at h
  exact find?_updIf h (by simp [hslot]) (by simp [hn, hi])

/-! ### Pages of the Molset's own structures (R72) -/

@[simp] theorem addFree_frame (s : State) (h : PHome) (n : Int) : keepsBut [.tier] s (s.addFree h n) := by
  cases h with
  | stack i => exact with_tier_frame s _
  | board ch map chunks dead endS => exact with_tier_frame s _

theorem giveHome_frame (s : State) (h : PHome) (bad : Bool) : keepsBut [.tier, .counts, .fault] s (s.giveHome h bad) := by
  unfold State.giveHome
  split
  · exact (bump_frame _ _ _).trans' (score_frame _ _ _ _) (by simp) (by simp)
  · exact (addFree_frame _ _ _).mono (by simp)

theorem giveHome_counts (s : State) (h : PHome) (bad : Bool) : countsBut [0xE0A014] s (s.giveHome h bad) := by
  unfold State.giveHome
  split
  · exact (countsBut_bump _ _ _).trans ((score_frame _ _ _ _).countsBut (by simp) _)
  · exact (addFree_frame _ _ _).countsBut (by simp) _

/-- What a page given up changes after its home. -/
theorem dropPage_after (s : State) (p : Page) : keepsBut [.tier, .mem, .poison] (s.giveHome p.home p.poisoned) (s.dropPage p) := by
  refine keepsBut.trans (t := if p.page < 2 ^ 27 then (s.giveHome p.home p.poisoned).zeroRange p.tenant (p.page * pageSize) pageSize
    else (s.giveHome p.home p.poisoned).zeroRange (hidMem p.tenant) (p.page * pageSize % 2 ^ 48) pageSize) ?_ ((with_tier_frame _ _).mono (by simp))
  split
  · exact (zeroRange_frame _ _ _ _).mono (by simp)
  · exact (zeroRange_frame _ _ _ _).mono (by simp)

theorem dropPage_frame (s : State) (p : Page) : keepsBut [.tier, .counts, .fault, .mem, .poison] s (s.dropPage p) :=
  (giveHome_frame s p.home p.poisoned).trans' (dropPage_after s p) (by simp) (by simp)

theorem dropPage_counts (s : State) (p : Page) : countsBut [0xE0A014] s (s.dropPage p) :=
  (giveHome_counts s p.home p.poisoned).trans ((dropPage_after s p).countsBut (by simp) _)

theorem tierRegs_frame (s : State) (t : Nat) : keepsBut [.regs] s (s.tierRegs t) :=
  (((setReg_frame _ _ _).trans (setReg_frame _ _ _)).trans (setReg_frame _ _ _)).trans (setReg_frame _ _ _)

theorem dropHidden_frame (s : State) (t : Nat) (pages : List Nat) : keepsBut [.tier, .counts, .fault, .mem, .poison, .regs] s (s.dropHidden t pages) := by
  unfold State.dropHidden
  split
  · simp
  · exact (keepsBut_foldl _ s dropPage_frame).trans' (tierRegs_frame _ _) (by simp) (by simp)

theorem dropHidden_counts (s : State) (t : Nat) (pages : List Nat) : countsBut [0xE0A014] s (s.dropHidden t pages) := by
  unfold State.dropHidden
  split
  · simp
  · exact (countsBut_foldl _ s dropPage_counts).trans ((tierRegs_frame _ _).countsBut (by simp) _)

theorem dropThatches_frame (s : State) (t : Nat) (hs : List Thatch) : keepsBut [.tier, .counts, .fault, .mem, .poison, .regs] s (s.dropThatches t hs) :=
  keepsBut_foldl _ s fun _ _ => dropHidden_frame _ _ _

theorem dropThatches_counts (s : State) (t : Nat) (hs : List Thatch) : countsBut [0xE0A014] s (s.dropThatches t hs) :=
  countsBut_foldl _ s fun _ _ => dropHidden_counts _ _ _

/-! ### The end of a build (R216, R217, R223, R306) -/

@[simp] theorem lentReturn_frame (s : State) (slot : Nat) : keepsBut [.ctl] s (s.lentReturn slot) := with_ctl_frame s _

@[simp] theorem finishBuild_frame (s : State) (t i st v p : Nat) : keepsBut [.builds, .rings, .counts, .mem, .poison] s (s.finishBuild t i st v p) := by
  unfold State.finishBuild
  split
  · simp
  · exact (with_builds_frame s _).trans' (complete_frame _ _ _ _ _ _ _ _ _ _) (by simp) (by simp)

theorem finishBuild_counts (s : State) (t i st v p : Nat) : countsBut [0xE0F00C] s (s.finishBuild t i st v p) := by
  unfold State.finishBuild
  split
  · simp
  · exact ((with_builds_frame s _).countsBut (by simp) _).trans (complete_counts _ _ _ _ _ _ _ _ _ _)

@[simp] theorem publishOver_frame (s : State) : keepsBut [.flash] s s.publishOver := by
  unfold State.publishOver
  split
  · exact with_flash_frame s _
  · simp

end Sys2Proof.Machine
end

section
/-! PROOF. Publish decisions (O21). -/

namespace Sys2Proof.Machine

/-! ### A build is dropped (R223) -/

/-- What dropping a build leaves of its index. -/
def Idx.dropped (x : Idx) (v : Nat) : Idx :=
  { x with
    build := none, publish := none, thatches := x.thatches.filter (·.st != 0), imgFails := [], shingleReports := [], heldWait := []
    held := if x.held.length ≤ 1 then x.held else x.held.filter fun im => im.version != v
    seqr := { x.seqr with succ := none, counts := x.seqr.counts.filter fun c => c.1 != v } }

theorem dropBuild_building {s : State} {x : Idx} {t i : Nat} (status : Nat) (hx : s.findIdx t i = some x) (hb : s.building x = true) :
    s.dropBuild t i status = (((((((s.dropThatches t (x.thatches.filter (·.st == 0))).setIdx (Idx.dropped x (nextVersion (s.liveVersion x)))).bump 0xE07010 1).setReg
      (pagedKey 0x4043 x.slot) 4).setReg (pagedKey 0x4049 x.slot) 0).lentReturn x.slot).finishBuild t i status 0 0).publishOver := by
  unfold State.dropBuild
  simp only [hx]
  rw [if_neg (by simp [hb])]
  rfl

/-- A dropped build (R223): neither build nor publish is left of the index, its state is 4, and the failure is counted in 0xE070:10. -/
theorem dropBuild_drops {s : State} {x : Idx} {t i : Nat} (status : Nat) (hx : s.findIdx t i = some x) (hb : s.building x = true) :
    ∃ y, (s.dropBuild t i status).findIdx t i = some y ∧ y.build = none ∧ y.publish = none ∧ (s.dropBuild t i status).reg (pagedKey 0x4043 x.slot) = 4 ∧
      (s.dropBuild t i status).cnt 0xE07010 = s.cnt 0xE07010 + 1 ∧
      keepsBut [.idx, .regs, .ctl, .counts, .builds, .rings, .mem, .poison, .tier, .fault, .flash] s (s.dropBuild t i status) := by
  rw [dropBuild_building status hx hb]
  generalize hv : nextVersion (s.liveVersion x) = v
  have hdrop := dropThatches_frame s t (x.thatches.filter (·.st == 0))
  have hdropc := dropThatches_counts s t (x.thatches.filter (·.st == 0))
  generalize s.dropThatches t (x.thatches.filter (·.st == 0)) = a at hdrop hdropc
  have hfound : (a.setIdx (Idx.dropped x v)).findIdx t i = some (Idx.dropped x v) :=
    findIdx_setIdx ((findIdx_congr (hdrop .idx (by simp)) t i).trans hx) rfl (findIdx_desc hx).1 (findIdx_desc hx).2
  have hset := setIdx_frame a (Idx.dropped x v)
  generalize a.setIdx (Idx.dropped x v) = b at hset hfound
  have hkey : pagedKey 0x4043 x.slot ≠ pagedKey 0x4049 x.slot := fun (h : (0x4043 * 256 + x.slot : Nat) = 0x4049 * 256 + x.slot) => by omega
  have hreg : (((b.bump 0xE07010 1).setReg (pagedKey 0x4043 x.slot) 4).setReg (pagedKey 0x4049 x.slot) 0).reg (pagedKey 0x4043 x.slot) = 4 := by
    rw [State.reg_setReg_ne _ _ hkey, State.reg_setReg_same]
  have hregs := (setReg_frame (b.bump 0xE07010 1) (pagedKey 0x4043 x.slot) 4).trans (setReg_frame _ (pagedKey 0x4049 x.slot) 0)
  have hcnt : (((b.bump 0xE07010 1).setReg (pagedKey 0x4043 x.slot) 4).setReg (pagedKey 0x4049 x.slot) 0).cnt 0xE07010 = s.cnt 0xE07010 + 1 := by
    rw [hregs.cnt (by simp), State.cnt_bump_same, hset.cnt (by simp), hdropc _ (by decide)]
  have hbump := (bump_frame b 0xE07010 1).trans' hregs (rs := [.counts, .regs]) (by simp) (by simp)
  generalize ((b.bump 0xE07010 1).setReg (pagedKey 0x4043 x.slot) 4).setReg (pagedKey 0x4049 x.slot) 0 = c at hreg hregs hcnt hbump
  have hlent := lentReturn_frame c x.slot
  have hfin := finishBuild_frame (c.lentReturn x.slot) t i status 0 0
  have hfinc := finishBuild_counts (c.lentReturn x.slot) t i status 0 0
  have hover := publishOver_frame ((c.lentReturn x.slot).finishBuild t i status 0 0)
  have hend := (hlent.trans' hfin (rs := [.ctl, .builds, .rings, .counts, .mem, .poison]) (by simp) (by simp)).trans' hover
    (rs := [.ctl, .builds, .rings, .counts, .mem, .poison, .flash]) (by simp) (by simp)
  refine ⟨Idx.dropped x v, ?_, rfl, rfl, (hend.reg (by simp) _).trans hreg, ?_, ?_⟩
  · rw [findIdx_congr (hend .idx (by simp)), findIdx_congr (hbump .idx (by simp))]
    exact hfound
  · rw [hover.cnt (by simp), hfinc _ (by decide), hlent.cnt (by simp), hcnt]
  · exact ((hdrop.trans' hset (rs := [.idx, .regs, .counts, .mem, .poison, .tier, .fault]) (by simp) (by simp)).trans' hbump
      (rs := [.idx, .regs, .counts, .mem, .poison, .tier, .fault]) (by simp) (by simp)).trans' hend (by simp) (by simp)

/-- A failed build is dropped, and Molsets are told (R223). -/
theorem failBuild_fails {s : State} {x : Idx} {t i : Nat} (status : Nat) (hx : s.findIdx t i = some x) (hb : s.building x = true) :
    ∃ y, (s.failBuild t i status).findIdx t i = some y ∧ y.build = none ∧ y.publish = none ∧ (s.failBuild t i status).reg (pagedKey 0x4043 x.slot) = 4 ∧
      (s.failBuild t i status).cnt 0xE07010 = s.cnt 0xE07010 + 1 ∧
      keepsBut [.idx, .regs, .ctl, .net, .counts, .builds, .rings, .mem, .poison, .tier, .fault, .flash] s (s.failBuild t i status) := by
  obtain ⟨y, hy, hbuild, hpub, hreg, hcnt, hf⟩ := dropBuild_drops status hx hb
  obtain ⟨l, hl⟩ : ∃ l, s.failBuild t i status = (s.dropBuild t i status).sendAll l 0x22 t false (.publishCancel t i status) := by
    unfold State.failBuild
    simp only [hx]
    rw [if_neg (by simp [hb])]
    exact ⟨_, rfl⟩
  have hsend := sendAll_frame (s.dropBuild t i status) l 0x22 t false (.publishCancel t i status)
  rw [hl]
  refine ⟨y, (findIdx_congr (hsend .idx (by simp)) t i).trans hy, hbuild, hpub, (hsend.reg (by simp) _).trans hreg, ?_, hf.trans' hsend (by simp) (by simp)⟩
  rw [sendAll_countsBut (s.dropBuild t i status) l 0x22 t false (m := .publishCancel t i status) rfl 0xE07010 (by decide), hcnt]

/-! ### A decision is taken (R220, R225) -/

/-- The publish that an index holds, in a state that takes acknowledgements: nothing but the index, its two registers and the transport has changed. -/
structure Published (s : State) (t i p v slot : Nat) (u : State) : Prop where
  found : ∃ y, u.findIdx t i = some y ∧ y.publish = some (p, v)
  state : u.reg (pagedKey 0x4043 slot) = 3
  tick : u.reg (pagedKey 0x4049 slot) = p
  frame : keepsBut [.idx, .regs, .net, .counts] s u

theorem Published.keep {s u w : State} {t i p v slot : Nat} (h : Published s t i p v slot u) (f : keepsBut [.net, .counts] u w) :
    Published s t i p v slot w := by
  obtain ⟨y, hy, hp⟩ := h.found
  exact ⟨⟨y, (findIdx_congr (f .idx (by simp)) t i).trans hy, hp⟩, (f.reg (by simp) _).trans h.state, (f.reg (by simp) _).trans h.tick,
    h.frame.trans' f (by simp) (by simp)⟩

/-- Acknowledgements are noted beside the publish (R220, R409). -/
theorem Published.publishAcked {s u : State} {t i p v slot : Nat} (h : Published s t i p v slot u) (src sh n : Nat) :
    Published s t i p v slot (u.publishAcked src t i sh n) := by
  obtain ⟨y, hy, hp⟩ := h.found
  unfold State.publishAcked
  simp only [hy]
  refine ⟨⟨_, findIdx_setIdx hy ?_ ?_ ?_, hp⟩, ((setIdx_frame _ _).reg (by simp) _).trans h.state, ((setIdx_frame _ _).reg (by simp) _).trans h.tick,
    h.frame.trans' (setIdx_frame _ _) (by simp) (by simp)⟩
  · rfl
  · exact (findIdx_desc hy).1
  · exact (findIdx_desc hy).2

theorem Published.foldl {α : Type} {f : State → α → State} {s u : State} {t i p v slot : Nat} (l : List α) (h : Published s t i p v slot u)
    (hf : ∀ u a, Published s t i p v slot u → Published s t i p v slot (f u a)) : Published s t i p v slot (l.foldl f u) := by
  induction l generalizing u with
  | nil => exact h
  | cons a l ih => exact ih (hf u a h)

theorem published_start {s : State} {x : Idx} (p v : Nat) {t i : Nat} {y : Idx} (hx : s.findIdx t i = some x) (hslot : y.slot = x.slot)
    (hdesc : y.desc = x.desc) (hp : y.publish = some (p, v)) :
    Published s t i p v x.slot (((s.setIdx y).setReg (pagedKey 0x4043 x.slot) 3).setReg (pagedKey 0x4049 x.slot) p) := by
  have hkey : pagedKey 0x4043 x.slot ≠ pagedKey 0x4049 x.slot := fun (h : (0x4043 * 256 + x.slot : Nat) = 0x4049 * 256 + x.slot) => by omega
  have hregs := (setReg_frame (s.setIdx y) (pagedKey 0x4043 x.slot) 3).trans (setReg_frame _ (pagedKey 0x4049 x.slot) p)
  refine ⟨⟨y, (findIdx_congr (hregs .idx (by simp)) t i).trans ?_, hp⟩, ?_, State.reg_setReg_same _ _ _, (setIdx_frame s y).trans' hregs (by simp) (by simp)⟩
  · exact findIdx_setIdx hx hslot (hdesc ▸ (findIdx_desc hx).1) (hdesc ▸ (findIdx_desc hx).2)
  · rw [State.reg_setReg_ne _ _ hkey, State.reg_setReg_same]

/-- A decision whose tick is still to come is kept, and acknowledged. -/
theorem takePublish_kept {s : State} {x : Idx} {t i : Nat} (src p v : Nat) (hx : s.findIdx t i = some x) (hp : s.ftick < p) :
    Published s t i p v x.slot (s.takePublish src t i p v) := by
  unfold State.takePublish
  simp only [hx]
  rw [if_neg (by omega)]
  refine (published_start p v (y := { x with publish := some (p, v) }) hx rfl rfl rfl).foldl _ fun u a h => h.foldl _ fun u d h => ?_
  split
  · exact h.publishAcked _ _ _
  · exact h.keep (send_frame _ _ _ _ _)

/-! ### The rows (R219, R220, R223, R225) -/

theorem ftick_congr {s t : State} (h2 : t.reg 0x201002 = s.reg 0x201002) (h3 : t.reg 0x201003 = s.reg 0x201003) : t.ftick = s.ftick := by
  unfold State.ftick State.now State.regI
  rw [h2, h3]

theorem Published.of {s u w : State} {t i p v slot : Nat} (f : keepsBut [.idx, .regs, .net, .counts] s u) (h : Published u t i p v slot w) :
    Published s t i p v slot w := ⟨h.found, h.state, h.tick, f.trans h.frame⟩

/-- A row that leaves a publish pending. -/
theorem Published.exists {s u : State} {f : State → State} {t i p v slot : Nat} (hrun : s.running = true) (he : f s = u) (h : Published s t i p v slot u) :
    ∃ w y, live s f = .next w ∧ w.findIdx t i = some y ∧ y.publish = some (p, v) ∧ w.reg (pagedKey 0x4043 slot) = 3 ∧ w.reg (pagedKey 0x4049 slot) = p ∧
      keepsBut [.idx, .regs, .net, .counts] s w := by
  obtain ⟨y, hy, hp⟩ := h.found
  exact exists_live₂ hrun he ⟨hy, hp, h.state, h.tick, h.frame⟩ fun _ _ ⟨a, b, c, d, k⟩ => ⟨a, b, c, d, k.withQueue⟩

/-- The sequencer's decision, made known here and to every copy, flash holder and home. -/
theorem decision_published {s : State} {x : Idx} {t i : Nat} (p v : Nat) {y : Idx} (l : List Nat) (here : State → Bool) (hx : s.findIdx t i = some x)
    (hslot : y.slot = x.slot) (hdesc : y.desc = x.desc) (hp : y.publish = some (p, v)) (htick : s.ftick < p) {u w : State}
    (hu : u = ((s.setIdx y).setReg (pagedKey 0x4043 x.slot) 3).setReg (pagedKey 0x4049 x.slot) p)
    (hw : w = u.sendAll l 0x22 t false (.publish t i p v)) :
    Published s t i p v x.slot (if here w then w.takePublish w.node t i p v else w) := by
  have hstart := published_start p v hx hslot hdesc hp
  rw [← hu] at hstart
  have hsend : keepsBut [.net, .counts] u w := hw ▸ sendAll_frame u l 0x22 t false (.publish t i p v)
  have hpub := hstart.keep hsend
  have hother : ∀ k : Nat, k < 0x404300 → w.reg k = s.reg k := fun k hk => by
    have h1 : k ≠ pagedKey 0x4043 x.slot := fun (e : k = 0x4043 * 256 + x.slot) => by omega
    have h2 : k ≠ pagedKey 0x4049 x.slot := fun (e : k = 0x4049 * 256 + x.slot) => by omega
    rw [hsend.reg (by simp), hu, State.reg_setReg_ne _ _ h2, State.reg_setReg_ne _ _ h1, (setIdx_frame s y).reg (by simp)]
  have hft : w.ftick = s.ftick := ftick_congr (hother _ (by decide)) (hother _ (by decide))
  split
  · obtain ⟨z, hz, -⟩ := hpub.found
    have hzy : w.findIdx t i = some y := by
      rw [findIdx_congr (hsend .idx (by simp)), hu,
        findIdx_congr (((setReg_frame (s.setIdx y) (pagedKey 0x4043 x.slot) 3).trans (setReg_frame _ (pagedKey 0x4049 x.slot) p)) .idx (by simp))]
      exact findIdx_setIdx hx hslot (hdesc ▸ (findIdx_desc hx).1) (hdesc ▸ (findIdx_desc hx).2)
    exact .of hpub.frame (hslot ▸ takePublish_kept w.node p v hzy (hft ▸ htick))
  · exact hpub

theorem exec_allStaged_decides (s : State) (x : Idx) (b : Build) (rs : List (Nat × Nat)) (hrun : s.running = true)
    (hx : s.findIdx x.desc.tenant x.desc.index = some x) (hb : x.build = some b) (hseq : s.isSequencer x.desc.tenant x.desc.index = true) (hp : b.p = none)
    (hst : s.isStaged x { b with staged := b.staged ++ rs.filter fun r => !b.staged.contains r } = true)
    (ht : s.ftick < max b.req.publish (s.ftick + s.reg 0x404006)) :
    ∃ t y, exec (.allStaged x.desc.tenant ⟨x.desc.index, rs⟩) s = .next t ∧ t.findIdx x.desc.tenant x.desc.index = some y ∧
      y.publish = some (max b.req.publish (s.ftick + s.reg 0x404006), nextVersion (s.liveVersion x)) ∧ t.reg (pagedKey 0x4043 x.slot) = 3 ∧
      t.reg (pagedKey 0x4049 x.slot) = max b.req.publish (s.ftick + s.reg 0x404006) ∧ keepsBut [.idx, .regs, .net, .counts] s t := by
  generalize hb1 : { b with staged := b.staged ++ rs.filter fun r => !b.staged.contains r } = b1 at hst
  obtain ⟨y, hy⟩ : ∃ y, y = { x with
    build := some { b1 with p := some (max b.req.publish (s.ftick + s.reg 0x404006)), started := true }
    publish := some (max b.req.publish (s.ftick + s.reg 0x404006), nextVersion (s.liveVersion x)) } := ⟨_, rfl⟩
  obtain ⟨u, hu⟩ : ∃ u, u = (((s.setIdx { x with build := some b1 }).setIdx y).setReg (pagedKey 0x4043 x.slot) 3).setReg (pagedKey 0x4049 x.slot)
    (max b.req.publish (s.ftick + s.reg 0x404006)) := ⟨_, rfl⟩
  have hpub := decision_published (s := s.setIdx { x with build := some b1 }) (x := { x with build := some b1 }) _ _ (u.publishNodes y b1.req.home)
    (fun w => (u.publishNodes y b1.req.home).contains w.node) (findIdx_setIdx hx rfl rfl rfl) (y := y) (by rw [hy]) (by rw [hy]) (by rw [hy]) ht hu rfl
  change ∃ t y, execAllStaged x.desc.tenant ⟨x.desc.index, rs⟩ s = .next t ∧ _
  unfold execAllStaged
  refine Published.exists hrun ?_ (.of ((setIdx_frame s { x with build := some b1 }).mono (by simp)) hpub)
  simp only [hx, hb]
  rw [if_neg (by simp [hseq, hp])]
  refine (if_neg ?_).trans ?_
  · rw [Bool.not_eq_true']
    subst hb1
    exact fun h => absurd (hst.symm.trans h) (by simp)
  · subst hu hy hb1
    rfl

theorem exec_allStaged_waits (s : State) (x : Idx) (b : Build) (rs : List (Nat × Nat)) (hrun : s.running = true)
    (hx : s.findIdx x.desc.tenant x.desc.index = some x) (hb : x.build = some b) (hseq : s.isSequencer x.desc.tenant x.desc.index = true) (hp : b.p = none)
    (hst : s.isStaged x { b with staged := b.staged ++ rs.filter fun r => !b.staged.contains r } = false) :
    ∃ t y c, exec (.allStaged x.desc.tenant ⟨x.desc.index, rs⟩) s = .next t ∧ t.findIdx x.desc.tenant x.desc.index = some y ∧ y.build = some c ∧
      (∀ r ∈ rs, r ∈ c.staged) ∧ c.p = none ∧ keepsBut [.idx] s t := by
  change ∃ t y c, execAllStaged x.desc.tenant ⟨x.desc.index, rs⟩ s = .next t ∧ _
  unfold execAllStaged
  refine exists_live₃ hrun (u := s.setIdx { x with build := some { b with staged := b.staged ++ rs.filter fun r => !b.staged.contains r } }) ?_
    ⟨findIdx_setIdx hx rfl rfl rfl, rfl, fun r hr => ?_, hp, setIdx_frame s _⟩ fun _ _ _ ⟨a, b, c, d, f⟩ => ⟨a, b, c, d, f.withQueue⟩
  · simp only [hx, hb]
    rw [if_neg (by simp [hseq, hp])]
    refine if_pos ?_
    rw [Bool.not_eq_true']
    exact hst
  · by_cases h : r ∈ b.staged
    · exact List.mem_append_left _ h
    · exact List.mem_append_right _ (List.mem_filter.2 ⟨hr, by simpa using h⟩)

theorem exec_publishDecision_kept (s : State) (src p v : Nat) (x : Idx) (hrun : s.running = true) (hx : s.findIdx x.desc.tenant x.desc.index = some x)
    (hp : s.ftick < p) :
    ∃ t y, exec (.publishDecision src x.desc.tenant x.desc.index p ⟨v, 0⟩) s = .next t ∧ t.findIdx x.desc.tenant x.desc.index = some y ∧
      y.publish = some (p, v) ∧ t.reg (pagedKey 0x4043 x.slot) = 3 ∧ t.reg (pagedKey 0x4049 x.slot) = p ∧ keepsBut [.idx, .regs, .net, .counts] s t := by
  change ∃ t y, execPublishDecision src x.desc.tenant x.desc.index p ⟨v, 0⟩ s = .next t ∧ _
  unfold execPublishDecision
  exact Published.exists hrun (if_pos rfl) (takePublish_kept src p v hx hp)

theorem exec_publishDecision_stale (s : State) (src p v : Nat) (x : Idx) (hrun : s.running = true) (hx : s.findIdx x.desc.tenant x.desc.index = some x)
    (hp : p ≤ s.ftick) :
    ∃ t, exec (.publishDecision src x.desc.tenant x.desc.index p ⟨v, 0⟩) s = .next t ∧ t.cnt 0xE0100B = s.cnt 0xE0100B + 1 ∧ t.reg 0x200104 = 4 ∧
      keepsBut [.regs, .counts, .time, .net, .fault, .mgmtOut] s t := by
  have hstale : s.takePublish src x.desc.tenant x.desc.index p v = s.stale := by
    unfold State.takePublish
    simp only [hx]
    exact if_pos hp
  change ∃ t, execPublishDecision src x.desc.tenant x.desc.index p ⟨v, 0⟩ s = .next t ∧ _
  unfold execPublishDecision
  exact exists_stale hrun ((if_pos rfl).trans hstale)

theorem exec_publishDecision_failed (s : State) (src p v st : Nat) (x : Idx) (hrun : s.running = true) (hx : s.findIdx x.desc.tenant x.desc.index = some x)
    (h0 : st ≠ 0) (h2 : st ≠ 0x0202) (hb : s.building x = true) :
    ∃ t y, exec (.publishDecision src x.desc.tenant x.desc.index p ⟨v, st⟩) s = .next t ∧ t.findIdx x.desc.tenant x.desc.index = some y ∧ y.build = none ∧
      y.publish = none ∧ t.reg (pagedKey 0x4043 x.slot) = 4 ∧ t.cnt 0xE07010 = s.cnt 0xE07010 + 1 := by
  change ∃ t y, execPublishDecision src x.desc.tenant x.desc.index p ⟨v, st⟩ s = .next t ∧ _
  unfold execPublishDecision
  by_cases hseq : s.isSequencer x.desc.tenant x.desc.index = true
  · obtain ⟨y, hy, hbuild, hpub, hreg, hcnt, -⟩ := failBuild_fails st hx hb
    refine exists_live₂ hrun ?_ ⟨hy, hbuild, hpub, hreg, hcnt⟩ fun _ _ h => h
    rw [if_neg (by simpa using h0), if_neg (by simpa using h2), if_pos hseq]
  · obtain ⟨y, hy, hbuild, hpub, hreg, hcnt, -⟩ := dropBuild_drops st hx hb
    refine exists_live₂ hrun ?_ ⟨hy, hbuild, hpub, hreg, hcnt⟩ fun _ _ h => h
    rw [if_neg (by simpa using h0), if_neg (by simpa using h2), if_neg hseq]

theorem exec_publishAck_noted (s : State) (src sh n : Nat) (x : Idx) (b : Build) (hrun : s.running = true) (hx : s.findIdx x.desc.tenant x.desc.index = some x)
    (hb : x.build = some b) :
    ∃ t y c, exec (.publishAck src x.desc.tenant x.desc.index sh n) s = .next t ∧ t.findIdx x.desc.tenant x.desc.index = some y ∧ y.build = some c ∧
      src ∈ c.acks ∧ (sh ≠ 0xFFFF → lk y.shingleReports sh = some n) ∧ keepsBut [.idx] s t := by
  change ∃ t y c, live s (fun s => s.publishAcked src x.desc.tenant x.desc.index sh n) = .next t ∧ _
  refine exists_live₃ hrun (u := s.setIdx { x with
      shingleReports := if sh == 0xFFFF then x.shingleReports else put x.shingleReports sh n
      build := x.build.map fun b => { b with acks := if b.acks.contains src then b.acks else b.acks ++ [src] } }) ?_
    ⟨findIdx_setIdx hx rfl rfl rfl, congrArg (Option.map _) hb, ?_, fun hsh => ?_, setIdx_frame s _⟩
    fun _ _ _ ⟨a, b, c, d, f⟩ => ⟨a, b, c, d, f.withQueue⟩
  · unfold State.publishAcked
    simp only [hx]
  · dsimp only
    split
    · rename_i h
      simpa using h
    · simp
  · dsimp only
    rw [if_neg (by simpa using hsh), lk_put_same]

theorem exec_publishAckTimeout_missing (s : State) (x : Idx) (b : Build) (p : Nat) (hrun : s.running = true)
    (hx : s.findIdx x.desc.tenant x.desc.index = some x) (hb : x.build = some b) (hp : b.p = some p)
    (hseq : s.isSequencer x.desc.tenant x.desc.index = true) (hmargin : p ≤ s.ftick + s.reg 0x404007) (hlate : s.ftick < p)
    (hacks : (s.publishNodes x b.req.home).all (fun n => b.acks.contains n) = false) :
    ∃ t y, exec (.publishAckTimeout x.desc.tenant x.desc.index) s = .next t ∧ t.findIdx x.desc.tenant x.desc.index = some y ∧ y.build = none ∧
      y.publish = none ∧ t.cnt 0xE07010 = s.cnt 0xE07010 + 1 ∧
      keepsBut [.idx, .regs, .ctl, .net, .counts, .builds, .rings, .mem, .poison, .tier, .fault, .flash] s t := by
  have hbuilding : s.building x = true := by simp [State.building, hb]
  obtain ⟨y, hy, hbuild, hpub, -, hcnt, hf⟩ := failBuild_fails 0x0207 hx hbuilding
  change ∃ t y, execPublishAckTimeout x.desc.tenant x.desc.index s = .next t ∧ _
  unfold execPublishAckTimeout
  refine exists_live₂ hrun ?_ ⟨hy, hbuild, hpub, hcnt, hf⟩ fun _ _ ⟨a, b, c, d, f⟩ => ⟨a, b, c, d, f.withQueue⟩
  simp only [hx, hb, hp, hseq, hacks]
  exact if_neg (by simp; omega)

/-- Settles O21: a lemma for each clause, over what is kept by a publish that is pending and by a build that is dropped. -/
theorem publishesAreDecided : Obligations.PublishesAreDecided := by
  unfold Obligations.PublishesAreDecided
  exact ⟨exec_allStaged_decides, exec_allStaged_waits, exec_publishDecision_kept, exec_publishDecision_stale, exec_publishDecision_failed,
    exec_publishAck_noted, exec_publishAckTimeout_missing⟩

end Sys2Proof.Machine
end

section
/-! PROOF. Staged shards and switches (O23). -/

namespace Sys2Proof.Machine

/-! ### Tables -/

theorem tabHeld_congr {s t : State} (h : t.emb.tabs = s.emb.tabs) (a n : Nat) : t.tabHeld a n = s.tabHeld a n := by
  unfold State.tabHeld
  rw [h]

@[simp] theorem setTab_frame (s : State) (x : Tab) : keepsBut [.emb] s (s.setTab x) := with_emb_frame s _

/-- A table that is stored in its slot under its own name is the one held. -/
theorem tabHeld_setTab {s : State} {a n : Nat} {x y : Tab} (h : s.tabHeld a n = some x) (hslot : y.slot = x.slot) (ht : y.tenant = x.tenant)
    (htab : y.table = x.table) (hstop : y.stop = x.stop) : (s.setTab y).tabHeld a n = some y := by
  unfold State.tabHeld at h
  have hx := List.find?_some h
  exact find?_updIf h (by simp [hslot]) (by simpa [ht, htab, hstop] using hx)

/-! ### A completion after what a row does (R442) -/

/-- What a completion adds to a state that has counted none yet. -/
theorem complete_after {s u : State} {ps : List Part} {ks : List Key} (t seq kind status flags tag skein : Nat) (d : List Byte) (late : Nat)
    (hf : keepsBut ps s u) (hc : countsBut ks s u) (hsec : Part.sec ∉ ps) (hk : (0xE0F00C : Key) ∉ ks)
    (hdown : (s.sec.tenants.any fun r => r.tenant == t && r.down) = false) :
    (u.complete t seq kind status flags tag skein d late).cnt 0xE0F00C = s.cnt 0xE0F00C + 1 ∧
      keepsBut (ps ++ [.rings, .counts, .mem, .poison]) s (u.complete t seq kind status flags tag skein d late) := by
  have he : u.sec = s.sec := hf .sec hsec
  refine ⟨?_, hf.trans' (complete_frame _ _ _ _ _ _ _ _ _ _) (by simp) (by simp)⟩
  rw [complete_counted _ _ _ _ _ _ _ _ _ _ (by rw [he]; exact hdown), hc _ hk]

/-! ### A shard is staged (R254) -/

/-- The stages left once a shard's is done. -/
def State.stagesBut (s : State) (tenant table shard : Nat) : State :=
  { s with emb := { s.emb with stages := s.emb.stages.filter fun y => !(y.tenant == tenant && y.table == table && y.shard == shard) } }

theorem stagesBut_stages (s : State) (tenant table shard : Nat) :
    ∀ q ∈ (s.stagesBut tenant table shard).emb.stages, ¬(q.tenant = tenant ∧ q.table = table ∧ q.shard = shard) := by
  intro q hq
  simp only [State.stagesBut, List.mem_filter, Bool.not_eq_true', Bool.and_eq_false_iff, beq_eq_false_iff_ne] at hq
  rintro ⟨h1, h2, h3⟩
  rcases hq.2 with (h | h) | h
  · exact h h1
  · exact h h2
  · exact h h3

theorem stagesBut_frame (s : State) (tenant table shard : Nat) : keepsBut [.emb] s (s.stagesBut tenant table shard) := with_emb_frame s _

/-- The coordinator's table with one more staged shard. -/
def Tab.stagedAlso (x : Tab) (shard : Nat) : Tab := { x with stagedShards := x.stagedShards ++ [shard] }

theorem exec_shardStageDone_here (s : State) (g : TStage) (x : Tab) (hrun : s.running = true)
    (hg : s.emb.stages.find? (fun y => y.tenant == g.tenant && y.table == g.table && y.shard == g.shard) = some g) (henc : g.encoded = true)
    (hmir : g.mirrorOk = true) (hx : s.tabHeld g.tenant g.table = some x) (hcoord : s.coordOf g.tenant g.table = some s.node) (hsh : g.shard < shardCount x)
    (hnew : g.shard ∉ x.stagedShards) (hdown : (s.sec.tenants.any fun r => r.tenant == g.tenant && r.down) = false) :
    ∃ t y, exec (.shardStageDone g.tenant g.table g.shard) s = .next t ∧ t.tabHeld g.tenant g.table = some y ∧ y.stagedShards = x.stagedShards ++ [g.shard] ∧
      (∀ q ∈ t.emb.stages, ¬(q.tenant = g.tenant ∧ q.table = g.table ∧ q.shard = g.shard)) ∧ t.cnt 0xE0F00C = s.cnt 0xE0F00C + 1 ∧
      keepsBut [.emb, .rings, .counts, .mem, .poison] s t := by
  have hstages := stagesBut_stages s g.tenant g.table g.shard
  have hbut := stagesBut_frame s g.tenant g.table g.shard
  have hset := setTab_frame (s.stagesBut g.tenant g.table g.shard) (x.stagedAlso g.shard)
  have hheld : ((s.stagesBut g.tenant g.table g.shard).setTab (x.stagedAlso g.shard)).tabHeld g.tenant g.table = some (x.stagedAlso g.shard) :=
    tabHeld_setTab (s := s.stagesBut g.tenant g.table g.shard) hx rfl rfl rfl rfl
  have hstages' : ((s.stagesBut g.tenant g.table g.shard).setTab (x.stagedAlso g.shard)).emb.stages = (s.stagesBut g.tenant g.table g.shard).emb.stages := rfl
  obtain ⟨hcnt, hf⟩ := complete_after g.tenant g.seq 9 0 0 g.tag g.tick (detail16 (g.version + g.shard * 65536) 0) 0 (hbut.trans hset)
    ((hbut.trans hset).countsBut (by simp) []) (by simp) (by simp) hdown
  have hemb : (((s.stagesBut g.tenant g.table g.shard).setTab (x.stagedAlso g.shard)).complete g.tenant g.seq 9 0 0 g.tag g.tick
      (detail16 (g.version + g.shard * 65536) 0) 0).emb = ((s.stagesBut g.tenant g.table g.shard).setTab (x.stagedAlso g.shard)).emb :=
    complete_frame _ _ _ _ _ _ _ _ _ _ .emb (by simp)
  change ∃ t y, execShardStageDone g.tenant g.table g.shard s = .next t ∧ _
  unfold execShardStageDone
  refine exists_live₂ hrun ?_ ⟨(tabHeld_congr (congrArg EmbS.tabs hemb) _ _).trans hheld, rfl, ?_, hcnt, hf.mono (by simp)⟩
    fun _ _ ⟨a, b, c, d, f⟩ => ⟨a, b, c, d, f.withQueue⟩
  · dsimp only
    simp only [hg]
    rw [if_neg (by simp [henc, hmir])]
    have hheld0 : (s.stagesBut g.tenant g.table g.shard).tabHeld g.tenant g.table = some x := hx
    have hcoord0 : (s.stagesBut g.tenant g.table g.shard).coordOf g.tenant g.table = some s.node := hcoord
    have hnode0 : (s.stagesBut g.tenant g.table g.shard).node = s.node := rfl
    unfold State.stagesBut at hheld0 hcoord0 hnode0 ⊢
    simp only [hheld0, hcoord0, hnode0]
    rw [if_pos (by simp), if_neg (by simp [hsh, hnew])]
    rfl
  · rw [hemb, hstages']
    exact hstages

theorem exec_shardStageDone_away (s : State) (g : TStage) (c : Nat) (hrun : s.running = true)
    (hg : s.emb.stages.find? (fun y => y.tenant == g.tenant && y.table == g.table && y.shard == g.shard) = some g) (henc : g.encoded = true)
    (hmir : g.mirrorOk = true) (hcoord : s.coordOf g.tenant g.table = some c) (hc : c ≠ s.node)
    (hdown : (s.sec.tenants.any fun r => r.tenant == g.tenant && r.down) = false) :
    ∃ t, exec (.shardStageDone g.tenant g.table g.shard) s = .next t ∧ t.hasSent c 0x23 (.staged g.tenant g.table g.shard) ∧
      (∀ q ∈ t.emb.stages, ¬(q.tenant = g.tenant ∧ q.table = g.table ∧ q.shard = g.shard)) ∧ t.cnt 0xE0F00C = s.cnt 0xE0F00C + 1 ∧
      keepsBut [.emb, .net, .rings, .counts, .mem, .poison] s t := by
  have hstages := stagesBut_stages s g.tenant g.table g.shard
  have hbut := stagesBut_frame s g.tenant g.table g.shard
  have hsend := sendRole_frame (s.stagesBut g.tenant g.table g.shard) c 0x23 g.tenant (.staged g.tenant g.table g.shard)
  have hsent := sendAt_hasSent (s.stagesBut g.tenant g.table g.shard) c 0x23 g.tenant s.epoch true (.staged g.tenant g.table g.shard) (.inl rfl)
  have hcnt0 := (hbut.countsBut (by simp) [0xE0C00B]).trans (sendAt_countsBut (s.stagesBut g.tenant g.table g.shard) c 0x23 g.tenant s.epoch true
    (m := .staged g.tenant g.table g.shard) rfl)
  obtain ⟨hcnt, hf⟩ := complete_after g.tenant g.seq 9 0 0 g.tag g.tick (detail16 (g.version + g.shard * 65536) 0) 0
    (hbut.trans' hsend (rs := [.emb, .net, .counts]) (by simp) (by simp)) hcnt0 (by simp) (by decide) hdown
  have hcomp := complete_frame ((s.stagesBut g.tenant g.table g.shard).sendRole c 0x23 g.tenant (.staged g.tenant g.table g.shard)) g.tenant g.seq 9 0 0 g.tag
    g.tick (detail16 (g.version + g.shard * 65536) 0) 0
  have hemb := (hsend.trans' hcomp (rs := [.net, .rings, .counts, .mem, .poison]) (by simp) (by simp)) .emb (by simp)
  change ∃ t, execShardStageDone g.tenant g.table g.shard s = .next t ∧ _
  unfold execShardStageDone
  refine exists_live hrun ?_ ⟨hasSent_congr (hcomp .net (by simp)) hsent, ?_, hcnt, hf.mono (by simp)⟩ fun _ ⟨a, b, c, f⟩ => ⟨a, b, c, f.withQueue⟩
  · dsimp only
    simp only [hg]
    rw [if_neg (by simp [henc, hmir])]
    have hcoord0 : (s.stagesBut g.tenant g.table g.shard).coordOf g.tenant g.table = some c := hcoord
    have hnode0 : (s.stagesBut g.tenant g.table g.shard).node = s.node := rfl
    unfold State.stagesBut at hcoord0 hnode0 ⊢
    simp only [hcoord0, hnode0]
    rw [if_neg (by simpa using hc)]
  · rw [show _ = (s.stagesBut g.tenant g.table g.shard).emb from hemb]
    exact hstages

theorem exec_shardStageDone_told (s : State) (t n sh : Nat) (x : Tab) (hrun : s.running = true)
    (hno : (s.emb.stages.any fun y => y.tenant == t && y.table == n && y.shard == sh) = false) (hhome : (tabShard s.map.entries t n sh).map (·.a) ≠ some s.node)
    (hx : s.tabHeld t n = some x) (hcoord : s.coordOf t n = some s.node) (hsh : sh < shardCount x) (hnew : sh ∉ x.stagedShards) :
    ∃ u y, exec (.shardStageDone t n sh) s = .next u ∧ u.tabHeld t n = some y ∧ y.stagedShards = x.stagedShards ++ [sh] ∧ keepsBut [.emb] s u := by
  have hnone : (s.emb.stages.find? fun y => y.tenant == t && y.table == n && y.shard == sh) = none := by
    rw [List.find?_eq_none]
    exact fun y hy h => absurd hno (by rw [List.any_eq_true.2 ⟨y, hy, h⟩]; simp)
  change ∃ u y, execShardStageDone t n sh s = .next u ∧ _
  unfold execShardStageDone
  refine exists_live₂ hrun ?_ ⟨tabHeld_setTab (y := x.stagedAlso sh) hx rfl rfl rfl rfl, rfl, setTab_frame _ _⟩ fun _ _ ⟨a, b, f⟩ => ⟨a, b, f.withQueue⟩
  dsimp only
  simp only [hnone, hx, hcoord]
  rw [if_neg (by simpa using hhome), if_neg (by simp [hsh, hnew])]
  rfl

/-! ### Switch decisions (R25, R255) -/

theorem exec_switchDecision_kept (s : State) (src t n p v : Nat) (hrun : s.running = true) (hv : v ≠ 0) (hp : s.ftick < p) :
    ∃ u, exec (.switchDecision src t n p v) s = .next u ∧ (∃ w ∈ u.emb.switches, w.tenant = t ∧ w.table = n ∧ w.version = v ∧ w.p = p ∧ w.ring = none) ∧
      u.hasSent src 0x23 (.switchAck t n) ∧ keepsBut [.emb, .net, .counts] s u := by
  obtain ⟨rest, hrest⟩ : ∃ r, r = s.emb.switches.filter fun w => !(w.tenant == t && w.table == n && w.ring.isNone) := ⟨_, rfl⟩
  obtain ⟨w, hw⟩ : ∃ w : TSwitch, w = { tenant := t, table := n, version := v, p, ring := none, need := [], acks := [] } := ⟨_, rfl⟩
  have hemb : ({ s with emb := { s.emb with switches := rest ++ [w] } }.send src 0x23 t (.switchAck t n)).emb.switches = rest ++ [w] :=
    congrArg EmbS.switches (send_frame _ src 0x23 t (.switchAck t n) .emb (by simp))
  change ∃ u, execSwitchDecision src t n p v s = .next u ∧ _
  unfold execSwitchDecision
  refine exists_live hrun (u := { s with emb := { s.emb with switches := rest ++ [w] } }.send src 0x23 t (.switchAck t n)) ?_
    ⟨⟨w, by rw [hemb]; simp, ?_⟩, sendAt_hasSent _ _ _ _ _ _ _ (.inl rfl), (with_emb_frame s _).trans' (send_frame _ _ _ _ _) (by simp) (by simp)⟩
    fun _ ⟨a, b, f⟩ => ⟨a, b, f.withQueue⟩
  · dsimp only
    rw [if_neg (by simpa using hv), if_neg (by omega), hrest, hw]
  · simp [hw]

theorem exec_switchDecision_withdrawn (s : State) (src t n p : Nat) (hrun : s.running = true) :
    ∃ u, exec (.switchDecision src t n p 0) s = .next u ∧ (∀ w ∈ u.emb.switches, ¬(w.tenant = t ∧ w.table = n ∧ w.ring = none)) ∧ keepsBut [.emb] s u := by
  change ∃ u, execSwitchDecision src t n p 0 s = .next u ∧ _
  unfold execSwitchDecision
  refine exists_live hrun (if_pos rfl) ⟨fun w hw => ?_, with_emb_frame s _⟩ fun _ ⟨a, f⟩ => ⟨a, f.withQueue⟩
  have hpass := (List.mem_filter.1 hw).2
  rintro ⟨h1, h2, h3⟩
  simp [h1, h2, h3] at hpass

theorem exec_switchDecision_stale (s : State) (src t n p v : Nat) (hrun : s.running = true) (hv : v ≠ 0) (hp : p ≤ s.ftick) :
    ∃ u, exec (.switchDecision src t n p v) s = .next u ∧ u.cnt 0xE0100B = s.cnt 0xE0100B + 1 ∧ u.reg 0x200104 = 4 ∧
      keepsBut [.regs, .counts, .time, .net, .fault, .mgmtOut] s u := by
  change ∃ u, execSwitchDecision src t n p v s = .next u ∧ _
  unfold execSwitchDecision
  exact exists_stale hrun ((if_neg (by simpa using hv)).trans (if_pos hp))

theorem exec_switchAck_noted (s : State) (src : Nat) (w : TSwitch) (hrun : s.running = true) (hw : w ∈ s.emb.switches) (hring : w.ring ≠ none)
    (hneed : src ∈ w.need) (hack : src ∉ w.acks) :
    ∃ t, exec (.switchAck src w.tenant w.table) s = .next t ∧ { w with acks := w.acks ++ [src] } ∈ t.emb.switches ∧ keepsBut [.emb] s t := by
  change ∃ t, execSwitchAck src w.tenant w.table s = .next t ∧ _
  unfold execSwitchAck
  refine exists_live hrun rfl ⟨List.mem_map.2 ⟨w, hw, ?_⟩, with_emb_frame s _⟩ fun _ ⟨a, f⟩ => ⟨a, f.withQueue⟩
  rw [if_pos (by simp [Option.isSome_iff_ne_none.2 hring, hneed])]
  simp [hack]

theorem exec_switchAckTimeout_missing (s : State) (w : TSwitch) (hrun : s.running = true)
    (hw : s.emb.switches.find? (fun y => y.tenant == w.tenant && y.table == w.table && y.ring.isSome) = some w) (hp : w.p ≤ s.ftick + 4)
    (hshort : switchShort w = true) (hdown : (s.sec.tenants.any fun r => r.tenant == w.tenant && r.down) = false) :
    ∃ t, exec (.switchAckTimeout w.tenant w.table) s = .next t ∧ (∀ y ∈ t.emb.switches, ¬(y.tenant = w.tenant ∧ y.table = w.table)) ∧
      t.cnt 0xE0F00C = s.cnt 0xE0F00C + 1 ∧ keepsBut [.emb, .net, .rings, .counts, .mem, .poison] s t := by
  have hsome : w.ring.isSome = true := by
    have h := List.find?_some hw
    simp only [Bool.and_eq_true] at h
    exact h.2
  obtain ⟨⟨seq, tag, tick⟩, hring⟩ := Option.isSome_iff_exists.1 hsome
  obtain ⟨a, ha⟩ : ∃ a : State, a = { s with emb := { s.emb with switches := s.emb.switches.filter fun y => !(y.tenant == w.tenant && y.table == w.table) } } :=
    ⟨_, rfl⟩
  have hbut : keepsBut [.emb] s a := ha ▸ with_emb_frame s _
  have hsend := sendAll_frame a w.need 0x23 w.tenant false (.switch w.tenant w.table w.p 0)
  have hcnt0 := (hbut.countsBut (by simp) [0xE0C00B]).trans (sendAll_countsBut a w.need 0x23 w.tenant false (m := .switch w.tenant w.table w.p 0) rfl)
  obtain ⟨hcnt, hf⟩ := complete_after w.tenant seq 0xA 0x0425 0 tag tick (detail16 w.version 0) 0
    (hbut.trans' hsend (rs := [.emb, .net, .counts]) (by simp) (by simp)) hcnt0 (by simp) (by decide) hdown
  have hemb : ((a.sendAll w.need 0x23 w.tenant false (.switch w.tenant w.table w.p 0)).complete w.tenant seq 0xA 0x0425 0 tag tick (detail16 w.version 0) 0).emb =
    a.emb := (hsend.trans' (complete_frame _ _ _ _ _ _ _ _ _ _) (rs := [.net, .rings, .counts, .mem, .poison]) (by simp) (by simp)) .emb (by simp)
  change ∃ t, execSwitchAckTimeout w.tenant w.table s = .next t ∧ _
  unfold execSwitchAckTimeout
  refine exists_live hrun ?_ ⟨fun y hy => ?_, hcnt, hf.mono (by simp)⟩ fun _ ⟨a, b, f⟩ => ⟨a, b, f.withQueue⟩
  · simp only [hw]
    rw [if_pos (by simp [hp, hshort])]
    unfold State.cancelSwitch
    simp only [hring]
    rw [ha]
  · rw [hemb, ha] at hy
    have hpass := (List.mem_filter.1 hy).2
    rintro ⟨h1, h2⟩
    simp [h1, h2] at hpass

/-- Settles O23: a lemma for each clause, over what a completion adds to the frame of a row. -/
theorem stagesAndSwitches : Obligations.StagesAndSwitches := by
  unfold Obligations.StagesAndSwitches
  exact ⟨exec_shardStageDone_here, exec_shardStageDone_away, exec_shardStageDone_told, exec_switchDecision_kept, exec_switchDecision_withdrawn,
    exec_switchDecision_stale, exec_switchAck_noted, exec_switchAckTimeout_missing⟩

end Sys2Proof.Machine
end

section
/-! PROOF. Loads, migrations, mirrors and replicas (O26). -/

namespace Sys2Proof.Machine

/-! ### The load window (R272, R273, R277) -/

theorem startWarm_frame (s : State) (m : Migration) : keepsBut [.net, .counts] s (s.startWarm m) := by
  unfold State.startWarm
  split
  · dsimp only
    split
    · simp
    · exact send_frame _ _ _ _ _
  · simp

theorem decideMigration_frame (s : State) (x : Tab) : keepsBut [.emb, .net, .counts] s (s.decideMigration x) := by
  have hemb : ∀ (t : State) (e : EmbS), keepsBut [.emb, .net, .counts] t { t with emb := e } := fun t e => (with_emb_frame t e).mono (by simp)
  unfold State.decideMigration
  dsimp only
  split
  · simp
  refine (hemb s { s.emb with reports := s.emb.reports.filter fun r => !(r.tenant == x.tenant && r.table == x.table) }).trans ?_
  split
  · split
    · simp
    · split
      · simp
      · refine keepsBut.trans (keepsBut.trans' (ps := [.counts]) ((bump_frame _ _ _).trans (bump_frame _ _ _)) (sendAll_frame _ _ _ _ _ _) (by simp) (by simp))
          (hemb _ _)
  · simp

theorem takeReport'_frame (s : State) (r : LoadRep) : keepsBut [.emb, .net, .counts] s (s.takeReport' r) := by
  unfold State.takeReport'
  split
  · simp
  split
  · simp
  · exact ((with_emb_frame s _).trans' (decideMigration_frame _ _) (by simp) (by simp)).trans
      (keepsBut_foldl _ _ fun _ _ => (startWarm_frame _ _).mono (by simp))

theorem replicate_frame (s : State) (x : Tab) : keepsBut [.emb, .net, .counts] s (s.replicate x) := by
  refine keepsBut_foldl _ s fun s p => ?_
  split
  · exact (send_frame _ _ _ _ _).trans' (with_emb_frame _ _) (by simp) (by simp)
  · simp

/-- What a table adds to the end of a load window: registers from 0x5816:00 on may change, but no other. -/
structure WindowStep (s t : State) : Prop where
  frame : keepsBut [.emb, .net, .regs, .counts] s t
  regs : ∀ k : Nat, k < 0x581600 → t.reg k = s.reg k

theorem WindowStep.refl (s : State) : WindowStep s s := ⟨by simp, fun _ _ => rfl⟩

theorem WindowStep.trans {s t u : State} (h : WindowStep s t) (g : WindowStep t u) : WindowStep s u :=
  ⟨h.frame.trans g.frame, fun k hk => (g.regs k hk).trans (h.regs k hk)⟩

theorem WindowStep.of {s t : State} (h : keepsBut [.emb, .net, .counts] s t) : WindowStep s t := ⟨h.mono (by simp), fun k _ => h.reg (by simp) k⟩

theorem WindowStep.setReg (s : State) (n v : Nat) : WindowStep s (s.setReg (0x581600 + n) v) :=
  ⟨(setReg_frame s _ _).mono (by simp), fun k hk => State.reg_setReg_ne s v fun (e : k = 0x581600 + n) => by omega⟩

theorem WindowStep.foldl {α : Type} {f : State → α → State} (l : List α) (s : State) (h : ∀ s a, WindowStep s (f s a)) : WindowStep s (l.foldl f s) := by
  induction l generalizing s with
  | nil => exact .refl s
  | cons a l ih => exact (h s a).trans (ih _)

theorem exec_loadWindowEnd_due (s : State) (hrun : s.running = true) (hdue : s.emb.windowStart + s.reg 0x58000E ≤ s.ftick) :
    ∃ t, exec .loadWindowEnd s = .next t ∧ t.emb.loads = [] ∧ t.emb.rowLoads = [] ∧ t.emb.reads = [] ∧ t.emb.windowStart = s.ftick ∧
      keepsBut [.emb, .net, .regs, .counts] s t := by
  have hlive : ∀ f, live s f = live s fun _ => f s := fun _ => rfl
  have heff : ∃ u, execLoadWindowEnd s = live s (fun _ => { u with emb := { u.emb with loads := [], rowLoads := [], reads := [], windowStart := u.ftick } }) ∧
      WindowStep s u := by
    unfold execLoadWindowEnd
    rw [hlive]
    dsimp only
    rw [if_neg (by omega)]
    refine ⟨_, rfl, WindowStep.foldl _ s fun s x => ?_⟩
    generalize (s.emb.loads.filter fun p => p.1.1 == x.tenant && p.1.2.1 == x.table).foldl (fun a p => a + p.2) 0 = load
    refine ((WindowStep.setReg s x.slot load).trans (.of (replicate_frame _ x))).trans ?_
    split
    · exact .refl _
    · split
      · split
        · exact .of (takeReport'_frame _ _)
        · exact .of ((sendRole_frame _ _ _ _ _).mono (by simp))
      · exact .refl _
  obtain ⟨u, he, hu⟩ := heff
  change ∃ t, execLoadWindowEnd s = .next t ∧ _
  rw [he]
  refine exists_live hrun rfl ⟨rfl, rfl, rfl, ftick_congr (hu.regs _ (by decide)) (hu.regs _ (by decide)), hu.frame.trans ((with_emb_frame u _).mono (by simp))⟩
    fun _ ⟨a, b, c, d, f⟩ => ⟨a, b, c, d, f.withQueue⟩

/-- Without the report of one home, no migration is decided (R273). -/
theorem decideMigration_waits {s : State} {x : Tab} {h : Nat} {e : MapEntry} (he : e ∈ tabShards s.map.entries x.tenant x.table) (ha : e.a = h)
    (hh : h ≠ 0xFFFF) (hno : ∀ r ∈ s.emb.reports, ¬(r.home = h ∧ r.tenant = x.tenant ∧ r.table = x.table)) : s.decideMigration x = s := by
  unfold State.decideMigration
  refine if_pos ?_
  rw [Bool.not_eq_true', List.all_eq_false]
  refine ⟨h, ?_, ?_⟩
  · rw [List.mem_eraseDups, List.mem_append]
    exact .inl (List.mem_filter.2 ⟨List.mem_map.2 ⟨e, he, ha⟩, by simpa using hh⟩)
  · rw [List.any_eq_true]
    rintro ⟨r, hr, hrh⟩
    obtain ⟨hr, hf⟩ := List.mem_filter.1 hr
    simp only [Bool.and_eq_true, beq_iff_eq] at hf hrh
    exact hno r hr ⟨hrh, hf.1, hf.2⟩

theorem exec_loadReport_kept (s : State) (src t n load h : Nat) (top : List (Nat × Nat)) (x : Tab) (e : MapEntry) (hrun : s.running = true)
    (hx : s.tabNow t n = some x) (hcoord : s.coordOf t n = some s.node) (he : e ∈ tabShards s.map.entries t n) (ha : e.a = h) (hh : h ≠ 0xFFFF) (hsrc : h ≠ src)
    (ht : x.tenant = t) (hn : x.table = n) (hno : ∀ r ∈ s.emb.reports, ¬(r.home = h ∧ r.tenant = t ∧ r.table = n)) :
    ∃ u, exec (.loadReport src t n load top) s = .next u ∧ { home := src, tenant := t, table := n, load := load, top := top } ∈ u.emb.reports ∧
      keepsBut [.emb] s u := by
  obtain ⟨r, hr⟩ : ∃ r : LoadRep, r = { home := src, tenant := t, table := n, load, top } := ⟨_, rfl⟩
  obtain ⟨rest, hrest⟩ : ∃ l, l = s.emb.reports.filter fun q => !(q.home == src && q.tenant == t && q.table == n) := ⟨_, rfl⟩
  have hwait : State.decideMigration { s with emb := { s.emb with reports := rest ++ [r] } } x = { s with emb := { s.emb with reports := rest ++ [r] } } := by
    refine decideMigration_waits (h := h) (e := e) (by subst ht hn; exact he) ha hh fun q hq => ?_
    rw [ht, hn]
    rcases List.mem_append.1 hq with hq | hq
    · rw [hrest] at hq
      exact hno q (List.mem_filter.1 hq).1
    · rw [List.mem_singleton.1 hq, hr]
      exact fun hc => hsrc hc.1.symm
  change ∃ u, live s (fun s => s.takeReport' { home := src, tenant := t, table := n, load, top }) = .next u ∧ _
  rw [← hr]
  refine exists_live hrun (u := { s with emb := { s.emb with reports := rest ++ [r] } }) ?_ ⟨List.mem_append_right _ (List.mem_singleton.2 rfl), with_emb_frame s _⟩
    fun _ ⟨a, f⟩ => ⟨a, f.withQueue⟩
  unfold State.takeReport'
  subst hr
  simp only [hx]
  rw [if_neg (by simp [hcoord]), ← hrest, hwait]
  simp

/-! ### Migrations (R25, R274, R275) -/

theorem exec_migrationDecision_kept (s : State) (m : Migration) (hrun : s.running = true) (ht : s.ftick < m.tick)
    (hnew : (s.emb.migs.any fun g => g.m == m) = false) :
    ∃ t, exec (.migrationDecision m) s = .next t ∧ t.emb.migs = s.emb.migs ++ [{ m := m }] ∧ keepsBut [.emb, .net, .counts] s t := by
  change ∃ t, execMigrationDecision m s = .next t ∧ _
  unfold execMigrationDecision
  refine exists_live hrun (u := State.startWarm { s with emb := { s.emb with migs := s.emb.migs ++ [({ m := m } : Mig)] } } m) ?_
    ⟨congrArg EmbS.migs (startWarm_frame _ m .emb (by simp)), (with_emb_frame s _).trans' (startWarm_frame _ _) (by simp) (by simp)⟩
    fun _ ⟨a, f⟩ => ⟨a, f.withQueue⟩
  rw [if_neg (by omega), if_neg (by simp [hnew])]

theorem exec_migrationDecision_stale (s : State) (m : Migration) (hrun : s.running = true) (ht : m.tick ≤ s.ftick) :
    ∃ t, exec (.migrationDecision m) s = .next t ∧ t.cnt 0xE0100B = s.cnt 0xE0100B + 1 ∧ t.reg 0x200104 = 4 ∧
      keepsBut [.regs, .counts, .time, .net, .fault, .mgmtOut] s t := by
  change ∃ t, execMigrationDecision m s = .next t ∧ _
  unfold execMigrationDecision
  exact exists_stale hrun (if_pos ht)

end Sys2Proof.Machine
end

section
/-! PROOF. Rows that arrive, and O26. -/

namespace Sys2Proof.Machine

/-! ### Rows that are put into the stacks (R252, R265, R274) -/

theorem baseImg_isSome_iff (s : State) (x : Tab) (v row : Nat) (m : Bool) : (s.baseImg x v row m).isSome = true ↔
    ∃ q ∈ s.emb.rows, q.tenant = x.tenant ∧ q.table = x.table ∧ q.version = v ∧ q.row = row ∧ q.mirror = m := by
  unfold State.baseImg
  simp [and_assoc]

theorem baseImg_putRow_same (s : State) (x : Tab) (v row : Nat) (m : Bool) (img : RowImg) : (s.putRow x v row m img).baseImg x v row m = some img := by
  unfold State.baseImg State.putRow
  dsimp only
  rw [List.find?_append, List.find?_eq_none.2 fun q hq => ?_]
  · simp
  · have h := (List.mem_filter.1 hq).2
    rw [Bool.not_eq_true'] at h
    rw [h]
    exact Bool.false_ne_true

/-- Rows that arrive: of the tables only the rows and their chains change, and no row of the version loses its base image. -/
structure RowsCome (x : Tab) (v : Nat) (m : Bool) (s t : State) : Prop where
  only : ∃ rows overlays, t = { s with emb := { s.emb with rows := rows, overlays := overlays } }
  stay : ∀ row, (s.baseImg x v row m).isSome = true → (t.baseImg x v row m).isSome = true

namespace RowsCome

variable {x : Tab} {v : Nat} {m : Bool} {s t u : State}

theorem refl (s : State) : RowsCome x v m s s := ⟨⟨_, _, rfl⟩, fun _ h => h⟩

theorem trans (h : RowsCome x v m s t) (g : RowsCome x v m t u) : RowsCome x v m s u := by
  obtain ⟨⟨_, _, rfl⟩, hs⟩ := h
  obtain ⟨⟨_, _, rfl⟩, gs⟩ := g
  exact ⟨⟨_, _, rfl⟩, fun row hr => gs row (hs row hr)⟩

theorem frame (h : RowsCome x v m s t) : keepsBut [.emb] s t := by
  obtain ⟨⟨_, _, rfl⟩, -⟩ := h
  exact with_emb_frame s _

theorem migs (h : RowsCome x v m s t) : t.emb.migs = s.emb.migs := by
  obtain ⟨⟨_, _, rfl⟩, -⟩ := h
  rfl

theorem warm (h : RowsCome x v m s t) : t.emb.warm = s.emb.warm := by
  obtain ⟨⟨_, _, rfl⟩, -⟩ := h
  rfl

theorem holders (h : RowsCome x v m s t) : t.emb.holders = s.emb.holders := by
  obtain ⟨⟨_, _, rfl⟩, -⟩ := h
  rfl

theorem putRow (s : State) (row : Nat) (img : RowImg) : RowsCome x v m s (s.putRow x v row m img) := by
  refine ⟨⟨_, _, rfl⟩, fun r hr => ?_⟩
  by_cases hrow : r = row
  · rw [hrow, baseImg_putRow_same]
    rfl
  · obtain ⟨q, hq, h1, h2, h3, h4, h5⟩ := (baseImg_isSome_iff s x v r m).1 hr
    refine (baseImg_isSome_iff _ x v r m).2 ⟨q, List.mem_append_left _ (List.mem_filter.2 ⟨hq, ?_⟩), h1, h2, h3, h4, h5⟩
    simp [h4, hrow]

theorem putOverlay (s : State) (w row : Nat) (mir : Bool) (e : ChainEnt) : RowsCome x v m s (s.putOverlay x w row mir e) := ⟨⟨_, _, rfl⟩, fun _ h => h⟩

theorem foldl {α : Type} {f : State → α → State} (l : List α) (s : State) (h : ∀ s a, RowsCome x v m s (f s a)) : RowsCome x v m s (l.foldl f s) := by
  induction l generalizing s with
  | nil => exact .refl s
  | cons a l ih => exact (h s a).trans (ih _)

/-- Rows that each get a base image have it at the end. -/
theorem foldl_rows {f : State → RowState → State} (l : List RowState) (s : State) (h : ∀ s r, RowsCome x v m s (f s r))
    (hr : ∀ s r, ((f s r).baseImg x v r.row m).isSome = true) : ∀ r ∈ l, ((l.foldl f s).baseImg x v r.row m).isSome = true := by
  induction l generalizing s with
  | nil => simp
  | cons a l ih =>
    intro r hm
    rcases List.mem_cons.1 hm with rfl | hm
    · exact (foldl l (f s r) h).stay _ (hr s r)
    · exact ih (f s a) r hm

/-- A row that gets its base image unless it has one, and then its chain. -/
theorem row {b : Prop} [Decidable b] {g : State → ChainEnt → State} (s : State) (r : RowState) (hb : b → (s.baseImg x v r.row m).isSome = true)
    (hg : ∀ s e, RowsCome x v m s (g s e)) :
    RowsCome x v m s (r.chain.foldl g (if b then s else s.putRow x v r.row m r.base)) ∧
      ((r.chain.foldl g (if b then s else s.putRow x v r.row m r.base)).baseImg x v r.row m).isSome = true := by
  have hc := fun t => RowsCome.foldl (f := g) r.chain t hg
  split
  · rename_i h
    exact ⟨hc s, (hc s).stay _ (hb h)⟩
  · exact ⟨(putRow s r.row r.base).trans (hc _), (hc _).stay _ (by rw [baseImg_putRow_same]; rfl)⟩

end RowsCome

theorem takeRows_row (x : Tab) (s : State) (r : RowState) :
    RowsCome x x.live false s (s.takeRows x [r]) ∧ ((s.takeRows x [r]).baseImg x x.live r.row false).isSome = true := by
  refine RowsCome.row s r (fun h => h) fun s e => ?_
  split
  · exact .refl s
  · exact .putOverlay s _ _ _ e

/-- Rows that are taken come with their base images (R274). -/
theorem takeRows_come (s : State) (x : Tab) (rs : List RowState) :
    RowsCome x x.live false s (s.takeRows x rs) ∧ ∀ r ∈ rs, ((s.takeRows x rs).baseImg x x.live r.row false).isSome = true :=
  ⟨RowsCome.foldl rs s fun s r => (takeRows_row x s r).1, RowsCome.foldl_rows rs s (fun s r => (takeRows_row x s r).1) fun s r => (takeRows_row x s r).2⟩

/-! ### Copies and hand-offs (R274, R471) -/

theorem partition_all {α : Type} {p : α → Bool} {l : List α} (h : ∀ a ∈ l, p a = true) : l.partition p = (l, []) := by
  rw [List.partition_eq_filter_filter, List.filter_eq_self.2 h, List.filter_eq_nil_iff.2 fun a ha => by simp [h a ha]]

theorem partition_none {α : Type} {p : α → Bool} {l : List α} (h : ∀ a ∈ l, p a = false) : l.partition p = ([], l) := by
  rw [List.partition_eq_filter_filter, List.filter_eq_nil_iff.2 fun a ha => by simp [h a ha], List.filter_eq_self.2 fun a ha => by simp [h a ha]]

/-- A packet of a tenant that is bound here is served. -/
theorem liveFor_bound {s : State} {t : Nat} {f : State → State} (h : s.bindingDiffers t s.node = false) :
    liveFor t s f = live s fun _ => f s := by
  have hlive : ∀ g, live s g = live s fun _ => g s := fun _ => rfl
  unfold liveFor
  rw [hlive]
  simp [h]

theorem exec_warmCopy_waits (s : State) (t n : Nat) (rs : List RowState) (x : Tab) (hrun : s.running = true) (hb : s.bindingDiffers t s.node = false)
    (hx : s.tabNow t n = some x) (hhome : ∀ r ∈ rs, s.homesRow x x.live r.row = false) :
    ∃ u, exec (.warmCopy t n rs) s = .next u ∧ (∀ r ∈ rs, (t, n, r) ∈ u.emb.warm) ∧ keepsBut [.emb] s u := by
  change ∃ u, execWarmCopy t n rs s = .next u ∧ _
  unfold execWarmCopy
  rw [liveFor_bound hb]
  obtain ⟨rest, hrest⟩ : ∃ l, l = s.emb.warm.filter fun w => !(w.1 == t && w.2.1 == n && rs.any fun r => r.row == w.2.2.row) := ⟨_, rfl⟩
  refine exists_live hrun (u := { s with emb := { s.emb with warm := rest ++ rs.map fun (r : RowState) => (t, n, r) } }) ?_
    ⟨fun r hr => List.mem_append_right _ (List.mem_map.2 ⟨r, hr, rfl⟩), with_emb_frame s _⟩
    fun _ ⟨a, f⟩ => ⟨a, f.withQueue⟩
  simp only [hx]
  rw [partition_none (l := rs) fun r hr => by simp [hhome r hr]]
  subst hrest
  rfl

theorem exec_warmCopy_taken (s : State) (t n : Nat) (rs : List RowState) (x : Tab) (hrun : s.running = true) (hb : s.bindingDiffers t s.node = false)
    (hx : s.tabNow t n = some x) (hhome : ∀ r ∈ rs, s.homesRow x x.live r.row = true ∧ s.migOf t n r.row = none) :
    ∃ u, exec (.warmCopy t n rs) s = .next u ∧ (∀ r ∈ rs, (u.baseImg x x.live r.row false).isSome = true) ∧ u.emb.warm = s.emb.warm ∧ keepsBut [.emb] s u := by
  have hwarm : (s.emb.warm.filter fun w => !(w.1 == t && w.2.1 == n && ([] : List RowState).any fun r => r.row == w.2.2.row)) ++
      ([] : List RowState).map (fun r => (t, n, r)) = s.emb.warm := by simp
  obtain ⟨hcome, himg⟩ := takeRows_come s x rs
  change ∃ u, execWarmCopy t n rs s = .next u ∧ _
  unfold execWarmCopy
  rw [liveFor_bound hb]
  refine exists_live hrun (u := s.takeRows x rs) ?_ ⟨himg, hcome.warm, hcome.frame⟩ fun _ ⟨a, b, f⟩ => ⟨a, b, f.withQueue⟩
  simp only [hx]
  rw [partition_all (l := rs) fun r hr => by simp [hhome r hr]]
  dsimp only
  rw [hwarm]

theorem exec_migrationHandoff_taken (s : State) (t n w : Nat) (rs : List RowState) (hs : List (Nat × Nat)) (x : Tab) (g : Mig) (hrun : s.running = true)
    (hb : s.bindingDiffers t s.node = false) (hx : s.tabNow t n = some x) (hg : g ∈ s.emb.migs) (ht : g.m.tenant = t) (hn : g.m.table = n)
    (hnode : g.m.b = s.node) (hh : g.handed = false) (hrows : ∀ r ∈ rs, r.row ∈ g.m.rows) :
    ∃ u, exec (.migrationHandoff t n rs hs w) s = .next u ∧ { g with handed := true } ∈ u.emb.migs ∧ u.cnt 0xE09104 = s.cnt 0xE09104 + w ∧
      (∀ r ∈ rs, (u.baseImg x x.live r.row false).isSome = true) ∧ (∀ h ∈ hs, (t, n, h.1, h.2) ∈ u.emb.holders) ∧ keepsBut [.emb, .counts] s u := by
  have hmine : (g.m.tenant == t && g.m.table == n && g.m.b == s.node && !g.handed && rs.all fun r => g.m.rows.contains r.row) = true := by
    simp [ht, hn, hnode, hh]
    exact hrows
  obtain ⟨b, hbump⟩ : ∃ b, b = s.bump 0xE09104 w := ⟨_, rfl⟩
  have hfb : keepsBut [.counts] s b := hbump ▸ bump_frame s _ w
  have hemb : b.emb = s.emb := hfb .emb (by simp)
  obtain ⟨a, ha⟩ : ∃ a : State, a = { b with emb := { b.emb with
      migs := updIf (fun g => g.m.tenant == t && g.m.table == n && g.m.b == s.node && !g.handed && rs.all fun r => g.m.rows.contains r.row)
        (fun g => { g with handed := true }) b.emb.migs
      warm := b.emb.warm.filter fun w => !(w.1 == t && w.2.1 == n && rs.any fun r => r.row == w.2.2.row)
      holders := b.emb.holders ++ hs.map fun (h : Nat × Nat) => (t, n, h.1, h.2) } } := ⟨_, rfl⟩
  have hfa : keepsBut [.emb] b a := ha ▸ with_emb_frame b _
  obtain ⟨hcome, himg⟩ := takeRows_come a x rs
  change ∃ u, execMigrationHandoff t n rs hs w s = .next u ∧ _
  unfold execMigrationHandoff
  rw [liveFor_bound hb]
  refine exists_live hrun (u := a.takeRows x rs) ?_ ⟨?_, ?_, himg, fun h hm => ?_, (hfb.trans' hfa (rs := [.counts, .emb]) (by simp) (by simp)).trans' hcome.frame
    (by simp) (by simp)⟩ fun _ ⟨a, b, c, d, f⟩ => ⟨a, b, c, d, f.withQueue⟩
  · simp only [hx]
    rw [if_neg ?_, ha, hbump]
    rw [Bool.not_eq_true', Bool.not_eq_false]
    exact List.any_eq_true.2 ⟨g, hg, hmine⟩
  · rw [hcome.migs, ha]
    exact List.mem_map.2 ⟨g, hemb ▸ hg, if_pos hmine⟩
  · rw [hcome.frame.cnt (by simp), hfa.cnt (by simp), hbump, State.cnt_bump_same]
  · rw [hcome.holders, ha]
    exact List.mem_append_right _ (List.mem_map.2 ⟨h, hm, rfl⟩)

/-! ### Steps (R275) -/

@[simp] theorem setStep_frame (s : State) (k : EStep) : keepsBut [.emb] s (s.setStep k) := with_emb_frame s _

theorem estep_key (s : State) (t n step : Nat) : (s.estep t n step).tenant = t ∧ (s.estep t n step).table = n ∧ (s.estep t n step).step = step := by
  unfold State.estep
  cases h : s.emb.steps.find? fun k => k.tenant == t && k.table == n && k.step == step with
  | none => exact ⟨rfl, rfl, rfl⟩
  | some k => simpa [and_assoc] using List.find?_some h

theorem estep_setStep (s : State) {k : EStep} {t n step : Nat} (ht : k.tenant = t) (hn : k.table = n) (hs : k.step = step) :
    (s.setStep k).estep t n step = k := by
  subst ht hn hs
  unfold State.estep State.setStep
  dsimp only
  rw [List.find?_append, List.find?_eq_none.2 fun q hq => ?_]
  · simp
  · have h := (List.mem_filter.1 hq).2
    rw [Bool.not_eq_true'] at h
    rw [h]
    exact Bool.false_ne_true

theorem exec_forwardComplete_counted (s : State) (t n step c : Nat) (hrun : s.running = true) :
    ∃ u, exec (.forwardComplete t n step c) s = .next u ∧ (u.estep t n step).expect = some ((s.estep t n step).expect.getD 0 + c) ∧ keepsBut [.emb] s u := by
  obtain ⟨ht, hn, hs⟩ := estep_key s t n step
  obtain ⟨k, hk⟩ : ∃ k : EStep, k = { s.estep t n step with expect := some ((s.estep t n step).expect.getD 0 + c) } := ⟨_, rfl⟩
  change ∃ u, execForwardComplete t n step c s = .next u ∧ _
  unfold execForwardComplete
  refine exists_live hrun (u := s.setStep k) (by rw [hk]) ⟨?_, setStep_frame s k⟩ fun _ ⟨a, f⟩ => ⟨a, f.withQueue⟩
  rw [estep_setStep s (k := k) (by rw [hk]; exact ht) (by rw [hk]; exact hn) (by rw [hk]; exact hs), hk]

/-! ### Images at a mirror (R254, R271) -/

/-- Images of rows at their mirror. -/
theorem mirrorRow_come (x : Tab) (v : Nat) (s : State) (r : RowState) :
    RowsCome x v true s (r.chain.foldl (fun s e => s.putOverlay x v r.row true e)
        (if (s.baseImg x v r.row true).isSome && !r.chain.isEmpty then s else s.putRow x v r.row true r.base)) ∧
      ((r.chain.foldl (fun s e => s.putOverlay x v r.row true e)
        (if (s.baseImg x v r.row true).isSome && !r.chain.isEmpty then s else s.putRow x v r.row true r.base)).baseImg x v r.row true).isSome = true :=
  RowsCome.row s r (fun h => (Bool.and_eq_true_iff.1 h).1) fun s e => .putOverlay s _ _ _ e

theorem exec_mirrorImages_merged (s : State) (src t n step v : Nat) (r : RowState) (rs : List RowState) (x : Tab) (hrun : s.running = true)
    (hb : s.bindingDiffers t s.node = false) (hx : s.tabAny t n = some x) (hstep : step ≠ 0) :
    ∃ u, exec (.mirrorImages src t n step v (r :: rs)) s = .next u ∧ (∀ q ∈ r :: rs, (u.baseImg x v q.row true).isSome = true) ∧
      u.hasSent src 0x23 (.imagesAck t n step (r.row / x.shardRows)) ∧ keepsBut [.emb, .net, .counts] s u := by
  have hcome := RowsCome.foldl (r :: rs) s fun s r => (mirrorRow_come x v s r).1
  have himg := RowsCome.foldl_rows (r :: rs) s (fun s r => (mirrorRow_come x v s r).1) fun s r => (mirrorRow_come x v s r).2
  generalize hu : (r :: rs).foldl (fun s r => r.chain.foldl (fun s e => s.putOverlay x v r.row true e)
    (if (s.baseImg x v r.row true).isSome && !r.chain.isEmpty then s else s.putRow x v r.row true r.base)) s = u at hcome himg
  have hsend := send_frame u src 0x23 t (.imagesAck t n step (r.row / x.shardRows))
  change ∃ u, execMirrorImages src t n step v (r :: rs) s = .next u ∧ _
  unfold execMirrorImages
  rw [liveFor_bound hb]
  refine exists_live hrun (u := u.send src 0x23 t (.imagesAck t n step (r.row / x.shardRows))) ?_ ⟨fun q hq => ?_, sendAt_hasSent _ _ _ _ _ _ _ (.inl rfl),
    hcome.frame.trans' hsend (by simp) (by simp)⟩ fun _ ⟨a, b, f⟩ => ⟨a, b, f.withQueue⟩
  · simp only [hx]
    rw [if_neg (by simpa using hstep)]
    dsimp only
    rw [hu]
    rfl
  · have hemb : (u.send src 0x23 t (.imagesAck t n step (r.row / x.shardRows))).emb = u.emb := hsend .emb (by simp)
    have h := himg q hq
    unfold State.baseImg at h ⊢
    rwa [hemb]

end Sys2Proof.Machine
end

section
/-! PROOF. Staged rows at a mirror, replicas, and O26. -/

namespace Sys2Proof.Machine

/-! ### Pages for staged rows (R72, R254, R288) -/

theorem takePage_frame {s t : State} {board : Bool} {h : PHome} (e : s.takePage board = some (t, h)) : keepsBut [.tier] s t := by
  obtain ⟨n, -, he⟩ := Option.map_eq_some_iff.1 e
  cases he
  exact addFree_frame s _ _

theorem allocPages_frame (s : State) (t : Nat) (board : Bool) (pages : List Nat) : keepsBut [.tier] s (s.allocPages t board pages) := by
  refine keepsBut_foldl _ s fun s n => ?_
  split
  · rename_i e
    exact (takePage_frame e).trans (with_tier_frame _ _)
  · simp

theorem takeHidden_frame (s : State) (t : Nat) (board : Bool) (n : Nat) : keepsBut [.tier, .counts, .regs] s (s.takeHidden t board n).1 := by
  unfold State.takeHidden
  split
  · exact (bump_frame _ _ _).mono (by simp)
  · exact (((allocPages_frame s t board _).trans (with_tier_frame _ _)).trans' (bump_frame _ _ _) (rs := [.tier, .counts]) (by simp) (by simp)).trans'
      (tierRegs_frame _ _) (by simp) (by simp)

theorem mirrorPages_frame (s : State) (x : Tab) (v row : Nat) : keepsBut [.emb, .tier, .counts, .regs] s (s.mirrorPages x v row) := by
  have h := takeHidden_frame s x.tenant (s.rowTier x.tenant) (shardPages x (row / x.shardRows))
  unfold State.mirrorPages
  split
  · simp
  · split
    rename_i t pages e
    rw [e] at h
    exact h.trans' (setTab_frame _ _) (by simp) (by simp)

theorem exec_mirrorImages_staged (s : State) (src t n v row : Nat) (img : RowImg) (x : Tab) (hrun : s.running = true) (hb : s.bindingDiffers t s.node = false)
    (hx : s.tabAny t n = some x) :
    ∃ u, exec (.mirrorImages src t n 0 v [{ row := row, base := img, chain := [] }]) s = .next u ∧ u.baseImg x v row true = some img ∧
      u.hasSent src 0x23 (.imagesAck t n 0 (row / x.shardRows)) ∧ keepsBut [.emb, .net, .counts, .tier, .regs, .mem, .poison] s u := by
  have hpages := mirrorPages_frame s x v row
  have hput : keepsBut [.emb] (s.mirrorPages x v row) ((s.mirrorPages x v row).putRow x v row true img) := with_emb_frame _ _
  have hsend := send_frame ((s.mirrorPages x v row).putRow x v row true img) src 0x23 t (.imagesAck t n 0 (row / x.shardRows))
  change ∃ u, execMirrorImages src t n 0 v [{ row := row, base := img, chain := [] }] s = .next u ∧ _
  unfold execMirrorImages
  rw [liveFor_bound hb]
  refine exists_live hrun (u := ((s.mirrorPages x v row).putRow x v row true img).send src 0x23 t (.imagesAck t n 0 (row / x.shardRows))) ?_
    ⟨?_, sendAt_hasSent _ _ _ _ _ _ _ (.inl rfl), ?_⟩ fun _ ⟨a, b, f⟩ => ⟨a, b, f.withQueue⟩
  · simp only [hx]
    simp only [beq_self_eq_true, if_true, List.head?_cons, List.foldl_cons, List.foldl_nil, List.isEmpty_nil, Bool.not_true, Bool.and_false, Bool.false_eq_true, if_false]
    rfl
  · have hemb : (((s.mirrorPages x v row).putRow x v row true img).send src 0x23 t (.imagesAck t n 0 (row / x.shardRows))).emb =
      ((s.mirrorPages x v row).putRow x v row true img).emb := hsend .emb (by simp)
    have h := baseImg_putRow_same (s.mirrorPages x v row) x v row true img
    unfold State.baseImg at h ⊢
    rwa [hemb]
  · exact (hpages.trans' hput (rs := [.emb, .tier, .counts, .regs]) (by simp) (by simp)).trans' hsend (by simp) (by simp)

/-! ### Replicas (R277, R279) -/

theorem exec_replicaReceive_joins (s : State) (src t n row view : Nat) (img : RowImg) (x : Tab) (hrun : s.running = true)
    (hb : s.bindingDiffers t s.node = false) (hx : s.tabNow t n = some x) (hhome : s.homeOf x x.live row = some src) (hold : ∀ o ∈ x.old, o.2 ≤ view)
    (hsize : replicaBytes img ≤ s.reg 0x580012) :
    ∃ u, exec (.replicaReceive src t n row view img) s = .next u ∧ (∃ r ∈ u.emb.replicas, r.tenant = t ∧ r.table = n ∧ r.row = row ∧ r.view = view ∧ r.img = img) ∧
      u.cnt 0xE09106 = s.cnt 0xE09106 + 1 ∧ keepsBut [.emb, .counts] s u := by
  obtain ⟨rest, hrest⟩ : ∃ l, l = s.emb.replicas.filter fun r => !(r.tenant == t && r.table == n && r.row == row) := ⟨_, rfl⟩
  obtain ⟨kept, hkept⟩ : ∃ l, l = makeRoom (s.reg 0x580012) (replicaBytes img) rest.length rest := ⟨_, rfl⟩
  obtain ⟨a, ha⟩ : ∃ a : State, a = { s with emb := { s.emb with
    replicas := kept ++ [{ tenant := t, table := n, row, view, used := s.emb.stamp, img }], stamp := s.emb.stamp + 1 } } := ⟨_, rfl⟩
  have hfa : keepsBut [.emb] s a := ha ▸ with_emb_frame s _
  have hbump := (bump_frame a 0xE09106 1).trans (bump_frame _ 0xE09107 (rest.length - kept.length))
  have hemb : ((a.bump 0xE09106 1).bump 0xE09107 (rest.length - kept.length)).emb = a.emb := hbump .emb (by simp)
  change ∃ u, execReplicaReceive src t n row view img s = .next u ∧ _
  unfold execReplicaReceive
  rw [liveFor_bound hb]
  refine exists_live hrun (u := (a.bump 0xE09106 1).bump 0xE09107 (rest.length - kept.length)) ?_
    ⟨⟨{ tenant := t, table := n, row, view, used := s.emb.stamp, img }, ?_, rfl, rfl, rfl, rfl, rfl⟩, ?_, hfa.trans' hbump (by simp) (by simp)⟩
    fun _ ⟨a, b, f⟩ => ⟨a, b, f.withQueue⟩
  · simp only [hx]
    have hany : (x.old.any fun o => decide (view < o.2)) = false := List.any_eq_false.2 fun o ho => by
      have := hold o ho
      simp [this]
    rw [if_neg (by simp [hhome, hany, hsize]), ← hrest, ← hkept, ← ha]
  · rw [hemb, ha]
    exact List.mem_append_right _ (List.mem_singleton.2 rfl)
  · rw [State.cnt_bump_ne _ _ (by decide), State.cnt_bump_same, hfa.cnt (by simp)]

theorem exec_replicaReceive_refused (s : State) (src t n row view : Nat) (img : RowImg) (x : Tab) (hrun : s.running = true)
    (hb : s.bindingDiffers t s.node = false) (hx : s.tabNow t n = some x)
    (hbad : s.homeOf x x.live row ≠ some src ∨ (∃ o ∈ x.old, view < o.2) ∨ s.reg 0x580012 < replicaBytes img) :
    exec (.replicaReceive src t n row view img) s = .next s := by
  change execReplicaReceive src t n row view img s = _
  unfold execReplicaReceive
  rw [liveFor_bound hb]
  refine live_idle hrun ?_
  simp only [hx]
  refine if_pos ?_
  rcases hbad with h | ⟨o, ho, h⟩ | h
  · simp [h]
  · simp only [Bool.or_eq_true, List.any_eq_true, decide_eq_true_eq]
    exact .inl (.inr ⟨o, ho, h⟩)
  · simp [h]

theorem dropReplicas_frame (s : State) (t n : Nat) (p : Nat → Bool) : keepsBut [.emb, .counts] s (s.dropReplicas t n p) :=
  (bump_frame _ _ _).trans' (with_emb_frame _ _) (by simp) (by simp)

theorem exec_replicaDrop_drops (s : State) (src t n row : Nat) (hrun : s.running = true) :
    ∃ u, exec (.replicaDrop src t n row) s = .next u ∧ (∀ r ∈ u.emb.replicas, ¬(r.tenant = t ∧ r.table = n ∧ r.row = row)) ∧
      u.hasSent src 0x23 (.dropAck t n row) ∧ keepsBut [.emb, .net, .counts] s u := by
  have hdrop := dropReplicas_frame s t n (· == row)
  have hsend := send_frame (s.dropReplicas t n (· == row)) src 0x23 t (.dropAck t n row)
  have hemb : ((s.dropReplicas t n (· == row)).send src 0x23 t (.dropAck t n row)).emb = (s.dropReplicas t n (· == row)).emb := hsend .emb (by simp)
  change ∃ u, execReplicaDrop src t n row s = .next u ∧ _
  unfold execReplicaDrop
  refine exists_live hrun rfl ⟨fun r hr => ?_, sendAt_hasSent _ _ _ _ _ _ _ (.inl rfl), hdrop.trans' hsend (by simp) (by simp)⟩
    fun _ ⟨a, b, f⟩ => ⟨a, b, f.withQueue⟩
  rw [hemb] at hr
  have hpass := (List.mem_filter.1 hr).2
  rintro ⟨h1, h2, h3⟩
  simp [h1, h2, h3] at hpass

/-- What goes on after a merge, as far as the holders of replicas go: they stay as they are. -/
structure HoldersStay (s t : State) : Prop where
  frame : keepsBut [.emb, .net, .counts] s t
  holders : t.emb.holders = s.emb.holders

theorem HoldersStay.refl (s : State) : HoldersStay s s := ⟨by simp, rfl⟩

theorem HoldersStay.trans {s t u : State} (h : HoldersStay s t) (g : HoldersStay t u) : HoldersStay s u :=
  ⟨h.frame.trans g.frame, g.holders.trans h.holders⟩

theorem HoldersStay.of {s t : State} (h : keepsBut [.net, .counts] s t) : HoldersStay s t :=
  ⟨h.mono (by simp), congrArg EmbS.holders (h .emb (by simp))⟩

theorem HoldersStay.setStep (s : State) (k : EStep) : HoldersStay s (s.setStep k) := ⟨(setStep_frame s k).mono (by simp), rfl⟩

theorem HoldersStay.foldl {α : Type} {f : State → α → State} (l : List α) (s : State) (h : ∀ s a, HoldersStay s (f s a)) : HoldersStay s (l.foldl f s) := by
  induction l generalizing s with
  | nil => exact .refl s
  | cons a l ih => exact (h s a).trans (ih _)

theorem HoldersStay.takeReady (s : State) (src t n step : Nat) (ds : List Nat) : HoldersStay s (s.takeReady src t n step ds) := by
  unfold State.takeReady
  dsimp only
  split
  · exact .refl s
  · exact .setStep s _

/-- The home's ready goes to the coordinator. -/
theorem HoldersStay.tellReady (s : State) (k : EStep) : HoldersStay s (match s.coordOf k.tenant k.table with
    | some c => if c == s.node then s.takeReady s.node k.tenant k.table k.step (k.delegates.map (·.1))
        else s.send c 0x23 k.tenant (.ready k.tenant k.table k.step (k.delegates.map (·.1)))
    | none => s) := by
  split
  · split
    · exact .takeReady _ _ _ _ _ _
    · exact .of (send_frame _ _ _ _ _)
  · exact .refl _

theorem HoldersStay.finishMerge (s : State) (k : EStep) : HoldersStay s (s.finishMerge k) := by
  unfold State.finishMerge
  split
  · exact .refl s
  dsimp only
  split
  · split
    · exact .setStep _ _
    · exact (HoldersStay.setStep _ _).trans (.tellReady _ _)
  · split
    · refine HoldersStay.trans ?_ (.setStep _ _)
      exact .foldl _ s fun s h => .of (send_frame _ _ _ _ _)
    · refine (HoldersStay.trans ?_ (.setStep _ _)).trans (.tellReady _ _)
      exact .foldl _ s fun s h => .of (send_frame _ _ _ _ _)

theorem exec_replicaDropAck_off (s : State) (src t n row : Nat) (hrun : s.running = true) :
    ∃ u, exec (.replicaDropAck src t n row) s = .next u ∧ (t, n, row, src) ∉ u.emb.holders ∧ keepsBut [.emb, .net, .counts] s u := by
  obtain ⟨a, ha⟩ : ∃ a : State, a = { s with emb := { s.emb with holders := s.emb.holders.filter fun h => h != (t, n, row, src) } } := ⟨_, rfl⟩
  have hfa : keepsBut [.emb, .net, .counts] s a := ha ▸ (with_emb_frame s _).mono (by simp)
  have hfold := HoldersStay.foldl (f := fun s (k : EStep) => (s.setStep { k with drops := k.drops.filter (· != (row, src)) }).finishMerge
      { k with drops := k.drops.filter (· != (row, src)) })
    (a.emb.steps.filter fun k => k.tenant == t && k.table == n && k.drops.contains (row, src)) a
    fun s k => (HoldersStay.setStep s _).trans (.finishMerge _ _)
  change ∃ u, execReplicaDropAck src t n row s = .next u ∧ _
  unfold execReplicaDropAck
  refine exists_live hrun (by rw [← ha]) ⟨?_, hfa.trans hfold.frame⟩ fun _ ⟨a, f⟩ => ⟨a, f.withQueue⟩
  rw [hfold.holders, ha]
  simp

/-- Settles O26: a lemma for each clause, over the rows that come and the holders that stay. -/
theorem rowsMigrateAndReplicate : Obligations.RowsMigrateAndReplicate := by
  unfold Obligations.RowsMigrateAndReplicate
  exact ⟨⟨exec_loadWindowEnd_due, exec_loadReport_kept, exec_migrationDecision_kept, exec_migrationDecision_stale, exec_warmCopy_waits, exec_warmCopy_taken,
    exec_migrationHandoff_taken, exec_forwardComplete_counted⟩, exec_mirrorImages_merged, exec_mirrorImages_staged, exec_replicaReceive_joins,
    exec_replicaReceive_refused, exec_replicaDrop_drops, exec_replicaDropAck_off⟩

end Sys2Proof.Machine
end

section
/-! PROOF. Changes of the composition map (O40). -/

namespace Sys2Proof.Machine

/-! ### What is sent to several peers waits for each of them -/

/-- What waits for its acknowledgement still waits after steps that only send. -/
theorem foldl_unacked {α : Type} {f : State → α → State} (h : ∀ s a, ∀ p ∈ s.net.unacked, p ∈ (f s a).net.unacked) (l : List α) (s : State) :
    ∀ p ∈ s.net.unacked, p ∈ (l.foldl f s).net.unacked := by
  induction l generalizing s with
  | nil => exact fun _ hp => hp
  | cons a l ih => exact fun p hp => ih _ p (h s a p hp)

theorem foldl_sendAt_hasSent (s : State) (k t : Nat) (r : Bool) {m : Msg} (hm : carriesData m = false) {d : Nat} {l : List Nat} (hd : d ∈ l) :
    (l.foldl (fun s d => s.sendAt d k t s.epoch r m) s).hasSent d k m := by
  induction l generalizing s with
  | nil => exact absurd hd List.not_mem_nil
  | cons a l ih =>
    rcases List.mem_cons.1 hd with rfl | hd
    · obtain ⟨p, hp, hk⟩ := sendAt_hasSent s d k t s.epoch r m (.inl hm)
      exact ⟨p, foldl_unacked (fun _ _ => sendAt_unacked _ _ _ _ _ _ _) l _ p hp, hk⟩
    · exact ih _ hd

/-- A packet without a tenant's data waits for every peer that it is sent to. -/
theorem sendAll_hasSent (s : State) {l : List Nat} (k t : Nat) (r : Bool) {m : Msg} (hm : carriesData m = false) {d : Nat} (hd : d ∈ l) (hn : d ≠ s.node) :
    (s.sendAll l k t r m).hasSent d k m :=
  foldl_sendAt_hasSent s k t r hm (List.mem_filter.2 ⟨hd, by simpa using hn⟩)

/-! ### The live set -/

/-- A register outside of the route table is none of what a list of routes is made from. -/
theorem filterMap_put {α β : Type} {f : Nat × α → Option β} {k : Nat} (h : ∀ v, f (k, v) = none) (l : List (Nat × α)) (v : α) :
    (put l k v).filterMap f = l.filterMap f := by
  induction l with
  | nil => simp [put, h]
  | cons p l ih =>
    obtain ⟨a, x⟩ := p
    unfold put
    split
    · rw [List.filterMap_cons_none (h v)]
    · split
      · rename_i e
        have : k = a := by simpa using e
        subst this
        rw [List.filterMap_cons_none (h v), List.filterMap_cons_none (h x)]
      · rw [List.filterMap_cons, List.filterMap_cons, ih]

theorem liveSet_setReg (s : State) {k : Nat} (v : Nat) (hk : k < 0x805000) (hn : k ≠ 0x800001) : (s.setReg k v).liveSet = s.liveSet := by
  have hnode : (s.setReg k v).node = s.node := congrArg (· % 4096) (State.reg_setReg_ne s v (Ne.symm hn))
  unfold State.liveSet
  rw [hnode, show (s.setReg k v).regs = put s.regs k v from rfl, filterMap_put]
  exact fun v => if_neg (by simp [Nat.not_le.2 hk])

/-! ### Operator changes (R366 to R368) -/

/-- The map whose pending change is an own one. -/
def MapS.issued (m : MapS) (c : MapChange) (need : List Nat) : MapS := { m with pending := some c, own := true, need, acks := [] }

/-- The map whose pending change is a peer's. -/
def MapS.taken (m : MapS) (c : MapChange) : MapS := { m with pending := some c, own := false, need := [], acks := [] }

/-- The map without its pending change. -/
def MapS.cancelled (m : MapS) : MapS := { m with pending := none, own := false, need := [], acks := [] }

theorem changeFault_setBlob (s : State) (k : Key) (b : List Byte) (c : MapChange) : (s.setBlob k b).changeFault c = s.changeFault c := rfl

theorem exec_mapChange_accepted (s : State) (c : MapChange) (hrun : s.running = true) (hf : s.changeFault { c with origin := 0 } = 0) :
    ∃ t, exec (.mapChange c) s = .next t ∧ t.map.pending = some { c with origin := 0 } ∧ t.map.own = true ∧ t.map.acks = [] ∧
      t.map.need = s.liveSet.filter (· != s.node) ∧ t.map.entries = s.map.entries ∧ t.reg 0x804005 = 1 ∧ t.reg 0x804006 = 0 ∧
      keepsBut [.regs, .blobs, .map, .net, .counts] s t ∧ regsBut [0x804005, 0x804006] s t := by
  generalize hd : ({ c with origin := 0 } : MapChange) = d at hf
  obtain ⟨a, ha⟩ : ∃ a, a = (s.setBlob 0x804001 (changeBytes d)).setReg 0x804006 0 := ⟨_, rfl⟩
  have hlive : a.liveSet = s.liveSet := ha ▸ liveSet_setReg (s.setBlob 0x804001 (changeBytes d)) 0 (by decide) (by decide)
  have hfa : keepsBut [.blobs, .regs] s a := ha ▸ (setBlob_frame s _ _).trans' (setReg_frame _ _ _) (by simp) (by simp)
  have hra : regsBut [0x804006] s a := ha ▸ ((setBlob_frame s _ _).regsBut (by simp) _).trans (regsBut_setReg _ _ _)
  have hra6 : a.reg 0x804006 = 0 := ha ▸ State.reg_setReg_same _ _ _
  have hnode : a.node = s.node := congrArg (· % 4096) (hra _ (by decide))
  have hmap : a.map = s.map := hfa .map (by simp)
  obtain ⟨b, hb⟩ : ∃ b, b = State.setReg { a with map := a.map.issued d (s.liveSet.filter (· != s.node)) } 0x804005 1 := ⟨_, rfl⟩
  have hfb : keepsBut [.map, .regs] a b := hb ▸ (with_map_frame a _).trans' (setReg_frame _ _ _) (by simp) (by simp)
  have hrb : regsBut [0x804005] a b := hb ▸ ((with_map_frame a _).regsBut (by simp) _).trans (regsBut_setReg _ _ _)
  have hmb : b.map = s.map.issued d (s.liveSet.filter (· != s.node)) := by rw [hb, ← hmap]; rfl
  have hsend := sendAll_frame b (s.liveSet.filter (· != s.node)) 0x12 0 false (.mapChange d)
  generalize hw : b.sendAll (s.liveSet.filter (· != s.node)) 0x12 0 false (.mapChange d) = w at hsend
  have hmw : w.map = s.map.issued d (s.liveSet.filter (· != s.node)) := (hsend .map (by simp)).trans hmb
  change ∃ t, live s (fun s => s.writeChange c) = .next t ∧ _
  refine exists_live hrun (u := w) ?_ ⟨by rw [hmw]; rfl, by rw [hmw]; rfl, by rw [hmw]; rfl, by rw [hmw]; rfl, by rw [hmw]; rfl, ?_, ?_, ?_, ?_⟩
    fun _ ⟨a, b, c, d, e, f, g, k, r⟩ => ⟨a, b, c, d, e, f, g, k.withQueue, r⟩
  · unfold State.writeChange
    rw [hd]
    dsimp only
    rw [changeFault_setBlob, hf, if_neg (by simp), ← ha]
    unfold State.issueChange
    rw [hlive, hnode, ← hw, hb]
    rfl
  · rw [hsend.reg (by simp), hb, State.reg_setReg_same]
  · rw [hsend.reg (by simp), hrb _ (by decide), hra6]
  · exact (hfa.trans' hfb (rs := [.regs, .blobs, .map]) (by simp) (by simp)).trans' hsend (by simp) (by simp)
  · exact (hra.trans' hrb (by simp) (by simp)).trans (hsend.regsBut (by simp) _)

theorem exec_mapChange_refused (s : State) (c : MapChange) (f : Nat) (hrun : s.running = true) (hf : s.changeFault { c with origin := 0 } = f) (h0 : f ≠ 0) :
    ∃ t, exec (.mapChange c) s = .next t ∧ t.reg 0x804005 = 2 ∧ t.reg 0x804006 = f ∧ t.cnt 0xE0C017 = s.cnt 0xE0C017 + 1 ∧
      keepsBut [.regs, .blobs, .counts] s t ∧ regsBut [0x804005, 0x804006] s t ∧ countsBut [0xE0C017] s t := by
  generalize hd : ({ c with origin := 0 } : MapChange) = d at hf
  have hblob := setBlob_frame s 0x804001 (changeBytes d)
  have hregs := (setReg_frame (s.setBlob 0x804001 (changeBytes d)) 0x804005 2).trans (setReg_frame _ 0x804006 f)
  have hbump := bump_frame (((s.setBlob 0x804001 (changeBytes d)).setReg 0x804005 2).setReg 0x804006 f) 0xE0C017 1
  change ∃ t, live s (fun s => s.writeChange c) = .next t ∧ _
  refine exists_live hrun (u := (((s.setBlob 0x804001 (changeBytes d)).setReg 0x804005 2).setReg 0x804006 f).bump 0xE0C017 1) ?_ ⟨?_, ?_, ?_, ?_, ?_, ?_⟩
    fun _ ⟨a, b, c, k, r, n⟩ => ⟨a, b, c, k.withQueue, r, n⟩
  · unfold State.writeChange
    rw [hd]
    dsimp only
    rw [changeFault_setBlob, hf, if_pos (by simpa using h0)]
  · rw [hbump.reg (by simp), State.reg_setReg_ne _ _ (by decide), State.reg_setReg_same]
  · rw [hbump.reg (by simp), State.reg_setReg_same]
  · rw [State.cnt_bump_same, hregs.cnt (by simp), hblob.cnt (by simp)]
  · exact (hblob.trans' hregs (rs := [.regs, .blobs]) (by simp) (by simp)).trans' hbump (by simp) (by simp)
  · exact (hblob.regsBut (by simp) _).trans (((regsBut_setReg _ _ _).trans' (regsBut_setReg _ _ _) (by simp) (by simp)).trans (hbump.regsBut (by simp) _))
  · exact (hblob.countsBut (by simp) _).trans ((hregs.countsBut (by simp) _).trans (countsBut_bump _ _ _))

/-! ### Changes of peers (R25, R367, R368, R383) -/

theorem ackChange_away {s : State} {src : Nat} (epoch : Nat) (h : src ≠ s.node) : s.ackChange src epoch = s.send src 0x13 0 (.mapAck epoch) :=
  if_neg (by simpa using h)

/-- A change that is no withdrawal, still to come, while none is pending. -/
theorem takeChange_new {s : State} (src : Nat) {c : MapChange} (he : s.epoch < c.epoch) (ht : s.ftick < c.eff) (hp : s.map.pending = none) :
    s.takeChange src c = if s.epoch + 1 < c.epoch then
        State.ackChange (if s.map.later.any (·.epoch == c.epoch) then s else { s with map := { s.map with later := s.map.later ++ [c] } }) src c.epoch
      else if mapDigest (applyChange s.map.entries c.entries) != c.digest then
        (({ s with map := { s.map with fetching := true } }).bump 0xE0C01C 1).send src 0x12 0 .mapFetch
      else (({ s with map := s.map.taken c }).setReg 0x804005 1).ackChange src c.epoch := by
  unfold State.takeChange
  rw [if_neg (by simp; omega), if_neg (by omega), if_neg (by omega)]
  simp only [hp, Option.isSome_none, Bool.false_eq_true, if_false]
  rfl

theorem exec_mapChangeReceive_pending (s : State) (src : Nat) (c : MapChange) (hrun : s.running = true) (hsrc : src ≠ s.node) (he : c.epoch = s.epoch + 1)
    (ht : s.ftick < c.eff) (hp : s.map.pending = none) (hd : mapDigest (applyChange s.map.entries c.entries) = c.digest) :
    ∃ t, exec (.mapChangeReceive src c) s = .next t ∧ t.map.pending = some c ∧ t.map.own = false ∧ t.reg 0x804005 = 1 ∧ t.hasSent src 0x13 (.mapAck c.epoch) ∧
      keepsBut [.regs, .map, .net, .counts] s t ∧ regsBut [0x804005] s t := by
  have htaken := with_map_frame s (s.map.taken c)
  have hset := setReg_frame { s with map := s.map.taken c } 0x804005 1
  have hnode : src ≠ (({ s with map := s.map.taken c } : State).setReg 0x804005 1).node := by
    rw [show (({ s with map := s.map.taken c } : State).setReg 0x804005 1).node = s.node from congrArg (· % 4096) (State.reg_setReg_ne _ 1 (by decide))]
    exact hsrc
  have hsend := send_frame (({ s with map := s.map.taken c } : State).setReg 0x804005 1) src 0x13 0 (.mapAck c.epoch)
  have hmap : ((({ s with map := s.map.taken c } : State).setReg 0x804005 1).send src 0x13 0 (.mapAck c.epoch)).map = s.map.taken c := hsend .map (by simp)
  change ∃ t, live s (fun s => s.takeChange src c) = .next t ∧ _
  refine exists_live hrun (u := (({ s with map := s.map.taken c } : State).setReg 0x804005 1).send src 0x13 0 (.mapAck c.epoch)) ?_
    ⟨by rw [hmap]; rfl, by rw [hmap]; rfl, ?_, sendAt_hasSent _ _ _ _ _ _ _ (.inl rfl), ?_, ?_⟩ fun _ ⟨a, b, c, d, f, r⟩ => ⟨a, b, c, d, f.withQueue, r⟩
  · rw [takeChange_new src (by omega) ht hp, if_neg (by omega), if_neg (by simp [hd]), ackChange_away _ hnode]
  · rw [hsend.reg (by simp), State.reg_setReg_same]
  · exact (htaken.trans' hset (rs := [.map, .regs]) (by simp) (by simp)).trans' hsend (by simp) (by simp)
  · exact (htaken.regsBut (by simp) _).trans ((regsBut_setReg _ _ _).trans (hsend.regsBut (by simp) _))

theorem exec_mapChangeReceive_later (s : State) (src : Nat) (c : MapChange) (hrun : s.running = true) (hsrc : src ≠ s.node) (he : s.epoch + 1 < c.epoch)
    (ht : s.ftick < c.eff) (hp : s.map.pending = none) (hl : ∀ d ∈ s.map.later, d.epoch ≠ c.epoch) :
    ∃ t, exec (.mapChangeReceive src c) s = .next t ∧ t.map = { s.map with later := s.map.later ++ [c] } ∧ t.hasSent src 0x13 (.mapAck c.epoch) ∧
      keepsBut [.map, .net, .counts] s t := by
  have hany : (s.map.later.any fun d => d.epoch == c.epoch) = false := List.any_eq_false.2 fun d hd => by simpa using hl d hd
  change ∃ t, live s (fun s => s.takeChange src c) = .next t ∧ _
  refine exists_live hrun (u := State.send { s with map := { s.map with later := s.map.later ++ [c] } } src 0x13 0 (.mapAck c.epoch)) ?_
    ⟨send_frame _ _ _ _ _ .map (by simp), sendAt_hasSent _ _ _ _ _ _ _ (.inl rfl), (with_map_frame s _).trans' (send_frame _ _ _ _ _) (by simp) (by simp)⟩
    fun _ ⟨a, b, f⟩ => ⟨a, b, f.withQueue⟩
  rw [takeChange_new src (by omega) ht hp, if_pos he, if_neg (by simp [hany]), ackChange_away]
  exact hsrc

theorem exec_mapChangeReceive_mismatch (s : State) (src : Nat) (c : MapChange) (hrun : s.running = true) (he : c.epoch = s.epoch + 1) (ht : s.ftick < c.eff)
    (hp : s.map.pending = none) (hd : mapDigest (applyChange s.map.entries c.entries) ≠ c.digest) :
    ∃ t, exec (.mapChangeReceive src c) s = .next t ∧ t.map = { s.map with fetching := true } ∧ t.cnt 0xE0C01C = s.cnt 0xE0C01C + 1 ∧
      t.hasSent src 0x12 .mapFetch ∧ keepsBut [.map, .net, .counts] s t := by
  have hmap := with_map_frame s { s.map with fetching := true }
  have hbump := bump_frame { s with map := { s.map with fetching := true } } 0xE0C01C 1
  have hsend := send_frame (State.bump { s with map := { s.map with fetching := true } } 0xE0C01C 1) src 0x12 0 .mapFetch
  change ∃ t, live s (fun s => s.takeChange src c) = .next t ∧ _
  refine exists_live hrun (u := (State.bump { s with map := { s.map with fetching := true } } 0xE0C01C 1).send src 0x12 0 .mapFetch) ?_
    ⟨(hbump.trans' hsend (rs := [.net, .counts]) (by simp) (by simp)) .map (by simp), ?_, sendAt_hasSent _ _ _ _ _ _ _ (.inl rfl), ?_⟩
    fun _ ⟨a, b, c, f⟩ => ⟨a, b, c, f.withQueue⟩
  · rw [takeChange_new src (by omega) ht hp, if_neg (by omega), if_pos (by simpa using hd)]
  · exact (sendAt_countsBut _ src 0x12 0 _ false (m := .mapFetch) rfl 0xE0C01C (by decide)).trans
      ((State.cnt_bump_same _ _ 1).trans (congrArg (· + 1) (hmap.cnt (by simp) _)))
  · exact (hmap.trans' hbump (rs := [.map, .counts]) (by simp) (by simp)).trans' hsend (by simp) (by simp)

/-- A change that is no withdrawal. -/
theorem noWithdrawal {c : MapChange} (h : c.entries ≠ [] ∨ c.eff ≠ 0) : ¬(c.eff == 0 && c.entries.isEmpty) = true := by
  rcases h with h | h
  · simp [h]
  · simp [h]

theorem exec_mapChangeReceive_old (s : State) (src : Nat) (c : MapChange) (hrun : s.running = true) (hsrc : src ≠ s.node) (he : c.epoch ≤ s.epoch)
    (hc : c.entries ≠ [] ∨ c.eff ≠ 0) :
    ∃ t, exec (.mapChangeReceive src c) s = .next t ∧ t.hasSent src 0x13 (.mapAck c.epoch) ∧ keepsBut [.net, .counts] s t := by
  change ∃ t, live s (fun s => s.takeChange src c) = .next t ∧ _
  refine exists_live hrun (u := s.send src 0x13 0 (.mapAck c.epoch)) ?_ ⟨sendAt_hasSent _ _ _ _ _ _ _ (.inl rfl), send_frame _ _ _ _ _⟩
    fun _ ⟨a, f⟩ => ⟨a, f.withQueue⟩
  unfold State.takeChange
  rw [if_neg (noWithdrawal hc), if_pos he, ackChange_away _ hsrc]

theorem exec_mapChangeReceive_stale (s : State) (src : Nat) (c : MapChange) (hrun : s.running = true) (he : s.epoch < c.epoch) (ht : c.eff ≤ s.ftick)
    (hc : c.entries ≠ [] ∨ c.eff ≠ 0) (_ : s.reg 0x200104 ≠ 4) :
    ∃ t, exec (.mapChangeReceive src c) s = .next t ∧ t.map = s.map ∧ t.cnt 0xE0100B = s.cnt 0xE0100B + 1 ∧ t.reg 0x200104 = 4 ∧
      keepsBut [.regs, .counts, .time, .net, .fault, .mgmtOut] s t ∧ regsBut [0x200104] s t := by
  have hstale : s.takeChange src c = s.stale := by
    unfold State.takeChange
    rw [if_neg (noWithdrawal hc), if_neg (by omega), if_pos ht]
  change ∃ t, live s (fun s => s.takeChange src c) = .next t ∧ _
  exact exists_live hrun hstale ⟨stale_frame s .map (by simp), stale_cnt s, stale_align s, (stale_frame s).mono (by simp), stale_regs s⟩
    fun _ ⟨a, b, c, f, r⟩ => ⟨a, b, c, f.withQueue, r⟩

/-- What cancelling the pending change does (R368). -/
theorem cancelChange_cancels (s : State) : s.cancelChange.map = s.map.cancelled ∧ s.cancelChange.reg 0x804005 = 3 ∧
    s.cancelChange.cnt 0xE0C017 = s.cnt 0xE0C017 + 1 ∧ keepsBut [.regs, .map, .counts] s s.cancelChange ∧ regsBut [0x804005] s s.cancelChange ∧
    countsBut [0xE0C017] s s.cancelChange := by
  obtain ⟨a, ha⟩ : ∃ a : State, a = { s with map := s.map.cancelled } := ⟨_, rfl⟩
  have hfa : keepsBut [.map] s a := ha ▸ with_map_frame s _
  have hset := setReg_frame a 0x804005 3
  have hbump := bump_frame (a.setReg 0x804005 3) 0xE0C017 1
  have he : s.cancelChange = (a.setReg 0x804005 3).bump 0xE0C017 1 := by rw [ha]; rfl
  rw [he]
  refine ⟨?_, ?_, ?_, ?_, ?_, ?_⟩
  · have hmap : a.map = s.map.cancelled := by rw [ha]
    exact ((hset.trans' hbump (rs := [.regs, .counts]) (by simp) (by simp)) .map (by simp)).trans hmap
  · rw [hbump.reg (by simp), State.reg_setReg_same]
  · rw [State.cnt_bump_same, hset.cnt (by simp), hfa.cnt (by simp)]
  · exact (hfa.trans' hset (rs := [.map, .regs]) (by simp) (by simp)).trans' hbump (by simp) (by simp)
  · exact (hfa.regsBut (by simp) _).trans ((regsBut_setReg _ _ _).trans (hbump.regsBut (by simp) _))
  · exact (hfa.countsBut (by simp) _).trans ((hset.countsBut (by simp) _).trans (countsBut_bump _ _ _))

theorem exec_mapChangeReceive_withdrawal (s : State) (src : Nat) (c p : MapChange) (hrun : s.running = true) (heff : c.eff = 0) (hent : c.entries = [])
    (hp : s.map.pending = some p) (he : p.epoch = c.epoch) (ho : p.origin = c.origin) :
    ∃ t, exec (.mapChangeReceive src c) s = .next t ∧ t.map.pending = none ∧ t.reg 0x804005 = 3 ∧ t.cnt 0xE0C017 = s.cnt 0xE0C017 + 1 ∧
      keepsBut [.regs, .map, .counts] s t ∧ regsBut [0x804005] s t ∧ countsBut [0xE0C017] s t := by
  obtain ⟨hmap, hreg, hcnt, hf, hr, hc⟩ := cancelChange_cancels s
  change ∃ t, live s (fun s => s.takeChange src c) = .next t ∧ _
  refine exists_live hrun (u := s.cancelChange) ?_ ⟨by rw [hmap]; rfl, hreg, hcnt, hf, hr, hc⟩ fun _ ⟨a, b, c, f, r, n⟩ => ⟨a, b, c, f.withQueue, r, n⟩
  unfold State.takeChange
  rw [if_pos (by simp [heff, hent])]
  simp only [hp]
  exact if_pos (by simp [he, ho])

/-! ### Acknowledgements and fetches (R367 to R369) -/

theorem exec_mapAck_noted (s : State) (src : Nat) (c : MapChange) (hrun : s.running = true) (hp : s.map.pending = some c) (hown : s.map.own = true)
    (hneed : src ∈ s.map.need) (hack : src ∉ s.map.acks) :
    ∃ t, exec (.mapAck src c.epoch) s = .next t ∧ t.map = { s.map with acks := s.map.acks ++ [src] } ∧ keepsBut [.map] s t := by
  change ∃ t, execMapAck src c.epoch s = .next t ∧ _
  unfold execMapAck
  refine exists_live hrun (u := { s with map := { s.map with acks := s.map.acks ++ [src] } }) ?_ ⟨rfl, with_map_frame s _⟩ fun _ ⟨a, f⟩ => ⟨a, f.withQueue⟩
  simp only [hp]
  exact if_pos (by simp [hown, hneed, hack])

theorem exec_mapAckTimeout_missing (s : State) (c : MapChange) (n : Nat) (hrun : s.running = true) (hp : s.map.pending = some c) (hown : s.map.own = true)
    (ho : c.origin = 0) (hm : c.eff ≤ s.ftick + s.reg 0x804003) (hneed : n ∈ s.map.need) (hack : n ∉ s.map.acks) (hn : n ≠ s.node) :
    ∃ t, exec .mapAckTimeout s = .next t ∧ t.map.pending = none ∧ t.reg 0x804005 = 3 ∧ t.cnt 0xE0C017 = s.cnt 0xE0C017 + 1 ∧
      t.hasSent n 0x12 (.mapChange (withdrawal c)) ∧ keepsBut [.regs, .map, .net, .counts] s t ∧ regsBut [0x804005] s t := by
  obtain ⟨hmap, hreg, hcnt, hf, hr, -⟩ := cancelChange_cancels s
  have hsend := sendAll_frame s.cancelChange s.map.need 0x12 0 false (.mapChange (withdrawal c))
  have hnode : n ≠ s.cancelChange.node := by
    rw [show s.cancelChange.node = s.node from congrArg (· % 4096) (hr _ (by decide))]
    exact hn
  have hpend : (s.cancelChange.sendAll s.map.need 0x12 0 false (.mapChange (withdrawal c))).map = s.map.cancelled := (hsend .map (by simp)).trans hmap
  change ∃ t, execMapAckTimeout s = .next t ∧ _
  unfold execMapAckTimeout
  refine exists_live hrun (u := s.cancelChange.sendAll s.map.need 0x12 0 false (.mapChange (withdrawal c))) ?_ ⟨by rw [hpend]; rfl, ?_, ?_,
    sendAll_hasSent _ _ _ _ rfl hneed hnode, hf.trans' hsend (by simp) (by simp), hr.trans (hsend.regsBut (by simp) _)⟩
    fun _ ⟨a, b, c, d, f, r⟩ => ⟨a, b, c, d, f.withQueue, r⟩
  · simp only [hp]
    refine if_pos ?_
    simp only [hown, ho, hm, Bool.and_eq_true, decide_true, beq_self_eq_true, true_and, List.any_eq_true]
    exact ⟨n, hneed, by simpa using hack⟩
  · rw [hsend.reg (by simp), hreg]
  · rw [sendAll_countsBut s.cancelChange s.map.need 0x12 0 false (m := .mapChange (withdrawal c)) rfl 0xE0C017 (by decide), hcnt]

theorem exec_mapFetchRequest_answered (s : State) (src : Nat) (hrun : s.running = true) (hsrc : src ≠ s.node) (ha : s.alive src = true) :
    ∃ t, exec (.mapFetchRequest src) s = .next t ∧ (∃ c, t.hasSent src 0x12 (.mapChange c) ∧ c.epoch = s.epoch ∧ c.entries = s.map.entries ∧
      c.digest = mapDigest s.map.entries) ∧ keepsBut [.net, .counts] s t := by
  obtain ⟨c, hc⟩ : ∃ c : MapChange, c = { epoch := s.epoch, eff := 0, origin := 0, digest := mapDigest s.map.entries, entries := s.map.entries } := ⟨_, rfl⟩
  obtain ⟨k, hk, hkc⟩ := sendAt_hasSent s src 0x12 0 s.epoch false (.mapChange c) (.inl rfl)
  have hframe : ∀ (l : List MapChange) (u : State), keepsBut [.net, .counts] u (l.foldl (fun s c => s.send src 0x12 0 (.mapChange c)) u) := fun l u =>
    keepsBut_foldl l u fun _ _ => send_frame _ _ _ _ _
  change ∃ t, execMapFetchRequest src s = .next t ∧ _
  unfold execMapFetchRequest
  refine exists_live hrun (u := ((s.send src 0x12 0 (.mapChange c)).map.pending.toList ++ (s.send src 0x12 0 (.mapChange c)).map.later).foldl
    (fun s c => s.send src 0x12 0 (.mapChange c)) (s.send src 0x12 0 (.mapChange c))) ?_
    ⟨⟨c, ⟨k, foldl_unacked (fun _ _ => sendAt_unacked _ _ _ _ _ _ _) _ _ k hk, hkc⟩, by rw [hc], by rw [hc], by rw [hc]⟩, (send_frame _ _ _ _ _).trans (hframe _ _)⟩
    fun _ ⟨a, f⟩ => ⟨a, f.withQueue⟩
  rw [if_neg (by simp [hsrc, ha]), ← hc]

/-! ### The full map arrives (R367, R369) -/

/-- The registers of node entries stand between 0x806000 and 0x807000, where no other register is (R376). -/
theorem lk_nodeRegs (nodes : List MapEntry) (v : MapEntry → Nat) (regs : List (Key × Nat)) {k : Nat} (hk : k < 0x806000) :
    lk (nodes.foldl (fun acc e => put acc (0x806000 + e.a) (v e)) regs) k = lk regs k := by
  induction nodes generalizing regs with
  | nil => rfl
  | cons e l ih => exact (ih _).trans (lk_put_ne _ _ (by omega))

theorem mapRegs_frame (s : State) : keepsBut [.regs, .blobs] s s.mapRegs := by
  unfold State.mapRegs
  refine keepsBut.trans' ?_ (setBlob_frame _ _ _) (ps := [.regs]) (by simp) (by simp)
  exact ((((((with_regs_frame s _).trans (setReg_frame _ _ _)).trans (setReg_frame _ _ _)).trans (setReg_frame _ _ _)).trans
    (setReg_frame _ _ _)).trans (setReg_frame _ _ _)).trans (setReg_frame _ _ _)

theorem mapRegs_epoch (s : State) : s.mapRegs.epoch = s.epoch := by
  unfold State.mapRegs State.epoch
  dsimp only
  rw [(setBlob_frame _ _ _).reg (by simp), State.reg_setReg_ne _ _ (by decide), State.reg_setReg_ne _ _ (by decide), State.reg_setReg_ne _ _ (by decide),
    State.reg_setReg_ne _ _ (by decide), State.reg_setReg_ne _ _ (by decide), State.reg_setReg_ne _ _ (by decide)]
  unfold State.reg
  dsimp only
  rw [lk_nodeRegs _ _ _ (by decide), lk_filter_key _ (fun k => decide (k < 0x806000) || decide (0x807000 ≤ k)), if_pos (by decide)]

theorem serviceJoined_frame (s : State) (old : List MapEntry) : keepsBut [.net, .counts] s (s.serviceJoined old) := by
  unfold State.serviceJoined
  refine keepsBut_foldl _ _ fun s e => keepsBut_foldl _ _ fun s x => ?_
  dsimp only
  split
  · split
    · exact send_frame _ _ _ _ _
    · exact keepsBut_refl _ _
  · split
    · exact send_frame _ _ _ _ _
    · exact keepsBut_refl _ _

/-- What the map of a new epoch changes when it takes effect (R369). -/
theorem installMap_installs (s : State) (m : List MapEntry) (epoch : Nat) :
    (s.installMap m epoch).map = { s.map with entries := m, prev := s.map.entries, applied := s.ftick } ∧
    (s.installMap m epoch).epoch = epoch ∧ keepsBut [.regs, .blobs, .map, .net, .counts, .emb] s (s.installMap m epoch) := by
  obtain ⟨a, ha⟩ : ∃ a : State, a = { s with map := { s.map with entries := m, prev := s.map.entries, applied := s.ftick } } := ⟨_, rfl⟩
  have hfa : keepsBut [.map] s a := ha ▸ with_map_frame s _
  have hmap : a.map = { s.map with entries := m, prev := s.map.entries, applied := s.ftick } := by rw [ha]
  have hset := setReg_frame a 0x800007 epoch
  have hregs := mapRegs_frame (a.setReg 0x800007 epoch)
  have hep := mapRegs_epoch (a.setReg 0x800007 epoch)
  generalize hb : (a.setReg 0x800007 epoch).mapRegs = b at hregs hep
  have hrole : keepsBut [.emb] b b.rerole := with_emb_frame b _
  have hheld : keepsBut [.net] b.rerole b.rerole.releaseHeld := with_net_frame b.rerole _
  have hjoin := serviceJoined_frame b.rerole.releaseHeld s.map.entries
  have hrest : keepsBut [.emb, .net, .counts] b (b.rerole.releaseHeld.serviceJoined s.map.entries) :=
    (hrole.trans' hheld (rs := [.emb, .net]) (by simp) (by simp)).trans' hjoin (by simp) (by simp)
  have he : s.installMap m epoch = b.rerole.releaseHeld.serviceJoined s.map.entries := by rw [← hb, ha]; rfl
  have hab : keepsBut [.regs, .blobs] a b := hset.trans' hregs (by simp) (by simp)
  rw [he]
  exact ⟨(hrest .map (by simp)).trans ((hab .map (by simp)).trans hmap), (hrest.reg (by simp) _).trans (hep.trans (State.reg_setReg_same _ _ _)),
    (hfa.trans' hab (rs := [.map, .regs, .blobs]) (by simp) (by simp)).trans' hrest (by simp) (by simp)⟩

theorem exec_fullMapFetchDone_installed (s : State) (src : Nat) (c : MapChange) (hrun : s.running = true) (hw : s.map.fetching = true ∨ s.epoch < c.epoch)
    (he : s.epoch ≤ c.epoch) (ha : s.alive src = true) (hd : mapDigest (applyChange [] c.entries) = c.digest) :
    ∃ t, exec (.fullMapFetchDone src c) s = .next t ∧ t.map.entries = applyChange [] c.entries ∧ t.map.prev = s.map.entries ∧ t.epoch = c.epoch ∧
      t.map.fetching = false ∧ t.time.joining = false ∧ keepsBut [.regs, .blobs, .map, .net, .counts, .emb, .time] s t := by
  obtain ⟨a, ea⟩ : ∃ a : State, a = { s with map := { s.map with fetching := false }, time := { s.time with joining := false } } := ⟨_, rfl⟩
  have hfa : keepsBut [.map, .time] s a := ea ▸ (with_map_frame s { s.map with fetching := false }).trans' (with_time_frame _ _) (by simp) (by simp)
  have hmap : a.map = { s.map with fetching := false } := by rw [ea]
  have htime : a.time.joining = false := by rw [ea]
  obtain ⟨hm, hep, hf⟩ := installMap_installs a (applyChange [] c.entries) c.epoch
  have hti : (a.installMap (applyChange [] c.entries) c.epoch).time = a.time := hf .time (by simp)
  change ∃ t, execFullMapFetchDone src c s = .next t ∧ _
  unfold execFullMapFetchDone
  refine exists_live hrun (u := a.installMap (applyChange [] c.entries) c.epoch) ?_
    ⟨by rw [hm], by rw [hm, hmap], hep, by rw [hm, hmap], by rw [hti, htime], hfa.trans' hf (by simp) (by simp)⟩
    fun _ ⟨a, b, c, d, e, f⟩ => ⟨a, b, c, d, e, f.withQueue⟩
  dsimp only
  rw [if_pos (by simpa [he, ha, hd] using hw), ea]

/-- Settles O40: one lemma per case of a row of the family, each with what the row leaves unchanged. -/
theorem mapChangesAreAgreed : Obligations.MapChangesAreAgreed :=
  ⟨exec_mapChange_accepted, exec_mapChange_refused, exec_mapChangeReceive_pending, exec_mapChangeReceive_later, exec_mapChangeReceive_mismatch,
    exec_mapChangeReceive_old, exec_mapChangeReceive_stale, exec_mapChangeReceive_withdrawal, exec_mapAck_noted, exec_mapAckTimeout_missing,
    exec_mapFetchRequest_answered, exec_fullMapFetchDone_installed⟩

end Sys2Proof.Machine
end

section
/-! PROOF. Fault decisions (O42). -/

namespace Sys2Proof.Machine

/-! ### The one case that is held -/

theorem caseOf_single {s : State} {c : Case} (h : s.fault.cases = [c]) {p : Case → Bool} (hp : p c = true) : s.caseOf c.num p = some c := by
  unfold State.caseOf
  rw [h]
  simp [hp]

theorem setCase_single {s : State} {c x : Case} (h : s.fault.cases = [c]) (hn : c.num = x.num) (hr : c.role = x.role) :
    s.setCase x = { s with fault := { s.fault with cases := [x] } } := by
  unfold State.setCase
  rw [h]
  simp [updIf, hn, hr]

theorem setCase_frame (s : State) (x : Case) : keepsBut [.fault] s (s.setCase x) := with_fault_frame s _

theorem caseRegs_frame (s : State) : keepsBut [.regs] s s.caseRegs := setReg_frame s _ _

theorem sendFault_countsBut (s : State) (l : List Nat) (m : FaultMsg) : countsBut [0xE0C00B] s (s.sendFault l m) :=
  (sendAll_countsBut s l 0x14 0 false (m := .fault m) rfl).trans ((mgmtCopy_frame _ _).countsBut (by simp) _)

/-- A message of the fault protocol waits for each peer that it is sent to. -/
theorem sendFault_hasSent (s : State) {l : List Nat} (m : FaultMsg) {d : Nat} (hd : d ∈ l) (hn : d ≠ s.node) : (s.sendFault l m).hasSent d 0x14 (.fault m) :=
  hasSent_congr (mgmtCopy_frame _ _ .net (by simp)) (sendAll_hasSent s 0x14 0 false rfl hd hn)

/-! ### What the arrival of a map change can do (R25, R367, R368, R383) -/

/-- What taking a change in time touches. -/
def takesOnly (s t : State) : Prop :=
  keepsBut [.map, .net, .regs, .counts] s t ∧ regsBut [0x804005] s t ∧ countsBut [0xE0C017, 0xE0C01C, 0xE0C00B] s t

theorem takesOnly.refl (s : State) : takesOnly s s := ⟨keepsBut_refl _ s, regsBut_refl _ s, countsBut_refl _ s⟩

theorem takesOnly.trans {s t u : State} (h : takesOnly s t) (g : takesOnly t u) : takesOnly s u := by
  obtain ⟨hf, hr, hc⟩ := h
  obtain ⟨gf, gr, gc⟩ := g
  exact ⟨hf.trans gf, hr.trans gr, hc.trans gc⟩

theorem sendAll_takes (s : State) (l : List Nat) (k t : Nat) (r : Bool) {m : Msg} (hm : carriesData m = false) : takesOnly s (s.sendAll l k t r m) :=
  ⟨(sendAll_frame s l k t r m).mono (by simp), (sendAll_frame s l k t r m).regsBut (by simp) _, (sendAll_countsBut s l k t r hm).mono (by simp)⟩

theorem send_takes (s : State) (d k t : Nat) {m : Msg} (hm : carriesData m = false) : takesOnly s (s.send d k t m) :=
  ⟨(send_frame s d k t m).mono (by simp), (send_frame s d k t m).regsBut (by simp) _, (sendAt_countsBut s d k t _ _ hm).mono (by simp)⟩

theorem with_map_takes (s : State) (m : MapS) : takesOnly s { s with map := m } :=
  ⟨(with_map_frame s m).mono (by simp), (with_map_frame s m).regsBut (by simp) _, (with_map_frame s m).countsBut (by simp) _⟩

theorem cancelChange_takes (s : State) : takesOnly s s.cancelChange := by
  obtain ⟨-, -, -, hf, hr, hc⟩ := cancelChange_cancels s
  exact ⟨hf.mono (by simp), hr, hc.mono (by simp)⟩

theorem ackChange_frame (s : State) (src epoch : Nat) : keepsBut [.net, .counts] s (s.ackChange src epoch) := by
  unfold State.ackChange
  split
  · exact keepsBut_refl _ s
  · exact send_frame s _ _ _ _

theorem ackChange_takes (s : State) (src epoch : Nat) : takesOnly s (s.ackChange src epoch) := by
  unfold State.ackChange
  split
  · exact takesOnly.refl s
  · exact send_takes s _ _ _ rfl

/-- A change is stale, or it moves nothing but the map, its state and its counters. -/
theorem takeChange_cases (s : State) (src : Nat) (c : MapChange) : c.eff ≤ s.ftick ∧ s.takeChange src c = s.stale ∨ takesOnly s (s.takeChange src c) := by
  unfold State.takeChange
  split
  · refine .inr ?_
    split
    · split
      · exact cancelChange_takes s
      · exact takesOnly.refl s
    · exact takesOnly.refl s
  split
  · exact .inr (ackChange_takes _ _ _)
  split
  · exact .inl ⟨by assumption, rfl⟩
  refine .inr ?_
  extract_lets mine others w u later v
  have hu : takesOnly s u := by
    unfold u
    split
    · split
      · split
        · exact (cancelChange_takes s).trans (sendAll_takes _ _ _ _ _ rfl)
        · exact cancelChange_takes s
      · exact takesOnly.refl s
    · exact takesOnly.refl s
  refine hu.trans ?_
  clear_value u
  split
  · refine takesOnly.trans ?_ (ackChange_takes v _ _)
    unfold v
    split
    · exact takesOnly.refl u
    · exact with_map_takes u _
  split
  · exact ackChange_takes _ _ _
  split
  · have hbump := bump_frame { u with map := { u.map with fetching := true } } 0xE0C01C 1
    have hcounted : takesOnly { u with map := { u.map with fetching := true } } (State.bump { u with map := { u.map with fetching := true } } 0xE0C01C 1) :=
      ⟨hbump.mono (by simp), hbump.regsBut (by simp) _, (countsBut_bump _ _ _).mono (by simp)⟩
    exact ((with_map_takes u _).trans hcounted).trans (send_takes _ _ _ _ rfl)
  · have hset := setReg_frame { u with map := u.map.taken c } 0x804005 1
    exact (with_map_takes u _).trans (takesOnly.trans ⟨hset.mono (by simp), regsBut_setReg _ _ _, hset.countsBut (by simp) _⟩ (ackChange_takes _ _ _))

/-! ### The decisions that are kept -/

/-- The decisions that a Molset keeps, and the messages that it has taken, stay. -/
def keepsDecisions (s t : State) : Prop := t.fault.decisions = s.fault.decisions ∧ t.fault.seen = s.fault.seen

theorem keepsDecisions.trans {s t u : State} (h : keepsDecisions s t) (g : keepsDecisions t u) : keepsDecisions s u := ⟨g.1.trans h.1, g.2.trans h.2⟩

theorem keepsBut.decisions {ps : List Part} {s t : State} (h : keepsBut ps s t) (hp : Part.fault ∉ ps) : keepsDecisions s t :=
  ⟨congrArg FaultS.decisions (h .fault hp), congrArg FaultS.seen (h .fault hp)⟩

theorem takeReport_decisions (s : State) (m : FaultMsg) : keepsDecisions s (s.takeReport m) := by
  unfold State.takeReport
  dsimp only
  split
  · exact ⟨rfl, rfl⟩
  split
  · exact ⟨rfl, rfl⟩
  · exact ⟨rfl, rfl⟩

theorem raiseFault_decisions (s : State) (a b c d e : Nat) : keepsDecisions s (s.raiseFault a b c d e) :=
  ((sendFault_frame s _ _).decisions (by simp)).trans (takeReport_decisions _ _)

theorem stale_decisions (s : State) : keepsDecisions s s.stale := by
  unfold State.stale
  have hbump := (bump_frame s 0xE0100B 1).decisions (by simp)
  generalize s.bump 0xE0100B 1 = a at hbump
  refine hbump.trans ?_
  by_cases h : a.reg 0x200104 = 4
  · unfold State.outOfPhase
    rw [if_pos (by simp [h])]
    exact ⟨rfl, rfl⟩
  · rw [outOfPhase_enter h]
    have hmid := (((setReg_frame a 0x200104 4).trans' (bump_frame _ 0xE01009 1) (rs := [.regs, .counts]) (by simp) (by simp)).trans'
      (with_time_frame _ { a.time with noLink := 0, lockCount := 0 }) (rs := [.regs, .counts, .time]) (by simp) (by simp)).decisions (by simp)
    exact hmid.trans (raiseFault_decisions _ _ _ _ _ _)

theorem takeChange_decisions (s : State) (src : Nat) (c : MapChange) : keepsDecisions s (s.takeChange src c) := by
  rcases takeChange_cases s src c with ⟨-, h⟩ | h
  · exact h ▸ stale_decisions s
  · exact h.1.decisions (by simp)

theorem takeChange_frame (s : State) (src : Nat) (c : MapChange) :
    keepsBut [.fault, .net, .regs, .counts, .mgmtOut, .map, .time] s (s.takeChange src c) := by
  rcases takeChange_cases s src c with ⟨-, h⟩ | h
  · exact h ▸ (stale_frame s).mono (by simp)
  · exact h.1.mono (by simp)

theorem takeChange_node (s : State) (src : Nat) (c : MapChange) : (s.takeChange src c).node = s.node := by
  refine congrArg (· % 4096) ?_
  rcases takeChange_cases s src c with ⟨-, h⟩ | ⟨-, hr, -⟩
  · exact h ▸ stale_regs s _ (by decide)
  · exact hr _ (by decide)

/-! ### Decisions arrive (R25, R383, R397) -/

/-- Is a held case the one that a decision is about? -/
def decides (f : FaultMsg) (x : Case) : Bool := x.st < 3 && x.node == f.node && x.partKind == f.partKind && x.partNo == f.partNo && x.s == f.s

/-- The state with a decision that waits for its tick. -/
def State.keepDecision (s : State) (f : FaultMsg) : State :=
  { s with fault := { s.fault with
      seen := s.fault.seen ++ [f], decisions := s.fault.decisions ++ [f], cases := s.fault.cases.filter fun x => !decides f x } }

theorem keepDecision_frame (s : State) (f : FaultMsg) : keepsBut [.fault] s (s.keepDecision f) := with_fault_frame s _

theorem note_ftick (s : State) (f : FaultMsg) : (s.note f).ftick = s.ftick := rfl

/-- A decision that does not fail this Molset. -/
theorem notOwnFailure {s : State} {f : FaultMsg} (h : f.verdict ≠ 3 ∨ f.node ≠ s.node) : ¬(f.verdict == 3 && f.node == (s.note f).node) = true := by
  rw [show (s.note f).node = s.node from rfl]
  rcases h with h | h
  · simp [h]
  · simp [h]

/-- A decision about another node or of another verdict, whose tick is to come, taken for the first time. -/
theorem onDecision_kept {s : State} {f : FaultMsg} (g : Option MapChange) (hk : f.subtype = 6) (hs : f ∉ s.fault.seen) (hv : f.verdict ≠ 3 ∨ f.node ≠ s.node)
    (hd : s.ftick < f.d) : s.onDecision f g =
      ((g.elim (s.keepDecision f) ((s.keepDecision f).takeChange f.sender)).sendFault [f.sender]
        { f with subtype := 7,
                 sender := State.node (g.elim (s.keepDecision f) ((s.keepDecision f).takeChange f.sender)) }).caseRegs := by
  unfold State.onDecision
  rw [if_neg (by simp [hk, State.firstTime, hs])]
  dsimp only
  rw [if_neg (notOwnFailure hv), note_ftick, if_neg (by omega)]
  cases g with
  | none => rfl
  | some c => rfl

theorem exec_decision_kept (s : State) (f : FaultMsg) (g : Option MapChange) (hrun : s.running = true) (hk : f.subtype = 6) (hs : f ∉ s.fault.seen)
    (hv : f.verdict ≠ 3 ∨ f.node ≠ s.node) (hd : s.ftick < f.d) (hsender : f.sender ≠ s.node) :
    ∃ t, exec (.decision f g) s = .next t ∧ t.fault.decisions = s.fault.decisions ++ [f] ∧ f ∈ t.fault.seen ∧
      t.hasSent f.sender 0x14 (.fault { f with subtype := 7, sender := s.node }) ∧
      (g = none → keepsBut [.fault, .net, .regs, .counts, .mgmtOut] s t ∧ regsBut [0x900003] s t) ∧
      keepsBut [.fault, .net, .regs, .counts, .mgmtOut, .map, .time] s t := by
  obtain ⟨w, hw⟩ : ∃ w, w = g.elim (s.keepDecision f) ((s.keepDecision f).takeChange f.sender) := ⟨_, rfl⟩
  have hkeep := keepDecision_frame s f
  have hdec : keepsDecisions (s.keepDecision f) w := by
    rw [hw]
    cases g with
    | none => exact ⟨rfl, rfl⟩
    | some c => exact takeChange_decisions _ _ _
  have hframe : keepsBut [.fault, .net, .regs, .counts, .mgmtOut, .map, .time] (s.keepDecision f) w := by
    rw [hw]
    cases g with
    | none => exact keepsBut_refl _ _
    | some c => exact takeChange_frame _ _ _
  have hnode : w.node = s.node := by
    rw [hw]
    cases g with
    | none => rfl
    | some c => exact takeChange_node _ _ _
  have hsend := sendFault_frame w [f.sender] { f with subtype := 7, sender := s.node }
  have hregs := caseRegs_frame (w.sendFault [f.sender] { f with subtype := 7, sender := s.node })
  have hout := hsend.trans' hregs (rs := [.net, .counts, .mgmtOut, .regs]) (by simp) (by simp)
  obtain ⟨hod, hos⟩ := hout.decisions (by simp)
  change ∃ t, live s (fun s => s.onDecision f g) = .next t ∧ _
  refine exists_live hrun (u := (w.sendFault [f.sender] { f with subtype := 7, sender := s.node }).caseRegs) ?_
    ⟨hod.trans hdec.1, ?_, hasSent_congr (hregs .net (by simp)) (sendFault_hasSent w _ (List.mem_singleton.2 rfl) (hnode ▸ hsender)), ?_, ?_⟩
    fun _ ⟨a, b, c, d, f⟩ => ⟨a, b, c, fun h => ⟨(d h).1.withQueue, (d h).2⟩, f.withQueue⟩
  · rw [onDecision_kept g hk hs hv hd, ← hw, hnode]
  · rw [hos, hdec.2]
    exact List.mem_append_right _ (List.mem_singleton.2 rfl)
  · rintro rfl
    obtain rfl : w = s.keepDecision f := hw
    exact ⟨hkeep.trans' hout (by simp) (by simp),
      (hkeep.regsBut (by simp) _).trans ((hsend.regsBut (by simp) _).trans (regsBut_setReg _ _ _))⟩
  · exact (hkeep.trans' hframe (by simp) (List.Subset.refl _)).trans' hout (by simp) (by simp)

theorem exec_decision_pending (s : State) (f : FaultMsg) (c : MapChange) (hrun : s.running = true) (hk : f.subtype = 6) (hs : f ∉ s.fault.seen)
    (hv : f.verdict ≠ 3 ∨ f.node ≠ s.node) (hd : s.ftick < f.d) (he : c.epoch = s.epoch + 1) (ht : s.ftick < c.eff) (hp : s.map.pending = none)
    (hdig : mapDigest (applyChange s.map.entries c.entries) = c.digest) :
    ∃ t, exec (.decision f (some c)) s = .next t ∧ t.map.pending = some c ∧ t.fault.decisions = s.fault.decisions ++ [f] ∧
      keepsBut [.fault, .net, .regs, .counts, .mgmtOut, .map] s t := by
  have hkeep := keepDecision_frame s f
  obtain ⟨w, hw⟩ : ∃ w, w = (s.keepDecision f).takeChange f.sender c := ⟨_, rfl⟩
  have hpend : w.map.pending = some c := by
    have hdig' : mapDigest (applyChange (s.keepDecision f).map.entries c.entries) = c.digest := hdig
    have hnew : w = (State.setReg { s.keepDecision f with map := s.map.taken c } 0x804005 1).ackChange f.sender c.epoch := by
      rw [hw, takeChange_new f.sender (s := s.keepDecision f) (c := c) (by rw [he]; exact Nat.lt_succ_self _) ht hp, if_neg (by rw [he]; exact Nat.lt_irrefl _),
        if_neg (by simp [hdig'])]
      rfl
    rw [hnew]
    exact congrArg MapS.pending (ackChange_frame _ _ _ .map (by simp))
  have htake : takesOnly (s.keepDecision f) w := by
    rcases takeChange_cases (s.keepDecision f) f.sender c with ⟨h, -⟩ | h
    · exact absurd h (Nat.not_le.2 ht)
    · exact hw ▸ h
  obtain ⟨hframe, -, -⟩ := htake
  have hsend := sendFault_frame w [f.sender] { f with subtype := 7, sender := w.node }
  have hregs := caseRegs_frame (w.sendFault [f.sender] { f with subtype := 7, sender := w.node })
  have hout := hsend.trans' hregs (rs := [.net, .counts, .mgmtOut, .regs]) (by simp) (by simp)
  change ∃ t, live s (fun s => s.onDecision f (some c)) = .next t ∧ _
  refine exists_live hrun (u := (w.sendFault [f.sender] { f with subtype := 7, sender := w.node }).caseRegs) ?_
    ⟨(congrArg MapS.pending (hout .map (by simp))).trans hpend, (hout.decisions (by simp)).1.trans (hframe.decisions (by simp)).1, ?_⟩
    fun _ ⟨a, b, f⟩ => ⟨a, b, f.withQueue⟩
  · rw [onDecision_kept (some c) hk hs hv hd, hw]
    rfl
  · exact (hkeep.trans' hframe (rs := [.fault, .map, .net, .regs, .counts]) (by simp) (by simp)).trans' hout (by simp) (by simp)

theorem onDecision_late {s : State} {f : FaultMsg} (g : Option MapChange) (hk : f.subtype = 6) (hs : f ∉ s.fault.seen) (hv : f.verdict ≠ 3 ∨ f.node ≠ s.node)
    (hd : f.d ≤ s.ftick) : s.onDecision f g = (s.note f).stale := by
  unfold State.onDecision
  rw [if_neg (by simp [hk, State.firstTime, hs])]
  dsimp only
  rw [if_neg (notOwnFailure hv), note_ftick, if_pos hd]

theorem note_frame (s : State) (f : FaultMsg) : keepsBut [.fault] s (s.note f) := with_fault_frame s _

theorem exec_decision_stale (s : State) (f : FaultMsg) (g : Option MapChange) (hrun : s.running = true) (hk : f.subtype = 6) (hs : f ∉ s.fault.seen)
    (hv : f.verdict ≠ 3 ∨ f.node ≠ s.node) (hd : f.d ≤ s.ftick) :
    ∃ t, exec (.decision f g) s = .next t ∧ t.fault.decisions = s.fault.decisions ∧ t.cnt 0xE0100B = s.cnt 0xE0100B + 1 ∧ t.reg 0x200104 = 4 ∧
      keepsBut [.fault, .net, .regs, .counts, .mgmtOut, .time] s t := by
  have hnote := note_frame s f
  change ∃ t, live s (fun s => s.onDecision f g) = .next t ∧ _
  exact exists_live hrun (onDecision_late g hk hs hv hd) ⟨(stale_decisions (s.note f)).1, (stale_cnt _).trans (congrArg (· + 1) (hnote.cnt (by simp) _)),
    stale_align _, hnote.trans' (stale_frame _) (by simp) (by simp)⟩ fun _ ⟨a, b, c, f⟩ => ⟨a, b, c, f.withQueue⟩

/-! ### A Molset learns that it has failed (R397, R428) -/

/-- What a transfer on the host link touches. -/
def linkOnly (s t : State) : Prop := keepsBut [.link, .counts] s t ∧ countsBut [0xE0F001, 0xE0F006, 0xE0F007, 0xE0F008, 0xE0F012, 0xE0F013] s t

theorem linkOnly.refl (s : State) : linkOnly s s := ⟨keepsBut_refl _ s, countsBut_refl _ s⟩

theorem linkOnly.trans {s t u : State} (h : linkOnly s t) (g : linkOnly t u) : linkOnly s u := ⟨h.1.trans g.1, h.2.trans g.2⟩

theorem linkOnly_foldl {α : Type} {f : State → α → State} (l : List α) (s : State) (h : ∀ s a, linkOnly s (f s a)) : linkOnly s (l.foldl f s) :=
  ⟨keepsBut_foldl l s fun s a => (h s a).1, countsBut_foldl l s fun s a => (h s a).2⟩

theorem with_link_only (s : State) (l : LinkS) : linkOnly s { s with link := l } :=
  ⟨(with_link_frame s l).mono (by simp), (with_link_frame s l).countsBut (by simp) _⟩

/-- A count of the host link. -/
theorem bump_linkOnly (s : State) {k : Key} (n : Nat) (hk : k ∈ [0xE0F001, 0xE0F006, 0xE0F007, 0xE0F008, 0xE0F012, 0xE0F013]) : linkOnly s (s.bump k n) :=
  ⟨(bump_frame s k n).mono (by simp), (countsBut_bump s k n).mono (by simpa using hk)⟩

theorem hostFlits_linkOnly (s : State) (m n : Nat) : linkOnly s (s.hostFlits m n) := (with_link_only s _).trans (bump_linkOnly _ _ (by simp))

theorem hostAnswer_linkOnly (s : State) (m tag op status : Nat) (data : List Byte) : linkOnly s (s.hostAnswer m tag op status data) := by
  unfold State.hostAnswer
  extract_lets a b
  have hb : linkOnly a b := by
    unfold b
    split
    · exact bump_linkOnly a 1 (by split <;> simp)
    · exact bump_linkOnly a 1 (by split <;> simp)
  exact ((hostFlits_linkOnly s m _).trans hb).trans (with_link_only b _)

/-- A fatal fault while no sequence of the power states runs (R397, R523). -/
theorem fatal_stops (s : State) (hr : s.pwr.seqRank = 0) : (s.fatal 7).reg 0xD00001 = 4 ∧ (s.fatal 7).link.error = true ∧ (s.fatal 7).pwr.source = 7 ∧
    (s.fatal 7).cnt 0xE0D012 = s.cnt 0xE0D012 + 1 ∧ keepsBut [.regs, .counts, .link, .pwr, .mgmtOut] s (s.fatal 7) ∧
    regsBut [0xC00003, 0xD00001] s (s.fatal 7) := by
  unfold State.fatal
  rw [if_neg (by simp [hr])]
  extract_lets counted answered active errs raised sent link pwr failed stopped
  have hcounted : keepsBut [.counts] s counted := bump_frame s _ _
  have hsent : linkOnly counted sent := by
    have hanswered : linkOnly counted answered := linkOnly_foldl _ _ fun _ _ => hostAnswer_linkOnly _ _ _ _ _ _
    have hraised : linkOnly answered raised := by
      unfold raised
      split
      · exact linkOnly.refl _
      · exact bump_linkOnly _ _ (by simp)
    exact (hanswered.trans hraised).trans (linkOnly_foldl _ _ fun _ _ => hostFlits_linkOnly _ _ _)
  obtain ⟨hsentf, hsentc⟩ := hsent
  have hfailed : keepsBut [.link, .pwr] sent failed := (with_link_frame sent failed.link).trans' (with_pwr_frame _ failed.pwr) (by simp) (by simp)
  have hstopped : keepsBut [.regs] failed stopped := (setReg_frame failed _ _).trans (setReg_frame _ _ _)
  have hregs : regsBut [0xC00003, 0xD00001] failed stopped := (regsBut_setReg failed 0xC00003 3).trans' (regsBut_setReg _ 0xD00001 _) (by simp) (by simp)
  have hpart : keepsBut [.counts, .link, .pwr] s failed :=
    (hcounted.trans' hsentf (rs := [.counts, .link]) (by simp) (by simp)).trans' hfailed (by simp) (by simp)
  have hcopy := fun m => mgmtCopy_frame stopped m
  refine ⟨?_, ?_, ?_, ?_, ?_, ?_⟩
  · exact ((hcopy _).reg (by simp) _).trans (State.reg_setReg_same _ _ _)
  · exact congrArg LinkS.error (((hcopy _) .link (by simp)).trans (hstopped .link (by simp)))
  · exact congrArg PwrS.source (((hcopy _) .pwr (by simp)).trans (hstopped .pwr (by simp)))
  · rw [(hcopy _).cnt (by simp), hstopped.cnt (by simp), hfailed.cnt (by simp), hsentc _ (by decide)]
    exact State.cnt_bump_same s _ 1
  · exact (hpart.trans' hstopped (rs := [.counts, .link, .pwr, .regs]) (by simp) (by simp)).trans' (hcopy _) (by simp) (by simp)
  · exact ((hpart.regsBut (by simp) _).trans hregs).trans ((hcopy _).regsBut (by simp) _)

theorem exec_decision_fatal (s : State) (f : FaultMsg) (g : Option MapChange) (hrun : s.running = true) (hk : f.subtype = 6) (hs : f ∉ s.fault.seen)
    (hv : f.verdict = 3) (hn : f.node = s.node) (hr : s.pwr.seqRank = 0) :
    ∃ t, exec (.decision f g) s = .next t ∧ t.reg 0xD00001 = 4 ∧ t.link.error = true ∧ t.pwr.source = 7 ∧ t.cnt 0xE0D012 = s.cnt 0xE0D012 + 1 ∧
      keepsBut [.regs, .counts, .link, .pwr, .mgmtOut, .fault] s t ∧ regsBut [0xC00003, 0xD00001] s t := by
  have hnote := note_frame s f
  have hnode : (s.note f).node = s.node := rfl
  obtain ⟨hstate, herr, hsource, hcount, hframe, hregs⟩ := fatal_stops (s.note f) hr
  change ∃ t, live s (fun s => s.onDecision f g) = .next t ∧ _
  refine exists_live hrun (u := (s.note f).fatal 7) ?_ ⟨hstate, herr, hsource, hcount.trans (congrArg (· + 1) (hnote.cnt (by simp) _)),
    hnote.trans' hframe (by simp) (by simp), (hnote.regsBut (by simp) _).trans hregs⟩ fun _ ⟨a, b, c, d, f, r⟩ => ⟨a, b, c, d, f.withQueue, r⟩
  unfold State.onDecision
  rw [if_neg (by simp [hk, State.firstTime, hs])]
  dsimp only
  rw [if_pos (by simp [hv, hn, hnode])]

/-! ### Acknowledgements of decisions (R383) -/

theorem exec_decisionAck_noted (s : State) (f : FaultMsg) (c : Case) (hrun : s.running = true) (hk : f.subtype = 7) (hc : s.fault.cases = [c])
    (hnum : c.num = f.case) (hrole : c.role = 0) (hst : c.st = 3) (hneed : f.sender ∈ c.need) (hack : f.sender ∉ c.acks) :
    ∃ t, exec (.decisionAck f) s = .next t ∧ t.fault.cases = [{ c with acks := c.acks ++ [f.sender] }] ∧ keepsBut [.fault] s t := by
  change ∃ t, live s (fun s => s.onDecisionAck f) = .next t ∧ _
  refine exists_live hrun (u := { s with fault := { s.fault with cases := [{ c with acks := c.acks ++ [f.sender] }] } }) ?_
    ⟨rfl, with_fault_frame s _⟩ fun _ ⟨a, f⟩ => ⟨a, f.withQueue⟩
  unfold State.onDecisionAck
  rw [if_neg (by simp [hk]), ← hnum, caseOf_single hc (by simp [hrole, hst, hneed, hack])]
  exact setCase_single hc rfl rfl

/-! ### Copies on the management network (R385, R478) -/

/-- What a valid copy on the management network does: what its message does, a probe and its answer on the path of the copy. -/
def State.onMessage (s : State) (f : FaultMsg) : State :=
  match f.subtype with
  | 1 => s.onReport f
  | 2 => s.onProbeRequest f
  | 3 => s.onProbe f true
  | 4 => s.onAnswer f true
  | 5 => s.onVote f
  | 6 => s.onDecision f none
  | 7 => s.onDecisionAck f
  | _ => s

/-- A copy under the key that is held is taken as the message. -/
theorem exec_managementCopy_valid {s : State} {f : FaultMsg} {k : List Byte} (hkey : s.sec.mgmtKey = some k) (hsender : f.sender ≠ s.node) :
    exec (.managementCopy f (Config.hmac k (faultBytes f))) s = live s fun s => s.onMessage f := by
  have hlive : ∀ f, live s f = live s fun _ => f s := fun _ => rfl
  change execManagementCopy f _ s = _
  unfold execManagementCopy
  rw [hlive, hlive fun s => s.onMessage f]
  simp only [hkey]
  rw [if_neg (by simp), if_neg (by simpa using hsender)]
  rfl

/-- Two rows of one effect answer one state. -/
theorem exists_live_both {s : State} (f g : State → State) (h : f s = g s) : ∃ t, live s f = .next t ∧ live s g = .next t := by
  refine ⟨_, rfl, ?_⟩
  unfold live
  rw [h]

theorem exec_managementCopy_taken (s : State) (f : FaultMsg) (k : List Byte) (hrun : s.running = true) (hkey : s.sec.mgmtKey = some k)
    (hsender : f.sender ≠ s.node) :
    (f.subtype = 1 → ∃ t, exec (.managementCopy f (Config.hmac k (faultBytes f))) s = .next t ∧ exec (.faultReport f) s = .next t) ∧
    (f.subtype = 2 → ∃ t, exec (.managementCopy f (Config.hmac k (faultBytes f))) s = .next t ∧ exec (.probeRequest f) s = .next t) ∧
    (f.subtype = 5 → ∃ t, exec (.managementCopy f (Config.hmac k (faultBytes f))) s = .next t ∧ exec (.vote f) s = .next t) ∧
    (f.subtype = 6 → ∃ t, exec (.managementCopy f (Config.hmac k (faultBytes f))) s = .next t ∧ exec (.decision f none) s = .next t) ∧
    (f.subtype = 7 → ∃ t, exec (.managementCopy f (Config.hmac k (faultBytes f))) s = .next t ∧ exec (.decisionAck f) s = .next t) ∧
    (f.subtype = 3 → f.node = s.node → ∃ t, exec (.managementCopy f (Config.hmac k (faultBytes f))) s = .next t ∧
      (∃ m, m ∈ t.mgmtOut ∧ m.1 = { f with subtype := 4, sender := s.node, verdict := if s.reg 0x200104 = 2 then 2 else 3 }) ∧ keepsBut [.mgmtOut] s t) := by
  rw [exec_managementCopy_valid hkey hsender]
  refine ⟨fun h => exists_live_both (·.onMessage f) (·.onReport f) (by simp only [State.onMessage, h]),
    fun h => exists_live_both (·.onMessage f) (·.onProbeRequest f) (by simp only [State.onMessage, h]),
    fun h => exists_live_both (·.onMessage f) (·.onVote f) (by simp only [State.onMessage, h]),
    fun h => exists_live_both (·.onMessage f) (·.onDecision f none) (by simp only [State.onMessage, h]),
    fun h => exists_live_both (·.onMessage f) (·.onDecisionAck f) (by simp only [State.onMessage, h]), fun h hn => ?_⟩
  have hout : ∀ a, (s.mgmtCopy a).mgmtOut = s.mgmtOut ++ [(a, Config.hmac k (faultBytes a))] := fun a => by
    unfold State.mgmtCopy
    simp only [hkey]
  refine exists_live hrun (u := s.mgmtCopy { f with subtype := 4, sender := s.node, verdict := s.alignVote }) ?_
    ⟨⟨({ f with subtype := 4, sender := s.node, verdict := s.alignVote },
      Config.hmac k (faultBytes { f with subtype := 4, sender := s.node, verdict := s.alignVote })),
      ?_, ?_⟩, mgmtCopy_frame s _⟩
    fun _ ⟨a, f⟩ => ⟨a, f.withQueue⟩
  · simp only [State.onMessage, h, State.onProbe]
    rw [if_neg (by simp [hn])]
    rfl
  · rw [hout]
    exact List.mem_append_right _ (List.mem_singleton.2 rfl)
  · simp [State.alignVote]

theorem exec_managementCopy_answer (s : State) (f : FaultMsg) (k : List Byte) (c : Case) (hrun : s.running = true) (hkey : s.sec.mgmtKey = some k)
    (hsender : f.sender ≠ s.node) (hk : f.subtype = 4) (hself : f.sender = f.node) (hc : s.fault.cases = [c]) (hnum : c.num = f.case) (hrole : c.role = 0)
    (hst : c.st < 3) :
    ∃ t, exec (.managementCopy f (Config.hmac k (faultBytes f))) s = .next t ∧ t.fault.cases = [{ c with mgmt := true }] ∧ keepsBut [.fault] s t := by
  rw [exec_managementCopy_valid hkey hsender]
  refine exists_live hrun (u := { s with fault := { s.fault with cases := [{ c with mgmt := true }] } }) ?_ ⟨rfl, with_fault_frame s _⟩
    fun _ ⟨a, f⟩ => ⟨a, f.withQueue⟩
  simp only [State.onMessage, hk, State.onAnswer]
  rw [if_neg (by simp [hself]), if_pos trivial, ← hnum, caseOf_single hc (by simp [hrole, hst])]
  exact setCase_single hc rfl rfl

theorem exec_managementCopy_dropped (s : State) (f : FaultMsg) (k mac : List Byte) (hrun : s.running = true) (hkey : s.sec.mgmtKey = some k)
    (hold : s.sec.mgmtOld = none) (hnext : s.sec.mgmtNext = none) (hmac : Config.hmac k (faultBytes f) ≠ mac) :
    ∃ t, exec (.managementCopy f mac) s = .next t ∧ t.cnt 0xE0D006 = s.cnt 0xE0D006 + 1 ∧ keepsBut [.counts] s t ∧ countsBut [0xE0D006] s t := by
  change ∃ t, execManagementCopy f mac s = .next t ∧ _
  unfold execManagementCopy
  refine exists_live hrun (u := s.bump 0xE0D006 1) ?_ ⟨State.cnt_bump_same s _ _, bump_frame s _ _, countsBut_bump s _ _⟩
    fun _ ⟨a, f, n⟩ => ⟨a, f.withQueue, n⟩
  simp only [hkey, hold, hnext]
  exact if_pos (by simpa using hmac)

/-! ### The arbiter decides (R378, R381, R383) -/

theorem faultChange_takes (s : State) (es : List MapEntry) {eff : Nat} (h : s.ftick < eff) : takesOnly s (s.faultChange es eff).1 := by
  unfold State.faultChange
  split
  · exact takesOnly.refl s
  · generalize s.latestMap = m
    obtain ⟨m, e⟩ := m
    obtain ⟨c, hc⟩ : ∃ c : MapChange, c = { epoch := e + 1, eff, origin := 1, digest := mapDigest (applyChange m es), entries := es } := ⟨_, rfl⟩
    have hsend := sendAll_frame s s.liveSet 0x12 0 false (.mapChange c)
    have htake : takesOnly s ((s.sendAll s.liveSet 0x12 0 false (.mapChange c)).takeChange s.node c) := by
      refine (sendAll_takes s s.liveSet 0x12 0 false (m := .mapChange c) rfl).trans ?_
      rcases takeChange_cases (s.sendAll s.liveSet 0x12 0 false (.mapChange c)) s.node c with ⟨hlate, -⟩ | htake
      · rw [ftick_congr (hsend.reg (by simp) _) (hsend.reg (by simp) _), hc] at hlate
        exact absurd h (Nat.not_lt.2 hlate)
      · exact htake
    subst hc
    exact htake

/-- The decision of a case: it is held as decided, sent, counted and kept. -/
def State.announce (s : State) (x : Case) (m : FaultMsg) : State :=
  let s := (s.setCase x).sendFault s.liveSet m
  let s := (s.bump 0xE0D002 1).bumpIf (x.verdict == 0) 0xE0D003
  { s with fault := { s.fault with decisions := s.fault.decisions ++ [m], seen := s.fault.seen ++ [m] } }

/-- What deciding the one case that is due does: the map change of its verdict goes out, then the decision. -/
theorem decideAll_single {s : State} {c : Case} (hc : s.fault.cases = [c]) (hrole : c.role = 0) (hst : c.st = 2) (hdue : decideTick c ≤ s.ftick) :
    ∃ (u : State) (need : List Nat) (m : FaultMsg), s.decideAll (max (effectTick c) (s.ftick + 3)) =
        (u.announce { c with st := 3, verdict := s.verdict c, d := max (effectTick c) (s.ftick + 3), need, acks := [] } m).caseRegs ∧
      u.fault.cases = [c] ∧ u.fault.past = s.fault.past ++ [(c.code, c.node, c.partNo, c.s)] ∧ keepsBut [.fault, .map, .net, .regs, .counts] s u ∧
      countsBut [0xE0C017, 0xE0C01C, 0xE0C00B, 0xE0D00C] s u ∧
      m.subtype = 6 ∧ m.case = c.num ∧ m.node = c.node ∧ m.verdict = s.verdict c ∧ m.d = max (effectTick c) (s.ftick + 3) := by
  generalize hd : max (effectTick c) (s.ftick + 3) = d
  obtain ⟨a, ha⟩ : ∃ a : State, a = { s with fault := { s.fault with past := s.fault.past ++ [(c.code, c.node, c.partNo, c.s)] } } := ⟨_, rfl⟩
  obtain ⟨failed, hfailed⟩ : ∃ l, l = (([(c, s.verdict c)].filter (·.2 == 3)).map (·.1.node)).eraseDups := ⟨_, rfl⟩
  obtain ⟨trays, htrays⟩ : ∃ l,
      l = (([(c, s.verdict c)].filter (·.2 == 2)).map fun x => a.drainedTray x.1.node x.1.partKind x.1.partNo).eraseDups := ⟨_, rfl⟩
  obtain ⟨plan, hplan⟩ : ∃ p, p = planOf a.latestMap.1 failed trays a.fault.respares := ⟨_, rfl⟩
  have hahead : a.ftick < d := by
    rw [ha, ← hd]
    exact lt_of_lt_of_le (Nat.lt_add_of_pos_right (by decide)) (le_max_right _ _)
  have htake := faultChange_takes a plan.entries hahead
  obtain ⟨r, hr⟩ : ∃ r, r = a.faultChange plan.entries d := ⟨_, rfl⟩
  rw [← hr] at htake
  obtain ⟨b, hb⟩ : ∃ b : State, b = r.1.bump 0xE0D00C plan.vacant := ⟨_, rfl⟩
  obtain ⟨u, hu⟩ : ∃ u : State, u = { b with fault := { b.fault with draining := (b.fault.draining ++ trays).eraseDups } } := ⟨_, rfl⟩
  have hfa : keepsBut [.fault] s a := ha ▸ with_fault_frame s _
  have hba : keepsBut [.map, .net, .regs, .counts] a b := hb ▸ htake.1.trans' (bump_frame _ _ _) (by simp) (by simp)
  have hbu : keepsBut [.fault] b u := hu ▸ with_fault_frame b _
  have hfault : b.fault = { s.fault with past := s.fault.past ++ [(c.code, c.node, c.partNo, c.s)] } := (hba .fault (by simp)).trans (by rw [ha])
  have hfilter : ([c].filter fun c => c.role == 0 && c.st == 2 && decide (decideTick c ≤ s.ftick) && max (effectTick c) (s.ftick + 3) == d) = [c] := by
    simp [hrole, hst, hdue, hd]
  refine ⟨u, u.liveSet.filter fun n => n != u.node && !failed.contains n,
    { u.caseMsg c 6 (s.verdict c) with reference := (u.liveSet.find? fun n => !failed.contains n).getD u.node, epoch := r.2.1, d },
    ?_, ?_, ?_, ?_, ?_, rfl, rfl, rfl, rfl, rfl⟩
  · unfold State.decideAll
    rw [hc, hfilter]
    subst ha hfailed htrays hplan hr hb hu
    rfl
  · rw [hu]
    exact (congrArg FaultS.cases hfault).trans hc
  · rw [hu]
    exact congrArg FaultS.past hfault
  · exact (hfa.trans' hba (rs := [.fault, .map, .net, .regs, .counts]) (by simp) (by simp)).trans' hbu (by simp) (by simp)
  · exact (hfa.countsBut (by simp) _).trans ((htake.2.2.trans' (hb ▸ countsBut_bump _ _ _) (by simp) (by simp)).trans (hbu.countsBut (by simp) _))

/-- What announcing the decision of the one case that is held does. -/
theorem announce_fault {s : State} {c x : Case} (m : FaultMsg) (hc : s.fault.cases = [c]) (hnum : c.num = x.num) (hrole : c.role = x.role) :
    (s.announce x m).fault = { s.fault with cases := [x], decisions := s.fault.decisions ++ [m], seen := s.fault.seen ++ [m] } := by
  have hsend := sendFault_frame (s.setCase x) s.liveSet m
  have hcount := (bump_frame ((s.setCase x).sendFault s.liveSet m) 0xE0D002 1).trans (bumpIf_frame _ (x.verdict == 0) 0xE0D003)
  obtain ⟨w, hw⟩ : ∃ w : State, w = (((s.setCase x).sendFault s.liveSet m).bump 0xE0D002 1).bumpIf (x.verdict == 0) 0xE0D003 := ⟨_, rfl⟩
  have hfault : w.fault = (s.setCase x).fault := hw ▸ (hcount .fault (by simp)).trans (hsend .fault (by simp))
  have hkept : (s.announce x m).fault = { w.fault with decisions := w.fault.decisions ++ [m], seen := w.fault.seen ++ [m] } := by
    rw [hw]
    rfl
  rw [hkept, hfault, setCase_single hc hnum hrole]

theorem announce_frame (s : State) (x : Case) (m : FaultMsg) : keepsBut [.fault, .net, .counts, .mgmtOut] s (s.announce x m) := by
  have hsend := (setCase_frame s x).trans' (sendFault_frame _ s.liveSet m) (rs := [.fault, .net, .counts, .mgmtOut]) (by simp) (by simp)
  have hcount := (bump_frame ((s.setCase x).sendFault s.liveSet m) 0xE0D002 1).trans (bumpIf_frame _ (x.verdict == 0) 0xE0D003)
  exact (hsend.trans' hcount (by simp) (by simp)).trans' (with_fault_frame _ _) (List.Subset.refl _) (by simp)

theorem announce_cnt (s : State) (x : Case) (m : FaultMsg) {k : Key} (hk : k ≠ 0xE0C00B) :
    (s.announce x m).cnt k = s.cnt k + (if k = 0xE0D002 then 1 else 0) + if (x.verdict == 0) = true ∧ k = 0xE0D003 then 1 else 0 := by
  have hsend : ((s.setCase x).sendFault s.liveSet m).cnt k = s.cnt k :=
    (sendFault_countsBut _ _ _ k (by simpa using hk)).trans ((setCase_frame s x).cnt (by simp) k)
  rw [← hsend, ← State.cnt_bump, ← State.cnt_bumpIf]
  rfl

theorem exec_decide_decided (s : State) (c : Case) (hrun : s.running = true) (hc : s.fault.cases = [c]) (hrole : c.role = 0) (hst : c.st = 2)
    (hdue : decideTick c ≤ s.ftick) :
    ∃ t x, exec (.decide c.num) s = .next t ∧ t.fault.cases = [x] ∧ x.num = c.num ∧ x.st = 3 ∧ x.verdict = s.verdict c ∧
      x.d = max (effectTick c) (s.ftick + 3) ∧
      (∃ m ∈ t.fault.decisions, m.subtype = 6 ∧ m.case = c.num ∧ m.node = c.node ∧ m.verdict = s.verdict c ∧ m.d = max (effectTick c) (s.ftick + 3)) ∧
      (c.code, c.node, c.partNo, c.s) ∈ t.fault.past ∧ t.cnt 0xE0D002 = s.cnt 0xE0D002 + 1 ∧
      t.cnt 0xE0D003 = s.cnt 0xE0D003 + (if s.verdict c = 0 then 1 else 0) ∧ keepsBut [.fault, .map, .net, .regs, .counts, .mgmtOut] s t := by
  obtain ⟨u, need, m, heq, hcases, hpast, hframe, hcounts, hm⟩ := decideAll_single hc hrole hst hdue
  generalize hx : ({ c with st := 3, verdict := s.verdict c, d := max (effectTick c) (s.ftick + 3), need, acks := [] } : Case) = x at heq
  have hfault := announce_fault (s := u) (x := x) m hcases (by rw [← hx]) (by rw [← hx])
  have hann := announce_frame u x m
  have hregs := caseRegs_frame (u.announce x m)
  have hlast : (u.announce x m).caseRegs.fault = (u.announce x m).fault := hregs .fault (by simp)
  obtain ⟨t, ht, hcs, hms, hps, h2, h3, hk⟩ : ∃ t, live s (fun s => match s.caseOf c.num fun c => c.role == 0 && c.st == 2 && decideTick c ≤ s.ftick with
      | some c => s.decideAll (max (effectTick c) (s.ftick + 3))
      | none => s) = .next t ∧ t.fault.cases = [x] ∧ m ∈ t.fault.decisions ∧ (c.code, c.node, c.partNo, c.s) ∈ t.fault.past ∧
      t.cnt 0xE0D002 = s.cnt 0xE0D002 + 1 ∧ t.cnt 0xE0D003 = s.cnt 0xE0D003 + (if s.verdict c = 0 then 1 else 0) ∧
      keepsBut [.fault, .map, .net, .regs, .counts, .mgmtOut] s t := by
    refine exists_live hrun (u := (u.announce x m).caseRegs) ?_ ⟨?_, ?_, ?_, ?_, ?_, ?_⟩ fun _ ⟨a, b, c, d, e, f⟩ => ⟨a, b, c, d, e, f.withQueue⟩
    · rw [caseOf_single hc (by simp [hrole, hst, hdue]), ← heq]
    · rw [hlast, hfault]
    · rw [hlast, hfault]
      exact List.mem_append_right _ (List.mem_singleton.2 rfl)
    · rw [hlast, hfault, hpast]
      exact List.mem_append_right _ (List.mem_singleton.2 rfl)
    · rw [hregs.cnt (by simp), announce_cnt _ _ _ (by decide), hcounts _ (by decide)]
      simp
    · rw [hregs.cnt (by simp), announce_cnt _ _ _ (by decide), hcounts _ (by decide), ← hx]
      simp
    · exact (hframe.trans' hann (by simp) (by simp)).trans' hregs (List.Subset.refl _) (by simp)
  exact ⟨t, x, ht, hcs, by rw [← hx], by rw [← hx], by rw [← hx], by rw [← hx], ⟨m, hms, hm⟩, hps, h2, h3, hk⟩

/-- Settles O42: one lemma per case of a row of the family, each with what the row leaves unchanged. -/
theorem casesAreDecided : Obligations.CasesAreDecided :=
  ⟨exec_decide_decided, exec_decision_kept, exec_decision_pending, exec_decision_fatal, exec_decision_stale, exec_decisionAck_noted,
    exec_managementCopy_taken, exec_managementCopy_answer, exec_managementCopy_dropped⟩

end Sys2Proof.Machine
end

section
/-! PROOF. The state after a cold power-on (O3). -/

namespace Sys2Proof.Machine

theorem reset_regs : State.reset.regs = [(0x600004, 786432), (0xD00001, 2), (0xD01001, 1)] := rfl

theorem reset_reg_default {k : Key} (hfree : k ≠ 0x600004) (hstate : k ≠ 0xD00001) (hsource : k ≠ 0xD01001) : State.reset.reg k = dfltOf k := by
  have hnone : lk State.reset.regs k = none := by
    rw [reset_regs, lk_cons, if_neg hfree.symm, lk_cons, if_neg hstate.symm, lk_cons, if_neg hsource.symm, lk_nil]
  unfold State.reg
  rw [hnone, Option.getD_none]

theorem reset_load (a n : Nat) : State.reset.load a n 1 = [0] := rfl

theorem reset_cnt (k : Key) : State.reset.cnt k = 0 := rfl

theorem reset_blob (k : Key) : State.reset.blob k = blobDfltOf k := rfl

/-- Settles O3: the state lists three registers and nothing else, so every other one reads its default. -/
theorem resetLeavesDefaults : Obligations.ResetLeavesDefaults :=
  ⟨rfl, rfl, reset_load, reset_cnt, fun _ => reset_reg_default, reset_blob, rfl, reset_memOk⟩

end Sys2Proof.Machine
end

section
/-! PROOF. Memory keeps its canonical form (O4). The commands that are made of moves keep it by their moves (`exec_moves`, of O5); the three that take the power away leave
memory empty (R517) or as it was. -/

namespace Sys2Proof.Machine

/-- Every move keeps the canonical form of memory. -/
theorem Moves.memOk {s t : State} (h : Moves s t) (hs : s.memOk = true) : t.memOk = true := by
  induction h with
  | beside _ hmem => rwa [State.memOk_congr hmem]
  | count s k n => rwa [State.memOk_congr (State.bump_mem s k n)]
  | write s t a bs => exact State.store_memOk t a bs hs
  | clear a n _ hmem =>
    unfold State.memOk
    rw [hmem]
    exact Memory.wf_clear a n hs
  | empty _ hmem =>
    unfold State.memOk
    rw [hmem]
    rfl
  | trans _ _ hst htu => exact htu (hst hs)

/-- What outlives the power holds no memory (R517). -/
theorem storage_memOk (s : State) : s.storage.memOk = true := rfl

theorem coldStart_memOk (s : State) (b : BootIn) (code : Nat) : (s.coldStart b code).memOk = true :=
  (Moves.start (Moves.refl s.storage) b true code).memOk (storage_memOk s)

/-- An effect that holds in every power state keeps the form where its function does. -/
theorem always_memOk {s t : State} {f : State → State} (h : always s f = .next t) (hf : (f s).memOk = true) : t.memOk = true := by
  cases h
  exact hf

theorem exec_coldStart_memOk {s t : State} {b : BootIn} (hs : s.memOk = true) (h : exec (.coldStart b) s = .next t) : t.memOk = true := by
  change execColdStart b s = .next t at h
  unfold execColdStart at h
  refine always_memOk h ?_
  split
  · exact coldStart_memOk s b _
  · exact hs

theorem exec_holdUpEnd_memOk {s t : State} {present : Bool} (hs : s.memOk = true) (h : exec (.holdUpEnd present) s = .next t) : t.memOk = true := by
  change execHoldUpEnd present s = .next t at h
  unfold execHoldUpEnd at h
  refine always_memOk h ?_
  split
  · exact hs
  · exact storage_memOk s

theorem exec_powerCycleCommand_memOk {s t : State} {b : BootIn} (hs : s.memOk = true) (h : exec (.powerCycleCommand b) s = .next t) : t.memOk = true := by
  change execPowerCycleCommand b s = .next t at h
  unfold execPowerCycleCommand at h
  refine always_memOk h ?_
  split
  · exact hs
  · split
    · exact (Moves.refl s).ignored.memOk hs
    · exact coldStart_memOk _ b 6

theorem exec_memOk {i : Instr} {s t : State} (hs : s.memOk = true) (h : exec i s = .next t) : t.memOk = true := by
  by_cases hc : ∃ b, i = .coldStart b
  · obtain ⟨b, rfl⟩ := hc
    exact exec_coldStart_memOk hs h
  by_cases he : ∃ b, i = .holdUpEnd b
  · obtain ⟨b, rfl⟩ := he
    exact exec_holdUpEnd_memOk hs h
  by_cases hp : ∃ b, i = .powerCycleCommand b
  · obtain ⟨b, rfl⟩ := hp
    exact exec_powerCycleCommand_memOk hs h
  · exact (exec_moves (not_exists.1 hc) (not_exists.1 he) (not_exists.1 hp) s t h).memOk hs

/-- Settles O4: an empty queue idles, and every command keeps the form. -/
theorem stepKeepsMemoryForm : Obligations.StepKeepsMemoryForm := by
  unfold Obligations.StepKeepsMemoryForm
  intro s t hs h
  unfold step at h
  split at h
  · injection h with h
    exact h ▸ hs
  · exact exec_memOk (by exact hs) h

end Sys2Proof.Machine
end

section
/-! PROOF. Stored bytes are read back (O30). -/

namespace Sys2Proof.Machine

/-- Settles O30, from the rules of the state's memory. -/
theorem storedBytesAreReadBack : Obligations.StoredBytesAreReadBack :=
  fun _ tenant addr bs hs => ⟨State.load_store_same tenant addr bs hs, fun _ h => State.get_store_out tenant addr bs h, State.store_memOk tenant addr bs hs⟩

end Sys2Proof.Machine
end

section
/-! SUPPORT. Pages of the tiers: finding them after an edit, their zeroing and their homes (R72, R73, R283, R295). -/

namespace Sys2Proof.Machine

/-! ### Finding what was edited -/

/-- An edit that leaves the searched predicate is applied to what is found. -/
theorem find?_updIf_edit {α : Type} {p q : α → Bool} {f : α → α} (l : List α) (h : ∀ x, p (f x) = p x) :
    (updIf q f l).find? p = (l.find? p).map fun x => if q x then f x else x := by
  have hp : (p ∘ fun x => if q x then f x else x) = p := by
    funext x
    simp only [Function.comp]
    split
    · exact h x
    · rfl
  unfold updIf
  rw [List.find?_map, hp]

/-! ### Editing one page -/

/-- A page of a tenant is edited. -/
def State.editPage (s : State) (t n : Nat) (f : Page → Page) : State :=
  { s with tier := { s.tier with pages := updIf (fun q => q.tenant == t && q.page == n) f s.tier.pages } }

@[simp] theorem editPage_frame (s : State) (t n : Nat) (f : Page → Page) : keepsBut [.tier] s (s.editPage t n f) := with_tier_frame s _

/-- An edit that names no page otherwise is seen at its own page only. -/
theorem pageAt_editPage (s : State) (t n a b : Nat) (f : Page → Page) (h : ∀ q, (f q).tenant = q.tenant ∧ (f q).page = q.page) :
    (s.editPage t n f).pageAt a b = (s.pageAt a b).map fun q => if a = t ∧ b = n then f q else q := by
  unfold State.pageAt State.editPage
  rw [find?_updIf_edit _ fun x => by rw [(h x).1, (h x).2]]
  cases hq : s.tier.pages.find? fun p => p.tenant == a && p.page == b with
  | none => rfl
  | some q =>
    obtain ⟨rfl, rfl⟩ : q.tenant = a ∧ q.page = b := by simpa using List.find?_some hq
    simp

theorem pageAt_editPage_same {s : State} {t n : Nat} {p : Page} {f : Page → Page} (h : ∀ q, (f q).tenant = q.tenant ∧ (f q).page = q.page)
    (hp : s.pageAt t n = some p) : (s.editPage t n f).pageAt t n = some (f p) := by
  rw [pageAt_editPage s t n t n f h, hp]
  simp

/-- An edited page is still there. -/
theorem pageAt_editPage_some {s : State} {t n a b : Nat} {p : Page} {f : Page → Page} (h : ∀ q, (f q).tenant = q.tenant ∧ (f q).page = q.page)
    (hp : s.pageAt a b = some p) : (s.editPage t n f).pageAt a b = some (if a = t ∧ b = n then f p else p) := by
  rw [pageAt_editPage s t n a b f h, hp]
  rfl

theorem pageAt_congr {s t : State} (h : t.tier.pages = s.tier.pages) (a b : Nat) : t.pageAt a b = s.pageAt a b := by
  unfold State.pageAt
  rw [h]

theorem regionAt_congr {s t : State} (h : t.tier.regions = s.tier.regions) (a b : Nat) : t.regionAt a b = s.regionAt a b := by
  unfold State.regionAt
  rw [h]

theorem pageAt_names {s : State} {a b : Nat} {p : Page} (h : s.pageAt a b = some p) : p.tenant = a ∧ p.page = b := by
  simpa using List.find?_some h

/-! ### Taking a page (R283) -/

/-- The page taken depends on the registers and the tiers alone. -/
theorem takePage_congr {s t u : State} {board : Bool} {h : PHome} (hr : t.regs = s.regs) (ht : t.tier = s.tier) (e : s.takePage board = some (u, h)) :
    u = s.addFree h (-1) ∧ t.takePage board = some (t.addFree h (-1), h) := by
  have hparts : t.freeParts board = s.freeParts board := by
    unfold State.freeParts
    simp only [ht, State.reg_congr hr]
  unfold State.takePage at e ⊢
  obtain ⟨n, hn, e⟩ := Option.map_eq_some_iff.1 e
  cases e
  rw [hparts, hn]
  exact ⟨rfl, rfl⟩

/-- The home taken lies in the tier asked for, and on the board it holds nothing yet. -/
theorem takePage_home {s u : State} {board : Bool} {h : PHome} (e : s.takePage board = some (u, h)) :
    ∃ n, h = if board then emptyBoard n else .stack n := by
  obtain ⟨n, -, e⟩ := Option.map_eq_some_iff.1 e
  cases e
  exact ⟨n, rfl⟩

theorem addFree_tier (s : State) (h : PHome) (n : Int) : (s.addFree h n).tier.pages = s.tier.pages ∧ (s.addFree h n).tier.regions = s.tier.regions ∧
    (s.addFree h n).tier.moves = s.tier.moves ∧ (s.addFree h n).tier.waits = s.tier.waits := by
  cases h <;> exact ⟨rfl, rfl, rfl, rfl⟩

/-- What a part of the tiers has free after an addition depends on the tiers alone. -/
theorem addFree_tier_congr {s t : State} (h : PHome) (n : Int) (e : t.tier = s.tier) : (t.addFree h n).tier = (s.addFree h n).tier := by
  unfold State.addFree
  rw [e]
  cases h <;> rfl

theorem giveHome_tier (s : State) (h : PHome) (bad : Bool) : (s.giveHome h bad).tier.pages = s.tier.pages ∧ (s.giveHome h bad).tier.regions = s.tier.regions ∧
    (s.giveHome h bad).tier.moves = s.tier.moves ∧ (s.giveHome h bad).tier.waits = s.tier.waits := by
  unfold State.giveHome
  split
  · exact ⟨by simp, by simp, by simp, by simp⟩
  · exact addFree_tier _ _ _

/-! ### What is reported of the tiers (R304) -/

theorem tierRegs_regs (s : State) (t : Nat) : regsBut [0x600004, 0x601005, pagedKey 0x6048 t, pagedKey 0x604C t] s (s.tierRegs t) := by
  intro k hk
  simp only [List.mem_cons, List.not_mem_nil, or_false, not_or] at hk
  obtain ⟨h1, h2, h3, h4⟩ := hk
  unfold State.tierRegs
  rw [State.reg_setReg_ne _ _ h4, State.reg_setReg_ne _ _ h3, State.reg_setReg_ne _ _ h2, State.reg_setReg_ne _ _ h1]

theorem tierRegs_ftick (s : State) (t : Nat) : (s.tierRegs t).ftick = s.ftick :=
  have hbelow (k : Nat) (hk : k < 0x600004) : (s.tierRegs t).reg k = s.reg k := by
    refine tierRegs_regs s t k ?_
    simp only [List.mem_cons, List.not_mem_nil, or_false]
    rintro (rfl | rfl | rfl | rfl)
    · exact absurd hk (by decide)
    · exact absurd hk (by decide)
    · exact absurd hk (by unfold pagedKey; omega)
    · exact absurd hk (by unfold pagedKey; omega)
  ftick_congr (hbelow _ (by decide)) (hbelow _ (by decide))

/-! ### The zeroing of one page (R72, R73) -/

/-- The memory of a page is cleared: a page of the tenant's own, or one of the Molset's own structures (R288). -/
def State.clearPage (s : State) (t n : Nat) : State :=
  if n < 2 ^ 27 then s.zeroRange t (n * pageSize) pageSize else s.zeroRange (hidMem t) (n * pageSize % 2 ^ 48) pageSize

theorem clearPage_frame (s : State) (t n : Nat) : keepsBut [.mem, .poison] s (s.clearPage t n) := by
  unfold State.clearPage
  split
  · exact zeroRange_frame _ _ _ _
  · exact zeroRange_frame _ _ _ _

/-- A cleared page of the tenant's own reads 0. -/
theorem load_clearPage {s : State} {t n : Nat} (hn : n < 2 ^ 27) {i : Nat} (hi : i < pageSize) : (s.clearPage t n).load t (n * pageSize + i) 1 = [0] := by
  have hget : Memory.get (s.clearPage t n).mem (memKey t (n * pageSize + i)) = 0 := by
    unfold State.clearPage
    rw [if_pos hn, State.zeroRange_mem]
    exact Memory.get_clear_in (by unfold memKey; omega) (by unfold memKey; omega)
  simp [State.load, hget]

/-- Clearing a page leaves every byte outside it. -/
theorem get_clearPage_out {s : State} {t n a : Nat} (hn : n < 2 ^ 27) (h : a < memKey t (n * pageSize) ∨ memKey t (n * pageSize) + pageSize ≤ a) :
    Memory.get (s.clearPage t n).mem a = Memory.get s.mem a := by
  unfold State.clearPage
  rw [if_pos hn, State.zeroRange_mem]
  exact Memory.get_clear_out h

/-- The key of the counter of pages zeroed in a tier (R72). -/
def zeroedKey (board : Bool) : Key := if board then 0xE0200D else 0xE0200C

/-- A page that is zeroed is held back no longer, cleared and counted. -/
theorem zeroOne_done {s : State} {z : PageZero} {failed : List Nat} {n : Nat} {p : Page} (l : List Nat) (hp : s.pageAt z.tenant n = some p)
    (hf : failed.contains n = false) :
    zeroOne z failed (s, l) n =
      (((s.editPage z.tenant n fun q => { q with zero := false }).clearPage z.tenant n).bump (zeroedKey z.board) 1, l) := by
  unfold zeroOne
  simp only [hp, hf]
  rfl

/-- A page whose zeroing fails is scored, and another page takes its place, still to be zeroed. -/
theorem zeroOne_failed {s u : State} {z : PageZero} {failed : List Nat} {n : Nat} {p : Page} {h : PHome} (l : List Nat) (hp : s.pageAt z.tenant n = some p)
    (hf : failed.contains n = true) (ht : s.takePage z.board = some (u, h)) :
    zeroOne z failed (s, l) n =
      ((((s.bump 0xE0200E 1).score (homePart p.home).1 (homePart p.home).2 1024).addFree h (-1)).editPage z.tenant n fun q => { q with home := h }, l ++ [n]) := by
  unfold zeroOne
  have hfree : ((s.bump 0xE0200E 1).score (homePart p.home).1 (homePart p.home).2 1024).takePage z.board = _ :=
    (takePage_congr (by simp) (by simp) ht).2
  simp only [hp, hf, Bool.not_true, Bool.false_eq_true, if_false, hfree]
  rfl

/-! ### Zeroings of one page -/

/-- The zeroing has ended. -/
def State.zeroingOver (s : State) (id : Nat) : State := { s with ctl := { s.ctl with zeroings := s.ctl.zeroings.filter fun x => x.id != id } }

@[simp] theorem zeroingOver_frame (s : State) (id : Nat) : keepsBut [.ctl] s (s.zeroingOver id) := with_ctl_frame s _

theorem zeroingOver_ids (s : State) (id : Nat) : ∀ x ∈ (s.zeroingOver id).ctl.zeroings, x.id ≠ id := fun x hx => by
  simpa using (List.mem_filter.1 hx).2

end Sys2Proof.Machine
end

section
/-! PROOF. A page whose zeroing fails (O60). -/

namespace Sys2Proof.Machine

/-- The page of a zeroing is replaced, and the page taken is to be zeroed next. -/
def State.pageReplaced (s : State) (z : PageZero) (n : Nat) (p : Page) (h : PHome) : State :=
  (((((s.zeroingOver z.id).bump 0xE0200E 1).score (homePart p.home).1 (homePart p.home).2 1024).addFree h (-1)).editPage z.tenant n
    fun q => { q with home := h }).tierRegs z.tenant

theorem pageReplaced_tier (s : State) (z : PageZero) (n : Nat) (p : Page) (h : PHome) :
    (s.pageReplaced z n p h).tier = ((s.addFree h (-1)).editPage z.tenant n fun q => { q with home := h }).tier := by
  have hedit := addFree_tier_congr h (-1) (t := ((s.zeroingOver z.id).bump 0xE0200E 1).score (homePart p.home).1 (homePart p.home).2 1024) (s := s) (by simp [State.zeroingOver])
  unfold State.pageReplaced
  rw [tierRegs_frame _ _ .tier (by simp)]
  unfold State.editPage
  simp only [hedit]

theorem pageReplaced_frame (s : State) (z : PageZero) (n : Nat) (p : Page) (h : PHome) :
    keepsBut [.ctl, .tier, .counts, .regs, .fault] s (s.pageReplaced z n p h) :=
  ((((zeroingOver_frame s z.id).trans' (bump_frame _ _ _) (rs := [.ctl, .counts]) (by simp) (by simp)).trans' (score_frame _ _ _ _)
    (rs := [.ctl, .counts, .fault]) (by simp) (by simp)).trans' ((addFree_frame _ _ _).trans (editPage_frame _ _ _ _))
    (rs := [.ctl, .tier, .counts, .fault]) (by simp) (by simp)).trans' (tierRegs_frame _ _) (by simp) (by simp)

/-- After the count of the failure no counter changes. -/
theorem pageReplaced_cnt (s : State) (z : PageZero) (n : Nat) (p : Page) (h : PHome) (k : Key) :
    (s.pageReplaced z n p h).cnt k = s.cnt k + if k = 0xE0200E then 1 else 0 := by
  unfold State.pageReplaced
  rw [(tierRegs_frame _ _).cnt (by simp), (editPage_frame _ _ _ _).cnt (by simp), (addFree_frame _ _ _).cnt (by simp), (score_frame _ _ _ _).cnt (by simp),
    State.cnt_bump, (zeroingOver_frame _ _).cnt (by simp)]

theorem exec_pageZeroingDone_failed (s u : State) (z : PageZero) (n : Nat) (p : Page) (h : PHome) (hrun : s.running = true)
    (hz : s.ctl.zeroings.find? (fun x => x.id == z.id) = some z) (hpages : z.pages = [n]) (hp : s.pageAt z.tenant n = some p)
    (htake : s.takePage z.board = some (u, h)) :
    ∃ t, exec (.pageZeroingDone z.id [n]) s = .next t ∧ t.pageAt z.tenant n = some { p with home := h } ∧
      t.tier.free = u.tier.free ∧ t.tier.bfree = u.tier.bfree ∧
      (∃ x ∈ t.ctl.zeroings, x.tenant = z.tenant ∧ x.pages = [n] ∧ x.id = s.ctl.next) ∧ t.cnt 0xE0200E = s.cnt 0xE0200E + 1 ∧
      t.fault.events = (s.score (homePart p.home).1 (homePart p.home).2 1024).fault.events ∧
      keepsBut [.ctl, .tier, .counts, .regs, .fault] s t ∧ countsBut [0xE0200E] s t := by
  obtain ⟨hu, -⟩ := takePage_congr rfl rfl htake
  have htier := pageReplaced_tier s z n p h
  have hctl : (s.pageReplaced z n p h).ctl = (s.zeroingOver z.id).ctl := by
    unfold State.pageReplaced
    rw [tierRegs_frame _ _ .ctl (by simp), editPage_frame _ _ _ _ .ctl (by simp), addFree_frame _ _ _ .ctl (by simp), score_frame _ _ _ _ .ctl (by simp),
      bump_frame _ _ _ .ctl (by simp)]
  have hfault : (s.pageReplaced z n p h).fault = (s.score (homePart p.home).1 (homePart p.home).2 1024).fault := by
    unfold State.pageReplaced
    rw [tierRegs_frame _ _ .fault (by simp), editPage_frame _ _ _ _ .fault (by simp), addFree_frame _ _ _ .fault (by simp)]
    rfl
  have hzero : keepsBut [.ctl] (s.pageReplaced z n p h) ((s.pageReplaced z n p h).zeroPages { z with pages := [n] }) := with_ctl_frame _ _
  change ∃ t, execPageZeroingDone z.id [n] s = .next t ∧ _
  unfold execPageZeroingDone
  refine exists_live hrun (u := (s.pageReplaced z n p h).zeroPages { z with pages := [n] }) ?_ ⟨?_, ?_, ?_, ?_, ?_, ?_, ?_, ?_⟩
    fun _ ⟨a, b, c, d, e, f, g, c'⟩ => ⟨a, b, c, d, e, f, g.withQueue, c'⟩
  · have hone := zeroOne_failed (s := s.zeroingOver z.id) (failed := [n]) [] hp (by simp)
      (takePage_congr (s := s) (t := s.zeroingOver z.id) rfl rfl htake).2
    simp only [hz, hpages, List.foldl_cons, List.foldl_nil]
    rw [show ({ s with ctl := { s.ctl with zeroings := s.ctl.zeroings.filter fun x => x.id != z.id } } : State) = s.zeroingOver z.id from rfl, hone]
    rfl
  · rw [pageAt_congr (t := (s.pageReplaced z n p h).zeroPages { z with pages := [n] }) (congrArg TierS.pages htier)]
    refine pageAt_editPage_same (fun q => ⟨rfl, rfl⟩) ?_
    rw [pageAt_congr (addFree_tier s h (-1)).1]
    exact hp
  · exact (congrArg TierS.free htier).trans (by rw [hu]; rfl)
  · exact (congrArg TierS.bfree htier).trans (by rw [hu]; rfl)
  · refine ⟨{ z with pages := [n], id := s.ctl.next }, ?_, rfl, rfl, rfl⟩
    simp [State.zeroPages, hctl, State.zeroingOver]
  · rw [hzero.cnt (by simp), pageReplaced_cnt]
    rfl
  · exact congrArg FaultS.events hfault
  · exact (pageReplaced_frame s z n p h).trans (hzero.mono (by simp))
  · intro k hk
    rw [hzero.cnt (by simp), pageReplaced_cnt, if_neg (by simpa using hk)]
    rfl

/-- Settles O60: the page's home is not given back, and the zeroing goes on with the page that takes its place. -/
theorem failedPagesAreReplaced : Obligations.FailedPagesAreReplaced := by
  unfold Obligations.FailedPagesAreReplaced
  exact exec_pageZeroingDone_failed

end Sys2Proof.Machine
end

section
/-! PROOF. Pages are zeroed and moved (O27). -/

namespace Sys2Proof.Machine

/-! ### A zeroing that ends (R72, R290) -/

/-- The one page of a zeroing is zeroed, and counted. -/
def State.pageCleared (s : State) (z : PageZero) (n : Nat) : State :=
  (((s.zeroingOver z.id).editPage z.tenant n fun q => { q with zero := false }).clearPage z.tenant n).bump (zeroedKey z.board) 1

/-- The one page of a zeroing is zeroed, and the tiers are reported. -/
def State.pageZeroed (s : State) (z : PageZero) (n : Nat) : State := (s.pageCleared z n).tierRegs z.tenant

section
variable (s : State) (z : PageZero) (n : Nat)

theorem pageZeroed_frame : keepsBut [.ctl, .tier, .mem, .poison, .counts, .regs] s (s.pageZeroed z n) :=
  ((((zeroingOver_frame s z.id).trans' (editPage_frame _ _ _ _) (rs := [.ctl, .tier]) (by simp) (by simp)).trans' (clearPage_frame _ _ _)
    (rs := [.ctl, .tier, .mem, .poison]) (by simp) (by simp)).trans' (bump_frame _ _ _) (rs := [.ctl, .tier, .mem, .poison, .counts]) (by simp) (by simp)).trans'
    (tierRegs_frame _ _) (by simp) (by simp)

theorem pageZeroed_cnt (k : Key) : (s.pageZeroed z n).cnt k = s.cnt k + if k = zeroedKey z.board then 1 else 0 := by
  unfold State.pageZeroed State.pageCleared
  rw [(tierRegs_frame _ _).cnt (by simp), State.cnt_bump, (clearPage_frame _ _ _).cnt (by simp), (editPage_frame _ _ _ _).cnt (by simp),
    (zeroingOver_frame _ _).cnt (by simp)]

theorem pageZeroed_counts : countsBut [0xE0200C, 0xE0200D] s (s.pageZeroed z n) := fun k hk => by
  simp only [List.mem_cons, List.not_mem_nil, or_false, not_or] at hk
  rw [pageZeroed_cnt, if_neg]
  · rfl
  · unfold zeroedKey
    split
    · exact hk.2
    · exact hk.1

theorem pageZeroed_tier : (s.pageZeroed z n).tier = (s.editPage z.tenant n fun q => { q with zero := false }).tier := by
  unfold State.pageZeroed State.pageCleared
  rw [tierRegs_frame _ _ .tier (by simp), bump_frame _ _ _ .tier (by simp), clearPage_frame _ _ _ .tier (by simp)]
  rfl

theorem pageZeroed_mem : (s.pageZeroed z n).mem = (s.clearPage z.tenant n).mem := by
  have hmem (u : State) (h : u.mem = s.mem) : (u.clearPage z.tenant n).mem = (s.clearPage z.tenant n).mem := by
    unfold State.clearPage
    split
    · rw [State.zeroRange_mem, State.zeroRange_mem, h]
    · rw [State.zeroRange_mem, State.zeroRange_mem, h]
  unfold State.pageZeroed State.pageCleared
  rw [tierRegs_frame _ _ .mem (by simp), bump_frame _ _ _ .mem (by simp)]
  exact hmem _ rfl

theorem pageZeroed_zeroings : ∀ x ∈ (s.pageZeroed z n).ctl.zeroings, x.id ≠ z.id := by
  unfold State.pageZeroed State.pageCleared
  rw [tierRegs_frame _ _ .ctl (by simp), bump_frame _ _ _ .ctl (by simp), clearPage_frame _ _ _ .ctl (by simp)]
  exact zeroingOver_ids s z.id

theorem pageZeroed_ftick : (s.pageZeroed z n).ftick = s.ftick := by
  have hregs : ((((s.zeroingOver z.id).editPage z.tenant n fun q => { q with zero := false }).clearPage z.tenant n).bump (zeroedKey z.board) 1).regs = s.regs := by
    rw [bump_frame _ _ _ .regs (by simp), clearPage_frame _ _ _ .regs (by simp)]
    rfl
  unfold State.pageZeroed State.pageCleared
  rw [tierRegs_ftick]
  exact ftick_congr (State.reg_congr hregs _) (State.reg_congr hregs _)

variable {s z n}

theorem pageZeroed_pageAt {p : Page} (hp : s.pageAt z.tenant n = some p) : (s.pageZeroed z n).pageAt z.tenant n = some { p with zero := false } := by
  rw [pageAt_congr (congrArg TierS.pages (pageZeroed_tier s z n))]
  exact pageAt_editPage_same (fun q => ⟨rfl, rfl⟩) hp

/-- The row's fold over the pages of a zeroing of one page. -/
theorem zeroing_folds {p : Page} (hpages : z.pages = [n]) (hp : s.pageAt z.tenant n = some p) :
    z.pages.foldl (zeroOne z []) ({ s with ctl := { s.ctl with zeroings := s.ctl.zeroings.filter fun x => x.id != z.id } }, []) = (s.pageCleared z n, []) := by
  rw [hpages]
  exact zeroOne_done (s := s.zeroingOver z.id) [] hp (by simp)

end

theorem exec_pageZeroingDone_hidden (s : State) (z : PageZero) (n : Nat) (p : Page) (hrun : s.running = true)
    (hz : s.ctl.zeroings.find? (fun x => x.id == z.id) = some z) (hpages : z.pages = [n]) (hp : s.pageAt z.tenant n = some p) (hn : n < 2 ^ 27)
    (hseq : z.seq = 0) :
    ∃ t, exec (.pageZeroingDone z.id []) s = .next t ∧ t.pageAt z.tenant n = some { p with zero := false } ∧
      (∀ i < pageSize, t.load z.tenant (n * pageSize + i) 1 = [0]) ∧
      (∀ a, (a < memKey z.tenant (n * pageSize) ∨ memKey z.tenant (n * pageSize) + pageSize ≤ a) → Memory.get t.mem a = Memory.get s.mem a) ∧
      (∀ x ∈ t.ctl.zeroings, x.id ≠ z.id) ∧ t.cnt (if z.board then 0xE0200D else 0xE0200C) = s.cnt (if z.board then 0xE0200D else 0xE0200C) + 1 ∧
      keepsBut [.ctl, .tier, .mem, .poison, .counts, .regs] s t ∧ countsBut [0xE0200C, 0xE0200D] s t := by
  have hmem := pageZeroed_mem s z n
  change ∃ t, execPageZeroingDone z.id [] s = .next t ∧ _
  unfold execPageZeroingDone
  refine exists_live hrun (u := s.pageZeroed z n) ?_ ⟨pageZeroed_pageAt hp, fun i hi => ?_, fun a ha => ?_, pageZeroed_zeroings s z n, ?_,
    pageZeroed_frame s z n, pageZeroed_counts s z n⟩ fun _ ⟨a, b, c, d, e, f, g⟩ => ⟨a, b, c, d, e, f.withQueue, g⟩
  · simp [hz, zeroing_folds hpages hp, hseq, State.pageZeroed]
  · rw [State.load_congr hmem]
    exact load_clearPage hn hi
  · rw [hmem]
    exact get_clearPage_out hn ha
  · exact (pageZeroed_cnt s z n (zeroedKey z.board)).trans (by rw [if_pos rfl]; rfl)

theorem exec_pageZeroingDone_region (s : State) (z : PageZero) (n : Nat) (p : Page) (r : Region) (hrun : s.running = true)
    (hz : s.ctl.zeroings.find? (fun x => x.id == z.id) = some z) (hpages : z.pages = [n]) (hp : s.pageAt z.tenant n = some p) (_hn : n < 2 ^ 27)
    (hseq : z.seq ≠ 0) (hkind : z.kind ≠ 6) (hr : s.regionAt z.tenant z.region = some r) (hpage : r.page = n) (hcount : r.count = 1)
    (hdown : (s.sec.tenants.any fun y => y.tenant == z.tenant && y.down) = false) :
    ∃ t, exec (.pageZeroingDone z.id []) s = .next t ∧ t.cnt 0xE0F00C = s.cnt 0xE0F00C + 1 ∧ t.regionAt z.tenant z.region = some r ∧
      keepsBut [.ctl, .tier, .mem, .poison, .counts, .regs, .rings] s t := by
  have hregion : (s.pageZeroed z n).regionAt z.tenant z.region = some r := (regionAt_congr (congrArg TierS.regions (pageZeroed_tier s z n)) _ _).trans hr
  have hall : ((regionPages r).all fun n' => ((s.pageZeroed z n).pageAt z.tenant n').isSome) = true := by
    simp [regionPages, hcount, hpage, pageZeroed_pageAt hp]
  obtain ⟨hcnt, hf⟩ := complete_after z.tenant z.seq 0x0D 0 0 z.tag z.tick [] 0 (pageZeroed_frame s z n) (pageZeroed_counts s z n) (by simp) (by decide) hdown
  change ∃ t, execPageZeroingDone z.id [] s = .next t ∧ _
  unfold execPageZeroingDone
  refine exists_live hrun (u := (s.pageZeroed z n).placeDone z.tenant z.seq 0 z.tag z.tick) ?_ ⟨hcnt, ?_, hf.mono (by simp)⟩
    fun _ ⟨a, b, f⟩ => ⟨a, b, f.withQueue⟩
  · unfold State.pageZeroed at hregion hall ⊢
    simp only [hz, zeroing_folds hpages hp, List.isEmpty_nil, Bool.not_true, Bool.false_eq_true, if_false, beq_iff_eq, hseq, hkind, hregion, hall, if_true]
  · exact (regionAt_congr (congrArg TierS.regions (complete_frame _ _ _ _ _ _ _ _ _ _ .tier (by simp))) _ _).trans hregion

/-- A model's registration completes when its buffers are zeroed (R230). -/
theorem modelZeroed_single {s : State} {z : PageZero} {m : Model} {n : Nat} {p : Page} (hmodels : s.dense.models = [m]) (hslot : m.slot = z.region)
    (htenant : m.tenant = z.tenant) (hready : m.ready = false) (hpages : m.pages = [n]) (hp : s.pageAt z.tenant n = some p) :
    s.modelZeroed z = ({ s with dense := { s.dense with models := [{ m with start := s.ftick + 1, ready := true }] } }.bump 0xE0800E 1).complete
      z.tenant z.seq 6 0 0 z.tag z.tick [] 0 := by
  have hfind : (s.dense.models.find? fun m => m.slot == z.region && m.tenant == z.tenant && !m.ready) = some m := by
    simp [hmodels, hslot, htenant, hready]
  have hall : (m.pages.all fun n => (s.pageAt z.tenant n).isSome) = true := by simp [hpages, hp]
  unfold State.modelZeroed
  simp only [hfind, hall, if_true]
  simp [hmodels, updIf]

theorem exec_pageZeroingDone_model (s : State) (z : PageZero) (n : Nat) (p : Page) (m : Model) (hrun : s.running = true)
    (hz : s.ctl.zeroings.find? (fun x => x.id == z.id) = some z) (hpages : z.pages = [n]) (hp : s.pageAt z.tenant n = some p) (hseq : z.seq ≠ 0)
    (hkind : z.kind = 6) (hmodels : s.dense.models = [m]) (hslot : m.slot = z.region) (htenant : m.tenant = z.tenant) (hready : m.ready = false)
    (hown : m.pages = [n]) (hdown : (s.sec.tenants.any fun y => y.tenant == z.tenant && y.down) = false) :
    ∃ t, exec (.pageZeroingDone z.id []) s = .next t ∧ t.dense.models = [{ m with start := s.ftick + 1, ready := true }] ∧
      t.cnt 0xE0F00C = s.cnt 0xE0F00C + 1 ∧ t.cnt 0xE0800E = s.cnt 0xE0800E + 1 ∧ keepsBut [.ctl, .tier, .mem, .poison, .counts, .regs, .rings, .dense] s t := by
  obtain ⟨a, ha⟩ : ∃ a : State, a = { s.pageZeroed z n with
    dense := { (s.pageZeroed z n).dense with models := [{ m with start := (s.pageZeroed z n).ftick + 1, ready := true }] } } := ⟨_, rfl⟩
  have hfa : keepsBut [.dense] (s.pageZeroed z n) a := ha ▸ with_dense_frame _ _
  have hf := (pageZeroed_frame s z n).trans' (hfa.trans' (bump_frame a 0xE0800E 1) (rs := [.dense, .counts]) (by simp) (by simp))
    (rs := [.ctl, .tier, .mem, .poison, .counts, .regs, .dense]) (by simp) (by simp)
  have hc := (pageZeroed_counts s z n).trans' ((hfa.countsBut (by simp) _).trans (countsBut_bump a 0xE0800E 1))
    (ms := [0xE0200C, 0xE0200D, 0xE0800E]) (by simp) (by simp)
  obtain ⟨hcnt, hfc⟩ := complete_after z.tenant z.seq 6 0 0 z.tag z.tick [] 0 hf hc (by simp) (by decide) hdown
  have hdense : (s.pageZeroed z n).dense = s.dense := pageZeroed_frame s z n .dense (by simp)
  change ∃ t, execPageZeroingDone z.id [] s = .next t ∧ _
  unfold execPageZeroingDone
  refine exists_live hrun (u := (a.bump 0xE0800E 1).complete z.tenant z.seq 6 0 0 z.tag z.tick [] 0) ?_ ⟨?_, hcnt, ?_, hfc.mono (by simp)⟩
    fun _ ⟨a, b, c, f⟩ => ⟨a, b, c, f.withQueue⟩
  · have hmodel := modelZeroed_single (s := s.pageZeroed z n) (z := z) (hdense ▸ hmodels) hslot htenant hready hown (pageZeroed_pageAt hp)
    rw [ha, ← hmodel]
    unfold State.pageZeroed
    simp [hz, zeroing_folds hpages hp, hseq, hkind]
  · rw [complete_frame _ _ _ _ _ _ _ _ _ _ .dense (by simp), bump_frame _ _ _ .dense (by simp), ha, pageZeroed_ftick]
  · rw [complete_counts _ _ _ _ _ _ _ _ _ _ _ (by decide), State.cnt_bump_same, hfa.cnt (by simp), pageZeroed_counts s z n _ (by decide)]

/-! ### The mover (R295 to R297) -/

/-- The moves of the mover are set. -/
def State.withMoves (s : State) (ms : List Move) : State := { s with tier := { s.tier with moves := ms } }

@[simp] theorem withMoves_frame (s : State) (ms : List Move) : keepsBut [.tier] s (s.withMoves ms) := with_tier_frame s _

/-- A page leaves the mover's hand, with no write waiting for it. -/
theorem moveEnd_noWaits {s : State} {m : Move} (page waited : Nat) (h : s.tier.waits = []) :
    s.moveEnd m page waited = s.editPage m.tenant page fun q => { q with inMove := false } := by
  unfold State.moveEnd State.runWaits
  simp only [h, List.any_nil, Bool.false_eq_true, if_false, List.filter_nil, List.foldl_nil]
  unfold State.editPage
  rw [← h]

theorem mover_idle {s : State} (h : s.tier.moves = []) : s.mover = s := by
  unfold State.mover
  simp [h, moverNext]

/-- The mover takes the next page of its first move in hand, unless its block is being reset. -/
theorem mover_next {s : State} {m : Move} {rest : List Move} {p : Nat} {l : List Nat} (h : s.tier.moves = m :: rest) (hpin : s.movePinned m = false)
    (hl : m.left = p :: l) :
    s.mover = if s.resetting 1 0 then s else s.editPage m.tenant p fun q => { q with inMove := true } := by
  unfold State.mover moverNext
  simp [h, hpin, hl, State.editPage]

/-- The last move, with no page left, completes. -/
theorem mover_done {s : State} {m : Move} (h : s.tier.moves = [m]) (hreset : s.resetting 1 0 = false) (hpin : s.movePinned m = false) (hl : m.left = []) :
    s.mover = (s.withMoves []).placeDone m.tenant m.seq (if m.freed then 0x0508 else 0) m.tag m.tick := by
  have hnone : ((s.withMoves []).placeDone m.tenant m.seq (if m.freed then 0x0508 else 0) m.tag m.tick).tier.moves = [] :=
    congrArg TierS.moves (complete_frame (s.withMoves []) _ _ _ _ _ _ _ _ _ .tier (by simp))
  unfold State.mover
  rw [if_neg (by simp [hreset]), h]
  change moverNext (1 + 1) s = _
  rw [moverNext]
  simp only [h, hpin, hl]
  rw [if_neg (by simp)]
  change moverNext 1 ((s.withMoves []).placeDone m.tenant m.seq (if m.freed then 0x0508 else 0) m.tag m.tick) = _
  unfold moverNext
  rw [hnone]

/-! ### The resource time of the system queue (R417) -/

theorem setWq_frame (s : State) (q : WQ) : keepsBut [.sched] s (s.setWq q) := with_sched_frame s _

theorem tagHead_frame (s : State) (res tenant : Nat) (bulk : Bool) (cost : Nat) : keepsBut [.sched, .counts] s (s.tagHead res tenant bulk cost) := by
  unfold State.tagHead
  dsimp only
  split
  · simp
  · exact (setWq_frame _ _).trans' (bumpIf_frame _ _ _) (by simp) (by simp)

theorem tagHead_counts (s : State) (res tenant : Nat) (bulk : Bool) (cost : Nat) : countsBut [0xE0E008] s (s.tagHead res tenant bulk cost) := by
  unfold State.tagHead
  dsimp only
  split
  · simp
  · exact ((setWq_frame _ _).countsBut (by simp) _).trans (countsBut_bumpIf _ _ _)

theorem sleepQueue_frame (s : State) (res tenant : Nat) (bulk : Bool) : keepsBut [.sched] s (s.sleepQueue res tenant bulk) := by
  unfold State.sleepQueue
  dsimp only
  split
  · simp
  · exact setWq_frame _ _

/-- The head of a queue is served, and no bucket pays yet: what a queue of the system is served with. -/
theorem serveWant_system (s : State) (res cost : Nat) (bulk : Bool) :
    keepsBut [.sched] (s.tagHead res systemTenant bulk cost) (s.serveWant res (systemTenant, bulk, cost)) := by
  unfold State.serveWant
  dsimp only
  split
  · simp
  · unfold State.bucketTake
    rw [if_pos (by simp)]
    exact (setWq_frame _ _).trans (with_sched_frame _ _)

theorem serveNow_system_frame (s : State) (res cost : Nat) (bulk : Bool) : keepsBut [.sched, .counts] s (s.serveNow res (systemTenant, bulk, cost)) :=
  (tagHead_frame s res systemTenant bulk cost).trans' ((serveWant_system s res cost bulk).trans (sleepQueue_frame _ _ _ _)) (by simp) (by simp)

theorem serveNow_system_counts (s : State) (res cost : Nat) (bulk : Bool) : countsBut [0xE0E008] s (s.serveNow res (systemTenant, bulk, cost)) :=
  (tagHead_counts s res systemTenant bulk cost).trans (((serveWant_system s res cost bulk).trans (sleepQueue_frame _ _ _ _)).countsBut (by simp) _)

/-! ### A page is switched to its new home (R295) -/

/-- The home that a page is packed into (R295). -/
def packedHome (h : PHome) (map : List (Nat × Nat × Nat)) (n : Nat) : PHome := match h with | .board ch _ _ _ _ => .board ch map (chunksFor n) 0 n | x => x

/-- The blocks of a page that goes to the board, packed. -/
def State.movePacks (s : State) (m : Move) (page : Nat) : List (Nat × Nat × Nat) × Nat := if m.board then s.packPage m.tenant page else ([], 0)

/-- The page moved is counted (R298, R304). -/
def State.moveCounted (s : State) (m : Move) (n : Nat) : State :=
  if m.board then ((s.bump 0xE0A00E 1).bump 0xE0A010 512).bump 0xE0A011 n else s.bump 0xE0A00F 1

/-- The page in hand has left its old home for one that was taken. -/
def State.homeLeft (s : State) (m : Move) (page : Nat) (p : Page) (h : PHome) : State :=
  ((((s.addFree h (-1)).moveCounted m ((s.addFree h (-1)).movePacks m page).2).bump (zeroedKey m.board) 1).serveNow 3 (systemTenant, true, 512)).giveHome
    p.home p.poisoned

/-- The home that a page in hand is packed into. -/
def State.moveHome (s : State) (m : Move) (page : Nat) (h : PHome) : PHome :=
  packedHome h ((s.addFree h (-1)).movePacks m page).1 ((s.addFree h (-1)).movePacks m page).2

/-- The page in hand has its new home, and the mover's list goes on. -/
def State.homeSwitched (s : State) (m : Move) (rest : List Move) (page : Nat) (p : Page) (h : PHome) : State :=
  ((s.homeLeft m page p h).editPage m.tenant page fun q => { q with home := s.moveHome m page h, poisoned := false }).withMoves
    ({ m with left := m.left.drop 1 } :: rest)

/-- The page in hand has left the mover, and the tiers are reported. -/
def State.pageSwitched (s : State) (m : Move) (rest : List Move) (page : Nat) (p : Page) (h : PHome) : State :=
  ((s.homeSwitched m rest page p h).editPage m.tenant page fun q => { q with inMove := false }).tierRegs m.tenant

section
variable {s u : State} {m : Move} {rest : List Move} {page waited : Nat} {p : Page} {h : PHome}

theorem homeLeft_tier (s : State) (m : Move) (page : Nat) (p : Page) (h : PHome) : (s.homeLeft m page p h).tier.pages = s.tier.pages ∧
    (s.homeLeft m page p h).tier.regions = s.tier.regions ∧ (s.homeLeft m page p h).tier.waits = s.tier.waits := by
  have hcount (a : State) (n : Nat) : (a.moveCounted m n).tier = a.tier := by
    unfold State.moveCounted
    split
    · simp
    · simp
  have htier : ((((s.addFree h (-1)).moveCounted m ((s.addFree h (-1)).movePacks m page).2).bump (zeroedKey m.board) 1).serveNow 3
      (systemTenant, true, 512)).tier = (s.addFree h (-1)).tier := by
    rw [serveNow_system_frame _ _ _ _ .tier (by simp), bump_frame _ _ _ .tier (by simp), hcount]
  obtain ⟨hpages, hregions, -, hwaits⟩ := addFree_tier s h (-1)
  obtain ⟨gpages, gregions, -, gwaits⟩ := giveHome_tier ((((s.addFree h (-1)).moveCounted m ((s.addFree h (-1)).movePacks m page).2).bump
    (zeroedKey m.board) 1).serveNow 3 (systemTenant, true, 512)) p.home p.poisoned
  unfold State.homeLeft
  exact ⟨by rw [gpages, htier, hpages], by rw [gregions, htier, hregions], by rw [gwaits, htier, hwaits]⟩

theorem exec_pageMove_switches (hrun : s.running = true) (hmoves : s.tier.moves = m :: rest) (hp : s.pageAt m.tenant page = some p)
    (hhead : m.left.head? = some page) (hfreed : m.freed = false) (hwaits : s.tier.waits = []) (hspent : s.moverSpent = false) (hpin : s.movePinned m = false)
    (hpoison : s.poisoned m.tenant (page * pageSize) pageSize = false) (hroom : s.canTake m.tenant m.board 1 = true)
    (htake : s.takePage m.board = some (u, h)) {P : State → Prop} (h' : P (s.pageSwitched m rest page p h).mover)
    (hq : ∀ t, P t → P { t with pending := s.pending }) : ∃ t, exec (.pageMove m.tenant page none waited) s = .next t ∧ P t := by
  obtain ⟨rfl, -⟩ := takePage_congr rfl rfl htake
  have hkept : ¬m.freed = true := by simp [hfreed]
  change ∃ t, execPageMove m.tenant page none waited s = .next t ∧ _
  unfold execPageMove
  refine exists_live hrun ?_ h' hq
  simp only [hmoves, hp, hhead, hspent, hpin, if_neg hkept, hpoison, hroom, htake, bne_self_eq_false, Bool.or_self, Bool.false_eq_true, if_false,
    Option.isSome_none, Bool.not_true]
  change (((s.homeSwitched m rest page p h).moveEnd m page waited).tierRegs m.tenant).mover = _
  rw [moveEnd_noWaits (s := s.homeSwitched m rest page p h) page waited ((homeLeft_tier s m page p h).2.2.trans hwaits)]
  rfl

theorem moveCounted_frame (s : State) (m : Move) (n : Nat) : keepsBut [.counts] s (s.moveCounted m n) := by
  unfold State.moveCounted
  split
  · exact ((bump_frame _ _ _).trans (bump_frame _ _ _)).trans (bump_frame _ _ _)
  · exact bump_frame _ _ _

/-- The key of the counter of pages moved to a tier (R298). -/
def movedKey (board : Bool) : Key := if board then 0xE0A00E else 0xE0A00F

/-- A page moved counts as moved to its tier, and its blocks as packed if that is the board. -/
theorem moveCounted_cnt (s : State) (m : Move) (n : Nat) {k : Key} (h : k ≠ 0xE0A010 ∧ k ≠ 0xE0A011) :
    (s.moveCounted m n).cnt k = s.cnt k + if k = movedKey m.board then 1 else 0 := by
  unfold State.moveCounted movedKey
  split
  · rw [State.cnt_bump_ne _ _ h.2, State.cnt_bump_ne _ _ h.1, State.cnt_bump]
  · rw [State.cnt_bump]

theorem homeLeft_frame (s : State) (m : Move) (page : Nat) (p : Page) (h : PHome) :
    keepsBut [.tier, .counts, .fault, .sched] s (s.homeLeft m page p h) :=
  ((((addFree_frame s h (-1)).trans' (moveCounted_frame _ _ _) (rs := [.tier, .counts]) (by simp) (by simp)).trans' (bump_frame _ _ _)
    (rs := [.tier, .counts]) (by simp) (by simp)).trans' (serveNow_system_frame _ _ _ _) (rs := [.tier, .counts, .sched]) (by simp) (by simp)).trans'
    (giveHome_frame _ _ _) (by simp) (by simp)

/-- What a page moved may count besides itself: its packed blocks, the queue that wakes, and its home retired. -/
theorem homeLeft_cnt (s : State) (m : Move) (page : Nat) (p : Page) (h : PHome) {k : Key} (hk : k ∉ [0xE0A010, 0xE0A011, 0xE0E008, 0xE0A014]) :
    (s.homeLeft m page p h).cnt k = s.cnt k + (if k = movedKey m.board then 1 else 0) + if k = zeroedKey m.board then 1 else 0 := by
  simp only [List.mem_cons, List.not_mem_nil, or_false, not_or] at hk
  obtain ⟨h1, h2, h3, h4⟩ := hk
  unfold State.homeLeft
  rw [giveHome_counts _ _ _ _ (by simpa using h4), serveNow_system_counts _ _ _ _ _ (by simpa using h3), State.cnt_bump, moveCounted_cnt _ _ _ ⟨h1, h2⟩,
    (addFree_frame _ _ _).cnt (by simp)]

theorem pageSwitched_after (s : State) (m : Move) (rest : List Move) (page : Nat) (p : Page) (h : PHome) :
    keepsBut [.tier, .regs] (s.homeLeft m page p h) (s.pageSwitched m rest page p h) :=
  (((editPage_frame _ _ _ _).trans (withMoves_frame _ _)).trans (editPage_frame _ _ _ _)).trans' (tierRegs_frame _ _) (by simp) (by simp)

theorem pageSwitched_frame (s : State) (m : Move) (rest : List Move) (page : Nat) (p : Page) (h : PHome) :
    keepsBut [.tier, .regs, .counts, .fault, .sched] s (s.pageSwitched m rest page p h) :=
  (homeLeft_frame s m page p h).trans' (pageSwitched_after s m rest page p h) (by simp) (by simp)

theorem pageSwitched_cnt (s : State) (m : Move) (rest : List Move) (page : Nat) (p : Page) (h : PHome) {k : Key}
    (hk : k ∉ [0xE0A010, 0xE0A011, 0xE0E008, 0xE0A014]) :
    (s.pageSwitched m rest page p h).cnt k = s.cnt k + (if k = movedKey m.board then 1 else 0) + if k = zeroedKey m.board then 1 else 0 := by
  rw [(pageSwitched_after s m rest page p h).cnt (by simp), homeLeft_cnt s m page p h hk]

/-- What a page moved may count. -/
theorem pageSwitched_counts (s : State) (m : Move) (rest : List Move) (page : Nat) (p : Page) (h : PHome) :
    countsBut [0xE0A00E, 0xE0A00F, 0xE0200C, 0xE0200D, 0xE0A010, 0xE0A011, 0xE0E008, 0xE0A014] s (s.pageSwitched m rest page p h) := by
  intro k hk
  rw [pageSwitched_cnt s m rest page p h fun hn => hk (by simp at hn ⊢; tauto), if_neg, if_neg]
  · rfl
  · rintro rfl
    exact hk (by unfold zeroedKey; split <;> decide)
  · rintro rfl
    exact hk (by unfold movedKey; split <;> decide)

theorem pageSwitched_moves (s : State) (m : Move) (rest : List Move) (page : Nat) (p : Page) (h : PHome) :
    (s.pageSwitched m rest page p h).tier.moves = { m with left := m.left.drop 1 } :: rest :=
  congrArg TierS.moves (tierRegs_frame _ _ .tier (by simp))

theorem pageSwitched_regions (s : State) (m : Move) (rest : List Move) (page : Nat) (p : Page) (h : PHome) :
    (s.pageSwitched m rest page p h).tier.regions = s.tier.regions :=
  (congrArg TierS.regions (tierRegs_frame _ _ .tier (by simp))).trans (homeLeft_tier s m page p h).2.1

theorem pageSwitched_pageAt (rest : List Move) (h : PHome) (hp : s.pageAt m.tenant page = some p) :
    (s.pageSwitched m rest page p h).pageAt m.tenant page = some { p with home := s.moveHome m page h, poisoned := false, inMove := false } := by
  have hleft : (s.homeLeft m page p h).pageAt m.tenant page = some p := (pageAt_congr (homeLeft_tier s m page p h).1 _ _).trans hp
  have hswitched : (s.homeSwitched m rest page p h).pageAt m.tenant page = some { p with home := s.moveHome m page h, poisoned := false } :=
    pageAt_editPage_same (f := fun q => { q with home := s.moveHome m page h, poisoned := false }) (fun q => ⟨rfl, rfl⟩) hleft
  refine (pageAt_congr (congrArg TierS.pages (tierRegs_frame _ _ .tier (by simp))) _ _).trans ?_
  exact pageAt_editPage_same (f := fun q => { q with inMove := false }) (fun q => ⟨rfl, rfl⟩) hswitched

/-- A page that is moved lies in the tier asked for. -/
theorem moveHome_inStacks (page : Nat) (htake : s.takePage m.board = some (u, h)) (p : Page) :
    ({ p with home := s.moveHome m page h } : Page).inStacks = !m.board := by
  obtain ⟨n, rfl⟩ := takePage_home htake
  cases hb : m.board with
  | true => rfl
  | false => rfl

/-- A region that is not pinned stays so while the regions stay. -/
theorem movePinned_congr {s t : State} {m : Move} (l : List Nat) (h : t.tier.regions = s.tier.regions) :
    t.movePinned { m with left := l } = s.movePinned m := by
  unfold State.movePinned
  rw [regionAt_congr h]

theorem exec_pageMove_goesOn (s u : State) (tenant page next waited : Nat) (more : List Nat) (m : Move) (rest : List Move) (p : Page) (h : PHome)
    (hrun : s.running = true) (hmoves : s.tier.moves = m :: rest) (hp : s.pageAt tenant page = some p) (htenant : m.tenant = tenant)
    (hleft : m.left = page :: next :: more) (hfreed : m.freed = false) (hwaits : s.tier.waits = []) (hspent : s.moverSpent = false)
    (hpin : s.movePinned m = false) (hpoison : s.poisoned tenant (page * pageSize) pageSize = false) (hroom : s.canTake tenant m.board 1 = true)
    (htake : s.takePage m.board = some (u, h)) :
    ∃ t q, exec (.pageMove tenant page none waited) s = .next t ∧ t.pageAt tenant page = some q ∧ q.inStacks = !m.board ∧ q.poisoned = false ∧
      t.tier.moves = { m with left := next :: more } :: rest ∧
      t.cnt (if m.board then 0xE0A00E else 0xE0A00F) = s.cnt (if m.board then 0xE0A00E else 0xE0A00F) + 1 ∧
      t.cnt (if m.board then 0xE0200D else 0xE0200C) = s.cnt (if m.board then 0xE0200D else 0xE0200C) + 1 ∧
      keepsBut [.tier, .regs, .counts, .fault, .sched] s t := by
  subst htenant
  obtain ⟨a, ha⟩ : ∃ a, a = s.pageSwitched m rest page p h := ⟨_, rfl⟩
  have hmv : a.tier.moves = { m with left := next :: more } :: rest := by rw [ha, pageSwitched_moves, hleft]; rfl
  have hpinned : a.movePinned { m with left := next :: more } = false :=
    ha ▸ (movePinned_congr (next :: more) (pageSwitched_regions s m rest page p h)).trans hpin
  have hpa := ha ▸ pageSwitched_pageAt rest h hp
  have hnext := mover_next hmv hpinned rfl
  have hf : keepsBut [.tier] a a.mover ∧ a.mover.tier.moves = a.tier.moves ∧
      ∃ b, a.mover.pageAt m.tenant page = some { p with home := s.moveHome m page h, poisoned := false, inMove := b } := by
    rw [hnext]
    split
    · exact ⟨by simp, rfl, false, hpa⟩
    · refine ⟨editPage_frame _ _ _ _, rfl, ?_⟩
      rw [pageAt_editPage_some (f := fun q => { q with inMove := true }) (fun q => ⟨rfl, rfl⟩) hpa]
      split
      · exact ⟨true, rfl⟩
      · exact ⟨false, rfl⟩
  obtain ⟨hf, hkept, b, hb⟩ := hf
  suffices ∃ t, exec (.pageMove m.tenant page none waited) s = .next t ∧ ∃ q, t.pageAt m.tenant page = some q ∧ q.inStacks = !m.board ∧ q.poisoned = false ∧
      t.tier.moves = { m with left := next :: more } :: rest ∧ t.cnt (movedKey m.board) = s.cnt (movedKey m.board) + 1 ∧
      t.cnt (zeroedKey m.board) = s.cnt (zeroedKey m.board) + 1 ∧ keepsBut [.tier, .regs, .counts, .fault, .sched] s t by
    obtain ⟨t, he, q, hr⟩ := this
    exact ⟨t, q, he, hr⟩
  refine exec_pageMove_switches hrun hmoves hp (by rw [hleft]; rfl) hfreed hwaits hspent hpin hpoison hroom htake (ha ▸ ?_)
    fun _ ⟨q, a, b, c, d, e, g, f⟩ => ⟨q, a, b, c, d, e, g, f.withQueue⟩
  refine ⟨_, hb, moveHome_inStacks page htake { p with poisoned := false, inMove := b }, rfl, hkept.trans hmv, ?_, ?_,
    (ha ▸ pageSwitched_frame s m rest page p h).trans (hf.mono (by simp))⟩
  · rw [hf.cnt (by simp), ha, pageSwitched_cnt s m rest page p h (by cases m.board <;> decide), if_pos rfl, if_neg (by cases m.board <;> decide)]
  · rw [hf.cnt (by simp), ha, pageSwitched_cnt s m rest page p h (by cases m.board <;> decide), if_neg (by cases m.board <;> decide), if_pos rfl]

/-- The last page of the only move has been moved: the move completes. -/
theorem exec_pageMove_last (s u : State) (tenant page waited : Nat) (m : Move) (p : Page) (h : PHome) (hrun : s.running = true) (hmoves : s.tier.moves = [m])
    (hp : s.pageAt tenant page = some p) (htenant : m.tenant = tenant) (hleft : m.left = [page]) (hfreed : m.freed = false) (hwaits : s.tier.waits = [])
    (hspent : s.moverSpent = false) (hpin : s.movePinned m = false) (hreset : s.resetting 1 0 = false)
    (hdown : (s.sec.tenants.any fun y => y.tenant == tenant && y.down) = false) (hpoison : s.poisoned tenant (page * pageSize) pageSize = false)
    (hroom : s.canTake tenant m.board 1 = true) (htake : s.takePage m.board = some (u, h)) :
    ∃ t q, exec (.pageMove tenant page none waited) s = .next t ∧ t.pageAt tenant page = some q ∧ q.inStacks = !m.board ∧ t.tier.moves = [] ∧
      t.cnt 0xE0F00C = s.cnt 0xE0F00C + 1 ∧ keepsBut [.tier, .regs, .counts, .fault, .sched, .rings, .mem, .poison] s t := by
  subst htenant
  obtain ⟨a, ha⟩ : ∃ a, a = s.pageSwitched m [] page p h := ⟨_, rfl⟩
  have hfa : keepsBut [.tier, .regs, .counts, .fault, .sched] s a := ha ▸ pageSwitched_frame s m [] page p h
  have hmv : a.tier.moves = [{ m with left := [] }] := by rw [ha, pageSwitched_moves, hleft]; rfl
  have hpinned : a.movePinned { m with left := [] } = false := ha ▸ (movePinned_congr [] (pageSwitched_regions s m [] page p h)).trans hpin
  have hresetting : a.resetting 1 0 = false := by
    unfold State.resetting at hreset ⊢
    rw [hfa .pwr (by simp), hreset]
  obtain ⟨hcnt, hf⟩ := complete_after m.tenant m.seq 0x0D (if m.freed then 0x0508 else 0) 0 m.tag m.tick [] 0
    (hfa.trans' (withMoves_frame a []) (List.Subset.refl _) (by simp))
    ((ha ▸ pageSwitched_counts s m [] page p h).trans ((withMoves_frame a []).countsBut (by simp) _)) (by simp) (by decide) hdown
  have htier : ((a.withMoves []).placeDone m.tenant m.seq (if m.freed then 0x0508 else 0) m.tag m.tick).tier = (a.withMoves []).tier :=
    complete_frame _ _ _ _ _ _ _ _ _ _ .tier (by simp)
  suffices ∃ t, exec (.pageMove m.tenant page none waited) s = .next t ∧ ∃ q, t.pageAt m.tenant page = some q ∧ q.inStacks = !m.board ∧ t.tier.moves = [] ∧
      t.cnt 0xE0F00C = s.cnt 0xE0F00C + 1 ∧ keepsBut [.tier, .regs, .counts, .fault, .sched, .rings, .mem, .poison] s t by
    obtain ⟨t, he, q, hr⟩ := this
    exact ⟨t, q, he, hr⟩
  refine exec_pageMove_switches hrun hmoves hp (by rw [hleft]; rfl) hfreed hwaits hspent hpin hpoison hroom htake (ha ▸ ?_)
    fun _ ⟨q, a, b, c, d, f⟩ => ⟨q, a, b, c, d, f.withQueue⟩
  rw [mover_done hmv hresetting hpinned rfl]
  dsimp only
  refine ⟨_, ?_, moveHome_inStacks page htake { p with poisoned := false, inMove := false }, congrArg TierS.moves htier, hcnt, hf.mono (by simp)⟩
  rw [pageAt_congr (s := a.withMoves []) (congrArg TierS.pages htier), pageAt_congr (s := a) (t := a.withMoves []) rfl, ha]
  exact pageSwitched_pageAt [] h hp

/-! ### A move that fails, or whose region is gone (R296, R297) -/

theorem readLine_frame (s : State) (t addr n : Nat) (bad badAgain : Bool) :
    keepsBut [.counts, .fault, .poison, .tier] s (s.readLine t addr n bad badAgain).1 := by
  unfold State.readLine
  split
  · simp
  split
  · simp
  dsimp only
  have hscore (h : PHome) := (bump_frame s (errCounter h) 1).trans' (score_frame _ (homePart h).1 (homePart h).2 1024) (rs := [.counts, .fault]) (by simp) (by simp)
  split
  · exact (hscore _).trans' (poisonLine_frame _ _ _) (by simp) (by simp)
  · exact (hscore _).mono (by simp)

theorem readLine_counts (s : State) (t addr n : Nat) (bad badAgain : Bool) : countsBut [0xE0A00B, 0xE0A00D] s (s.readLine t addr n bad badAgain).1 := by
  unfold State.readLine
  split
  · simp
  split
  · simp
  dsimp only
  have hscore (h : PHome) : countsBut [0xE0A00B, 0xE0A00D] s ((s.bump (errCounter h) 1).score (homePart h).1 (homePart h).2 1024) :=
    ((countsBut_bump s (errCounter h) 1).mono (by cases h <;> simp [errCounter])).trans ((score_frame _ _ _ _).countsBut (by simp) _)
  split
  · exact (hscore _).trans ((poisonLine_frame _ _ _).countsBut (by simp) _)
  · exact hscore _

/-- A line that turns out poisoned marks its page so; nothing else of the pages and moves changes. -/
theorem readLine_tier (s : State) (t addr n : Nat) (bad badAgain : Bool) : (s.readLine t addr n bad badAgain).1.tier = s.tier ∨
    (s.readLine t addr n bad badAgain).1.tier = (s.editPage t (addr / pageSize) fun p => { p with poisoned := true }).tier := by
  unfold State.readLine
  split
  · exact .inl rfl
  split
  · exact .inl rfl
  dsimp only
  split
  · refine .inr ?_
    unfold State.poisonLine State.editPage
    simp
  · exact .inl (by simp)

/-- The page in hand is read, and one of its lines is found uncorrectable. -/
def State.moveRead (s : State) (tenant page : Nat) (bad : Option Nat) : State :=
  match bad with
  | some off => if s.poisoned tenant (page * pageSize) pageSize then s else (s.readLine tenant (page * pageSize + off % pageSize) 1 true true).1
  | none => s

theorem moveRead_frame (s : State) (tenant page : Nat) (bad : Option Nat) : keepsBut [.counts, .fault, .poison, .tier] s (s.moveRead tenant page bad) := by
  unfold State.moveRead
  split
  · split
    · simp
    · exact readLine_frame _ _ _ _ _ _
  · simp

theorem moveRead_counts (s : State) (tenant page : Nat) (bad : Option Nat) : countsBut [0xE0A00B, 0xE0A00D] s (s.moveRead tenant page bad) := by
  unfold State.moveRead
  split
  · split
    · simp
    · exact readLine_counts _ _ _ _ _ _
  · simp

/-- A page that cannot be read keeps its home, and the writes that wait go on waiting. -/
theorem moveRead_tier {tenant : Nat} (bad : Option Nat) (hp : s.pageAt tenant page = some p) :
    (∃ q, (s.moveRead tenant page bad).pageAt tenant page = some q ∧ q.home = p.home) ∧ (s.moveRead tenant page bad).tier.waits = s.tier.waits := by
  unfold State.moveRead
  split
  · rename_i off
    split
    · exact ⟨⟨p, hp, rfl⟩, rfl⟩
    · rcases readLine_tier s tenant (page * pageSize + off % pageSize) 1 true true with h | h
      · exact ⟨⟨p, (pageAt_congr (congrArg TierS.pages h) _ _).trans hp, rfl⟩, congrArg TierS.waits h⟩
      · refine ⟨⟨_, (pageAt_congr (congrArg TierS.pages h) _ _).trans (pageAt_editPage_some (f := fun p => { p with poisoned := true })
          (fun q => ⟨rfl, rfl⟩) hp), ?_⟩, (congrArg TierS.waits h).trans rfl⟩
        split
        · rfl
        · rfl
  · exact ⟨⟨p, hp, rfl⟩, rfl⟩

theorem exec_pageMove_fails (s : State) (tenant page waited : Nat) (bad : Option Nat) (m : Move) (p : Page) (hrun : s.running = true)
    (hmoves : s.tier.moves = [m]) (hp : s.pageAt tenant page = some p) (htenant : m.tenant = tenant) (hleft : m.left.head? = some page)
    (hfreed : m.freed = false) (hwaits : s.tier.waits = []) (hspent : s.moverSpent = false) (hpin : s.movePinned m = false)
    (hdown : (s.sec.tenants.any fun y => y.tenant == tenant && y.down) = false)
    (hbad : (s.poisoned tenant (page * pageSize) pageSize || bad.isSome || !s.canTake tenant m.board 1) = true) :
    ∃ t q, exec (.pageMove tenant page bad waited) s = .next t ∧ t.pageAt tenant page = some q ∧ q.home = p.home ∧ q.inMove = false ∧ t.tier.moves = [] ∧
      t.cnt 0xE0A018 = s.cnt 0xE0A018 + 1 ∧ t.cnt 0xE0F00C = s.cnt 0xE0F00C + 1 ∧
      keepsBut [.tier, .counts, .fault, .rings, .mem, .poison] s t := by
  subst htenant
  obtain ⟨⟨q, hq, hhome⟩, hwaiting⟩ := moveRead_tier bad hp
  obtain ⟨a, ha⟩ : ∃ a, a = ((s.moveRead m.tenant page bad).withMoves []).bump 0xE0A018 1 := ⟨_, rfl⟩
  have hfa : keepsBut [.counts, .fault, .poison, .tier] s a :=
    ha ▸ (moveRead_frame s m.tenant page bad).trans ((withMoves_frame _ []).trans' (bump_frame _ 0xE0A018 1) (by simp) (by simp))
  have hca : countsBut [0xE0A00B, 0xE0A00D, 0xE0A018] s a :=
    ha ▸ (moveRead_counts s m.tenant page bad).trans' (((withMoves_frame _ []).countsBut (by simp) _).trans (countsBut_bump _ 0xE0A018 1)) (by simp) (by simp)
  obtain ⟨hcnt, hf⟩ := complete_after m.tenant m.seq 0x0D 0x0505 0 m.tag m.tick [] 0 hfa hca (by simp) (by decide) hdown
  obtain ⟨b, hb⟩ : ∃ b, b = a.placeDone m.tenant m.seq 0x0505 m.tag m.tick := ⟨_, rfl⟩
  have htier : b.tier = ((s.moveRead m.tenant page bad).withMoves []).tier := by
    rw [hb]
    exact (complete_frame _ _ _ _ _ _ _ _ _ _ .tier (by simp)).trans (by rw [ha]; simp)
  have hend : b.moveEnd m page waited = b.editPage m.tenant page fun q => { q with inMove := false } :=
    moveEnd_noWaits page waited ((congrArg TierS.waits htier).trans (hwaiting.trans hwaits))
  have hidle : (b.moveEnd m page waited).mover = b.editPage m.tenant page fun q => { q with inMove := false } := by
    rw [hend]
    exact mover_idle (congrArg TierS.moves htier)
  have hedit := editPage_frame b m.tenant page fun q => { q with inMove := false }
  change ∃ t q, execPageMove m.tenant page bad waited s = .next t ∧ _
  unfold execPageMove
  refine exists_live₂ (y := { q with inMove := false }) hrun (u := b.editPage m.tenant page fun q => { q with inMove := false }) ?_
    ⟨?_, hhome, rfl, congrArg TierS.moves htier, ?_, ?_, ?_⟩ fun _ _ ⟨a, b, c, d, e, g, f⟩ => ⟨a, b, c, d, e, g, f.withQueue⟩
  · have hkept : ¬m.freed = true := by simp [hfreed]
    rw [← hidle, hb, ha]
    cases bad with
    | none =>
      simp only [hmoves, hp, hleft, hspent, hpin, if_neg hkept, hbad, bne_self_eq_false, Bool.or_self, Bool.false_eq_true, if_false, if_true]
      rfl
    | some off =>
      simp only [hmoves, hp, hleft, hspent, hpin, if_neg hkept, bne_self_eq_false, Bool.or_self, Bool.false_eq_true, if_false, Option.isSome_some, Bool.or_true,
        Bool.true_or, if_true]
      rfl
  · exact pageAt_editPage_same (fun q => ⟨rfl, rfl⟩) ((pageAt_congr (congrArg TierS.pages htier) _ _).trans hq)
  · rw [hedit.cnt (by simp), hb]
    unfold State.placeDone
    rw [complete_counts _ _ _ _ _ _ _ _ _ _ _ (by decide), ha, State.cnt_bump_same, (withMoves_frame _ _).cnt (by simp), moveRead_counts _ _ _ _ _ (by decide)]
  · rw [hedit.cnt (by simp), hb]
    exact hcnt
  · exact (hb ▸ hf.mono (by simp) : keepsBut [.tier, .counts, .fault, .rings, .mem, .poison] s b).trans (hedit.mono (by simp))

/-- A page given up leaves the writes that wait for others. -/
theorem dropPage_tier (s : State) (p : Page) : (s.dropPage p).tier.waits = s.tier.waits := by
  have hclear : (if p.page < 2 ^ 27 then (s.giveHome p.home p.poisoned).zeroRange p.tenant (p.page * pageSize) pageSize
      else (s.giveHome p.home p.poisoned).zeroRange (hidMem p.tenant) (p.page * pageSize % 2 ^ 48) pageSize).tier = (s.giveHome p.home p.poisoned).tier := by
    split
    · rfl
    · rfl
  exact (congrArg TierS.waits hclear).trans (giveHome_tier s p.home p.poisoned).2.2.2

theorem exec_pageMove_freed (s : State) (tenant page waited : Nat) (bad : Option Nat) (m : Move) (p : Page) (hrun : s.running = true)
    (hmoves : s.tier.moves = [m]) (hp : s.pageAt tenant page = some p) (htenant : m.tenant = tenant) (hleft : m.left = [page]) (hfreed : m.freed = true)
    (hwaits : s.tier.waits = []) (hspent : s.moverSpent = false) (hreset : s.resetting 1 0 = false)
    (hdown : (s.sec.tenants.any fun y => y.tenant == tenant && y.down) = false) :
    ∃ t, exec (.pageMove tenant page bad waited) s = .next t ∧ t.pageAt tenant page = none ∧ t.tier.moves = [] ∧ t.cnt 0xE0F00C = s.cnt 0xE0F00C + 1 ∧
      keepsBut [.tier, .regs, .counts, .fault, .rings, .mem, .poison] s t := by
  subst htenant
  obtain ⟨hpt, hpp⟩ := pageAt_names hp
  obtain ⟨a, ha⟩ : ∃ a, a = (((s.dropPage p).withMoves [{ m with left := [] }]).editPage m.tenant page fun q => { q with inMove := false }).tierRegs m.tenant :=
    ⟨_, rfl⟩
  have hwaiting : ((s.dropPage p).withMoves [{ m with left := [] }]).tier.waits = [] := (dropPage_tier s p).trans hwaits
  have hfa : keepsBut [.tier, .counts, .fault, .mem, .poison, .regs] s a := ha ▸ (dropPage_frame s p).trans'
    (((withMoves_frame _ _).trans (editPage_frame _ _ _ _)).trans' (tierRegs_frame _ _) (rs := [.tier, .regs]) (by simp) (by simp)) (by simp) (by simp)
  have hca : countsBut [0xE0A014] s a := ha ▸ (dropPage_counts s p).trans
    ((((withMoves_frame _ _).trans (editPage_frame _ _ _ _)).trans' (tierRegs_frame _ _) (rs := [.tier, .regs]) (by simp) (by simp)).countsBut (by simp) _)
  have htier : a.tier = (((s.dropPage p).withMoves [{ m with left := [] }]).editPage m.tenant page fun q => { q with inMove := false }).tier :=
    ha ▸ tierRegs_frame _ _ .tier (by simp)
  have hgone : a.pageAt m.tenant page = none := by
    rw [pageAt_congr (congrArg TierS.pages htier), pageAt_editPage _ _ _ _ _ (fun q => { q with inMove := false }) fun q => ⟨rfl, rfl⟩, Option.map_eq_none_iff]
    unfold State.pageAt
    refine List.find?_eq_none.2 fun x hx => ?_
    have := (List.mem_filter.1 hx).2
    simpa [hpt, hpp, imp_iff_not_or] using this
  have hdone := mover_done (s := a) (m := { m with left := [] }) (congrArg TierS.moves htier)
    (by unfold State.resetting at hreset ⊢; rw [hfa .pwr (by simp), hreset]) (by simp [State.movePinned, hfreed]) rfl
  obtain ⟨hcnt, hf⟩ := complete_after m.tenant m.seq 0x0D (if m.freed then 0x0508 else 0) 0 m.tag m.tick [] 0
    (hfa.trans' (withMoves_frame a []) (List.Subset.refl _) (by simp)) (hca.trans ((withMoves_frame a []).countsBut (by simp) _)) (by simp) (by decide) hdown
  have hlast : ((a.withMoves []).placeDone m.tenant m.seq (if m.freed then 0x0508 else 0) m.tag m.tick).tier = (a.withMoves []).tier :=
    complete_frame _ _ _ _ _ _ _ _ _ _ .tier (by simp)
  change ∃ t, execPageMove m.tenant page bad waited s = .next t ∧ _
  unfold execPageMove
  refine exists_live hrun (u := (a.withMoves []).placeDone m.tenant m.seq (if m.freed then 0x0508 else 0) m.tag m.tick) ?_
    ⟨(pageAt_congr (congrArg TierS.pages hlast) _ _).trans hgone, congrArg TierS.moves hlast, hcnt, hf.mono (by simp)⟩
    fun _ ⟨a, b, c, f⟩ => ⟨a, b, c, f.withQueue⟩
  have hpin : s.movePinned m = false := by simp [State.movePinned, hfreed]
  have hhead : m.left.head? = some page := by rw [hleft]; rfl
  simp only [hmoves, hp, hhead, hspent, hpin, if_pos hfreed, bne_self_eq_false, Bool.or_self, Bool.false_eq_true, if_false]
  change ((((s.dropPage p).withMoves [{ m with left := [] }]).moveEnd m page waited).tierRegs m.tenant).mover = _
  rw [moveEnd_noWaits (s := (s.dropPage p).withMoves [{ m with left := [] }]) page waited hwaiting, ← ha, hdone]
  simp only [hfreed, if_true]

end

/-- Settles O27: a zeroing of one page by what waits for it, and a move by what becomes of its page in hand. -/
theorem pagesAreZeroedAndMoved : Obligations.PagesAreZeroedAndMoved := by
  unfold Obligations.PagesAreZeroedAndMoved
  exact ⟨⟨exec_pageZeroingDone_hidden, exec_pageZeroingDone_region, exec_pageZeroingDone_model⟩, exec_pageMove_goesOn, exec_pageMove_last, exec_pageMove_fails,
    exec_pageMove_freed⟩

end Sys2Proof.Machine
end

section
/-! PROOF. Dense items (O22). A dense item that ends frees its context, and the spindle goes on with its queue (R54). If the head of the queue is an item of another work kind,
the whole bobbin is zeroed for it (R70, R71): a query that is resident there, which no item on the spindle names, is resident no longer, and the spindle leaves its plan. The
plan stands in `copy`. -/

namespace Sys2Proof.Machine

/-- A conversion item of the one layer of model 0, for vector 0 (R232). -/
def lastConversion : Item where
  skein := 1
  shingle := 2 ^ 19
  mask := 0
  stolen := false
  check := false
  kind := 1
  tenant := 1
  role := 0
  index := 0
  shard := 0
  version := 0
  pass := 1
  die := 0
  errors := 0

/-- A gather item of the same role that waits behind it. -/
def gatherBehind : Item := { lastConversion with kind := 2, shingle := 0 }

/-- A linear layer in stacks that reads the job's input. -/
def inputLayer : Layer where
  op := 1
  inFmt := 9
  outFmt := 9
  fn := 0
  inBuf := 0
  in2 := 0
  outBuf := 2
  tier := 0
  n := 1
  l := 1
  eps := 0
  param := 0
  dataAddr := 0
  scaleAddr := 0
  blocks := 1
  fmt := 7
  tagBase := 0
  chanLen := 0
  expAddr := 0
  res := 0

def inputModel : Model where
  slot := 0
  tenant := 1
  handle := 1
  bmax := 1
  layers := [inputLayer]
  params := 0
  start := 0
  stop := none
  pins := []
  pages := []

/-- A job whose conversion step is in hand, with no layer in the staging area. -/
def convertingJob : DJob where
  slot := 0
  model := 0
  seq := 1
  tag := 0
  tenant := 1
  handle := 1
  inAddr := 0
  outAddr := 0
  b := 1
  first := 0
  last := 0
  inFmt := 9
  bulk := false
  adm := 0
  frames := 1
  cost := 1
  ratio := 1
  limit := 1
  layer := 0
  conv1 := true
  started := true
  left := [2 ^ 19]

/-- A query that is resident in table slot 0 of spindle 0. -/
def residentQuery : CopyQ where
  name := { home := 0, skein := 1, qidx := 0 }
  shard := 0
  par := {
    tenant := 1, index := 2, k := 1, r := 0, p := 1, ceil := 1, prefilter := 0, filterMode := 0, filter := 0, bound := 0, metric := 0, dim := 4, sign := 0,
    bulk := false, widen := false }
  vec := [0, 0, 0, 0]
  version := 1
  plan := [0]

/-- Spindle 0 runs the conversion in context 0, in a bobbin that is zeroed for dense work; the gather item waits, and the query is resident. -/
def convertingState : State :=
  { State.reset with
    copy := [residentQuery]
    dense := { models := [inputModel], jobs := [convertingJob] }
    spin := [(0, {
      queue := [gatherBehind]
      ctxs := [{ st := 2, item := some lastConversion }, {}, {}, {}, {}, {}, {}, {}]
      tslots := [(0, { q := some (residentQuery.name, 0) })]
      bobOwner := some { tenant := 1, kind := 1, role := 0 } })] }

/-- The row CONVERSION_ITEM at this state, with an input that cannot be read: the item ends with status 0x0307 (R240). -/
theorem exec_conversionItem_convertingState {t : State} (h : exec (.conversionItem 0 0 ⟨true, ⟨0, false, 0⟩⟩) convertingState = .next t) :
    t.copy = ((convertingState.bump 0xE08005 1).endDense 0 0 lastConversion 9 {} {} fun j => { j with status := 0x0307 }).copy := by
  have hrun : convertingState.running = true := by decide +kernel
  have hdense : convertingState.runningDense 0 0 = some (lastConversion, convertingJob, inputLayer) := by decide +kernel
  have hstall : convertingState.countStall 0 (some 0) 0 = convertingState := by decide +kernel
  change execConversionItem 0 0 ⟨true, ⟨0, false, 0⟩⟩ convertingState = .next t at h
  unfold execConversionItem at h
  rw [live_running hrun] at h
  injection h with h
  rw [← h]
  simp only [hdense]
  unfold State.withEv
  simp only [hstall]
  rfl

/-- The spindle has left the plan of the query. -/
theorem endDense_convertingState_plan :
    (((convertingState.bump 0xE08005 1).endDense 0 0 lastConversion 9 {} {} fun j => { j with status := 0x0307 }).copy.map (·.plan)) = [[]] := by decide +kernel

/-- Refutes O22: the frame of a conversion item that ends leaves out `copy`. In `convertingState` the conversion of a job without a staging area ends with status 0x0307, and the
gather item behind it has the bobbin zeroed. The query resident there loses the spindle of its plan, which is in `copy`. -/
theorem not_denseItemsRun : ¬ Obligations.DenseItemsRun := by
  unfold Obligations.DenseItemsRun
  rintro ⟨-, ⟨-, conversionEnds, -⟩, -⟩
  have hrun : convertingState.running = true := by decide +kernel
  have hdense : convertingState.runningDense 0 0 = some (lastConversion, convertingJob, inputLayer) := by decide +kernel
  obtain ⟨t, k, hexec, -, -, -, -, -, hkeeps⟩ :=
    conversionEnds convertingState 0 0 true ⟨0, false, 0⟩ lastConversion convertingJob inputLayer hrun hdense rfl rfl (by decide) rfl rfl rfl
  have hkept : t.copy = convertingState.copy := hkeeps rfl .copy (by decide)
  have hplan := endDense_convertingState_plan
  rw [← exec_conversionItem_convertingState hexec, hkept] at hplan
  exact absurd hplan (by decide)

end Sys2Proof.Machine
end

section
/-! SUPPORT. The work of the spindles: what their operations change and count, function by function, in the order of Machine/Search and Machine/Spindle. -/

namespace Sys2Proof.Machine

/-! ### Rows whose last step is named -/

/-- A row shown with a witness whose statement speaks of the queue of the next state too. -/
theorem exists_live_at {α : Type} {s u : State} {f : State → State} {P : State → α → Prop} {y : α} (hrun : s.running = true) (he : f s = u)
    (h : P { u with pending := s.pending } y) : ∃ t y, live s f = .next t ∧ P t y :=
  ⟨_, y, live_running hrun, he ▸ h⟩

theorem exists_live_to {s u : State} {f : State → State} {P : State → Prop} (hrun : s.running = true) (he : f s = u)
    (h : P { u with pending := s.pending }) : ∃ t, live s f = .next t ∧ P t :=
  ⟨_, live_running hrun, he ▸ h⟩

/-- What keeps the queue of commands is the next state itself. -/
theorem withQueue_self {ps : List Part} {s t : State} (h : keepsBut ps s t) (hp : Part.pending ∉ ps) : { t with pending := s.pending } = t := by
  rw [← show t.pending = s.pending from h .pending hp]

@[simp] theorem sp_setSp_same (s : State) (n : Nat) (p : Spindle) : (s.setSp n p).sp n = p := by
  unfold State.sp State.setSp
  rw [lk_put_same]
  rfl

theorem sp_setSp_ne (s : State) {n m : Nat} (p : Spindle) (h : m ≠ n) : (s.setSp n p).sp m = s.sp m := by
  unfold State.sp State.setSp
  rw [lk_put_ne _ _ h]

theorem sp_congr {s t : State} (h : t.spin = s.spin) (n : Nat) : t.sp n = s.sp n := by
  unfold State.sp
  rw [h]

/-- What is counted when spindles take up, lend and check items: switches, zeroings (R71, R74), sampled and unchecked items (R75, R79). -/
def spindleCounts : List Key := [0xE02001, 0xE02009, 0xE0200A, 0xE0200B, 0xE02011, 0xE02015]

/-- The second state comes from the first by work of the spindles and their controllers: it changes spindles, the controllers' records and the queries of the copies, and
counts nothing else. -/
structure SpindleWork (s t : State) : Prop where
  frame : keepsBut [.spin, .ctl, .counts, .copy] s t
  counts : countsBut spindleCounts s t

namespace SpindleWork

variable {o s t : State}

/-! ### Rules of the predicate itself -/

theorem refl (s : State) : SpindleWork s s := ⟨keepsBut_refl _ s, countsBut_refl _ s⟩

theorem trans {u : State} (h : SpindleWork s t) (g : SpindleWork t u) : SpindleWork s u := ⟨h.frame.trans g.frame, h.counts.trans g.counts⟩

/-- What keeps the counters and all but spindles, records and copies. -/
theorem keep (h : SpindleWork o s) {ps : List Part} (f : keepsBut ps s t) (hps : ps ⊆ [.spin, .ctl, .copy]) : SpindleWork o t :=
  h.trans ⟨f.mono fun p hp => (List.cons_subset_cons _ (List.cons_subset_cons _ (List.subset_cons_self _ _))) (hps hp),
    f.countsBut (fun hc => by simpa using hps hc) _⟩

theorem ite {p : Prop} {_ : Decidable p} (h : SpindleWork o s) (g : SpindleWork o t) : SpindleWork o (if p then s else t) := by split <;> assumption

theorem foldl {α : Type} {f : State → α → State} (l : List α) (h : SpindleWork o s) (hf : ∀ t a, SpindleWork o t → SpindleWork o (f t a)) :
    SpindleWork o (l.foldl f s) := by
  induction l generalizing s with
  | nil => exact h
  | cons a l ih => exact ih (hf s a h)

theorem cnt (h : SpindleWork s t) {k : Key} (hk : k ∉ spindleCounts) : t.cnt k = s.cnt k := h.counts k hk

/-! ### The rules of the functions -/

theorem bump (h : SpindleWork o s) {k} (hk : k ∈ spindleCounts) (n) : SpindleWork o (s.bump k n) :=
  h.trans ⟨(bump_frame s k n).mono (by simp), (countsBut_bump s k n).mono (by simpa using hk)⟩

theorem bumpIf (h : SpindleWork o s) (b) {k} (hk : k ∈ spindleCounts) : SpindleWork o (s.bumpIf b k) := by
  unfold State.bumpIf
  exact ite (h.bump hk 1) h

theorem setSp (h : SpindleWork o s) (n p) : SpindleWork o (s.setSp n p) := h.keep (setSp_frame s n p) (by simp)

theorem setCopy (h : SpindleWork o s) (c) : SpindleWork o (s.setCopy c) := h.keep (setCopy_frame s c) (by simp)

theorem withCtl (h : SpindleWork o s) (c) : SpindleWork o { s with ctl := c } := h.keep (with_ctl_frame s c) (by simp)

theorem withCopy (h : SpindleWork o s) (c) : SpindleWork o { s with copy := c } := h.keep (with_copy_frame s c) (by simp)

theorem countZero (h : SpindleWork o s) (cycles) : SpindleWork o (s.countZero cycles) := (h.bump (by simp [spindleCounts]) _).bump (by simp [spindleCounts]) _

theorem zeroFor (h : SpindleWork o s) (p held w cycles) : SpindleWork o (s.zeroFor p held w cycles) := by
  unfold State.zeroFor
  exact ite h (h.countZero _)

theorem startCopy (h : SpindleWork o s) (kind src dst dsts) : SpindleWork o (s.startCopy kind src dst dsts) := by
  unfold State.startCopy
  exact ite h (h.withCtl _)

theorem flushSet (h : SpindleWork o s) (sp k) : SpindleWork o (s.flushSet sp k) := by
  unfold State.flushSet
  dsimp only
  split
  · exact h
  · split
    · exact (h.setSp _ _).setCopy _
    · exact h.setSp _ _

theorem flushSets (h : SpindleWork o s) (sp) : SpindleWork o (s.flushSets sp) := foldl _ h fun _ _ h => h.flushSet _ _

theorem zeroBobbin (h : SpindleWork o s) (n w) : SpindleWork o (s.zeroBobbin n w) :=
  ((((h.flushSets _).setSp _ _).countZero _).startCopy _ _ _ _).withCopy _

theorem prepareSp (h : SpindleWork o s) (n w) : SpindleWork o (s.prepareSp n w) := by
  unfold State.prepareSp
  exact ite h (h.zeroBobbin _ _)

theorem bindSlot (h : SpindleWork o s) (n slot q temp) : SpindleWork o (s.bindSlot n slot q temp) := h.setSp _ _

theorem loadSlot (h : SpindleWork o s) (n k c desc T) : SpindleWork o (s.loadSlot n k c desc T) := (h.zeroFor _ _ _ _).setSp _ _

theorem freeOne (h : SpindleWork o s) (n k) : SpindleWork o (s.freeOne n k) := h.setSp _ _

theorem freeSlot (h : SpindleWork o s) (n q) : SpindleWork o (s.freeSlot n q) := foldl _ h fun _ _ h => ite (h.freeOne _ _) h

theorem takeItem (h : SpindleWork o s) (n) : SpindleWork o (s.takeItem n) := by
  unfold State.takeItem
  dsimp only
  split
  · split
    · exact h
    · split
      · exact ite (h.zeroBobbin _ _) h
      · split
        · exact h
        · exact (((h.zeroFor _ _ _ _).bumpIf _ (by simp [spindleCounts])).withCtl _).setSp _ _
  · exact h

theorem schedule (h : SpindleWork o s) (n) : SpindleWork o (s.schedule n) := by
  have taken : SpindleWork o ((List.range 8).foldl (fun s _ => s.takeItem n) s) := foldl _ h fun _ _ h => h.takeItem _
  unfold State.schedule
  dsimp only
  split
  · exact taken
  · split
    · exact (taken.setSp _ _).bump (by simp [spindleCounts]) _
    · exact taken

theorem freeCtx (h : SpindleWork o s) (n c) : SpindleWork o (s.freeCtx n c) := (h.withCtl _).setSp _ _

theorem lendTables (h : SpindleWork o s) {kind src dst qs u} (e : s.lendTables kind src dst qs = some u) : SpindleWork o u.1 := by
  unfold State.lendTables at e
  simp only [Option.ite_none_left_eq_some] at e
  obtain ⟨-, e⟩ := e
  cases e
  exact (foldl _ (h.prepareSp _ _) fun _ _ h => h.bindSlot _ _ _ _).startCopy _ _ _ _

theorem copyTables (h : SpindleWork o s) {kind src dst slots u} (e : s.copyTables kind src dst slots = some u) : SpindleWork o u.1 := by
  obtain ⟨v, lent, rfl⟩ := Option.map_eq_some_iff.1 e
  exact h.lendTables lent

theorem placeCopy (h : SpindleWork o s) {src c it qs u} (e : s.placeCopy src c it qs = some u) : SpindleWork o u := by
  unfold State.placeCopy at e
  split at e
  · cases e
  · obtain ⟨v, lent, rfl⟩ := Option.map_eq_some_iff.1 e
    split at lent
    · exact (h.lendTables lent).setSp _ _
    · cases lent
      exact h.setSp _ _

theorem placeChecker (h : SpindleWork o s) (n it) : SpindleWork o (s.placeChecker n it) := by
  unfold State.placeChecker
  extract_lets qs
  split
  · exact h.bump (by simp [spindleCounts]) _
  · rename_i e
    obtain ⟨c, -, e⟩ := Option.bind_eq_some_iff.1 e
    obtain ⟨v, placed, e⟩ := Option.map_eq_some_iff.1 e
    cases e
    exact ((h.placeCopy placed).withCtl _).schedule _

theorem sampleItem (h : SpindleWork o s) (n it) : SpindleWork o (s.sampleItem n it) := by
  unfold State.sampleItem
  exact ite h ((h.placeChecker _ _).bumpIf _ (by simp [spindleCounts]))

theorem waitItem (h : SpindleWork o s) (it qs) : SpindleWork o (s.waitItem it qs) := h.withCtl _

theorem enqueue (h : SpindleWork o s) (n it) : SpindleWork o (s.enqueue n it) := by
  unfold State.enqueue
  exact ite (h.setSp _ _) (h.waitItem _ _)

theorem sendSegments (h : SpindleWork o s) (sp slots) : SpindleWork o (s.sendSegments sp slots) := by
  refine foldl _ h fun t k h => ?_
  extract_lets flushed x needed
  have hf : SpindleWork o flushed := by
    unfold flushed
    split
    · exact ite h (h.flushSet _ _)
    · exact h
  split
  · exact ite (hf.freeOne _ _) hf
  · exact hf

theorem putBack (h : SpindleWork o s) (sp c it) : SpindleWork o (s.putBack sp c it) := (h.freeCtx _ _).setSp _ _

theorem chooseVictim (h : SpindleWork o s) (n cycle) : SpindleWork o (s.chooseVictim n cycle) := by
  unfold State.chooseVictim
  exact ite (h.setSp _ _) h

theorem headTaken (h : SpindleWork o s) (n v) : SpindleWork o (s.headTaken n v) := (h.setSp _ _).schedule _

theorem followThief (h : SpindleWork o s) (v n it stolen) : SpindleWork o (s.followThief v n it stolen) := by
  unfold State.followThief
  split
  · exact h
  · exact ite (h.withCtl _) (((h.setSp _ _).withCtl _).placeChecker _ _)

theorem receiveTable (h : SpindleWork o s) (n k) : SpindleWork o (s.receiveTable n k) := by
  unfold State.receiveTable
  split
  · split
    · exact h.loadSlot _ _ _ _ _
    · exact h
  · exact h

theorem redealItem (h : SpindleWork o s) {it qs u} (e : s.redealItem it qs = some u) : SpindleWork o u := by
  unfold State.redealItem at e
  extract_lets mine apart fits at e
  split at e
  · cases e
  · obtain ⟨v, lent, rfl⟩ := Option.map_eq_some_iff.1 e
    exact (ite (((h.lendTables lent).withCtl _).setSp _ _) ((((h.lendTables lent).withCtl _).setSp _ _).sampleItem _ _)).schedule _

end SpindleWork

/-- The work of the spindles leaves what they do not own. -/
theorem schedule_frame (s : State) (n : Nat) : keepsBut [.spin, .ctl, .counts, .copy] s (s.schedule n) := ((SpindleWork.refl s).schedule n).frame

end Sys2Proof.Machine
end

section
/-! PROOF. The digests of sampled items (O12). -/

namespace Sys2Proof.Machine

/-! ### Placing a copy leaves the checks (R76, R78) -/

theorem startCopy_checks (s : State) (kind src dst : Nat) (l : List ((QName × Nat) × Nat)) : (s.startCopy kind src dst l).ctl.checks = s.ctl.checks := by
  unfold State.startCopy
  split
  · rfl
  · rfl

theorem flushSet_frame (s : State) (sp k : Nat) : keepsBut [.spin, .copy] s (s.flushSet sp k) := by
  unfold State.flushSet
  dsimp only
  split
  · simp
  · split
    · exact (setSp_frame _ _ _).trans' (setCopy_frame _ _) (by simp) (by simp)
    · exact (setSp_frame _ _ _).mono (by simp)

theorem flushSets_frame (s : State) (sp : Nat) : keepsBut [.spin, .copy] s (s.flushSets sp) := keepsBut_foldl _ s fun _ _ => flushSet_frame _ _ _

theorem countZero_frame (s : State) (cycles : Nat) : keepsBut [.counts] s (s.countZero cycles) := (bump_frame _ _ _).trans (bump_frame _ _ _)

theorem zeroBobbin_checks (s : State) (n : Nat) (o : Owner) : (s.zeroBobbin n o).ctl.checks = s.ctl.checks := by
  unfold State.zeroBobbin
  dsimp only
  rw [startCopy_checks, countZero_frame _ _ .ctl (by simp), setSp_frame _ _ _ .ctl (by simp), flushSets_frame s n .ctl (by simp)]

theorem prepareSp_checks (s : State) (n : Nat) (o : Owner) : (s.prepareSp n o).ctl.checks = s.ctl.checks := by
  unfold State.prepareSp
  extract_lets p same
  split
  · rfl
  · exact zeroBobbin_checks s n o

theorem lendTables_checks {s : State} {kind src dst : Nat} {qs : List (QName × Nat)} {u} (e : s.lendTables kind src dst qs = some u) :
    u.1.ctl.checks = s.ctl.checks := by
  unfold State.lendTables at e
  simp only [Option.ite_none_left_eq_some] at e
  obtain ⟨-, e⟩ := e
  cases e
  have hbind (l : List ((QName × Nat) × Nat)) (b : Bool) (t : State) : keepsBut [.spin] t (l.foldl (fun s x => s.bindSlot dst x.2 x.1 b) t) :=
    keepsBut_foldl l t fun s x => setSp_frame s _ _
  rw [startCopy_checks, hbind _ _ _ .ctl (by simp), prepareSp_checks]

theorem afterWindow_mem (w : Nat) (q : List Item) (it : Item) : it ∈ afterWindow w q it := by simp [afterWindow]

/-- A copy of an item that finds a place waits there in the queue, as a check. -/
theorem placeCopy_queued {s u : State} {src c : Nat} {it : Item} {qs : List (QName × Nat)} (e : s.placeCopy src c it qs = some u) :
    u.ctl.checks = s.ctl.checks ∧ ∃ i ∈ (u.sp c).queue, i.check = true ∧ i.shingle = it.shingle := by
  unfold State.placeCopy at e
  split at e
  · cases e
  obtain ⟨v, lent, rfl⟩ := Option.map_eq_some_iff.1 e
  have hchecks : v.1.ctl.checks = s.ctl.checks := by
    split at lent
    · exact lendTables_checks lent
    · cases lent
      rfl
  refine ⟨hchecks, { it with stolen := true, check := true, mask := if it.kind == 0 then maskOf v.2 else it.mask }, ?_, rfl, rfl⟩
  rw [sp_setSp_same]
  exact afterWindow_mem _ _ _

/-! ### What settles a check (R77 to R79) -/

theorem setCheck_frame (s : State) (k : Check) : keepsBut [.ctl] s (s.setCheck k) := with_ctl_frame s _

theorem chargeSpindle_frame (s : State) (n : Nat) : keepsBut [.counts, .fault] s (s.chargeSpindle n) :=
  (bump_frame _ _ _).trans' (score_frame _ _ _ _) (by simp) (by simp)

theorem takeOuts_frame (s : State) (k : Check) : keepsBut [.dense] s (s.takeOuts k) := by
  unfold State.takeOuts
  split
  · simp
  · exact with_dense_frame s _

/-- The counters of a spindle's disagreements are none of the Molset's (R78). -/
theorem perSpindle_ne (sp : Nat) : perSpindle 0xE021 0xE022 sp ≠ 0xE02012 := by
  unfold perSpindle
  split
  · exact Nat.ne_of_gt (by omega)
  · exact Nat.ne_of_gt (by omega)

/-- A disagreement that the third digest decides is counted, and charged to one spindle. -/
theorem charged_cnt (s : State) (n : Nat) : ((s.bump 0xE02012 1).chargeSpindle n).cnt 0xE02012 = s.cnt 0xE02012 + 1 ∧
    ((s.bump 0xE02012 1).chargeSpindle n).cnt (perSpindle 0xE021 0xE022 n) = s.cnt (perSpindle 0xE021 0xE022 n) + 1 := by
  unfold State.chargeSpindle
  constructor
  · rw [(score_frame _ _ _ _).cnt (by simp), State.cnt_bump_ne _ _ (perSpindle_ne n).symm, State.cnt_bump_same]
  · rw [(score_frame _ _ _ _).cnt (by simp), State.cnt_bump_same, State.cnt_bump_ne _ _ (perSpindle_ne n)]

/-- A query whose integrity flag is set has it. -/
theorem flagIntegrity_copy (s : State) (qs : List (QName × Nat)) : ∀ c ∈ (s.flagIntegrity qs).copy, (c.name, c.shard) ∈ qs → c.integrity = true := by
  intro c hc hq
  obtain ⟨x, -, rfl⟩ := List.mem_map.1 hc
  split
  · rfl
  · rename_i hx
    rw [if_neg hx] at hq
    exact absurd (by simpa using hq) hx

theorem flagIntegrity_frame (s : State) (qs : List (QName × Nat)) : keepsBut [.copy] s (s.flagIntegrity qs) := with_copy_frame s _

/-- Where all digests differ, the queries carry the flag, and nothing else of them or of the checks changes. -/
theorem allDiffer_marks (s : State) (k : Check) : (s.allDiffer k).ctl = s.ctl ∧ (s.allDiffer k).cnt 0xE02013 = s.cnt 0xE02013 + 1 ∧
    (∀ j, j ≠ 0xE02013 → j ≠ 0xE0C00B → (s.allDiffer k).cnt j = s.cnt j) ∧ ∀ c ∈ (s.allDiffer k).copy, (c.name, c.shard) ∈ k.queries → c.integrity = true := by
  obtain ⟨a, ha⟩ : ∃ a, a = (s.bump 0xE02013 1).flagIntegrity k.queries := ⟨_, rfl⟩
  obtain ⟨b, hb, hf⟩ : ∃ b, s.allDiffer k = b.raiseFault 2 b.node partSpindle k.first 0 ∧ keepsBut [.dense] a b := by
    unfold State.allDiffer
    rw [← ha]
    dsimp only
    split
    · exact ⟨_, rfl, with_dense_frame a _⟩
    · exact ⟨_, rfl, by simp⟩
  have hraise := raiseFault_frame b 2 b.node partSpindle k.first 0
  have hcnt (j : Key) (hj : j ≠ 0xE0C00B) : (s.allDiffer k).cnt j = (s.bump 0xE02013 1).cnt j := by
    rw [hb, raiseFault_cnt _ _ _ _ _ _ hj, hf.cnt (by simp), ha, (flagIntegrity_frame _ _).cnt (by simp)]
  have hctl : a.ctl = s.ctl := by rw [ha, flagIntegrity_frame _ _ .ctl (by simp), bump_frame _ _ _ .ctl (by simp)]
  have hcopy : (s.allDiffer k).copy = a.copy := by rw [hb, hraise .copy (by simp), hf .copy (by simp)]
  refine ⟨by rw [hb, hraise .ctl (by simp), hf .ctl (by simp), hctl], by rw [hcnt _ (by decide), State.cnt_bump_same],
    fun j h1 h2 => by rw [hcnt _ h2, State.cnt_bump_ne _ _ h1], ?_⟩
  rw [hcopy, ha]
  exact flagIntegrity_copy _ _

/-! ### The rows -/

section
variable (s : State) (k : Check) (d e g : W64) (n : Nat) (hrun : s.running = true) (hk : s.ctl.checks.find? (fun x => x.id == k.id) = some k)
include hrun hk

theorem exec_digestCompare_agree (h1 : k.d1 = some d) (h2 : k.d2 = some d) (hopen : k.out = 0) (hthird : k.third = none) :
    ∃ t, exec (.digestCompare k.id) s = .next t ∧ t.ctl.checks = updIf (fun x => x.id == k.id) (fun _ => { k with out := 1 }) s.ctl.checks ∧
      keepsBut [.ctl] s t := by
  change ∃ t, execDigestCompare k.id s = .next t ∧ _
  unfold execDigestCompare
  refine exists_live hrun (u := s.setCheck { k with out := 1 }) ?_ ⟨rfl, setCheck_frame s _⟩ fun _ ⟨a, f⟩ => ⟨a, f.withQueue⟩
  simp only [hk, h1, h2, hopen, hthird, bne_self_eq_false, Option.isSome_none, Bool.or_self, Bool.false_eq_true, if_false, beq_self_eq_true, if_true]

theorem exec_digestCompare_third (u : State) (h1 : k.d1 = some d) (h2 : k.d2 = some e) (hne : d ≠ e) (hopen : k.out = 0) (hthird : k.third = none)
    (hn : s.thirdOf k.first k.checker = some n) (hplaced : s.placeCopy k.first n k.item k.queries = some u) :
    ∃ t v, exec (.digestCompare k.id) s = .next t ∧ t = { v.schedule n with pending := s.pending } ∧
      v.ctl.checks = updIf (fun x => x.id == k.id) (fun _ => { k with third := some n }) s.ctl.checks ∧
      (∃ i ∈ (v.sp n).queue, i.check = true ∧ i.shingle = k.item.shingle) ∧ keepsBut [.ctl, .spin, .counts, .copy] s v ∧
      keepsBut [.ctl, .spin, .counts, .copy] s t := by
  obtain ⟨hchecks, hqueued⟩ := placeCopy_queued hplaced
  have hwork := ((SpindleWork.refl s).placeCopy hplaced).keep (setCheck_frame u { k with third := some n }) (by simp)
  have hperm : [Part.spin, .ctl, .counts, .copy] ⊆ [.ctl, .spin, .counts, .copy] := by decide
  change ∃ t v, execDigestCompare k.id s = .next t ∧ _
  unfold execDigestCompare
  refine exists_live_at (u := (u.setCheck { k with third := some n }).schedule n) (y := u.setCheck { k with third := some n }) hrun ?_
    ⟨rfl, ?_, hqueued, hwork.frame.mono hperm, ((hwork.schedule n).frame.mono hperm).withQueue⟩
  · simp only [hk, h1, h2, hopen, hthird, bne_self_eq_false, Option.isSome_none, Bool.or_self, Bool.false_eq_true, if_false, beq_iff_eq, hne, hn, hplaced,
      Option.bind_some, Option.map_some]
  · rw [← hchecks]
    rfl

theorem exec_digestCompare_alone (h1 : k.d1 = some d) (h2 : k.d2 = some e) (hne : d ≠ e) (hopen : k.out = 0) (hthird : k.third = none)
    (hn : s.thirdOf k.first k.checker = none) :
    ∃ t, exec (.digestCompare k.id) s = .next t ∧ t.ctl.checks = updIf (fun x => x.id == k.id) (fun _ => { k with out := 3 }) s.ctl.checks ∧
      t.cnt 0xE02016 = s.cnt 0xE02016 + 1 ∧ t.cnt 0xE02013 = s.cnt 0xE02013 + 1 ∧ (∀ c ∈ t.copy, (c.name, c.shard) ∈ k.queries → c.integrity = true) := by
  obtain ⟨hctl, hcnt, hothers, hcopy⟩ := allDiffer_marks ((s.setCheck { k with out := 3 }).bump 0xE02016 1) k
  change ∃ t, execDigestCompare k.id s = .next t ∧ _
  unfold execDigestCompare
  refine exists_live hrun (u := ((s.setCheck { k with out := 3 }).bump 0xE02016 1).allDiffer k) ?_ ⟨?_, ?_, ?_, hcopy⟩ fun _ h => h
  · simp only [hk, h1, h2, hopen, hthird, bne_self_eq_false, Option.isSome_none, Bool.or_self, Bool.false_eq_true, if_false, beq_iff_eq, hne, hn,
      Option.bind_none]
  · rw [hctl, bump_frame _ _ _ .ctl (by simp)]
    rfl
  · rw [hothers _ (by decide) (by decide), State.cnt_bump_same, (setCheck_frame _ _).cnt (by simp)]
  · rw [hcnt, State.cnt_bump_ne _ _ (by decide), (setCheck_frame _ _).cnt (by simp)]

variable (hthird : k.third = some n) (h1 : k.d1 = some d) (h2 : k.d2 = some e) (hopen : k.out = 0)
include hthird h1 h2 hopen

theorem exec_thirdDigestCompare_first (h3 : k.d3 = some d) :
    ∃ t, exec (.thirdDigestCompare k.id n) s = .next t ∧ t.ctl.checks = updIf (fun x => x.id == k.id) (fun _ => { k with out := 1 }) s.ctl.checks ∧
      t.cnt 0xE02012 = s.cnt 0xE02012 + 1 ∧ t.cnt (perSpindle 0xE021 0xE022 k.checker) = s.cnt (perSpindle 0xE021 0xE022 k.checker) + 1 ∧
      keepsBut [.ctl, .counts, .fault] s t := by
  have hset := setCheck_frame s { k with out := 1 }
  obtain ⟨hc, hcharged⟩ := charged_cnt (s.setCheck { k with out := 1 }) k.checker
  have hf := (bump_frame (s.setCheck { k with out := 1 }) 0xE02012 1).trans' (chargeSpindle_frame _ k.checker) (rs := [.counts, .fault]) (by simp) (by simp)
  change ∃ t, execThirdDigestCompare k.id n s = .next t ∧ _
  unfold execThirdDigestCompare
  refine exists_live hrun (u := ((s.setCheck { k with out := 1 }).bump 0xE02012 1).chargeSpindle k.checker) ?_
    ⟨congrArg CtlS.checks (hf .ctl (by simp)), hc.trans (by rw [hset.cnt (by simp)]), hcharged.trans (by rw [hset.cnt (by simp)]),
      hset.trans' hf (by simp) (by simp)⟩ fun _ ⟨a, b, c, f⟩ => ⟨a, b, c, f.withQueue⟩
  simp only [hk, hthird, h1, h2, h3, hopen, bne_self_eq_false, Bool.or_self, Bool.false_eq_true, if_false, beq_self_eq_true, if_true]

theorem exec_thirdDigestCompare_checker (hne : d ≠ e) (h3 : k.d3 = some e) :
    ∃ t, exec (.thirdDigestCompare k.id n) s = .next t ∧ t.ctl.checks = updIf (fun x => x.id == k.id) (fun _ => { k with out := 2 }) s.ctl.checks ∧
      t.cnt 0xE02012 = s.cnt 0xE02012 + 1 ∧ t.cnt (perSpindle 0xE021 0xE022 k.first) = s.cnt (perSpindle 0xE021 0xE022 k.first) + 1 ∧
      keepsBut [.ctl, .counts, .fault, .dense] s t := by
  have hset := setCheck_frame s { k with out := 2 }
  obtain ⟨hc, hcharged⟩ := charged_cnt (s.setCheck { k with out := 2 }) k.first
  have hf := (bump_frame (s.setCheck { k with out := 2 }) 0xE02012 1).trans' (chargeSpindle_frame _ k.first) (rs := [.counts, .fault]) (by simp) (by simp)
  have htake := takeOuts_frame (((s.setCheck { k with out := 2 }).bump 0xE02012 1).chargeSpindle k.first) k
  change ∃ t, execThirdDigestCompare k.id n s = .next t ∧ _
  unfold execThirdDigestCompare
  refine exists_live hrun (u := (((s.setCheck { k with out := 2 }).bump 0xE02012 1).chargeSpindle k.first).takeOuts k) ?_
    ⟨congrArg CtlS.checks ((htake .ctl (by simp)).trans (hf .ctl (by simp))), ?_, ?_,
      hset.trans' (hf.trans' htake (rs := [.counts, .fault, .dense]) (by simp) (by simp)) (by simp) (by simp)⟩ fun _ ⟨a, b, c, f⟩ => ⟨a, b, c, f.withQueue⟩
  · simp only [hk, hthird, h1, h2, h3, hopen, bne_self_eq_false, Bool.or_self, Bool.false_eq_true, if_false, beq_iff_eq, hne.symm, if_true]
  · rw [htake.cnt (by simp), hc, hset.cnt (by simp)]
  · rw [htake.cnt (by simp), hcharged, hset.cnt (by simp)]

theorem exec_thirdDigestCompare_none (h3 : k.d3 = some g) (hd : g ≠ d) (he : g ≠ e) :
    ∃ t, exec (.thirdDigestCompare k.id n) s = .next t ∧ t.ctl.checks = updIf (fun x => x.id == k.id) (fun _ => { k with out := 3 }) s.ctl.checks ∧
      t.cnt 0xE02013 = s.cnt 0xE02013 + 1 ∧ (∀ c ∈ t.copy, (c.name, c.shard) ∈ k.queries → c.integrity = true) := by
  obtain ⟨hctl, hcnt, -, hcopy⟩ := allDiffer_marks (s.setCheck { k with out := 3 }) k
  change ∃ t, execThirdDigestCompare k.id n s = .next t ∧ _
  unfold execThirdDigestCompare
  refine exists_live hrun (u := (s.setCheck { k with out := 3 }).allDiffer k) ?_
    ⟨congrArg CtlS.checks hctl, hcnt.trans (by rw [(setCheck_frame _ _).cnt (by simp)]), hcopy⟩ fun _ h => h
  simp only [hk, hthird, h1, h2, h3, hopen, bne_self_eq_false, Bool.or_self, Bool.false_eq_true, if_false, beq_iff_eq, hd, he]

end

/-- Settles O12: by the outcomes of the two comparisons. -/
theorem checksOfSampledItems : Obligations.ChecksOfSampledItems := by
  unfold Obligations.ChecksOfSampledItems
  exact ⟨fun s k d hrun hk => exec_digestCompare_agree s k d hrun hk, fun s u k d e n hrun hk => exec_digestCompare_third s k d e n hrun hk u,
    fun s k d e hrun hk => exec_digestCompare_alone s k d e hrun hk,
    fun s k n d e hrun hk hthird h1 h2 h3 hopen => exec_thirdDigestCompare_first s k d e n hrun hk hthird h1 h2 hopen h3,
    fun s k n d e hrun hk hthird h1 h2 hne h3 hopen => exec_thirdDigestCompare_checker s k d e n hrun hk hthird h1 h2 hopen hne h3,
    fun s k n d e g hrun hk hthird h1 h2 h3 hd he hopen => exec_thirdDigestCompare_none s k d e g n hrun hk hthird h1 h2 hopen h3 hd he⟩

end Sys2Proof.Machine
end

section
/-! SUPPORT. Stalls, zeroings and reads that are served: what they change and count (R55, R56, R71, R404, R417). -/

namespace Sys2Proof.Machine

theorem countStall_frame (s : State) (n : Nat) (but : Option Nat) (cycles : Nat) : keepsBut [.counts] s (s.countStall n but cycles) := by
  unfold State.countStall
  extract_lets cs
  split
  · simp
  · exact bump_frame _ _ _

theorem countStall_counts (s : State) (n : Nat) (but : Option Nat) (cycles : Nat) : countsBut [0xE02002, 0xE02003] s (s.countStall n but cycles) := by
  unfold State.countStall
  extract_lets cs
  split
  · simp
  · exact (countsBut_bump _ _ _).mono (by split <;> simp)

theorem zeroFor_frame (s : State) (p : Spindle) (held : Option Owner) (o : Owner) (cycles : Nat) : keepsBut [.counts] s (s.zeroFor p held o cycles) := by
  unfold State.zeroFor
  split
  · simp
  · exact countZero_frame _ _

theorem zeroFor_counts (s : State) (p : Spindle) (held : Option Owner) (o : Owner) (cycles : Nat) :
    countsBut [0xE02009, 0xE0200A] s (s.zeroFor p held o cycles) := by
  unfold State.zeroFor
  split
  · simp
  · exact (countsBut_bump _ _ _).trans' (countsBut_bump _ _ _) (by simp) (by simp)

/-! ### A read that is served (R404, R407, R417) -/

/-- What serving a request changes: the queues and their times, the bucket that pays, whose level is a register from 0xB120:00 on (R407), and the count of queues that wake.
The reads that wait stay. -/
structure Serves (s t : State) : Prop where
  frame : keepsBut [.sched, .counts, .regs] s t
  counts : countsBut [0xE0E008] s t
  below : ∀ k : Key, k < 0xB12000 → t.reg k = s.reg k
  reads : t.sched.reads = s.sched.reads

namespace Serves

variable {s t u : State}

theorem refl (s : State) : Serves s s := ⟨by simp, by simp, fun _ _ => rfl, rfl⟩

theorem trans (h : Serves s t) (g : Serves t u) : Serves s u :=
  ⟨h.frame.trans g.frame, h.counts.trans g.counts, fun k hk => (g.below k hk).trans (h.below k hk), g.reads.trans h.reads⟩

theorem sched (s : State) (x : SchedS) (h : x.reads = s.sched.reads) : Serves s { s with sched := x } :=
  ⟨(with_sched_frame s x).mono (by simp), (with_sched_frame s x).countsBut (by simp) _, fun _ _ => rfl, h⟩

theorem setWq (s : State) (q : WQ) : Serves s (s.setWq q) := sched s _ rfl

theorem tagHead (s : State) (res tenant : Nat) (bulk : Bool) (cost : Nat) : Serves s (s.tagHead res tenant bulk cost) := by
  have hf := tagHead_frame s res tenant bulk cost
  refine ⟨hf.mono (by simp), tagHead_counts s res tenant bulk cost, fun k _ => hf.reg (by simp) k, ?_⟩
  unfold State.tagHead
  dsimp only
  split
  · rfl
  · rw [bumpIf_frame _ _ _ .sched (by simp)]
    rfl

theorem sleepQueue (s : State) (res tenant : Nat) (bulk : Bool) : Serves s (s.sleepQueue res tenant bulk) := by
  unfold State.sleepQueue
  dsimp only
  split
  · exact refl s
  · exact setWq s _

theorem bucketTake (s : State) (t res : Nat) (bulk : Bool) (cost : Nat) : Serves s (s.bucketTake t res bulk cost) := by
  unfold State.bucketTake
  split
  · exact refl s
  · have hf := setRegI_frame s 64 (bucketKey 0xB120 t res bulk) (s.bucketLevel t res bulk - cost)
    refine ⟨hf.mono (by simp), hf.countsBut (by simp) _, fun k hk => State.reg_setReg_ne _ _ (Nat.ne_of_lt (Nat.lt_of_lt_of_le hk ?_)), rfl⟩
    unfold bucketKey pagedKey
    omega

theorem serveWant (s : State) (res : Nat) (w : Want) : Serves s (s.serveWant res w) := by
  unfold State.serveWant
  dsimp only
  split
  · exact tagHead s _ _ _ _
  · refine trans ?_ (bucketTake _ _ _ _ _)
    refine trans ?_ (sched _ _ rfl)
    exact (tagHead s _ _ _ _).trans (setWq _ _)

end Serves

/-- A read that is answered has left its queue. -/
theorem readDone_served (s : State) (what : ReadFor) : keepsBut [.sched, .counts, .regs] s (s.readDone what) ∧ countsBut [0xE0E008] s (s.readDone what) ∧
    (∀ k : Key, k < 0xB12000 → (s.readDone what).reg k = s.reg k) ∧ ∀ r ∈ (s.readDone what).sched.reads, r.what ≠ what := by
  unfold State.readDone
  cases hfind : s.sched.reads.find? fun r => r.what == what with
  | none =>
    refine ⟨by simp, by simp, fun _ _ => rfl, fun r hr => ?_⟩
    simpa using List.find?_eq_none.1 hfind r hr
  | some r =>
    have hleft := with_sched_frame s { s.sched with reads := s.sched.reads.filter fun x => x.what != what }
    have hserved := Serves.serveWant { s with sched := { s.sched with reads := s.sched.reads.filter fun x => x.what != what } } r.res r.want
    have hall {t : State} (h : Serves { s with sched := { s.sched with reads := s.sched.reads.filter fun x => x.what != what } } t) :
        keepsBut [.sched, .counts, .regs] s t ∧ countsBut [0xE0E008] s t ∧ (∀ k : Key, k < 0xB12000 → t.reg k = s.reg k) ∧
          ∀ r ∈ t.sched.reads, r.what ≠ what := by
      refine ⟨hleft.trans' h.frame (by simp) (by simp), (hleft.countsBut (by simp) _).trans h.counts, h.below, fun r hr => ?_⟩
      rw [h.reads] at hr
      simpa using (List.mem_filter.1 hr).2
    dsimp only
    split
    · exact hall hserved
    · exact hall (hserved.trans (.sleepQueue _ _ _ _))

end Sys2Proof.Machine
end

section
/-! PROOF. Deliveries at the spindle (O9). -/

namespace Sys2Proof.Machine

/-! ### Shingles that arrive (R121) -/

section
variable {s : State} {sp slot : Nat}

/-- The slot of a delivery is zeroed if it comes to another owner (R71). -/
def State.arrivalZeroed (s : State) (sp slot : Nat) (it : Item) : State :=
  let x : ShSlot := (lk (s.sp sp).shslots slot).getD {}
  if x.item.isSome then s else s.zeroFor (s.sp sp) x.owner (itemOwner it) 128

/-- A spindle with a slot written. -/
def withShslot (p : Spindle) (slot : Nat) (y : ShSlot) : Spindle := { p with shslots := put p.shslots slot y }

theorem lk_withShslot (s : State) (p : Spindle) (sp slot : Nat) (y : ShSlot) : lk ((s.setSp sp (withShslot p slot y)).sp sp).shslots slot = some y := by
  rw [sp_setSp_same]
  exact lk_put_same _ _ _

theorem arrivalZeroed_frame (s : State) (sp slot : Nat) (it : Item) :
    keepsBut [.counts] s (s.arrivalZeroed sp slot it) ∧ countsBut [0xE02009, 0xE0200A] s (s.arrivalZeroed sp slot it) := by
  unfold State.arrivalZeroed
  dsimp only
  split
  · exact ⟨by simp, by simp⟩
  · exact ⟨zeroFor_frame _ _ _ _ _, zeroFor_counts _ _ _ _ _⟩

/-- A spindle of the Molset whose bobbin is not being zeroed takes deliveries into its four slots. -/
theorem arrival_admitted (hsp : sp < 384) (hslot : slot < 4) (hzero : (s.sp sp).zeroing = false) :
    ¬(decide (sp ≥ 384) || decide (slot ≥ 4) || (s.sp sp).zeroing) = true := by
  simp [hzero, Nat.not_le.2 hsp, Nat.not_le.2 hslot]

section
variable (s : State) (sp slot : Nat) (sh : Shingle) (it : Item) (x : Idx) (h : Thatch) (hrun : s.running = true) (hsp : sp < 384) (hslot : slot < 4)
  (hzero : (s.sp sp).zeroing = false) (hit : arrivalItem s (s.sp sp) ((lk (s.sp sp).shslots slot).getD {}) sh.num = some it)
  (hcopies : (it.stolen && s.ctl.copies.any fun c => c.dst == sp) = false) (hx : s.findIdx it.tenant it.index = some x)
  (hh : thatchOf x it.shard it.version = some h)
include hrun hsp hslot hzero hit hcopies hx hh

theorem exec_shingleArrival_passes (hok : shingleOk sh it.shingle it.version h.im.cbset h.im.m h.im.shape h.im.d = true) :
    ∃ t u, exec (.shingleArrival sp slot sh) s = .next t ∧ t = u.schedule sp ∧
      (∃ y, lk (u.sp sp).shslots slot = some y ∧ y.item = some it ∧ y.sh = some sh ∧ y.tomb = none) ∧
      keepsBut [.spin, .counts] s u ∧ countsBut [0xE02009, 0xE0200A] s u ∧ keepsBut [.spin, .ctl, .counts, .copy] s t := by
  obtain ⟨hz, hcz⟩ := arrivalZeroed_frame s sp slot it
  obtain ⟨y, hy⟩ : ∃ y : ShSlot, y = { ((lk (s.sp sp).shslots slot).getD {} : ShSlot) with
    item := some it, sh := some sh, tomb := none, words := [], owner := some (itemOwner it) } := ⟨_, rfl⟩
  obtain ⟨u, hu⟩ : ∃ u, u = (s.arrivalZeroed sp slot it).setSp sp (withShslot (s.sp sp) slot y) := ⟨_, rfl⟩
  have hset : keepsBut [.spin] (s.arrivalZeroed sp slot it) u := hu ▸ setSp_frame _ _ _
  have hf : keepsBut [.spin, .counts] s u := hz.trans' hset (by simp) (by simp)
  have ht : keepsBut [.spin, .ctl, .counts, .copy] s (u.schedule sp) := hf.trans' (schedule_frame u sp) (by simp) (by simp)
  change ∃ t y, execShingleArrival sp slot sh s = .next t ∧ _
  unfold execShingleArrival
  refine exists_live_at (u := u.schedule sp) (y := u) hrun ?_ ⟨withQueue_self ht (by simp), ⟨y, hu ▸ lk_withShslot _ _ _ _ _, ?_⟩, hf,
    hcz.trans (hset.countsBut (by simp) _), ht.withQueue⟩
  · simp only [if_neg (arrival_admitted hsp hslot hzero), hit, hcopies, hx, hh, hok, Bool.false_eq_true, if_false, if_true, Option.bind_some]
    rw [hu, hy]
    rfl
  · rw [hy]
    exact ⟨rfl, rfl, rfl⟩

theorem exec_shingleArrival_refetched (hok : shingleOk sh it.shingle it.version h.im.cbset h.im.m h.im.shape h.im.d = false)
    (hfails : ((lk (s.sp sp).shslots slot).getD {}).fails < s.reg 0x40100C) :
    ∃ t, exec (.shingleArrival sp slot sh) s = .next t ∧ t.cnt 0xE04007 = s.cnt 0xE04007 + 1 ∧
      (∃ y, lk (t.sp sp).shslots slot = some y ∧ y.sh = none ∧ y.fails = ((lk (s.sp sp).shslots slot).getD {}).fails + 1) ∧
      keepsBut [.spin, .counts] s t ∧ countsBut [0xE04007, 0xE02009, 0xE0200A] s t := by
  obtain ⟨hz, hcz⟩ := arrivalZeroed_frame s sp slot it
  obtain ⟨y, hy⟩ : ∃ y : ShSlot, y = { ((lk (s.sp sp).shslots slot).getD {} : ShSlot) with
    item := some it, sh := none, fails := ((lk (s.sp sp).shslots slot).getD {}).fails + 1, owner := some (itemOwner it) } := ⟨_, rfl⟩
  obtain ⟨u, hu⟩ : ∃ u, u = ((s.arrivalZeroed sp slot it).bump 0xE04007 1).setSp sp (withShslot (s.sp sp) slot y) := ⟨_, rfl⟩
  have hset : keepsBut [.spin] ((s.arrivalZeroed sp slot it).bump 0xE04007 1) u := hu ▸ setSp_frame _ _ _
  have hcounted := hz.trans' (bump_frame (s.arrivalZeroed sp slot it) 0xE04007 1) (rs := [.counts]) (by simp) (by simp)
  have hreg : ((s.arrivalZeroed sp slot it).bump 0xE04007 1).reg 0x40100C = s.reg 0x40100C := hcounted.reg (by simp) _
  change ∃ t, execShingleArrival sp slot sh s = .next t ∧ _
  unfold execShingleArrival
  refine exists_live (u := u) hrun ?_ ⟨?_, ⟨y, hu ▸ lk_withShslot _ _ _ _ _, ?_⟩, hcounted.trans' hset (by simp) (by simp), ?_⟩
    fun _ ⟨a, b, f, c⟩ => ⟨a, b, f.withQueue, c⟩
  · simp only [if_neg (arrival_admitted hsp hslot hzero), hit, hcopies, hx, hh, hok, Bool.false_eq_true, if_false, Option.bind_some]
    refine (if_pos ?_).trans ?_
    · exact hreg.symm ▸ hfails
    · rw [hu, hy]
      rfl
  · rw [hset.cnt (by simp), State.cnt_bump_same, hcz _ (by decide)]
  · rw [hy]
    exact ⟨rfl, rfl⟩
  · exact ((hcz.mono (by simp)).trans ((countsBut_bump _ _ _).mono (by simp))).trans (hset.countsBut (by simp) _)

/-- The shingle that is abandoned holds no item. -/
theorem exec_shingleArrival_abandoned (hok : shingleOk sh it.shingle it.version h.im.cbset h.im.m h.im.shape h.im.d = false)
    (hfails : s.reg 0x40100C ≤ ((lk (s.sp sp).shslots slot).getD {}).fails) :
    ∃ t u, exec (.shingleArrival sp slot sh) s = .next t ∧ t = u.schedule sp ∧ u.cnt 0xE04007 = s.cnt 0xE04007 + 1 ∧ u.cnt 0xE04008 = s.cnt 0xE04008 + 1 ∧
      (∃ y z, lk (u.sp sp).shslots slot = some y ∧ y.sh = some z ∧ z.count = 0 ∧ z.ids = []) ∧
      (∀ c ∈ u.copy, (c.name, c.shard) ∈ itemQueries (s.sp sp) it → c.integrity = true) ∧ keepsBut [.spin, .counts, .copy, .fault, .free] s u := by
  obtain ⟨hz, hcz⟩ := arrivalZeroed_frame s sp slot it
  obtain ⟨z, hzd⟩ : ∃ z : Shingle, z = { sh with num := it.shingle, count := 0, ids := [], signs := [], codes := [] } := ⟨_, rfl⟩
  obtain ⟨y, hy⟩ : ∃ y : ShSlot, y = { ((lk (s.sp sp).shslots slot).getD {} : ShSlot) with
    item := some it, sh := some z, tomb := none, words := [], fails := ((lk (s.sp sp).shslots slot).getD {}).fails + 1, owner := some (itemOwner it) } := ⟨_, rfl⟩
  obtain ⟨a, ha⟩ : ∃ a, a = (s.arrivalZeroed sp slot it).bump 0xE04007 1 := ⟨_, rfl⟩
  have hfa : keepsBut [.counts] s a := ha ▸ hz.trans (bump_frame (s.arrivalZeroed sp slot it) 0xE04007 1)
  obtain ⟨b, hb⟩ : ∃ b, b = ((a.draw.2.bump 0xE04008 1).flagIntegrity (itemQueries (s.sp sp) it)).score partSpindle sp (Config.freeNat a.draw.1) := ⟨_, rfl⟩
  have hdraw := draw_frame a
  have hmarked := (flagIntegrity_frame (a.draw.2.bump 0xE04008 1) (itemQueries (s.sp sp) it)).trans'
    (score_frame _ partSpindle sp (Config.freeNat a.draw.1)) (rs := [.copy, .fault]) (by simp) (by simp)
  have hfb : keepsBut [.counts, .copy, .fault, .free] s b := hb ▸ hfa.trans'
    (hdraw.trans' ((bump_frame a.draw.2 0xE04008 1).trans' hmarked (rs := [.counts, .copy, .fault]) (by simp) (by simp))
      (rs := [.counts, .copy, .fault, .free]) (by simp) (by simp)) (by simp) (by simp)
  have hcb (k : Key) : b.cnt k = a.cnt k + if k = 0xE04008 then 1 else 0 := by rw [hb, hmarked.cnt (by simp), State.cnt_bump, hdraw.cnt (by simp)]
  obtain ⟨u, hu⟩ : ∃ u, u = b.setSp sp (withShslot (s.sp sp) slot y) := ⟨_, rfl⟩
  have hset : keepsBut [.spin] b u := hu ▸ setSp_frame _ _ _
  have hf : keepsBut [.spin, .counts, .copy, .fault, .free] s u := hfb.trans' hset (by simp) (by simp)
  have ht : keepsBut [.spin, .ctl, .counts, .copy, .fault, .free] s (u.schedule sp) := hf.trans' (schedule_frame u sp) (by simp) (by simp)
  change ∃ t y, execShingleArrival sp slot sh s = .next t ∧ _
  unfold execShingleArrival
  refine exists_live_at (u := u.schedule sp) (y := u) hrun ?_ ⟨withQueue_self ht (by simp), ?_, ?_, ⟨y, z, hu ▸ lk_withShslot _ _ _ _ _, ?_⟩, ?_, hf⟩
  · simp only [if_neg (arrival_admitted hsp hslot hzero), hit, hcopies, hx, hh, hok, Bool.false_eq_true, if_false, Option.bind_some]
    refine (if_neg ?_).trans ?_
    · have hreg : a.reg 0x40100C = s.reg 0x40100C := hfa.reg (by simp) _
      exact Nat.not_lt.2 ((ha ▸ hreg).symm ▸ hfails)
    · rw [hu, hb, ha, hy, hzd]
      rfl
  · rw [hset.cnt (by simp), hcb, if_neg (by decide), ha, State.cnt_bump_same, hcz _ (by decide)]
  · rw [hset.cnt (by simp), hcb, if_pos rfl, ha, State.cnt_bump_ne _ _ (by decide), hcz _ (by decide)]
  · rw [hy, hzd]
    exact ⟨rfl, rfl, rfl⟩
  · have hcopy : u.copy = ((a.draw.2.bump 0xE04008 1).flagIntegrity (itemQueries (s.sp sp) it)).copy := by
      rw [hset .copy (by simp), hb, score_frame _ _ _ _ .copy (by simp)]
    rw [hcopy]
    exact flagIntegrity_copy _ _

end

end

/-! ### Accesses that end (R55) -/

/-- An access is answered: its read has left its queue, and it is outstanding no longer. -/
def State.accessOver (s : State) (id : Nat) : State :=
  { s.readDone (.access id) with tier := { (s.readDone (.access id)).tier with accesses := (s.readDone (.access id)).tier.accesses.filter fun x => x.id != id } }

section
variable (s : State) (id : Nat)

theorem accessOver_frame : keepsBut [.sched, .counts, .regs, .tier] s (s.accessOver id) :=
  (readDone_served s (.access id)).1.trans' (with_tier_frame _ _) (by simp) (by simp)

theorem accessOver_counts : countsBut [0xE0E008] s (s.accessOver id) :=
  (readDone_served s (.access id)).2.1.trans ((with_tier_frame _ _).countsBut (by simp) _)

theorem accessOver_reg {k : Key} (hk : k < 0xB12000) : (s.accessOver id).reg k = s.reg k := (readDone_served s (.access id)).2.2.1 k hk

theorem accessOver_reads : ∀ r ∈ (s.accessOver id).sched.reads, r.what ≠ .access id := (readDone_served s (.access id)).2.2.2

theorem accessOver_accesses : (s.accessOver id).tier.accesses = s.tier.accesses.filter fun x => x.id != id := by
  have htier : (s.readDone (.access id)).tier = s.tier := (readDone_served s (.access id)).1 .tier (by simp)
  unfold State.accessOver
  rw [htier]

/-- An access to flash, with its count if it is late. -/
def State.flashAccessOver (s : State) (id ns : Nat) : State := (s.accessOver id).bumpIf (decide (s.reg 0x602003 < ns)) 0xE0A003

theorem flashAccessOver_frame (ns : Nat) : keepsBut [.sched, .counts, .regs, .tier] s (s.flashAccessOver id ns) :=
  (accessOver_frame s id).trans' (bumpIf_frame _ _ _) (by simp) (by simp)

theorem flashAccessOver_late (ns : Nat) : decide ((2 : Nat) ≤ 2 ∧ (s.accessOver id).reg 0x602003 < ns) = decide (s.reg 0x602003 < ns) := by
  rw [accessOver_reg s id (by decide)]
  simp

end

section
variable (s : State) (id ns : Nat) (b b' : Bool)

theorem exec_accessComplete_late (c st : Nat) (a : Access) (hrun : s.running = true)
    (ha : s.tier.accesses.find? (fun x => x.id == id) = some a) (htier : a.tier = 2) (hctx : a.ctx = none) (hlate : s.reg 0x602003 < ns)
    (hok : s.readOk (.access id) = true) :
    ∃ t, exec (.accessComplete id ns b b' ⟨c, st⟩) s = .next t ∧ t.tier.accesses = s.tier.accesses.filter (fun x => x.id != id) ∧
      t.cnt 0xE0A003 = s.cnt 0xE0A003 + 1 ∧ (∀ r ∈ t.sched.reads, r.what ≠ .access id) ∧ keepsBut [.tier, .counts, .sched, .regs] s t ∧
      countsBut [0xE0A003, 0xE0E008] s t := by
  have hbump := bumpIf_frame (s.accessOver id) (decide (s.reg 0x602003 < ns)) 0xE0A003
  change ∃ t, execAccessComplete id ns b b' ⟨c, st⟩ s = .next t ∧ _
  unfold execAccessComplete
  refine exists_live (u := s.flashAccessOver id ns) hrun ?_ ⟨?_, ?_, ?_, (flashAccessOver_frame s id ns).mono (by decide), ?_⟩
    fun _ ⟨a, b, c, f, d⟩ => ⟨a, b, c, f.withQueue, d⟩
  · simp only [ha, hok, htier, hctx, Bool.not_true, Bool.false_eq_true, if_false]
    rw [if_neg (by decide)]
    exact congrArg (fun late => (s.accessOver id).bumpIf late 0xE0A003) (flashAccessOver_late s id ns)
  · exact (congrArg TierS.accesses (hbump .tier (by simp))).trans (accessOver_accesses s id)
  · unfold State.flashAccessOver
    rw [State.cnt_bumpIf, if_pos ⟨by simpa using hlate, rfl⟩, accessOver_counts s id _ (by decide)]
  · unfold State.flashAccessOver
    rw [hbump .sched (by simp)]
    exact accessOver_reads s id
  · exact ((accessOver_counts s id).mono (by simp)).trans ((countsBut_bumpIf _ _ _).mono (by simp))

theorem exec_accessComplete_awaited (co st sp c : Nat) (a : Access) (x : Ctx) (hrun : s.running = true)
    (ha : s.tier.accesses.find? (fun x => x.id == id) = some a) (htier : a.tier = 2) (hctx : a.ctx = some (sp, c)) (hok : s.readOk (.access id) = true)
    (hx : (s.sp sp).ctxs[c]? = some x) (hst : x.st = 3) :
    ∃ t u y, exec (.accessComplete id ns b b' ⟨co, st⟩) s = .next t ∧ t = u.schedule sp ∧ (u.sp sp).ctxs[c]? = some y ∧ y.st = 1 ∧ y.loaded = true ∧
      y.item = x.item ∧ u.tier.accesses = s.tier.accesses.filter (fun x => x.id != id) ∧ keepsBut [.tier, .counts, .sched, .regs, .spin, .ctl] s u := by
  obtain ⟨v, hv⟩ : ∃ v, v = (s.flashAccessOver id ns).countStall sp none st := ⟨_, rfl⟩
  have hstall : keepsBut [.counts] (s.flashAccessOver id ns) v := hv ▸ countStall_frame _ _ _ _
  have hfv : keepsBut [.sched, .counts, .regs, .tier] s v := (flashAccessOver_frame s id ns).trans' hstall (by simp) (by simp)
  obtain ⟨u, hu⟩ : ∃ u, u = v.stampUp.setSp sp { v.sp sp with
    ctxs := (v.sp sp).ctxs.modify c fun x => if x.st == 3 then { x with st := 1, since := v.ctl.stamp, loaded := true } else x } := ⟨_, rfl⟩
  have hset : keepsBut [.ctl, .spin] v u := hu ▸ (stampUp_frame v).trans' (setSp_frame _ _ _) (by simp) (by simp)
  have hf : keepsBut [.tier, .counts, .sched, .regs, .spin, .ctl] s u := hfv.trans' hset (by simp) (by simp)
  have ht : keepsBut [.tier, .counts, .sched, .regs, .spin, .ctl, .copy] s (u.schedule sp) := hf.trans' (schedule_frame u sp) (by simp) (by simp)
  have hctxs : (v.sp sp).ctxs[c]? = some x := by rw [sp_congr (hfv .spin (by simp)), hx]
  suffices ∃ t u, exec (.accessComplete id ns b b' ⟨co, st⟩) s = .next t ∧ t = u.schedule sp ∧ ∃ y : Ctx, (u.sp sp).ctxs[c]? = some y ∧ y.st = 1 ∧ y.loaded = true ∧
      y.item = x.item ∧ u.tier.accesses = s.tier.accesses.filter (fun x => x.id != id) ∧ keepsBut [.tier, .counts, .sched, .regs, .spin, .ctl] s u by
    obtain ⟨t, u, he, ht, y, hr⟩ := this
    exact ⟨t, u, y, he, ht, hr⟩
  change ∃ t u, execAccessComplete id ns b b' ⟨co, st⟩ s = .next t ∧ _
  unfold execAccessComplete
  refine exists_live_at (u := u.schedule sp) (y := u) hrun ?_ ⟨withQueue_self ht (by simp), { x with st := 1, since := v.ctl.stamp, loaded := true }, ?_, rfl, rfl,
    rfl, ?_, hf⟩
  · simp only [ha, hok, htier, hctx, Bool.not_true, Bool.false_eq_true, if_false]
    rw [if_neg (by decide), hu, hv]
    unfold State.flashAccessOver
    rw [← flashAccessOver_late s id ns]
    rfl
  · rw [hu, sp_setSp_same, List.getElem?_modify_eq, hctxs]
    simp [hst]
  · rw [hset .tier (by simp), hstall .tier (by simp)]
    exact (congrArg TierS.accesses (bumpIf_frame _ _ _ .tier (by simp))).trans (accessOver_accesses s id)

end

/-- Settles O9: by what becomes of a delivery, and of an access to flash that ends. -/
theorem deliveriesReachTheSpindle : Obligations.DeliveriesReachTheSpindle := by
  unfold Obligations.DeliveriesReachTheSpindle
  exact ⟨exec_shingleArrival_passes, exec_shingleArrival_refetched, exec_shingleArrival_abandoned, exec_accessComplete_late, exec_accessComplete_awaited⟩

end Sys2Proof.Machine
end

section
/-! SUPPORT. The work of a search on a copy: what scoring, selecting, placing and dealing change, and that none of it counts pairs. The rules follow the functions, in the order
of Machine/Search and Machine/Spindle. -/

namespace Sys2Proof.Machine

/-- What is counted of the pairs of an item (R150, R152, R154). -/
def pairCounts : List Key := [0xE04005, 0xE05009, 0xE0500B, 0xE0500C]

/-- The second state comes from the first by work of a search: the spindles, the controllers' records, the queries at home and on the copy, the queues, what waits at the
transport, registers and part scores change, and no pair is counted. -/
structure SearchWork (s t : State) : Prop where
  frame : keepsBut [.spin, .ctl, .counts, .copy, .home, .sched, .net, .regs, .fault, .free] s t
  pairs : ∀ k ∈ pairCounts, t.cnt k = s.cnt k

namespace SearchWork

variable {o s t : State}

/-! ### Rules of the predicate itself -/

theorem refl (s : State) : SearchWork s s := ⟨keepsBut_refl _ s, fun _ _ => rfl⟩

theorem trans {u : State} (h : SearchWork s t) (g : SearchWork t u) : SearchWork s u :=
  ⟨h.frame.trans g.frame, fun k hk => (g.pairs k hk).trans (h.pairs k hk)⟩

/-- What keeps the counters and all but what a search may change. -/
theorem keep (h : SearchWork o s) {ps : List Part} (f : keepsBut ps s t) (hps : ps ⊆ [.spin, .ctl, .copy, .home, .sched, .net, .regs, .fault, .free]) :
    SearchWork o t := by
  have hc : Part.counts ∉ ps := fun hc => by simpa using hps hc
  refine h.trans ⟨f.mono fun p hp => ?_, fun k _ => f.cnt hc k⟩
  have := hps hp
  simp only [List.mem_cons, List.not_mem_nil, or_false] at this ⊢
  tauto

/-- What counts no pairs. -/
theorem count (h : SearchWork o s) {ps : List Part} {ks : List Key} (f : keepsBut ps s t)
    (hps : ps ⊆ [.spin, .ctl, .counts, .copy, .home, .sched, .net, .regs, .fault, .free]) (g : countsBut ks s t) (hks : ∀ k ∈ pairCounts, k ∉ ks) :
    SearchWork o t := h.trans ⟨f.mono hps, fun k hk => g k (hks k hk)⟩

/-- The work of spindles is such work. -/
theorem spindles (h : SearchWork o s) (g : SpindleWork s t) : SearchWork o t := h.count g.frame (by decide) g.counts (by decide)

theorem ite {p : Prop} {_ : Decidable p} (h : SearchWork o s) (g : SearchWork o t) : SearchWork o (if p then s else t) := by split <;> assumption

theorem foldl {α : Type} {f : State → α → State} (l : List α) (h : SearchWork o s) (hf : ∀ t a, SearchWork o t → SearchWork o (f t a)) :
    SearchWork o (l.foldl f s) := by
  induction l generalizing s with
  | nil => exact h
  | cons a l ih => exact ih (hf s a h)

/-! ### The rules of the functions -/

theorem bump (h : SearchWork o s) (k n) (hk : k ∉ pairCounts := by decide) : SearchWork o (s.bump k n) :=
  h.count (bump_frame s k n) (by decide) (countsBut_bump s k n) fun j hj => by
    rw [List.mem_singleton]
    rintro rfl
    exact hk hj

theorem bumpIf (h : SearchWork o s) (b k) (hk : k ∉ pairCounts := by decide) : SearchWork o (s.bumpIf b k) := by
  unfold State.bumpIf
  exact ite (h.bump k 1 hk) h

theorem setSp (h : SearchWork o s) (n p) : SearchWork o (s.setSp n p) := h.keep (setSp_frame s n p) (by simp)

theorem setCopy (h : SearchWork o s) (c) : SearchWork o (s.setCopy c) := h.keep (setCopy_frame s c) (by simp)

theorem setHome (h : SearchWork o s) (c) : SearchWork o (s.setHome c) := h.keep (with_home_frame s _) (by simp)

theorem setReg (h : SearchWork o s) (k v) : SearchWork o (s.setReg k v) := h.keep (setReg_frame s k v) (by simp)

theorem setWq (h : SearchWork o s) (q) : SearchWork o (s.setWq q) := h.keep (setWq_frame s q) (by simp)

theorem withCtl (h : SearchWork o s) (c) : SearchWork o { s with ctl := c } := h.keep (with_ctl_frame s c) (by simp)

theorem withSched (h : SearchWork o s) (c) : SearchWork o { s with sched := c } := h.keep (with_sched_frame s c) (by simp)

/-- A packet counts at most the want of a route, or that it is withheld (R350, R471). -/
theorem sendAt (h : SearchWork o s) (d k t e r m) : SearchWork o (s.sendAt d k t e r m) := by
  have hcounts : countsBut [0xE1000F, 0xE0C00B] s (s.sendAt d k t e r m) := by
    unfold State.sendAt
    split
    · exact (countsBut_bumpIf _ _ _).mono (by simp)
    · exact ((countsBut_bumpIf _ _ _).mono (by simp)).trans ((with_net_frame _ _).countsBut (by simp) _)
  exact h.count (sendAt_frame s d k t e r m) (by decide) hcounts (by decide)

theorem sendEach (h : SearchWork o s) (dsts k t e m) : SearchWork o (s.sendEach dsts k t e m) := foldl _ h fun _ _ h => h.sendAt _ _ _ _ _ _

theorem stopLocal (h : SearchWork o s) (q) : SearchWork o (s.stopLocal q) := h.keep (with_copy_frame s _) (by simp)

theorem dealTag (h : SearchWork o s) (tenant bulk cost) : SearchWork o (s.dealTag tenant bulk cost) := by
  have tagged := h.count (tagHead_frame s 4 tenant bulk cost) (by decide) (tagHead_counts s 4 tenant bulk cost) (by decide)
  unfold State.dealTag
  dsimp only
  split
  · exact tagged
  · exact (tagged.setWq _).withSched _

theorem sleepQueue (h : SearchWork o s) (res tenant bulk) : SearchWork o (s.sleepQueue res tenant bulk) := h.keep (sleepQueue_frame s res tenant bulk) (by simp)

theorem dealtOut (h : SearchWork o s) (tenant) : SearchWork o (s.dealtOut tenant) := (h.sleepQueue _ _ _).sleepQueue _ _ _

theorem schedule (h : SearchWork o s) (n) : SearchWork o (s.schedule n) := h.spindles ((SpindleWork.refl s).schedule n)

theorem widenCharge (h : SearchWork o s) (h' n) : SearchWork o (s.widenCharge h' n) := ((h.setReg _ _).bump _ _).withSched _

theorem decideOnce (h : SearchWork o s) (q) : SearchWork o (s.decideOnce q) := by
  unfold State.decideOnce
  split
  · exact h
  · exact ite h (ite (h.setHome _) (ite (((((h.setHome _).bump _ _).bumpIf _ _).sendEach _ _ _ _ _).stopLocal _)
      ((((((h.setHome _).bump _ _).bump _ _).bumpIf _ _).widenCharge _ _).sendEach _ _ _ _ _)))

theorem decideLoop (h : SearchWork o s) (n q) : SearchWork o (Machine.decideLoop n q s) := by
  induction n generalizing s with
  | zero => exact h
  | succ n ih =>
    unfold Machine.decideLoop
    dsimp only
    split
    · exact .ite (ih (h.decideOnce _)) (h.decideOnce _)
    · exact h.decideOnce _

theorem homeReport (h : SearchWork o s) (r) : SearchWork o (s.homeReport r) := by
  unfold State.homeReport
  split
  · exact h
  · exact ite h (((h.setHome _).bumpIf _ _).decideLoop _ _)

theorem stepDone (h : SearchWork o s) (q sh) : SearchWork o (s.stepDone q sh) := by
  unfold State.stepDone
  split
  · exact h
  · exact ite (((h.setCopy _).bump _ _).homeReport _) (((h.setCopy _).bump _ _).sendAt _ _ _ _ _ _)

theorem enqueue (h : SearchWork o s) (n it) : SearchWork o (s.enqueue n it) := h.spindles ((SpindleWork.refl s).enqueue n it)

theorem waitItem (h : SearchWork o s) (it qs) : SearchWork o (s.waitItem it qs) := h.spindles ((SpindleWork.refl s).waitItem it qs)

theorem sampleItem (h : SearchWork o s) (n it) : SearchWork o (s.sampleItem n it) := h.spindles ((SpindleWork.refl s).sampleItem n it)

/-- An item is counted on the copies of its queries. -/
theorem noteItem (h : SearchWork o s) (mine : List (QName × Nat)) (at_ : Option Nat) :
    SearchWork o (mine.foldl (fun s q => match s.findCopy q.1 q.2 with | some c => s.setCopy (noteDealt c (at_.getD c.builder)) | none => s) s) := by
  refine foldl _ h fun t a h => ?_
  split
  · exact h.setCopy _
  · exact h

theorem dealItem (h : SearchWork o s) (h' c d) : SearchWork o (State.dealItem h' c s d) := by
  unfold State.dealItem
  dsimp only
  split
  · exact .sampleItem (.foldl _ ((h.enqueue _ _).noteItem _ _) fun _ _ h => ite h (h.dealTag _ _ _)) _ _
  · exact .foldl _ ((h.waitItem _ _).noteItem _ _) fun _ _ h => ite h (h.dealTag _ _ _)

theorem dealAsks (h : SearchWork o s) (h' l) : SearchWork o (s.dealAsks h' l) := by
  unfold State.dealAsks
  extract_lets ds dealt done closed
  have hd : SearchWork o dealt := by
    unfold dealt
    split
    · exact foldl _ h fun _ _ h => h.dealItem _ _ _
    · exact h
  have hdone : SearchWork o done := by
    refine foldl _ hd fun t a h => ?_
    split
    · exact ite (h.stepDone _ _) h
    · exact h
  have hclosed : SearchWork o closed := by
    unfold closed
    split
    · exact ite hdone (hdone.dealtOut _)
    · exact hdone
  refine foldl _ hclosed fun t a h => ?_
  split
  · exact h.schedule _
  · exact h

theorem deal (h : SearchWork o s) (h' qs) : SearchWork o (s.deal h' qs) := by
  unfold State.deal
  refine .dealAsks (.foldl _ h fun t a h => ?_) _ _
  split
  · exact h.setCopy _
  · exact h

theorem placeWaiting (h : SearchWork o s) (n) : SearchWork o (s.placeWaiting n) := by
  unfold State.placeWaiting
  refine ite h ?_
  split
  · exact h
  split
  · exact h
  refine ite ((h.setCopy _).deal _ _) ?_
  split
  · exact h
  split
  · rename_i e
    exact ((h.spindles ((SpindleWork.refl s).copyTables e)).setCopy _).deal _ _
  · exact h

theorem loadLut (h : SearchWork o s) (sp k t) : SearchWork o (s.loadLut sp k t) := h.setSp _ _

theorem noteDigest (h : SearchWork o s) (sp it d o') : SearchWork o (s.noteDigest sp it d o') := h.withCtl _

theorem countDups (h : SearchWork o s) (d one) : SearchWork o (s.countDups d one) := by
  unfold State.countDups
  exact ite (((h.bump _ _).bump _ _).bump _ _) ((h.bump _ _).bump _ _)

/-- The candidates of an item are offered to a hank set (R57, R173, R174). -/
theorem select (h : SearchWork o s) (sp slot c it es) : SearchWork o (s.select sp slot c it es) := by
  have scored {t : State} (h : SearchWork o t) (d : DupCnt) : SearchWork o (t.scoreDups d [sp]) := h.keep (scoreDups_frame t d [sp]) (by simp)
  unfold State.select
  extract_lets q same flushed p old bound noted
  have hf : SearchWork o flushed := by
    unfold flushed
    split
    · exact ite h (h.spindles ((SpindleWork.refl s).flushSet _ _))
    · exact h
  dsimp only
  split
  · exact (scored ((((hf.setSp _ _).bumpIf _ _).bump _ _).countDups _ _) _).setCopy _
  · exact scored ((((hf.setSp _ _).bumpIf _ _).bump _ _).countDups _ _) _

theorem freeCtx (h : SearchWork o s) (n c) : SearchWork o (s.freeCtx n c) := h.spindles ((SpindleWork.refl s).freeCtx n c)

theorem sendSegments (h : SearchWork o s) (sp slots) : SearchWork o (s.sendSegments sp slots) := h.spindles ((SpindleWork.refl s).sendSegments sp slots)

end SearchWork

end Sys2Proof.Machine
end

section
/-! PROOF. Steals, table copies, items dealt again, and bobbins that are zeroed (O11). -/

namespace Sys2Proof.Machine

/-! ### Steals (R63 to R66) -/

theorem chooseVictim_chooses {s : State} {n cyc : Nat} (hmay : s.maySteal n cyc = true) (hnone : (s.sp n).steal = none) :
    s.chooseVictim n cyc = s.setSp n { s.sp n with steal := s.victim n } := by
  unfold State.chooseVictim
  rw [if_pos (by simp [hmay, hnone])]

theorem chooseVictim_idle {s : State} {n cyc : Nat} (hmay : s.maySteal n cyc = false) : s.chooseVictim n cyc = s := by
  unfold State.chooseVictim
  rw [if_neg (by simp [hmay])]

/-- A row whose effect is the choice of a victim. -/
theorem live_chooseVictim (s : State) (n cyc : Nat) (hrun : s.running = true) (hmay : s.maySteal n cyc = true) (hnone : (s.sp n).steal = none) :
    ∃ t, live s (fun s => s.chooseVictim n cyc) = .next t ∧ (t.sp n).steal = s.victim n ∧ (∀ m, m ≠ n → t.sp m = s.sp m) ∧ keepsBut [.spin] s t :=
  exists_live hrun (chooseVictim_chooses hmay hnone) ⟨by rw [sp_setSp_same], fun m hm => sp_setSp_ne s _ hm, setSp_frame s _ _⟩
    fun _ ⟨a, b, f⟩ => ⟨a, b, f.withQueue⟩

theorem exec_steal_refused (s : State) (n cyc : Nat) (hrun : s.running = true) (hmay : s.maySteal n cyc = false) :
    exec (.stealRequest n cyc) s = .next s ∧ exec (.stealRechoose n cyc) s = .next s :=
  ⟨live_idle hrun (chooseVictim_idle hmay), live_idle hrun (chooseVictim_idle hmay)⟩

/-- The items granted are counted as moved, and moving them is work of the spindles otherwise. -/
theorem moveItems_moves (s : State) (v n : Nat) (taken : List Item) (f : List (Nat × Nat)) :
    keepsBut [.spin, .ctl, .counts, .copy] s (s.moveItems v n taken f) ∧ (s.moveItems v n taken f).cnt 0xE02006 = s.cnt 0xE02006 + taken.length := by
  unfold State.moveItems
  extract_lets pv sv mine pt st counted followed
  have hst : keepsBut [.spin] s st := (setSp_frame s _ _).trans (setSp_frame _ _ _)
  have hbump := (bump_frame st (if dieOf v == dieOf n then 0xE02004 else 0xE02005) 1).trans (bump_frame _ 0xE02006 taken.length)
  have hwork : SpindleWork counted followed := .foldl _ (.refl counted) fun _ _ h => h.followThief _ _ _ _
  have hsent := hwork.sendSegments v (maskSlots (itemsMask taken))
  have hcnt : counted.cnt 0xE02006 = s.cnt 0xE02006 + taken.length := by
    unfold counted
    rw [State.cnt_bump_same, State.cnt_bump_ne _ _ (by split <;> decide), hst.cnt (by simp)]
  refine ⟨(hst.trans' hbump (rs := [.spin, .counts]) (by simp) (by simp)).trans' hsent.frame (by simp) (by simp), ?_⟩
  rw [hsent.cnt (by decide), hcnt]

section
variable (s u : State) (n v cyc : Nat) (hrun : s.running = true) (hsteal : (s.sp n).steal = some v)

theorem headTaken_work : SpindleWork s (s.headTaken n v) := (SpindleWork.refl s).headTaken n v

theorem headTaken_reg (k : Key) : (s.headTaken n v).reg k = s.reg k := (headTaken_work s n v).frame.reg (by simp) k

include hrun hsteal

theorem exec_stealGrant_moves (f : List (Nat × Nat)) (hth : s.reg (if dieOf v == dieOf n then 0x301002 else 0x301003) ≤ (s.headTaken n v).stealable v)
    (hup : s.spUp v = true) (hsome : (s.headTaken n v).grantItems v n ≠ [])
    (hcopied : (s.headTaken n v).copyTables 0 v n (maskSlots (itemsMask ((s.headTaken n v).grantItems v n))) = some (u, f)) :
    ∃ t, exec (.stealGrant ⟨n, cyc⟩) s = .next t ∧ t = { u.moveItems v n ((s.headTaken n v).grantItems v n) f with pending := s.pending } ∧
      t.cnt 0xE02006 = s.cnt 0xE02006 + ((s.headTaken n v).grantItems v n).length ∧ t.mem = s.mem ∧ t.regs = s.regs := by
  have hwork := (headTaken_work s n v).copyTables hcopied
  obtain ⟨hmoved, hcnt⟩ := moveItems_moves u v n ((s.headTaken n v).grantItems v n) f
  have hf := hwork.frame.trans hmoved
  have hspUp : (s.headTaken n v).spUp v = true := by
    unfold State.spUp State.spState at hup ⊢
    rwa [headTaken_reg]
  change ∃ t, execStealGrant ⟨n, cyc⟩ s = .next t ∧ _
  unfold execStealGrant
  refine exists_live_to hrun (u := u.moveItems v n ((s.headTaken n v).grantItems v n) f) ?_
    ⟨rfl, hcnt.trans (by rw [hwork.cnt (by decide)]), hf .mem (by simp), hf .regs (by simp)⟩
  simp only [hsteal]
  change (if (decide ((s.headTaken n v).stealable v < (s.headTaken n v).reg (if dieOf v == dieOf n then 0x301002 else 0x301003)) ||
    !(s.headTaken n v).spUp v) = true then _ else _) = _
  rw [headTaken_reg, hspUp, decide_eq_false (Nat.not_lt.2 hth), if_neg (by decide)]
  unfold State.headTaken at hsome hcopied
  refine (if_neg (by simpa using hsome)).trans ?_
  simp only [hcopied]
  rfl

theorem exec_stealGrant_refused (hth : (s.headTaken n v).stealable v < s.reg (if dieOf v == dieOf n then 0x301002 else 0x301003)) :
    ∃ t, exec (.stealGrant ⟨n, cyc⟩) s = .next t ∧ t = { ((s.headTaken n v).bump 0xE02007 1).chooseVictim n cyc with pending := s.pending } ∧
      t.cnt 0xE02007 = s.cnt 0xE02007 + 1 := by
  have hchosen := (SpindleWork.refl ((s.headTaken n v).bump 0xE02007 1)).chooseVictim n cyc
  change ∃ t, execStealGrant ⟨n, cyc⟩ s = .next t ∧ _
  unfold execStealGrant
  refine exists_live_to hrun (u := ((s.headTaken n v).bump 0xE02007 1).chooseVictim n cyc) ?_
    ⟨rfl, (hchosen.cnt (by decide)).trans (by rw [State.cnt_bump_same, (headTaken_work s n v).cnt (by decide)])⟩
  simp only [hsteal]
  change (if (decide ((s.headTaken n v).stealable v < (s.headTaken n v).reg (if dieOf v == dieOf n then 0x301002 else 0x301003)) ||
    !(s.headTaken n v).spUp v) = true then _ else _) = _
  rw [headTaken_reg, decide_eq_true hth, Bool.true_or, if_pos rfl]
  rfl

end

/-! ### Table copies that end (R67) -/

/-- The state has the queries, indexes and residences on a spindle of another one. -/
structure SameTables (n : Nat) (s a : State) : Prop where
  copy : a.copy = s.copy
  idx : a.idx = s.idx
  slots : ∀ k, (slotOf (a.sp n) k).q = (slotOf (s.sp n) k).q

/-- Table slots after one is written. -/
theorem slotOf_put (p : Spindle) (k j : Nat) (x : TSlot) : slotOf { p with tslots := put p.tslots k x } j = if j = k then x else slotOf p j := by
  unfold slotOf
  split
  · subst_vars
    rw [lk_put_same]
    rfl
  · rw [lk_put_ne _ _ ‹_›]

/-- A slot that tables are loaded into keeps its query. -/
theorem loadSlot_slots (s : State) (n k j : Nat) (c : CopyQ) (desc : List Byte) (T : Table) :
    (slotOf ((s.loadSlot n k c desc T).sp n) j).q = (slotOf (s.sp n) j).q ∧
      (slotOf ((s.loadSlot n k c desc T).sp n) j).table = if j = k then some T else (slotOf (s.sp n) j).table := by
  have hsp : (s.zeroFor (s.sp n) (slotOf (s.sp n) k).owner (s.ownerOf c.par.tenant 0) 64).sp n = s.sp n := sp_congr (zeroFor_frame _ _ _ _ _ .spin (by simp)) n
  unfold State.loadSlot
  dsimp only
  rw [sp_setSp_same, slotOf_put, hsp]
  split
  · subst_vars
    exact ⟨rfl, rfl⟩
  · exact ⟨rfl, rfl⟩

theorem receiveTable_frame (s : State) (n k : Nat) :
    keepsBut [.spin, .counts] s (s.receiveTable n k) ∧ countsBut [0xE02009, 0xE0200A] s (s.receiveTable n k) := by
  unfold State.receiveTable
  split
  · split
    · exact ⟨(zeroFor_frame _ _ _ _ _).trans' (setSp_frame _ _ _) (by simp) (by simp), (zeroFor_counts _ _ _ _ _).trans ((setSp_frame _ _ _).countsBut (by simp) _)⟩
    · exact ⟨by simp, by simp⟩
  · exact ⟨by simp, by simp⟩

theorem SameTables.receiveTable {n : Nat} {s a : State} (h : SameTables n s a) (k : Nat) : SameTables n s (a.receiveTable n k) := by
  have hf := (receiveTable_frame a n k).1
  refine ⟨(hf .copy (by simp)).trans h.copy, (hf .idx (by simp)).trans h.idx, fun j => ?_⟩
  rw [← h.slots j]
  unfold State.receiveTable
  split
  · split
    · exact (loadSlot_slots _ _ _ _ _ _ _).1
    · rfl
  · rfl

/-- What a copy brings to a slot: the tables of the query that is resident there. -/
def Brings (s : State) (n k : Nat) (T : Table) : Prop :=
  ∃ q y h, (slotOf (s.sp n) k).q = some q ∧ s.findCopy q.1 q.2 = some y ∧ y.table = some T ∧ s.copyThatch y = some h

theorem receiveTable_brings {n k : Nat} {s a : State} {T : Table} (h : SameTables n s a) (hb : Brings s n k T) :
    (slotOf ((a.receiveTable n k).sp n) k).table = some T := by
  obtain ⟨q, y, th, hq, hy, hT, hth⟩ := hb
  have hfound : ((slotOf (a.sp n) k).q.bind fun q => a.findCopy q.1 q.2) = some y := by
    rw [h.slots k, hq, Option.bind_some, findCopy_congr h.copy, hy]
  have hthatch : a.copyThatch y = some th := by
    unfold State.copyThatch at hth ⊢
    rwa [findIdx_congr h.idx]
  unfold State.receiveTable
  simp only [hfound, hT, hthatch]
  rw [(loadSlot_slots _ _ _ _ _ _ _).2, if_pos rfl]

/-- Another delivery of a copy leaves tables that came. -/
theorem receiveTable_stays {n k j : Nat} {s a : State} {T : Table} (h : SameTables n s a) (hb : Brings s n k T)
    (ht : (slotOf (a.sp n) k).table = some T) : (slotOf ((a.receiveTable n j).sp n) k).table = some T := by
  by_cases hj : j = k
  · subst hj
    exact receiveTable_brings h hb
  · unfold State.receiveTable
    split
    · split
      · rw [(loadSlot_slots _ _ _ _ _ _ _).2, if_neg (Ne.symm hj), ht]
      · exact ht
    · exact ht

/-- Every slot of a copy holds its tables in the end. -/
theorem foldl_receiveTable {n : Nat} {s : State} (l : List (Nat × Nat)) {a : State} (h : SameTables n s a) :
    SameTables n s (l.foldl (fun s x => s.receiveTable n x.2) a) ∧ ∀ k T, Brings s n k T → ((∃ x ∈ l, x.2 = k) ∨ (slotOf (a.sp n) k).table = some T) →
      (slotOf ((l.foldl (fun s x => s.receiveTable n x.2) a).sp n) k).table = some T := by
  induction l generalizing a with
  | nil =>
    refine ⟨h, fun k T _ ht => ?_⟩
    rcases ht with ⟨x, hx, -⟩ | ht
    · cases hx
    · exact ht
  | cons y l ih =>
    obtain ⟨hsame, hall⟩ := ih (h.receiveTable y.2)
    refine ⟨hsame, fun k T hb ht => hall k T hb ?_⟩
    rcases ht with ⟨x, hx, rfl⟩ | ht
    · rcases List.mem_cons.1 hx with rfl | hx
      · exact .inr (receiveTable_brings h hb)
      · exact .inl ⟨x, hx, rfl⟩
    · exact .inr (receiveTable_stays h hb ht)

/-- Slots that are freed change spindles only. -/
theorem freeSlot_frame (s : State) (n : Nat) (q : QName × Nat) : keepsBut [.spin] s (s.freeSlot n q) := by
  refine keepsBut_foldl _ s fun t x => ?_
  split
  · exact setSp_frame _ _ _
  · simp

/-- After the copy of a placement its builder gives up what is resident elsewhere (R148). -/
def State.builderGivesUp (s : State) (c : TCopy) : State :=
  if c.kind != 2 then s else c.slots.foldl (fun s (_, d) =>
    match (slotOf (s.sp c.dst) d).q with
    | none => s
    | some q =>
      match s.findCopy q.1 q.2 with
      | some x =>
        let more := s.ctl.copies.any fun y => y.kind == 2 && y.src == c.src && y.slots.any fun z => (slotOf (s.sp y.dst) z.2).q == some q
        if x.plan.contains c.src || more then s else s.freeSlot c.src q
      | none => s) s

theorem builderGivesUp_frame (s : State) (c : TCopy) : keepsBut [.spin] s (s.builderGivesUp c) := by
  unfold State.builderGivesUp
  split
  · simp
  · refine keepsBut_foldl _ s fun t x => ?_
    dsimp only
    split
    · simp
    · split
      · split
        · simp
        · exact freeSlot_frame _ _ _
      · simp

/-- The copy is over, and counted by its bytes. -/
def State.copyOver (s : State) (c : TCopy) : State :=
  { s with ctl := { s.ctl with copies := s.ctl.copies.filter fun x => x.id != c.id } }.bump (if c.kind == 2 then 0xE04012 else 0xE02008) c.bytes

theorem exec_tableCopyDone_received (s : State) (c : TCopy) (hrun : s.running = true) (hc : s.ctl.copies.find? (fun x => x.id == c.id) = some c)
    (hprep : prepared (s.sp c.dst) (s.ownerOf 0 0) = true) :
    ∃ t u, exec (.tableCopyDone c.id) s = .next t ∧ t = { (u.schedule c.dst).placeWaiting c.src with pending := s.pending } ∧
      u.cnt (if c.kind = 2 then 0xE04012 else 0xE02008) = s.cnt (if c.kind = 2 then 0xE04012 else 0xE02008) + c.bytes ∧ (∀ x ∈ u.ctl.copies, x.id ≠ c.id) ∧
      (c.kind ≠ 2 → ∀ x ∈ c.slots, ∀ q y T h, (slotOf (s.sp c.dst) x.2).q = some q → s.findCopy q.1 q.2 = some y → y.table = some T → s.copyThatch y = some h →
        (slotOf (u.sp c.dst) x.2).table = some T) ∧
      keepsBut [.ctl, .counts, .spin] s u ∧ countsBut [if c.kind = 2 then 0xE04012 else 0xE02008, 0xE02009, 0xE0200A] s u ∧
      t.mem = s.mem := by
  obtain ⟨key, hkey⟩ : ∃ key : Key, key = if c.kind = 2 then 0xE04012 else 0xE02008 := ⟨_, rfl⟩
  have hbeq : (if (c.kind == 2) = true then (0xE04012 : Key) else 0xE02008) = key := by simp [hkey]
  have hnot : key ∉ [0xE02009, 0xE0200A] := by rw [hkey]; split <;> decide
  rw [← hkey]
  obtain ⟨a, ha⟩ : ∃ a, a = s.copyOver c := ⟨_, rfl⟩
  have hctl := with_ctl_frame s { s.ctl with copies := s.ctl.copies.filter fun x => x.id != c.id }
  have hfa : keepsBut [.ctl, .counts] s a := ha ▸ hctl.trans' (bump_frame _ _ _) (by simp) (by simp)
  have hcnta (k : Key) : a.cnt k = s.cnt k + if k = key then c.bytes else 0 := by
    rw [ha]
    unfold State.copyOver
    rw [State.cnt_bump, hbeq, hctl.cnt (by simp)]
  have hcopies : ∀ x ∈ a.ctl.copies, x.id ≠ c.id := fun x hx => by
    rw [ha, State.copyOver, bump_frame _ _ _ .ctl (by simp)] at hx
    simpa using (List.mem_filter.1 hx).2
  obtain ⟨b, hb⟩ : ∃ b, b = c.slots.foldl (fun s x => s.receiveTable c.dst x.2) a := ⟨_, rfl⟩
  have hfb : keepsBut [.spin, .counts] a b := hb ▸ keepsBut_foldl _ a fun s x => (receiveTable_frame s c.dst x.2).1
  have hcb : countsBut [0xE02009, 0xE0200A] a b := hb ▸ countsBut_foldl _ a fun s x => (receiveTable_frame s c.dst x.2).2
  have hsame : SameTables c.dst s a := ⟨hfa .copy (by simp), hfa .idx (by simp), fun k => by rw [sp_congr (hfa .spin (by simp))]⟩
  have hgive := builderGivesUp_frame b c
  have hf : keepsBut [.ctl, .counts, .spin] s (b.builderGivesUp c) :=
    hfa.trans' (hfb.trans' hgive (rs := [.spin, .counts]) (by simp) (by simp)) (by simp) (by simp)
  have hwork := ((SearchWork.refl (b.builderGivesUp c)).schedule c.dst).placeWaiting c.src
  change ∃ t u, execTableCopyDone c.id s = .next t ∧ _
  unfold execTableCopyDone
  refine exists_live_at (u := ((b.builderGivesUp c).schedule c.dst).placeWaiting c.src) (y := b.builderGivesUp c) hrun ?_
    ⟨rfl, ?_, ?_, ?_, hf, ?_, (hwork.frame .mem (by simp)).trans (hf .mem (by simp))⟩
  · simp only [hc, hprep, Bool.not_true, Bool.false_eq_true, if_false]
    rw [hb, ha]
    rfl
  · rw [hgive.cnt (by simp), hcb _ hnot, hcnta, if_pos rfl]
  · rw [hgive .ctl (by simp), hfb .ctl (by simp)]
    exact hcopies
  · intro hkind x hx q y T h hq hy hT hth
    have hbs : b.builderGivesUp c = b := by
      unfold State.builderGivesUp
      rw [if_pos (by simpa using hkind)]
    rw [hbs, hb]
    exact (foldl_receiveTable c.slots hsame).2 x.2 T ⟨q, y, h, hq, hy, hT, hth⟩ (.inl ⟨x, hx, rfl⟩)
  · intro k hk
    simp only [List.mem_cons, List.not_mem_nil, or_false, not_or] at hk
    rw [hgive.cnt (by simp), hcb _ (by simpa using hk.2), hcnta, if_neg hk.1]
    rfl

/-! ### Items dealt again (R69) -/

theorem exec_redealOnSlotFree_dealt (s u : State) (it : Item) (qs : List (QName × Nat)) (ns : Nat) (hrun : s.running = true)
    (hredeal : s.ctl.redeal = [(it, qs, ns)]) (hkind : it.kind = 0) (hdealt : State.redealItem { s with ctl := { s.ctl with redeal := [] } } it qs = some u) :
    ∃ t, exec .redealOnSlotFree s = .next t ∧ t = { u with pending := s.pending } ∧ keepsBut [.spin, .ctl, .copy, .counts] s t := by
  have hwork := ((SpindleWork.refl s).withCtl { s.ctl with redeal := [] }).redealItem hdealt
  change ∃ t, execRedealOnSlotFree s = .next t ∧ _
  unfold execRedealOnSlotFree
  refine exists_live_to hrun (u := u) ?_ ⟨rfl, (hwork.frame.mono (by decide)).withQueue⟩
  unfold State.redealAll
  simp only [hredeal]
  change (match if (it.kind != 0) = true then _ else State.redealItem { s with ctl := { s.ctl with redeal := [] } } it qs with | some s => s | none => _) = u
  rw [if_neg (by simp [hkind]), hdealt]

/-! ### Bobbins that are zeroed (R70, R74) -/

theorem exec_zeroingDone_takes (s : State) (n : Nat) (hrun : s.running = true) (hz : (s.sp n).zeroing = true) :
    ∃ t u, exec (.zeroingDone n) s = .next t ∧ t = u.schedule n ∧ (u.sp n) = { s.sp n with zeroing := false } ∧ (∀ m, m ≠ n → u.sp m = s.sp m) ∧
      keepsBut [.spin] s u ∧ keepsBut [.spin, .ctl, .counts, .copy] s t := by
  obtain ⟨u, hu⟩ : ∃ u, u = s.setSp n { s.sp n with zeroing := false } := ⟨_, rfl⟩
  have hf : keepsBut [.spin] s u := hu ▸ setSp_frame s _ _
  have ht : keepsBut [.spin, .ctl, .counts, .copy] s (u.schedule n) := hf.trans' (schedule_frame u n) (by simp) (by simp)
  change ∃ t u, execZeroingDone n s = .next t ∧ _
  unfold execZeroingDone
  refine exists_live_at (u := u.schedule n) (y := u) hrun ?_ ⟨withQueue_self ht (by simp), by rw [hu, sp_setSp_same], fun m hm => by rw [hu, sp_setSp_ne s _ hm],
    hf, ht.withQueue⟩
  rw [if_neg (by simp [hz]), hu]

theorem exec_zeroingDone_idle (s : State) (n : Nat) (hrun : s.running = true) (hz : (s.sp n).zeroing = false) : exec (.zeroingDone n) s = .next s := by
  change execZeroingDone n s = _
  unfold execZeroingDone
  exact live_idle hrun (if_pos (by simp [hz]))

theorem startCopy_frame (s : State) (kind src dst : Nat) (l : List ((QName × Nat) × Nat)) : keepsBut [.ctl] s (s.startCopy kind src dst l) := by
  unfold State.startCopy
  split
  · simp
  · exact with_ctl_frame s _

/-- A spindle is stored with its zeroing counted: the others stay, and the zeroing is counted with its cycles (R71). -/
theorem zeroed_spindles (s : State) (n : Nat) (p : Spindle) (l : List ((QName × Nat) × Nat)) :
    (((s.setSp n p).countZero 2048).startCopy 3 n n l).sp n = p ∧ (∀ m, m ≠ n → (((s.setSp n p).countZero 2048).startCopy 3 n n l).sp m = s.sp m) ∧
      ∀ k, (((s.setSp n p).countZero 2048).startCopy 3 n n l).cnt k = s.cnt k + (if k = 0xE02009 then 1 else 0) + if k = 0xE0200A then 2048 else 0 := by
  have hspin : (((s.setSp n p).countZero 2048).startCopy 3 n n l).spin = (s.setSp n p).spin := by
    rw [startCopy_frame _ _ _ _ _ .spin (by simp), countZero_frame _ _ .spin (by simp)]
  refine ⟨by rw [sp_congr hspin, sp_setSp_same], fun m hm => by rw [sp_congr hspin, sp_setSp_ne s _ hm], fun k => ?_⟩
  rw [(startCopy_frame _ _ _ _ _).cnt (by simp)]
  unfold State.countZero
  rw [State.cnt_bump, State.cnt_bump, (setSp_frame s n p).cnt (by simp)]

/-- A bobbin without segments is zeroed: its contexts stay. -/
theorem zeroBobbin_noSets (s : State) (n : Nat) (o : Owner) (h : (s.sp n).hsets = []) :
    ((s.zeroBobbin n o).sp n).zeroing = true ∧ ((s.zeroBobbin n o).sp n).roleZero = (s.sp n).roleZero ∧ ((s.zeroBobbin n o).sp n).ctxs = (s.sp n).ctxs ∧
      (∀ m, m ≠ n → (s.zeroBobbin n o).sp m = s.sp m) ∧
      ∀ k, (s.zeroBobbin n o).cnt k = s.cnt k + (if k = 0xE02009 then 1 else 0) + if k = 0xE0200A then 2048 else 0 := by
  have hflush : s.flushSets n = s := by
    unfold State.flushSets
    rw [h]
    rfl
  obtain ⟨p, l, c, he, hzero, hrole, hctxs⟩ : ∃ p l c, s.zeroBobbin n o = { ((s.setSp n p).countZero 2048).startCopy 3 n n l with copy := c } ∧
      p.zeroing = true ∧ p.roleZero = (s.sp n).roleZero ∧ p.ctxs = (s.sp n).ctxs := by
    unfold State.zeroBobbin
    rw [hflush]
    exact ⟨_, _, _, rfl, rfl, rfl, rfl⟩
  obtain ⟨hsp, hothers, hcnt⟩ := zeroed_spindles s n p l
  have hf := with_copy_frame (((s.setSp n p).countZero 2048).startCopy 3 n n l) c
  rw [he, sp_congr (hf .spin (by simp)), hsp]
  exact ⟨hzero, hrole, hctxs, fun m hm => (sp_congr (hf .spin (by simp)) m).trans (hothers m hm), fun k => (hf.cnt (by simp) k).trans (hcnt k)⟩

theorem exec_roleChangeZeroing_zeroes (s : State) (n : Nat) (hrun : s.running = true) (hrole : (s.sp n).roleZero = true)
    (hquiet : ∀ c ∈ (s.sp n).ctxs, c.item = none) (hsets : (s.sp n).hsets = []) (hqueue : ∀ i ∈ (s.sp n).queue, i.role = nodeRole s.map.entries s.node) :
    ∃ t, exec (.roleChangeZeroing n) s = .next t ∧ (t.sp n).roleZero = false ∧ (t.sp n).zeroing = true ∧ (∀ c ∈ (t.sp n).ctxs, c.owner = none) ∧
      t.cnt 0xE02014 = s.cnt 0xE02014 + 1 ∧ t.cnt 0xE02009 = s.cnt 0xE02009 + 1 ∧ t.cnt 0xE0200A = s.cnt 0xE0200A + 2048 ∧ t.cnt 0xE0200B = s.cnt 0xE0200B + 8 ∧
      (∀ m, m ≠ n → t.sp m = s.sp m) ∧ keepsBut [.spin, .counts, .ctl, .copy] s t ∧ countsBut [0xE02014, 0xE02009, 0xE0200A, 0xE0200B] s t := by
  obtain ⟨a, ha⟩ : ∃ a, a = s.setSp n { s.sp n with roleZero := false, ctxs := (s.sp n).ctxs.map fun c => { c with owner := none } } := ⟨_, rfl⟩
  obtain ⟨o, ho⟩ : ∃ o : Owner, o = match (s.sp n).queue.head? with | some i => itemOwner i | none => s.ownerOf systemTenant 0 := ⟨_, rfl⟩
  have hsp : a.sp n = { s.sp n with roleZero := false, ctxs := (s.sp n).ctxs.map fun c => { c with owner := none } } := by rw [ha, sp_setSp_same]
  obtain ⟨hzero, hkept, hctxs, hothers, hcnt⟩ := zeroBobbin_noSets a n o (by rw [hsp]; exact hsets)
  have hfa : keepsBut [.spin] s a := ha ▸ setSp_frame s n _
  have hbump := (bump_frame (a.zeroBobbin n o) 0xE02014 1).trans (bump_frame _ 0xE0200B 8)
  have hspin (m : Nat) : (((a.zeroBobbin n o).bump 0xE02014 1).bump 0xE0200B 8).sp m = (a.zeroBobbin n o).sp m := sp_congr (hbump .spin (by simp)) m
  have hall (k : Key) : (((a.zeroBobbin n o).bump 0xE02014 1).bump 0xE0200B 8).cnt k =
      s.cnt k + (if k = 0xE02009 then 1 else 0) + (if k = 0xE0200A then 2048 else 0) + (if k = 0xE02014 then 1 else 0) + if k = 0xE0200B then 8 else 0 := by
    rw [State.cnt_bump, State.cnt_bump, hcnt, hfa.cnt (by simp)]
  change ∃ t, execRoleChangeZeroing n s = .next t ∧ _
  unfold execRoleChangeZeroing
  refine exists_live hrun (u := ((a.zeroBobbin n o).bump 0xE02014 1).bump 0xE0200B 8) ?_
    ⟨by rw [hspin, hkept, hsp], by rw [hspin, hzero], ?_, by rw [hall]; rfl, by rw [hall]; rfl, by rw [hall]; rfl, by rw [hall]; rfl, ?_, ?_, ?_⟩
    fun _ ⟨a, b, c, d, e, f, g, i, j, k⟩ => ⟨a, b, c, d, e, f, g, i, j.withQueue, k⟩
  · have hq : quiet (s.sp n) = true := by
      unfold quiet
      exact List.all_eq_true.2 fun c hc => by simp [hquiet c hc]
    have hold : ((s.sp n).queue.any fun i => i.role != nodeRole s.map.entries s.node) = false := List.any_eq_false.2 fun i hi => by simp [hqueue i hi]
    refine (if_neg ?_).trans ?_
    · rw [hrole, hq, hsets, hold]
      decide
    · subst ha ho
      rfl
  · intro c hc
    rw [hspin, hctxs, hsp] at hc
    obtain ⟨x, -, rfl⟩ := List.mem_map.1 hc
    rfl
  · intro m hm
    rw [hspin, hothers m hm, ha, sp_setSp_ne s _ hm]
  · exact (hfa.trans' ((SpindleWork.refl a).zeroBobbin n o).frame (List.cons_subset_cons _ (List.nil_subset _)) (List.Subset.refl _)).trans' hbump (by decide) (by decide)
  · intro k hk
    simp only [List.mem_cons, List.not_mem_nil, or_false, not_or] at hk
    obtain ⟨h1, h2, h3, h4⟩ := hk
    rw [hall, if_neg h1, if_neg h2, if_neg h3, if_neg h4]
    rfl

/-- Settles O11: by the choice and the grant of a steal, the end of a copy, and the zeroings. -/
theorem stealsCopiesAndZeroing : Obligations.StealsCopiesAndZeroing := by
  unfold Obligations.StealsCopiesAndZeroing
  exact ⟨⟨live_chooseVictim, live_chooseVictim, exec_steal_refused, fun s u n v cyc f hrun hsteal => exec_stealGrant_moves s u n v cyc hrun hsteal f,
    fun s n v cyc hrun hsteal => exec_stealGrant_refused s n v cyc hrun hsteal⟩, exec_tableCopyDone_received, exec_redealOnSlotFree_dealt,
    exec_zeroingDone_takes, exec_zeroingDone_idle, exec_roleChangeZeroing_zeroes⟩

end Sys2Proof.Machine
end

section
/-! PROOF. Filter words arrive, and items are scored (O10). -/

namespace Sys2Proof.Machine

/-! ### Filter words (R151, R154) -/

/-- The queries of an item's mask on its spindle, by slot. -/
def maskCopies (s : State) (p : Spindle) (it : Item) : List (Nat × CopyQ) :=
  (maskSlots it.mask).filterMap fun k => (slotOf p k).q.bind fun q => (s.findCopy q.1 q.2).map fun c => (k, c)

/-- The words of the queries of an item's mask, by slot. -/
def maskWords (s : State) (p : Spindle) (it : Item) (ids : List Nat) (st : List StreamRead) (bad : List (Nat × Nat)) : List (Nat × CopyQ × Option SlotWord) :=
  (maskCopies s p it).map fun (k, c) => (k, c, slotWord s c ids k st bad)

section
variable (s : State) (p : Spindle) (it : Item) (ids : List Nat) (st : List StreamRead) (bad : List (Nat × Nat))

theorem maskWords_here (hhere : ∀ k ∈ maskSlots it.mask,
    ((slotOf p k).q.bind fun q => s.findCopy q.1 q.2).all (fun c => (slotWord s c ids k st bad).isSome) = true) :
    ((maskWords s p it ids st bad).any fun w => w.2.2.isNone) = false := by
  rw [List.any_eq_false]
  intro w hw
  obtain ⟨⟨k, c⟩, hkc, rfl⟩ := List.mem_map.1 hw
  obtain ⟨j, hj, hq⟩ := List.mem_filterMap.1 hkc
  obtain ⟨q, hslot, hc⟩ := Option.bind_eq_some_iff.1 hq
  obtain ⟨c', hfind, he⟩ := Option.map_eq_some_iff.1 hc
  cases he
  have := hhere k hj
  rw [hslot, Option.bind_some, hfind, Option.all_some] at this
  simpa using Option.isSome_iff_ne_none.1 this

theorem maskWords_written : (maskWords s p it ids st bad).filterMap (fun (k, _, w) => w.bind fun r => r.word.map fun b => (k, b)) =
    (maskSlots it.mask).filterMap fun k => (slotOf p k).q.bind fun q => (s.findCopy q.1 q.2).bind fun c =>
      (slotWord s c ids k st bad).bind fun w => w.word.map fun l => (k, l) := by
  unfold maskWords maskCopies
  rw [List.filterMap_map, List.filterMap_filterMap]
  refine congrArg (List.filterMap · _) (funext fun k => ?_)
  cases (slotOf p k).q with
  | none => rfl
  | some q => exact Option.bind_map ..

end

/-- What the words of the queries cost, query by query. -/
def State.noteWords (s : State) (ws : List (Nat × CopyQ × Option SlotWord)) : State :=
  ws.foldl (fun s (_, c, w) => match w with | some w => s.noteWord c w | none => s) s

theorem noteWord_notes (s : State) (c : CopyQ) (w : SlotWord) :
    keepsBut [.counts, .copy] s (s.noteWord c w) ∧ countsBut [0xE0500D, 0xE0500E, 0xE0500F] s (s.noteWord c w) := by
  unfold State.noteWord
  extract_lets mode2 counted
  have hf : keepsBut [.counts] s counted := (bump_frame _ _ _).trans (bump_frame _ _ _)
  have hc : countsBut [0xE0500D, 0xE0500E, 0xE0500F] s counted :=
    (countsBut_bump _ _ _).trans' (countsBut_bump _ _ _) (by split <;> simp) (by simp)
  exact ⟨hf.trans' (setCopy_frame _ _) (by simp) (by simp), hc.trans ((setCopy_frame _ _).countsBut (by simp) _)⟩

theorem noteWords_notes (s : State) (ws : List (Nat × CopyQ × Option SlotWord)) :
    keepsBut [.counts, .copy] s (s.noteWords ws) ∧ countsBut [0xE0500D, 0xE0500E, 0xE0500F] s (s.noteWords ws) := by
  unfold State.noteWords
  induction ws generalizing s with
  | nil => exact ⟨keepsBut_refl _ s, countsBut_refl _ s⟩
  | cons w ws ih =>
    obtain ⟨hf, hc⟩ : keepsBut [.counts, .copy] s (match w.2.2 with | some x => s.noteWord w.2.1 x | none => s) ∧
        countsBut [0xE0500D, 0xE0500E, 0xE0500F] s (match w.2.2 with | some x => s.noteWord w.2.1 x | none => s) := by
      cases w.2.2 with
      | none => exact ⟨keepsBut_refl _ s, countsBut_refl _ s⟩
      | some x => exact noteWord_notes s _ x
    exact ⟨hf.trans (ih _).1, hc.trans (ih _).2⟩

/-- The contexts that waited for the words of a shingle slot are ready. -/
def wordsReady (slot stamp : Nat) (c : Ctx) : Ctx :=
  if c.slot == slot && c.item.isSome then { c with blocked := false, st := if c.st == 3 then 1 else c.st, since := if c.st == 3 then stamp else c.since } else c

theorem wordsReady_ready {slot stamp : Nat} {c : Ctx} (hslot : (wordsReady slot stamp c).slot = slot) (hitem : (wordsReady slot stamp c).item.isSome = true) :
    (wordsReady slot stamp c).blocked = false ∧ (wordsReady slot stamp c).st ≠ 3 := by
  unfold wordsReady at *
  split
  · refine ⟨rfl, ?_⟩
    dsimp only
    split
    · decide
    · simp_all
  · rename_i h
    rw [if_neg h] at hslot hitem
    simp [hslot, hitem] at h

theorem exec_filterWordsArrival_written (s : State) (sp slot : Nat) (st : List StreamRead) (bad : List (Nat × Nat)) (stall : Nat) (y : ShSlot) (it : Item)
    (sh : Shingle) (x : Idx) (h : Thatch) (view : Nat) (hrun : s.running = true) (hy : lk (s.sp sp).shslots slot = some y) (hit : y.item = some it)
    (hsh : y.sh = some sh) (htomb : y.tomb = none) (hx : s.findIdx it.tenant it.index = some x) (hh : thatchOf x it.shard it.version = some h)
    (hview : viewOf x it.skein = some view) (hhere : ∀ k ∈ maskSlots it.mask,
      ((slotOf (s.sp sp) k).q.bind fun q => s.findCopy q.1 q.2).all (fun c => (slotWord s c sh.ids k st bad).isSome) = true) :
    ∃ t u, exec (.filterWordsArrival sp slot st bad stall) s = .next t ∧ t = u.schedule sp ∧
      (∃ z, lk (u.sp sp).shslots slot = some z ∧ z.item = some it ∧ z.sh = some sh ∧
        z.tomb = some (if (h.delta.any fun d => d.num == sh.num) then deltaWord h view sh else tombWord h view sh) ∧
        z.words = (maskSlots it.mask).filterMap fun k => (slotOf (s.sp sp) k).q.bind fun q => (s.findCopy q.1 q.2).bind fun c =>
          (slotWord s c sh.ids k st bad).bind fun w => w.word.map fun l => (k, l)) ∧
      (∀ c ∈ (u.sp sp).ctxs, c.slot = slot → c.item.isSome = true → c.blocked = false ∧ c.st ≠ 3) ∧
      keepsBut [.spin, .ctl, .counts, .copy] s u ∧ countsBut [0xE0500D, 0xE0500E, 0xE0500F, 0xE02002, 0xE02003, 0xE02009, 0xE0200A] s u ∧
      keepsBut [.spin, .ctl, .counts, .copy] s t := by
  obtain ⟨ws, hws⟩ : ∃ ws, ws = maskWords s (s.sp sp) it sh.ids st bad := ⟨_, rfl⟩
  obtain ⟨a, ha⟩ : ∃ a, a = ((s.countStall sp none stall).noteWords ws).zeroFor (s.sp sp) (s.sp sp).filterOwner (itemOwner it) 256 := ⟨_, rfl⟩
  obtain ⟨z, hz⟩ : ∃ z : ShSlot, z = { y with
    item := some it, sh := some sh
    tomb := some (if (h.delta.any fun d => d.num == sh.num) then deltaWord h view sh else tombWord h view sh)
    words := ws.filterMap fun (k, _, w) => w.bind fun r => r.word.map fun b => (k, b) } := ⟨_, rfl⟩
  obtain ⟨u, hu⟩ : ∃ u, u = a.stampUp.setSp sp { s.sp sp with
    shslots := put (s.sp sp).shslots slot z, filterOwner := some (itemOwner it), ctxs := (s.sp sp).ctxs.map (wordsReady slot a.ctl.stamp) } := ⟨_, rfl⟩
  obtain ⟨hnf, hnc⟩ := noteWords_notes (s.countStall sp none stall) ws
  have hset : keepsBut [.ctl, .spin] a u := hu ▸ (stampUp_frame a).trans' (setSp_frame _ _ _) (by simp) (by simp)
  have hfa : keepsBut [.counts, .copy] s a :=
    ha ▸ (countStall_frame s sp none stall).trans' (hnf.trans' (zeroFor_frame _ _ _ _ _) (rs := [.counts, .copy]) (by simp) (by simp)) (by simp) (by simp)
  have hca : countsBut [0xE0500D, 0xE0500E, 0xE0500F, 0xE02002, 0xE02003, 0xE02009, 0xE0200A] s a :=
    ha ▸ ((countStall_counts s sp none stall).mono (by simp)).trans ((hnc.mono (by simp)).trans ((zeroFor_counts _ _ _ _ _).mono (by simp)))
  have hf : keepsBut [.spin, .ctl, .counts, .copy] s u := hfa.trans' hset (by simp) (by simp)
  have ht : keepsBut [.spin, .ctl, .counts, .copy] s (u.schedule sp) := hf.trans (schedule_frame u sp)
  have husp : u.sp sp = { s.sp sp with
      shslots := put (s.sp sp).shslots slot z, filterOwner := some (itemOwner it), ctxs := (s.sp sp).ctxs.map (wordsReady slot a.ctl.stamp) } := by
    rw [hu, sp_setSp_same]
  have hall := maskWords_here s (s.sp sp) it sh.ids st bad hhere
  change ∃ t u, execFilterWordsArrival sp slot st bad stall s = .next t ∧ _
  unfold execFilterWordsArrival
  refine exists_live_at (u := u.schedule sp) (y := u) hrun ?_ ⟨withQueue_self ht (by simp), ⟨z, ?_, ?_, ?_, ?_, ?_⟩, ?_, hf,
    hca.trans (hset.countsBut (by simp) _), ht.withQueue⟩
  · simp only [hy, hit, hsh, htomb, hx, hh, hview, Option.bind_some, Option.map_some, Option.isSome_none, Bool.false_eq_true, if_false]
    refine (if_neg (ne_true_of_eq_false hall)).trans ?_
    rw [hu, ha, hz, hws]
    rfl
  · rw [husp]
    exact lk_put_same _ _ _
  · rw [hz]
  · rw [hz]
  · rw [hz]
  · rw [hz, hws]
    exact maskWords_written s (s.sp sp) it sh.ids st bad
  · rw [husp]
    intro c hc
    obtain ⟨x, -, rfl⟩ := List.mem_map.1 hc
    exact wordsReady_ready

/-! ### Items that are scored (R130, R150) -/

/-- What the tests of one query of an item exclude, and the pairs scored, in the counters of part 5 and part 4. -/
def State.countRun (m : Nat) (s : State) (n : Tally) : State :=
  (((((((s.bump 0xE05009 n.tomb).bump 0xE0500A n.delta).bump 0xE0500B n.filter).bump 0xE04006 n.sign).bump 0xE0500C n.bound).bump 0xE04005 n.scored).bump
    0xE04004 (n.scored * m))

theorem countRun_frame (m : Nat) (s : State) (n : Tally) : keepsBut [.counts] s (s.countRun m n) :=
  ((((((bump_frame _ _ _).trans (bump_frame _ _ _)).trans (bump_frame _ _ _)).trans (bump_frame _ _ _)).trans (bump_frame _ _ _)).trans
    (bump_frame _ _ _)).trans (bump_frame _ _ _)

/-- What one query adds to a counter of pairs. -/
def pairCount (k : Key) (n : Tally) : Nat :=
  if k = 0xE05009 then n.tomb else if k = 0xE0500B then n.filter else if k = 0xE0500C then n.bound else n.scored

theorem countRun_cnt (m : Nat) (s : State) (n : Tally) {k : Key} (hk : k ∈ pairCounts) : (s.countRun m n).cnt k = s.cnt k + pairCount k n := by
  unfold State.countRun pairCount
  simp only [State.cnt_bump]
  simp only [pairCounts, List.mem_cons, List.not_mem_nil, or_false] at hk
  rcases hk with rfl | rfl | rfl | rfl <;> simp

theorem countRuns_cnt (m : Nat) {k : Key} (hk : k ∈ pairCounts) {α : Type} (f : α → Tally) (l : List α) (s : State) :
    (l.foldl (fun s r => s.countRun m (f r)) s).cnt k = s.cnt k + (l.map fun r => pairCount k (f r)).sum := by
  induction l generalizing s with
  | nil => rfl
  | cons r l ih => rw [List.foldl_cons, ih, countRun_cnt m s _ hk, List.map_cons, List.sum_cons, Nat.add_assoc]

theorem scoreAll_congr {s t : State} (h : t.copy = s.copy) (p : Spindle) (it : Item) (th : Thatch) (sh : Shingle) (tw : List Bool) (words : List (Nat × List Bool)) :
    t.scoreAll p it th sh tw words = s.scoreAll p it th sh tw words := by
  unfold State.scoreAll
  simp only [findCopy_congr h]

/-- Scoring an item counts its pairs once, and is work of the search besides. -/
theorem scoreRun_work (s : State) (sp c : Nat) (it : Item) (h : Thatch) (sh : Shingle) (tw : List Bool) (words : List (Nat × List Bool)) :
    ∃ v, SearchWork s v ∧
      SearchWork ((s.scoreAll (s.sp sp) it h sh tw words).foldl (fun s r => s.countRun h.im.m r.2.2.1) v) (s.scoreRun sp c it h sh tw words) := by
  unfold State.scoreRun
  extract_lets runs loaded counted noted slots
  have hloaded : SearchWork s loaded := by
    unfold loaded
    refine .ite (.foldl _ (.refl s) fun t r h => ?_) (.refl s)
    split
    · exact h.loadLut _ _ _
    · exact h
  refine ⟨loaded, hloaded, ?_⟩
  have hnoted : SearchWork counted noted := .ite ((SearchWork.refl counted).noteDigest _ _ _ _) (.refl counted)
  have hselected : SearchWork counted (runs.foldl (fun s (k, q, _, es) => match s.findCopy q.1 q.2 with | some c => s.select sp k c it es | none => s) noted) := by
    refine .foldl _ hnoted fun t r h => ?_
    dsimp only
    split
    · exact h.select _ _ _ _ _
    · exact h
  refine SearchWork.ite (((hnoted.freeCtx _ _).sendSegments _ _).schedule _) (((SearchWork.foldl _ ((hselected.freeCtx _ _).sendSegments _ _) fun t r h => ?_).schedule _).placeWaiting _)
  dsimp only
  split
  · exact .ite ((h.setCopy _).stepDone _ _) (h.setCopy _)
  · exact h

theorem scoreRun_cnt (s : State) (sp c : Nat) (it : Item) (h : Thatch) (sh : Shingle) (tw : List Bool) (words : List (Nat × List Bool)) {k : Key}
    (hk : k ∈ pairCounts) : (s.scoreRun sp c it h sh tw words).cnt k =
      s.cnt k + ((s.scoreAll (s.sp sp) it h sh tw words).map fun r => pairCount k r.2.2.1).sum := by
  obtain ⟨v, hv, hrest⟩ := scoreRun_work s sp c it h sh tw words
  rw [hrest.pairs k hk, countRuns_cnt h.im.m hk, hv.pairs k hk]

theorem scoreRun_frame (s : State) (sp c : Nat) (it : Item) (h : Thatch) (sh : Shingle) (tw : List Bool) (words : List (Nat × List Bool)) :
    keepsBut [.spin, .ctl, .counts, .copy, .home, .sched, .net, .regs, .fault, .free] s (s.scoreRun sp c it h sh tw words) := by
  obtain ⟨v, hv, hrest⟩ := scoreRun_work s sp c it h sh tw words
  exact hv.frame.trans (((keepsBut_foldl _ v fun t _ => countRun_frame _ t _).mono (by simp)).trans hrest.frame)

/-! ### What a spindle meets (R56, R59) -/

/-- The state once the stall and the corrected errors of an item are counted. -/
def State.withStall (s : State) (sp c : Nat) (ev : ItemEv) : State :=
  if ev.corrected == 0 then s.countStall sp (some c) ev.stall else (s.countStall sp (some c) ev.stall).score partSpindle sp ev.corrected

theorem withStall_frame (s : State) (sp c : Nat) (ev : ItemEv) :
    keepsBut [.counts, .fault] s (s.withStall sp c ev) ∧ countsBut [0xE02002, 0xE02003] s (s.withStall sp c ev) := by
  have hf := countStall_frame s sp (some c) ev.stall
  have hc := countStall_counts s sp (some c) ev.stall
  unfold State.withStall
  split
  · exact ⟨hf.mono (by simp), hc⟩
  · exact ⟨hf.trans' (score_frame _ _ _ _) (by simp) (by simp), hc.trans ((score_frame _ _ _ _).countsBut (by simp) _)⟩

theorem putBack_queue (s : State) (sp c : Nat) (it : Item) : ((s.putBack sp c it).sp sp).queue = { it with errors := it.errors + 1 } :: (s.sp sp).queue := by
  unfold State.putBack State.freeCtx
  dsimp only
  rw [sp_setSp_same, sp_setSp_same]

/-- A bobbin error puts the item back to the head of the queue; the first one is an item that runs again, and a second one stops the spindle (R59). -/
theorem bobbinError_again (s : State) (sp c : Nat) (it : Item) : (s.bobbinError sp c it).cnt 0xE0200F = s.cnt 0xE0200F + 1 ∧
    ((s.bobbinError sp c it).sp sp).queue = { it with errors := it.errors + 1 } :: (s.sp sp).queue ∧
    (it.errors = 0 → (s.bobbinError sp c it).cnt 0xE02010 = s.cnt 0xE02010 + 1) ∧ (it.errors ≠ 0 → ((s.bobbinError sp c it).sp sp).noTake = true) ∧
    keepsBut [.spin, .ctl, .counts, .fault, .net, .mgmtOut] s (s.bobbinError sp c it) := by
  obtain ⟨a, ha⟩ : ∃ a, a = (s.bump 0xE0200F 1).score partSpindle sp 1024 := ⟨_, rfl⟩
  have hfa : keepsBut [.counts, .fault] s a := ha ▸ (bump_frame s 0xE0200F 1).trans' (score_frame _ _ _ _) (by simp) (by simp)
  have hca (k : Key) : a.cnt k = s.cnt k + if k = 0xE0200F then 1 else 0 := by rw [ha, (score_frame _ _ _ _).cnt (by simp), State.cnt_bump]
  have hback : keepsBut [.ctl, .spin] a (a.putBack sp c it) :=
    ((with_ctl_frame _ _).trans' (setSp_frame _ _ _) (rs := [.ctl, .spin]) (by simp) (by simp)).trans' (setSp_frame _ _ _) (by simp) (by simp)
  have hcb (k : Key) : (a.putBack sp c it).cnt k = s.cnt k + if k = 0xE0200F then 1 else 0 := by rw [hback.cnt (by simp), hca]
  have hfb : keepsBut [.spin, .ctl, .counts, .fault] s (a.putBack sp c it) := hfa.trans' hback (by simp) (by simp)
  have hqueue : ((a.putBack sp c it).sp sp).queue = { it with errors := it.errors + 1 } :: (s.sp sp).queue := by
    rw [putBack_queue, sp_congr (hfa .spin (by simp))]
  unfold State.bobbinError
  rw [← ha]
  dsimp only
  by_cases herr : it.errors = 0
  · have hb := bump_frame (a.putBack sp c it) 0xE02010 1
    rw [if_pos (by simpa using herr)]
    refine ⟨by rw [State.cnt_bump_ne _ _ (by decide), hcb, if_pos rfl], by rw [sp_congr (hb .spin (by simp)), hqueue],
      fun _ => by rw [State.cnt_bump_same, hcb, if_neg (by decide)], fun h => absurd herr h, hfb.trans' hb (by simp) (by simp)⟩
  · obtain ⟨b, hb⟩ : ∃ b, b = (a.putBack sp c it).setSp sp { (a.putBack sp c it).sp sp with noTake := true } := ⟨_, rfl⟩
    have hset : keepsBut [.spin] (a.putBack sp c it) b := hb ▸ setSp_frame _ _ _
    have hraise := raiseFault_frame b 2 (a.putBack sp c it).node partSpindle sp 0
    rw [if_neg (by simpa using herr), ← hb]
    refine ⟨by rw [raiseFault_cnt _ _ _ _ _ _ (by decide), hset.cnt (by simp), hcb, if_pos rfl], ?_, fun h => absurd h herr, fun _ => ?_,
      (hfb.trans' hset (rs := [.spin, .ctl, .counts, .fault]) (by simp) (by simp)).trans' hraise (by simp) (by simp)⟩
    · rw [sp_congr (hraise .spin (by simp)), hb, sp_setSp_same]
      exact hqueue
    · rw [sp_congr (hraise .spin (by simp)), hb, sp_setSp_same]

section
variable (s : State) (sp c : Nat) (ev : ItemEv) (x : Ctx) (it : Item) (y : ShSlot) (sh : Shingle) (tw : List Bool) (i : Idx) (h : Thatch)
  (hrun : s.running = true) (hc : c < 8) (hx : (s.sp sp).ctxs.getD c {} = x) (hit : x.item = some it) (hst : x.st = 2) (hkind : it.kind = 0)
  (hy : lk (s.sp sp).shslots x.slot = some y) (hsh : y.sh = some sh) (htomb : y.tomb = some tw) (hi : s.findIdx it.tenant it.index = some i)
  (hh : thatchOf i it.shard it.version = some h) (hzero : (s.sp sp).zeroing = false)
  (htables : ((maskSlots it.mask).any fun k => (slotOf (s.sp sp) k).q.isSome && (slotOf (s.sp sp) k).table.isNone) = false)
include hrun hc hx hit hst hkind hy hsh htomb hi hh hzero htables

/-- The item in hand, whose tables are here, meets what its row says. -/
theorem exec_scoreItem_meets : exec (.scoreItem sp c ev.corrected ev.bad ev.stall) s =
    live s fun _ => if ev.bad then ((s.withStall sp c ev).bobbinError sp c it).schedule sp else (s.withStall sp c ev).scoreRun sp c it h sh tw y.words := by
  change execScoreItem sp c ev.corrected ev.bad ev.stall s = _
  unfold execScoreItem
  rw [live_running hrun, live_running hrun]
  have hguard : ¬(decide (c ≥ 8) || x.st != 2 || it.kind != 0 || (s.sp sp).zeroing) = true := by simp [hst, hkind, hzero, hc]
  simp only [hx, hit, hy, hsh, htomb, hi, hh, Option.bind_some]
  rw [if_neg hguard, htables]
  rfl

theorem exec_scoreItem_scores (hbad : ev.bad = false) :
    ∃ t u, exec (.scoreItem sp c ev.corrected ev.bad ev.stall) s = .next t ∧ t = { u.scoreRun sp c it h sh tw y.words with pending := s.pending } ∧ keepsBut [.counts, .fault] s u ∧
      countsBut [0xE02002, 0xE02003] s u ∧
      t.cnt 0xE04005 = s.cnt 0xE04005 + ((s.scoreAll (s.sp sp) it h sh tw y.words).map fun r => r.2.2.1.scored).sum ∧
      t.cnt 0xE05009 = s.cnt 0xE05009 + ((s.scoreAll (s.sp sp) it h sh tw y.words).map fun r => r.2.2.1.tomb).sum ∧
      t.cnt 0xE0500B = s.cnt 0xE0500B + ((s.scoreAll (s.sp sp) it h sh tw y.words).map fun r => r.2.2.1.filter).sum ∧
      t.cnt 0xE0500C = s.cnt 0xE0500C + ((s.scoreAll (s.sp sp) it h sh tw y.words).map fun r => r.2.2.1.bound).sum ∧
      t.mem = s.mem ∧ t.idx = s.idx ∧ t.flash = s.flash ∧ t.rings = s.rings := by
  obtain ⟨hfu, hcu⟩ := withStall_frame s sp c ev
  have hf := hfu.trans' (scoreRun_frame (s.withStall sp c ev) sp c it h sh tw y.words)
    (rs := [.spin, .ctl, .counts, .copy, .home, .sched, .net, .regs, .fault, .free]) (by simp) (by simp)
  have hcnt {k : Key} (hk : k ∈ pairCounts) (hne : k ∉ [0xE02002, 0xE02003]) : ((s.withStall sp c ev).scoreRun sp c it h sh tw y.words).cnt k =
      s.cnt k + ((s.scoreAll (s.sp sp) it h sh tw y.words).map fun r => pairCount k r.2.2.1).sum := by
    rw [scoreRun_cnt _ _ _ _ _ _ _ _ hk, hcu k hne, sp_congr (hfu .spin (by simp)), scoreAll_congr (hfu .copy (by simp))]
  rw [exec_scoreItem_meets s sp c ev x it y sh tw i h hrun hc hx hit hst hkind hy hsh htomb hi hh hzero htables]
  refine exists_live_at (u := (s.withStall sp c ev).scoreRun sp c it h sh tw y.words) (y := s.withStall sp c ev) hrun (if_neg (ne_true_of_eq_false hbad))
    ⟨rfl, hfu, hcu, hcnt (k := 0xE04005) (by decide) (by decide), hcnt (k := 0xE05009) (by decide) (by decide), hcnt (k := 0xE0500B) (by decide) (by decide),
      hcnt (k := 0xE0500C) (by decide) (by decide), hf .mem (by simp), hf .idx (by simp), hf .flash (by simp), hf .rings (by simp)⟩

theorem exec_scoreItem_putBack (hbad : ev.bad = true) :
    ∃ t u, exec (.scoreItem sp c ev.corrected ev.bad ev.stall) s = .next t ∧ t = u.schedule sp ∧ u.cnt 0xE0200F = s.cnt 0xE0200F + 1 ∧
      (u.sp sp).queue = { it with errors := it.errors + 1 } :: (s.sp sp).queue ∧ (it.errors = 0 → u.cnt 0xE02010 = s.cnt 0xE02010 + 1) ∧
      (it.errors ≠ 0 → (u.sp sp).noTake = true) ∧ keepsBut [.spin, .ctl, .counts, .fault, .net, .mgmtOut] s u := by
  obtain ⟨hfu, hcu⟩ := withStall_frame s sp c ev
  obtain ⟨hcnt, hqueue, hagain, hstop, hf⟩ := bobbinError_again (s.withStall sp c ev) sp c it
  have hall : keepsBut [.spin, .ctl, .counts, .fault, .net, .mgmtOut] s ((s.withStall sp c ev).bobbinError sp c it) := hfu.trans' hf (by simp) (by simp)
  have ht := hall.trans' (schedule_frame _ sp) (rs := [.spin, .ctl, .counts, .fault, .net, .mgmtOut, .copy]) (by simp) (by simp)
  rw [exec_scoreItem_meets s sp c ev x it y sh tw i h hrun hc hx hit hst hkind hy hsh htomb hi hh hzero htables]
  refine exists_live_at (u := ((s.withStall sp c ev).bobbinError sp c it).schedule sp) (y := (s.withStall sp c ev).bobbinError sp c it) hrun (if_pos hbad)
    ⟨withQueue_self ht (by simp), hcnt.trans (by rw [hcu _ (by decide)]), hqueue.trans (by rw [sp_congr (hfu .spin (by simp))]),
      fun he => (hagain he).trans (by rw [hcu _ (by decide)]), hstop, hall⟩

end

/-- Settles O10: by the words that arrive, the item that is scored, and the item that is put back. -/
theorem itemsAreFetchedAndScored : Obligations.ItemsAreFetchedAndScored := by
  unfold Obligations.ItemsAreFetchedAndScored
  exact ⟨exec_filterWordsArrival_written, exec_scoreItem_scores, exec_scoreItem_putBack⟩

end Sys2Proof.Machine
end

section
/-! PROOF. Tenants come and go (O49). -/

namespace Sys2Proof.Machine

/-! ### The state and the record of a tenant (R467) -/

theorem tstate_setTstate (s : State) (n v : Nat) : (s.setTstate n v).tstate n = v := State.reg_setReg_same _ _ _

theorem setTstate_frame (s : State) (n v : Nat) : keepsBut [.regs] s (s.setTstate n v) := setReg_frame s _ _

theorem updTenant_frame (s : State) (n : Nat) (f : TRec → TRec) : keepsBut [.sec] s (s.updTenant n f) := with_sec_frame s _

/-- What an edit gives every record, the record of its tenant has. -/
theorem updTenant_record {s : State} {n : Nat} {f : TRec → TRec} {P : TRec → Prop} (h : ∀ r, P (f r)) : ∀ r ∈ (s.updTenant n f).sec.tenants, r.tenant = n → P r := by
  intro r hr htenant
  obtain ⟨x, -, rfl⟩ := List.mem_map.1 hr
  split
  · exact h x
  · rename_i hx
    rw [if_neg hx] at htenant
    exact absurd (by simpa using htenant) hx

/-- A change of the configuration area may start an advance of counter 2, and nothing else (R479). -/
theorem configChange_asks (s : State) : ∃ l, s.configChange = { s with sec := { s.sec with waitAdv := l } } := by
  unfold State.configChange State.wantAdvance
  split
  · exact ⟨s.sec.waitAdv, rfl⟩
  · split
    · exact ⟨s.sec.waitAdv, rfl⟩
    · exact ⟨_, rfl⟩

theorem configChange_frame (s : State) : keepsBut [.sec] s s.configChange := by
  obtain ⟨l, hl⟩ := configChange_asks s
  rw [hl]
  exact with_sec_frame s _

theorem configChange_sec (s : State) : s.configChange.sec.tenants = s.sec.tenants ∧ s.configChange.sec.rootKeys = s.sec.rootKeys := by
  obtain ⟨l, hl⟩ := configChange_asks s
  rw [hl]
  exact ⟨rfl, rfl⟩

theorem dropRegs_frame (s : State) (p : Key → Nat → Bool) : keepsBut [.regs] s (s.dropRegs p) := with_regs_frame s _

theorem dropRegs_reg (s : State) {p : Key → Nat → Bool} {k : Key} (h : ∀ v, p k v = false) : (s.dropRegs p).reg k = s.reg k := by
  have hfind : lk (s.regs.filter fun r => !p r.1 r.2) k = lk s.regs k := by
    induction s.regs with
    | nil => rfl
    | cons r l ih =>
      obtain ⟨j, v⟩ := r
      by_cases hj : j = k
      · subst hj
        simp [h, lk]
      · by_cases hp : p j v = true
        · simpa [hp, lk, hj] using ih
        · simpa [hp, lk, hj] using ih
  unfold State.reg
  exact congrArg (Option.getD · _) hfind

/-- The state of a tenant is none of the registers of its apertures. -/
theorem dropApertures_tstate (s : State) {n : Nat} (hn : n < 1024) : (s.dropApertures n).tstate n = s.tstate n := by
  refine dropRegs_reg s fun v => ?_
  have hbelow : ¬(0xC10000 : Nat) ≤ 0xA104 * 256 + n := by omega
  simp [pagedKey, hbelow]

theorem dropKey_frame (s : State) (n : Nat) : keepsBut [.sec, .regs] s (s.dropKey n) := (with_sec_frame s _).trans' (setReg_frame _ _ _) (by simp) (by simp)

theorem dropKey_rootKey (s : State) (n : Nat) : (s.dropKey n).rootKey n = none := lk_del_same _ _

theorem dropRecord_frame (s : State) (n : Nat) : keepsBut [.sec, .regs] s (s.dropRecord n) :=
  ((with_sec_frame s _).trans' (setTstate_frame _ n 0) (rs := [.sec, .regs]) (by simp) (by simp)).trans' (configChange_frame _) (by simp) (by simp)

/-- A tenant whose record is removed is absent, and its key is as before. -/
theorem dropRecord_absent (s : State) (n : Nat) : (s.dropRecord n).tstate n = 0 ∧ (s.dropRecord n).rootKey n = s.rootKey n ∧
    ∀ r ∈ (s.dropRecord n).sec.tenants, r.tenant ≠ n := by
  obtain ⟨a, ha⟩ : ∃ a, a = { s with sec := { s.sec with tenants := s.sec.tenants.filter (·.tenant != n) } }.setTstate n 0 := ⟨_, rfl⟩
  obtain ⟨htenants, hkeys⟩ := configChange_sec a
  unfold State.dropRecord
  rw [← ha]
  refine ⟨((configChange_frame a).reg (by simp) _).trans ?_, ?_, fun r hr => ?_⟩
  · rw [ha]
    exact tstate_setTstate _ n 0
  · unfold State.rootKey
    rw [hkeys, ha]
    rfl
  · rw [htenants, ha] at hr
    simpa using (List.mem_filter.1 hr).2

/-! ### What the engines hold of a tenant goes (R72, R472) -/

theorem dropPage_mem (s : State) (p : Page) : (s.dropPage p).mem = (s.clearPage p.tenant p.page).mem := by
  have hmem : (s.giveHome p.home p.poisoned).mem = s.mem := giveHome_frame s _ _ .mem (by simp)
  unfold State.dropPage State.clearPage
  dsimp only
  split
  · rw [State.zeroRange_mem, State.zeroRange_mem, hmem]
  · rw [State.zeroRange_mem, State.zeroRange_mem, hmem]

theorem dropPage_pages (s : State) (p : Page) : (s.dropPage p).tier.pages = s.tier.pages.filter fun q => !(q.tenant == p.tenant && q.page == p.page) := by
  have hpages := (giveHome_tier s p.home p.poisoned).1
  unfold State.dropPage
  dsimp only
  split
  · rw [zeroRange_frame _ _ _ _ .tier (by simp), hpages]
  · rw [zeroRange_frame _ _ _ _ .tier (by simp), hpages]

/-- A byte that reads 0 does so when a page is cleared. -/
theorem get_clearPage_zero {s : State} {a : Nat} (t n : Nat) (h : Memory.get s.mem a = 0) : Memory.get (s.clearPage t n).mem a = 0 := by
  have hclear (b c : Nat) : Memory.get (Memory.clear s.mem b c) a = 0 := by
    by_cases hin : b ≤ a ∧ a < b + c
    · exact Memory.get_clear_in hin.1 hin.2
    · rw [Memory.get_clear_out (by omega), h]
  unfold State.clearPage
  split
  · exact hclear _ _
  · exact hclear _ _

theorem get_clearPage_in (s : State) {t n i : Nat} (hn : n < 2 ^ 27) (hi : i < pageSize) : Memory.get (s.clearPage t n).mem (memKey t (n * pageSize) + i) = 0 := by
  unfold State.clearPage
  rw [if_pos hn, State.zeroRange_mem]
  exact Memory.get_clear_in (Nat.le_add_right _ _) (Nat.add_lt_add_left hi _)

/-- Every page of a list is given up. -/
def State.dropPages (s : State) (l : List Page) : State := l.foldl State.dropPage s

theorem dropPages_frame (s : State) (l : List Page) : keepsBut [.tier, .counts, .fault, .mem, .poison] s (s.dropPages l) :=
  keepsBut_foldl l s dropPage_frame

/-- A page that stays is none of those given up. -/
theorem dropPages_pages (s : State) (l : List Page) {p : Page} (hp : p ∈ (s.dropPages l).tier.pages) : p ∈ s.tier.pages ∧ p ∉ l := by
  induction l generalizing s with
  | nil => exact ⟨hp, List.not_mem_nil⟩
  | cons q l ih =>
    obtain ⟨hmem, hl⟩ := ih _ hp
    rw [dropPage_pages] at hmem
    obtain ⟨hs, hq⟩ := List.mem_filter.1 hmem
    refine ⟨hs, fun hp => ?_⟩
    rcases List.mem_cons.1 hp with rfl | hp
    · simp at hq
    · exact hl hp

theorem dropPages_zero (s : State) (l : List Page) {a : Nat} (h : Memory.get s.mem a = 0) : Memory.get (s.dropPages l).mem a = 0 := by
  induction l generalizing s with
  | nil => exact h
  | cons q l ih =>
    refine ih _ ?_
    rw [dropPage_mem]
    exact get_clearPage_zero _ _ h

/-- A page given up reads 0 (R72). -/
theorem dropPages_cleared (s : State) (l : List Page) {p : Page} (hp : p ∈ l) (hn : p.page < 2 ^ 27) {i : Nat} (hi : i < pageSize) :
    Memory.get (s.dropPages l).mem (memKey p.tenant (p.page * pageSize) + i) = 0 := by
  induction l generalizing s with
  | nil => exact absurd hp List.not_mem_nil
  | cons q l ih =>
    rcases List.mem_cons.1 hp with rfl | hl
    · refine dropPages_zero _ l ?_
      rw [dropPage_mem]
      exact get_clearPage_in s hn hi
    · exact ih _ hl

/-- The engines hold nothing of a tenant. -/
def State.withoutTenant (s : State) (n : Nat) : State := { s with
  tier := { s.tier with regions := s.tier.regions.filter (·.tenant != n) }
  filters := s.filters.filter (·.tenant != n)
  home := s.home.filter (·.par.tenant != n)
  copy := s.copy.filter (·.par.tenant != n)
  idx := s.idx.filter (·.desc.tenant != n)
  dense := { s.dense with models := s.dense.models.filter (·.tenant != n), jobs := s.dense.jobs.filter (·.tenant != n) }
  emb := { s.emb with
    tabs := s.emb.tabs.filter (·.tenant != n), rows := s.emb.rows.filter (·.tenant != n), overlays := s.emb.overlays.filter (·.tenant != n)
    replicas := s.emb.replicas.filter (·.tenant != n), steps := s.emb.steps.filter (·.tenant != n), switches := s.emb.switches.filter (·.tenant != n)
    migs := s.emb.migs.filter (·.m.tenant != n), jobs := s.emb.jobs.filter (·.tenant != n) }
  rings := s.rings.filter (·.tenant != n) }

theorem withoutTenant_frame (s : State) (n : Nat) : keepsBut [.tier, .filters, .home, .copy, .idx, .dense, .emb, .rings] s (s.withoutTenant n) := by
  intro p hp
  cases p <;> simp_all [Part.same, State.withoutTenant]

/-- Dropping a tenant ends with its rings' registers and the report of the tiers. -/
theorem dropTenant_after (s : State) (n : Nat) :
    keepsBut [.regs] ((s.dropPages (s.tier.pages.filter fun p => p.tenant == n)).withoutTenant n) (s.dropTenant n) :=
  (dropRegs_frame _ _).trans (tierRegs_frame _ _)

theorem dropTenant_frame (s : State) (n : Nat) :
    keepsBut [.regs, .tier, .mem, .poison, .filters, .home, .copy, .idx, .dense, .emb, .rings, .counts, .fault] s (s.dropTenant n) :=
  ((dropPages_frame s _).trans' (withoutTenant_frame _ n) (rs := [.tier, .mem, .poison, .filters, .home, .copy, .idx, .dense, .emb, .rings, .counts, .fault])
    (by simp) (by simp)).trans' (dropTenant_after s n) (by simp) (by simp)

/-- From the first state to the second everything held of a tenant has gone, and its pages read 0. -/
structure Forgets (n : Nat) (s t : State) : Prop where
  pages : ∀ p ∈ t.tier.pages, p.tenant ≠ n
  indexes : ∀ x ∈ t.idx, x.desc.tenant ≠ n
  tables : ∀ x ∈ t.emb.tabs, x.tenant ≠ n
  homes : ∀ h ∈ t.home, h.par.tenant ≠ n
  copies : ∀ c ∈ t.copy, c.par.tenant ≠ n
  zero : ∀ p ∈ s.tier.pages, p.tenant = n → p.page < 2 ^ 27 → ∀ i < pageSize, Memory.get t.mem (memKey n (p.page * pageSize) + i) = 0

namespace Forgets

variable {n : Nat} {s t u : State}

/-- What happens before to other parts than the tiers. -/
theorem before {ps : List Part} (f : keepsBut ps s t) (h : Forgets n t u) (hp : Part.tier ∉ ps) : Forgets n s u where
  pages := h.pages
  indexes := h.indexes
  tables := h.tables
  homes := h.homes
  copies := h.copies
  zero := by
    have htier : t.tier = s.tier := f .tier hp
    exact htier ▸ h.zero

/-- What happens afterwards to parts that hold nothing of tenants. -/
theorem after {ps : List Part} (h : Forgets n s t) (f : keepsBut ps t u) (hp : ∀ p ∈ [Part.tier, .idx, .emb, .home, .copy, .mem], p ∉ ps) : Forgets n s u := by
  have htier : u.tier = t.tier := f .tier (hp _ (by simp))
  have hidx : u.idx = t.idx := f .idx (hp _ (by simp))
  have hemb : u.emb = t.emb := f .emb (hp _ (by simp))
  have hhome : u.home = t.home := f .home (hp _ (by simp))
  have hcopy : u.copy = t.copy := f .copy (hp _ (by simp))
  have hmem : u.mem = t.mem := f .mem (hp _ (by simp))
  exact ⟨htier ▸ h.pages, hidx ▸ h.indexes, hemb ▸ h.tables, hhome ▸ h.homes, hcopy ▸ h.copies, hmem ▸ h.zero⟩

end Forgets

theorem withoutTenant_forgets (s : State) (n : Nat) :
    Forgets n s ((s.dropPages (s.tier.pages.filter fun p => p.tenant == n)).withoutTenant n) where
  pages := fun p hp htenant => by
    obtain ⟨hs, hl⟩ := dropPages_pages s _ hp
    exact hl (List.mem_filter.2 ⟨hs, by simpa using htenant⟩)
  indexes := fun x hx => by simpa using (List.mem_filter.1 hx).2
  tables := fun x hx => by simpa using (List.mem_filter.1 hx).2
  homes := fun x hx => by simpa using (List.mem_filter.1 hx).2
  copies := fun x hx => by simpa using (List.mem_filter.1 hx).2
  zero := fun p hp htenant hn i hi => by
    subst htenant
    exact dropPages_cleared s _ (List.mem_filter.2 ⟨hp, by simp⟩) hn hi

theorem dropTenant_forgets (s : State) (n : Nat) : Forgets n s (s.dropTenant n) := (withoutTenant_forgets s n).after (dropTenant_after s n) (by simp)

/-! ### Discards of the flash region (R326, R472) -/

theorem journal_frame (s : State) (rs : List (Nat × Nat × Nat)) : keepsBut [.flash] s (s.journal rs) := keepsBut_foldl rs s fun s _ => with_flash_frame s _

theorem startPage_frame (s : State) : keepsBut [.flash] s s.startPage := by
  unfold State.startPage
  split
  · simp
  · exact with_flash_frame s _

theorem takeDiscards_frame (s : State) : keepsBut [.flash, .counts] s s.takeDiscards := by
  unfold State.takeDiscards
  extract_lets ds n
  split
  · simp
  · exact ((((with_flash_frame s _).trans (journal_frame _ _)).trans' (bump_frame _ 0xE0B01D n) (rs := [.flash, .counts]) (by simp) (by simp))).trans'
      (startPage_frame _) (by simp) (by simp)

theorem flashRegs_frame (s : State) : keepsBut [.regs] s s.flashRegs :=
  ((((((((setReg_frame _ _ _).trans (setReg_frame _ _ _)).trans (setReg_frame _ _ _)).trans (setReg_frame _ _ _)).trans (setReg_frame _ _ _)).trans
    (setReg_frame _ _ _)).trans (setReg_frame _ _ _))).trans (keepsBut_foldl _ _ fun s _ => setReg_frame s _ _)

theorem discardRegion_frame (s : State) (n : Nat) : keepsBut [.flash, .counts, .regs] s (s.discardRegion n) := by
  unfold State.discardRegion State.discardBlocks
  extract_lets src queued
  have hq : keepsBut [.flash] s queued := with_flash_frame s _
  split
  · simp
  split
  · exact (hq.trans' (takeDiscards_frame _) (rs := [.flash, .counts]) (by simp) (by simp)).trans' (flashRegs_frame _) (by simp) (by simp)
  split
  · exact (with_flash_frame s _).mono (by simp)
  · exact hq.trans' (flashRegs_frame _) (by simp) (by simp)

/-! ### The rows -/

theorem exec_tenantCreate_created (s : State) (n : Nat) (hrun : s.running = true) (hn : n < 1024) (hstate : s.tstate n = 0) :
    ∃ t, exec (.tenantCreate n) s = .next t ∧ t.tstate n = 1 ∧ (∃ r ∈ t.sec.tenants, r.tenant = n) ∧ keepsBut [.sec, .regs] s t ∧
      regsBut [pagedKey 0xA104 n] s t := by
  obtain ⟨a, ha⟩ : ∃ a : State, a = { s with sec := { s.sec with
    tenants := insertBy (fun (a b : TRec) => a.tenant < b.tenant) { tenant := n } s.sec.tenants } } := ⟨_, rfl⟩
  have hfa : keepsBut [.sec] s a := ha ▸ with_sec_frame s _
  have hset := setTstate_frame a n 1
  have hasks := configChange_frame (a.setTstate n 1)
  change ∃ t, execTenantCreate n s = .next t ∧ _
  unfold execTenantCreate
  refine exists_live hrun (u := (a.setTstate n 1).configChange) ?_ ⟨?_, ⟨{ tenant := n }, ?_, rfl⟩,
    (hfa.trans' hset (rs := [.sec, .regs]) (by simp) (by simp)).trans' hasks (by simp) (by simp), ?_⟩ fun _ ⟨a, b, f, r⟩ => ⟨a, b, f.withQueue, r⟩
  · rw [if_neg (by simp [hn, hstate]), ha]
  · exact (hasks.reg (by simp) _).trans (tstate_setTstate a n 1)
  · rw [(configChange_sec _).1, hset .sec (by simp), ha]
    exact mem_insertBy.2 (Or.inl rfl)
  · exact (hfa.regsBut (by simp) _).trans ((regsBut_setReg a _ 1).trans (hasks.regsBut (by simp) _))

theorem exec_enterService_serves (s : State) (n : Nat) (hrun : s.running = true) (hn : n < 1024) (hstate : s.tstate n = 2) :
    ∃ t, exec (.enterService n) s = .next t ∧ t.tstate n = 3 ∧ keepsBut [.regs] s t ∧ regsBut [pagedKey 0xA104 n] s t := by
  change ∃ t, execEnterService n s = .next t ∧ _
  unfold execEnterService
  exact exists_live hrun (if_pos (by simp [hn, hstate])) ⟨tstate_setTstate s n 3, setTstate_frame s n 3, regsBut_setReg s _ 3⟩
    fun _ ⟨a, f, r⟩ => ⟨a, f.withQueue, r⟩

theorem discardRing_frame (s : State) (n : Nat) : keepsBut [.rings] s (s.discardRing n) := by
  unfold State.discardRing
  split
  · simp
  · exact setRing_frame _ _

/-- A teardown that starts: the tenant's state, its record, its apertures and rings, and the count (R472). -/
theorem startTeardown_starts (s : State) {n : Nat} (hn : n < 1024) : (s.startTeardown n).tstate n = 4 ∧
    (∀ r ∈ (s.startTeardown n).sec.tenants, r.tenant = n → r.down = true) ∧ (s.startTeardown n).cnt 0xE1000D = s.cnt 0xE1000D + 1 ∧
    keepsBut [.sec, .regs, .rings, .counts] s (s.startTeardown n) ∧ countsBut [0xE1000D] s (s.startTeardown n) := by
  obtain ⟨a, ha⟩ : ∃ a, a = (s.setTstate n 4).updTenant n fun x => { x with down := true } := ⟨_, rfl⟩
  have hfa : keepsBut [.sec, .regs] s a := ha ▸ (setTstate_frame s n 4).trans' (updTenant_frame _ _ _) (by simp) (by simp)
  have hregs := dropRegs_frame a fun k v => decide (0xC10000 ≤ k) && decide (k < 0xC11000) && field v 12 3 == n
  have hrings := discardRing_frame (a.dropApertures n) n
  have hall : keepsBut [.sec, .regs, .rings] s ((a.dropApertures n).discardRing n) :=
    (hfa.trans' hregs (rs := [.sec, .regs]) (by simp) (by simp)).trans' hrings (by simp) (by simp)
  have hbump := bump_frame ((a.dropApertures n).discardRing n) 0xE1000D 1
  have he : s.startTeardown n = ((a.dropApertures n).discardRing n).bump 0xE1000D 1 := by
    rw [ha]
    rfl
  rw [he]
  refine ⟨?_, ?_, by rw [State.cnt_bump_same, hall.cnt (by simp)], hall.trans' hbump (by simp) (by simp),
    (hall.countsBut (by simp) _).trans (countsBut_bump _ _ _)⟩
  · refine (hbump.reg (by simp) _).trans ((hrings.reg (by simp) _).trans ((dropApertures_tstate a hn).trans ?_))
    rw [ha]
    exact ((updTenant_frame _ _ _).reg (by simp) _).trans (tstate_setTstate s n 4)
  · rw [hbump .sec (by simp), hrings .sec (by simp), ha]
    exact updTenant_record fun _ => rfl

/-- A tenant that is keyed or in service may be torn down. -/
theorem teardown_admitted {s : State} {n : Nat} (hn : n < 1024) (hstate : s.tstate n = 2 ∨ s.tstate n = 3) :
    ¬(decide (1024 ≤ n) || !(s.tstate n == 2 || s.tstate n == 3)) = true := by
  rcases hstate with h | h
  · simp [hn, h]
  · simp [hn, h]

theorem exec_forcedTeardown_starts (s : State) {n : Nat} (hrun : s.running = true) (hn : n < 1024) (hstate : s.tstate n = 2 ∨ s.tstate n = 3) :
    exec (.forcedTeardown n) s = .next { s.startTeardown n with pending := s.pending } := by
  change execForcedTeardown n s = _
  unfold execForcedTeardown
  rw [live_running hrun, if_neg (teardown_admitted hn hstate)]

theorem exec_teardown_starts (s : State) (n : Nat) (hrun : s.running = true) (hn : n < 1024) (hstate : s.tstate n = 2 ∨ s.tstate n = 3)
    (hroles : s.hasRoles n = false) :
    ∃ t, exec (.teardown n) s = .next t ∧ exec (.forcedTeardown n) s = .next t ∧ t.tstate n = 4 ∧ (∀ r ∈ t.sec.tenants, r.tenant = n → r.down = true) ∧
      t.cnt 0xE1000D = s.cnt 0xE1000D + 1 ∧ keepsBut [.sec, .regs, .rings, .counts] s t ∧ countsBut [0xE1000D] s t := by
  obtain ⟨htstate, hdown, hcnt, hf, hc⟩ := startTeardown_starts s hn
  refine ⟨{ s.startTeardown n with pending := s.pending }, ?_, exec_forcedTeardown_starts s hrun hn hstate, htstate, hdown, hcnt, hf.withQueue, hc⟩
  change execTeardown n s = _
  unfold execTeardown
  rw [live_running hrun, if_neg (teardown_admitted hn hstate), hroles, if_neg (by decide)]

theorem exec_teardown_refused (s : State) (n : Nat) (hrun : s.running = true) (hn : n < 1024) (hstate : s.tstate n = 2 ∨ s.tstate n = 3)
    (hroles : s.hasRoles n = true) :
    (∃ t, exec (.teardown n) s = .next t ∧ t.cnt 0xE10004 = s.cnt 0xE10004 + 1 ∧ keepsBut [.counts] s t ∧ countsBut [0xE10004] s t) ∧
    (∃ t, exec (.forcedTeardown n) s = .next t ∧ t.tstate n = 4 ∧ t.cnt 0xE1000D = s.cnt 0xE1000D + 1) := by
  obtain ⟨htstate, -, hcnt, -, -⟩ := startTeardown_starts s hn
  refine ⟨?_, _, exec_forcedTeardown_starts s hrun hn hstate, htstate, hcnt⟩
  change ∃ t, execTeardown n s = .next t ∧ _
  unfold execTeardown
  refine exists_live hrun (u := s.bump 0xE10004 1) ?_ ⟨State.cnt_bump_same _ _ _, bump_frame _ _ _, countsBut_bump _ _ _⟩
    fun _ ⟨a, f, c⟩ => ⟨a, f.withQueue, c⟩
  rw [if_neg (teardown_admitted hn hstate), if_pos hroles]

theorem exec_tenantRelease_removed (s : State) (n : Nat) (hrun : s.running = true) (hn : n < 1024) (hstate : s.tstate n = 2) :
    ∃ t, exec (.tenantRelease n) s = .next t ∧ t.tstate n = 0 ∧ t.rootKey n = none ∧ (∀ r ∈ t.sec.tenants, r.tenant ≠ n) ∧
      (∀ p ∈ t.tier.pages, p.tenant ≠ n) ∧ (∀ x ∈ t.idx, x.desc.tenant ≠ n) ∧ (∀ x ∈ t.emb.tabs, x.tenant ≠ n) ∧
      (∀ p ∈ s.tier.pages, p.tenant = n → p.page < 2 ^ 27 → ∀ i < pageSize, Memory.get t.mem (memKey n (p.page * pageSize) + i) = 0) ∧
      (∀ h ∈ t.home, h.par.tenant ≠ n) ∧ (∀ c ∈ t.copy, c.par.tenant ≠ n) ∧
      keepsBut [.sec, .regs, .tier, .mem, .poison, .filters, .home, .copy, .idx, .dense, .emb, .rings, .counts, .fault] s t := by
  obtain ⟨b, hb⟩ : ∃ b, b = ((s.dropKey n).dropTenant n).dropApertures n := ⟨_, rfl⟩
  have hregs : keepsBut [.regs] ((s.dropKey n).dropTenant n) b := hb ▸ dropRegs_frame _ _
  have hrecord := dropRecord_frame b n
  obtain ⟨htstate, hkey, htenants⟩ := dropRecord_absent b n
  have hforgets := ((dropTenant_forgets (s.dropKey n) n).before (dropKey_frame s n) (by simp)).after (hregs.trans' hrecord (by simp) (by simp))
    (ps := [.sec, .regs]) (by simp)
  have hsec : b.sec = (s.dropKey n).sec := (hregs .sec (by simp)).trans (dropTenant_frame _ n .sec (by simp))
  change ∃ t, execTenantRelease n s = .next t ∧ _
  unfold execTenantRelease
  refine exists_live hrun (u := b.dropRecord n) ?_ ⟨htstate, hkey.trans ?_, htenants, hforgets.pages, hforgets.indexes, hforgets.tables, hforgets.zero,
    hforgets.homes, hforgets.copies, ?_⟩ fun _ ⟨a, b, c, d, e, g, h, i, j, f⟩ => ⟨a, b, c, d, e, g, h, i, j, f.withQueue⟩
  · rw [if_neg (Nat.not_le.2 hn), if_pos (by simp [hstate]), hb]
  · unfold State.rootKey
    rw [hsec]
    exact dropKey_rootKey s n
  · exact ((dropKey_frame s n).trans' (dropTenant_frame _ n)
      (rs := [.sec, .regs, .tier, .mem, .poison, .filters, .home, .copy, .idx, .dense, .emb, .rings, .counts, .fault]) (by simp) (by simp)).trans'
      (hregs.trans' hrecord (rs := [.sec, .regs]) (by simp) (by simp)) (by simp) (by simp)

theorem exec_tenantRelease_held (s : State) (n : Nat) (hrun : s.running = true) (hn : n < 1024) (hstate : s.tstate n = 4) :
    ∃ t, exec (.tenantRelease n) s = .next t ∧ (∀ r ∈ t.sec.tenants, r.tenant = n → r.release = true) ∧ keepsBut [.sec] s t := by
  change ∃ t, execTenantRelease n s = .next t ∧ _
  unfold execTenantRelease
  refine exists_live hrun (u := s.updTenant n fun x => { x with release := true }) ?_ ⟨updTenant_record fun _ => rfl, updTenant_frame _ _ _⟩
    fun _ ⟨a, f⟩ => ⟨a, f.withQueue⟩
  rw [if_neg (Nat.not_le.2 hn), if_neg (by simp [hstate]), if_pos (by simp [hstate])]

/-- The key, the flash region and the engine state of a tenant whose work has ended are gone. -/
def State.tenantCleared (s : State) (n : Nat) : State := ((s.dropKey n).discardRegion n).dropTenant n

theorem tenantCleared_forgets (s : State) (n : Nat) : Forgets n s (s.tenantCleared n) :=
  ((dropTenant_forgets _ n).before (discardRegion_frame (s.dropKey n) n) (by simp)).before (dropKey_frame s n) (by simp)

theorem tenantCleared_rootKey (s : State) (n : Nat) : (s.tenantCleared n).rootKey n = none := by
  unfold State.tenantCleared State.rootKey
  rw [dropTenant_frame _ n .sec (by simp), discardRegion_frame _ n .sec (by simp)]
  exact dropKey_rootKey s n

theorem tenantCleared_frame (s : State) (n : Nat) :
    keepsBut [.sec, .regs, .flash, .tier, .mem, .poison, .filters, .home, .copy, .idx, .dense, .emb, .rings, .counts, .fault] s (s.tenantCleared n) :=
  ((dropKey_frame s n).trans' (discardRegion_frame _ n) (rs := [.sec, .regs, .flash, .counts]) (by simp) (by simp)).trans' (dropTenant_frame _ n)
    (by simp) (by simp)

/-- The row of a teardown whose tenant has no work left. -/
theorem exec_teardownComplete_clears (s : State) (n : Nat) (hrun : s.running = true) (hn : n < 1024) (hstate : s.tstate n = 4) (hbusy : s.busy n = false) :
    exec (.teardownComplete n) s = live s fun _ => if (s.tenantRec n).any (·.release) then (s.tenantCleared n).dropRecord n
      else ((s.tenantCleared n).setTstate n 1).updTenant n fun x => { x with down := false, release := false } := by
  change execTeardownComplete n s = _
  unfold execTeardownComplete
  rw [live_running hrun, live_running hrun, if_neg (by simp [hn, hstate, hbusy])]
  rfl

theorem exec_teardownComplete_unkeyed (s : State) (n : Nat) (hrun : s.running = true) (hn : n < 1024) (hstate : s.tstate n = 4) (hbusy : s.busy n = false)
    (hrelease : ∀ r ∈ s.sec.tenants, r.tenant = n → r.release = false) :
    ∃ t, exec (.teardownComplete n) s = .next t ∧ t.tstate n = 1 ∧ t.rootKey n = none ∧ (∀ r ∈ t.sec.tenants, r.tenant = n → r.down = false) ∧
      (∀ p ∈ t.tier.pages, p.tenant ≠ n) ∧ (∀ x ∈ t.idx, x.desc.tenant ≠ n) ∧
      (∀ p ∈ s.tier.pages, p.tenant = n → p.page < 2 ^ 27 → ∀ i < pageSize, Memory.get t.mem (memKey n (p.page * pageSize) + i) = 0) ∧
      keepsBut [.sec, .regs, .flash, .tier, .mem, .poison, .filters, .home, .copy, .idx, .dense, .emb, .rings, .counts, .fault] s t := by
  obtain ⟨a, ha⟩ : ∃ a, a = (s.tenantCleared n).setTstate n 1 := ⟨_, rfl⟩
  have hset : keepsBut [.regs] (s.tenantCleared n) a := ha ▸ setTstate_frame _ n 1
  have hupd := updTenant_frame a n fun x => { x with down := false, release := false }
  have hlast := hset.trans' hupd (rs := [.sec, .regs]) (by simp) (by simp)
  have hforgets := (tenantCleared_forgets s n).after hlast (by simp)
  have hheld : ¬(s.tenantRec n).any (·.release) = true := by
    unfold State.tenantRec
    cases hr : s.sec.tenants.find? fun x => x.tenant == n with
    | none => simp
    | some r => simp [hrelease r (List.mem_of_find?_eq_some hr) (by simpa using List.find?_some hr)]
  rw [exec_teardownComplete_clears s n hrun hn hstate hbusy]
  refine exists_live hrun (if_neg hheld) ⟨?_, ?_, updTenant_record fun _ => rfl, ?_, ?_, ?_, ?_⟩
    fun _ ⟨a, b, c, d, e, g, f⟩ => ⟨a, b, c, d, e, g, f.withQueue⟩
  · exact ((updTenant_frame _ _ _).reg (by simp) _).trans (tstate_setTstate _ n 1)
  · rw [← ha]
    exact (show _ = (s.tenantCleared n).rootKey n by rw [ha]; rfl).trans (tenantCleared_rootKey s n)
  · exact ha ▸ hforgets.pages
  · exact ha ▸ hforgets.indexes
  · exact ha ▸ hforgets.zero
  · exact ha ▸ (tenantCleared_frame s n).trans' hlast (by simp) (by simp)

theorem exec_teardownComplete_removed (s : State) (n : Nat) (r : TRec) (hrun : s.running = true) (hn : n < 1024) (hstate : s.tstate n = 4)
    (hbusy : s.busy n = false) (hr : s.tenantRec n = some r) (hrelease : r.release = true) :
    ∃ t, exec (.teardownComplete n) s = .next t ∧ t.tstate n = 0 ∧ t.rootKey n = none ∧ (∀ r ∈ t.sec.tenants, r.tenant ≠ n) ∧
      (∀ p ∈ t.tier.pages, p.tenant ≠ n) ∧
      keepsBut [.sec, .regs, .flash, .tier, .mem, .poison, .filters, .home, .copy, .idx, .dense, .emb, .rings, .counts, .fault] s t := by
  have hrecord := dropRecord_frame (s.tenantCleared n) n
  obtain ⟨htstate, hkey, htenants⟩ := dropRecord_absent (s.tenantCleared n) n
  have hforgets := (tenantCleared_forgets s n).after hrecord (by simp)
  rw [exec_teardownComplete_clears s n hrun hn hstate hbusy]
  exact exists_live hrun (if_pos (by simp [hr, hrelease])) ⟨htstate, hkey.trans (tenantCleared_rootKey s n), htenants, hforgets.pages,
    (tenantCleared_frame s n).trans' hrecord (by simp) (by simp)⟩ fun _ ⟨a, b, c, d, f⟩ => ⟨a, b, c, d, f.withQueue⟩

/-! ### Packets of a tenant that is bound elsewhere (R471) -/

/-- A packet of a tenant whose binding in the map is not the one held here is counted, and not served. -/
theorem liveFor_unbound {s : State} {n : Nat} {f : State → State} (hrun : s.running = true) (h : s.bindingDiffers n s.node = true) :
    ∃ t, liveFor n s f = .next t ∧ t.cnt 0xE1000F = s.cnt 0xE1000F + 1 ∧ keepsBut [.counts] s t ∧ countsBut [0xE1000F] s t :=
  exists_live hrun (if_pos h) ⟨State.cnt_bump_same _ _ _, bump_frame _ _ _, countsBut_bump _ _ _⟩ fun _ ⟨a, f, c⟩ => ⟨a, f.withQueue, c⟩

/-- The rows of a tenant's packets look at the binding first. -/
theorem exec_boundTenant {i : Instr} {n : Nat} (h : boundTenant i = some n) (s : State) : ∃ f, exec i s = liveFor n s f := by
  cases i
  case dispatch d => cases h; exact ⟨_, (rfl : execDispatch d s = _)⟩
  case indexDescriptor src m => cases h; exact ⟨_, (rfl : execIndexDescriptor src m s = _)⟩
  case sequencerUpdate u => cases h; exact ⟨_, (rfl : execSequencerUpdate u s = _)⟩
  case deltaRecord src r => cases h; exact ⟨_, (rfl : execDeltaRecord src r s = _)⟩
  case sealRecord r covers refused waited => cases h; exact ⟨_, (rfl : execSealRecord r covers refused waited s = _)⟩
  case logFetchDone n index records seals => cases h; exact ⟨_, (rfl : execLogFetchDone n index records seals s = _)⟩
  case logFetchRequest src n index first last => cases h; exact ⟨_, (rfl : execLogFetchRequest src n index first last s = _)⟩
  case buildReceive b => cases h; exact ⟨_, (rfl : execBuildReceive b s = _)⟩
  case imageReceive src im => cases h; exact ⟨_, (rfl : execImageReceive src im s = _)⟩
  case contributionRecord r forwarded seq => cases h; exact ⟨_, (rfl : execContributionRecord r forwarded seq s = _)⟩
  case scatterSummary m => cases h; exact ⟨_, (rfl : execScatterSummary m s = _)⟩
  case mirrorImages src n table step version rows => cases h; exact ⟨_, (rfl : execMirrorImages src n table step version rows s = _)⟩
  case warmCopy n table rows => cases h; exact ⟨_, (rfl : execWarmCopy n table rows s = _)⟩
  case migrationHandoff n table rows holders waited => cases h; exact ⟨_, (rfl : execMigrationHandoff n table rows holders waited s = _)⟩
  case replicaReceive src n table row view img => cases h; exact ⟨_, (rfl : execReplicaReceive src n table row view img s = _)⟩
  all_goals cases h

theorem exec_unbound (s : State) (n : Nat) (i : Instr) (hrun : s.running = true) (hi : boundTenant i = some n) (h : s.bindingDiffers n s.node = true) :
    ∃ t, exec i s = .next t ∧ t.cnt 0xE1000F = s.cnt 0xE1000F + 1 ∧ keepsBut [.counts] s t ∧ countsBut [0xE1000F] s t := by
  obtain ⟨f, hf⟩ := exec_boundTenant hi s
  rw [hf]
  exact liveFor_unbound hrun h

/-- Settles O49: by the rows of a tenant's life, and by the check of its binding. -/
theorem tenantsComeAndGo : Obligations.TenantsComeAndGo := by
  unfold Obligations.TenantsComeAndGo
  exact ⟨exec_tenantCreate_created, exec_enterService_serves, exec_teardown_starts, exec_teardown_refused, exec_tenantRelease_removed, exec_tenantRelease_held,
    exec_teardownComplete_unkeyed, exec_teardownComplete_removed, exec_unbound⟩

end Sys2Proof.Machine
end

section
/-! PROOF. Elements narrower than a byte (O55). A byte is the number whose digits to base 2 ^ w, from the least significant up, are its elements. -/

namespace Sys2Proof.Machine

/-- A digit of a number that is given by its digits. -/
theorem ofDigits_digit {b : Nat} {l : List Nat} (hb : 1 < b) (hl : ∀ c ∈ l, c < b) (j : Nat) : Nat.ofDigits b l / b ^ j % b = l.getD j 0 := by
  rw [Nat.ofDigits_div_pow_eq_ofDigits_drop j (by omega) l hl]
  by_cases h : j < l.length
  · rw [List.drop_eq_getElem_cons h, Nat.ofDigits_cons, Nat.add_mul_mod_self_left, Nat.mod_eq_of_lt (hl _ (l.getElem_mem h)),
      List.getD_eq_getElem _ _ h]
  · rw [List.drop_of_length_le (by omega), List.getD_eq_default _ _ (by omega)]
    simp

theorem lt_cdiv {a b k j : Nat} (hj : j < b) (h : b * k + j < a) : k < cdiv a b := by
  have hb : 0 < b := by omega
  have hle : (k + 1) * b ≤ a + (b - 1) := by
    rw [Nat.add_mul, Nat.mul_comm k b]
    omega
  exact (Nat.le_div_iff_mul_le hb).2 hle

/-- The elements of byte k of a payload whose bytes hold `per` elements each. -/
def byteElems (per : Nat) (cs : List Nat) (k : Nat) : List Nat := (cs.drop (k * per)).take per

theorem byteElems_getD {per k j : Nat} (cs : List Nat) (hj : j < per) : (byteElems per cs k).getD j 0 = cs.getD (per * k + j) 0 := by
  simp [byteElems, List.getD_eq_getElem?_getD, hj, Nat.mul_comm]

theorem mem_of_mem_byteElems {per k c : Nat} {cs : List Nat} (h : c ∈ byteElems per cs k) : c ∈ cs := List.mem_of_mem_drop (List.mem_of_mem_take h)

theorem byteElems_length_le (per : Nat) (cs : List Nat) (k : Nat) : (byteElems per cs k).length ≤ per := List.length_take_le _ _

/-- R85 for a width that divides a byte: each byte is the number of its elements as digits. -/
theorem packBits_narrow {w : Nat} (cs : List Nat) (hw : w < 8) :
    packBits w cs = (List.range (cdiv cs.length (8 / w))).map fun k => BitVec.ofNat 8 (Nat.ofDigits (2 ^ w) (byteElems (8 / w) cs k)) := by
  unfold packBits
  rw [if_neg (by omega)]
  simp only [Nat.ofDigits_eq_foldr, byteElems, Nat.cast_id, Nat.add_comm, Nat.mul_comm]

theorem byteElems_fit {w : Nat} {cs : List Nat} (hpos : 0 < w) (hdvd : w ∣ 8) (hcs : ∀ c ∈ cs, c < 2 ^ w) (k : Nat) :
    Nat.ofDigits (2 ^ w) (byteElems (8 / w) cs k) < 2 ^ 8 :=
  calc Nat.ofDigits (2 ^ w) (byteElems (8 / w) cs k)
      < (2 ^ w) ^ (byteElems (8 / w) cs k).length :=
        Nat.ofDigits_lt_base_pow_length (Nat.one_lt_two_pow hpos.ne') fun c hc => hcs c (mem_of_mem_byteElems hc)
    _ ≤ (2 ^ w) ^ (8 / w) := Nat.pow_le_pow_right (Nat.two_pow_pos w) (byteElems_length_le _ _ _)
    _ = 2 ^ 8 := by rw [← Nat.pow_mul, Nat.mul_div_cancel' hdvd]

theorem packBits_element {w : Nat} {cs : List Nat} (hw : w < 8) (hpos : 0 < w) (hdvd : w ∣ 8) (hcs : ∀ c ∈ cs, c < 2 ^ w) {k j : Nat} (hj : j < 8 / w)
    (h : 8 / w * k + j < cs.length) : ∃ b, (packBits w cs)[k]? = some b ∧ b.toNat / 2 ^ (w * j) % 2 ^ w = cs.getD (8 / w * k + j) 0 := by
  refine ⟨BitVec.ofNat 8 (Nat.ofDigits (2 ^ w) (byteElems (8 / w) cs k)), ?_, ?_⟩
  · simp [packBits_narrow cs hw, lt_cdiv hj h]
  · rw [BitVec.toNat_ofNat, Nat.mod_eq_of_lt (byteElems_fit hpos hdvd hcs k), Nat.pow_mul,
      ofDigits_digit (Nat.one_lt_two_pow hpos.ne') (fun c hc => hcs c (mem_of_mem_byteElems hc)), byteElems_getD cs hj]

/-- Settles O55: each byte is read back digit by digit. -/
theorem narrowElementsArePacked : Obligations.NarrowElementsArePacked := by
  unfold Obligations.NarrowElementsArePacked
  refine ⟨rfl, rfl, rfl, rfl, fun w cs hw hcs => ?_⟩
  have hlt : w < 8 := by omega
  have hpos : 0 < w := by omega
  have hdvd : w ∣ 8 := by rcases hw with rfl | rfl | rfl <;> decide
  exact ⟨by simp [packBits_narrow cs hlt], fun _ _ => packBits_element hlt hpos hdvd hcs⟩

end Sys2Proof.Machine
end

section
/-! PROOF. Gather items (O24). As a dense item that ends (O22), a gather item that is pooled frees its context, and the spindle goes on with its queue (R54). If the head of the
queue is an item of another work kind, the whole bobbin is zeroed for it (R70, R71), and a query that is resident there, which no item on the spindle names, loses the spindle
of its plan. The plan stands in `copy`, which the clause of R262 says is left as it was. -/

namespace Sys2Proof.Machine

/-- A table of tenant 1 in F32, with version 1 live (R250, R255). -/
def plainTable : Tab where
  slot := 0
  tenant := 1
  table := 4
  fmt := 9
  e := 16
  z := 0
  rows := 4096
  shardRows := 4096
  start := 0
  live := 1

/-- A gather job of two bags of two padding entries each, which read no row (R257, R260). -/
def paddedJob : GJob where
  slot := 0
  seq := 1
  tag := 0
  tenant := 1
  table := 4
  scatter := false
  listAddr := 0
  dataAddr := 0
  n := 4
  g := 2
  pool := 1
  fmt := 9
  bulk := true
  step := 0
  eta := 0
  parts := 1
  adm := 0
  frames := 1
  cost := 1
  version := 1
  idxs := List.replicate 4 paddingIdx
  items := [0, 1]

/-- Spindle 0 pools bag 0 in context 0, in a bobbin that is zeroed for gather work; a dense item waits, and the query of O22 is resident. -/
def poolingState : State :=
  { State.reset with
    copy := [residentQuery]
    emb := { tabs := [plainTable], jobs := [paddedJob] }
    spin := [(0, {
      queue := [lastConversion]
      ctxs := [{ st := 2, item := some gatherBehind }, {}, {}, {}, {}, {}, {}, {}]
      tslots := [(0, { q := some (residentQuery.name, 0) })]
      bobOwner := some (itemOwner gatherBehind) })] }

/-- The plans of the queries after a row. -/
def plansAfter : Res → List (List Nat)
  | .next t => t.copy.map (·.plan)
  | _ => []

theorem residentQuery_planned : poolingState.copy.map (·.plan) = [[0]] := rfl

/-- The row GATHER_ITEM at this state: the spindle has left the plan of the query. -/
theorem exec_gatherItem_poolingState_plan : plansAfter (exec (.gatherItem 0 ⟨0, ⟨0, false, 0⟩⟩) poolingState) = [[]] := by decide +kernel

/-- Refutes O24: the clause of R262 says that a gather item that is pooled leaves `copy` as it was. In `poolingState` bag 0 is pooled, and the dense item behind it has the bobbin
zeroed. The query resident there loses the spindle of its plan, which is in `copy`. -/
theorem not_rowsAreReadAndPooled : ¬ Obligations.RowsAreReadAndPooled := by
  unfold Obligations.RowsAreReadAndPooled
  rintro ⟨-, -, -, -, -, -, itemPools, -⟩
  have hrun : poolingState.running = true := by decide +kernel
  have hrows : ∀ p ∈ itemSpan paddedJob 0, paddedJob.reads plainTable p = true → (lk paddedJob.rows p).isSome = true := by decide +kernel
  obtain ⟨t, hexec, -, -, -, -, hcopy, -⟩ :=
    itemPools poolingState 0 0 0 0 ⟨0, false, 0⟩ paddedJob plainTable gatherBehind hrun rfl rfl rfl rfl (by decide) rfl hrows
  have hplan := exec_gatherItem_poolingState_plan
  rw [hexec] at hplan
  change t.copy.map (·.plan) = [[]] at hplan
  rw [hcopy, residentQuery_planned] at hplan
  exact absurd hplan (by decide)

end Sys2Proof.Machine
end

section
/-! PROOF. Build passes (O13). A build charges the overflows of its products to the Molset and to its builder (R90, R91). The counters of the spindles of die 1 begin at
0xE034:01; the statement bounds no builder, and for one far beyond the 384 spindles the counter that the model computes is the count of table builds itself. -/

namespace Sys2Proof.Machine

/-- A builder of die 1 by its number, whose counter of overflows would lie 0xC01 places beyond that of spindle 192. -/
def strayBuilder : Nat := 192 + 0xC01

/-- Its counter of overflows is the one of table builds. -/
theorem strayBuilder_counter : perSpindle 0xE033 0xE034 strayBuilder = 0xE04002 := rfl

/-- An image of eight sub-quantizers of dimension 1 whose codewords are all zero. -/
def zeroCodewords : Image := { refusedImage 0 with version := 1, m := 8, dim := 8, codebook := List.replicate (8 * 16) 0 }

/-- A query of a pass whose first element is 2^127: its square overflows against each of the 16 codewords of sub-quantizer 0 (R90, R123). -/
def overflowingQuery : CopyQ :=
  { residentQuery with par := { residentQuery.par with dim := 8 }, vec := 0x7F000000#32 :: List.replicate 7 0#32, phase := 1, builder := strayBuilder, plan := [] }

/-- The pass of that query, in table slot 0 of the builder. -/
def strayPass : Pass where
  id := 4
  skein := 1
  tenant := 1
  index := 2
  builder := strayBuilder
  queries := [(overflowingQuery.name, 0, 0)]
  built := false

/-- The pass waits for its build, and the builder's bobbin is zeroed for search work. -/
def strayPassState : State :=
  { State.reset with
    idx := [{ refusedIdx with thatches := [{ im := zeroCodewords, st := 2, since := 0 }], heldWait := [] }]
    copy := [overflowingQuery]
    passes := [strayPass]
    spin := [(strayBuilder, { tslots := [(0, { q := some (overflowingQuery.name, 0) })], bobOwner := some { tenant := 1, kind := 0, role := 0 } })] }

/-- A counter after a row. -/
def countAfter (k : Key) : Res → Option Nat
  | .next t => some (t.cnt k)
  | _ => none

/-- The row TABLE_BUILD at this state: 16 overflows are charged to the builder's counter, and one build is counted there. -/
theorem exec_tableBuild_strayPassState_count :
    countAfter (perSpindle 0xE033 0xE034 strayBuilder) (exec (.tableBuild strayPass.id) strayPassState) = some 17 := by decide +kernel

/-- Refutes O13: its clause of R122 says of every pass, whatever its builder, that 0xE040:02 grows by one. In `strayPassState` the builder's counter of overflows is 0xE040:02
too, and the query of the pass overflows, so it grows by 17. A pass that the model closes has a spindle of the Molset for its builder (`State.mayBuild`); the clause does not ask
for one. -/
theorem not_passesAndDispatches : ¬ Obligations.PassesAndDispatches := by
  unfold Obligations.PassesAndDispatches
  rintro ⟨⟨-, -, passIsBuilt, -⟩, -⟩
  have hrun : strayPassState.running = true := by decide +kernel
  have hprep : prepared (strayPassState.sp strayPass.builder) (strayPassState.ownerOf strayPass.tenant 0) = true := by decide +kernel
  obtain ⟨t, hexec, -, hone, -, -⟩ := passIsBuilt strayPassState strayPass hrun (by decide) rfl hprep
  have hbefore : strayPassState.cnt 0xE04002 = 0 := by decide +kernel
  have hcount := exec_tableBuild_strayPassState_count
  rw [hexec, strayBuilder_counter] at hcount
  have hafter : t.cnt 0xE04002 = 17 := Option.some.inj hcount
  rw [hbefore, hafter] at hone
  exact absurd hone (by decide)

end Sys2Proof.Machine
end

section
/-! PROOF. Step reports, stop decisions and widening (O14). -/

namespace Sys2Proof.Machine

/-- A row of the running Molset whose effect keeps the queue of commands answers that effect. -/
theorem live_kept {ps : List Part} {s u : State} {f : State → State} (hrun : s.running = true) (he : f s = u) (hf : keepsBut ps s u)
    (hp : Part.pending ∉ ps) : live s f = .next u := by
  rw [live_running hrun, he, withQueue_self hf hp]

/-! ### What a decision changes (R157) -/

/-- The parts of the state that deciding a query's step changes: the query at its home and on its copies here, counters, the budget debt, the ring's place in line (R413) and
what waits at the transport. -/
def decisionParts : List Part := [.home, .copy, .counts, .regs, .sched, .net]

theorem stopLocal_frame (s : State) (q : QName) : keepsBut [.copy] s (s.stopLocal q) := with_copy_frame s _

theorem widenCharge_frame (s : State) (h : HomeQ) (n : Nat) : keepsBut [.regs, .counts, .sched] s (s.widenCharge h n) :=
  ((setReg_frame s _ _).trans' (bump_frame _ _ _) (rs := [.regs, .counts]) (by simp) (by simp)).trans' (with_sched_frame _ _) (by simp) (by simp)

/-- What is counted and sent after the home has noted a decision. -/
theorem decisionSent_frame {s t u v : State} (hhome : keepsBut [.home] s t) (hcount : keepsBut [.counts] t u) (hcharge : keepsBut [.regs, .counts, .sched] u v)
    (nodes : List Nat) (tenant epoch : Nat) (m : Msg) : keepsBut decisionParts s (v.sendEach nodes 0x20 tenant epoch m) :=
  ((hhome.trans' hcount (rs := [.home, .counts]) (by simp) (by simp)).trans' hcharge (rs := [.home, .counts, .regs, .sched]) (by simp) (by simp)).trans'
    (sendEach_frame _ _ _ _ _ _) (by simp [decisionParts]) (by simp [decisionParts])

theorem decideOnce_frame (s : State) (q : QName) : keepsBut decisionParts s (s.decideOnce q) := by
  unfold State.decideOnce
  split
  · exact keepsBut_refl _ s
  split
  · exact keepsBut_refl _ s
  extract_lets sum h' dsts nodes low
  split
  · exact (setHome_frame s _).mono (by simp [decisionParts])
  split
  · have hcount := (bump_frame (s.setHome { h' with stopped := true, ceiling := low }) 0xE05015 dsts.length).trans (bumpIf_frame _ low 0xE05012)
    exact (decisionSent_frame (setHome_frame s _) hcount (keepsBut_refl _ _) _ _ _ _).trans' (stopLocal_frame _ _) (by simp) (by simp [decisionParts])
  · have hcount := ((bump_frame (s.setHome { h' with step := h'.step + 1, widened := true }) 0xE05015 dsts.length).trans (bump_frame _ 0xE05010 1)).trans
      (bumpIf_frame _ (!h'.widened) 0xE05011)
    exact decisionSent_frame (setHome_frame s _) hcount (widenCharge_frame _ _ _) _ _ _ _

theorem decideLoop_frame (n : Nat) (q : QName) (s : State) : keepsBut decisionParts s (decideLoop n q s) := by
  induction n generalizing s with
  | zero => exact keepsBut_refl _ s
  | succ n ih =>
    have hone := decideOnce_frame s q
    unfold decideLoop
    dsimp only
    split
    · split
      · exact hone.trans (ih _)
      · exact hone
    · exact hone

theorem decideStep_frame (s : State) (q : QName) : keepsBut decisionParts s (s.decideStep q) := decideLoop_frame 32 q s

/-! ### Step reports (R156, R157, R159, R165) -/

theorem noteReport_name (h : HomeQ) (r : StepRep) : (noteReport h r).1.name = h.name := by
  unfold noteReport
  split
  · rfl
  · dsimp only
    split
    · rfl
    · split <;> rfl

section newReport

variable {h : HomeQ} {r : StepRep} (hnew : (h.reports.any fun x => x.shard == r.shard && x.step == r.step) = false)
include hnew

/-- A report that comes first for its shard and step joins the others. -/
theorem noteReport_reports : (noteReport h r).1.reports = h.reports ++ [r] := by
  unfold noteReport
  rw [if_neg (by simp [hnew])]
  dsimp only
  split
  · rfl
  · split <;> rfl

theorem noteReport_missing (hgone : r.status = 0x000E) : r.shard ∈ (noteReport h r).1.missing := by
  unfold noteReport
  rw [if_neg (by simp [hnew])]
  simp only [hgone, beq_self_eq_true, if_true]
  split
  · rename_i hin
    simpa using hin
  · simp

theorem noteReport_refusal (hst : r.status ≠ 0) (hhere : r.status ≠ 0x000E) : (noteReport h r).1.refusal ≠ 0 := by
  unfold noteReport
  rw [if_neg (by simp [hnew])]
  simp only [beq_iff_eq, bne_iff_ne, hhere, hst, ne_eq, not_false_eq_true, if_true, if_false]
  split
  · exact hst
  · omega

theorem noteReport_scanned (hst : r.status = 0) : (noteReport h r).1 = { h with reports := h.reports ++ [r] } := by
  unfold noteReport
  rw [if_neg (by simp [hnew])]
  simp [hst]

end newReport

theorem exec_stepReport_home {s : State} {r : StepRep} (hhome : r.name.home = s.node) :
    exec (.stepReport r) s = live s fun s => s.homeReport r := by
  change live s (fun s => if r.name.home == s.node then s.homeReport r else s) = _
  simp only [live, hhome, beq_self_eq_true, if_true]

/-- A report of a shard that the query was dispatched for is noted, and then the home decides. -/
theorem homeReport_noted {s : State} {r : StepRep} {h : HomeQ} (hfind : s.findHome r.name = some h) (hcopy : (h.copies.any fun c => c.1 == r.shard) = true) :
    s.homeReport r = ((s.setHome (noteReport h r).1).bumpIf (noteReport h r).2 0xE05018).decideStep r.name := by
  unfold State.homeReport
  simp only [hfind]
  rw [if_neg (by simp [hcopy])]

theorem exec_stepReport_noted (s : State) (r : StepRep) (h : HomeQ) (hrun : s.running = true) (hhome : r.name.home = s.node)
    (hfind : s.findHome r.name = some h) (hcopy : (h.copies.any fun c => c.1 == r.shard) = true)
    (hnew : (h.reports.any fun x => x.shard == r.shard && x.step == r.step) = false) :
    ∃ t u g, exec (.stepReport r) s = .next t ∧ u.findHome r.name = some g ∧ g.reports = h.reports ++ [r] ∧ (r.status = 0x000E → r.shard ∈ g.missing) ∧
      (r.status ≠ 0 → r.status ≠ 0x000E → g.refusal ≠ 0) ∧ (r.status = 0 → g = { h with reports := h.reports ++ [r] }) ∧ keepsBut [.home, .counts] s u ∧
      countsBut [0xE05018] s u ∧ t = u.decideStep r.name ∧ keepsBut [.home, .copy, .counts, .regs, .sched, .net] s t := by
  have hset := setHome_frame s (noteReport h r).1
  have hbump := bumpIf_frame (s.setHome (noteReport h r).1) (noteReport h r).2 0xE05018
  have hnoted := hset.trans' hbump (rs := [.home, .counts]) (by simp) (by simp)
  have hall := hnoted.trans' (decideStep_frame _ r.name) (rs := decisionParts) (by simp [decisionParts]) (by simp)
  have hname : (noteReport h r).1.name = r.name := (noteReport_name h r).trans (findHome_name hfind)
  have hfound : (s.setHome (noteReport h r).1).findHome r.name = some (noteReport h r).1 := hname ▸ findHome_setHome (hname ▸ hfind)
  rw [exec_stepReport_home hhome]
  refine ⟨_, _, (noteReport h r).1, live_kept hrun (homeReport_noted hfind hcopy) hall (by decide), (findHome_congr (hbump .home (by simp)) _).trans hfound,
    noteReport_reports hnew, noteReport_missing hnew, noteReport_refusal hnew, noteReport_scanned hnew, hnoted, ?_, rfl, hall⟩
  exact (hset.countsBut (by simp) _).trans (countsBut_bumpIf _ _ _)

/-! ### Decisions at the copies (R157) -/

theorem exec_stopDecision_stops (s : State) (q : QName) (hrun : s.running = true) :
    ∃ t, exec (.stopDecision q) s = .next t ∧ t.copy = updIf (fun c => c.name == q) (fun c => { c with stop := true }) s.copy ∧ keepsBut [.copy] s t := by
  have hf := stopLocal_frame s q
  have hexec : exec (.stopDecision q) s = .next (s.stopLocal q) := live_kept (f := fun s => s.stopLocal q) hrun rfl hf (by decide)
  exact ⟨_, hexec, rfl, hf⟩

/-- A copy that has ended the step before, and has not stopped, deals the lists of the step that it widens to. -/
theorem widenCopy_deals {s : State} {c : CopyQ} {h : Thatch} (hphase : c.phase = 3) (hstop : c.stop = false) (hleft : c.left = 0)
    (hwiden : canWiden c.par = true) (hthatch : s.copyThatch c = some h) :
    State.widenCopy (c.step + 1) s c =
      (s.setCopy { c with step := c.step + 1, offered := 0 }).deal h [{ c with step := c.step + 1, offered := 0 }] := by
  unfold State.widenCopy
  rw [if_neg (by simp [hphase, hstop, hleft, hwiden])]
  simp only [hthatch]

theorem exec_widenDecision_deals (s : State) (c : CopyQ) (h : Thatch) (hrun : s.running = true)
    (honly : s.copy.filter (fun x => x.name == c.name) = [c]) (hphase : c.phase = 3) (hstop : c.stop = false) (hleft : c.left = 0)
    (hwiden : canWiden c.par = true) (hthatch : s.copyThatch c = some h) :
    ∃ t, exec (.widenDecision c.name (c.step + 1)) s = .next t ∧
      t = (s.setCopy { c with step := c.step + 1, offered := 0 }).deal h [{ c with step := c.step + 1, offered := 0 }] ∧ t.mem = s.mem ∧ t.rings = s.rings := by
  have hwork := (((SearchWork.refl s).setCopy { c with step := c.step + 1, offered := 0 }).deal h [{ c with step := c.step + 1, offered := 0 }]).frame
  change ∃ t, live s (fun s => (s.copy.filter fun x => x.name == c.name).foldl (State.widenCopy (c.step + 1)) s) = .next t ∧ _
  refine ⟨_, live_kept hrun ?_ hwork (by decide), rfl, hwork .mem (by decide), hwork .rings (by decide)⟩
  rw [honly, List.foldl_cons, List.foldl_nil]
  exact widenCopy_deals hphase hstop hleft hwiden hthatch

/-- Settles O14: a lemma for each of the three rows. -/
theorem wideningIsDecided : Obligations.WideningIsDecided :=
  ⟨exec_stepReport_noted, exec_stopDecision_stops, exec_widenDecision_deals⟩

end Sys2Proof.Machine
end

section
/-! PROOF. Re-rank reads (O16). The answer of a read has the bucket of its queue pay for it (R407), and the bucket's level is a register. The model finds the state of the stack
of a page at register 0x6001:01 + n, whatever the number n of the stack is (R303): for a number large enough that register is the bucket's level. -/

namespace Sys2Proof.Machine

/-- The level of the flash bucket of tenant 1 in latency class (R407). -/
def flashBucket : Key := bucketKey 0xB120 1 2 false

/-- A stack number, of no stack of the part, whose state register would be that level. -/
def strayStack : Nat := flashBucket - 0x600101

/-- A candidate of the delta segment: its vector lies in the stacks (R213). -/
def strayCand : Cand where
  name := residentQuery.name
  shard := 0
  id := 7
  delta := true
  shingle := 0

/-- The entry of the candidate: its vector begins hidden page 2^27. -/
def strayEntry : DeltaEnt where
  ins := 1
  rem := none
  id := strayCand.id
  shingle := strayCand.shingle
  pos := 0
  list := 0
  addr := 2 ^ 27 * pageSize

/-- The candidate's query at its home, which awaits the one score. -/
def awaitingHome : HomeQ where
  name := residentQuery.name
  seq := 1
  tag := 0
  par := residentQuery.par
  vecAddr := 0
  vecFmt := 9
  resAddr := 4096
  version := 1
  weight := 1
  phase := 4
  sent := [strayCand]

/-- The thatch that the copy of the query is bound to. -/
def strayThatch : Thatch where
  im := { refusedImage 0 with version := 1 }
  st := 2
  since := 0
  entries := [strayEntry]

/-- The read of the vector has waited in the queue of flash reads; the bucket's level is 3, and the read costs 1. The page of the vector is in the stray stack. -/
def strayReadState : State :=
  { State.reset.setReg flashBucket 3 with
    idx := [{ refusedIdx with thatches := [strayThatch], heldWait := [] }]
    home := [awaitingHome]
    copy := [residentQuery]
    rerank := { reads := [strayCand] }
    sched := { State.reset.sched with reads := [{ res := 2, tenant := 1, bulk := false, blocks := 1, since := 0, what := .rerank strayCand }] }
    tier := { pages := [{ tenant := 1, page := 2 ^ 27, home := .stack strayStack }] } }

/-- A read that meets no error, scored on spindle 0. -/
def cleanRead : VectorRead := ⟨false, ⟨[], false, 0⟩, 0⟩

/-- Before the answer the vector can be read. -/
theorem strayReadState_readable : (strayReadState.candBytes strayThatch residentQuery.par.tenant strayCand).isSome = true := by decide +kernel

/-- The row RERANK_READ_DONE at this state scores no vector: the bucket has paid, its level is 2, and 2 is the state of a failed stack (R303). -/
theorem exec_rerankReadDone_strayReadState_count :
    countAfter 0xE0400E (exec (.rerankReadDone strayCand cleanRead) strayReadState) = some 0 := by decide +kernel

/-- Refutes O16: its clause of R160 has a vector that can be read before its answer scored, whatever the number of the stack that holds it. In `strayReadState` that stack's
state register would be the level of the bucket that pays for the read: the payment makes it 2, the stack counts as failed, and the candidate gets no score. A stack of the part
has no such number; the clause does not ask for one that does. -/
theorem not_candidatesAndResults : ¬ Obligations.CandidatesAndResults := by
  unfold Obligations.CandidatesAndResults
  rintro ⟨⟨-, -, readIsScored, -⟩, -⟩
  obtain ⟨bs, hbytes⟩ := Option.isSome_iff_exists.1 strayReadState_readable
  have hrun : strayReadState.running = true := by decide +kernel
  have hcopy : strayReadState.findCopy strayCand.name strayCand.shard = some residentQuery := by decide +kernel
  have hthatch : strayReadState.copyThatch residentQuery = some strayThatch := by decide +kernel
  have hread : strayReadState.readOk (.rerank strayCand) = true := by decide +kernel
  have hspindle : strayReadState.spUp 0 = true := by decide +kernel
  have hnode : strayCand.name.home = strayReadState.node := by decide +kernel
  have hfind : strayReadState.findHome strayCand.name = some awaitingHome := by decide +kernel
  obtain ⟨t, g, hexec, -, -, -, hone, -, -⟩ := readIsScored strayReadState strayCand 0 ⟨[], false, 0⟩ residentQuery strayThatch bs awaitingHome hrun hcopy hthatch
    (by simp [strayReadState]) hread hspindle (by decide) hbytes hnode hfind rfl (by decide) (by decide)
  have hcount := exec_rerankReadDone_strayReadState_count
  have hbefore : strayReadState.cnt 0xE0400E = 0 := by decide +kernel
  rw [cleanRead, hexec] at hcount
  have hafter : t.cnt 0xE0400E = 0 := Option.some.inj hcount
  rw [hbefore, hafter] at hone
  exact absurd hone (by decide)

end Sys2Proof.Machine
end

section
/-! PROOF. Registrations (O18). When the last answer refuses a registration, its home drops the index and clears the nine objects of the index's slot before it tells the Molsets
that had accepted (R195). The statement bounds no slot; for one far beyond those of 0x4040:01 one of the nine is the node ID itself, and a packet to this Molset itself is not
sent. -/

namespace Sys2Proof.Machine

/-! ### What a row has sent -/

/-- The destinations of the packets that wait at the transport after a row. -/
def destinationsAfter : Res → List Nat
  | .next t => t.net.unacked.map (·.dst)
  | _ => []

theorem destinationsAfter_of_hasSent {s t : State} {i : Instr} {d k : Nat} {m : Msg} (h : exec i s = .next t) (hs : t.hasSent d k m) :
    d ∈ destinationsAfter (exec i s) := by
  obtain ⟨p, hp, rfl, -⟩ := hs
  rw [h]
  exact List.mem_map_of_mem hp

/-! ### A registration whose slot is none -/

/-- A slot number, of no slot of 0x4040:01, whose objects 0x4041 to 0x4049 begin at the node ID (R344). -/
def straySlot : Nat := 0x800001 - pagedKey 0x4041 0

/-- An index that its home, node 1, has in that slot. -/
def strayIdx : Idx := { refusedIdx with slot := straySlot, home := 1, thatches := [], heldWait := [] }

/-- Its registration: nodes 0 and 1 have taken the descriptor, and node 2 has not answered. -/
def strayRegistration : RegWait where
  tenant := 1
  seq := 1
  index := 2
  nodes := [0, 1, 2]
  yes := [0, 1]
  no := []
  tick := 0

/-- Node 1 awaits the last answer, and nothing waits at its transport. -/
def strayRegistrationState : State := { State.reset.setReg 0x800001 1 with idx := [strayIdx], regWait := [strayRegistration] }

/-- The row INDEX_ACK at this state, with a refusal from node 2: the Molset, whose node ID has become 0, tells node 1 alone. -/
theorem exec_indexAck_strayRegistrationState_destinations :
    destinationsAfter (exec (.indexAck 2 1 2 false) strayRegistrationState) = [1] := by decide +kernel

/-- Refutes O18: the clause of R195 for a registration that is refused has every other Molset that accepted told of it, whatever the slot of the index. In
`strayRegistrationState` clearing the slot clears the node ID, and node 0, which accepted, counts as this Molset itself and is told nothing. A slot that the model gives out lies
below 0x4040:01 (`State.takeIndex`); the clause does not ask for one that does. -/
theorem not_indexesAndUpdates : ¬ Obligations.IndexesAndUpdates := by
  unfold Obligations.IndexesAndUpdates
  rintro ⟨⟨-, -, -, -, -, lastRefuses⟩, -⟩
  have hrun : strayRegistrationState.running = true := by decide +kernel
  have hfind : strayRegistrationState.findIdx 1 2 = some strayIdx := by decide +kernel
  have hhome : strayIdx.home = strayRegistrationState.node := by decide +kernel
  have hother : (0 : Nat) ≠ strayRegistrationState.node := by decide +kernel
  obtain ⟨t, hexec, -, -, htold, -⟩ :=
    lastRefuses strayRegistrationState 2 strayRegistration strayIdx hrun hfind hhome rfl (by decide) (by decide) (by decide) (by decide)
  have hsent : 0 ∈ destinationsAfter (exec (.indexAck 2 1 2 false) strayRegistrationState) :=
    destinationsAfter_of_hasSent hexec (htold 0 (by decide) hother)
  rw [exec_indexAck_strayRegistrationState_destinations] at hsent
  exact absurd hsent (by decide)

end Sys2Proof.Machine
end

section
/-! PROOF. Images that are built (O20). A builder stages its image before it sends it to the other copy, and staging sets the build state of the index's slot (0x4043) to 2. As in
O18 the statement bounds no slot; for one far beyond those of 0x4040:01 that object is the node ID. -/

namespace Sys2Proof.Machine

/-- A slot number, of no slot of 0x4040:01, whose build state is the node ID (R344). -/
def strayBuildSlot : Nat := 0x800001 - pagedKey 0x4043 0

/-- A retrain of index 2 that has started (R217). -/
def strayBuild : Build where
  req := {
    tenant := 1, index := 2, kind := 1, lend := 1, publish := 100, home := 0, ringSeq := 1, codebook := [], centroids := [], listShard := [0, 0], margin := 0
    fold := 0 }
  fold := 0
  started := true
  staged := []
  p := none
  acks := []
  shingles := []
  sent := []
  fails := []

/-- The index of the build, in that slot and without items. -/
def strayBuildIdx : Idx := { refusedIdx with slot := strayBuildSlot, thatches := [], heldWait := [], build := some strayBuild }

/-- Shard 0 of the index: copy 0 on node 0, copy 1 on node 2, no flash holder (R365). -/
def strayShard : MapEntry where
  kind := 4
  action := 0
  tenant := 1
  object := 2
  shard := 0
  a := 0
  b := 2
  c := 0xFFFF
  value := 0

/-- Tenant 1 is in service on node 2 (R364). -/
def strayReach : MapEntry := { strayShard with kind := 2, object := 0, a := 2, b := 0xFFFF, value := 1 }

/-- Node 0 has built the shard; the tenant is in service here too, with a quota of 64 pages of the stacks (R289). -/
def strayBuildState : State :=
  { (State.reset.setReg (pagedKey 0xA104 1) 3).setReg (pagedKey 0x6040 1) 64 with idx := [strayBuildIdx], map := { entries := [strayReach, strayShard] } }

theorem strayBuildState_builds :
    ((strayBuildState.zeroLent strayBuildSlot 1).buildImage strayBuildIdx strayBuild 0 0 [] [] [] []).2.isSome = true := by decide +kernel

/-- The row IMAGE_BUILD_DONE at this state: the image is staged, the node ID has become 2, and nothing is sent. -/
theorem exec_imageBuildDone_strayBuildState_destinations :
    destinationsAfter (exec (.imageBuildDone 1 2 0 [] ⟨[], []⟩ []) strayBuildState) = [] := by decide +kernel

/-- Refutes O20: its clause of R218 has an image that is built sent to the other copy, whatever the slot of the index. In `strayBuildState` staging the image makes the node ID that
of the other copy, which then counts as this Molset itself and is sent nothing. A slot that the model gives out lies below 0x4040:01 (`State.takeIndex`); the clause does not ask
for one that does. -/
theorem not_buildsAndImages : ¬ Obligations.BuildsAndImages := by
  unfold Obligations.BuildsAndImages
  rintro ⟨-, -, imageGoes, -⟩
  obtain ⟨im, hbuilt⟩ := Option.isSome_iff_exists.1 strayBuildState_builds
  have hrun : strayBuildState.running = true := by decide +kernel
  have hfind : strayBuildState.findIdx 1 2 = some strayBuildIdx := by decide +kernel
  have hcopy : 0 ∈ strayBuildState.copy0 1 2 := by decide +kernel
  have hshard : idxShard strayBuildState.map.entries 1 2 0 = some strayShard := by decide +kernel
  have hother : strayShard.b ≠ strayBuildState.node := by decide +kernel
  have hcounts : strayBuildState.counts 1 strayShard.b = true := by decide +kernel
  obtain ⟨t, hexec, hgoes, -⟩ := imageGoes strayBuildState _ strayBuildIdx strayBuild 0 [] [] [] [] im strayShard hrun hfind rfl rfl hcopy rfl rfl rfl
    (Prod.ext rfl hbuilt) hshard (by decide) hother hcounts
  have hsent : strayShard.b ∈ destinationsAfter (exec (.imageBuildDone 1 2 0 [] ⟨[], []⟩ []) strayBuildState) := destinationsAfter_of_hasSent hexec hgoes
  rw [exec_imageBuildDone_strayBuildState_destinations] at hsent
  exact absurd hsent (by decide)

end Sys2Proof.Machine
end

section
/-! SUPPORT. What dealing counts, function by function, and what the installation of a view deals (R148, R156, R210). -/

namespace Sys2Proof.Machine

/-! ### Counters that stay, step by step -/

theorem countsBut.keep {ks : List Key} {ps : List Part} {o s t : State} (h : countsBut ks o s) (f : keepsBut ps s t) (hp : Part.counts ∉ ps) : countsBut ks o t :=
  h.trans (f.countsBut hp ks)

theorem countsBut.bump {ks : List Key} {o s : State} (h : countsBut ks o s) {k : Key} (hk : k ∈ ks) (n : Nat) : countsBut ks o (s.bump k n) :=
  h.trans ((countsBut_bump s k n).mono (by simpa using hk))

theorem countsBut.bumpIf {ks : List Key} {o s : State} (h : countsBut ks o s) (b : Bool) {k : Key} (hk : k ∈ ks) : countsBut ks o (s.bumpIf b k) :=
  h.trans ((countsBut_bumpIf s b k).mono (by simpa using hk))

theorem countsBut.ite {ks : List Key} {o s t : State} {p : Prop} {_ : Decidable p} (h : countsBut ks o s) (g : countsBut ks o t) :
    countsBut ks o (if p then s else t) := by split <;> assumption

theorem countsBut.foldl {α : Type} {ks : List Key} {o s : State} {f : State → α → State} (h : countsBut ks o s) (l : List α)
    (hf : ∀ s a, countsBut ks s (f s a)) : countsBut ks o (l.foldl f s) := h.trans (countsBut_foldl l s hf)

/-! ### What dealing counts (R148, R156, R157, R413) -/

/-- What is counted when items are dealt: the work of the spindles, queues that wake (R405), reports and decisions of steps (R156, R157, R165), widenings (R413), and packets
without a route (R350). -/
def dealCounts : List Key :=
  spindleCounts ++ [0xE0E008, 0xE05010, 0xE05011, 0xE05012, 0xE05014, 0xE05015, 0xE05018, 0xE0E007, 0xE0C00B]

theorem SpindleWork.dealCounts {s t : State} (h : SpindleWork s t) : countsBut dealCounts s t := h.counts.mono (List.subset_append_left _ _)

theorem dealTag_counts (s : State) (tenant : Nat) (bulk : Bool) (cost : Nat) : countsBut dealCounts s (s.dealTag tenant bulk cost) := by
  have tagged : countsBut dealCounts s (s.tagHead 4 tenant bulk cost) := (tagHead_counts s 4 tenant bulk cost).mono (by simp [dealCounts])
  unfold State.dealTag
  dsimp only
  split
  · exact tagged
  · exact tagged.keep ((setWq_frame _ _).trans (with_sched_frame _ _)) (by simp)

theorem sendEach_countsBut (s : State) (l : List Nat) (k t e : Nat) {m : Msg} (hm : carriesData m = false) : countsBut dealCounts s (s.sendEach l k t e m) :=
  countsBut_foldl _ s fun _ _ => (sendAt_countsBut _ _ _ _ _ _ hm).mono (by simp [dealCounts])

theorem widenCharge_counts (s : State) (h : HomeQ) (n : Nat) : countsBut dealCounts s (s.widenCharge h n) :=
  (((setReg_frame _ _ _).countsBut (by simp) _).bump (by decide) _).keep (with_sched_frame _ _) (by simp)

theorem decideOnce_counts (s : State) (q : QName) : countsBut dealCounts s (s.decideOnce q) := by
  have set (h : HomeQ) : countsBut dealCounts s (s.setHome h) := (setHome_frame s h).countsBut (by simp) _
  unfold State.decideOnce
  split
  · simp
  · refine .ite (by simp) (.ite (set _) (.ite ?stops ?widens))
    case stops => exact ((((set _).bump (by decide) _).bumpIf _ (by decide)).trans (sendEach_countsBut _ _ _ _ _ rfl)).keep (with_copy_frame _ _) (by simp)
    case widens =>
      exact (((((set _).bump (by decide) _).bump (by decide) _).bumpIf _ (by decide)).trans (widenCharge_counts _ _ _)).trans (sendEach_countsBut _ _ _ _ _ rfl)

theorem decideLoop_counts (n : Nat) (q : QName) (s : State) : countsBut dealCounts s (decideLoop n q s) := by
  induction n generalizing s with
  | zero => simp [decideLoop]
  | succ n ih =>
    unfold decideLoop
    dsimp only
    split
    · exact .ite ((decideOnce_counts s q).trans (ih _)) (decideOnce_counts s q)
    · exact decideOnce_counts s q

theorem homeReport_counts (s : State) (r : StepRep) : countsBut dealCounts s (s.homeReport r) := by
  unfold State.homeReport
  split
  · simp
  · exact .ite (by simp) ((((setHome_frame s _).countsBut (by simp) _).bumpIf _ (by decide)).trans (decideLoop_counts _ _ _))

theorem stepDone_counts (s : State) (q : QName) (sh : Nat) : countsBut dealCounts s (s.stepDone q sh) := by
  unfold State.stepDone
  split
  · simp
  · rename_i c _
    have told : countsBut dealCounts s ((s.setCopy { c with stop := c.stop || !canWiden c.par || c.status != 0 }).bump 0xE05014 1) :=
      ((setCopy_frame s _).countsBut (by simp) _).bump (by decide) _
    exact .ite (told.trans (homeReport_counts _ _)) (told.trans ((sendAt_countsBut _ _ _ _ _ _ rfl).mono (by simp [dealCounts])))

theorem dealItem_counts (h : Thatch) (c : CopyQ) (s : State) (d : Nat × Option Nat × List (QName × Nat)) : countsBut dealCounts s (State.dealItem h c s d) := by
  have noted (s : State) (q : QName × Nat) (at_ : Option Nat) : countsBut dealCounts s
      (match s.findCopy q.1 q.2 with | some c => s.setCopy (noteDealt c (at_.getD c.builder)) | none => s) := by
    split
    · exact (setCopy_frame s _).countsBut (by simp) _
    · simp
  have tagged (s : State) (own : List QParams) (t cost : Nat) (b : Bool) : countsBut dealCounts s (if own.isEmpty then s else s.dealTag t b cost) :=
    .ite (by simp) (dealTag_counts _ _ _ _)
  unfold State.dealItem
  dsimp only
  split
  · exact (((((SpindleWork.refl s).enqueue _ _).dealCounts.foldl _ fun s q => noted s q _).foldl _ fun s b => tagged s _ _ _ b)).trans
      ((SpindleWork.refl _).sampleItem _ _).dealCounts
  · exact (((SpindleWork.refl s).waitItem _ _).dealCounts.foldl _ fun s q => noted s q _).foldl _ fun s b => tagged s _ _ _ b

theorem dealAsks_counts (s : State) (h : Thatch) (l : List Ask) : countsBut dealCounts s (s.dealAsks h l) := by
  unfold State.dealAsks
  extract_lets ds dealt done closed
  have hdealt : countsBut dealCounts s dealt := by
    unfold dealt
    split
    · exact countsBut_foldl _ _ fun _ _ => dealItem_counts _ _ _ _
    · simp
  have hdone : countsBut dealCounts s done := hdealt.foldl _ fun t a => by
    split
    · exact .ite (stepDone_counts _ _ _) (by simp)
    · simp
  have hclosed : countsBut dealCounts s closed := by
    unfold closed
    split
    · exact .ite hdone (hdone.keep ((sleepQueue_frame _ _ _ _).trans (sleepQueue_frame _ _ _ _)) (by simp))
    · exact hdone
  refine hclosed.foldl _ fun t a => ?_
  split
  · exact ((SpindleWork.refl t).schedule _).dealCounts
  · simp

/-- The delta shingles of a view that is installed are dealt: the work of a search, which counts what dealing counts. -/
theorem dealView_work (s : State) (t i skein : Nat) : SearchWork s (s.dealView t i skein) ∧ countsBut dealCounts s (s.dealView t i skein) := by
  have began (l : List CopyQ) (sh : Nat) (s : State) : keepsBut [.copy] s
      (l.foldl (fun s c => match s.findCopy c.name sh with | some c => s.setCopy { c with deltaTo := none } | none => s) s) :=
    keepsBut_foldl _ s fun s c => by
      split
      · exact setCopy_frame s _
      · simp
  unfold State.dealView
  extract_lets cs
  refine ⟨.foldl _ (.refl s) fun s sh h => ?_, countsBut_foldl _ s fun s sh => ?_⟩
  · extract_lets mine
    split
    · exact h
    · exact (h.keep (began mine sh s) (by simp)).dealAsks _ _
  · extract_lets mine
    split
    · simp
    · exact ((began mine sh s).countsBut (by simp) _).trans (dealAsks_counts _ _ _)

end Sys2Proof.Machine
end

section
/-! PROOF. Seal records and fetched logs (O19). -/

namespace Sys2Proof.Machine

/-! ### A seal whose records are here is installed (R209, R210) -/

@[simp] theorem noteIndex_frame (s : State) (x : Idx) : keepsBut [.regs] s (s.noteIndex x) := (setReg_frame _ _ _).trans (setReg_frame _ _ _)

theorem applied_frame (s : State) (t : Nat) (c : ApplyCnt) : keepsBut [.counts, .mem, .poison] s (s.applied t c) :=
  (((bump_frame _ _ _).trans (bump_frame _ _ _)).trans (bump_frame _ _ _)).trans' (keepsBut_foldl _ _ fun _ _ => store_frame _ _ _ _) (by simp) (by simp)

theorem applied_counts (s : State) (t : Nat) (c : ApplyCnt) : countsBut [0xE0700B, 0xE0700C, 0xE0700D] s (s.applied t c) :=
  ((((countsBut_refl _ s).bump (by simp) _).bump (by simp) _).bump (by simp) _).foldl _ fun _ _ => (store_frame _ _ _ _).countsBut (by simp) _

/-- What an installed seal leaves of its index (R209, R210). -/
structure Idx.Installed (x : Idx) (r : SealRec) (y : Idx) : Prop where
  slot : y.slot = x.slot
  desc : y.desc = x.desc
  applied : y.applied = r.sealed
  view : lk y.views r.tick = some r.sealed
  pending : y.pendSeals = x.pendSeals.filter fun z => z.tick != r.tick

/-- A seal is installed if its records are all here and its digest is right. -/
theorem installOne_complete (s : State) {x : Idx} {r : SealRec}
    (hall : (recordsIn (heldRecords x) (x.applied + 1) r.sealed).length = r.sealed - x.applied) (hle : x.applied ≤ r.sealed)
    (hdig : recordsDigest x.desc.shape (recordsIn (heldRecords x) r.first r.sealed) = r.digest) :
    ∃ y c, Idx.Installed x r y ∧ s.installOne x r = some
      ((((((s.setIdx y).bump 0xE07007 1).applied r.tenant c).setReg (pagedKey 0x4044 y.slot) r.sealed).noteIndex y).dealView r.tenant r.index r.tick) := by
  unfold State.installOne
  dsimp only
  rw [if_neg (by omega), if_neg (by simp [hall]), if_neg (by simp [hdig])]
  refine ⟨_, _, ?_, rfl⟩
  exact ⟨rfl, rfl, rfl, lk_put_same _ _ _, rfl⟩

/-- The parts of State that installing seals may change. -/
def installParts : List Part := [.idx, .mem, .poison, .spin, .ctl, .counts, .copy, .home, .sched, .net, .regs, .fault, .free]

/-- What follows the index when a seal is installed: the index stays as it was set, and 0xE070:07 counts the one seal. -/
theorem installed_state {s u : State} {x y : Idx} {r : SealRec} {t i : Nat} (c : ApplyCnt) (hx : s.findIdx t i = some x) (hy : Idx.Installed x r y)
    (hu : u = (((((s.setIdx y).bump 0xE07007 1).applied r.tenant c).setReg (pagedKey 0x4044 y.slot) r.sealed).noteIndex y).dealView r.tenant r.index r.tick) :
    u.findIdx t i = some y ∧ u.cnt 0xE07007 = s.cnt 0xE07007 + 1 ∧ keepsBut installParts s u := by
  generalize hb : (s.setIdx y).bump 0xE07007 1 = b at hu
  generalize hn : ((b.applied r.tenant c).setReg (pagedKey 0x4044 y.slot) r.sealed).noteIndex y = n at hu
  obtain ⟨hwork, hdealt⟩ := dealView_work n r.tenant r.index r.tick
  rw [← hu] at hwork hdealt
  have hset : keepsBut [.idx, .counts] s b := hb ▸ (setIdx_frame s y).trans' (bump_frame _ _ _) (by simp) (by simp)
  have hregs : keepsBut [.regs] (b.applied r.tenant c) n := hn ▸ (setReg_frame _ _ _).trans (noteIndex_frame _ _)
  have happlied : keepsBut [.counts, .mem, .poison, .regs] b n := (applied_frame b _ c).trans' hregs (by simp) (by simp)
  refine ⟨?_, ?_, ?_⟩
  · rw [findIdx_congr (hwork.frame .idx (by simp)), findIdx_congr (happlied .idx (by simp)), ← hb, findIdx_congr (bump_frame _ _ _ .idx (by simp))]
    exact findIdx_setIdx hx hy.slot (hy.desc ▸ (findIdx_desc hx).1) (hy.desc ▸ (findIdx_desc hx).2)
  · rw [hdealt _ (by decide), hregs.cnt (by simp), applied_counts b _ c _ (by decide), ← hb, State.cnt_bump_same, (setIdx_frame s y).cnt (by simp)]
  · exact (hset.trans' happlied (rs := installParts) (by decide) (by decide)).trans' hwork.frame (by simp) (by decide)

/-- Nothing is installed of an index without pending seals. -/
theorem installSeals_none {s : State} {x : Idx} {t i : Nat} (n : Nat) (hx : s.findIdx t i = some x) (hp : x.pendSeals = []) : s.installSeals t i n = s := by
  cases n with
  | zero => rfl
  | succ n =>
    unfold State.installSeals
    simp [hx, hp, sortBy]

/-- The one pending seal of an index is installed first. -/
theorem installSeals_single {s u : State} {x : Idx} {r : SealRec} {t i : Nat} (n : Nat) (hx : s.findIdx t i = some x) (hp : x.pendSeals = [r])
    (hu : s.installOne x r = some u) : s.installSeals t i (n + 1) = u.installSeals t i n := by
  rw [State.installSeals]
  simp [hx, hp, sortBy, insertBy, hu]

/-- A copy installs the first seal that comes to it, if its records are all here. -/
theorem install_single {s : State} {x : Idx} {r : SealRec} (hx : s.findIdx r.tenant r.index = some x) (hcopy : isCopy x = true) (hpend : x.pendSeals = [r])
    (hall : (recordsIn (heldRecords x) (x.applied + 1) r.sealed).length = r.sealed - x.applied) (hle : x.applied ≤ r.sealed)
    (hdig : recordsDigest x.desc.shape (recordsIn (heldRecords x) r.first r.sealed) = r.digest) :
    ∃ y, (s.install r.tenant r.index).findIdx r.tenant r.index = some y ∧ Idx.Installed x r y ∧ y.pendSeals = [] ∧
      (s.install r.tenant r.index).cnt 0xE07007 = s.cnt 0xE07007 + 1 ∧ keepsBut installParts s (s.install r.tenant r.index) := by
  obtain ⟨y, c, hy, hone⟩ := installOne_complete s hall hle hdig
  obtain ⟨u, hu⟩ : ∃ u, s.installOne x r = some u := ⟨_, hone⟩
  obtain ⟨hfound, hcnt, hframe⟩ := installed_state c hx hy (Option.some.inj (hu.symm.trans hone))
  have hdone : y.pendSeals = [] := by rw [hy.pending, hpend]; simp
  have hinstall : s.install r.tenant r.index = u := by
    unfold State.install
    simp only [hx, hpend]
    rw [if_pos hcopy, installSeals_single _ hx hpend hu, installSeals_none _ hfound hdone]
  rw [hinstall]
  exact ⟨y, hfound, hy, hdone, hcnt, hframe⟩

/-- A seal record that comes to a copy without pending seals is the first. -/
theorem copySeal_of_copy {s : State} {x : Idx} {r : SealRec} (hx : s.findIdx r.tenant r.index = some x) (hcopy : isCopy x = true) (hpend : x.pendSeals = [])
    (hnew : (x.seals.any fun y => y.tick == r.tick) = false) :
    s.copySeal r = (s.setIdx { x with pendSeals := [r] }).install r.tenant r.index := by
  unfold State.copySeal
  simp only [hx]
  rw [if_neg (by simp [hnew, hpend]), if_pos hcopy, hpend, List.nil_append]

/-! ### What the home and the peers hear of a seal (R209, R211, R390) -/

/-- The records of an update that ends go: its entry at the home, and its request in the replay log (R395). -/
theorem with_upd_log_frame (s : State) (us : List UpdHome) (l : List LogReq) :
    keepsBut [.upd, .fault] s { s with upd := us, fault := { s.fault with log := l } } :=
  (with_upd_frame s us).trans' (with_fault_frame _ _) (by simp) (by simp)

theorem homeSeal_frame (s : State) (r : SealRec) (covers refused : List (Nat × Nat)) :
    keepsBut [.upd, .fault, .rings, .counts, .mem, .poison] s (s.homeSeal r covers refused) := by
  unfold State.homeSeal
  refine (keepsBut_foldl covers s fun s p => ?_).trans (keepsBut_foldl refused _ fun s p => ?_)
  all_goals
    dsimp only
    split
    · simp
    · exact (with_upd_log_frame s _ _).trans' (complete_frame _ _ _ _ _ _ _ _ _ _) (by simp) (by simp)

theorem homeSeal_counts (s : State) (r : SealRec) (covers refused : List (Nat × Nat)) : countsBut [0xE0F00C] s (s.homeSeal r covers refused) := by
  unfold State.homeSeal
  refine (countsBut_foldl covers s fun s p => ?_).trans (countsBut_foldl refused _ fun s p => ?_)
  all_goals
    dsimp only
    split
    · simp
    · exact ((with_upd_log_frame s _ _).countsBut (by simp) _).trans (complete_counts _ _ _ _ _ _ _ _ _ _)

/-- A covered update ends with its sequence and the tick of the seal (R211). -/
theorem homeSeal_covers {s : State} {r : SealRec} {q : Nat} (d : Nat) {u : UpdHome}
    (hu : s.upd.find? (fun y => y.tenant == r.tenant && y.index == r.index && y.seq == q) = some u) :
    s.homeSeal r [(q, d)] [] = ({ s with
      upd := s.upd.filter fun y => !(y.tenant == u.tenant && y.seq == q)
      fault := { s.fault with log := s.fault.log.filter fun l => l.name != (u.tenant, q) } } : State).complete u.tenant q 2 0 0 u.tag u.tick (detail16 d r.tick) 0 := by
  simp only [State.homeSeal, List.foldl_cons, List.foldl_nil, hu]

/-- A seal record goes on to the respares that this Molset feeds, and to what it is the home of. -/
def State.sealTold (s : State) (r : SealRec) (covers refused : List (Nat × Nat)) : State :=
  (s.sendAll ((s.fault.respares.filter fun p => p.tenant == r.tenant && p.index == r.index && p.z == s.node && p.staged).map (·.y)) 0x21 r.tenant false
    (.seal r [] [])).homeSeal r covers refused

theorem sealTold_frame (s : State) (r : SealRec) (covers refused : List (Nat × Nat)) :
    keepsBut [.net, .counts, .upd, .fault, .rings, .mem, .poison] s (s.sealTold r covers refused) :=
  (sendAll_frame s _ 0x21 r.tenant false (.seal r [] [])).trans' (homeSeal_frame _ r covers refused) (by simp) (by simp)

theorem sealTold_counts (s : State) (r : SealRec) (covers refused : List (Nat × Nat)) : countsBut [0xE0C00B, 0xE0F00C] s (s.sealTold r covers refused) :=
  (sendAll_countsBut s _ 0x21 r.tenant false (m := .seal r [] []) rfl).trans' (homeSeal_counts _ r covers refused) (by simp) (by simp)

/-- The parts of the row SEAL_RECORD: the copy, the peers and the home, and a build that may start (R209, R211, R217). -/
theorem exec_sealRecord {s a : State} {r : SealRec} {cs rf : List (Nat × Nat)} {w : Nat} (hb : s.bindingDiffers r.tenant s.node = false)
    (ha : ((s.bumpIf (w != 0) 0xE07008).bump 0xE07009 w).copySeal r = a) :
    exec (.sealRecord r cs rf w) s = live s fun _ =>
      match (a.sealTold r cs rf).findIdx r.tenant r.index with | some x => (a.sealTold r cs rf).startBuild x | none => a.sealTold r cs rf := by
  subst ha
  change execSealRecord r cs rf w s = _
  unfold execSealRecord
  rw [liveFor_bound hb]
  rfl

/-- How long items waited for a seal is counted first. -/
theorem sealWaited_frame (s : State) (w : Nat) : keepsBut [.counts] s ((s.bumpIf (w != 0) 0xE07008).bump 0xE07009 w) :=
  (bumpIf_frame _ _ _).trans (bump_frame _ _ _)

/-! ### Builds that start (R217) -/

theorem startBuild_none (s : State) {x : Idx} (h : x.build = none) : s.startBuild x = s := by
  unfold State.startBuild
  simp only [h]

/-- Starting a build changes nothing of the index but the build. -/
theorem startBuild_found {s : State} {x : Idx} {t i : Nat} (hx : s.findIdx t i = some x) :
    keepsBut [.idx, .regs, .ctl] s (s.startBuild x) ∧ ∃ b, (s.startBuild x).findIdx t i = some { x with build := b } := by
  unfold State.startBuild
  split
  · rename_i hb
    exact ⟨by simp, none, by rw [hx, ← hb]⟩
  · rename_i b hb
    split
    · exact ⟨by simp, some b, by rw [hx, ← hb]⟩
    · have hset := (setIdx_frame s { x with build := some { b with started := true } }).trans' (setReg_frame _ (pagedKey 0x4043 x.slot) 1) (rs := [.idx, .regs, .ctl])
        (by simp) (by simp)
      have hfound : ((s.setIdx { x with build := some { b with started := true } }).setReg (pagedKey 0x4043 x.slot) 1).findIdx t i =
          some { x with build := some { b with started := true } } :=
        findIdx_setIdx hx rfl (findIdx_desc hx).1 (findIdx_desc hx).2
      dsimp only
      split
      · exact ⟨hset, _, hfound⟩
      · exact ⟨hset.trans' (with_ctl_frame _ _) (by simp) (by simp), _, hfound⟩

/-! ### The rows -/

theorem exec_sealRecord_logged (s : State) (r : SealRec) (cs rf : List (Nat × Nat)) (w : Nat) (x : Idx) (hrun : s.running = true)
    (hb : s.bindingDiffers r.tenant s.node = false) (hx : s.findIdx r.tenant r.index = some x) (hcopy : isCopy x = false) (hbuild : x.build = none)
    (hrole : s.reg (pagedKey 0x4048 x.slot) % 4 ≠ 0) (hseals : (x.seals.any fun y => y.tick == r.tick) = false)
    (hpend : (x.pendSeals.any fun y => y.tick == r.tick) = false) :
    ∃ t y, exec (.sealRecord r cs rf w) s = .next t ∧ t.findIdx r.tenant r.index = some y ∧ y.seals = x.seals ++ [r] ∧
      t.cnt 0xE07009 = s.cnt 0xE07009 + w ∧ keepsBut [.idx, .net, .counts, .upd, .fault, .rings, .mem, .poison] s t := by
  have hwaited := sealWaited_frame s w
  have hcnt : ((s.bumpIf (w != 0) 0xE07008).bump 0xE07009 w).cnt 0xE07009 = s.cnt 0xE07009 + w := by
    rw [State.cnt_bump_same, countsBut_bumpIf s _ _ _ (by decide)]
  generalize ha : (s.bumpIf (w != 0) 0xE07008).bump 0xE07009 w = a at hwaited hcnt
  have hxa : a.findIdx r.tenant r.index = some x := (findIdx_congr (hwaited .idx (by simp)) _ _).trans hx
  have hseal : a.copySeal r = a.setIdx { x with seals := x.seals ++ [r] } := by
    unfold State.copySeal
    simp only [hxa]
    rw [if_neg (by simp [hseals, hpend]), if_neg (by simp [hcopy]), hwaited.reg (by simp), if_pos (by simpa using hrole)]
  generalize hy : { x with seals := x.seals ++ [r] } = y at hseal
  have hfound : (a.setIdx y).findIdx r.tenant r.index = some y :=
    findIdx_setIdx hxa (by rw [← hy]) (by rw [← hy]; exact (findIdx_desc hx).1) (by rw [← hy]; exact (findIdx_desc hx).2)
  have hset := setIdx_frame a y
  have htold := sealTold_frame (a.setIdx y) r cs rf
  have hend : ((a.setIdx y).sealTold r cs rf).findIdx r.tenant r.index = some y := (findIdx_congr (htold .idx (by simp)) _ _).trans hfound
  rw [exec_sealRecord hb (a := a.setIdx y) (by rw [ha]; exact hseal)]
  refine exists_live₂ hrun (u := (a.setIdx y).sealTold r cs rf) ?_ ⟨hend, by rw [← hy], ?_, ?_⟩ fun _ _ ⟨b, c, d, f⟩ => ⟨b, c, d, f.withQueue⟩
  · simp only [hend]
    exact startBuild_none _ (by rw [← hy]; exact hbuild)
  · rw [sealTold_counts _ _ _ _ _ (by decide), hset.cnt (by simp), hcnt]
  · exact ((hwaited.trans' hset (rs := [.counts, .idx]) (by simp) (by simp)).trans' htold (by simp) (by simp))

theorem exec_sealRecord_installs (s : State) (r : SealRec) (w : Nat) (x : Idx) (hrun : s.running = true) (hb : s.bindingDiffers r.tenant s.node = false)
    (hx : s.findIdx r.tenant r.index = some x) (hcopy : isCopy x = true) (hpend : x.pendSeals = []) (hnew : (x.seals.any fun y => y.tick == r.tick) = false)
    (hall : (recordsIn (heldRecords x) (x.applied + 1) r.sealed).length = r.sealed - x.applied) (hle : x.applied ≤ r.sealed)
    (hdig : recordsDigest x.desc.shape (recordsIn (heldRecords x) r.first r.sealed) = r.digest) :
    ∃ t y, exec (.sealRecord r [] [] w) s = .next t ∧ t.findIdx r.tenant r.index = some y ∧ y.applied = r.sealed ∧ lk y.views r.tick = some r.sealed ∧
      y.pendSeals = [] ∧ t.cnt 0xE07007 = s.cnt 0xE07007 + 1 ∧ t.rings = s.rings := by
  have hwaited := sealWaited_frame s w
  have hcntw : ((s.bumpIf (w != 0) 0xE07008).bump 0xE07009 w).cnt 0xE07007 = s.cnt 0xE07007 := by
    rw [State.cnt_bump_ne _ _ (by decide), countsBut_bumpIf s _ _ _ (by decide)]
  generalize ha : (s.bumpIf (w != 0) 0xE07008).bump 0xE07009 w = a at hwaited hcntw
  have hxa : a.findIdx r.tenant r.index = some x := (findIdx_congr (hwaited .idx (by simp)) _ _).trans hx
  generalize hx' : { x with pendSeals := [r] } = x'
  have hset := setIdx_frame a x'
  have hfound : (a.setIdx x').findIdx r.tenant r.index = some x' :=
    findIdx_setIdx hxa (by rw [← hx']) (by rw [← hx']; exact (findIdx_desc hx).1) (by rw [← hx']; exact (findIdx_desc hx).2)
  obtain ⟨y, hy, hinst, hdone, hcnt, hframe⟩ := install_single hfound (by rw [← hx']; exact hcopy) (by rw [← hx']) (by rw [← hx']; exact hall)
    (by rw [← hx']; exact hle) (by rw [← hx']; exact hdig)
  have hseal : ((s.bumpIf (w != 0) 0xE07008).bump 0xE07009 w).copySeal r = (a.setIdx x').install r.tenant r.index := by
    rw [ha, copySeal_of_copy hxa hcopy hpend hnew, hx']
  generalize (a.setIdx x').install r.tenant r.index = u at hy hcnt hframe hseal
  have htold := sealTold_frame u r [] []
  have hrings : (u.sealTold r [] []).rings = u.rings := (sendAll_frame u _ 0x21 r.tenant false (.seal r [] [])) .rings (by simp)
  have hend : (u.sealTold r [] []).findIdx r.tenant r.index = some y := (findIdx_congr (htold .idx (by simp)) _ _).trans hy
  obtain ⟨hstart, b, hbuild⟩ := startBuild_found hend
  rw [exec_sealRecord hb hseal]
  refine exists_live₂ hrun (u := (u.sealTold r [] []).startBuild y) (by simp only [hend])
    ⟨hbuild, hinst.applied, hinst.view, hdone, ?_, ?_⟩ fun _ _ h => h
  · rw [hstart.cnt (by simp), sealTold_counts _ _ _ _ _ (by decide), hcnt, hset.cnt (by simp), hcntw]
  · rw [hstart .rings (by simp), hrings, hframe .rings (by decide), hset .rings (by simp), hwaited .rings (by simp)]

theorem exec_sealRecord_covers (s : State) (r : SealRec) (q d : Nat) (u : UpdHome) (hrun : s.running = true) (hb : s.bindingDiffers r.tenant s.node = false)
    (hx : s.findIdx r.tenant r.index = none) (hu : s.upd.find? (fun y => y.tenant == r.tenant && y.index == r.index && y.seq == q) = some u)
    (hdown : (s.sec.tenants.any fun y => y.tenant == r.tenant && y.down) = false) :
    ∃ t, exec (.sealRecord r [(q, d)] [] 0) s = .next t ∧ t.upd = s.upd.filter (fun y => !(y.tenant == r.tenant && y.seq == q)) ∧
      t.cnt 0xE0F00C = s.cnt 0xE0F00C + 1 ∧ keepsBut [.net, .counts, .upd, .fault, .rings, .mem, .poison] s t := by
  have hut : u.tenant = r.tenant := by
    have := List.find?_some hu
    simp only [Bool.and_eq_true, beq_iff_eq] at this
    exact this.1.1
  have hseal : ((s.bumpIf ((0 : Nat) != 0) 0xE07008).bump 0xE07009 0).copySeal r = s := by
    change s.copySeal r = s
    unfold State.copySeal
    simp only [hx]
  have htold := sealTold_frame s r [(q, d)] []
  have hnone : (s.sealTold r [(q, d)] []).findIdx r.tenant r.index = none := (findIdx_congr (htold .idx (by simp)) _ _).trans hx
  rw [exec_sealRecord hb hseal]
  refine exists_live hrun (u := s.sealTold r [(q, d)] []) (by simp only [hnone]) ⟨?_, ?_, htold⟩ fun _ ⟨a, b, f⟩ => ⟨a, b, f.withQueue⟩
  all_goals
    unfold State.sealTold
    generalize List.map _ _ = l
    have hsend := sendAll_frame s l 0x21 r.tenant false (.seal r [] [])
    have hsendc := sendAll_countsBut s l 0x21 r.tenant false (m := .seal r [] []) rfl
    generalize s.sendAll l 0x21 r.tenant false (.seal r [] []) = v at hsend hsendc
    have hupd : v.upd = s.upd := hsend .upd (by simp)
    rw [homeSeal_covers d (hupd ▸ hu), hut]
  · rw [complete_frame _ _ _ _ _ _ _ _ _ _ .upd (by simp), hupd]
  · rw [complete_counted _ _ _ _ _ _ _ _ _ _ (by rw [← hdown]; exact congrArg (fun c : SecS => c.tenants.any _) (hsend .sec (by simp)))]
    exact congrArg (· + 1) (hsendc _ (by decide))

theorem exec_logFetchRequest_answers (s : State) (src a b : Nat) (x : Idx) (hrun : s.running = true) (hb : s.bindingDiffers x.desc.tenant s.node = false)
    (hx : s.findIdx x.desc.tenant x.desc.index = some x) (hcounts : s.counts x.desc.tenant src = true) :
    ∃ t, exec (.logFetchRequest src x.desc.tenant x.desc.index a b) s = .next t ∧
      t.hasSent src 0x21 (.logRecords x.desc.tenant x.desc.index (recordsIn (heldRecords x) a b) (x.seals.filter fun r => a ≤ r.sealed && r.first ≤ b + 1)) ∧
      keepsBut [.net, .counts] s t := by
  change ∃ t, execLogFetchRequest src x.desc.tenant x.desc.index a b s = .next t ∧ _
  unfold execLogFetchRequest
  rw [liveFor_bound hb]
  exact exists_live hrun (by simp only [hx]; rfl) ⟨sendAt_hasSent s _ _ _ s.epoch false _ (.inr hcounts), send_frame s _ _ _ _⟩ fun _ ⟨h, f⟩ => ⟨h, f.withQueue⟩

/-- At a Molset that is no copy, takes over no role and takes part in no respare, fetched records wait, and that is all. -/
theorem exec_logFetchDone_waits (s : State) (x : Idx) (rs : List DeltaRec) (ss : List SealRec) (hrun : s.running = true)
    (hb : s.bindingDiffers x.desc.tenant s.node = false) (hx : s.findIdx x.desc.tenant x.desc.index = some x) (hcopy : isCopy x = false)
    (hresume : x.seqr.resume = none) (hrespares : s.fault.respares = []) :
    ∃ t y, exec (.logFetchDone x.desc.tenant x.desc.index rs ss) s = .next t ∧ t.findIdx x.desc.tenant x.desc.index = some y ∧ y.fetch = false ∧
      (∀ r ∈ rs, x.applied < r.seq → r ∈ y.pendRecs) ∧ keepsBut [.idx] s t := by
  change ∃ t y, execLogFetchDone x.desc.tenant x.desc.index rs ss s = .next t ∧ _
  unfold execLogFetchDone
  rw [liveFor_bound hb]
  simp only [hx]
  generalize hf : (rs.filter fun r => decide (x.applied < r.seq)) = fresh
  generalize (ss.filter fun r => !x.pendSeals.any (fun y => y.tick == r.tick) && !x.seals.any (fun y => y.tick == r.tick)) = more
  generalize hy : ({ x with
    pendRecs := (x.pendRecs.filter fun r => !fresh.any fun y => y.seq == r.seq) ++ fresh, pendSeals := x.pendSeals ++ more, fetch := false } : Idx) = y
  have hfound : (s.setIdx y).findIdx x.desc.tenant x.desc.index = some y := findIdx_setIdx hx (by rw [← hy]) (by rw [← hy]) (by rw [← hy])
  have hinstall : (s.setIdx y).install x.desc.tenant x.desc.index = s.setIdx y := by
    unfold State.install
    simp only [hfound]
    exact if_neg (by rw [← hy]; simpa [isCopy] using hcopy)
  have htake : (s.setIdx y).takeOver x.desc.tenant x.desc.index rs = s.setIdx y := by
    unfold State.takeOver
    simp only [hfound, show y.seqr.resume = none by rw [← hy]; exact hresume]
  refine exists_live₂ hrun (u := s.setIdx y) ?_ ⟨hfound, by rw [← hy], fun r hr hlt => ?_, setIdx_frame s y⟩ fun _ _ ⟨a, b, c, f⟩ => ⟨a, b, c, f.withQueue⟩
  · rw [hinstall, htake, show (s.setIdx y).fault.respares = [] from hrespares]
    rfl
  · rw [← hy]
    exact List.mem_append_right _ (hf ▸ List.mem_filter.2 ⟨hr, by simpa using hlt⟩)

/-- Settles O19: a lemma for each clause; a copy's clause rests on `installOne_complete` and on what dealing the new view changes (`dealView_work`). -/
theorem sealsAndLogsArrive : Obligations.SealsAndLogsArrive := by
  unfold Obligations.SealsAndLogsArrive
  exact ⟨exec_sealRecord_logged, exec_sealRecord_installs, exec_sealRecord_covers, exec_logFetchRequest_answers, exec_logFetchDone_waits⟩

end Sys2Proof.Machine
end

section
/-! PROOF. Training steps (O25). A merge takes a gather spindle (R260). If that spindle's bobbin was last zeroed for work of another kind, the whole bobbin is zeroed first
(R70, R71), and a query that is resident there, which no item on the spindle names, loses the spindle of its plan, as in O22 and O24. The plan stands in `copy`, which the clause
of R270 says is left as it was. -/

namespace Sys2Proof.Machine

/-- Row 0 of the table, whose 16 elements are all +0 (R252). -/
def zeroRow : RowRec where
  tenant := 1
  table := 4
  version := 1
  row := 0
  img := { data := List.replicate 64 0, scales := [], exp := 0 }
  mirror := false

/-- The one record of step 1: a gradient of 1.0 in each element of row 0, from this Molset (R268). -/
def onesRecord : Contrib where
  tenant := 1
  table := 4
  step := 1
  row := 0
  node := 0
  pos := 0
  grad := List.replicate 16 0x3F800000#32

/-- Step 1, which is closed here and not merged. -/
def closedStep : EStep where
  tenant := 1
  table := 4
  step := 1
  records := [onesRecord]
  closed := true

/-- Spindle 0 is the gather set; its bobbin is zeroed for search work, no context holds an item, and the query of O22 is resident. -/
def mergingState : State :=
  { State.reset with
    copy := [residentQuery]
    emb := { tabs := [plainTable], rows := [zeroRow], steps := [closedStep] }
    ctl := { gatherSet := [0] }
    spin := [(0, { tslots := [(0, { q := some (residentQuery.name, 0) })], bobOwner := some { tenant := 1, kind := 0, role := 0 } })] }

theorem mergingState_planned : mergingState.copy.map (·.plan) = [[0]] := rfl

/-- The row CLOSE_STEP_MERGE of step 1 at this state, with η = 1.0: the spindle has left the plan of the query. -/
theorem exec_closeStepMerge_mergingState_plan : plansAfter (exec (.closeStepMerge 1 4 1 [] 1 0x3F800000#32 ⟨0, []⟩) mergingState) = [[]] := by decide +kernel

/-- Refutes O25: the clause of R270 says that a merge leaves `copy` as it was. In `mergingState` step 1 is merged on spindle 0, whose bobbin is zeroed for it. The query resident
there loses the spindle of its plan, which is in `copy`. -/
theorem not_stepsAreGatheredAndSealed : ¬ Obligations.StepsAreGatheredAndSealed := by
  unfold Obligations.StepsAreGatheredAndSealed
  rintro ⟨-, stepMerges, -⟩
  have hrun : mergingState.running = true := by decide +kernel
  have htab : mergingState.tabAny 1 4 = some plainTable := by decide +kernel
  have hmay : mergingState.mayMerge closedStep = true := by decide +kernel
  have hroom : (mergingState.emb.overlays.filter fun o => !o.mirror).length + [0].length ≤ mergingState.reg 0x58000B := by decide +kernel
  have hspindle : (mergingState.gatherSp 1).isSome = true := by decide +kernel
  have hread : ([0].all fun r => (mergingState.readRow plainTable 1 r 0 []).1.isSome) = true := by decide +kernel
  obtain ⟨u, hexec, -, -, -, -, hkeeps⟩ :=
    stepMerges mergingState 1 4 1 1 0 [] 0x3F800000#32 [] plainTable closedStep [onesRecord] [0] hrun htab rfl rfl (.inl (List.cons_ne_nil _ _)) hmay rfl rfl
      hroom (.inr hspindle) hread
  have hcopy : u.copy = mergingState.copy := hkeeps .copy (by decide)
  have hplan := exec_closeStepMerge_mergingState_plan
  rw [hexec] at hplan
  change u.copy.map (·.plan) = [[]] at hplan
  rw [hcopy, mergingState_planned] at hplan
  exact absurd hplan (by decide)

end Sys2Proof.Machine
end

section
/-! SUPPORT. Writes to memory: what packing a board page again leaves as it was, and what a write stores (R294, R303). -/

namespace Sys2Proof.Machine

/-! ### A board page is packed again (R294, R295) -/

/-- What packing blocks of a board page again may count: blocks and sectors packed, a page repacked, its old home retired, and the page taken for it zeroed. -/
def packCounts : List Key := [0xE0A010, 0xE0A011, 0xE0A014, 0xE0A015, 0xE0200D]

/-- Where a page that is repacked goes: to another page of the board, or into its own chunks if none is free. -/
def State.repackRoom (s : State) (p : Page) : State × PHome :=
  match s.takePage true with
  | some (u, h) => ((u.giveHome p.home p.poisoned).bump 0xE0200D 1, h)
  | none => (s, p.home)

/-- The blocks of a page are packed into a home, and counted. -/
def State.repackInto (s : State) (p : Page) (h : PHome) (packed : List (Nat × Nat × Nat) × Nat) : State :=
  (((s.bump 0xE0A015 1).bump 0xE0A010 512).bump 0xE0A011 packed.2).editPage p.tenant p.page fun q => { q with home := packedHome h packed.1 packed.2 }

theorem repackPage_eq (s : State) (p : Page) : s.repackPage p = (s.repackRoom p).1.repackInto p (s.repackRoom p).2 (s.packPage p.tenant p.page) := by
  unfold State.repackPage State.repackRoom
  generalize s.packPage p.tenant p.page = packed
  cases s.takePage true with
  | none => rfl
  | some _ => rfl

theorem repackRoom_cases (s : State) (p : Page) :
    (∃ c, (s.repackRoom p) = (((s.addFree (emptyBoard c) (-1)).giveHome p.home p.poisoned).bump 0xE0200D 1, emptyBoard c)) ∨ s.repackRoom p = (s, p.home) := by
  unfold State.repackRoom
  cases htake : s.takePage true with
  | none => exact .inr rfl
  | some x =>
    obtain ⟨u, h⟩ := x
    obtain ⟨c, rfl⟩ := takePage_home htake
    obtain ⟨rfl, -⟩ := takePage_congr rfl rfl htake
    exact .inl ⟨c, rfl⟩

theorem repackRoom_frame (s : State) (p : Page) : keepsBut [.tier, .counts, .fault] s (s.repackRoom p).1 := by
  rcases repackRoom_cases s p with ⟨c, h⟩ | h
  · rw [h]
    exact ((addFree_frame _ _ _).trans' (giveHome_frame _ _ _) (by simp) (by simp)).trans' (bump_frame _ _ _) (List.Subset.refl _) (by simp)
  · rw [h]
    simp

theorem repackRoom_counts (s : State) (p : Page) : countsBut [0xE0A014, 0xE0200D] s (s.repackRoom p).1 := by
  rcases repackRoom_cases s p with ⟨c, h⟩ | h
  · rw [h]
    exact (((addFree_frame _ _ _).countsBut (by simp) _).trans ((giveHome_counts _ _ _).mono (by simp))).bump (by simp) 1
  · rw [h]
    simp

theorem repackRoom_pages (s : State) (p : Page) : (s.repackRoom p).1.tier.pages = s.tier.pages := by
  rcases repackRoom_cases s p with ⟨c, h⟩ | h
  · rw [h, bump_frame _ _ _ .tier (by simp), (giveHome_tier _ _ _).1, (addFree_tier _ _ _).1]
  · rw [h]

/-- A board page is repacked on the board. -/
theorem repackRoom_home {s : State} {p : Page} (hp : p.inStacks = false) (map : List (Nat × Nat × Nat)) (n : Nat) :
    ∃ c, packedHome (s.repackRoom p).2 map n = .board c map (chunksFor n) 0 n := by
  rcases repackRoom_cases s p with ⟨c, h⟩ | h
  · exact ⟨c, by rw [h]; rfl⟩
  · rw [h]
    cases hhome : p.home with
    | stack n => simp [Page.inStacks, hhome] at hp
    | board ch _ _ _ _ => exact ⟨ch, rfl⟩

section
variable (s : State) (p : Page) (h : PHome) (packed : List (Nat × Nat × Nat) × Nat)

theorem repackInto_frame : keepsBut [.tier, .counts] s (s.repackInto p h packed) :=
  (((bump_frame _ _ _).trans (bump_frame _ _ _)).trans (bump_frame _ _ _)).trans' (editPage_frame _ _ _ _) (by simp) (by simp)

theorem repackInto_cnt (k : Key) : (s.repackInto p h packed).cnt k =
    s.cnt k + (if k = 0xE0A015 then 1 else 0) + (if k = 0xE0A010 then 512 else 0) + if k = 0xE0A011 then packed.2 else 0 := by
  unfold State.repackInto
  rw [(editPage_frame _ _ _ _).cnt (by simp), State.cnt_bump, State.cnt_bump, State.cnt_bump]

theorem repackPage_frame : keepsBut [.tier, .counts, .fault] s (s.repackPage p) := by
  rw [repackPage_eq]
  exact (repackRoom_frame s p).trans ((repackInto_frame _ _ _ _).mono (by simp))

theorem repackPage_counts : countsBut packCounts s (s.repackPage p) := fun k hk => by
  simp only [packCounts, List.mem_cons, List.not_mem_nil, or_false, not_or] at hk
  obtain ⟨h10, h11, h14, h15, hD⟩ := hk
  rw [repackPage_eq, repackInto_cnt, if_neg h15, if_neg h10, if_neg h11, repackRoom_counts s p k (by simp [h14, hD])]
  rfl

/-- A page repacked counts once, and its 512 blocks as packed. -/
theorem repackPage_counted : (s.repackPage p).cnt 0xE0A015 = s.cnt 0xE0A015 + 1 ∧ (s.repackPage p).cnt 0xE0A010 = s.cnt 0xE0A010 + 512 := by
  rw [repackPage_eq, repackInto_cnt, repackInto_cnt, repackRoom_counts s p _ (by decide), repackRoom_counts s p _ (by decide)]
  exact ⟨rfl, rfl⟩

variable {s p}

theorem repackPage_pageAt {t n : Nat} (hp : s.pageAt t n = some p) :
    (s.repackPage p).pageAt t n = some { p with home := packedHome (s.repackRoom p).2 (s.packPage t n).1 (s.packPage t n).2 } := by
  obtain ⟨rfl, rfl⟩ := pageAt_names hp
  rw [repackPage_eq]
  refine pageAt_editPage_same (f := fun q => { q with home := packedHome (s.repackRoom p).2 (s.packPage p.tenant p.page).1 (s.packPage p.tenant p.page).2 })
    (fun q => ⟨rfl, rfl⟩) ((pageAt_congr ?_ _ _).trans hp)
  rw [bump_frame _ _ _ .tier (by simp), bump_frame _ _ _ .tier (by simp), bump_frame _ _ _ .tier (by simp), repackRoom_pages]

end

/-! ### One block of it is packed again (R294) -/

/-- A block of a board page that is packed again is counted, and its page edited; or the whole page is repacked. -/
theorem repackBlock_board {s : State} {t page : Nat} (b : Nat) {p : Page} (hp : s.pageAt t page = some p) (hboard : p.inStacks = false) :
    s.repackBlock t page b = s.repackPage p ∨ ∃ n f, s.repackBlock t page b = ((s.bump 0xE0A010 1).bump 0xE0A011 n).editPage t page f := by
  unfold State.repackBlock
  simp only [hp]
  split
  · rename_i n hhome
    simp [Page.inStacks, hhome] at hboard
  · generalize packBlock (s.load t (page * pageSize + b * 4096) 4096) = packed
    exact (Classical.em _).imp (fun hmany => if_pos hmany) fun hfits => ⟨_, _, if_neg hfits⟩

/-- Only a page that lies on the board is packed. -/
theorem repackBlock_unpacked {s : State} {t page : Nat} (b : Nat) (h : ∀ p, s.pageAt t page = some p → p.inStacks = true) : s.repackBlock t page b = s := by
  unfold State.repackBlock
  split
  · rfl
  · rename_i p hp
    have hstack := h p hp
    unfold Page.inStacks at hstack
    split
    · rfl
    · rename_i hhome
      simp [hhome] at hstack

/-- What holds of a state, of a page of it repacked and of a block counted holds once a block is packed. -/
theorem repackBlock_cases {s : State} {P : State → Prop} (t page b : Nat) (hsame : P s) (hpage : ∀ p, P (s.repackPage p))
    (hblock : ∀ n f, P (((s.bump 0xE0A010 1).bump 0xE0A011 n).editPage t page f)) : P (s.repackBlock t page b) := by
  by_cases h : ∃ p, s.pageAt t page = some p ∧ p.inStacks = false
  · obtain ⟨p, hp, hboard⟩ := h
    rcases repackBlock_board b hp hboard with e | ⟨n, f, e⟩
    · rw [e]
      exact hpage p
    · rw [e]
      exact hblock n f
  · rw [repackBlock_unpacked b fun p hp => by simpa using fun hboard => h ⟨p, hp, hboard⟩]
    exact hsame

theorem repackBlock_frame (s : State) (t page b : Nat) : keepsBut [.tier, .counts, .fault] s (s.repackBlock t page b) :=
  repackBlock_cases t page b (keepsBut_refl _ s) (repackPage_frame s) fun _ _ =>
    ((bump_frame _ _ _).trans (bump_frame _ _ _)).trans' (editPage_frame _ _ _ _) (by simp) (by simp)

theorem repackBlock_counts (s : State) (t page b : Nat) : countsBut packCounts s (s.repackBlock t page b) :=
  repackBlock_cases t page b (countsBut_refl _ s) (repackPage_counts s) fun n _ =>
    (((countsBut_refl _ s).bump (by simp [packCounts]) 1).bump (by simp [packCounts]) n).keep (editPage_frame _ _ _ _) (by simp)

/-! ### Writes (R294, R303) -/

/-- A write to pages that no failed part holds stores its bytes, and packs the blocks that it touches again. -/
theorem memWrite_eq {s : State} {t addr : Nat} {bs : List Byte} (hbs : bs ≠ []) (hfailed : s.rangeFailed t addr bs.length = false) :
    s.memWrite t addr bs = (List.range ((addr + bs.length - 1) / 4096 - addr / 4096 + 1)).foldl
      (fun s i => s.repackBlock t ((addr / 4096 + i) / 512) ((addr / 4096 + i) % 512)) (s.store t addr bs) := by
  unfold State.memWrite
  rw [if_neg (by simpa using hbs), if_neg (by simp [hfailed])]

section
variable {s : State} {t addr : Nat} {bs : List Byte} (hbs : bs ≠ []) (hfailed : s.rangeFailed t addr bs.length = false)
include hbs hfailed

/-- After the store only the packing changes anything. -/
theorem memWrite_after : keepsBut [.tier, .counts, .fault] (s.store t addr bs) (s.memWrite t addr bs) := by
  rw [memWrite_eq hbs hfailed]
  exact keepsBut_foldl _ _ fun _ _ => repackBlock_frame _ _ _ _

theorem memWrite_frame : keepsBut [.mem, .poison, .tier, .counts, .fault] s (s.memWrite t addr bs) :=
  (store_frame s t addr bs).trans' (memWrite_after hbs hfailed) (by simp) (by simp)

theorem memWrite_counts : countsBut packCounts s (s.memWrite t addr bs) := by
  rw [memWrite_eq hbs hfailed]
  exact ((store_frame s t addr bs).countsBut (by simp) _).foldl _ fun _ _ => repackBlock_counts _ _ _ _

theorem memWrite_mem : (s.memWrite t addr bs).mem = (s.store t addr bs).mem := memWrite_after hbs hfailed .mem (by simp)

/-- What was written is loaded again. -/
theorem load_memWrite (hmem : s.memOk = true) : (s.memWrite t addr bs).load t addr bs.length = bs := by
  rw [State.load_congr (memWrite_mem hbs hfailed)]
  exact State.load_store_same t addr bs hmem

/-- A write leaves every byte outside it. -/
theorem get_memWrite_out {k : Nat} (h : k < memKey t addr ∨ memKey t addr + bs.length ≤ k) :
    Memory.get (s.memWrite t addr bs).mem k = Memory.get s.mem k := by
  rw [memWrite_mem hbs hfailed]
  exact State.get_store_out t addr bs h

end

end Sys2Proof.Machine
end

section
/-! PROOF. Board pages and failed parts (O28). -/

namespace Sys2Proof.Machine

/-! ### A write to a block (R293, R296) -/

/-- A write within one block packs that block again. -/
theorem memWrite_oneBlock {s : State} {t addr : Nat} {bs : List Byte} (hbs : bs ≠ []) (hblock : addr % 4096 + bs.length ≤ 4096)
    (hfailed : s.rangeFailed t addr bs.length = false) :
    s.memWrite t addr bs = (s.store t addr bs).repackBlock t (addr / pageSize) (addr / 4096 % 512) := by
  have hlen : 0 < bs.length := List.length_pos_iff.2 hbs
  have hlast : (addr + bs.length - 1) / 4096 - addr / 4096 + 1 = 1 := by omega
  have hpage : addr / 4096 / 512 = addr / pageSize := Nat.div_div_eq_div_mul _ _ _
  rw [memWrite_eq hbs hfailed, hlast, List.range_one, List.foldl_cons, List.foldl_nil, Nat.add_zero, hpage]

/-- A block of a board page is counted as it is packed. -/
theorem repackBlock_counted {s : State} {t page b : Nat} {p : Page} (hp : s.pageAt t page = some p) (hboard : p.inStacks = false) :
    s.cnt 0xE0A010 + 1 ≤ (s.repackBlock t page b).cnt 0xE0A010 := by
  rcases repackBlock_board b hp hboard with h | ⟨n, f, h⟩
  · rw [h, (repackPage_counted s p).2]
    omega
  · rw [h, (editPage_frame _ _ _ _).cnt (by simp), State.cnt_bump_ne _ _ (by decide), State.cnt_bump_same]

theorem exec_boardBlockWrite_writes (s : State) (tenant addr : Nat) (data : List Byte) (p : Page) (hrun : s.running = true) (hmem : s.memOk = true)
    (hp : s.pageAt tenant (addr / pageSize) = some p) (hboard : p.inStacks = false) (hzero : p.zero = false) (hmove : p.inMove = false) (hdata : data ≠ [])
    (hblock : addr % 4096 + data.length ≤ 4096) (hfailed : s.rangeFailed tenant addr data.length = false) :
    ∃ t, exec (.boardBlockWrite tenant addr data) s = .next t ∧ t.load tenant addr data.length = data ∧
      (∀ a, (a < memKey tenant addr ∨ memKey tenant addr + data.length ≤ a) → Memory.get t.mem a = Memory.get s.mem a) ∧
      (s.cnt 0xE0A010 + 1 ≤ t.cnt 0xE0A010) ∧ keepsBut [.mem, .poison, .tier, .counts, .fault] s t := by
  have hf := memWrite_frame hdata hfailed
  change ∃ t, execBoardBlockWrite tenant addr data s = .next t ∧ _
  unfold execBoardBlockWrite
  refine ⟨_, live_kept hrun ?_ hf (by simp), load_memWrite hdata hfailed hmem, fun a => get_memWrite_out hdata hfailed, ?_, hf⟩
  · have hfits : ¬4096 < addr % 4096 + data.length := by omega
    simp [hp, hboard, hzero, hmove, hdata, hfits]
  · rw [memWrite_oneBlock hdata hblock hfailed, ← (store_frame s tenant addr data).cnt (by simp)]
    exact repackBlock_counted (s := s.store tenant addr data) hp hboard

theorem waitMove_frame (s : State) (w : MWait) : keepsBut [.tier, .counts] s (s.waitMove w) :=
  (with_tier_frame s _).trans' (bump_frame _ _ _) (by simp) (by simp)

theorem waitMove_tier (s : State) (w : MWait) : (s.waitMove w).tier = { s.tier with waits := s.tier.waits ++ [w] } := bump_frame _ _ _ .tier (by simp)

theorem waitMove_counts (s : State) (w : MWait) : countsBut [0xE0A012] s (s.waitMove w) :=
  ((with_tier_frame s _).countsBut (by simp) _).trans (countsBut_bump _ _ _)

theorem waitMove_counted (s : State) (w : MWait) : (s.waitMove w).cnt 0xE0A012 = s.cnt 0xE0A012 + 1 := State.cnt_bump_same _ _ _

theorem exec_boardBlockWrite_waits (s : State) (tenant addr : Nat) (data : List Byte) (p : Page) (hrun : s.running = true)
    (hp : s.pageAt tenant (addr / pageSize) = some p) (hboard : p.inStacks = false) (hzero : p.zero = false) (hmove : p.inMove = true) (hdata : data ≠ [])
    (hblock : addr % 4096 + data.length ≤ 4096) :
    ∃ t, exec (.boardBlockWrite tenant addr data) s = .next t ∧
      t.tier = { s.tier with waits := s.tier.waits ++ [{ tenant := tenant, addr := addr, data := data, host := none, peer := none }] } ∧
      t.cnt 0xE0A012 = s.cnt 0xE0A012 + 1 ∧ keepsBut [.tier, .counts] s t ∧ countsBut [0xE0A012] s t := by
  have hf := waitMove_frame s { tenant := tenant, addr := addr, data := data, host := none, peer := none }
  change ∃ t, execBoardBlockWrite tenant addr data s = .next t ∧ _
  unfold execBoardBlockWrite
  refine ⟨_, live_kept hrun ?_ hf (by simp), waitMove_tier _ _, waitMove_counted _ _, hf, waitMove_counts _ _⟩
  have hfits : ¬4096 < addr % 4096 + data.length := by omega
  simp [hp, hboard, hzero, hmove, hdata, hfits]

/-! ### A page with too many dead sectors (R294) -/

theorem exec_boardPageRepack_packs (s : State) (tenant page ch chunks dead used : Nat) (map : List (Nat × Nat × Nat)) (p : Page) (hrun : s.running = true)
    (hp : s.pageAt tenant page = some p) (hhome : p.home = .board ch map chunks dead used) (hmove : p.inMove = false) (hdead : chunks * 1024 < dead * 4) :
    ∃ t q c, exec (.boardPageRepack tenant page) s = .next t ∧ t.pageAt tenant page = some q ∧
      q.home = .board c (s.packPage tenant page).1 (chunksFor (s.packPage tenant page).2) 0 (s.packPage tenant page).2 ∧
      t.cnt 0xE0A015 = s.cnt 0xE0A015 + 1 ∧ t.cnt 0xE0A010 = s.cnt 0xE0A010 + 512 ∧ keepsBut [.tier, .regs, .counts, .fault] s t := by
  have hboard : p.inStacks = false := by simp [Page.inStacks, hhome]
  obtain ⟨c, hc⟩ := repackRoom_home (s := s) hboard (s.packPage tenant page).1 (s.packPage tenant page).2
  have hregs := tierRegs_frame (s.repackPage p) tenant
  have hf : keepsBut [.tier, .regs, .counts, .fault] s ((s.repackPage p).tierRegs tenant) := (repackPage_frame s p).trans' hregs (by simp) (by simp)
  obtain ⟨hrepacked, hpacked⟩ := repackPage_counted s p
  change ∃ t q c, execBoardPageRepack tenant page s = .next t ∧ _
  unfold execBoardPageRepack
  refine ⟨_, _, c, live_kept hrun ?_ hf (by simp), (pageAt_congr (congrArg TierS.pages (hregs .tier (by simp))) _ _).trans (repackPage_pageAt hp), hc,
    (hregs.cnt (by simp) _).trans hrepacked, (hregs.cnt (by simp) _).trans hpacked, hf⟩
  have hmany : ¬dead * 4 ≤ chunks * 1024 := by omega
  simp [hp, hhome, hmove, hmany]

/-! ### A stack or a board channel fails (R303) -/

/-- The register of a stack or board channel. -/
def partReg (board : Bool) (n : Nat) : Key := (if board then 0x601101 else 0x600101) + n

/-- What it reads when the part has failed. -/
def partDown (board : Bool) : Nat := if board then 3 else 2

/-- A failed part gives no page. -/
theorem reg_of_mem_freeParts {s : State} {board : Bool} {x : Nat × Nat} (hx : x ∈ s.freeParts board) : s.reg (partReg board x.1) ≠ partDown board := by
  unfold State.freeParts at hx
  cases board with
  | false => simpa [partReg, partDown] using (List.mem_filter.1 hx).2
  | true =>
    have hup : s.reg (0x601101 + x.1) = 0 := by simpa using (List.mem_filter.1 hx).2
    exact fun h => absurd (hup.symm.trans h) (by decide)

/-- A page on a failed part reads as poison. -/
theorem poisoned_of_homeFailed {s : State} {p : Page} (hp : p ∈ s.tier.pages) (h : s.homeFailed p.home = true) :
    s.poisoned p.tenant (p.page * pageSize) 1 = true := by
  unfold State.poisoned
  have hat : p.page * pageSize / pageSize = p.page := Nat.mul_div_cancel _ (by decide)
  rw [if_neg (by decide)]
  refine Bool.or_eq_true_iff.2 (.inr (List.any_eq_true.2 ⟨p, hp, ?_⟩))
  simp [hat, h]

/-- What a part that fails leaves as it was, and what it changes (R303). -/
structure PartFailed (s : State) (board : Bool) (n : Nat) (t : State) : Prop where
  down : t.reg (partReg board n) = partDown board
  counted : t.cnt 0xE0A019 = s.cnt 0xE0A019 + 1
  frame : keepsBut [.regs, .counts, .fault, .net, .mgmtOut] s t
  regs : regsBut [partReg board n, 0x600004, 0x601005] s t

theorem partReg_false (n : Nat) : partReg false n = 0x600101 + n := rfl
theorem partReg_true (n : Nat) : partReg true n = 0x601101 + n := rfl

/-- The registers of the parts are not those of the free pages. -/
theorem partReg_ne {board : Bool} {n : Nat} (hn : n < if board then 8 else 12) : 0x600004 ≠ partReg board n ∧ 0x601005 ≠ partReg board n := by
  cases board with
  | false =>
    rw [partReg_false]
    have : n < 12 := hn
    exact ⟨Nat.ne_of_lt (by omega), Nat.ne_of_gt (by omega)⟩
  | true =>
    rw [partReg_true]
    exact ⟨Nat.ne_of_lt (by omega), Nat.ne_of_lt (by omega)⟩

/-- The free pages of the tiers are reported anew (R304). -/
def State.freeRegs (s : State) : State := (s.setReg 0x600004 (s.freePages false)).setReg 0x601005 (s.freePages true)

theorem freeRegs_frame (s : State) : keepsBut [.regs] s s.freeRegs := (setReg_frame _ _ _).trans (setReg_frame _ _ _)

theorem freeRegs_regs (s : State) : regsBut [0x600004, 0x601005] s s.freeRegs :=
  (regsBut_setReg _ _ _).trans' (regsBut_setReg _ _ _) (by simp) (by simp)

theorem exec_tierPartFail {s : State} {board : Bool} {n : Nat} (hrun : s.running = true) (hn : n < if board then 8 else 12)
    (hup : s.reg (partReg board n) ≠ partDown board) : ∃ t, exec (.tierPartFail board n) s = .next t ∧ PartFailed s board n t := by
  obtain ⟨a, ha⟩ : ∃ a, a = (s.setReg (partReg board n) (partDown board)).bump 0xE0A019 1 := ⟨_, rfl⟩
  have hfa : keepsBut [.regs, .counts] s a := ha ▸ (setReg_frame _ _ _).trans' (bump_frame _ _ _) (by simp) (by simp)
  have hra : regsBut [partReg board n] s a := ha ▸ (regsBut_setReg s _ _).trans ((bump_frame _ _ _).regsBut (by simp) _)
  have hfree := freeRegs_frame a
  have hraise := raiseFault_frame a.freeRegs 6 a.freeRegs.node (if board then partBoard else partStack) n 0
  have hf : keepsBut [.regs, .counts, .fault, .net, .mgmtOut] s (a.freeRegs.raiseFault 6 a.freeRegs.node (if board then partBoard else partStack) n 0) :=
    (hfa.trans' hfree (List.Subset.refl _) (by simp)).trans' hraise (by simp) (by simp)
  obtain ⟨hpart1, hpart2⟩ := partReg_ne hn
  change ∃ t, execTierPartFail board n s = .next t ∧ _
  unfold execTierPartFail
  refine ⟨_, live_kept hrun ?_ hf (by simp), ?_, ?_, hf, ?_⟩
  · have hin : ¬(if board then 8 else 12) ≤ n := by omega
    have hworks : ¬(decide (n ≥ if board then 8 else 12) || s.reg (partReg board n) == partDown board) = true := by simp [hin, hup]
    refine (if_neg hworks).trans ?_
    rw [ha]
    rfl
  · rw [raiseFault_reg, freeRegs_regs a _ (by simp [hpart1.symm, hpart2.symm]), ha, bump_frame _ _ _ |>.reg (by simp), State.reg_setReg_same]
  · rw [raiseFault_cnt _ _ _ _ _ _ (by decide), hfree.cnt (by simp), ha, State.cnt_bump_same, (setReg_frame _ _ _).cnt (by simp)]
  · exact (hra.trans' (freeRegs_regs a) (ms := [partReg board n, 0x600004, 0x601005]) (by simp) (by simp)).trans (hraise.regsBut (by simp) _)

theorem exec_tierPartFail_stack (s : State) (n : Nat) (hrun : s.running = true) (hn : n < 12) (hup : s.reg (0x600101 + n) ≠ 2) :
    ∃ t, exec (.tierPartFail false n) s = .next t ∧ t.reg (0x600101 + n) = 2 ∧ t.cnt 0xE0A019 = s.cnt 0xE0A019 + 1 ∧
      (∀ p ∈ s.tier.pages, p.home = .stack n → t.poisoned p.tenant (p.page * pageSize) 1 = true) ∧ (∀ x ∈ t.freeParts false, x.1 ≠ n) ∧
      keepsBut [.regs, .counts, .fault, .net, .mgmtOut] s t ∧ regsBut [0x600101 + n, 0x600004, 0x601005] s t := by
  obtain ⟨t, he, hdown, hcount, hf, hregs⟩ := exec_tierPartFail (board := false) hrun hn hup
  refine ⟨t, he, hdown, hcount, fun p hp hhome => ?_, fun x hx h => reg_of_mem_freeParts hx (h ▸ hdown), hf, hregs⟩
  refine poisoned_of_homeFailed (hf .tier (by simp) ▸ hp) ?_
  rw [hhome]
  exact beq_iff_eq.2 hdown

theorem exec_tierPartFail_channel (s : State) (n : Nat) (hrun : s.running = true) (hn : n < 8) (hup : s.reg (0x601101 + n) ≠ 3) :
    ∃ t, exec (.tierPartFail true n) s = .next t ∧ t.reg (0x601101 + n) = 3 ∧ t.cnt 0xE0A019 = s.cnt 0xE0A019 + 1 ∧
      (∀ p ∈ s.tier.pages, (∃ m c d e, p.home = .board n m c d e) → t.poisoned p.tenant (p.page * pageSize) 1 = true) ∧ (∀ x ∈ t.freeParts true, x.1 ≠ n) ∧
      keepsBut [.regs, .counts, .fault, .net, .mgmtOut] s t ∧ regsBut [0x601101 + n, 0x600004, 0x601005] s t := by
  obtain ⟨t, he, hdown, hcount, hf, hregs⟩ := exec_tierPartFail (board := true) hrun hn hup
  refine ⟨t, he, hdown, hcount, fun p hp ⟨_, _, _, _, hhome⟩ => ?_, fun x hx h => reg_of_mem_freeParts hx (h ▸ hdown), hf, hregs⟩
  refine poisoned_of_homeFailed (hf .tier (by simp) ▸ hp) ?_
  rw [hhome]
  exact beq_iff_eq.2 hdown

/-- Settles O28: a lemma for each clause; a write and a repacking rest on what packing a block or a page leaves as it was (`repackBlock_frame`, `repackPage_eq`). -/
theorem boardPagesArePacked : Obligations.BoardPagesArePacked := by
  unfold Obligations.BoardPagesArePacked
  exact ⟨⟨exec_boardBlockWrite_writes, exec_boardBlockWrite_waits, exec_boardPageRepack_packs⟩, exec_tierPartFail_stack, exec_tierPartFail_channel⟩

end Sys2Proof.Machine
end

section
/-! PROOF. Memory operations at their target (O39). -/

namespace Sys2Proof.Machine

/-! ### Answers (R353, R361) -/

/-- The bytes that an answer carries: those of the operation, or all ones (R361). -/
def answerData (op : MemOp) (status : Nat) (data : List Byte) : List Byte :=
  if status = 0 then data else List.replicate (if op.op = 8 then 0 else op.size) 0xFF#8

section
variable (s : State) (op : MemOp) (status : Nat) (data : List Byte)

theorem memAnswer_frame : keepsBut [.net, .counts] s (s.memAnswer op status data) :=
  (bumpIf_frame s (status == 1) 0xE0C013).trans' (send_frame _ _ _ _ _) (by simp) (List.Subset.refl _)

/-- Beside a packet without a route, an answer counts only an operation that could not be read. -/
theorem memAnswer_cnt {k : Key} (hk : k ≠ 0xE0C00B) : (s.memAnswer op status data).cnt k = s.cnt k + if status = 1 ∧ k = 0xE0C013 then 1 else 0 := by
  unfold State.memAnswer
  exact (sendAt_countsBut _ _ _ _ _ _ (m := .memResp _ _ _ _) rfl k (by simpa using hk)).trans (by rw [State.cnt_bumpIf]; simp)

theorem memAnswer_hasSent :
    (s.memAnswer op status data).hasSent op.src (respKind op.op) (.memResp op.tag (respKind op.op) status (answerData op status data)) := by
  have hdata : answerData op status data = if status == 0 then data else List.replicate (if op.op == 8 then 0 else op.size) 0xFF#8 := by simp [answerData]
  rw [hdata]
  exact sendAt_hasSent _ _ _ _ _ _ _ (.inl rfl)

end

/-! ### An operation arrives (R296, R471) -/

/-- A row that is the operation's own takes it up. -/
theorem live_ownRow {op : MemOp} {k : Nat} (hop : op.op = k) (bad again : Bool) (s : State) :
    (live s fun s => if op.op == k then s.opArrive op bad again else s) = live s fun s => s.opArrive op bad again := by
  simp [hop]

/-- The row of an operation hands it to its target: only a load's read may be uncorrectable. -/
theorem exec_opRow {op : MemOp} {bad again : Bool} {i : Instr} (h : opRow op bad again = some i) (s : State) :
    exec i s = live s fun s => s.opArrive op (op.op == 0 && bad) (op.op == 0 && again) := by
  unfold opRow at h
  split at h
  case h_1 hop => cases h; rw [hop]; exact live_ownRow hop bad again s
  case h_2 hop => cases h; rw [hop]; exact live_ownRow hop false false s
  case h_3 hop => cases h; rw [hop]; exact live_ownRow hop false false s
  case h_4 hop => cases h; rw [hop]; exact live_ownRow hop false false s
  case h_5 hop => cases h; rw [hop]; exact live_ownRow hop false false s
  case h_6 hop => cases h; rw [hop]; exact live_ownRow hop false false s
  case h_7 => cases h

/-- An operation whose tenant is bound as the map says, or of the system, is taken up. -/
theorem opArrive_here {s : State} {op : MemOp} (bad again : Bool) (hdst : op.dst = s.node)
    (hbound : op.system = true ∨ s.bindingDiffers op.tenant s.node = false) : s.opArrive op bad again = s.memArrive op bad again := by
  have hserved : ¬(!op.system && s.bindingDiffers op.tenant s.node) = true := by
    rcases hbound with h | h
    · simp [h]
    · simp [h]
  unfold State.opArrive
  rw [if_neg (by simp [hdst]), if_neg hserved]

/-- Only a write waits for a page in move. -/
theorem memArrive_now {s : State} {op : MemOp} (bad again : Bool) (h : op.op = 0 ∨ s.rangeMoving (opSpace op) op.addr op.size = false) :
    s.memArrive op bad again = s.memDo op bad again := by
  unfold State.memArrive
  rcases h with h | h
  · rw [if_neg (by simp [h])]
  · rw [if_neg (by simp [h])]

theorem exec_memOp_unbound (s : State) (op : MemOp) (bad again : Bool) (i : Instr) (hrun : s.running = true) (hdst : op.dst = s.node)
    (hi : opRow op bad again = some i) (hsys : op.system = false) (hdiff : s.bindingDiffers op.tenant s.node = true) :
    ∃ t, exec i s = .next t ∧ t.hasSent op.src (respKind op.op) (.memResp op.tag (respKind op.op) 3 (List.replicate (if op.op = 8 then 0 else op.size) 0xFF#8)) ∧
      t.cnt 0xE1000F = s.cnt 0xE1000F + 1 ∧ keepsBut [.net, .counts] s t := by
  have hf := (bump_frame s 0xE1000F 1).trans' (memAnswer_frame _ op 3 []) (by simp) (List.Subset.refl _)
  rw [exec_opRow hi]
  refine ⟨_, live_kept hrun ?_ hf (by simp), memAnswer_hasSent _ op 3 [], ?_, hf⟩
  · unfold State.opArrive
    rw [if_neg (by simp [hdst]), if_pos (by simp [hsys, hdiff])]
  · rw [memAnswer_cnt _ _ _ _ (by decide), State.cnt_bump_same, if_neg (by decide)]

theorem exec_memOp_refused (s : State) (op : MemOp) (bad again : Bool) (i : Instr) (hrun : s.running = true) (hdst : op.dst = s.node)
    (hi : opRow op bad again = some i) (hbound : op.system = true ∨ s.bindingDiffers op.tenant s.node = false)
    (hmove : s.rangeMoving (opSpace op) op.addr op.size = false)
    (hout : s.inService (opSpace op) = false ∨ s.owned (opSpace op) op.addr op.size = false) :
    ∃ t, exec i s = .next t ∧ t.hasSent op.src (respKind op.op) (.memResp op.tag (respKind op.op) (if s.inService (opSpace op) = false then 3 else 2)
        (List.replicate (if op.op = 8 then 0 else op.size) 0xFF#8)) ∧ keepsBut [.net, .counts] s t := by
  obtain ⟨status, hstatus⟩ : ∃ n, n = if s.inService (opSpace op) = false then 3 else 2 := ⟨_, rfl⟩
  have hne : status ≠ 0 := by
    rw [hstatus]
    split <;> decide
  have hf := memAnswer_frame s op status []
  have hsent := memAnswer_hasSent s op status []
  rw [answerData, if_neg hne] at hsent
  rw [exec_opRow hi, ← hstatus]
  refine ⟨_, live_kept hrun ?_ hf (by simp), hsent, hf⟩
  rw [opArrive_here _ _ hdst hbound, memArrive_now _ _ (.inr hmove), hstatus]
  unfold State.memDo
  cases hservice : s.inService (opSpace op) with
  | false => simp [hservice]
  | true =>
    have howned : s.owned (opSpace op) op.addr op.size = false := by simpa [hservice] using hout
    simp [hservice, howned]

theorem exec_memOp_waits (s : State) (op : MemOp) (i : Instr) (hrun : s.running = true) (hdst : op.dst = s.node) (hi : opRow op false false = some i)
    (hop : op.op ≠ 0) (hbound : op.system = true ∨ s.bindingDiffers op.tenant s.node = false) (howned : s.owned (opSpace op) op.addr op.size = true)
    (hmove : s.rangeMoving (opSpace op) op.addr op.size = true) :
    ∃ t, exec i s = .next t ∧ t.tier.waits = s.tier.waits ++ [{ tenant := opSpace op, addr := op.addr, data := [], host := none, peer := some op }] ∧
      t.cnt 0xE0A012 = s.cnt 0xE0A012 + 1 ∧ keepsBut [.tier, .counts] s t ∧ countsBut [0xE0A012] s t := by
  have hf := waitMove_frame s { tenant := opSpace op, addr := op.addr, data := [], host := none, peer := some op }
  rw [exec_opRow hi]
  refine ⟨_, live_kept hrun ?_ hf (by simp), congrArg TierS.waits (waitMove_tier _ _), waitMove_counted _ _, hf, waitMove_counts _ _⟩
  rw [opArrive_here _ _ hdst hbound]
  unfold State.memArrive
  rw [if_pos (by simp [hop, howned, hmove])]

/-! ### Loads (R302, R356) -/

/-- What a load that is served reads: poison, or its bytes. -/
theorem memDo_load {s : State} {op : MemOp} (bad again : Bool) (hop : op.op = 0) (hservice : s.inService (opSpace op) = true)
    (howned : s.owned (opSpace op) op.addr op.size = true) :
    s.memDo op bad again =
      let r := s.readLine (opSpace op) op.addr op.size bad again
      if r.2 = true then r.1.memAnswer op 1 [] else r.1.memAnswer op 0 (r.1.load (opSpace op) op.addr op.size) := by
  unfold State.memDo
  simp [hop, hservice, howned]

theorem readLine_poisoned {s : State} {t addr n : Nat} {bad again : Bool} (h : s.poisoned t addr n = true ∨ (bad = true ∧ again = true)) :
    (s.readLine t addr n bad again).2 = true := by
  unfold State.readLine
  rcases h with h | ⟨rfl, rfl⟩
  · simp [h]
  · split <;> simp

/-- A line that is read, at once or after a first read that was uncorrectable: the first read is counted and scored (R302). -/
theorem readLine_read {s : State} {t addr n : Nat} {bad again : Bool} (hp : s.poisoned t addr n = false) (h : bad = false ∨ again = false) :
    (s.readLine t addr n bad again).2 = false ∧ keepsBut [.counts, .fault] s (s.readLine t addr n bad again).1 ∧
      (bad = false → (s.readLine t addr n bad again).1 = s) := by
  unfold State.readLine
  cases bad with
  | false => simp [hp]
  | true =>
    obtain rfl : again = false := by simpa using h
    simp only [hp, Bool.not_true, Bool.false_eq_true, if_false]
    exact ⟨trivial, (bump_frame _ _ _).trans' (score_frame _ _ _ _) (by simp) (by simp), by simp⟩

theorem exec_load_poisoned (s : State) (op : MemOp) (bad again : Bool) (hrun : s.running = true) (hdst : op.dst = s.node) (hop : op.op = 0)
    (hbound : op.system = true ∨ s.bindingDiffers op.tenant s.node = false) (hservice : s.inService (opSpace op) = true)
    (howned : s.owned (opSpace op) op.addr op.size = true) (hbad : s.poisoned (opSpace op) op.addr op.size = true ∨ (bad = true ∧ again = true)) :
    ∃ t, exec (.load op bad again) s = .next t ∧ t.hasSent op.src 2 (.memResp op.tag 2 1 (List.replicate op.size 0xFF#8)) ∧
      t.cnt 0xE0C013 = s.cnt 0xE0C013 + 1 ∧ keepsBut [.net, .counts, .fault, .poison, .tier] s t := by
  obtain ⟨a, ha⟩ : ∃ a, a = (s.readLine (opSpace op) op.addr op.size bad again).1 := ⟨_, rfl⟩
  have hf : keepsBut [.net, .counts, .fault, .poison, .tier] s (a.memAnswer op 1 []) :=
    (ha ▸ readLine_frame s _ _ _ bad again).trans' (memAnswer_frame a op 1 []) (by simp) (by simp)
  have hsent := memAnswer_hasSent a op 1 []
  simp only [hop, answerData, respKind] at hsent
  rw [exec_opRow (op := op) (bad := bad) (again := again) (by simp [opRow, hop])]
  refine ⟨_, live_kept hrun ?_ hf (by simp), hsent, ?_, hf⟩
  · rw [opArrive_here _ _ hdst hbound, memArrive_now _ _ (.inl hop), memDo_load _ _ hop hservice howned, ha]
    simp [hop, readLine_poisoned hbad]
  · rw [memAnswer_cnt _ _ _ _ (by decide), if_pos ⟨rfl, rfl⟩, ha, readLine_counts _ _ _ _ _ _ _ (by decide)]

theorem exec_load_reads (s : State) (op : MemOp) (bad again : Bool) (hrun : s.running = true) (hdst : op.dst = s.node) (hop : op.op = 0)
    (hbound : op.system = true ∨ s.bindingDiffers op.tenant s.node = false) (hservice : s.inService (opSpace op) = true)
    (howned : s.owned (opSpace op) op.addr op.size = true) (hp : s.poisoned (opSpace op) op.addr op.size = false) (hread : bad = false ∨ again = false) :
    ∃ t, exec (.load op bad again) s = .next t ∧ t.hasSent op.src 2 (.memResp op.tag 2 0 (s.load (opSpace op) op.addr op.size)) ∧
      keepsBut [.net, .counts, .fault] s t ∧ (bad = false → keepsBut [.net, .counts] s t) := by
  obtain ⟨hok, hfr, hsame⟩ := readLine_read hp hread
  obtain ⟨a, ha⟩ : ∃ a, a = (s.readLine (opSpace op) op.addr op.size bad again).1 := ⟨_, rfl⟩
  rw [← ha] at hfr hsame
  have hload : a.load (opSpace op) op.addr op.size = s.load (opSpace op) op.addr op.size := State.load_congr (hfr .mem (by simp)) _ _ _
  have hanswer := memAnswer_frame a op 0 (s.load (opSpace op) op.addr op.size)
  have hf : keepsBut [.net, .counts, .fault] s (a.memAnswer op 0 (s.load (opSpace op) op.addr op.size)) := hfr.trans' hanswer (by simp) (by simp)
  have hsent := memAnswer_hasSent a op 0 (s.load (opSpace op) op.addr op.size)
  simp only [hop, answerData, respKind] at hsent
  rw [exec_opRow (op := op) (bad := bad) (again := again) (by simp [opRow, hop])]
  refine ⟨_, live_kept hrun ?_ hf (by simp), hsent, hf, fun hbad => hsame hbad ▸ hanswer⟩
  rw [opArrive_here _ _ hdst hbound, memArrive_now _ _ (.inl hop), memDo_load _ _ hop hservice howned]
  simp [hop, hok, ← ha, hload]

/-! ### Stores and atomics (R356, R357) -/

/-- An operation that writes, and that its target performs at once. -/
structure ServesOp (s : State) (op : MemOp) : Prop where
  running : s.running = true
  memOk : s.memOk = true
  here : op.dst = s.node
  bound : op.system = true ∨ s.bindingDiffers op.tenant s.node = false
  service : s.inService (opSpace op) = true
  size : 0 < op.size
  owned : s.owned (opSpace op) op.addr op.size = true
  still : s.rangeMoving (opSpace op) op.addr op.size = false
  readable : s.poisoned (opSpace op) op.addr op.size = false
  works : s.rangeFailed (opSpace op) op.addr op.size = false

/-- The bytes at the address of an operation. -/
def State.opOld (s : State) (op : MemOp) : List Byte := s.load (opSpace op) op.addr op.size

section
variable {s : State} {op : MemOp} {i : Instr}

/-- The row of an operation that writes has no read that may be uncorrectable. -/
theorem exec_writeRow (hi : opRow op false false = some i) : exec i s = live s fun s => s.opArrive op false false := by
  rw [exec_opRow hi]
  simp

theorem ServesOp.arrives (h : ServesOp s op) : s.opArrive op false false = s.memDo op false false := by
  rw [opArrive_here _ _ h.here h.bound, memArrive_now _ _ (.inr h.still)]

/-- A write of as many bytes as the operation names stores them, and the rest of memory stays. -/
theorem ServesOp.writes (h : ServesOp s op) {v : List Byte} (hv : v.length = op.size) :
    (s.memWrite (opSpace op) op.addr v).load (opSpace op) op.addr op.size = v ∧
      keepsBut [.mem, .poison, .tier, .counts, .fault] s (s.memWrite (opSpace op) op.addr v) ∧ countsBut packCounts s (s.memWrite (opSpace op) op.addr v) := by
  have hpos := h.size
  have hne : v ≠ [] := List.ne_nil_of_length_pos (by omega)
  have hworks : s.rangeFailed (opSpace op) op.addr v.length = false := hv ▸ h.works
  exact ⟨hv ▸ load_memWrite hne hworks h.memOk, memWrite_frame hne hworks, memWrite_counts hne hworks⟩

theorem ServesOp.store (h : ServesOp s op) (hop : op.op = 8) (hdata : op.data.length = op.size) :
    ∃ t, Machine.exec (.store op) s = .next t ∧ t.load (opSpace op) op.addr op.size = op.data ∧ t.hasSent op.src 4 (.memResp op.tag 4 0 []) ∧
      keepsBut [.mem, .poison, .tier, .fault, .net, .counts] s t := by
  obtain ⟨hload, hfw, -⟩ := h.writes hdata
  have hanswer := memAnswer_frame (s.memWrite (opSpace op) op.addr op.data) op 0 []
  have hf : keepsBut [.mem, .poison, .tier, .fault, .net, .counts] s ((s.memWrite (opSpace op) op.addr op.data).memAnswer op 0 []) :=
    hfw.trans' hanswer (by simp) (by simp)
  have hsent := memAnswer_hasSent (s.memWrite (opSpace op) op.addr op.data) op 0 []
  simp only [hop, answerData, respKind] at hsent
  rw [exec_writeRow (op := op) (by simp [opRow, hop])]
  refine ⟨_, live_kept h.running ?_ hf (by simp), (State.load_congr (hanswer .mem (by simp)) _ _ _).trans hload, hsent, hf⟩
  rw [h.arrives]
  unfold State.memDo
  simp [h.service, h.owned, hop, List.take_of_length_le hdata.le]

/-- The value that an atomic computes at its target. -/
def State.opValue (s : State) (op : MemOp) : Option (List Byte) := atomicValue op.op op.ty op.size op.data (s.opOld op)

/-- An atomic is refused, or writes its value if that is new. -/
theorem ServesOp.memDo_atomic (h : ServesOp s op) (h0 : op.op ≠ 0) (h8 : op.op ≠ 8) :
    s.memDo op false false = (s.opValue op).elim ((s.bump 0xE0C015 1).memAnswer op 6 []) fun v =>
      ((if v = s.opOld op then s else s.memWrite (opSpace op) op.addr v).bump 0xE0C00F 1).memAnswer op 0 (s.opOld op) := by
  have hread : s.readLine (opSpace op) op.addr op.size false false = (s, false) := by simp [State.readLine, h.readable]
  unfold State.memDo State.opValue State.opOld
  simp only [h.service, h.owned, hread, h0, h8, beq_iff_eq, Bool.not_true, Bool.false_eq_true, if_false]
  cases atomicValue op.op op.ty op.size op.data (s.load (opSpace op) op.addr op.size) with
  | none => rfl
  | some v => rfl

/-- An atomic that computes a value leaves it at its address, answers with the old one and is counted. -/
structure AtomicDone (s : State) (op : MemOp) (v : List Byte) (t : State) : Prop where
  left : t.load (opSpace op) op.addr op.size = v
  sent : t.hasSent op.src 6 (.memResp op.tag 6 0 (s.load (opSpace op) op.addr op.size))
  counted : s.cnt 0xE0C00F + 1 ≤ t.cnt 0xE0C00F
  frame : keepsBut [.mem, .poison, .tier, .fault, .net, .counts] s t

/-- The old value needs no write. -/
theorem ServesOp.leaves (h : ServesOp s op) {v : List Byte} (hv : v.length = op.size) :
    (if v = s.opOld op then s else s.memWrite (opSpace op) op.addr v).load (opSpace op) op.addr op.size = v ∧
      keepsBut [.mem, .poison, .tier, .counts, .fault] s (if v = s.opOld op then s else s.memWrite (opSpace op) op.addr v) ∧
      countsBut packCounts s (if v = s.opOld op then s else s.memWrite (opSpace op) op.addr v) := by
  split
  · rename_i hsame
    exact ⟨hsame.symm, keepsBut_refl _ s, countsBut_refl _ s⟩
  · exact h.writes hv

theorem ServesOp.atomic (h : ServesOp s op) (hi : opRow op false false = some i) (h0 : op.op ≠ 0) (h8 : op.op ≠ 8) {v : List Byte} (hv : v.length = op.size)
    (hvalue : s.opValue op = some v) : ∃ t, Machine.exec i s = .next t ∧ AtomicDone s op v t := by
  obtain ⟨hload, hfw, hcw⟩ := h.leaves hv
  obtain ⟨a, ha⟩ : ∃ a, a = if v = s.opOld op then s else s.memWrite (opSpace op) op.addr v := ⟨_, rfl⟩
  rw [← ha] at hload hfw hcw
  have hbump := bump_frame a 0xE0C00F 1
  have hanswer := memAnswer_frame (a.bump 0xE0C00F 1) op 0 (s.opOld op)
  have hf : keepsBut [.mem, .poison, .tier, .fault, .net, .counts] s ((a.bump 0xE0C00F 1).memAnswer op 0 (s.opOld op)) :=
    hfw.trans' (hbump.trans' hanswer (rs := [.net, .counts]) (by simp) (by simp)) (by simp) (by simp)
  have hsent := memAnswer_hasSent (a.bump 0xE0C00F 1) op 0 (s.opOld op)
  rw [show respKind op.op = 6 by simp [respKind, h0, h8]] at hsent
  rw [exec_writeRow hi]
  refine ⟨_, live_kept h.running ?_ hf (by simp), (State.load_congr ((hanswer .mem (by simp)).trans (hbump .mem (by simp))) _ _ _).trans hload, hsent, ?_, hf⟩
  · rw [h.arrives, h.memDo_atomic h0 h8, hvalue, ha, Option.elim_some]
  · rw [memAnswer_cnt _ _ _ _ (by decide), State.cnt_bump_same, hcw _ (by decide)]
    exact Nat.le_refl _

/-- An atomic whose key is NaN is refused (R357). -/
theorem ServesOp.refused (h : ServesOp s op) (hi : opRow op false false = some i) (h0 : op.op ≠ 0) (h8 : op.op ≠ 8) (hvalue : s.opValue op = none) :
    ∃ t, Machine.exec i s = .next t ∧ t.mem = s.mem ∧ t.cnt 0xE0C015 = s.cnt 0xE0C015 + 1 ∧
       t.hasSent op.src 6 (.memResp op.tag 6 6 (List.replicate op.size 0xFF#8)) ∧ keepsBut [.net, .counts] s t := by
  have hf : keepsBut [.net, .counts] s ((s.bump 0xE0C015 1).memAnswer op 6 []) :=
    (bump_frame s 0xE0C015 1).trans' (memAnswer_frame _ op 6 []) (by simp) (List.Subset.refl _)
  have hsent := memAnswer_hasSent (s.bump 0xE0C015 1) op 6 []
  rw [show respKind op.op = 6 by simp [respKind, h0, h8]] at hsent
  simp only [answerData, h8] at hsent
  rw [exec_writeRow hi]
  refine ⟨_, live_kept h.running ?_ hf (by simp), hf .mem (by simp), ?_, hsent, hf⟩
  · rw [h.arrives, h.memDo_atomic h0 h8, hvalue, Option.elim_none]
  · rw [memAnswer_cnt _ _ _ _ (by decide), State.cnt_bump_same, if_neg (by decide)]

/-! ### What an atomic computes (R357) -/

theorem atomicValue_swap {ty n : Nat} {a old : List Byte} (ha : a.length = 2 * n) :
    atomicValue 2 ty n a old = some (if old = a.take n then a.drop n else old) := by
  have hdrop : (a.drop n).take n = a.drop n := List.take_of_length_le (by rw [List.length_drop]; omega)
  simp [atomicValue, hdrop]

/-- Does an operand come before another in the order of its type? -/
def atomicLess (ty : Nat) (x y : List Byte) : Bool :=
  if ty == 2 then entLt (entryOfBytes x) (entryOfBytes y) else if ty == 1 then toInt 64 (leNat x) < toInt 64 (leNat y) else leNat x < leNat y

/-- What a minimum (operation 3) or a maximum (4) of operands that are no NaN keys leaves. -/
def atomicPick (op ty : Nat) (a old : List Byte) : List Byte := if (if op = 3 then atomicLess ty a old else atomicLess ty old a) then a else old

theorem atomicValue_ordered {op ty n : Nat} {a old : List Byte} (hop : op = 3 ∨ op = 4) (ha : a.length = n) :
    atomicValue op ty n a old = if ty = 2 ∧ isNaN (entryOfBytes a).score = true then none
      else if ty = 2 ∧ isNaN (entryOfBytes old).score = true then some a else some (atomicPick op ty a old) := by
  have htake : a.take n = a := List.take_of_length_le ha.le
  rcases hop with rfl | rfl
  · simp [atomicValue, atomicPick, atomicLess, htake]
  · simp [atomicValue, atomicPick, atomicLess, htake]

theorem atomicPick_length {op ty n : Nat} {a old : List Byte} (ha : a.length = n) (hold : old.length = n) : (atomicPick op ty a old).length = n :=
  iteInduction (motive := fun v : List Byte => v.length = n) (fun _ => ha) fun _ => hold

/-- Picking by an order of keys picks the least key, or the greatest. -/
theorem key_pick {α : Type} [LinearOrder α] (key : List Byte → α) (a old : List Byte) :
    key (if key a < key old then a else old) = min (key old) (key a) ∧ key (if key old < key a then a else old) = max (key old) (key a) := by
  constructor
  · split
    · rename_i h
      exact (min_eq_right h.le).symm
    · rename_i h
      exact (min_eq_left (not_lt.1 h)).symm
  · split
    · rename_i h
      exact (max_eq_right h.le).symm
    · rename_i h
      exact (max_eq_left (not_lt.1 h)).symm

theorem leNat_atomicPick (a old : List Byte) :
    leNat (atomicPick 3 0 a old) = min (leNat old) (leNat a) ∧ leNat (atomicPick 4 0 a old) = max (leNat old) (leNat a) := by
  simpa [atomicPick, atomicLess] using key_pick leNat a old

theorem toInt_atomicPick (a old : List Byte) :
    toInt 64 (leNat (atomicPick 3 1 a old)) = min (toInt 64 (leNat old)) (toInt 64 (leNat a)) ∧
      toInt 64 (leNat (atomicPick 4 1 a old)) = max (toInt 64 (leNat old)) (toInt 64 (leNat a)) := by
  simpa [atomicPick, atomicLess] using key_pick (fun x => toInt 64 (leNat x)) a old

theorem leBytes_length (n v : Nat) : (leBytes n v).length = n := by
  induction n generalizing v with
  | zero => rfl
  | succ n ih => simp [leBytes, ih]

theorem opOld_length (s : State) (op : MemOp) : (s.opOld op).length = op.size := State.load_length _ _ _ _

theorem ServesOp.fetchAdd (h : ServesOp s op) (hop : op.op = 1) (hsize : op.size = 8) :
    ∃ t, Machine.exec (.fetchAdd op) s = .next t ∧
      t.load (opSpace op) op.addr 8 = leBytes 8 (leNat (s.load (opSpace op) op.addr op.size) + leNat op.data) ∧
      t.hasSent op.src 6 (.memResp op.tag 6 0 (s.load (opSpace op) op.addr op.size)) ∧ s.cnt 0xE0C00F + 1 ≤ t.cnt 0xE0C00F ∧
      keepsBut [.mem, .poison, .tier, .fault, .net, .counts] s t := by
  have hvalue : s.opValue op = some (leBytes 8 (leNat (s.opOld op) + leNat op.data)) := by
    unfold State.opValue
    rw [hop]
    rfl
  obtain ⟨t, he, hleft, hsent, hcount, hf⟩ := h.atomic (i := .fetchAdd op) (by simp [opRow, hop]) (by omega) (by omega) ((leBytes_length _ _).trans hsize.symm) hvalue
  exact ⟨t, he, (congrArg (t.load (opSpace op) op.addr) hsize.symm).trans hleft, hsent, hcount, hf⟩

theorem ServesOp.compareSwap (h : ServesOp s op) (hop : op.op = 2) (hdata : op.data.length = 2 * op.size) :
    ∃ t, Machine.exec (.compareSwap op) s = .next t ∧
      t.load (opSpace op) op.addr op.size =
        (if s.load (opSpace op) op.addr op.size = op.data.take op.size then op.data.drop op.size else s.load (opSpace op) op.addr op.size) ∧
      t.hasSent op.src 6 (.memResp op.tag 6 0 (s.load (opSpace op) op.addr op.size)) ∧ keepsBut [.mem, .poison, .tier, .fault, .net, .counts] s t := by
  have hvalue : s.opValue op = some (if s.opOld op = op.data.take op.size then op.data.drop op.size else s.opOld op) := by
    unfold State.opValue
    rw [hop, atomicValue_swap hdata]
  have hlen : (if s.opOld op = op.data.take op.size then op.data.drop op.size else s.opOld op).length = op.size := by
    split
    · rw [List.length_drop]
      omega
    · exact opOld_length s op
  obtain ⟨t, he, hleft, hsent, -, hf⟩ := h.atomic (i := .compareSwap op) (by simp [opRow, hop]) (by omega) (by omega) hlen hvalue
  exact ⟨t, he, hleft, hsent, hf⟩

/-- A minimum or a maximum of whole numbers picks one of its operands. -/
theorem ServesOp.picks (h : ServesOp s op) (hop : op.op = 3 ∨ op.op = 4) (hi : opRow op false false = some i) (hty : op.ty ≤ 1)
    (hdata : op.data.length = op.size) : ∃ t, Machine.exec i s = .next t ∧ AtomicDone s op (atomicPick op.op op.ty op.data (s.opOld op)) t := by
  refine h.atomic hi (by omega) (by omega) (atomicPick_length hdata (opOld_length s op)) ?_
  have hkey : op.ty ≠ 2 := by omega
  unfold State.opValue
  rw [atomicValue_ordered hop hdata]
  simp [hkey]

theorem ServesOp.atomicMin (h : ServesOp s op) (hop : op.op = 3) (hty : op.ty ≤ 1) (hdata : op.data.length = op.size) :
    ∃ t, Machine.exec (.atomicMin op) s = .next t ∧
      (op.ty = 0 → leNat (t.load (opSpace op) op.addr op.size) = min (leNat (s.load (opSpace op) op.addr op.size)) (leNat op.data)) ∧
      (op.ty = 1 → toInt 64 (leNat (t.load (opSpace op) op.addr op.size)) =
        min (toInt 64 (leNat (s.load (opSpace op) op.addr op.size))) (toInt 64 (leNat op.data))) ∧
      t.hasSent op.src 6 (.memResp op.tag 6 0 (s.load (opSpace op) op.addr op.size)) ∧ keepsBut [.mem, .poison, .tier, .fault, .net, .counts] s t := by
  obtain ⟨t, he, hleft, hsent, -, hf⟩ := h.picks (.inl hop) (i := .atomicMin op) (by simp [opRow, hop]) hty hdata
  refine ⟨t, he, fun h0 => ?_, fun h1 => ?_, hsent, hf⟩
  · rw [hleft, hop, h0]
    exact (leNat_atomicPick _ _).1
  · rw [hleft, hop, h1]
    exact (toInt_atomicPick _ _).1

theorem ServesOp.atomicMax (h : ServesOp s op) (hop : op.op = 4) (hty : op.ty ≤ 1) (hdata : op.data.length = op.size) :
    ∃ t, Machine.exec (.atomicMax op) s = .next t ∧
      (op.ty = 0 → leNat (t.load (opSpace op) op.addr op.size) = max (leNat (s.load (opSpace op) op.addr op.size)) (leNat op.data)) ∧
      (op.ty = 1 → toInt 64 (leNat (t.load (opSpace op) op.addr op.size)) =
        max (toInt 64 (leNat (s.load (opSpace op) op.addr op.size))) (toInt 64 (leNat op.data))) ∧
      t.hasSent op.src 6 (.memResp op.tag 6 0 (s.load (opSpace op) op.addr op.size)) ∧ keepsBut [.mem, .poison, .tier, .fault, .net, .counts] s t := by
  obtain ⟨t, he, hleft, hsent, -, hf⟩ := h.picks (.inr hop) (i := .atomicMax op) (by simp [opRow, hop]) hty hdata
  refine ⟨t, he, fun h0 => ?_, fun h1 => ?_, hsent, hf⟩
  · rw [hleft, hop, h0]
    exact (leNat_atomicPick _ _).2
  · rw [hleft, hop, h1]
    exact (toInt_atomicPick _ _).2

/-- The row of a minimum or a maximum. -/
theorem opRow_ordered (hop : op.op = 3 ∨ op.op = 4) : opRow op false false = some (if op.op = 3 then .atomicMin op else .atomicMax op) := by
  rcases hop with hop | hop
  · simp [opRow, hop]
  · simp [opRow, hop]

theorem ServesOp.keyNaN (h : ServesOp s op) (hop : op.op = 3 ∨ op.op = 4) (hty : op.ty = 2) (hdata : op.data.length = op.size)
    (hnan : isNaN (entryOfBytes op.data).score = true) :
    ∃ t, Machine.exec (if op.op = 3 then .atomicMin op else .atomicMax op) s = .next t ∧ t.mem = s.mem ∧ t.cnt 0xE0C015 = s.cnt 0xE0C015 + 1 ∧
      t.hasSent op.src 6 (.memResp op.tag 6 6 (List.replicate op.size 0xFF#8)) ∧ keepsBut [.net, .counts] s t := by
  refine h.refused (opRow_ordered hop) (by omega) (by omega) ?_
  unfold State.opValue
  rw [atomicValue_ordered hop hdata, if_pos ⟨hty, hnan⟩]

/-- What a minimum or a maximum of keys leaves (R357). -/
theorem atomicValue_keys {op n : Nat} {a old : List Byte} (hop : op = 3 ∨ op = 4) (ha : a.length = n) (hnan : isNaN (entryOfBytes a).score = false) :
    atomicValue op 2 n a old = some (if isNaN (entryOfBytes old).score = true ∨ (op = 3 ∧ entLt (entryOfBytes a) (entryOfBytes old) = true) ∨
      (op = 4 ∧ entLt (entryOfBytes old) (entryOfBytes a) = true) then a else old) := by
  rw [atomicValue_ordered hop ha, if_neg (by simp [hnan])]
  cases hold : isNaN (entryOfBytes old).score with
  | true => simp
  | false =>
    rcases hop with rfl | rfl
    · simp [atomicPick, atomicLess]
    · simp [atomicPick, atomicLess]

theorem ServesOp.keys (h : ServesOp s op) (hop : op.op = 3 ∨ op.op = 4) (hty : op.ty = 2) (hdata : op.data.length = op.size)
    (hnan : isNaN (entryOfBytes op.data).score = false) :
    ∃ t, Machine.exec (if op.op = 3 then .atomicMin op else .atomicMax op) s = .next t ∧
      t.load (opSpace op) op.addr op.size =
        (if isNaN (entryOfBytes (s.load (opSpace op) op.addr op.size)).score = true ∨
            (op.op = 3 ∧ entLt (entryOfBytes op.data) (entryOfBytes (s.load (opSpace op) op.addr op.size)) = true) ∨
            (op.op = 4 ∧ entLt (entryOfBytes (s.load (opSpace op) op.addr op.size)) (entryOfBytes op.data) = true)
          then op.data else s.load (opSpace op) op.addr op.size) ∧
      t.hasSent op.src 6 (.memResp op.tag 6 0 (s.load (opSpace op) op.addr op.size)) ∧ keepsBut [.mem, .poison, .tier, .fault, .net, .counts] s t := by
  have hvalue := atomicValue_keys (old := s.opOld op) hop hdata hnan
  rw [← hty] at hvalue
  obtain ⟨t, he, hleft, hsent, -, hf⟩ := h.atomic (opRow_ordered hop) (by omega) (by omega)
    (by split
        · exact hdata
        · exact opOld_length s op) hvalue
  exact ⟨t, he, hleft, hsent, hf⟩

end

/-- Settles O39: an operation is refused, waits, or is served: a load reads, and what writes rests on what a write to memory stores (`load_memWrite`). -/
theorem memoryOperationsAtTheTarget : Obligations.MemoryOperationsAtTheTarget := by
  unfold Obligations.MemoryOperationsAtTheTarget
  refine ⟨exec_memOp_unbound, exec_memOp_refused, exec_memOp_waits, exec_load_poisoned, exec_load_reads, ?_⟩
  intro s op hrun hmem hdst hbound hservice hsize howned hmove hpoison hfailed
  have h : ServesOp s op := ⟨hrun, hmem, hdst, hbound, hservice, hsize, howned, hmove, hpoison, hfailed⟩
  exact ⟨h.store, h.fetchAdd, h.compareSwap, h.atomicMin, h.atomicMax, h.keyNaN, h.keys⟩

end Sys2Proof.Machine
end

section
/-! SUPPORT. Runs of a list: they are the list cut up. -/

namespace Sys2Proof.Machine

/-- A list that is not empty has one run more than what is left after the first. -/
theorem cdiv_eq_cdiv_sub_add_one {a n : Nat} (hn : 0 < n) (ha : 0 < a) : cdiv a n = cdiv (a - n) n + 1 := by
  unfold cdiv
  by_cases h : n ≤ a
  · rw [show a + (n - 1) = a - n + (n - 1) + n by omega, Nat.add_div_right _ hn]
  · rw [show a - n = 0 by omega, Nat.zero_add, Nat.div_eq_of_lt (by omega : n - 1 < n), Nat.div_eq_of_lt_le (k := 1) (by omega) (by omega)]

@[simp] theorem chunks_nil {α : Type} {n : Nat} : chunks n ([] : List α) = [] := by
  unfold chunks
  split
  · rfl
  · rename_i hn
    have hpos : n ≠ 0 := by simpa using hn
    rw [List.length_nil, show cdiv 0 n = 0 from Nat.div_eq_of_lt (by omega)]
    rfl

/-- The first run of a list, and those of the rest. -/
theorem chunks_of_ne_nil {α : Type} {n : Nat} (hn : 0 < n) {xs : List α} (hxs : xs ≠ []) : chunks n xs = xs.take n :: chunks n (xs.drop n) := by
  have hlen : 0 < xs.length := List.length_pos_iff.2 hxs
  have hn0 : ¬(n == 0) = true := by simpa using hn.ne'
  unfold chunks
  rw [if_neg hn0, if_neg hn0, List.length_drop, cdiv_eq_cdiv_sub_add_one hn hlen, List.range_succ_eq_map, List.map_cons, List.map_map, Nat.zero_mul, List.drop_zero]
  refine congrArg _ (List.map_congr_left fun i _ => ?_)
  simp only [Function.comp, Nat.succ_eq_add_one]
  rw [List.drop_drop, Nat.add_mul, Nat.one_mul, Nat.add_comm]

/-- An induction over the runs of a list. -/
theorem chunks_induction {α : Type} {n : Nat} (hn : 0 < n) {P : List α → Prop} (h0 : P []) (h1 : ∀ xs, xs ≠ [] → P (xs.drop n) → P xs)
    (xs : List α) : P xs := by
  induction hlen : xs.length using Nat.strong_induction_on generalizing xs with
  | _ k ih =>
    by_cases hxs : xs = []
    · exact hxs ▸ h0
    · have hpos : 0 < xs.length := List.length_pos_iff.2 hxs
      exact h1 xs hxs (ih (xs.drop n).length (by rw [List.length_drop]; omega) _ rfl)

theorem chunks_flatten {α : Type} {n : Nat} (hn : 0 < n) (xs : List α) : (chunks n xs).flatten = xs := by
  induction xs using chunks_induction hn with
  | h0 => simp
  | h1 xs hxs ih => rw [chunks_of_ne_nil hn hxs, List.flatten_cons, ih, List.take_append_drop]

theorem length_le_of_mem_chunks {α : Type} {n : Nat} {xs c : List α} (hc : c ∈ chunks n xs) : c.length ≤ n := by
  unfold chunks at hc
  split at hc
  · simp at hc
  · obtain ⟨i, -, rfl⟩ := List.mem_map.1 hc
    exact List.length_take_le _ _

/-- Every run is whole if the runs come out even. -/
theorem length_eq_of_mem_chunks {α : Type} {n : Nat} (hn : 0 < n) {xs : List α} (hdvd : n ∣ xs.length) : ∀ c ∈ chunks n xs, c.length = n := by
  induction xs using chunks_induction hn with
  | h0 => simp
  | h1 xs hxs ih =>
    have hle : n ≤ xs.length := Nat.le_of_dvd (List.length_pos_iff.2 hxs) hdvd
    rw [chunks_of_ne_nil hn hxs]
    intro c hc
    rcases List.mem_cons.1 hc with rfl | hc
    · exact List.length_take_of_le hle
    · exact ih (by rw [List.length_drop]; exact Nat.dvd_sub hdvd (Nat.dvd_refl n)) c hc

theorem chunks_length {α : Type} {n : Nat} (hn : 0 < n) (xs : List α) : (chunks n xs).length = cdiv xs.length n := by
  unfold chunks
  rw [if_neg (by simpa using hn.ne'), List.length_map, List.length_range]

end Sys2Proof.Machine
end

section
/-! PROOF. The host link (O45). -/

namespace Sys2Proof.Machine

/-! ### Modules (R425) -/

@[simp] theorem setUcie_frame (s : State) (m : Nat) (u : Ucie) : keepsBut [.link] s (s.setUcie m u) := with_link_frame s _

theorem ucie_congr {s t : State} (h : t.link.modules = s.link.modules) (m : Nat) : t.ucie m = s.ucie m := by
  unfold State.ucie
  rw [h]

/-- The records that are stored for a module are its own. -/
theorem ucie_setUcie {s : State} {m : Nat} (hm : m < s.link.modules.length) (u : Ucie) : (s.setUcie m u).ucie m = u := by
  simp [State.setUcie, State.ucie, hm]

/-- A module that is not listed has the records of the start. -/
theorem ucie_setUcie_cases (s : State) (m : Nat) (u : Ucie) : (s.setUcie m u).ucie m = u ∨ (s.setUcie m u).ucie m = {} := by
  by_cases hm : m < s.link.modules.length
  · exact .inl (ucie_setUcie hm u)
  · refine .inr ?_
    unfold State.ucie State.setUcie
    rw [List.getD_eq_default _ _ (by simpa using hm)]

theorem linkRegs_frame (s : State) : keepsBut [.regs] s s.linkRegs := ((setReg_frame _ _ _).trans (setReg_frame _ _ _)).trans (setReg_frame _ _ _)

theorem linkRegs_regs (s : State) : regsBut [0xC00001, 0xC00003, 0xC00004] s s.linkRegs :=
  ((regsBut_setReg _ _ _).trans' (regsBut_setReg _ _ _) (ms := [0xC00001, 0xC00003]) (by simp) (by simp)).trans' (regsBut_setReg _ _ _) (by simp) (by simp)

/-- The state registers of the modules are not those of the link. -/
theorem moduleReg_ne {m : Nat} (hm : m < 4) : 0xC00101 + m ∉ [0xC00001, 0xC00003, 0xC00004] := by
  simp only [List.mem_cons, List.not_mem_nil, or_false, not_or]
  exact ⟨Nat.ne_of_gt (by omega), Nat.ne_of_gt (by omega), Nat.ne_of_gt (by omega)⟩

/-- The link is up while a module carries flits (R425). -/
theorem linkRegs_up {s : State} {m : Nat} (hm : m < 4) (hactive : s.reg (0xC00101 + m) ≤ 1) (herr : s.link.error = false) : s.linkRegs.reg 0xC00003 = 1 := by
  have hmem : s.reg (0xC00101 + m) ∈ ((List.range 4).map fun m => s.reg (0xC00101 + m)).filter (· ≤ 1) :=
    List.mem_filter.2 ⟨List.mem_map.2 ⟨m, List.mem_range.2 hm, rfl⟩, decide_eq_true hactive⟩
  unfold State.linkRegs
  dsimp only
  rw [State.reg_setReg_ne _ _ (by decide), State.reg_setReg_same, if_neg (by simp [herr]), if_pos (List.length_pos_of_mem hmem)]

/-- A module's retraining has ended: counted, its records and its state set (R425). -/
def State.retrained (s : State) (m fails st : Nat) : State :=
  ((s.bump 0xE0F004 1).setUcie m { s.ucie m with fails, rxDrop := false }).setReg (0xC00101 + m) st

section
variable (s : State) (m fails st : Nat)

theorem retrained_frame : keepsBut [.regs, .link, .counts] s (s.retrained m fails st) :=
  ((bump_frame s _ _).trans' (setUcie_frame _ _ _) (rs := [.link, .counts]) (by simp) (by simp)).trans' (setReg_frame _ _ _) (by simp) (by simp)

theorem retrained_regs : regsBut [0xC00101 + m] s (s.retrained m fails st) :=
  (((bump_frame s _ _).regsBut (by simp) _).trans ((setUcie_frame _ _ _).regsBut (by simp) _)).trans (regsBut_setReg _ _ _)

theorem retrained_cnt (k : Key) : (s.retrained m fails st).cnt k = s.cnt k + if k = 0xE0F004 then 1 else 0 := by
  unfold State.retrained
  rw [(setReg_frame _ _ _).cnt (by simp), (setUcie_frame _ _ _).cnt (by simp), State.cnt_bump]

theorem retrained_reg : (s.retrained m fails st).reg (0xC00101 + m) = st := State.reg_setReg_same _ _ _

variable {s m fails st}

theorem retrained_error (herr : s.link.error = false) : (s.retrained m fails st).link.error = false := by
  simpa [State.retrained, State.setUcie] using herr

theorem retrained_fails : (s.retrained m fails st).ucie m = { s.ucie m with fails, rxDrop := false } ∨ (s.retrained m fails st).ucie m = {} :=
  ucie_setUcie_cases (s.bump 0xE0F004 1) m { s.ucie m with fails, rxDrop := false }

end

/-- What the end of a retraining does before the link is reported (R425, R426). -/
def State.retrainEnd (s : State) (m : Nat) (r : RetrainEnd) : State :=
  if r.ok = true then (s.retrained m 0 (b2n r.repaired)).bump 0xE0F001 (s.ucie m).held
  else if s.reg 0xC00009 ≤ (s.ucie m).fails + 1 then ((s.retrained m ((s.ucie m).fails + 1) 3).bump 0xE0F005 1).score partHost 0 256
  else s.retrained m ((s.ucie m).fails + 1) 2

theorem retrainEnd_frame (s : State) (m : Nat) (r : RetrainEnd) : keepsBut [.regs, .link, .counts, .fault] s (s.retrainEnd m r) := by
  have hretrained (fails st : Nat) : keepsBut [.regs, .link, .counts, .fault] s (s.retrained m fails st) := (retrained_frame s m fails st).mono (by simp)
  unfold State.retrainEnd
  split
  · exact (hretrained _ _).trans ((bump_frame _ _ _).mono (by simp))
  · split
    · exact ((hretrained _ _).trans ((bump_frame _ _ _).mono (by simp))).trans ((score_frame _ _ _ _).mono (by simp))
    · exact hretrained _ _

theorem exec_retrain {s : State} {m : Nat} (r : RetrainEnd) (hrun : s.running = true) (hm : m < 4) (hon : s.reg (0xC00101 + m) ≠ 3)
    (herr : s.link.error = false) : exec (.ucieModuleRetrain m r) s = .next (s.retrainEnd m r).linkRegs := by
  have hf := (retrainEnd_frame s m r).trans' (linkRegs_frame _) (rs := [.regs, .link, .counts, .fault]) (List.Subset.refl _) (by simp)
  change execUcieModuleRetrain m r s = _
  unfold execUcieModuleRetrain
  refine live_kept hrun ?_ hf (by simp)
  rw [if_neg (by simp [hm, hon, herr])]
  obtain ⟨ok, repaired⟩ := r
  have hucie : (s.bump 0xE0F004 1).ucie m = s.ucie m := ucie_congr (by simp) m
  have hlimit (u : Ucie) : ((s.bump 0xE0F004 1).setUcie m u).reg 0xC00009 = s.reg 0xC00009 :=
    ((setUcie_frame _ _ _).reg (by simp) _).trans ((bump_frame _ _ _).reg (by simp) _)
  unfold State.retrainEnd
  simp only [hucie, hlimit]
  cases ok with
  | true =>
    by_cases hheld : 0 < (s.ucie m).held
    · simp [hheld, State.retrained]
    · have hnone : (s.ucie m).held = 0 := by omega
      simp [hnone, State.retrained]
  | false =>
    by_cases hout : s.reg 0xC00009 ≤ (s.ucie m).fails + 1
    · simp [hout, State.retrained]
    · simp [hout, State.retrained]

theorem exec_retrain_carries (s : State) (m : Nat) (rep : Bool) (hrun : s.running = true) (hm : m < 4) (hon : s.reg (0xC00101 + m) ≠ 3)
    (herr : s.link.error = false) :
    ∃ t, exec (.ucieModuleRetrain m ⟨true, rep⟩) s = .next t ∧ t.reg (0xC00101 + m) = (if rep = true then 1 else 0) ∧ (t.ucie m).fails = 0 ∧ t.reg 0xC00003 = 1 ∧
      t.cnt 0xE0F004 = s.cnt 0xE0F004 + 1 ∧ t.cnt 0xE0F001 = s.cnt 0xE0F001 + (s.ucie m).held ∧ keepsBut [.regs, .link, .counts] s t ∧
      regsBut [0xC00101 + m, 0xC00001, 0xC00003, 0xC00004] s t ∧ countsBut [0xE0F004, 0xE0F001] s t := by
  obtain ⟨a, ha⟩ : ∃ a, a = s.retrained m 0 (b2n rep) := ⟨_, rfl⟩
  have hfa := ha ▸ retrained_frame s m 0 (b2n rep)
  have hbump := bump_frame a 0xE0F001 (s.ucie m).held
  have hlink := linkRegs_frame (a.bump 0xE0F001 (s.ucie m).held)
  have hucie : (a.bump 0xE0F001 (s.ucie m).held).linkRegs.ucie m = a.ucie m :=
    ucie_congr (congrArg LinkS.modules ((hlink .link (by simp)).trans (hbump .link (by simp)))) m
  have hstate : (a.bump 0xE0F001 (s.ucie m).held).reg (0xC00101 + m) = b2n rep := by rw [hbump.reg (by simp), ha, retrained_reg]
  have hcount (k : Key) : (a.bump 0xE0F001 (s.ucie m).held).linkRegs.cnt k =
      s.cnt k + (if k = 0xE0F004 then 1 else 0) + if k = 0xE0F001 then (s.ucie m).held else 0 := by
    rw [hlink.cnt (by simp), State.cnt_bump, ha, retrained_cnt]
  refine ⟨_, exec_retrain ⟨true, rep⟩ hrun hm hon herr, ?_⟩
  rw [State.retrainEnd, if_pos rfl, ← ha]
  refine ⟨(linkRegs_regs _ _ (moduleReg_ne hm)).trans hstate, ?_, linkRegs_up hm ?_ ?_, hcount _, hcount _, ?_, ?_, fun k hk => ?_⟩
  · rw [hucie, ha]
    rcases retrained_fails (s := s) (m := m) (fails := 0) (st := b2n rep) with h | h
    · rw [h]
    · rw [h]
  · rw [hstate]
    cases rep <;> decide
  · rw [hbump .link (by simp), ha]
    exact retrained_error herr
  · exact (hfa.trans (hbump.mono (by simp))).trans (hlink.mono (by simp))
  · exact ((ha ▸ retrained_regs s m 0 (b2n rep)).trans (hbump.regsBut (by simp) _)).trans' (linkRegs_regs _) (by simp) (by simp)
  · simp only [List.mem_cons, List.not_mem_nil, or_false, not_or] at hk
    rw [hcount, if_neg hk.1, if_neg hk.2]
    rfl

/-- A module whose retraining fails is disabled, or goes on retraining: its state and what follows from it. -/
theorem failed_regs {s u : State} {m st : Nat} (hm : m < 4) (hu : keepsBut [.counts, .fault] (s.retrained m ((s.ucie m).fails + 1) st) u) :
    u.linkRegs.reg (0xC00101 + m) = st ∧ regsBut [0xC00101 + m, 0xC00001, 0xC00003, 0xC00004] s u.linkRegs :=
  ⟨(linkRegs_regs _ _ (moduleReg_ne hm)).trans ((hu.reg (by simp) _).trans (retrained_reg _ _ _ _)),
    ((retrained_regs s m _ st).trans (hu.regsBut (by simp) _)).trans' (linkRegs_regs _) (by simp) (by simp)⟩

theorem exec_retrain_disables (s : State) (m : Nat) (rep : Bool) (hrun : s.running = true) (hm : m < 4) (hon : s.reg (0xC00101 + m) ≠ 3)
    (herr : s.link.error = false) (hout : s.reg 0xC00009 ≤ (s.ucie m).fails + 1) :
    ∃ t, exec (.ucieModuleRetrain m ⟨false, rep⟩) s = .next t ∧ t.reg (0xC00101 + m) = 3 ∧ t.cnt 0xE0F004 = s.cnt 0xE0F004 + 1 ∧
      t.cnt 0xE0F005 = s.cnt 0xE0F005 + 1 ∧ keepsBut [.regs, .link, .counts, .fault] s t ∧
      regsBut [0xC00101 + m, 0xC00001, 0xC00003, 0xC00004] s t ∧ countsBut [0xE0F004, 0xE0F005] s t := by
  obtain ⟨a, ha⟩ : ∃ a, a = s.retrained m ((s.ucie m).fails + 1) 3 := ⟨_, rfl⟩
  have hscore := score_frame (a.bump 0xE0F005 1) partHost 0 256
  have hdown : keepsBut [.counts, .fault] a ((a.bump 0xE0F005 1).score partHost 0 256) := (bump_frame _ _ _).trans' hscore (by simp) (by simp)
  have hlink := linkRegs_frame ((a.bump 0xE0F005 1).score partHost 0 256)
  have hcount (k : Key) : ((a.bump 0xE0F005 1).score partHost 0 256).linkRegs.cnt k =
      s.cnt k + (if k = 0xE0F004 then 1 else 0) + if k = 0xE0F005 then 1 else 0 := by
    rw [hlink.cnt (by simp), hscore.cnt (by simp), State.cnt_bump, ha, retrained_cnt]
  obtain ⟨hstate, hregs⟩ := failed_regs (u := (a.bump 0xE0F005 1).score partHost 0 256) (st := 3) hm (by rw [← ha]; exact hdown)
  refine ⟨_, exec_retrain ⟨false, rep⟩ hrun hm hon herr, ?_⟩
  rw [State.retrainEnd, if_neg (by simp), if_pos hout, ← ha]
  refine ⟨hstate, hcount _, hcount _, ?_, hregs, fun k hk => ?_⟩
  · exact ((ha ▸ retrained_frame s m _ 3).trans' hdown (rs := [.regs, .link, .counts, .fault]) (by simp) (by simp)).trans (hlink.mono (by simp))
  · simp only [List.mem_cons, List.not_mem_nil, or_false, not_or] at hk
    rw [hcount, if_neg hk.1, if_neg hk.2]
    rfl

theorem exec_retrain_again (s : State) (m : Nat) (rep : Bool) (hrun : s.running = true) (hlen : m < s.link.modules.length) (hm : m < 4)
    (hon : s.reg (0xC00101 + m) ≠ 3) (herr : s.link.error = false) (hin : (s.ucie m).fails + 1 < s.reg 0xC00009) :
    ∃ t, exec (.ucieModuleRetrain m ⟨false, rep⟩) s = .next t ∧ t.reg (0xC00101 + m) = 2 ∧ (t.ucie m).fails = (s.ucie m).fails + 1 ∧
      t.cnt 0xE0F004 = s.cnt 0xE0F004 + 1 ∧ keepsBut [.regs, .link, .counts] s t ∧
      regsBut [0xC00101 + m, 0xC00001, 0xC00003, 0xC00004] s t ∧ countsBut [0xE0F004] s t := by
  obtain ⟨a, ha⟩ : ∃ a, a = s.retrained m ((s.ucie m).fails + 1) 2 := ⟨_, rfl⟩
  have hlink := linkRegs_frame a
  have hcount (k : Key) : a.linkRegs.cnt k = s.cnt k + if k = 0xE0F004 then 1 else 0 := by rw [hlink.cnt (by simp), ha, retrained_cnt]
  have hucie : a.ucie m = { s.ucie m with fails := (s.ucie m).fails + 1, rxDrop := false } :=
    ha ▸ ucie_setUcie (s := s.bump 0xE0F004 1) (by simpa using hlen) _
  obtain ⟨hstate, hregs⟩ := failed_regs (u := a) (st := 2) hm (by rw [← ha]; exact keepsBut_refl _ _)
  refine ⟨_, exec_retrain ⟨false, rep⟩ hrun hm hon herr, ?_⟩
  rw [State.retrainEnd, if_neg (by simp), if_neg (by omega), ← ha]
  refine ⟨hstate, ?_, hcount _, (ha ▸ retrained_frame s m _ 2).trans (hlink.mono (by simp)), hregs, fun k hk => ?_⟩
  · rw [ucie_congr (congrArg LinkS.modules (hlink .link (by simp))), hucie]
  · rw [hcount, if_neg (by simpa using hk)]
    rfl

/-! ### Flits (R426) -/

theorem hostAck_frame (s : State) (m e : Nat) : keepsBut [.link] s (s.hostAck m e) := by
  unfold State.hostAck
  dsimp only
  split
  · exact (setUcie_frame _ _ _).trans (with_link_frame _ _)
  · exact setUcie_frame _ _ _

/-- An acknowledgement sets what the module holds, and changes no record otherwise. -/
theorem hostAck_modules (s : State) (m e : Nat) :
    (s.hostAck m e).link.modules = (s.setUcie m { s.ucie m with held := hostHeld (s.ucie m) e }).link.modules := by
  unfold State.hostAck
  dsimp only
  split
  · rfl
  · rfl

theorem hostAck_ucie {s : State} {m : Nat} (hm : m < s.link.modules.length) (e : Nat) :
    (s.hostAck m e).ucie m = { s.ucie m with held := hostHeld (s.ucie m) e } :=
  (ucie_congr (hostAck_modules s m e) m).trans (ucie_setUcie hm _)

theorem hostAck_length (s : State) (m e : Nat) : (s.hostAck m e).link.modules.length = s.link.modules.length := by
  rw [hostAck_modules]
  simp [State.setUcie]

theorem exec_ucieFlit_taken (s : State) (m : Nat) (ok : Bool) (f : HostFlit) (hrun : s.running = true) (hup : s.moduleUp m = true)
    (hm : m < s.link.modules.length) (hok : ok = true) (hty : f.ty = 1) (hseq : f.seq % 4096 = (s.ucie m).rxSeq) :
    ∃ t, exec (.ucieFlit m ok f) s = .next t ∧
      t.ucie m = { s.ucie m with rxSeq := ((s.ucie m).rxSeq + 1) % 4096, rxDrop := false, held := hostHeld (s.ucie m) (f.ack + 1) } ∧
      t.cnt 0xE0F002 = s.cnt 0xE0F002 + 1 ∧ keepsBut [.link, .counts] s t ∧ countsBut [0xE0F002] s t := by
  obtain ⟨a, ha⟩ : ∃ a, a = (s.hostAck m (f.ack + 1)).setUcie m
    { (s.hostAck m (f.ack + 1)).ucie m with rxSeq := ((s.ucie m).rxSeq + 1) % 4096, rxDrop := false } := ⟨_, rfl⟩
  have hfa : keepsBut [.link] s a := ha ▸ (hostAck_frame s m _).trans (setUcie_frame _ _ _)
  have hf : keepsBut [.link, .counts] s (a.bump 0xE0F002 1) := hfa.trans' (bump_frame _ _ _) (by simp) (by simp)
  change ∃ t, execUcieFlit m ok f s = .next t ∧ _
  unfold execUcieFlit
  refine ⟨_, live_kept hrun ?_ hf (by simp), ?_, ?_, hf, (hfa.countsBut (by simp) _).trans (countsBut_bump _ _ _)⟩
  · simp [hup, hok, hty, hseq, ← ha]
  · rw [ucie_congr (congrArg LinkS.modules (bump_frame a 0xE0F002 1 .link (by simp))), ha, ucie_setUcie (hostAck_length s m _ ▸ hm), hostAck_ucie hm]
  · rw [State.cnt_bump_same, hfa.cnt (by simp)]

theorem exec_ucieFlit_idle (s : State) (m : Nat) (ok : Bool) (f : HostFlit) (hrun : s.running = true) (hup : s.moduleUp m = true)
    (hm : m < s.link.modules.length) (hok : ok = true) (hty : f.ty = 0) :
    ∃ t, exec (.ucieFlit m ok f) s = .next t ∧ t.ucie m = { s.ucie m with held := hostHeld (s.ucie m) (f.ack + 1) } ∧ keepsBut [.link] s t := by
  have hf := hostAck_frame s m (f.ack + 1)
  change ∃ t, execUcieFlit m ok f s = .next t ∧ _
  unfold execUcieFlit
  exact ⟨_, live_kept hrun (by simp [hup, hok, hty]) hf (by simp), hostAck_ucie hm _, hf⟩

theorem exec_ucieFlit_replays (s : State) (m : Nat) (ok : Bool) (f : HostFlit) (hrun : s.running = true) (hup : s.moduleUp m = true)
    (hm : m < s.link.modules.length) (hok : ok = true) (hty : f.ty = 2) :
    ∃ t, exec (.ucieFlit m ok f) s = .next t ∧ t.ucie m = { s.ucie m with held := hostHeld (s.ucie m) f.ack } ∧
      t.cnt 0xE0F001 = s.cnt 0xE0F001 + hostHeld (s.ucie m) f.ack ∧ keepsBut [.link, .counts] s t ∧ countsBut [0xE0F001] s t := by
  have hack := hostAck_frame s m f.ack
  have hheld : ((s.hostAck m f.ack).ucie m).held = hostHeld (s.ucie m) f.ack := by rw [hostAck_ucie hm]
  have hbump := bump_frame (s.hostAck m f.ack) 0xE0F001 (hostHeld (s.ucie m) f.ack)
  have hf : keepsBut [.link, .counts] s ((s.hostAck m f.ack).bump 0xE0F001 (hostHeld (s.ucie m) f.ack)) := hack.trans' hbump (by simp) (by simp)
  change ∃ t, execUcieFlit m ok f s = .next t ∧ _
  unfold execUcieFlit
  refine ⟨_, live_kept hrun ?_ hf (by simp), ?_, ?_, hf, (hack.countsBut (by simp) _).trans (countsBut_bump _ _ _)⟩
  · by_cases hnone : hostHeld (s.ucie m) f.ack = 0
    · simp [hup, hok, hty, hheld, hnone]
    · simp [hup, hok, hty, hheld, hnone]
  · rw [ucie_congr (congrArg LinkS.modules (hbump .link (by simp))), hostAck_ucie hm]
  · rw [State.cnt_bump_same, hack.cnt (by simp)]

/-- A discarded flit asks for a retry (R426). -/
def State.flitRetry (s : State) (m : Nat) : State := (s.setUcie m { s.ucie m with rxDrop := true, retries := (s.ucie m).retries + 1 }).bump 0xE0F003 1

/-- The module is to retrain (R425). -/
def State.flitRetrain (s : State) (m : Nat) : State := ((s.flitRetry m).setReg (0xC00101 + m) 2).linkRegs

theorem flitRetry_frame (s : State) (m : Nat) : keepsBut [.link, .counts] s (s.flitRetry m) :=
  (setUcie_frame _ _ _).trans' (bump_frame _ _ _) (by simp) (by simp)

theorem flitRetrain_after (s : State) (m : Nat) : keepsBut [.regs] (s.flitRetry m) (s.flitRetrain m) := (setReg_frame _ _ _).trans (linkRegs_frame _)

/-- What becomes of a module whose flit is discarded: one retry is asked for, and more than 16 in a frame retrain the module. -/
def State.flitDiscarded (s : State) (m : Nat) : State :=
  if (s.ucie m).rxDrop = true then s else if 16 ≤ (s.ucie m).retries then s.flitRetrain m else s.flitRetry m

theorem flitDiscarded_frame (s : State) (m : Nat) : keepsBut [.link, .counts, .regs] s (s.flitDiscarded m) := by
  have hretry := flitRetry_frame s m
  unfold State.flitDiscarded
  split
  · simp
  · split
    · exact hretry.trans' (flitRetrain_after s m) (by simp) (by simp)
    · exact hretry.mono (by simp)

theorem exec_ucieFlit_discards {s : State} {m : Nat} {ok : Bool} {f : HostFlit} (hrun : s.running = true) (hup : s.moduleUp m = true)
    (hwrong : ok = false ∨ (f.ty = 1 ∧ f.seq % 4096 ≠ (s.ucie m).rxSeq)) : exec (.ucieFlit m ok f) s = .next (s.flitDiscarded m) := by
  obtain ⟨hnotRetry, hnotIdle, hnotTaken⟩ :
      ¬(ok && f.ty == 2) = true ∧ ¬(ok && f.ty != 1) = true ∧ ¬(ok && f.seq % 4096 == (s.ucie m).rxSeq) = true := by
    rcases hwrong with hcrc | ⟨hty, hseq⟩
    · simp [hcrc]
    · simp [hty, hseq]
  have hmany : 16 < (s.ucie m).retries + 1 ↔ 16 ≤ (s.ucie m).retries := Nat.lt_succ_iff
  change execUcieFlit m ok f s = _
  unfold execUcieFlit
  refine live_kept hrun ?_ (flitDiscarded_frame s m) (by simp)
  rw [if_neg (by simp [hup]), if_neg hnotRetry, if_neg hnotIdle]
  simp only [if_neg hnotTaken, hmany]
  rfl

theorem exec_ucieFlit_retries (s : State) (m : Nat) (ok : Bool) (f : HostFlit) (hrun : s.running = true) (hup : s.moduleUp m = true)
    (hm : m < s.link.modules.length) (hwrong : ok = false ∨ (f.ty = 1 ∧ f.seq % 4096 ≠ (s.ucie m).rxSeq)) (hdrop : (s.ucie m).rxDrop = false) :
    ∃ t, exec (.ucieFlit m ok f) s = .next t ∧ t.ucie m = { s.ucie m with rxDrop := true, retries := (s.ucie m).retries + 1 } ∧
      t.cnt 0xE0F003 = s.cnt 0xE0F003 + 1 ∧ (16 ≤ (s.ucie m).retries → t.reg (0xC00101 + m) = 2) ∧
      ((s.ucie m).retries < 16 → keepsBut [.link, .counts] s t) ∧ keepsBut [.link, .counts, .regs] s t ∧ countsBut [0xE0F003] s t := by
  have hm4 : m < 4 := by
    unfold State.moduleUp at hup
    simp only [Bool.and_eq_true, decide_eq_true_eq] at hup
    exact hup.1.1
  have hset := setUcie_frame s m { s.ucie m with rxDrop := true, retries := (s.ucie m).retries + 1 }
  have hucie : (s.flitRetry m).ucie m = { s.ucie m with rxDrop := true, retries := (s.ucie m).retries + 1 } :=
    (ucie_congr (congrArg LinkS.modules (bump_frame _ 0xE0F003 1 .link (by simp))) m).trans (ucie_setUcie hm _)
  have hcount : (s.flitRetry m).cnt 0xE0F003 = s.cnt 0xE0F003 + 1 := (State.cnt_bump_same _ _ _).trans (congrArg (· + 1) (hset.cnt (by simp) _))
  have hcounts : countsBut [0xE0F003] s (s.flitRetry m) := (hset.countsBut (by simp) _).trans (countsBut_bump _ _ _)
  have hdiscarded : s.flitDiscarded m = if 16 ≤ (s.ucie m).retries then s.flitRetrain m else s.flitRetry m := if_neg (by simp [hdrop])
  have hf := flitDiscarded_frame s m
  refine ⟨_, exec_ucieFlit_discards hrun hup hwrong, ?_⟩
  rw [hdiscarded] at hf ⊢
  by_cases hmany : 16 ≤ (s.ucie m).retries
  · rw [if_pos hmany] at hf ⊢
    have hafter := flitRetrain_after s m
    exact ⟨(ucie_congr (congrArg LinkS.modules (hafter .link (by simp))) m).trans hucie, (hafter.cnt (by simp) _).trans hcount,
      fun _ => (linkRegs_regs _ _ (moduleReg_ne hm4)).trans (State.reg_setReg_same _ _ _), fun h => absurd hmany (by omega), hf,
      hcounts.trans (hafter.countsBut (by simp) _)⟩
  · rw [if_neg hmany] at hf ⊢
    exact ⟨hucie, hcount, fun h => absurd h hmany, fun _ => flitRetry_frame s m, hf, hcounts⟩

theorem exec_ucieFlit_dropped (s : State) (m : Nat) (ok : Bool) (f : HostFlit) (hrun : s.running = true) (hup : s.moduleUp m = true)
    (hwrong : ok = false ∨ (f.ty = 1 ∧ f.seq % 4096 ≠ (s.ucie m).rxSeq)) (hdrop : (s.ucie m).rxDrop = true) :
    exec (.ucieFlit m ok f) s = .next s := by
  rw [exec_ucieFlit_discards hrun hup hwrong, State.flitDiscarded, if_pos hdrop]

/-! ### Answers to the host (R428, R430) -/

/-- What an answer counts: a read or a write served, a poisoned completion, or a refusal. -/
def answerKey (op status : Nat) : Key := if status = 0 then (if op = 2 then 0xE0F006 else 0xE0F007) else if status = 3 then 0xE0F013 else 0xE0F008

theorem hostFlits_responses (s : State) (m n : Nat) : (s.hostFlits m n).link.responses = s.link.responses := by
  unfold State.hostFlits
  dsimp only
  rw [bump_frame _ _ _ .link (by simp)]
  rfl

theorem hostFlits_counts (s : State) (m n : Nat) : countsBut [0xE0F001] s (s.hostFlits m n) := by
  unfold State.hostFlits
  exact ((setUcie_frame _ _ _).countsBut (by simp) _).trans (countsBut_bump _ _ _)

/-- A response goes to the host, and its request is outstanding no more. -/
def State.answered (s : State) (x : HReq) : State :=
  { s with link := { s.link with
      responses := s.link.responses ++ [x]
      outstanding := s.link.outstanding.filter fun r => !(r.m == x.m && r.tag == x.tag) } }

theorem answered_frame (s : State) (x : HReq) : keepsBut [.link] s (s.answered x) := with_link_frame s _

section
variable (s : State) (m tag op status : Nat) (data : List Byte)

theorem hostAnswer_eq :
    s.hostAnswer m tag op status data = ((s.hostFlits m data.length).bump (answerKey op status) 1).answered ⟨m, tag, op, status, data, 0⟩ := by
  have hcounted : (if status == 0 then (s.hostFlits m data.length).bump (if op == 2 then 0xE0F006 else 0xE0F007) 1
      else (s.hostFlits m data.length).bump (if status == 3 then 0xE0F013 else 0xE0F008) 1) = (s.hostFlits m data.length).bump (answerKey op status) 1 := by
    unfold answerKey
    by_cases h : status = 0
    · simp [h]
    · simp [h]
  exact congrArg (fun u : State => u.answered ⟨m, tag, op, status, data, 0⟩) hcounted

theorem hostAnswer_responses : (s.hostAnswer m tag op status data).link.responses = s.link.responses ++ [⟨m, tag, op, status, data, 0⟩] := by
  rw [hostAnswer_eq, State.answered]
  dsimp only
  rw [bump_frame _ _ _ .link (by simp), hostFlits_responses]

theorem hostAnswer_counts : countsBut [answerKey op status, 0xE0F001] s (s.hostAnswer m tag op status data) := by
  rw [hostAnswer_eq]
  exact ((hostFlits_counts _ _ _).trans' (countsBut_bump _ _ _) (by simp) (by simp)).keep (answered_frame _ _) (by simp)

theorem answerKey_ne : answerKey op status ≠ 0xE0F001 := by
  unfold answerKey
  split_ifs <;> decide

theorem hostAnswer_counted : (s.hostAnswer m tag op status data).cnt (answerKey op status) = s.cnt (answerKey op status) + 1 := by
  rw [hostAnswer_eq, (answered_frame _ _).cnt (by simp), State.cnt_bump_same, hostFlits_counts _ _ _ _ (by simpa using answerKey_ne op status)]

end

/-! ### The checks of a request (R430, R474) -/

/-- What the checks of a host request answer: status 1, 2 or 4, or the aperture of one that has 8 bytes at least. -/
theorem hostCheck_cases (s : State) (addr len : Nat) (write : Bool) :
    (∃ st, s.hostCheck addr len write = .error st ∧ (st = 1 ∨ st = 2 ∨ st = 4)) ∨ ∃ a, s.hostCheck addr len write = .ok a ∧ 8 ≤ len := by
  unfold State.hostCheck
  dsimp only
  split
  · exact .inl ⟨1, rfl, .inl rfl⟩
  · rename_i a _
    generalize (if write = true then a.write else a.read) = allowed
    generalize (if (addr / 2 ^ 48 == 0) = true then 8 else 16) = unit
    split
    · exact .inl ⟨1, rfl, .inl rfl⟩
    · split
      · exact .inl ⟨2, rfl, .inr (.inl rfl)⟩
      · split
        · exact .inl ⟨4, rfl, .inr (.inr rfl)⟩
        · rename_i hform
          simp only [Bool.or_eq_true, decide_eq_true_eq, not_or] at hform
          exact .inr ⟨a, rfl, by omega⟩

theorem hostCheck_error {s : State} {addr len st : Nat} {write : Bool} (h : s.hostCheck addr len write = .error st) : st = 1 ∨ st = 2 ∨ st = 4 := by
  rcases hostCheck_cases s addr len write with ⟨st', h', hst⟩ | ⟨a, h', -⟩
  · cases h.symm.trans h'
    exact hst
  · cases h.symm.trans h'

theorem hostCheck_ok {s : State} {addr len : Nat} {write : Bool} {a : Aperture} (h : s.hostCheck addr len write = .ok a) : 8 ≤ len := by
  rcases hostCheck_cases s addr len write with ⟨st, h', -⟩ | ⟨a', -, hlen⟩
  · cases h.symm.trans h'
  · exact hlen

theorem answerKey_refusal {st : Nat} (op : Nat) (h : st = 1 ∨ st = 2 ∨ st = 4) : answerKey op st = 0xE0F008 := by
  rcases h with rfl | rfl | rfl
  · rfl
  · rfl
  · rfl

/-- A request that is refused is answered with its status, and counted (R430). -/
theorem hostAnswer_refuses (s : State) (m tag op : Nat) (data : List Byte) {st : Nat} (h : st = 1 ∨ st = 2 ∨ st = 4) :
    (s.hostAnswer m tag op st data).cnt 0xE0F008 = s.cnt 0xE0F008 + 1 ∧ countsBut [0xE0F008, 0xE0F001] s (s.hostAnswer m tag op st data) := by
  have hkey := answerKey_refusal op h
  have hcount := hostAnswer_counted s m tag op st data
  have hcounts := hostAnswer_counts s m tag op st data
  rw [hkey] at hcount hcounts
  exact ⟨hcount, hcounts⟩

/-! ### Host reads (R302, R428) -/

theorem exec_hostRead_refused (s : State) (m addr len tag st : Nat) (bad again : Bool) (hrun : s.running = true) (hup : s.moduleUp m = true)
    (hcheck : s.hostCheck addr len false = .error st) :
    ∃ t, exec (.hostRead m addr len tag bad again) s = .next t ∧ t.link.responses = s.link.responses ++ [⟨m, tag, 2, st, List.replicate len 0xFF#8, 0⟩] ∧
      t.cnt 0xE0F008 = s.cnt 0xE0F008 + 1 ∧ keepsBut [.link, .counts] s t ∧ countsBut [0xE0F008, 0xE0F001] s t := by
  have hf := (hostAnswer_linkOnly s m tag 2 st (List.replicate len 0xFF#8)).1
  obtain ⟨hcount, hcounts⟩ := hostAnswer_refuses s m tag 2 (List.replicate len 0xFF#8) (hostCheck_error hcheck)
  change ∃ t, execHostRead m addr len tag bad again s = .next t ∧ _
  unfold execHostRead
  exact ⟨_, live_kept hrun (by simp [hup, hcheck]) hf (by simp), hostAnswer_responses _ _ _ _ _ _, hcount, hf, hcounts⟩

/-- A read that is allowed reads its bytes, and answers with them or as poisoned. -/
theorem exec_hostRead_allowed {s u : State} {m addr len tag : Nat} {bad again : Bool} {a : Aperture} {ps : List Part} (hrun : s.running = true)
    (hup : s.moduleUp m = true) (hcheck : s.hostCheck addr len false = .ok a)
    (hu : u = let r := s.readLine a.tenant (a.base + addr % 2 ^ 48) len bad again
      if r.2 = true then r.1.hostAnswer m tag 2 3 (List.replicate len 0xFF#8)
      else r.1.hostAnswer m tag 2 0 (let bs := r.1.load a.tenant (a.base + addr % 2 ^ 48) len
        if a.tenant = systemTenant then bs else linkCipher Config.xtsSeal (r.1.hostKey a.tenant) (a.base + addr % 2 ^ 48) bs))
    (hf : keepsBut ps s u) (hp : Part.pending ∉ ps) : exec (.hostRead m addr len tag bad again) s = .next u := by
  change execHostRead m addr len tag bad again s = _
  unfold execHostRead
  refine live_kept hrun ?_ hf hp
  rw [if_neg (by simp [hup]), hu]
  simp [hcheck]

theorem exec_hostRead_poisoned (s : State) (m addr len tag : Nat) (bad again : Bool) (a : Aperture) (hrun : s.running = true) (hup : s.moduleUp m = true)
    (hcheck : s.hostCheck addr len false = .ok a)
    (hbad : s.poisoned a.tenant (a.base + addr % 2 ^ 48) len = true ∨ (bad = true ∧ again = true)) :
    ∃ t, exec (.hostRead m addr len tag bad again) s = .next t ∧ t.link.responses = s.link.responses ++ [⟨m, tag, 2, 3, List.replicate len 0xFF#8, 0⟩] ∧
      t.cnt 0xE0F013 = s.cnt 0xE0F013 + 1 ∧ keepsBut [.link, .counts, .fault, .poison, .tier] s t := by
  obtain ⟨b, hb⟩ : ∃ b, b = (s.readLine a.tenant (a.base + addr % 2 ^ 48) len bad again).1 := ⟨_, rfl⟩
  have hread : keepsBut [.counts, .fault, .poison, .tier] s b := hb ▸ readLine_frame s _ _ _ bad again
  have hcount := hostAnswer_counted b m tag 2 3 (List.replicate len 0xFF#8)
  have hf : keepsBut [.link, .counts, .fault, .poison, .tier] s (b.hostAnswer m tag 2 3 (List.replicate len 0xFF#8)) :=
    hread.trans' (hostAnswer_linkOnly b m tag 2 3 _).1 (by simp) (by simp)
  refine ⟨_, exec_hostRead_allowed hrun hup hcheck ?_ hf (by simp), ?_, hcount.trans (congrArg (· + 1) ?_), hf⟩
  · simp only [readLine_poisoned hbad, if_true, hb]
  · rw [hostAnswer_responses, hread .link (by simp)]
  · exact hb ▸ readLine_counts s _ _ _ bad again _ (by decide)

/-- A tenant's host-link key comes from what the security block and the registers hold (R455). -/
theorem hostKey_congr {s t : State} (hsec : t.sec = s.sec) (hregs : t.regs = s.regs) (n : Nat) : t.hostKey n = s.hostKey n := by
  unfold State.hostKey State.rootKey State.tenantPrk State.node
  simp only [hsec, State.reg_congr hregs]

theorem exec_hostRead_reads (s : State) (m addr len tag : Nat) (bad again : Bool) (a : Aperture) (hrun : s.running = true) (hup : s.moduleUp m = true)
    (hcheck : s.hostCheck addr len false = .ok a) (hp : s.poisoned a.tenant (a.base + addr % 2 ^ 48) len = false) (hread : bad = false ∨ again = false) :
    ∃ t d, exec (.hostRead m addr len tag bad again) s = .next t ∧ t.link.responses = s.link.responses ++ [⟨m, tag, 2, 0, d, 0⟩] ∧
      d = (let bs := s.load a.tenant (a.base + addr % 2 ^ 48) len
           if a.tenant = systemTenant then bs else linkCipher Config.xtsSeal (s.hostKey a.tenant) (a.base + addr % 2 ^ 48) bs) ∧
      t.cnt 0xE0F006 = s.cnt 0xE0F006 + 1 ∧ keepsBut [.link, .counts, .fault] s t ∧
      (bad = false → keepsBut [.link, .counts] s t ∧ countsBut [0xE0F006, 0xE0F001] s t) := by
  obtain ⟨hok, hfr, hsame⟩ := readLine_read hp hread
  have hcr := readLine_counts s a.tenant (a.base + addr % 2 ^ 48) len bad again
  obtain ⟨b, hb⟩ : ∃ b, b = (s.readLine a.tenant (a.base + addr % 2 ^ 48) len bad again).1 := ⟨_, rfl⟩
  obtain ⟨d, hd⟩ : ∃ d, d = (let bs := s.load a.tenant (a.base + addr % 2 ^ 48) len
    if a.tenant = systemTenant then bs else linkCipher Config.xtsSeal (s.hostKey a.tenant) (a.base + addr % 2 ^ 48) bs) := ⟨_, rfl⟩
  rw [← hb] at hfr hsame hcr
  have hanswer := (hostAnswer_linkOnly b m tag 2 0 d).1
  have hcount := hostAnswer_counted b m tag 2 0 d
  have hcounts := hostAnswer_counts b m tag 2 0 d
  have hf : keepsBut [.link, .counts, .fault] s (b.hostAnswer m tag 2 0 d) := hfr.trans' hanswer (by simp) (by simp)
  refine ⟨_, d, exec_hostRead_allowed hrun hup hcheck ?_ hf (by simp), ?_, hd, hcount.trans (congrArg (· + 1) (hcr _ (by decide))), hf, fun hbad => ?_⟩
  · simp only [hok, ← hb, State.load_congr (hfr .mem (by simp)), hostKey_congr (hfr .sec (by simp)) (hfr .regs (by simp)), ← hd, Bool.false_eq_true, if_false]
  · rw [hostAnswer_responses, hfr .link (by simp)]
  · rw [hsame hbad] at hanswer hcounts ⊢
    exact ⟨hanswer, hcounts⟩

/-! ### Host writes (R296, R428) -/

theorem exec_hostWrite_refused (s : State) (m addr tag st : Nat) (data : List Byte) (hrun : s.running = true) (hup : s.moduleUp m = true)
    (hcheck : s.hostCheck addr data.length true = .error st) :
    ∃ t, exec (.hostWrite m addr data tag) s = .next t ∧ t.link.responses = s.link.responses ++ [⟨m, tag, 4, st, [], 0⟩] ∧
      t.cnt 0xE0F008 = s.cnt 0xE0F008 + 1 ∧ keepsBut [.link, .counts] s t ∧ countsBut [0xE0F008, 0xE0F001] s t := by
  have hf := (hostAnswer_linkOnly s m tag 4 st []).1
  obtain ⟨hcount, hcounts⟩ := hostAnswer_refuses s m tag 4 [] (hostCheck_error hcheck)
  change ∃ t, execHostWrite m addr data tag s = .next t ∧ _
  unfold execHostWrite
  exact ⟨_, live_kept hrun (by simp [hup, hcheck]) hf (by simp), hostAnswer_responses _ _ _ _ _ _, hcount, hf, hcounts⟩

/-- The data of a host write as its tenant sends them (R473). -/
def State.hostData (s : State) (tenant addr : Nat) (data : List Byte) : List Byte :=
  if tenant = systemTenant then data else linkCipher Config.xtsOpen (s.hostKey tenant) addr data

/-- A host request is outstanding while its write waits (R296). -/
def State.hostWaits (s : State) (x : HReq) : State := { s with link := { s.link with outstanding := s.link.outstanding ++ [x] } }

/-- A write that is allowed waits for its page to move, or is done and answered. -/
theorem exec_hostWrite_allowed {s u : State} {m addr l tag : Nat} {data bs : List Byte} {a : Aperture} {ps : List Part} (hrun : s.running = true)
    (hup : s.moduleUp m = true) (hcheck : s.hostCheck addr data.length true = .ok a) (hl : l = a.base + addr % 2 ^ 48) (hbs : bs = s.hostData a.tenant l data)
    (hu : u = if s.rangeMoving a.tenant l bs.length = true then
        (s.hostWaits { m, tag, op := 3, status := 0, data := [], addr }).waitMove { tenant := a.tenant, addr := l, data := bs, host := some (m, tag), peer := none }
      else (s.memWrite a.tenant l bs).hostAnswer m tag 4 0 [])
    (hf : keepsBut ps s u) (hp : Part.pending ∉ ps) : exec (.hostWrite m addr data tag) s = .next u := by
  change execHostWrite m addr data tag s = _
  unfold execHostWrite
  refine live_kept hrun ?_ hf hp
  rw [if_neg (by simp [hup]), hu, hbs, hl]
  simp only [hcheck, State.hostData, beq_iff_eq]
  rfl

theorem exec_hostWrite_waits (s : State) (m addr tag : Nat) (data : List Byte) (a : Aperture) (hrun : s.running = true) (hup : s.moduleUp m = true)
    (hcheck : s.hostCheck addr data.length true = .ok a) (hsys : a.tenant = systemTenant)
    (hmove : s.rangeMoving a.tenant (a.base + addr % 2 ^ 48) data.length = true) :
    ∃ t, exec (.hostWrite m addr data tag) s = .next t ∧
      t.tier.waits = s.tier.waits ++ [{ tenant := a.tenant, addr := a.base + addr % 2 ^ 48, data := data, host := some (m, tag), peer := none }] ∧
      t.link.responses = s.link.responses ∧ (∃ r ∈ t.link.outstanding, r.m = m ∧ r.tag = tag ∧ r.op = 3) ∧ t.cnt 0xE0A012 = s.cnt 0xE0A012 + 1 ∧
      keepsBut [.link, .tier, .counts] s t ∧ countsBut [0xE0A012] s t := by
  obtain ⟨x, hx⟩ : ∃ x : HReq, x = { m, tag, op := 3, status := 0, data := [], addr } := ⟨_, rfl⟩
  obtain ⟨w, hw⟩ : ∃ w : MWait, w = { tenant := a.tenant, addr := a.base + addr % 2 ^ 48, data := data, host := some (m, tag), peer := none } := ⟨_, rfl⟩
  have hout : keepsBut [.link] s (s.hostWaits x) := with_link_frame s _
  have hwait := waitMove_frame (s.hostWaits x) w
  have hlink : ((s.hostWaits x).waitMove w).link = (s.hostWaits x).link := hwait .link (by simp)
  have hf : keepsBut [.link, .tier, .counts] s ((s.hostWaits x).waitMove w) := hout.trans' hwait (by simp) (by simp)
  refine ⟨_, exec_hostWrite_allowed hrun hup hcheck rfl (if_pos hsys).symm ?_ hf (by simp), ?_, ?_, ⟨x, ?_, ?_⟩, ?_, hf,
    (hout.countsBut (by simp) _).trans (waitMove_counts _ w)⟩
  · rw [if_pos hmove, hx, hw]
  · rw [waitMove_tier, hout .tier (by simp), hw]
  · rw [hlink]
    rfl
  · rw [hlink]
    exact List.mem_append_right _ (List.mem_singleton.2 rfl)
  · rw [hx]
    exact ⟨rfl, rfl, rfl⟩
  · rw [waitMove_counted, hout.cnt (by simp)]

/-! ### The link cipher keeps the length (R473) -/

theorem unit16_length (bs : List Byte) : (unit16 bs).length = 16 := by simp [unit16]

theorem linkCipher_length (f : List Byte → Nat → List Byte → List Byte) (k : List Byte) (addr : Nat) (bs : List Byte) :
    (linkCipher f k addr bs).length = bs.length := by
  have hunits (l : List (List Byte)) (j : Nat) (h : ∀ c ∈ l, c.length ≤ 16) :
      ((l.zipIdx j).flatMap fun (c, i) => (unit16 (f k (addr / 16 + i) c)).take c.length).length = l.flatten.length := by
    induction l generalizing j with
    | nil => rfl
    | cons c l ih =>
      have hc := h c (by simp)
      rw [List.zipIdx_cons, List.flatMap_cons, List.length_append, ih _ fun x hx => h x (by simp [hx]), List.flatten_cons, List.length_append, List.length_take,
        unit16_length, Nat.min_eq_left hc]
  unfold linkCipher
  rw [hunits _ 0 fun c => length_le_of_mem_chunks, chunks_flatten (by decide)]

theorem hostData_length (s : State) (tenant addr : Nat) (data : List Byte) : (s.hostData tenant addr data).length = data.length := by
  unfold State.hostData
  split
  · rfl
  · exact linkCipher_length _ _ _ _

theorem exec_hostWrite_writes (s : State) (m addr tag : Nat) (data : List Byte) (a : Aperture) (hrun : s.running = true) (hmem : s.memOk = true)
    (hup : s.moduleUp m = true) (hcheck : s.hostCheck addr data.length true = .ok a)
    (hmove : s.rangeMoving a.tenant (a.base + addr % 2 ^ 48) data.length = false)
    (hfailed : s.rangeFailed a.tenant (a.base + addr % 2 ^ 48) data.length = false) :
    ∃ t, exec (.hostWrite m addr data tag) s = .next t ∧
      t.load a.tenant (a.base + addr % 2 ^ 48) data.length =
        (if a.tenant = systemTenant then data else linkCipher Config.xtsOpen (s.hostKey a.tenant) (a.base + addr % 2 ^ 48) data) ∧
      (∀ k, (k < memKey a.tenant (a.base + addr % 2 ^ 48) ∨ memKey a.tenant (a.base + addr % 2 ^ 48) + data.length ≤ k) →
        Memory.get t.mem k = Memory.get s.mem k) ∧
      t.link.responses = s.link.responses ++ [⟨m, tag, 4, 0, [], 0⟩] ∧ t.cnt 0xE0F007 = s.cnt 0xE0F007 + 1 ∧
      keepsBut [.mem, .poison, .tier, .link, .counts, .fault] s t := by
  obtain ⟨l, hl⟩ : ∃ l, l = a.base + addr % 2 ^ 48 := ⟨_, rfl⟩
  obtain ⟨bs, hbs⟩ : ∃ bs, bs = s.hostData a.tenant l data := ⟨_, rfl⟩
  have hlen : bs.length = data.length := hbs ▸ hostData_length s a.tenant l data
  have hne : bs ≠ [] := List.ne_nil_of_length_pos (by have := hostCheck_ok hcheck; omega)
  rw [← hl] at hmove hfailed ⊢
  rw [← hlen] at hmove hfailed
  have hwrite := memWrite_frame hne hfailed
  obtain ⟨b, hb⟩ : ∃ b, b = s.memWrite a.tenant l bs := ⟨_, rfl⟩
  have hanswer := (hostAnswer_linkOnly b m tag 4 0 []).1
  have hsame : (b.hostAnswer m tag 4 0 []).mem = b.mem := hanswer .mem (by simp)
  have hf : keepsBut [.mem, .poison, .tier, .link, .counts, .fault] s (b.hostAnswer m tag 4 0 []) := (hb ▸ hwrite).trans' hanswer (by simp) (by simp)
  refine ⟨_, exec_hostWrite_allowed hrun hup hcheck hl hbs ?_ hf (by simp), ?_, fun k hk => ?_, ?_, ?_, hf⟩
  · rw [if_neg (by simp [hmove]), hb]
  · rw [State.load_congr hsame, hb, ← hlen]
    exact (load_memWrite hne hfailed hmem).trans hbs
  · rw [hsame, hb]
    exact get_memWrite_out hne hfailed (hlen ▸ hk)
  · rw [hostAnswer_responses, hb, hwrite .link (by simp)]
  · refine (hostAnswer_counted b m tag 4 0 []).trans (congrArg (· + 1) ?_)
    exact hb ▸ memWrite_counts hne hfailed _ (by decide)

/-! ### Host memory and peaks (R422, R431) -/

theorem exec_hostMemoryCompletion_ends (s : State) (r : HReq) (data : List Byte) (hrun : s.running = true) (_hr : r ∈ s.link.toHost)
    (hmine : r.op = 3 ∨ (r.op = 1 ∧ data ≠ [])) :
    ∃ t, exec (.hostMemoryCompletion r.tag data) s = .next t ∧ r ∉ t.link.toHost ∧ (∀ q ∈ s.link.toHost, q.tag ≠ r.tag → q ∈ t.link.toHost) ∧
      keepsBut [.link] s t := by
  change ∃ t, execHostMemoryCompletion r.tag data s = .next t ∧ _
  unfold execHostMemoryCompletion
  refine ⟨_, live_kept hrun rfl (with_link_frame s _) (by simp), fun h => ?_, fun q hq hne => ?_, with_link_frame s _⟩
  · have hother := (List.mem_filter.1 h).2
    rcases hmine with hop | ⟨hop, hdata⟩
    · simp [hop] at hother
    · simp [hop, hdata] at hother
  · exact List.mem_filter.2 ⟨hq, by simp [hne]⟩

theorem exec_clearPeaks_one (s : State) (hrun : s.running = true) :
    ∃ t, exec (.clearPeaks 1) s = .next t ∧ (∀ k, pagedKey 0xB280 0 ≤ k → k < pagedKey 0xB2A8 0 → t.reg k = dfltOf k) ∧
      (∀ k, (k < pagedKey 0xB280 0 ∨ pagedKey 0xB2A8 0 ≤ k) → t.reg k = s.reg k) ∧ keepsBut [.regs] s t := by
  obtain ⟨rs, hrs⟩ : ∃ rs, rs = s.regs.filter fun r => !(pagedKey 0xB280 0 ≤ r.1 && r.1 < pagedKey 0xB2A8 0) := ⟨_, rfl⟩
  have hreg (k : Key) : ({ s with regs := rs } : State).reg k = if !(pagedKey 0xB280 0 ≤ k && k < pagedKey 0xB2A8 0) then s.reg k else dfltOf k := by
    unfold State.reg
    rw [hrs, lk_filter_key s.regs fun k => !(pagedKey 0xB280 0 ≤ k && k < pagedKey 0xB2A8 0)]
    split
    · rfl
    · rfl
  change ∃ t, execClearPeaks 1 s = .next t ∧ _
  unfold execClearPeaks
  refine ⟨{ s with regs := rs }, live_kept hrun (by rw [hrs]; rfl) (with_regs_frame s rs) (by simp), fun k hlo hhi => ?_, fun k hout => ?_, with_regs_frame s rs⟩
  · rw [hreg, if_neg (by simp [hlo, hhi])]
  · rw [hreg, if_pos]
    rcases hout with h | h
    · simp [Nat.not_le.2 h]
    · simp [Nat.not_lt.2 h]

/-- Settles O45: a lemma for each clause; a write rests on what a write to memory stores (`load_memWrite`), a read on what a line reads (`readLine_read`). -/
theorem theHostLinkServes : Obligations.TheHostLinkServes := by
  unfold Obligations.TheHostLinkServes
  exact ⟨exec_retrain_carries, exec_retrain_disables, exec_retrain_again, exec_ucieFlit_taken, exec_ucieFlit_idle, exec_ucieFlit_replays, exec_ucieFlit_retries,
    exec_ucieFlit_dropped, exec_hostRead_reads, exec_hostRead_poisoned, exec_hostRead_refused, exec_hostWrite_refused, exec_hostWrite_waits, exec_hostWrite_writes,
    exec_hostMemoryCompletion_ends, exec_clearPeaks_one⟩

end Sys2Proof.Machine
end

section
/-! PROOF. Packed blocks and map entries (O29). A sparse form is a mask of pieces and those that are not zero; a mask is read back bit by bit, as in O55. -/

namespace Sys2Proof.Machine

/-! ### Bits in bytes (R85) -/

/-- A byte of a mask is the number whose digits are its bits. -/
theorem packBits_one (cs : List Nat) : packBits 1 cs = (chunks 8 cs).map fun c => BitVec.ofNat 8 (Nat.ofDigits 2 c) := by
  rw [packBits_narrow cs (by decide), chunks, if_neg (by decide), List.map_map]
  rfl

theorem packBits_one_length {cs : List Nat} {k : Nat} (h : cs.length = 8 * k) : (packBits 1 cs).length = k := by
  rw [packBits_one, List.length_map, chunks_length (by decide), h]
  unfold cdiv
  omega

/-- Eight bits are read back from their byte. -/
theorem byte_digits {c : List Nat} (hlen : c.length = 8) (hc : ∀ x ∈ c, x < 2) :
    ((List.range (8 / 1)).map fun i => (BitVec.ofNat 8 (Nat.ofDigits 2 c)).toNat / 2 ^ (i * 1) % 2 ^ 1) = c := by
  have hlt : Nat.ofDigits 2 c < 2 ^ 8 := hlen ▸ Nat.ofDigits_lt_base_pow_length (by decide) hc
  refine List.ext_getElem (by simp [hlen]) fun i _ hi => ?_
  rw [List.getElem_map, List.getElem_range, BitVec.toNat_ofNat, Nat.mod_eq_of_lt hlt, Nat.mul_one, Nat.pow_one, ofDigits_digit (by decide) hc,
    List.getD_eq_getElem _ _ hi]

theorem unpackBits_packBits_one {cs : List Nat} (hlen : 8 ∣ cs.length) (hcs : ∀ c ∈ cs, c < 2) : unpackBits 1 (packBits 1 cs) = cs := by
  have hmem : ∀ c ∈ chunks 8 cs, ∀ x ∈ c, x < 2 := fun c hc x hx => hcs x (by
    rw [← chunks_flatten (n := 8) (by decide) cs]
    exact List.mem_flatten_of_mem hc hx)
  have hback : ∀ c ∈ chunks 8 cs, ((List.range (8 / 1)).map fun i => (BitVec.ofNat 8 (Nat.ofDigits 2 c)).toNat / 2 ^ (i * 1) % 2 ^ 1) = c := fun c hc =>
    byte_digits (length_eq_of_mem_chunks (by decide) hlen c hc) (hmem c hc)
  unfold unpackBits
  rw [if_neg (by decide), packBits_one, List.flatMap_map, List.flatMap_def, List.map_congr_left hback, List.map_id', chunks_flatten (by decide)]

/-! ### Sparse forms (R292) -/

/-- Is a piece not all zero? -/
def pieceSet (w : List Byte) : Bool := w.any (· != 0)

/-- A sparse form: the mask of its pieces, and those that are set. -/
def sparseForm (ws : List (List Byte)) : List Byte := packBits 1 (ws.map fun w => b2n (pieceSet w)) ++ (ws.filter pieceSet).flatMap fun w => w

theorem wordSparse_eq (bs : List Byte) : wordSparse bs = sparseForm (chunks 8 bs) := rfl

theorem byteSparse_eq (bs : List Byte) : byteSparse bs = sparseForm (bs.map fun b => [b]) := by
  have hset (b : Byte) : pieceSet [b] = (b != 0) := by simp [pieceSet]
  unfold byteSparse sparseForm
  rw [List.map_map, List.filter_map, List.flatMap_map]
  simp [Function.comp_def, hset]

/-- A piece that is not set is zero. -/
theorem eq_replicate_of_not_set {w : List Byte} (h : pieceSet w = false) : w = List.replicate w.length 0 :=
  List.eq_replicate_iff.2 ⟨rfl, fun b hb => by simpa using List.any_eq_false.1 h b hb⟩

/-- A mask undone gives the pieces back, whatever follows them. -/
theorem unmask_pieces {n : Nat} {ws : List (List Byte)} (hws : ∀ w ∈ ws, w.length = n) (rest : List Byte) :
    unmask n (ws.map fun w => b2n (pieceSet w)) (((ws.filter pieceSet).flatMap fun w => w) ++ rest) = ws.flatten := by
  induction ws with
  | nil => rfl
  | cons w ws ih =>
    have hw : w.length = n := hws w (by simp)
    have hrest := ih fun x hx => hws x (by simp [hx])
    cases hset : pieceSet w with
    | true =>
      rw [List.map_cons, hset, List.filter_cons_of_pos hset, List.flatMap_cons, List.append_assoc, List.flatten_cons]
      simp only [unmask, b2n, if_true, beq_self_eq_true]
      rw [List.take_left' hw, List.drop_left' hw]
      exact congrArg (w ++ ·) hrest
    | false =>
      rw [List.map_cons, hset, List.filter_cons_of_neg (by simp [hset]), List.flatten_cons]
      have hzero : w = List.replicate n 0 := hw ▸ eq_replicate_of_not_set hset
      conv_rhs => rw [hzero]
      exact congrArg (List.replicate n (0 : Byte) ++ ·) hrest

/-- A padded sparse form of 8 k pieces is undone from a mask of k bytes. -/
theorem unmask_sparseForm {n k : Nat} {ws : List (List Byte)} (hws : ∀ w ∈ ws, w.length = n) (hk : ws.length = 8 * k) (pad : List Byte) :
    unmask n (unpackBits 1 ((sparseForm ws ++ pad).take k)) ((sparseForm ws ++ pad).drop k) = ws.flatten := by
  have hmask : (ws.map fun w => b2n (pieceSet w)).length = 8 * k := by rw [List.length_map, hk]
  have hbytes := packBits_one_length hmask
  have hbits : ∀ c ∈ ws.map fun w => b2n (pieceSet w), c < 2 := by
    intro c hc
    obtain ⟨w, -, rfl⟩ := List.mem_map.1 hc
    cases pieceSet w <;> decide
  rw [sparseForm, List.append_assoc, List.take_left' hbytes, List.drop_left' hbytes, unpackBits_packBits_one ⟨k, hmask⟩ hbits, unmask_pieces hws]

theorem unpackBlock_wordSparse {bs : List Byte} (h : bs.length = 4096) : unpackBlock 4096 2 (pad64 (wordSparse bs)) = bs := by
  have hwords : (chunks 8 bs).length = 8 * 64 := by
    rw [chunks_length (by decide), h]
    rfl
  rw [wordSparse_eq]
  exact (unmask_sparseForm (length_eq_of_mem_chunks (by decide) ⟨512, h⟩) hwords _).trans (chunks_flatten (by decide) bs)

theorem unpackBlock_byteSparse {bs : List Byte} (h : bs.length = 4096) : unpackBlock 4096 3 (pad64 (byteSparse bs)) = bs := by
  rw [byteSparse_eq]
  refine Eq.trans (unmask_sparseForm (k := 512) ?_ (by rw [List.length_map, h]) _) ?_
  · intro w hw
    obtain ⟨b, -, rfl⟩ := List.mem_map.1 hw
    rfl
  · rw [← List.flatMap_def, List.flatMap_singleton']

/-! ### Blocks (R292) -/

theorem pad64_length (bs : List Byte) : (pad64 bs).length % 64 = 0 := by
  have hle : bs.length ≤ up64 bs.length := by
    unfold up64 cdiv
    omega
  rw [pad64, List.length_append, List.length_replicate, Nat.add_sub_of_le hle]
  exact Nat.mul_mod_left _ _

/-- A block is packed in one of four forms. -/
theorem packBlock_cases (bs : List Byte) : (packBlock bs = (0, []) ∧ pieceSet bs = false) ∨ packBlock bs = (1, bs) ∨ packBlock bs = (2, pad64 (wordSparse bs)) ∨
    packBlock bs = (3, pad64 (byteSparse bs)) := by
  unfold packBlock
  split
  · rename_i hzero
    exact .inl ⟨rfl, by simpa [pieceSet] using hzero⟩
  · dsimp only
    split
    · exact .inr (.inl rfl)
    · split
      · exact .inr (.inr (.inl rfl))
      · exact .inr (.inr (.inr rfl))

theorem unpackBlock_packBlock {bs : List Byte} (h : bs.length = 4096) :
    unpackBlock 4096 (packBlock bs).1 (packBlock bs).2 = bs ∧ (packBlock bs).2.length % 64 = 0 := by
  rcases packBlock_cases bs with ⟨e, hzero⟩ | e | e | e
  · rw [e]
    exact ⟨(h ▸ eq_replicate_of_not_set hzero).symm, rfl⟩
  · rw [e]
    exact ⟨List.take_of_length_le h.le, by rw [h]⟩
  · rw [e]
    exact ⟨unpackBlock_wordSparse h, pad64_length _⟩
  · rw [e]
    exact ⟨unpackBlock_byteSparse h, pad64_length _⟩

/-! ### Map entries (R313) -/

theorem bit_eq (v i : Nat) : bit v i = decide (v / 2 ^ i % 2 = 1) := Nat.testBit_eq_decide_div_mod_eq

theorem decide_b2n (b : Bool) : decide (b2n b = 1) = b := by cases b <;> rfl

/-- The fields of an entry's bits are the places that `entryBits` writes. -/
theorem entryOfBits_entryBits (e : FEntry) (hmode : e.mode < 4) (hsectors : e.sectors < 128) (hblock : e.block < 2 ^ 27) (hpage : e.page < 4096)
    (hsector : e.sector < 256) : entryOfBits (entryBits e) = e := by
  obtain ⟨mode, sectors, block, page, sector, discarded, slc⟩ := e
  dsimp only at *
  have hd : b2n discarded < 2 := by cases discarded <;> decide
  have hs : b2n slc < 2 := by cases slc <;> decide
  simp only [entryOfBits, entryBits, field, bit_eq, FEntry.mk.injEq]
  refine ⟨by omega, by omega, by omega, by omega, by omega, ?_, ?_⟩
  · exact (decide_eq_decide.2 (by omega)).trans (decide_b2n discarded)
  · exact (decide_eq_decide.2 (by omega)).trans (decide_b2n slc)

/-- Settles O29: a block by the form that it is packed in, an entry field by field. -/
theorem packedFormsReadBack : Obligations.PackedFormsReadBack := by
  unfold Obligations.PackedFormsReadBack
  exact ⟨fun _ => unpackBlock_packBlock, entryOfBits_entryBits⟩

end Sys2Proof.Machine
end

section
/-! PROOF. Housekeeping (O33). A refresh opens the recovery window, and a window that opens writes the waiting images (R4, R306): as with O31, a page of a build that fails is
charged to its stack in `fault`. -/

namespace Sys2Proof.Machine

/-- The state of O31, in which also flash block 0 is due for a refresh and holds nothing valid (R320). -/
def dueImageState : State :=
  { refusedImageState with flash := { refusedImageState.flash with blocks := [(0, { addr := 0, free := false, due := true })] } }

/-- The events of the part scores after a row. -/
def eventsAfter : Res → List (Nat × Nat × Nat)
  | .next t => t.fault.events
  | _ => []

/-- The row REFRESH at this state: the retired page is charged to stack 0 with weight 1,024. -/
theorem exec_refresh_dueImageState_events : eventsAfter (exec (.refresh 0) dueImageState) = [(partStack * 4096 + 0, 0, 1024)] := by decide +kernel

/-- Refutes O33: the frame that its clause of a refresh gives leaves out `fault`. In `dueImageState` block 0 is refreshed, and the recovery window that this opens writes the
waiting image; the read-only region refuses it, the build fails, and the page of the staged successor, which has held a poisoned line, is retired. That charges its stack in the
part scores, which are in `fault`. -/
theorem not_housekeepingCopiesBlocks : ¬ Obligations.HousekeepingCopiesBlocks := by
  unfold Obligations.HousekeepingCopiesBlocks
  rintro ⟨-, refreshes, -⟩
  have hrun : dueImageState.running = true := by decide +kernel
  have hkeyed : ∀ x ∈ dueImageState.validIn 0, dueImageState.keyed x.tenant = true := by decide +kernel
  obtain ⟨t, u, hexec, -, -, -, -, -, hkeeps⟩ := refreshes dueImageState 0 hrun rfl rfl rfl rfl rfl rfl hkeyed
  have hkept : t.fault = dueImageState.fault := hkeeps .fault (by decide)
  have hbefore : dueImageState.fault.events = [] := refusedImageState_events
  have hevents := exec_refresh_dueImageState_events
  rw [hexec] at hevents
  change t.fault.events = [(partStack * 4096 + 0, 0, 1024)] at hevents
  rw [hkept, hbefore] at hevents
  exact absurd hevents (by decide)

end Sys2Proof.Machine
end

section
/-! SUPPORT. The flash translation layer: the journal in memory, what the layer's bookkeeping leaves as it was, and what it reports (R315, R321, R327, R332). -/

namespace Sys2Proof.Machine

/-! ### Rows and what they count -/

/-- A row answers an effect, with the queue of the state before (entry 1); what is shown of the effect must not speak of the queue. -/
theorem exists_next {s u : State} {r : Res} {P : State → Prop} (he : r = .next { u with pending := s.pending }) (h : P u)
    (hq : ∀ t, P t → P { t with pending := s.pending }) : ∃ t, r = .next t ∧ P t := ⟨_, he, hq _ h⟩

/-- A state that counts under two keys counts under no others. -/
theorem countsBut_pair {s t : State} {a b : Key} {n m : Nat} (h : ∀ k, t.cnt k = s.cnt k + (if k = a then n else 0) + if k = b then m else 0) :
    countsBut [a, b] s t := by
  intro k hk
  simp only [List.mem_cons, List.not_mem_nil, or_false, not_or] at hk
  rw [h, if_neg hk.1, if_neg hk.2]
  rfl

theorem countsBut_one {s t : State} {a : Key} {n : Nat} (h : ∀ k, t.cnt k = s.cnt k + if k = a then n else 0) : countsBut [a] s t := by
  intro k hk
  rw [h, if_neg (by simpa using hk)]
  rfl

/-! ### The journal in memory (R327) -/

/-- A record of this kind, subject and value waits in the buffer or in the journal page that is being programmed. -/
def State.hasRec (s : State) (k a v : Nat) : Prop := ∃ r ∈ s.flash.buffer ++ s.flash.inPage, r.kind = k ∧ r.subject = a ∧ r.value = v

/-- The records that a list of kinds, subjects and values makes, numbered from `n` on. -/
def recordsFrom : Nat → List (Nat × Nat × Nat) → List JRec
  | _, [] => []
  | n, r :: rs => { seq := n, kind := r.1, subject := r.2.1, value := r.2.2 } :: recordsFrom (n + 1) rs

theorem mem_recordsFrom {k a v : Nat} {rs : List (Nat × Nat × Nat)} (n : Nat) (h : (k, a, v) ∈ rs) :
    ∃ r ∈ recordsFrom n rs, r.kind = k ∧ r.subject = a ∧ r.value = v := by
  induction rs generalizing n with
  | nil => cases h
  | cons x rs ih =>
    rcases List.mem_cons.1 h with rfl | h
    · exact ⟨_, List.mem_cons_self .., rfl, rfl, rfl⟩
    · obtain ⟨r, hr, hkind⟩ := ih (n + 1) h
      exact ⟨r, List.mem_cons_of_mem _ hr, hkind⟩

/-- What appending to the journal changes: the buffer and the number of the next record. -/
theorem journal_eq (s : State) (rs : List (Nat × Nat × Nat)) :
    s.journal rs = { s with flash := { s.flash with
      buffer := s.flash.buffer ++ recordsFrom s.flash.nextRec rs, nextRec := s.flash.nextRec + rs.length } } := by
  induction rs generalizing s with
  | nil => simp [State.journal, recordsFrom]
  | cons r rs ih =>
    have hstep : s.journal (r :: rs) = (s.journal [r]).journal rs := rfl
    rw [hstep, ih]
    simp [State.journal, recordsFrom, Nat.add_assoc, Nat.add_comm 1]

/-- The records of the buffer and the page in progress stay, as far as kind, subject and value go. -/
theorem startPage_hasRec {s : State} {k a v : Nat} (h : s.hasRec k a v) : s.startPage.hasRec k a v := by
  unfold State.startPage
  split
  · exact h
  · rename_i hidle
    obtain ⟨r, hr, hkind⟩ := h
    have hpage : s.flash.inPage = [] := by simp_all
    rw [hpage, List.append_nil, ← List.take_append_drop 511 s.flash.buffer, List.mem_append] at hr
    rcases hr with hr | hr
    · exact ⟨{ r with page := s.flash.nextPage }, List.mem_append_right _ (List.mem_map.2 ⟨r, hr, rfl⟩), hkind⟩
    · exact ⟨r, List.mem_append_left _ hr, hkind⟩

theorem setFblock_frame (s : State) (b : FBlock) : keepsBut [.flash] s (s.setFblock b) := with_flash_frame s _

/-! ### The layer's bookkeeping -/

/-- What the bookkeeping of the layer may change: the records of blocks, the journal in memory, from which no record is lost, the counters and the reported registers. -/
structure FlashWork (s t : State) : Prop where
  frame : keepsBut [.flash, .regs, .counts] s t
  flash : t.flash = { s.flash with
    blocks := t.flash.blocks, buffer := t.flash.buffer, inPage := t.flash.inPage, nextRec := t.flash.nextRec, nextPage := t.flash.nextPage }
  records : ∀ k a v, s.hasRec k a v → t.hasRec k a v

namespace FlashWork

variable {o s t u : State}

theorem refl (s : State) : FlashWork s s := ⟨by simp, rfl, fun _ _ _ h => h⟩

theorem trans (h : FlashWork s t) (g : FlashWork t u) : FlashWork s u where
  frame := h.frame.trans g.frame
  flash := g.flash.trans (congrArg (fun f : FlashS => { f with
    blocks := u.flash.blocks, buffer := u.flash.buffer, inPage := u.flash.inPage, nextRec := u.flash.nextRec, nextPage := u.flash.nextPage }) h.flash)
  records k a v hr := g.records k a v (h.records k a v hr)

/-- A step that leaves the layer. -/
theorem beside {ps : List Part} (h : FlashWork o s) (f : keepsBut ps s t) (hp : ps ⊆ [.regs, .counts]) : FlashWork o t := by
  have hflash : t.flash = s.flash := f .flash fun hm => by simpa using hp hm
  refine h.trans ⟨f.mono fun p hm => List.mem_cons_of_mem _ (hp hm), by rw [hflash], fun k a v hr => ?_⟩
  unfold State.hasRec
  rwa [hflash]

theorem bump (h : FlashWork o s) (k n) : FlashWork o (s.bump k n) := h.beside (bump_frame s k n) (by simp)

theorem flashRegs (h : FlashWork o s) : FlashWork o s.flashRegs := h.beside (flashRegs_frame s) (by simp)

theorem setFblock (h : FlashWork o s) (b) : FlashWork o (s.setFblock b) := h.trans ⟨(setFblock_frame s b).mono (by simp), rfl, fun _ _ _ hr => hr⟩

theorem journal (h : FlashWork o s) (rs) : FlashWork o (s.journal rs) := by
  refine h.trans ⟨(journal_frame s rs).mono (by simp), by rw [journal_eq], fun k a v ⟨r, hr, hkind⟩ => ⟨r, ?_, hkind⟩⟩
  rw [journal_eq]
  rcases List.mem_append.1 hr with hr | hr
  · exact List.mem_append_left _ (List.mem_append_left _ hr)
  · exact List.mem_append_right _ hr

theorem startPage (h : FlashWork o s) : FlashWork o s.startPage := by
  refine h.trans ⟨(startPage_frame s).mono (by simp), ?_, fun k a v => startPage_hasRec⟩
  unfold State.startPage
  split <;> rfl

theorem ite {p : Prop} {_ : Decidable p} (h : FlashWork o s) (g : FlashWork o t) : FlashWork o (if p then s else t) := by split <;> assumption

theorem foldl {α : Type} {f : State → α → State} (l : List α) (h : FlashWork o s) (hf : ∀ t a, FlashWork o t → FlashWork o (f t a)) :
    FlashWork o (l.foldl f s) := by
  induction l generalizing s with
  | nil => exact h
  | cons a l ih => exact ih (hf s a h)

theorem startErases (h : FlashWork o s) : FlashWork o s.startErases := by
  unfold State.startErases
  exact ite h (foldl _ h fun _ _ h => h.setFblock _)

theorem stored (h : FlashWork s t) : t.flash.stored = s.flash.stored := congrArg (·.stored) h.flash

theorem progs (h : FlashWork s t) : t.flash.progs = s.flash.progs := congrArg (·.progs) h.flash

end FlashWork

theorem journal_hasRec (s : State) {k a v : Nat} {rs : List (Nat × Nat × Nat)} (h : (k, a, v) ∈ rs) : (s.journal rs).hasRec k a v := by
  obtain ⟨r, hr, hkind⟩ := mem_recordsFrom s.flash.nextRec h
  refine ⟨r, ?_, hkind⟩
  rw [journal_eq]
  exact List.mem_append_left _ (List.mem_append_right _ hr)

/-! ### Counters and registers that stay -/

section
variable (s : State) (k : Key)

@[simp] theorem setFblock_cnt (b : FBlock) : (s.setFblock b).cnt k = s.cnt k := rfl
@[simp] theorem journal_cnt (rs : List (Nat × Nat × Nat)) : (s.journal rs).cnt k = s.cnt k := (journal_frame s rs).cnt (by simp) k
@[simp] theorem startPage_cnt : s.startPage.cnt k = s.cnt k := (startPage_frame s).cnt (by simp) k
@[simp] theorem flashRegs_cnt : s.flashRegs.cnt k = s.cnt k := (flashRegs_frame s).cnt (by simp) k
@[simp] theorem flashRegs_flash : s.flashRegs.flash = s.flash := flashRegs_frame s .flash (by simp)

theorem startErases_frame : keepsBut [.flash] s s.startErases := by
  unfold State.startErases
  split
  · simp
  · exact keepsBut_foldl _ _ fun s _ => setFblock_frame s _

@[simp] theorem startErases_cnt : s.startErases.cnt k = s.cnt k := (startErases_frame s).cnt (by simp) k

end

/-- The registers that the layer reports before those of the regions (R332). -/
def flashReported : List Key := [0x701002, 0x701003, 0x701004, 0x701005, 0x701006, 0x701007, 0x701009]

theorem foldl_setReg_above (ts : List Nat) (s : State) {k : Key} (hk : k < 0x704C00) (f : State → Nat → Nat) :
    (ts.foldl (fun s t => s.setReg (pagedKey 0x704C t) (f s t)) s).reg k = s.reg k := by
  induction ts generalizing s with
  | nil => rfl
  | cons t ts ih =>
    rw [List.foldl_cons, ih]
    exact State.reg_setReg_ne _ _ (Nat.ne_of_lt (Nat.lt_of_lt_of_le hk (by unfold pagedKey; omega)))

theorem flashRegs_reg (s : State) {k : Key} (hk : k < 0x704C00) (hr : k ∉ flashReported) : s.flashRegs.reg k = s.reg k := by
  simp only [flashReported, List.mem_cons, List.not_mem_nil, or_false, not_or] at hr
  unfold State.flashRegs
  dsimp only
  rw [foldl_setReg_above _ _ hk (fun s t => (s.flash.map.filter fun e => e.2.mode != 0 && s.inRegion t e.1 1).length)]
  simp [State.reg_setReg, hr]

/-- The register of the discard queue shows the blocks that are queued (R326). -/
theorem flashRegs_queued (s : State) : s.flashRegs.reg 0x701009 = s.flash.discards.foldl (fun a d => a + d.2) 0 := by
  unfold State.flashRegs
  dsimp only
  rw [foldl_setReg_above _ _ (by decide) (fun s t => (s.flash.map.filter fun e => e.2.mode != 0 && s.inRegion t e.1 1).length), State.reg_setReg_same]
  rfl

end Sys2Proof.Machine
end

section
/-! PROOF. Programs and erases that end (O34). -/

namespace Sys2Proof.Machine

/-! ### Blocks (R313, R325) -/

theorem fblock_congr {s t : State} (h : t.flash.blocks = s.flash.blocks) (a : Nat) : t.fblock a = s.fblock a := by
  unfold State.fblock
  rw [h]

@[simp] theorem flashRegs_fblock (s : State) (a : Nat) : s.flashRegs.fblock a = s.fblock a := fblock_congr (by rw [flashRegs_flash]) a

theorem fblock_setFblock (s : State) (b : FBlock) (a : Nat) : (s.setFblock b).fblock a = if a = b.addr then b else s.fblock a := by
  unfold State.fblock State.setFblock
  dsimp only
  rw [lk_put]
  split <;> rfl

@[simp] theorem journal_blocks (s : State) (rs : List (Nat × Nat × Nat)) : (s.journal rs).flash.blocks = s.flash.blocks := by rw [journal_eq]

@[simp] theorem startPage_blocks (s : State) : s.startPage.flash.blocks = s.flash.blocks := by
  unfold State.startPage
  split <;> rfl

/-- A block that is retired (R325). -/
def retiredBlock (b : FBlock) : FBlock := { b with retired := true, free := false, erasing := false }

theorem retire_blocks (s : State) (a cause : Nat) :
    (s.retire a cause).flash.blocks = put s.flash.blocks (s.fblock a).addr (retiredBlock (s.fblock a)) := by
  unfold State.retire
  dsimp only
  rw [startPage_blocks, State.bump_flash, journal_blocks]
  rfl

theorem retire_fblock {s : State} {a : Nat} (h : (s.fblock a).addr = a) (cause : Nat) : (s.retire a cause).fblock a = retiredBlock (s.fblock a) := by
  unfold State.fblock at h ⊢
  rw [retire_blocks, State.fblock, h, lk_put_same]
  rfl

theorem FlashWork.retire {o s : State} (h : FlashWork o s) (a cause : Nat) : FlashWork o (s.retire a cause) :=
  (((h.setFblock _).journal _).bump _ _).startPage

theorem retire_frame (s : State) (a cause : Nat) : keepsBut [.flash, .counts] s (s.retire a cause) :=
  (((setFblock_frame s _).trans (journal_frame _ _)).trans' (bump_frame _ 0xE0B011 1) (rs := [.flash, .counts]) (by simp) (by simp)).trans'
    (startPage_frame _) (by simp) (by simp)

@[simp] theorem retire_cnt (s : State) (a cause : Nat) (k : Key) : (s.retire a cause).cnt k = s.cnt k + if k = 0xE0B011 then 1 else 0 := by
  unfold State.retire
  simp [State.cnt_bump]

theorem retire_hasRec (s : State) (a cause : Nat) : (s.retire a cause).hasRec 5 a cause := by
  refine ((FlashWork.refl _).bump 0xE0B011 1).startPage.records _ _ _ ?_
  exact journal_hasRec _ (List.mem_singleton.2 rfl)

/-! ### A program that succeeds (R315, R324) -/

/-- The page of a program is stored, and the program has left. -/
def State.pageStored (s : State) (p : FProg) : State :=
  { s with flash := { s.flash with progs := s.flash.progs.filter (fun (q : FProg) => q.id != p.id), stored := s.flash.stored ++ p.stored } }

/-- The record by which a stored block becomes the one of its map entry. -/
def mapSet (p : FProg) (x : FStored) : Nat × Nat × Nat :=
  (1, x.logical, entryBits { mode := x.mode, sectors := x.count, block := x.block, page := x.page, sector := x.sector, discarded := false, slc := p.slc })

theorem programOk_eq (s : State) (p : FProg) : s.programOk p = (((s.pageStored p).bump 0xE0B009 1).journal (p.stored.map (mapSet p))).startPage := rfl

@[simp] theorem programOk_cnt (s : State) (p : FProg) (k : Key) : (s.programOk p).cnt k = s.cnt k + if k = 0xE0B009 then 1 else 0 := by
  rw [programOk_eq, startPage_cnt, journal_cnt, State.cnt_bump]
  rfl

/-- What a program that has succeeded leaves: its blocks are stored and recorded in the journal, and it has left. -/
structure Programmed (p : FProg) (s t : State) : Prop where
  frame : keepsBut [.flash, .regs, .counts] s t
  stored : t.flash.stored = s.flash.stored ++ p.stored
  progs : t.flash.progs = s.flash.progs.filter fun q => q.id != p.id
  recorded : ∀ x ∈ p.stored, ∃ r ∈ t.flash.buffer ++ t.flash.inPage, r.kind = 1 ∧ r.subject = x.logical

namespace Programmed

variable {p : FProg} {s t u : State}

theorem gone (h : Programmed p s t) : ∀ x ∈ t.flash.progs, x.id ≠ p.id := by
  intro x hx
  rw [h.progs] at hx
  simpa using (List.mem_filter.1 hx).2

theorem work (h : Programmed p s t) (g : FlashWork t u) : Programmed p s u where
  frame := h.frame.trans g.frame
  stored := g.stored.trans h.stored
  progs := g.progs.trans h.progs
  recorded x hx := by
    obtain ⟨r, hr, hkind, hsubject⟩ := h.recorded x hx
    obtain ⟨q, hq, hkind', hsubject', -⟩ := g.records _ _ _ ⟨r, hr, hkind, hsubject, rfl⟩
    exact ⟨q, hq, hkind', hsubject'⟩

theorem withQueue (h : Programmed p s t) : Programmed p s { t with pending := s.pending } := ⟨h.frame.withQueue, h.stored, h.progs, h.recorded⟩

end Programmed

theorem programOk_programmed (s : State) (p : FProg) : Programmed p s (s.programOk p) := by
  have hstored : FlashWork (s.pageStored p) (s.programOk p) := (((FlashWork.refl _).bump _ _).journal _).startPage
  refine ⟨((with_flash_frame s _).mono (by simp)).trans hstored.frame, hstored.stored, hstored.progs, fun x hx => ?_⟩
  obtain ⟨r, hr, hkind, hsubject, -⟩ := (FlashWork.refl _).startPage.records _ _ _
    (journal_hasRec ((s.pageStored p).bump 0xE0B009 1) (List.mem_map.2 ⟨x, hx, rfl⟩ : mapSet p x ∈ p.stored.map (mapSet p)))
  exact ⟨r, hr, hkind, hsubject⟩

/-! ### A source that waits for its erase (R324) -/

/-- Beside the queue of erases, which may grow, queueing an erase is bookkeeping. -/
theorem queueErase_work (s : State) (a : Nat) : FlashWork { s with flash := { s.flash with eraseQ := (s.queueErase a).flash.eraseQ } } (s.queueErase a) := by
  unfold State.queueErase
  split
  · exact .refl s
  · have h : FlashWork { s with flash := { s.flash with eraseQ := s.flash.eraseQ ++ [(a, s.flash.nextRec - 1)] } } _ := (FlashWork.refl _).startErases
    rw [congrArg (·.eraseQ) h.flash]
    exact h

/-- A source that no program copies is in the queue afterwards. -/
theorem queueErase_queued {s : State} {a : Nat} (h : ∀ x ∈ s.flash.progs, x.src ≠ some a) : (s.queueErase a).flash.eraseQ.any (·.1 == a) = true := by
  unfold State.queueErase
  have hprogs : s.flash.progs.any (·.src == some a) = false := by simpa using h
  split
  · rename_i hlisted
    rwa [hprogs, Bool.or_false] at hlisted
  · have hq := congrArg (·.eraseQ)
      ((FlashWork.refl { s with flash := { s.flash with eraseQ := s.flash.eraseQ ++ [(a, s.flash.nextRec - 1)] } }).startErases).flash
    dsimp only at hq
    rw [hq]
    simp

@[simp] theorem queueErase_cnt (s : State) (a : Nat) (k : Key) : (s.queueErase a).cnt k = s.cnt k := by
  unfold State.queueErase
  split
  · rfl
  · rw [startErases_cnt]
    rfl

theorem Programmed.queueErase {p : FProg} {s t : State} (h : Programmed p s t) (a : Nat) : Programmed p s (t.queueErase a) := by
  have hq : Programmed p s { t with flash := { t.flash with eraseQ := (t.queueErase a).flash.eraseQ } } :=
    ⟨h.frame.trans ((with_flash_frame t _).mono (by simp)), h.stored, h.progs, h.recorded⟩
  exact hq.work (queueErase_work t a)

/-! ### A program that fails (R325) -/

theorem openBlock_eq {s : State} {slc worn : Bool} {u : State × FBlock} (e : s.openBlock slc worn = some u) :
    ∃ (b : FBlock) (a : Nat), u.1 = (s.setFblock b).journal [(2, a, b2n slc)] := by
  unfold State.openBlock at e
  simp only [Option.ite_none_left_eq_some] at e
  obtain ⟨-, e⟩ := e
  split at e
  · cases e
  · rename_i a _
    cases e
    exact ⟨{ s.fblock a with slc, next := 0, free := false, opened := s.flash.nextRec, reads := 0, due := false, erasing := false }, a, rfl⟩

/-- What the program of a page keeps: what is stored, the records of the journal, and everything beside the layer. -/
theorem programPage_keeps {s t : State} {slc worn : Bool} {why : Nat} {src : Option Nat} {xs : List FStored}
    (e : s.programPage slc worn why src xs = some t) :
    t.flash.stored = s.flash.stored ∧ (∀ k a v, s.hasRec k a v → t.hasRec k a v) ∧ keepsBut [.flash] s t := by
  unfold State.programPage at e
  split at e
  · cases e
  · rename_i u b hchosen
    have hu : FlashWork s u ∧ keepsBut [.flash] s u := by
      have hopened {w : Bool} (h : s.openBlock slc w = some (u, b)) : FlashWork s u ∧ keepsBut [.flash] s u := by
        obtain ⟨c, a, hc⟩ := openBlock_eq h
        dsimp only at hc
        subst hc
        exact ⟨((FlashWork.refl s).setFblock c).journal _, (setFblock_frame s c).trans (journal_frame _ _)⟩
      split at hchosen
      · exact hopened hchosen
      · split at hchosen
        · cases hchosen
          exact ⟨.refl s, by simp⟩
        · exact hopened hchosen
    cases e
    exact ⟨hu.1.stored, hu.1.records, hu.2.trans (with_flash_frame u _)⟩

/-- A failed program is retried elsewhere, or where no block is left, dropped; either way these stay. -/
theorem programBad_keeps (s : State) (p : FProg) :
    (s.programBad p).flash.stored = s.flash.stored ∧ (s.programBad p).hasRec 5 p.block 1 ∧ keepsBut [.flash, .regs, .counts] s (s.programBad p) ∧
      ∀ k, (s.programBad p).cnt k = s.cnt k + (if k = 0xE0B012 then 1 else 0) + if k = 0xE0B011 then 1 else 0 := by
  unfold State.programBad
  extract_lets src dropped retired
  have hr : FlashWork dropped retired := ((FlashWork.refl _).bump _ _).retire _ _
  have hrec : retired.hasRec 5 p.block 1 := retire_hasRec _ _ _
  have hcnt (k : Key) : retired.cnt k = s.cnt k + (if k = 0xE0B012 then 1 else 0) + if k = 0xE0B011 then 1 else 0 := by
    rw [show retired = (dropped.bump 0xE0B012 1).retire p.block 1 from rfl, retire_cnt, State.cnt_bump]
    rfl
  have hframe : keepsBut [.flash, .regs, .counts] s retired := ((with_flash_frame s _).mono (by simp)).trans hr.frame
  clear_value retired
  split
  · rename_i t e
    obtain ⟨hstored, hrecs, hkeeps⟩ := programPage_keeps e
    exact ⟨hstored.trans hr.stored, hrecs _ _ _ hrec, hframe.trans (hkeeps.mono (by simp)), fun k => (hkeeps.cnt (by simp) k).trans (hcnt k)⟩
  · exact ⟨hr.stored, hrec, hframe, hcnt⟩

/-- The program of a page into a block, of which it takes the next page (R314, R321). -/
def State.programIn (s : State) (v : FBlock) (slc : Bool) (why : Nat) (src : Option Nat) (xs : List FStored) : FProg where
  id := s.flash.nextProg
  block := v.addr
  page := v.next
  slc := slc
  stored := xs.map fun x => { x with block := v.addr, page := v.next, wseq := s.flash.wseq }
  src := src
  why := why

/-- The page is programmed into an open block. -/
def State.programmedIn (s : State) (v : FBlock) (slc : Bool) (why : Nat) (src : Option Nat) (xs : List FStored) : State :=
  let u := s.setFblock { v with next := v.next + 1 }
  { u with flash := { u.flash with
      progs := u.flash.progs ++ [s.programIn v slc why src xs], nextProg := u.flash.nextProg + 1, wseq := u.flash.wseq + 1 } }

theorem programPage_open {s : State} {slc : Bool} {v : FBlock} (h : s.openOf slc = some v) (why : Nat) (src : Option Nat) (xs : List FStored) :
    s.programPage slc false why src xs = some (s.programmedIn v slc why src xs) := by
  simp [State.programPage, h, State.programmedIn, State.programIn]

/-- A fold that keeps its choice or takes the element at hand chooses one of the list. -/
theorem foldl_choice_mem {α : Type} {f : Option α → α → Option α} (hf : ∀ o a, f o a = o ∨ f o a = some a) {l : List α} {o : Option α} {v : α}
    (h : l.foldl f o = some v) : o = some v ∨ v ∈ l := by
  induction l generalizing o with
  | nil => exact .inl h
  | cons a l ih =>
    rcases ih h with ho | hv
    · rcases hf o a with he | he
      · exact .inl (he ▸ ho)
      · rw [he] at ho
        cases ho
        exact .inr (List.mem_cons_self ..)
    · exact .inr (List.mem_cons_of_mem _ hv)

/-- May a block be open for writes of a kind (R321)? -/
def State.mayOpen (s : State) (slc : Bool) (b : FBlock) : Bool := b.slc == slc && !b.retired && !b.erasing && b.next < s.reg 0x700005

theorem openOf_mem {s : State} {slc : Bool} {v : FBlock} (h : s.openOf slc = some v) : v ∈ s.usedBlocks ∧ s.mayOpen slc v = true := by
  unfold State.openOf at h
  refine List.mem_filter.1 ((foldl_choice_mem (fun o b => ?_) h).resolve_left (by simp))
  cases o with
  | none => exact .inr rfl
  | some m =>
    dsimp only
    split
    · exact .inr rfl
    · exact .inl rfl

/-- The open block stays the open one when the only other block is retired. -/
theorem openOf_retired {s r : State} {slc : Bool} {a : Nat} {b v : FBlock} (hr : r.flash.blocks = [(a, retiredBlock b), (v.addr, v)])
    (hreg : r.reg 0x700005 = s.reg 0x700005) (h : s.openOf slc = some v) : r.openOf slc = some v := by
  obtain ⟨hused, hmay⟩ := openOf_mem h
  have hfree : v.free = false := by simpa using (List.mem_filter.1 hused).2
  have hblocks : r.usedBlocks = [retiredBlock b, v] := by
    unfold State.usedBlocks
    rw [hr]
    simp [hfree, retiredBlock]
  unfold State.openOf
  rw [hblocks, hreg]
  change List.foldl _ none (List.filter (s.mayOpen slc) [retiredBlock b, v]) = some v
  rw [List.filter_cons_of_neg (by simp [State.mayOpen, retiredBlock]), List.filter_cons_of_pos hmay]
  rfl

/-- The page of a failed program goes to the open block (R325). -/
theorem programBad_retries {s : State} {p : FProg} {b v : FBlock} (hprogs : s.flash.progs = [p]) (hblocks : s.flash.blocks = [(p.block, b), (v.addr, v)])
    (haddr : b.addr = p.block) (hne : v.addr ≠ p.block) (hopen : s.openOf p.slc = some v) :
    ((s.programBad p).fblock p.block).retired = true ∧
      ∃ q, (s.programBad p).flash.progs = [q] ∧ q.block = v.addr ∧ q.page = v.next ∧ q.why = p.why ∧ q.slc = p.slc ∧
        q.stored.map (·.data) = p.stored.map (·.data) := by
  unfold State.programBad
  extract_lets src dropped retired
  have hr : FlashWork dropped retired := ((FlashWork.refl _).bump _ _).retire _ _
  have hfblock : (dropped.bump 0xE0B012 1).fblock p.block = b := by
    unfold State.fblock
    rw [State.bump_flash, show dropped.flash.blocks = [(p.block, b), (v.addr, v)] from hblocks, lk_cons, if_pos rfl]
    rfl
  have hput : retired.flash.blocks = [(p.block, retiredBlock b), (v.addr, v)] := by
    rw [show retired = (dropped.bump 0xE0B012 1).retire p.block 1 from rfl, retire_blocks, hfblock, haddr, State.bump_flash,
      show dropped.flash.blocks = [(p.block, b), (v.addr, v)] from hblocks]
    simp [put]
  have hreg : retired.reg 0x700005 = s.reg 0x700005 :=
    ((retire_frame _ _ _).reg (by simp) _).trans ((bump_frame _ _ _).reg (by simp) _)
  have hprogs' : retired.flash.progs = [] := by
    rw [hr.progs]
    simp [dropped, hprogs]
  clear_value retired
  rw [programPage_open (openOf_retired hput hreg hopen)]
  have hone : (retired.programmedIn v p.slc p.why p.src p.stored).flash.progs = [retired.programIn v p.slc p.why p.src p.stored] :=
    congrArg (· ++ [retired.programIn v p.slc p.why p.src p.stored]) hprogs'
  refine ⟨?_, _, hone, rfl, rfl, rfl, rfl, by simp [State.programIn]⟩
  have hsame : (retired.programmedIn v p.slc p.why p.src p.stored).fblock p.block = retired.fblock p.block :=
    (fblock_setFblock retired _ p.block).trans (if_neg fun h => hne h.symm)
  dsimp only
  rw [hsame, State.fblock, hput, lk_cons, if_pos rfl]
  rfl

end Sys2Proof.Machine
end

section
/-! PROOF. The rows of programs and erases (O34). -/

namespace Sys2Proof.Machine

/-! ### The rows of programs (R315, R322, R324, R325) -/

theorem exec_pageProgramDone_stores {s : State} {p : FProg} (hrun : s.running = true)
    (hfind : s.flash.progs.find? (fun x => x.id == p.id && x.why == 0) = some p) :
    ∃ t, exec (.pageProgramDone p.id true) s = .next t ∧ t.flash.stored = s.flash.stored ++ p.stored ∧ (∀ x ∈ t.flash.progs, x.id ≠ p.id) ∧
      t.cnt 0xE0B008 = s.cnt 0xE0B008 + p.stored.length ∧ t.cnt 0xE0B009 = s.cnt 0xE0B009 + 1 ∧
      (∀ x ∈ p.stored, ∃ r ∈ t.flash.buffer ++ t.flash.inPage, r.kind = 1 ∧ r.subject = x.logical) ∧
      keepsBut [.flash, .regs, .counts] s t ∧ countsBut [0xE0B008, 0xE0B009] s t := by
  have hp : Programmed p s ((s.programOk p).bump 0xE0B008 p.stored.length).flashRegs := (programOk_programmed s p).work ((FlashWork.refl _).bump _ _).flashRegs
  have hcnt (k : Key) : (((s.programOk p).bump 0xE0B008 p.stored.length).flashRegs).cnt k =
      s.cnt k + (if k = 0xE0B008 then p.stored.length else 0) + if k = 0xE0B009 then 1 else 0 := by
    rw [flashRegs_cnt, State.cnt_bump, programOk_cnt]
    omega
  change ∃ t, execPageProgramDone p.id true s = .next t ∧ _
  unfold execPageProgramDone
  exact exists_live hrun (by rw [hfind]; rfl) ⟨hp.stored, hp.gone, by simp [hcnt], by simp [hcnt], hp.recorded, hp.frame, countsBut_pair hcnt⟩
    fun _ ⟨a, b, c, d, e, f, g⟩ => ⟨a, b, c, d, e, f.withQueue, g⟩

/-- What both rows answer when the program has failed. -/
theorem programBad_answers (s : State) (p : FProg) : (s.programBad p).flashRegs.cnt 0xE0B012 = s.cnt 0xE0B012 + 1 ∧
    (s.programBad p).flashRegs.cnt 0xE0B011 = s.cnt 0xE0B011 + 1 ∧ (s.programBad p).flashRegs.hasRec 5 p.block 1 ∧
    (s.programBad p).flashRegs.flash.stored = s.flash.stored ∧ keepsBut [.flash, .regs, .counts] s (s.programBad p).flashRegs ∧
    countsBut [0xE0B011, 0xE0B012] s (s.programBad p).flashRegs := by
  obtain ⟨hstored, hrec, hframe, hcnt⟩ := programBad_keeps s p
  have hcnt' (k : Key) : (s.programBad p).flashRegs.cnt k = s.cnt k + (if k = 0xE0B011 then 1 else 0) + if k = 0xE0B012 then 1 else 0 := by
    rw [flashRegs_cnt, hcnt]
    omega
  have hwork : FlashWork (s.programBad p) (s.programBad p).flashRegs := (FlashWork.refl _).flashRegs
  exact ⟨by simp [hcnt'], by simp [hcnt'], hwork.records _ _ _ hrec, hwork.stored.trans hstored, hframe.trans hwork.frame, countsBut_pair hcnt'⟩

theorem exec_pageProgramDone_fails {s : State} {p : FProg} (hrun : s.running = true)
    (hfind : s.flash.progs.find? (fun x => x.id == p.id && x.why == 0) = some p) :
    ∃ t, exec (.pageProgramDone p.id false) s = .next t ∧ t.cnt 0xE0B012 = s.cnt 0xE0B012 + 1 ∧ t.cnt 0xE0B011 = s.cnt 0xE0B011 + 1 ∧
      t.hasRec 5 p.block 1 ∧ t.flash.stored = s.flash.stored ∧ keepsBut [.flash, .regs, .counts] s t ∧ countsBut [0xE0B011, 0xE0B012] s t := by
  change ∃ t, execPageProgramDone p.id false s = .next t ∧ _
  unfold execPageProgramDone
  exact exists_live hrun (by rw [hfind]; rfl) (programBad_answers s p) fun _ ⟨a, b, c, d, f, g⟩ => ⟨a, b, c, d, f.withQueue, g⟩

theorem exec_pageProgramDone_retries {s : State} {p : FProg} {b v : FBlock} (hrun : s.running = true) (hprogs : s.flash.progs = [p]) (hwhy : p.why = 0)
    (hblocks : s.flash.blocks = [(p.block, b), (v.addr, v)]) (haddr : b.addr = p.block) (hne : v.addr ≠ p.block) (hopen : s.openOf p.slc = some v) :
    ∃ t, exec (.pageProgramDone p.id false) s = .next t ∧ (t.fblock p.block).retired = true ∧
      (∃ q, t.flash.progs = [q] ∧ q.block = v.addr ∧ q.page = v.next ∧ q.why = 0 ∧ q.slc = p.slc ∧ q.stored.map (·.data) = p.stored.map (·.data)) ∧
      keepsBut [.flash, .regs, .counts] s t := by
  obtain ⟨hretired, q, hq, hblock, hpage, hwhy', hslc, hdata⟩ := programBad_retries hprogs hblocks haddr hne hopen
  obtain ⟨-, -, -, -, hframe, -⟩ := programBad_answers s p
  have hfind : s.flash.progs.find? (fun x => x.id == p.id && x.why == 0) = some p := by simp [hprogs, hwhy]
  have hretired' : ((s.programBad p).flashRegs.fblock p.block).retired = true := by rw [flashRegs_fblock, hretired]
  have hone : (s.programBad p).flashRegs.flash.progs = [q] := by rw [flashRegs_flash, hq]
  change ∃ t, execPageProgramDone p.id false s = .next t ∧ _
  unfold execPageProgramDone
  exact exists_live hrun (by rw [hfind]; rfl) ⟨hretired', ⟨q, hone, hblock, hpage, hwhy'.trans hwhy, hslc, hdata⟩, hframe⟩
    fun _ ⟨a, b, f⟩ => ⟨a, b, f.withQueue⟩

/-- The page of a copy is stored, and its blocks are counted if a reclaim has copied them (R322). -/
def State.copied (s : State) (p : FProg) : State := if p.why == 1 then (s.programOk p).bump 0xE0B00C p.stored.length else s.programOk p

/-- The source of a copy, if it has one, goes to its erase (R324). -/
def State.released (s : State) (src : Option Nat) : State := match src with | some a => s.queueErase a | none => s

theorem copied_programmed (s : State) (p : FProg) : Programmed p s (s.copied p) :=
  (programOk_programmed s p).work (.ite ((FlashWork.refl _).bump _ _) (.refl _))

theorem copied_cnt (s : State) (p : FProg) (k : Key) :
    (s.copied p).cnt k = s.cnt k + (if k = 0xE0B00C then (if p.why = 1 then p.stored.length else 0) else 0) + if k = 0xE0B009 then 1 else 0 := by
  unfold State.copied
  by_cases hwhy : p.why = 1
  · simp only [hwhy, beq_self_eq_true, if_true, State.cnt_bump, programOk_cnt]
    omega
  · simp [hwhy]

theorem released_programmed {p : FProg} {s t : State} (h : Programmed p s t) (src : Option Nat) : Programmed p s (t.released src) := by
  cases src with
  | none => exact h
  | some a => exact h.queueErase a

@[simp] theorem released_cnt (s : State) (src : Option Nat) (k : Key) : (s.released src).cnt k = s.cnt k := by
  cases src with
  | none => rfl
  | some a => exact queueErase_cnt s a k

theorem exec_copyProgramDone_ok {s : State} {p : FProg} (hrun : s.running = true)
    (hfind : s.flash.progs.find? (fun x => x.id == p.id && x.why != 0) = some p) :
    exec (.copyProgramDone p.id true) s = .next { ((s.copied p).released p.src).flashRegs with pending := s.pending } := by
  change execCopyProgramDone p.id true s = _
  unfold execCopyProgramDone
  rw [live_running hrun, hfind]
  cases hsrc : p.src <;> simp [State.released, State.copied, hsrc]

theorem exec_copyProgramDone_bad {s : State} {p : FProg} (hrun : s.running = true)
    (hfind : s.flash.progs.find? (fun x => x.id == p.id && x.why != 0) = some p) :
    exec (.copyProgramDone p.id false) s = .next { (s.programBad p).flashRegs with pending := s.pending } := by
  change execCopyProgramDone p.id false s = _
  unfold execCopyProgramDone
  rw [live_running hrun, hfind]
  rfl

theorem exec_copyProgramDone_stores {s : State} {p : FProg} (hrun : s.running = true)
    (hfind : s.flash.progs.find? (fun x => x.id == p.id && x.why != 0) = some p) :
    ∃ t, exec (.copyProgramDone p.id true) s = .next t ∧ t.flash.stored = s.flash.stored ++ p.stored ∧ (∀ x ∈ t.flash.progs, x.id ≠ p.id) ∧
      t.cnt 0xE0B00C = s.cnt 0xE0B00C + (if p.why = 1 then p.stored.length else 0) ∧ t.cnt 0xE0B009 = s.cnt 0xE0B009 + 1 ∧
      (∀ x ∈ p.stored, ∃ r ∈ t.flash.buffer ++ t.flash.inPage, r.kind = 1 ∧ r.subject = x.logical) ∧
      keepsBut [.flash, .regs, .counts] s t ∧ countsBut [0xE0B00C, 0xE0B009] s t := by
  have hp : Programmed p s ((s.copied p).released p.src).flashRegs := (released_programmed (copied_programmed s p) p.src).work (FlashWork.refl _).flashRegs
  have hcnt (k : Key) : ((s.copied p).released p.src).flashRegs.cnt k =
      s.cnt k + (if k = 0xE0B00C then (if p.why = 1 then p.stored.length else 0) else 0) + if k = 0xE0B009 then 1 else 0 := by
    rw [flashRegs_cnt, released_cnt, copied_cnt]
  exact exists_next (exec_copyProgramDone_ok hrun hfind) ⟨hp.stored, hp.gone, by simp [hcnt], by simp [hcnt], hp.recorded, hp.frame, countsBut_pair hcnt⟩
    fun _ ⟨a, b, c, d, e, f, g⟩ => ⟨a, b, c, d, e, f.withQueue, g⟩

theorem exec_copyProgramDone_releases {s : State} {p : FProg} {a : Nat} (hrun : s.running = true)
    (hfind : s.flash.progs.find? (fun x => x.id == p.id && x.why != 0) = some p) (hsrc : p.src = some a)
    (hlast : ∀ x ∈ s.flash.progs, x.id ≠ p.id → x.src ≠ some a) :
    ∃ t, exec (.copyProgramDone p.id true) s = .next t ∧ t.flash.eraseQ.any (·.1 == a) = true ∧ keepsBut [.flash, .regs, .counts] s t := by
  have hp : Programmed p s ((s.copied p).released p.src).flashRegs := (released_programmed (copied_programmed s p) p.src).work (FlashWork.refl _).flashRegs
  have hnone : ∀ x ∈ (s.copied p).flash.progs, x.src ≠ some a := by
    intro x hx
    rw [(copied_programmed s p).progs] at hx
    obtain ⟨hmem, hid⟩ := List.mem_filter.1 hx
    exact hlast x hmem (by simpa using hid)
  have hq : ((s.copied p).released p.src).flashRegs.flash.eraseQ.any (·.1 == a) = true := by
    rw [flashRegs_flash, hsrc]
    exact queueErase_queued hnone
  exact exists_next (exec_copyProgramDone_ok hrun hfind) ⟨hq, hp.frame⟩ fun _ ⟨a, f⟩ => ⟨a, f.withQueue⟩

theorem exec_copyProgramDone_fails {s : State} {p : FProg} (hrun : s.running = true)
    (hfind : s.flash.progs.find? (fun x => x.id == p.id && x.why != 0) = some p) :
    ∃ t, exec (.copyProgramDone p.id false) s = .next t ∧ t.cnt 0xE0B012 = s.cnt 0xE0B012 + 1 ∧ t.cnt 0xE0B011 = s.cnt 0xE0B011 + 1 ∧
      t.hasRec 5 p.block 1 ∧ t.flash.stored = s.flash.stored ∧ keepsBut [.flash, .regs, .counts] s t ∧ countsBut [0xE0B011, 0xE0B012] s t := by
  exact exists_next (exec_copyProgramDone_bad hrun hfind) (programBad_answers s p) fun _ ⟨a, b, c, d, f, g⟩ => ⟨a, b, c, d, f.withQueue, g⟩

/-! ### Erases that end (R324, R325) -/

/-- The block has left the queue of erases, and what was stored in it is gone. -/
def State.blockErased (s : State) (a : Nat) : State :=
  { s with flash := { s.flash with eraseQ := s.flash.eraseQ.filter fun e => e.1 != a, stored := s.flash.stored.filter fun x => x.block != a } }

/-- A block after its erase (R324). -/
def erasedBlock (b : FBlock) : FBlock := { b with erases := b.erases + 1, erasing := false, free := true, next := 0, reads := 0, due := false }

/-- A block that has been erased is counted, recorded and free. -/
def State.blockFreed (s : State) (a : Nat) : State :=
  (((s.blockErased a).bump 0xE0B00A 1).journal [(3, a, (s.fblock a).erases + 1)]).setFblock (erasedBlock (s.fblock a))

section
variable {s : State} {a : Nat} (hrun : s.running = true) (haddr : (s.fblock a).addr = a) (herasing : (s.fblock a).erasing = true)
  (hqueued : s.flash.eraseQ.any (·.1 == a) = true)

theorem blockFreed_work (s : State) (a : Nat) : FlashWork (s.blockErased a) (s.blockFreed a) := (((FlashWork.refl _).bump _ _).journal _).setFblock _

theorem blockFreed_frame (s : State) (a : Nat) : keepsBut [.flash, .regs, .counts] s (s.blockFreed a) :=
  ((with_flash_frame s _).mono (by simp)).trans (blockFreed_work s a).frame

theorem blockFreed_cnt (s : State) (a : Nat) (k : Key) : (s.blockFreed a).cnt k = s.cnt k + if k = 0xE0B00A then 1 else 0 := by
  unfold State.blockFreed
  rw [setFblock_cnt, journal_cnt, State.cnt_bump]
  rfl

include haddr in
theorem blockFreed_fblock : (s.blockFreed a).fblock a = erasedBlock (s.fblock a) := by
  unfold State.blockFreed
  exact (fblock_setFblock _ _ _).trans (if_pos haddr.symm)

theorem blockFreed_hasRec (s : State) (a : Nat) : (s.blockFreed a).hasRec 3 a ((s.fblock a).erases + 1) :=
  journal_hasRec ((s.blockErased a).bump 0xE0B00A 1) (List.mem_singleton.2 rfl)

/-- Bookkeeping after an erase leaves nothing stored in the block, and the block out of the queue. -/
theorem blockErased_empty {t : State} (h : FlashWork (s.blockErased a) t) : (∀ x ∈ t.flash.stored, x.block ≠ a) ∧ ∀ e ∈ t.flash.eraseQ, e.1 ≠ a := by
  rw [h.stored, congrArg (·.eraseQ) h.flash]
  exact ⟨fun x hx => by simpa using (List.mem_filter.1 hx).2, fun e he => by simpa using (List.mem_filter.1 he).2⟩

include hrun herasing hqueued in
theorem exec_eraseDone_ok : exec (.eraseDone a true) s = .next { (if s.reg 0x70200A != 0 && decide (s.reg 0x70200A ≤ (s.fblock a).erases + 1)
    then (s.blockFreed a).retire a 3 else (s.blockFreed a).startPage).flashRegs with pending := s.pending } := by
  have hlimit : (s.blockFreed a).reg 0x70200A = s.reg 0x70200A :=
    ((setFblock_frame _ _).reg (by simp) _).trans (((journal_frame _ _).reg (by simp) _).trans ((bump_frame (s.blockErased a) _ _).reg (by simp) _))
  change execEraseDone a true s = _
  unfold execEraseDone
  rw [live_running hrun, if_neg (by simp [herasing, hqueued]), ← hlimit]
  rfl

include hrun herasing hqueued in
theorem exec_eraseDone_bad :
    exec (.eraseDone a false) s = .next { (((s.blockErased a).bump 0xE0B012 1).retire a 2).flashRegs with pending := s.pending } := by
  change execEraseDone a false s = _
  unfold execEraseDone
  rw [live_running hrun, if_neg (by simp [herasing, hqueued])]
  rfl

include hrun haddr herasing hqueued in
theorem exec_eraseDone_frees (hworn : s.reg 0x70200A = 0 ∨ (s.fblock a).erases + 1 < s.reg 0x70200A) :
    ∃ t, exec (.eraseDone a true) s = .next t ∧ t.fblock a = erasedBlock (s.fblock a) ∧ t.hasRec 3 a ((s.fblock a).erases + 1) ∧
      (∀ x ∈ t.flash.stored, x.block ≠ a) ∧ (∀ e ∈ t.flash.eraseQ, e.1 ≠ a) ∧ t.cnt 0xE0B00A = s.cnt 0xE0B00A + 1 ∧
      keepsBut [.flash, .regs, .counts] s t ∧ countsBut [0xE0B00A] s t := by
  have hexec := exec_eraseDone_ok hrun herasing hqueued
  rw [if_neg (by simp; omega)] at hexec
  have hafter : FlashWork (s.blockFreed a) (s.blockFreed a).startPage.flashRegs := (FlashWork.refl _).startPage.flashRegs
  have hfblock : (s.blockFreed a).startPage.flashRegs.fblock a = erasedBlock (s.fblock a) := by
    rw [flashRegs_fblock, fblock_congr (startPage_blocks _), blockFreed_fblock haddr]
  have hcnt (k : Key) : (s.blockFreed a).startPage.flashRegs.cnt k = s.cnt k + if k = 0xE0B00A then 1 else 0 := by
    rw [flashRegs_cnt, startPage_cnt, blockFreed_cnt]
  obtain ⟨hstored, hqueue⟩ := blockErased_empty ((blockFreed_work s a).trans hafter)
  exact exists_next hexec ⟨hfblock, hafter.records _ _ _ (blockFreed_hasRec s a), hstored, hqueue, by simp [hcnt],
    (blockFreed_frame s a).trans hafter.frame, countsBut_one hcnt⟩ fun _ ⟨a, b, c, d, e, f, g⟩ => ⟨a, b, c, d, e, f.withQueue, g⟩

include hrun haddr herasing hqueued in
theorem exec_eraseDone_retires (hlimit : s.reg 0x70200A ≠ 0) (hworn : s.reg 0x70200A ≤ (s.fblock a).erases + 1) :
    ∃ t, exec (.eraseDone a true) s = .next t ∧ (t.fblock a).retired = true ∧ (t.fblock a).erases = (s.fblock a).erases + 1 ∧
      t.hasRec 5 a 3 ∧ t.cnt 0xE0B00A = s.cnt 0xE0B00A + 1 ∧ t.cnt 0xE0B011 = s.cnt 0xE0B011 + 1 ∧
      keepsBut [.flash, .regs, .counts] s t ∧ countsBut [0xE0B00A, 0xE0B011] s t := by
  have hexec := exec_eraseDone_ok hrun herasing hqueued
  rw [if_pos (by simp [hlimit, hworn])] at hexec
  have hafter : FlashWork (s.blockFreed a) ((s.blockFreed a).retire a 3).flashRegs := ((FlashWork.refl _).retire _ _).flashRegs
  have hfblock : ((s.blockFreed a).retire a 3).flashRegs.fblock a = retiredBlock (erasedBlock (s.fblock a)) := by
    rw [flashRegs_fblock, retire_fblock, blockFreed_fblock haddr]
    rw [blockFreed_fblock haddr]
    exact haddr
  have hcnt (k : Key) : ((s.blockFreed a).retire a 3).flashRegs.cnt k =
      s.cnt k + (if k = 0xE0B00A then 1 else 0) + if k = 0xE0B011 then 1 else 0 := by
    rw [flashRegs_cnt, retire_cnt, blockFreed_cnt]
  have hrec : ((s.blockFreed a).retire a 3).flashRegs.hasRec 5 a 3 := (FlashWork.refl _).flashRegs.records _ _ _ (retire_hasRec _ _ _)
  exact exists_next hexec ⟨by rw [hfblock]; rfl, by rw [hfblock]; rfl, hrec, by simp [hcnt], by simp [hcnt],
    (blockFreed_frame s a).trans hafter.frame, countsBut_pair hcnt⟩ fun _ ⟨a, b, c, d, e, f, g⟩ => ⟨a, b, c, d, e, f.withQueue, g⟩

include hrun haddr herasing hqueued in
theorem exec_eraseDone_fails :
    ∃ t, exec (.eraseDone a false) s = .next t ∧ (t.fblock a).retired = true ∧ t.cnt 0xE0B012 = s.cnt 0xE0B012 + 1 ∧
      t.cnt 0xE0B011 = s.cnt 0xE0B011 + 1 ∧ keepsBut [.flash, .regs, .counts] s t ∧ countsBut [0xE0B011, 0xE0B012] s t := by
  have hafter : FlashWork (s.blockErased a) (((s.blockErased a).bump 0xE0B012 1).retire a 2).flashRegs := (((FlashWork.refl _).bump _ _).retire _ _).flashRegs
  have hkept : ((s.blockErased a).bump 0xE0B012 1).fblock a = s.fblock a := fblock_congr (by rw [State.bump_flash]; rfl) a
  have hfblock : (((s.blockErased a).bump 0xE0B012 1).retire a 2).flashRegs.fblock a = retiredBlock (s.fblock a) := by
    rw [flashRegs_fblock, retire_fblock (by rw [hkept, haddr]), hkept]
  have hcnt (k : Key) : (((s.blockErased a).bump 0xE0B012 1).retire a 2).flashRegs.cnt k =
      s.cnt k + (if k = 0xE0B011 then 1 else 0) + if k = 0xE0B012 then 1 else 0 := by
    rw [flashRegs_cnt, retire_cnt, State.cnt_bump, show (s.blockErased a).cnt k = s.cnt k from rfl]
    omega
  exact exists_next (exec_eraseDone_bad hrun herasing hqueued) ⟨by rw [hfblock]; rfl, by simp [hcnt], by simp [hcnt],
    ((with_flash_frame s _).mono (by simp)).trans hafter.frame, countsBut_pair hcnt⟩ fun _ ⟨a, b, c, f, g⟩ => ⟨a, b, c, f.withQueue, g⟩

end

end Sys2Proof.Machine
end

section
/-! SUPPORT. Map pages and the records that take effect: the cache, what goes out to the host, and the map (R315 to R318, R326, R327). -/

namespace Sys2Proof.Machine

/-! ### Requests to host memory (R427, R431) -/

theorem hostFlits_frame (s : State) (m n : Nat) : keepsBut [.link, .counts] s (s.hostFlits m n) := by
  unfold State.hostFlits
  exact (setUcie_frame _ _ _).trans' (bump_frame _ _ _) (by simp) (by simp)

/-- The two requests wait for the host. -/
def State.requested (s : State) (op : Nat) (x y : Nat × List Byte) : State :=
  { s with link := { s.link with
      toHost := s.link.toHost ++ [{ m := s.hostModule, tag := s.link.nextTag, op, status := 0, data := x.2, addr := x.1 },
        { m := s.hostModule, tag := s.link.nextTag + 1, op, status := 0, data := y.2, addr := y.1 }]
      nextTag := s.link.nextTag + 2 } }

theorem hostAsk_eq (s : State) (op : Nat) (x y : Nat × List Byte) : s.hostAsk op x y =
    (((s.requested op x y).hostFlits s.hostModule x.2.length).hostFlits s.hostModule y.2.length).bump 0xE0F009 2 := rfl

theorem hostAsk_frame (s : State) (op : Nat) (x y : Nat × List Byte) : keepsBut [.link, .counts] s (s.hostAsk op x y) := by
  rw [hostAsk_eq]
  exact ((((with_link_frame s _).mono (by simp)).trans (hostFlits_frame _ _ _)).trans (hostFlits_frame _ _ _)).trans ((bump_frame _ _ _).mono (by simp))

theorem hostAsk_counts (s : State) (op : Nat) (x y : Nat × List Byte) : countsBut [0xE0F001, 0xE0F009] s (s.hostAsk op x y) := by
  rw [hostAsk_eq]
  have hrequested : countsBut [0xE0F001] s (s.requested op x y) := (with_link_frame s _).countsBut (by simp) _
  exact ((hrequested.trans (hostFlits_counts _ _ _)).trans (hostFlits_counts _ _ _)).trans' (countsBut_bump _ _ _) (by simp) (by simp)

theorem hostFlits_toHost (s : State) (m n : Nat) : (s.hostFlits m n).link.toHost = s.link.toHost := by
  unfold State.hostFlits
  dsimp only
  rw [bump_frame _ _ _ .link (by simp)]
  rfl

theorem hostAsk_toHost (s : State) (op : Nat) (x y : Nat × List Byte) : (s.hostAsk op x y).link.toHost = s.link.toHost ++
    [{ m := s.hostModule, tag := s.link.nextTag, op, status := 0, data := x.2, addr := x.1 },
      { m := s.hostModule, tag := s.link.nextTag + 1, op, status := 0, data := y.2, addr := y.1 }] := by
  rw [hostAsk_eq, bump_frame _ _ _ .link (by simp), hostFlits_toHost, hostFlits_toHost]
  rfl

/-! ### The cache of map pages (R316, R318) -/

/-- What using a map page does: it is in the cache, and a page that goes out may be written to its host slot. -/
theorem cachePage_cases (s : State) (p : Nat) : ∃ c, p ∈ c ∧ (s.cachePage p = { s with flash := { s.flash with cache := c } } ∨
    ∃ slots x y, s.cachePage p = ({ s with flash := { s.flash with cache := c, hostSlots := slots } } : State).hostAsk 3 x y) := by
  unfold State.cachePage
  extract_lets c room out src cached
  have hp : p ∈ c.filter fun q => some q != out := by
    refine List.mem_filter.2 ⟨List.mem_append_right _ (List.mem_singleton.2 rfl), ?_⟩
    have hout : ∀ q, out = some q → q ≠ p := by
      intro q hq
      simp only [out] at hq
      split at hq
      · cases hq
      · have hpick := List.find?_some hq
        exact bne_iff_ne.1 (Bool.and_eq_true_iff.1 hpick).2
    cases hq : out with
    | none => rfl
    | some q => simpa [hq] using (hout q hq).symm
  clear_value out
  cases out with
  | none => exact ⟨_, hp, .inl rfl⟩
  | some q =>
    by_cases hskip : (cached.reg 0x703003 == 0 || cached.flash.hostSlots.contains (q % cached.reg 0x703003, q, (lk cached.flash.dirVer q).getD 0)) = true
    · exact ⟨_, hp, .inl (if_pos hskip)⟩
    · exact ⟨_, hp, .inr ⟨_, _, _, if_neg hskip⟩⟩

/-- What records that take effect may change: the map with its pages, the checkpoint, the requests to the host and what these count. -/
structure Applies (s t : State) : Prop where
  frame : keepsBut [.flash, .link, .counts] s t
  counts : countsBut [0xE0F001, 0xE0F009] s t
  flash : t.flash = { s.flash with
    map := t.flash.map, dirVer := t.flash.dirVer, dirty := t.flash.dirty, cache := t.flash.cache, hostSlots := t.flash.hostSlots, ckpt := t.flash.ckpt,
    ckptSeq := t.flash.ckptSeq, ckptMap := t.flash.ckptMap, ckptVer := t.flash.ckptVer, ckptReads := t.flash.ckptReads }

namespace Applies

variable {o s t u : State}

theorem refl (s : State) : Applies s s := ⟨by simp, by simp, rfl⟩

theorem trans (h : Applies s t) (g : Applies t u) : Applies s u where
  frame := h.frame.trans g.frame
  counts := h.counts.trans g.counts
  flash := g.flash.trans (congrArg (fun f : FlashS => { f with
    map := u.flash.map, dirVer := u.flash.dirVer, dirty := u.flash.dirty, cache := u.flash.cache, hostSlots := u.flash.hostSlots, ckpt := u.flash.ckpt,
    ckptSeq := u.flash.ckptSeq, ckptMap := u.flash.ckptMap, ckptVer := u.flash.ckptVer, ckptReads := u.flash.ckptReads }) h.flash)

/-- A step within the layer, in the parts that may change. -/
theorem within (h : Applies o s) (map dirVer dirty cache hostSlots ckpt ckptSeq ckptMap ckptVer ckptReads) :
    Applies o { s with flash := { s.flash with map, dirVer, dirty, cache, hostSlots, ckpt, ckptSeq, ckptMap, ckptVer, ckptReads } } :=
  h.trans ⟨(with_flash_frame s _).mono (by simp), (with_flash_frame s _).countsBut (by simp) _, rfl⟩

theorem hostAsk (h : Applies o s) (op x y) : Applies o (s.hostAsk op x y) :=
  h.trans ⟨(hostAsk_frame s op x y).mono (by simp), hostAsk_counts s op x y, by rw [hostAsk_frame s op x y .flash (by simp)]⟩

theorem cachePage (h : Applies o s) (p) : Applies o (s.cachePage p) := by
  obtain ⟨c, -, e | ⟨slots, x, y, e⟩⟩ := cachePage_cases s p
  · rw [e]
    exact h.within _ _ _ c _ _ _ _ _ _
  · rw [e]
    exact (h.within _ _ _ c slots _ _ _ _ _).hostAsk _ _ _

theorem touchPage (h : Applies o s) (p) : Applies o (s.touchPage p) := (h.within _ _ _ _ _ _ _ _ _ _).cachePage p

theorem foldl {α : Type} {f : State → α → State} (l : List α) (h : Applies o s) (hf : ∀ t a, Applies o t → Applies o (f t a)) :
    Applies o (l.foldl f s) := by
  induction l generalizing s with
  | nil => exact h
  | cons a l ih => exact ih (hf s a h)

theorem applyRec (h : Applies o s) (r) : Applies o (s.applyRec r) := by
  unfold State.applyRec
  split
  · exact (h.within _ _ _ _ _ _ _ _ _ _).touchPage _
  · exact foldl _ h fun _ _ h => (h.within _ _ _ _ _ _ _ _ _ _).touchPage _
  · exact h.within _ _ _ _ _ _ _ _ _ _
  · exact h

end Applies

/-- Using a map page changes the cache and what the host's slots hold, and no other part of the layer. -/
theorem cachePage_flash (s : State) (p : Nat) :
    (s.cachePage p).flash = { s.flash with cache := (s.cachePage p).flash.cache, hostSlots := (s.cachePage p).flash.hostSlots } := by
  obtain ⟨c, -, e | ⟨slots, x, y, e⟩⟩ := cachePage_cases s p
  · rw [e]
  · rw [e, hostAsk_frame _ 3 x y .flash (by simp)]

theorem cachePage_cached (s : State) (p : Nat) : p ∈ (s.cachePage p).flash.cache := by
  obtain ⟨c, hp, e | ⟨slots, x, y, e⟩⟩ := cachePage_cases s p
  · rwa [e]
  · rwa [e, hostAsk_frame _ 3 x y .flash (by simp)]

theorem cachePage_map (s : State) (p : Nat) : (s.cachePage p).flash.map = s.flash.map := congrArg (·.map) (cachePage_flash s p)

theorem touchPage_map (s : State) (p : Nat) : (s.touchPage p).flash.map = s.flash.map := cachePage_map _ p

/-! ### The map (R313, R315, R326) -/

/-- The entry of a logical block in a map; one that is not listed is all zeros. -/
def entryIn (m : List (Nat × FEntry)) (b : Nat) : FEntry := (lk m b).getD zeroEntry

theorem fentry_eq (s : State) (b : Nat) : s.fentry b = entryIn s.flash.map b := rfl

theorem entryIn_setEntry (m : List (Nat × FEntry)) (b c : Nat) (e : FEntry) : entryIn (setEntry m b e) c = if c = b then e else entryIn m c := by
  unfold entryIn setEntry
  by_cases hzero : e = zeroEntry
  · rw [if_pos (by simpa using hzero)]
    by_cases hc : c = b
    · rw [hc, lk_del_same, if_pos rfl, hzero]
      rfl
    · rw [lk_del_ne _ hc, if_neg hc]
  · rw [if_neg (by simpa using hzero), lk_put]
    split <;> rfl

/-- A map entry is set, and its map page has changed (R316). -/
def State.entrySet (s : State) (b : Nat) (e : FEntry) : State :=
  { s with flash := { s.flash with map := setEntry s.flash.map b e } }.touchPage (mapPage b)

theorem entrySet_fentry (s : State) (b c : Nat) (e : FEntry) : (s.entrySet b e).fentry c = if c = b then e else s.fentry c := by
  rw [fentry_eq, State.entrySet, touchPage_map, entryIn_setEntry]
  rfl

/-- A checkpoint record takes effect: the map and the read counts of its time are kept (R320, R327). -/
def State.checkpointed (s : State) (ckpt seq : Nat) : State :=
  { s with flash := { s.flash with
      ckpt, ckptSeq := seq, ckptMap := s.flash.map, ckptVer := s.flash.dirVer
      ckptReads := (s.flash.blocks.filter fun x => 0 < x.2.reads).map fun x => (x.1, x.2.reads) } }

section
variable (s : State) {r : JRec}

theorem applyRec_mapSet (h : r.kind = 1) : s.applyRec r = s.entrySet r.subject (entryOfBits r.value) := by
  unfold State.applyRec
  rw [h]
  rfl

theorem applyRec_discard (h : r.kind = 4) : s.applyRec r =
    (List.range r.value).foldl (fun s i => s.entrySet (r.subject + i) { s.fentry (r.subject + i) with discarded := true }) s := by
  unfold State.applyRec
  rw [h]
  rfl

theorem applyRec_checkpoint (h : r.kind = 7) : s.applyRec r = s.checkpointed r.subject r.value := by
  unfold State.applyRec
  rw [h]
  rfl

theorem applyRec_sets (h : r.kind = 1) : (s.applyRec r).fentry r.subject = entryOfBits r.value := by
  rw [applyRec_mapSet s h, entrySet_fentry, if_pos rfl]

/-- The entries of a discard record are marked one after the other, and no other entry changes. -/
theorem foldl_discard_fentry (a n b : Nat) :
    ((List.range n).foldl (fun s i => s.entrySet (a + i) { s.fentry (a + i) with discarded := true }) s).fentry b =
      if a ≤ b ∧ b < a + n then { s.fentry b with discarded := true } else s.fentry b := by
  induction n with
  | zero => exact (if_neg (by omega)).symm
  | succ n ih =>
    rw [List.range_succ, List.foldl_append, List.foldl_cons, List.foldl_nil, entrySet_fentry]
    by_cases hb : b = a + n
    · subst hb
      rw [if_pos rfl, if_pos (by omega), ih, if_neg (by omega)]
    · rw [if_neg hb, ih]
      exact if_congr (by omega) rfl rfl

theorem applyRec_discards (h : r.kind = 4) {i : Nat} (hi : i < r.value) :
    (s.applyRec r).fentry (r.subject + i) = { s.fentry (r.subject + i) with discarded := true } := by
  rw [applyRec_discard s h, foldl_discard_fentry, if_pos ⟨by omega, by omega⟩]

end

end Sys2Proof.Machine
end

section
/-! PROOF. The row of a journal page that is programmed (O34). -/

namespace Sys2Proof.Machine

/-- The records of the page in progress take effect in order (R315). -/
def State.pageApplied (s : State) : State :=
  s.flash.inPage.foldl State.applyRec { s with flash := { s.flash with inPage := [], journal := s.flash.journal ++ s.flash.inPage } }

/-- The records up to `seq` are reported as programmed, and those before the checkpoint leave the journal (R327). -/
def State.pageCounted (s : State) (n seq : Nat) : State :=
  let u := (s.bump 0xE0B019 n).setReg 0x701008 seq
  { u with flash := { u.flash with journal := u.flash.journal.filter fun r => u.flash.ckptSeq ≤ r.seq } }

/-- What follows once the records have taken effect. -/
def State.pageEnded (s : State) (n seq : Nat) : State := (s.pageCounted n seq).startErases.startPage.flashRegs

theorem exec_journalPageProgrammed_eq {s : State} {r : JRec} {rs : List JRec} (hrun : s.running = true) (hpage : s.flash.inPage = rs ++ [r]) :
    exec .journalPageProgrammed s = .next { s.pageApplied.pageEnded (rs.length + 1) r.seq with pending := s.pending } := by
  have hlast : s.flash.inPage.getLast? = some r := by simp [hpage]
  have hlen : rs.length + 1 = s.flash.inPage.length := by simp [hpage]
  change execJournalPageProgrammed s = _
  unfold execJournalPageProgrammed
  rw [live_running hrun, hlast, hlen]
  rfl

theorem pageApplied_applies (s : State) :
    Applies { s with flash := { s.flash with inPage := [], journal := s.flash.journal ++ s.flash.inPage } } s.pageApplied :=
  (Applies.refl _).foldl _ fun _ _ h => h.applyRec _

theorem pageApplied_frame (s : State) : keepsBut [.flash, .link, .counts] s s.pageApplied :=
  ((with_flash_frame s _).mono (by simp)).trans (pageApplied_applies s).frame

theorem pageApplied_one {s : State} {r : JRec} (hpage : s.flash.inPage = [r]) : s.pageApplied =
    ({ s with flash := { s.flash with inPage := [], journal := s.flash.journal ++ s.flash.inPage } } : State).applyRec r := by
  unfold State.pageApplied
  rw [hpage]
  rfl

section
variable (s : State) (n seq : Nat)

theorem pageCounted_frame : keepsBut [.flash, .regs, .counts] s (s.pageCounted n seq) :=
  (((bump_frame s _ _).mono (by simp)).trans ((setReg_frame _ _ _).mono (by simp))).trans ((with_flash_frame _ _).mono (by simp))

theorem pageCounted_flash : (s.pageCounted n seq).flash = { s.flash with journal := s.flash.journal.filter fun r => s.flash.ckptSeq ≤ r.seq } := by
  unfold State.pageCounted
  dsimp only
  rw [State.setReg_flash, State.bump_flash]

theorem pageEnded_work : FlashWork (s.pageCounted n seq) (s.pageEnded n seq) := (FlashWork.refl _).startErases.startPage.flashRegs

theorem pageEnded_frame : keepsBut [.flash, .regs, .counts] s (s.pageEnded n seq) := (pageCounted_frame s n seq).trans (pageEnded_work s n seq).frame

theorem pageEnded_flash : ∃ blocks buffer inPage nextRec nextPage journal,
    (s.pageEnded n seq).flash = { s.flash with blocks, buffer, inPage, nextRec, nextPage, journal } :=
  ⟨_, _, _, _, _, _, (pageEnded_work s n seq).flash.trans (by rw [pageCounted_flash])⟩

theorem pageEnded_fentry (b : Nat) : (s.pageEnded n seq).fentry b = s.fentry b := by
  obtain ⟨_, _, _, _, _, _, e⟩ := pageEnded_flash s n seq
  rw [fentry_eq, e, fentry_eq]

theorem pageEnded_cnt (k : Key) : (s.pageEnded n seq).cnt k = s.cnt k + if k = 0xE0B019 then n else 0 := by
  unfold State.pageEnded
  rw [flashRegs_cnt, startPage_cnt, startErases_cnt]
  exact State.cnt_bump s 0xE0B019 k n

theorem pageEnded_reg : (s.pageEnded n seq).reg 0x701008 = seq := by
  unfold State.pageEnded
  rw [flashRegs_reg _ (by decide) (by decide), (startPage_frame _).reg (by simp), (startErases_frame _).reg (by simp)]
  exact State.reg_setReg_same _ _ _

end

theorem startPage_idle {s : State} (h : s.flash.buffer = []) : s.startPage = s := by
  unfold State.startPage
  rw [if_pos (by simp [h])]

theorem startErases_flash (s : State) : s.startErases.flash = { s.flash with blocks := s.startErases.flash.blocks } := by
  have hfold (l : List (Nat × Nat)) : ∀ u : State, (l.foldl (fun s e => s.setFblock { s.fblock e.1 with erasing := true }) u).flash =
      { u.flash with blocks := (l.foldl (fun s e => s.setFblock { s.fblock e.1 with erasing := true }) u).flash.blocks } := by
    induction l with
    | nil => exact fun _ => rfl
    | cons e l ih => exact fun u => ih (u.setFblock { u.fblock e.1 with erasing := true })
  unfold State.startErases
  split
  · rfl
  · exact hfold _ s

/-- With nothing buffered, no page follows the one that was programmed. -/
theorem pageEnded_idle {s : State} (hbuffer : s.flash.buffer = []) (hpage : s.flash.inPage = []) (n seq : Nat) : (s.pageEnded n seq).flash.inPage = [] := by
  have herases := (startErases_flash (s.pageCounted n seq)).trans (by rw [pageCounted_flash])
  unfold State.pageEnded
  rw [flashRegs_flash, startPage_idle (by rw [herases]; exact hbuffer), herases]
  exact hpage

theorem exec_journalPageProgrammed_reports {s : State} {rs : List JRec} {r : JRec} (hrun : s.running = true) (hpage : s.flash.inPage = rs ++ [r]) :
    ∃ t, exec .journalPageProgrammed s = .next t ∧ t.reg 0x701008 = r.seq ∧ t.cnt 0xE0B019 = s.cnt 0xE0B019 + rs.length + 1 ∧
      (s.flash.buffer = [] → t.flash.inPage = []) ∧
      keepsBut [.flash, .link, .regs, .counts] s t ∧ countsBut [0xE0B019, 0xE0F001, 0xE0F009] s t := by
  have happlied := pageApplied_applies s
  have hcounts : countsBut [0xE0F001, 0xE0F009] s s.pageApplied := ((with_flash_frame s _).countsBut (by simp) _).trans happlied.counts
  have hcnt := pageEnded_cnt s.pageApplied (rs.length + 1) r.seq
  have hidle (hbuffer : s.flash.buffer = []) : (s.pageApplied.pageEnded (rs.length + 1) r.seq).flash.inPage = [] :=
    pageEnded_idle ((congrArg (·.buffer) happlied.flash).trans hbuffer) (congrArg (·.inPage) happlied.flash) _ _
  have hcounted : (s.pageApplied.pageEnded (rs.length + 1) r.seq).cnt 0xE0B019 = s.cnt 0xE0B019 + rs.length + 1 := by
    rw [hcnt, if_pos rfl, hcounts _ (by decide), Nat.add_assoc]
  exact exists_next (exec_journalPageProgrammed_eq hrun hpage) ⟨pageEnded_reg _ _ _, hcounted, hidle,
    (pageApplied_frame s).trans' (pageEnded_frame _ _ _) (by simp) (by simp), hcounts.trans' (countsBut_one hcnt) (by simp) (by simp)⟩
    fun _ ⟨a, b, c, f, g⟩ => ⟨a, b, c, f.withQueue, g⟩

section
variable {s : State} {r : JRec} (hrun : s.running = true) (hpage : s.flash.inPage = [r])
include hrun hpage

theorem exec_journalPageProgrammed_sets (hkind : r.kind = 1) :
    ∃ t, exec .journalPageProgrammed s = .next t ∧ t.fentry r.subject = entryOfBits r.value ∧ keepsBut [.flash, .link, .regs, .counts] s t := by
  have hentry : (s.pageApplied.pageEnded 1 r.seq).fentry r.subject = entryOfBits r.value := by
    rw [pageEnded_fentry, pageApplied_one hpage, applyRec_sets _ hkind]
  exact exists_next (exec_journalPageProgrammed_eq (rs := []) hrun hpage)
    ⟨hentry, (pageApplied_frame s).trans' (pageEnded_frame _ _ _) (by simp) (by simp)⟩ fun _ ⟨a, f⟩ => ⟨a, f.withQueue⟩

theorem exec_journalPageProgrammed_discards (hkind : r.kind = 4) :
    ∃ t, exec .journalPageProgrammed s = .next t ∧
      (∀ i < r.value, t.fentry (r.subject + i) = { s.fentry (r.subject + i) with discarded := true }) ∧ keepsBut [.flash, .link, .regs, .counts] s t := by
  have hentries (i : Nat) (hi : i < r.value) :
      (s.pageApplied.pageEnded 1 r.seq).fentry (r.subject + i) = { s.fentry (r.subject + i) with discarded := true } := by
    rw [pageEnded_fentry, pageApplied_one hpage, applyRec_discards _ hkind hi]
    rfl
  exact exists_next (exec_journalPageProgrammed_eq (rs := []) hrun hpage)
    ⟨hentries, (pageApplied_frame s).trans' (pageEnded_frame _ _ _) (by simp) (by simp)⟩ fun _ ⟨a, f⟩ => ⟨a, f.withQueue⟩

theorem exec_journalPageProgrammed_checkpoints (hkind : r.kind = 7) :
    ∃ t, exec .journalPageProgrammed s = .next t ∧ t.flash.ckpt = r.subject ∧ t.flash.ckptSeq = r.value ∧ t.flash.ckptMap = s.flash.map ∧
      keepsBut [.flash, .regs, .counts] s t := by
  obtain ⟨a, ha⟩ : ∃ a : State, a = { s with flash := { s.flash with inPage := [], journal := s.flash.journal ++ s.flash.inPage } } := ⟨_, rfl⟩
  have happlied : s.pageApplied = a.checkpointed r.subject r.value := by rw [pageApplied_one hpage, applyRec_checkpoint _ hkind, ha]
  have hframe : keepsBut [.flash] s s.pageApplied := happlied ▸ (ha ▸ with_flash_frame s _ : keepsBut [.flash] s a).trans (with_flash_frame a _)
  obtain ⟨_, _, _, _, _, _, e⟩ := pageEnded_flash s.pageApplied 1 r.seq
  have hmap : a.flash.map = s.flash.map := by rw [ha]
  rw [happlied] at e
  exact exists_next (exec_journalPageProgrammed_eq (rs := []) hrun hpage)
    ⟨by rw [happlied]; exact congrArg (·.ckpt) e, by rw [happlied]; exact congrArg (·.ckptSeq) e, by rw [happlied]; exact (congrArg (·.ckptMap) e).trans hmap,
      (hframe.mono (by simp)).trans (pageEnded_frame _ _ _)⟩ fun _ ⟨a, b, c, f⟩ => ⟨a, b, c, f.withQueue⟩

end

end Sys2Proof.Machine
end

section
/-! PROOF. Discards, checkpoints and the training of a channel (O34). -/

namespace Sys2Proof.Machine

/-! ### Discards (R326) -/

/-- The blocks of the discards that are queued. -/
def State.queuedBlocks (s : State) : Nat := s.flash.discards.foldl (fun a d => a + d.2) 0

/-- A discard joins the queue. -/
def State.discardQueued (s : State) (b n : Nat) : State := { s with flash := { s.flash with discards := s.flash.discards ++ [(b, n)] } }

theorem discardQueued_blocks (s : State) (b n : Nat) : (s.discardQueued b n).queuedBlocks = s.queuedBlocks + n := List.foldl_append

theorem takeDiscards_eq {s : State} (h : s.flash.discards ≠ []) : s.takeDiscards =
    ((({ s with flash := { s.flash with discards := [] } } : State).journal (s.flash.discards.map fun d => (4, d.1, d.2))).bump
      0xE0B01D s.queuedBlocks).startPage := by
  unfold State.takeDiscards
  exact if_neg (by simpa using h)

/-- What taking the queue does: it is empty, every discard of it has its record, and its blocks are counted. -/
theorem takeDiscards_takes (s : State) : s.takeDiscards.flash.discards = [] ∧ (∀ d ∈ s.flash.discards, s.takeDiscards.hasRec 4 d.1 d.2) ∧
    ∀ k, s.takeDiscards.cnt k = s.cnt k + if k = 0xE0B01D then s.queuedBlocks else 0 := by
  by_cases hnone : s.flash.discards = []
  · have hidle : s.takeDiscards = s := by
      unfold State.takeDiscards
      exact if_pos (by simpa using hnone)
    rw [hidle]
    exact ⟨hnone, by simp [hnone], by simp [State.queuedBlocks, hnone]⟩
  · rw [takeDiscards_eq hnone]
    have hwork {t : State} (ht : FlashWork { s with flash := { s.flash with discards := [] } } t) : t.flash.discards = [] := congrArg (·.discards) ht.flash
    refine ⟨hwork (((FlashWork.refl _).journal _).bump _ _).startPage, fun d hd => ?_, fun k => ?_⟩
    · exact ((FlashWork.refl _).bump _ _).startPage.records _ _ _ (journal_hasRec _ (List.mem_map.2 ⟨d, hd, rfl⟩))
    · rw [startPage_cnt, State.cnt_bump, journal_cnt]
      rfl

/-- A discard of blocks is taken in a window; else it joins the queue, or waits where the queue is full (R326). -/
theorem discardBlocks_eq (s : State) (b : Nat) {n : Nat} (hn : n ≠ 0) : s.discardBlocks b n =
    if s.windowIn 7 then (s.discardQueued b n).takeDiscards.flashRegs
    else if s.reg 0x70200C < s.queuedBlocks + n then { s with flash := { s.flash with waitDiscards := s.flash.waitDiscards ++ [(b, n)] } }
    else (s.discardQueued b n).flashRegs := by
  unfold State.discardBlocks
  exact if_neg (by simpa using hn)

theorem exec_discard_partial {s : State} {addr len : Nat} (hrun : s.running = true) (hpart : addr % 4096 ≠ 0 ∨ len % 4096 ≠ 0) (tenant : Nat) :
    ∃ t, exec (.discard tenant addr len) s = .next t ∧ t.cnt 0xE0B01E = s.cnt 0xE0B01E + 1 ∧ keepsBut [.counts] s t ∧ countsBut [0xE0B01E] s t := by
  change ∃ t, execDiscard tenant addr len s = .next t ∧ _
  unfold execDiscard
  exact exists_live hrun (if_pos (by simpa using hpart)) ⟨State.cnt_bump_same _ _ _, bump_frame _ _ _, countsBut_bump _ _ _⟩ fun _ ⟨a, f, g⟩ => ⟨a, f.withQueue, g⟩

section
variable {s : State} {tenant addr len : Nat} (hrun : s.running = true) (haddr : addr % 4096 = 0) (hlen : len % 4096 = 0) (hsome : len ≠ 0)
  (hregion : s.inRegion tenant (addr / 4096) (len / 4096) = true)
include hrun haddr hlen hregion

/-- A discard of whole blocks of the tenant's region is issued. -/
theorem exec_discard_whole :
    exec (.discard tenant addr len) s = .next { s.discardBlocks (addr / 4096) (len / 4096) with pending := s.pending } := by
  change execDiscard tenant addr len s = _
  unfold execDiscard
  rw [live_running hrun, if_neg (by simp [haddr, hlen]), if_pos hregion]

include hsome

theorem exec_discard_queues (hroom : s.queuedBlocks + len / 4096 ≤ s.reg 0x70200C) (hclosed : s.windowIn 7 = false) :
    ∃ t, exec (.discard tenant addr len) s = .next t ∧ t.flash = { s.flash with discards := s.flash.discards ++ [(addr / 4096, len / 4096)] } ∧
      t.reg 0x701009 = s.queuedBlocks + len / 4096 ∧ keepsBut [.flash, .regs] s t := by
  have he : s.discardBlocks (addr / 4096) (len / 4096) = (s.discardQueued (addr / 4096) (len / 4096)).flashRegs := by
    rw [discardBlocks_eq s _ (by omega), if_neg (by simp [hclosed]), if_neg (Nat.not_lt.2 hroom)]
  have hqueued : (s.discardQueued (addr / 4096) (len / 4096)).flashRegs.reg 0x701009 = s.queuedBlocks + len / 4096 :=
    (flashRegs_queued _).trans (discardQueued_blocks _ _ _)
  refine exists_next (exec_discard_whole hrun haddr hlen hregion) ?_ fun _ ⟨a, b, f⟩ => ⟨a, b, f.withQueue⟩
  rw [he]
  exact ⟨flashRegs_flash _, hqueued, (with_flash_frame s _).trans' (flashRegs_frame _) (by simp) (by simp)⟩

theorem exec_discard_waits (hfull : s.reg 0x70200C < s.queuedBlocks + len / 4096) (hclosed : s.windowIn 7 = false) :
    ∃ t, exec (.discard tenant addr len) s = .next t ∧
      t.flash = { s.flash with waitDiscards := s.flash.waitDiscards ++ [(addr / 4096, len / 4096)] } ∧ keepsBut [.flash] s t := by
  have he : s.discardBlocks (addr / 4096) (len / 4096) =
      { s with flash := { s.flash with waitDiscards := s.flash.waitDiscards ++ [(addr / 4096, len / 4096)] } } := by
    rw [discardBlocks_eq s _ (by omega), if_neg (by simp [hclosed]), if_pos hfull]
  refine exists_next (exec_discard_whole hrun haddr hlen hregion) ?_ fun _ ⟨a, f⟩ => ⟨a, f.withQueue⟩
  rw [he]
  exact ⟨rfl, with_flash_frame s _⟩

theorem exec_discard_takes (hopen : s.windowIn 7 = true) :
    ∃ t, exec (.discard tenant addr len) s = .next t ∧ t.flash.discards = [] ∧ t.hasRec 4 (addr / 4096) (len / 4096) ∧
      t.cnt 0xE0B01D = s.cnt 0xE0B01D + s.queuedBlocks + len / 4096 ∧ keepsBut [.flash, .regs, .counts] s t ∧ countsBut [0xE0B01D] s t := by
  obtain ⟨u, hu⟩ : ∃ u, u = s.discardQueued (addr / 4096) (len / 4096) := ⟨_, rfl⟩
  have he : s.discardBlocks (addr / 4096) (len / 4096) = u.takeDiscards.flashRegs := by
    rw [discardBlocks_eq s _ (by omega), if_pos hopen, hu]
  obtain ⟨htaken, hrecs, hcnt⟩ := takeDiscards_takes u
  have hrec : u.takeDiscards.flashRegs.hasRec 4 (addr / 4096) (len / 4096) :=
    (FlashWork.refl _).flashRegs.records _ _ _ (hrecs (addr / 4096, len / 4096) (by simp [hu, State.discardQueued]))
  have hcnt' (k : Key) : u.takeDiscards.flashRegs.cnt k = s.cnt k + if k = 0xE0B01D then s.queuedBlocks + len / 4096 else 0 := by
    rw [flashRegs_cnt, hcnt, hu, discardQueued_blocks]
    rfl
  have hframe : keepsBut [.flash, .regs, .counts] s u.takeDiscards.flashRegs :=
    (((hu ▸ with_flash_frame s _ : keepsBut [.flash] s u).mono (by simp)).trans ((takeDiscards_frame u).mono (by simp))).trans
      ((flashRegs_frame _).mono (by simp))
  refine exists_next (exec_discard_whole hrun haddr hlen hregion) ?_ fun _ ⟨a, b, c, f, g⟩ => ⟨a, b, c, f.withQueue, g⟩
  rw [he]
  exact ⟨by rw [flashRegs_flash, htaken], hrec, by rw [hcnt', if_pos rfl, Nat.add_assoc], hframe, countsBut_one hcnt'⟩

end

/-! ### Checkpoints (R327, R479, R480) -/

/-- A counter's next value lies above the one that it holds. -/
theorem counter_lt_nextCounter (s : State) (i : Nat) : s.counter i < s.nextCounter i := by
  have hle (l : List Nat) : ∀ a, a ≤ l.foldl max a := by
    induction l with
    | nil => exact fun a => Nat.le_refl a
    | cons x l ih => exact fun a => (Nat.le_max_left a x).trans (ih (max a x))
  exact Nat.lt_succ_of_le (hle _ _)

theorem wantAdvance_frame (s : State) (i v : Nat) : keepsBut [.sec] s (s.wantAdvance i v) := by
  unfold State.wantAdvance
  split
  · simp
  · exact with_sec_frame s _

theorem wantAdvance_waits {s : State} {i v : Nat} (h : s.counter i < v) : (i, v) ∈ (s.wantAdvance i v).sec.waitAdv := by
  unfold State.wantAdvance
  by_cases hlisted : s.sec.waitAdv.contains (i, v) = true
  · rw [if_pos (by rw [hlisted, Bool.or_true])]
    simpa using hlisted
  · rw [if_neg (by simp_all)]
    exact List.mem_append_right _ (List.mem_singleton.2 rfl)

/-- A changed map page goes to flash, to a place that is a free value (entry 12). -/
def State.pageFlushed (s : State) (p : Nat) : State := s.draw.2.journal [(6, p, Config.freeNat s.draw.1 % 2 ^ 64)]

theorem pageFlushed_frame (s : State) (p : Nat) : keepsBut [.flash, .free] s (s.pageFlushed p) :=
  (with_free_frame s _).trans' (journal_frame _ _) (by simp) (by simp)

theorem pageFlushed_records (s : State) (p : Nat) : (∀ k a v, s.hasRec k a v → (s.pageFlushed p).hasRec k a v) ∧ ∃ v, (s.pageFlushed p).hasRec 6 p v :=
  ⟨((FlashWork.refl s.draw.2).journal _).records, _, journal_hasRec _ (List.mem_singleton.2 rfl)⟩

/-- Every page of a list of changed pages gets its record, and no record is lost. -/
theorem foldl_pageFlushed_records (l : List Nat) (s : State) : (∀ k a v, s.hasRec k a v → (l.foldl State.pageFlushed s).hasRec k a v) ∧
    ∀ p ∈ l, ∃ v, (l.foldl State.pageFlushed s).hasRec 6 p v := by
  induction l generalizing s with
  | nil => exact ⟨fun _ _ _ h => h, by simp⟩
  | cons x l ih =>
    obtain ⟨hkept, v, hnew⟩ := pageFlushed_records s x
    obtain ⟨hkept', hnew'⟩ := ih (s.pageFlushed x)
    refine ⟨fun k a v h => hkept' k a v (hkept k a v h), fun p hp => ?_⟩
    rcases List.mem_cons.1 hp with rfl | hp
    · exact ⟨v, hkept' _ _ _ hnew⟩
    · exact hnew' p hp

/-- The changed pages are flushed, and none is left. -/
def State.mapFlushed (s : State) : State :=
  let u := s.flash.dirty.foldl State.pageFlushed s
  { u with flash := { u.flash with dirty := [] } }

theorem mapFlushed_frame (s : State) : keepsBut [.flash, .free] s s.mapFlushed :=
  (keepsBut_foldl _ s pageFlushed_frame).trans ((with_flash_frame _ _).mono (by simp))

/-- The checkpoint with its record (R327). -/
def State.checkpointWritten (s : State) (n : Nat) : State := (s.mapFlushed.journal [(7, n, s.mapFlushed.flash.nextRec - 1)]).startPage

theorem checkpointWritten_work (s : State) (n : Nat) : FlashWork s.mapFlushed (s.checkpointWritten n) := ((FlashWork.refl _).journal _).startPage

theorem checkpointWritten_frame (s : State) (n : Nat) : keepsBut [.flash, .free] s (s.checkpointWritten n) :=
  (mapFlushed_frame s).trans (((journal_frame _ _).trans (startPage_frame _)).mono (by simp))

theorem exec_directoryCheckpoint_writes {s : State} (hrun : s.running = true) (hopen : s.windowIn 7 = true) (hadvance : s.canAdvance = true) :
    ∃ t, exec .directoryCheckpoint s = .next t ∧ t.flash.dirty = [] ∧
      (∃ r ∈ t.flash.buffer ++ t.flash.inPage, r.kind = 7 ∧ r.subject = s.nextCounter 3) ∧
      (∀ p ∈ s.flash.dirty, ∃ r ∈ t.flash.buffer ++ t.flash.inPage, r.kind = 6 ∧ r.subject = p) ∧ (3, s.nextCounter 3) ∈ t.sec.waitAdv ∧
      keepsBut [.flash, .sec, .free] s t := by
  obtain ⟨u, hu⟩ : ∃ u, u = s.checkpointWritten (s.nextCounter 3) := ⟨_, rfl⟩
  have hwork : FlashWork s.mapFlushed u := hu ▸ checkpointWritten_work s _
  have hframe : keepsBut [.flash, .free] s u := hu ▸ checkpointWritten_frame s _
  have hwant := wantAdvance_frame u 3 (s.nextCounter 3)
  have hflash : (u.wantAdvance 3 (s.nextCounter 3)).flash = u.flash := hwant .flash (by simp)
  have hcounter : u.counter 3 = s.counter 3 := hframe.reg (by simp) _
  have hcheckpoint : ∃ r ∈ u.flash.buffer ++ u.flash.inPage, r.kind = 7 ∧ r.subject = s.nextCounter 3 := by
    obtain ⟨r, hr, hkind, hsubject, -⟩ := (FlashWork.refl _).startPage.records _ _ _
      (journal_hasRec s.mapFlushed (List.mem_singleton.2 rfl : (7, s.nextCounter 3, s.mapFlushed.flash.nextRec - 1) ∈ _))
    exact hu ▸ ⟨r, hr, hkind, hsubject⟩
  have hpages : ∀ p ∈ s.flash.dirty, ∃ r ∈ u.flash.buffer ++ u.flash.inPage, r.kind = 6 ∧ r.subject = p := by
    intro p hp
    obtain ⟨v, hrec⟩ := (foldl_pageFlushed_records s.flash.dirty s).2 p hp
    obtain ⟨r, hr, hkind, hsubject, -⟩ := hwork.records _ _ _ hrec
    exact ⟨r, hr, hkind, hsubject⟩
  have he : (if !s.windowIn 7 || !s.canAdvance then s else
      (s.checkpointWritten (s.nextCounter 3)).wantAdvance 3 (s.nextCounter 3)) = u.wantAdvance 3 (s.nextCounter 3) := by
    rw [if_neg (by simp [hopen, hadvance]), hu]
  change ∃ t, execDirectoryCheckpoint s = .next t ∧ _
  unfold execDirectoryCheckpoint
  refine exists_live hrun he ?_ fun _ ⟨a, b, c, d, f⟩ => ⟨a, b, c, d, f.withQueue⟩
  rw [hflash]
  exact ⟨congrArg (·.dirty) hwork.flash, hcheckpoint, hpages, wantAdvance_waits (hcounter ▸ counter_lt_nextCounter s 3),
    hframe.trans' hwant (by simp) (by simp)⟩

theorem exec_directoryCheckpoint_idle {s : State} (hrun : s.running = true) (h : s.windowIn 7 = false ∨ s.canAdvance = false) :
    exec .directoryCheckpoint s = .next s := by
  change execDirectoryCheckpoint s = _
  unfold execDirectoryCheckpoint
  exact live_idle hrun (if_pos (by simpa using h))

/-! ### Training (R309) -/

theorem exec_flashChannelRetrain_keeps {s : State} {ch : Nat} (hrun : s.running = true) (hch : ch < 32) (hserves : s.reg (0x700101 + ch) = 0) :
    ∃ t, exec (.flashChannelRetrain ch) s = .next t ∧ lk t.flash.trained ch = some s.now ∧ keepsBut [.flash] s t := by
  change ∃ t, execFlashChannelRetrain ch s = .next t ∧ _
  unfold execFlashChannelRetrain
  exact exists_live hrun (if_pos (by simp [hch, hserves])) ⟨lk_put_same _ _ _, with_flash_frame s _⟩ fun _ ⟨a, f⟩ => ⟨a, f.withQueue⟩

end Sys2Proof.Machine
end

section
/-! PROOF. The recovery after a power loss (O34). -/

namespace Sys2Proof.Machine

/-! ### What the recovery does, step by step (R329, R481) -/

/-- The checkpoint that the recovery begins with: the newest one, or an empty map where counter 3 does not accept it. -/
def State.checkpointTaken (s : State) : State :=
  if s.accepts 3 s.flash.ckpt then s else
  { s with flash := { s.flash with ckpt := s.reg 0xA02003, ckptSeq := 0, ckptMap := [], ckptVer := [], ckptReads := [] } }

/-- The records after the checkpoint in the journal pages that survived. -/
def State.journalKept (s : State) (lost : Nat) : List JRec :=
  s.flash.journal.filter fun r => s.flash.ckptSeq < r.seq && r.page + lost < s.flash.nextPage

/-- The layer as the checkpoint has it, with the records that are kept. -/
def State.mapRecovered (s : State) (kept : List JRec) : State :=
  { s with flash := { s.flash with
      map := s.flash.ckptMap, dirVer := s.flash.ckptVer, dirty := [], cache := [], asked := [], eraseQ := [], journal := kept, recovering := false
      nextRec := ((kept.getLast?.map (·.seq)).getD s.flash.ckptSeq) + 1
      blocks := s.flash.blocks.map fun x => (x.1, { x.2 with
        reads := if kept.any (fun r => r.kind == 3 && r.subject == x.1) then 0 else (lk s.flash.ckptReads x.1).getD 0 }) } }

/-- The records that are kept take effect. -/
def State.journalReplayed (s : State) (kept : List JRec) : State :=
  (kept.foldl State.applyRec (s.mapRecovered kept)).setReg 0x701008 ((s.mapRecovered kept).flash.nextRec - 1)

/-- A block without valid content is erased, and so is one whose erase was interrupted. -/
def State.swept (s : State) (b : FBlock) : State :=
  if b.retired then s
  else if b.erasing then (s.eraseAtRecovery b).bump 0xE0B01C 1
  else if !(s.validIn b.addr).isEmpty then s
  else (s.eraseAtRecovery b).bump (if s.flash.ckptSeq < b.opened then 0xE0B01B else 0xE0B01C) 1

/-- The blocks are swept, and the layer reports. -/
def State.recoveryEnded (s : State) : State := ((s.usedBlocks.foldl State.swept s).bump 0xE0B01A 1).startPage.flashRegs

theorem exec_powerLossRecovery_eq {s : State} (hrun : s.running = true) (hwindow : bit (s.reg 0x701001) 0 = true) (hrecovering : s.flash.recovering = true)
    (hprogs : s.flash.progs = []) (hpage : s.flash.inPage = []) (lost : Nat) : exec (.powerLossRecovery lost) s =
      .next { (s.checkpointTaken.journalReplayed (s.checkpointTaken.journalKept lost)).recoveryEnded with pending := s.pending } := by
  change execPowerLossRecovery lost s = _
  unfold execPowerLossRecovery
  rw [live_running hrun, if_neg (by simp [hwindow, hrecovering, hprogs, hpage])]
  rfl

theorem checkpointTaken_accepted {s : State} (h : s.accepts 3 s.flash.ckpt = true) : s.checkpointTaken = s := if_pos h

theorem journalKept_nil {s : State} (h : s.flash.journal = []) (lost : Nat) : s.journalKept lost = [] := by
  unfold State.journalKept
  rw [h]
  rfl

theorem journalKept_one {s : State} {r : JRec} (h : s.flash.journal = [r]) (hseq : s.flash.ckptSeq < r.seq) (lost : Nat) :
    s.journalKept lost = if r.page + lost < s.flash.nextPage then [r] else [] := by
  unfold State.journalKept
  rw [h, List.filter_singleton]
  simp [hseq]

theorem journalReplayed_nil (s : State) : s.journalReplayed [] = (s.mapRecovered []).setReg 0x701008 s.flash.ckptSeq := rfl

theorem journalReplayed_nil_frame (s : State) : keepsBut [.flash, .regs] s (s.journalReplayed []) :=
  (with_flash_frame s _).trans' (setReg_frame _ _ _) (by simp) (by simp)

theorem journalReplayed_frame (s : State) (kept : List JRec) : keepsBut [.flash, .regs, .counts, .link] s (s.journalReplayed kept) :=
  (((with_flash_frame s _).mono (by simp)).trans (((Applies.refl _).foldl kept fun _ _ h => h.applyRec _).frame.mono (by simp))).trans
    ((setReg_frame _ _ _).mono (by simp))

/-! ### The blocks that are swept (R329) -/

theorem eraseAtRecovery_cnt (s : State) (b : FBlock) (k : Key) : (s.eraseAtRecovery b).cnt k = s.cnt k + if k = 0xE0B00A then 1 else 0 := by
  change (((s.bump 0xE0B00A 1).journal [(3, b.addr, b.erases + 1)]).setFblock (erasedBlock b)).cnt k = _
  rw [setFblock_cnt, journal_cnt, State.cnt_bump]

theorem eraseAtRecovery_fblock (s : State) (b : FBlock) : (s.eraseAtRecovery b).fblock b.addr = erasedBlock b :=
  (fblock_setFblock ((s.bump 0xE0B00A 1).journal [(3, b.addr, b.erases + 1)]) (erasedBlock b) b.addr).trans (if_pos rfl)

/-- The counter of a block that the sweep erases: one opened after the checkpoint is an orphan, any other an erase that was missing or interrupted. -/
def State.sweptKey (s : State) (b : FBlock) : Key := if b.erasing = false ∧ s.flash.ckptSeq < b.opened then 0xE0B01B else 0xE0B01C

theorem sweptKey_ne (s : State) (b : FBlock) : s.sweptKey b ≠ 0xE0B00A := by
  unfold State.sweptKey
  split <;> decide

theorem swept_erases {s : State} {b : FBlock} (hretired : b.retired = false) (hempty : ∀ x ∈ s.flash.stored, x.block ≠ b.addr) :
    s.swept b = (s.eraseAtRecovery b).bump (s.sweptKey b) 1 := by
  have hvalid : s.validIn b.addr = [] := List.filter_eq_nil_iff.2 fun x hx => by simp [hempty x hx]
  unfold State.swept State.sweptKey
  rw [if_neg (by simp [hretired]), hvalid]
  cases b.erasing <;> simp

/-- What the sweep may change: the blocks with what is stored in them, the journal in memory, and three counters. -/
structure Sweeps (s t : State) : Prop where
  frame : keepsBut [.flash, .counts] s t
  counts : countsBut [0xE0B00A, 0xE0B01B, 0xE0B01C] s t
  flash : t.flash = { s.flash with blocks := t.flash.blocks, stored := t.flash.stored, buffer := t.flash.buffer, nextRec := t.flash.nextRec }

namespace Sweeps

variable {s t u : State}

theorem refl (s : State) : Sweeps s s := ⟨by simp, by simp, rfl⟩

theorem trans (h : Sweeps s t) (g : Sweeps t u) : Sweeps s u where
  frame := h.frame.trans g.frame
  counts := h.counts.trans g.counts
  flash := g.flash.trans (congrArg (fun f : FlashS => { f with
    blocks := u.flash.blocks, stored := u.flash.stored, buffer := u.flash.buffer, nextRec := u.flash.nextRec }) h.flash)

theorem foldl {α : Type} {f : State → α → State} (l : List α) (s : State) (hf : ∀ t a, Sweeps t (f t a)) : Sweeps s (l.foldl f s) := by
  induction l generalizing s with
  | nil => exact refl s
  | cons a l ih => exact (hf s a).trans (ih _)

theorem eraseAtRecovery (s : State) (b : FBlock) : Sweeps s (s.eraseAtRecovery b) where
  frame := ((((bump_frame s _ _).mono (by simp)).trans ((journal_frame _ _).mono (by simp))).trans ((setFblock_frame _ _).mono (by simp))).trans
    ((with_flash_frame _ _).mono (by simp))
  counts := (countsBut_one (eraseAtRecovery_cnt s b)).mono (by simp)
  flash := by
    unfold State.eraseAtRecovery State.setFblock
    dsimp only
    rw [journal_eq, State.bump_flash]

theorem bump {k : Key} (h : Sweeps s t) (hk : k ∈ [0xE0B00A, 0xE0B01B, 0xE0B01C]) (n : Nat) : Sweeps s (t.bump k n) :=
  h.trans ⟨(bump_frame t k n).mono (by simp), (countsBut_bump t k n).mono (by simpa using hk), by rw [State.bump_flash]⟩

theorem swept (s : State) (b : FBlock) : Sweeps s (s.swept b) := by
  unfold State.swept
  split
  · exact refl s
  split
  · exact (eraseAtRecovery s b).bump (by simp) 1
  split
  · exact refl s
  · exact (eraseAtRecovery s b).bump (by split <;> simp) 1

end Sweeps

section
variable (s : State)

theorem recoveryEnded_sweeps : Sweeps s (s.usedBlocks.foldl State.swept s) := .foldl _ _ Sweeps.swept

theorem recoveryEnded_work : FlashWork (s.usedBlocks.foldl State.swept s) s.recoveryEnded := ((FlashWork.refl _).bump _ _).startPage.flashRegs

theorem recoveryEnded_frame : keepsBut [.flash, .regs, .counts] s s.recoveryEnded :=
  ((recoveryEnded_sweeps s).frame.mono (by simp)).trans (recoveryEnded_work s).frame

/-- The recovery leaves the map and what is asked of the host as the journal left them. -/
theorem recoveryEnded_flash : ∃ blocks stored buffer nextRec inPage nextPage,
    s.recoveryEnded.flash = { s.flash with blocks, stored, buffer, nextRec, inPage, nextPage } :=
  ⟨_, _, _, _, _, _, (recoveryEnded_work s).flash.trans (by rw [(recoveryEnded_sweeps s).flash])⟩

theorem recoveryEnded_reg : s.recoveryEnded.reg 0x701008 = s.reg 0x701008 := by
  unfold State.recoveryEnded
  rw [flashRegs_reg _ (by decide) (by decide), (startPage_frame _).reg (by simp), (bump_frame _ _ _).reg (by simp),
    (recoveryEnded_sweeps s).frame.reg (by simp)]

theorem recoveryEnded_cnt (k : Key) : s.recoveryEnded.cnt k = (s.usedBlocks.foldl State.swept s).cnt k + if k = 0xE0B01A then 1 else 0 := by
  unfold State.recoveryEnded
  rw [flashRegs_cnt, startPage_cnt, State.cnt_bump]

theorem recoveryEnded_counted : s.recoveryEnded.cnt 0xE0B01A = s.cnt 0xE0B01A + 1 := by
  rw [recoveryEnded_cnt, if_pos rfl, (recoveryEnded_sweeps s).counts _ (by decide)]

theorem recoveryEnded_counts : countsBut [0xE0B00A, 0xE0B01A, 0xE0B01B, 0xE0B01C] s s.recoveryEnded :=
  (recoveryEnded_sweeps s).counts.trans' (countsBut_one (recoveryEnded_cnt s)) (by simp) (by simp)

end

/-! ### The rows -/

section
variable {s : State} (hrun : s.running = true) (hwindow : bit (s.reg 0x701001) 0 = true) (hrecovering : s.flash.recovering = true)
  (hprogs : s.flash.progs = []) (hpage : s.flash.inPage = []) (lost : Nat)
include hrun hwindow hrecovering hprogs hpage

/-- With a checkpoint that is accepted, the recovery replays the records that are kept on its map. -/
theorem exec_powerLossRecovery_accepted (haccepted : s.accepts 3 s.flash.ckpt = true) {kept : List JRec} (hkept : s.journalKept lost = kept) :
    exec (.powerLossRecovery lost) s = .next { (s.journalReplayed kept).recoveryEnded with pending := s.pending } := by
  rw [exec_powerLossRecovery_eq hrun hwindow hrecovering hprogs hpage, checkpointTaken_accepted haccepted, hkept]

theorem exec_powerLossRecovery_takes (hjournal : s.flash.journal = []) (haccepted : s.accepts 3 s.flash.ckpt = true) :
    ∃ t, exec (.powerLossRecovery lost) s = .next t ∧ t.flash.map = s.flash.ckptMap ∧ t.flash.asked = [] ∧ t.flash.eraseQ = [] ∧
      t.flash.recovering = false ∧ t.reg 0x701008 = s.flash.ckptSeq ∧ t.cnt 0xE0B01A = s.cnt 0xE0B01A + 1 ∧ keepsBut [.flash, .regs, .counts] s t ∧
      countsBut [0xE0B00A, 0xE0B01A, 0xE0B01B, 0xE0B01C] s t := by
  have hexec := exec_powerLossRecovery_accepted hrun hwindow hrecovering hprogs hpage lost haccepted (journalKept_nil hjournal lost)
  have hframe := journalReplayed_nil_frame s
  obtain ⟨_, _, _, _, _, _, hflash⟩ := recoveryEnded_flash (s.journalReplayed [])
  have hreg : (s.journalReplayed []).recoveryEnded.reg 0x701008 = s.flash.ckptSeq := (recoveryEnded_reg _).trans (State.reg_setReg_same _ _ _)
  have hcounted := (recoveryEnded_counted (s.journalReplayed [])).trans (congrArg (· + 1) (hframe.cnt (by simp) _))
  exact exists_next hexec ⟨congrArg (·.map) hflash, congrArg (·.asked) hflash, congrArg (·.eraseQ) hflash, congrArg (·.recovering) hflash, hreg, hcounted,
    (hframe.mono (by simp)).trans (recoveryEnded_frame _), (hframe.countsBut (by simp) _).trans (recoveryEnded_counts _)⟩
    fun _ ⟨a, b, c, d, e, f, g, h⟩ => ⟨a, b, c, d, e, f, g.withQueue, h⟩

theorem exec_powerLossRecovery_replays {r : JRec} (hjournal : s.flash.journal = [r]) (haccepted : s.accepts 3 s.flash.ckpt = true) (hkind : r.kind = 1)
    (hseq : s.flash.ckptSeq < r.seq) :
    ∃ t, exec (.powerLossRecovery lost) s = .next t ∧
      (if r.page + lost < s.flash.nextPage then t.fentry r.subject = entryOfBits r.value ∧ t.reg 0x701008 = r.seq
        else t.flash.map = s.flash.ckptMap ∧ t.reg 0x701008 = s.flash.ckptSeq) ∧ keepsBut [.flash, .regs, .counts, .link] s t := by
  have hexec := exec_powerLossRecovery_accepted hrun hwindow hrecovering hprogs hpage lost haccepted (journalKept_one hjournal hseq lost)
  obtain ⟨_, _, _, _, _, _, hflash⟩ := recoveryEnded_flash (s.journalReplayed (if r.page + lost < s.flash.nextPage then [r] else []))
  refine exists_next hexec ⟨?_, (journalReplayed_frame s _).trans ((recoveryEnded_frame _).mono (by simp))⟩ fun _ ⟨a, f⟩ => ⟨a, f.withQueue⟩
  by_cases hsurvived : r.page + lost < s.flash.nextPage
  · rw [if_pos hsurvived] at hflash ⊢
    rw [if_pos hsurvived, fentry_eq, hflash, recoveryEnded_reg]
    exact ⟨applyRec_sets (s.mapRecovered [r]) hkind, State.reg_setReg_same _ _ _⟩
  · rw [if_neg hsurvived] at hflash ⊢
    rw [if_neg hsurvived, hflash, recoveryEnded_reg]
    exact ⟨rfl, State.reg_setReg_same _ _ _⟩

theorem exec_powerLossRecovery_refuses (hjournal : s.flash.journal = []) (hrefused : s.accepts 3 s.flash.ckpt = false) :
    ∃ t, exec (.powerLossRecovery lost) s = .next t ∧ t.flash.map = [] ∧ t.flash.ckpt = s.reg 0xA02003 ∧ t.reg 0x701008 = 0 ∧
      t.cnt 0xE0B01A = s.cnt 0xE0B01A + 1 ∧ keepsBut [.flash, .regs, .counts] s t := by
  obtain ⟨u, hu⟩ : ∃ u : State, u = { s with flash := { s.flash with
    ckpt := s.reg 0xA02003, ckptSeq := 0, ckptMap := [], ckptVer := [], ckptReads := [] } } := ⟨_, rfl⟩
  have htaken : s.checkpointTaken = u := hu ▸ if_neg (by simp [hrefused])
  have hseq : u.flash.ckptSeq = 0 := by rw [hu]
  have hmap : u.flash.ckptMap = [] := by rw [hu]
  have hckpt : u.flash.ckpt = s.reg 0xA02003 := by rw [hu]
  have hframe : keepsBut [.flash, .regs] s (u.journalReplayed []) :=
    ((hu ▸ with_flash_frame s _ : keepsBut [.flash] s u).mono (by simp)).trans (journalReplayed_nil_frame u)
  have hexec := exec_powerLossRecovery_eq hrun hwindow hrecovering hprogs hpage lost
  rw [htaken, journalKept_nil (by rw [hu]; exact hjournal)] at hexec
  obtain ⟨_, _, _, _, _, _, hflash⟩ := recoveryEnded_flash (u.journalReplayed [])
  have hreg : (u.journalReplayed []).recoveryEnded.reg 0x701008 = 0 := ((recoveryEnded_reg _).trans (State.reg_setReg_same _ _ _)).trans hseq
  have hcounted := (recoveryEnded_counted (u.journalReplayed [])).trans (congrArg (· + 1) (hframe.cnt (by simp) _))
  exact exists_next hexec ⟨(congrArg (·.map) hflash).trans hmap, (congrArg (·.ckpt) hflash).trans hckpt, hreg, hcounted,
    (hframe.mono (by simp)).trans (recoveryEnded_frame _)⟩ fun _ ⟨a, b, c, d, f⟩ => ⟨a, b, c, d, f.withQueue⟩

theorem exec_powerLossRecovery_erases {b : FBlock} (hjournal : s.flash.journal = []) (haccepted : s.accepts 3 s.flash.ckpt = true)
    (hblocks : s.flash.blocks = [(b.addr, b)]) (hfree : b.free = false) (hretired : b.retired = false) (hempty : ∀ x ∈ s.flash.stored, x.block ≠ b.addr) :
    ∃ t, exec (.powerLossRecovery lost) s = .next t ∧ (t.fblock b.addr).free = true ∧ (t.fblock b.addr).erases = b.erases + 1 ∧
      t.cnt (s.sweptKey b) = s.cnt (s.sweptKey b) + 1 ∧ t.cnt 0xE0B00A = s.cnt 0xE0B00A + 1 ∧ keepsBut [.flash, .regs, .counts] s t := by
  have hexec := exec_powerLossRecovery_accepted hrun hwindow hrecovering hprogs hpage lost haccepted (journalKept_nil hjournal lost)
  have hframe := journalReplayed_nil_frame s
  have hstored : (s.journalReplayed []).flash.stored = s.flash.stored := rfl
  have hseq : (s.journalReplayed []).flash.ckptSeq = s.flash.ckptSeq := rfl
  have hused : (s.journalReplayed []).usedBlocks = [{ b with reads := (lk s.flash.ckptReads b.addr).getD 0 }] := by
    unfold State.usedBlocks
    rw [journalReplayed_nil, State.setReg_flash, State.mapRecovered]
    simp [hblocks, hfree]
  obtain ⟨u, hu⟩ : ∃ u, u = s.journalReplayed [] := ⟨_, rfl⟩
  obtain ⟨c, hc⟩ : ∃ c : FBlock, c = { b with reads := (lk s.flash.ckptReads b.addr).getD 0 } := ⟨_, rfl⟩
  have haddr : c.addr = b.addr := by rw [hc]
  have herases : c.erases = b.erases := by rw [hc]
  rw [← hu] at hexec hframe hstored hseq hused
  rw [← hc] at hused
  have hkey : u.sweptKey c = s.sweptKey b := by rw [State.sweptKey, hseq, hc]; rfl
  have hswept : u.usedBlocks.foldl State.swept u = (u.eraseAtRecovery c).bump (s.sweptKey b) 1 := by
    rw [hused, List.foldl_cons, List.foldl_nil, swept_erases (by rw [hc]; exact hretired) (by rw [hstored, haddr]; exact hempty), hkey]
  have hfblock : u.recoveryEnded.fblock b.addr = erasedBlock c := by
    unfold State.recoveryEnded
    rw [flashRegs_fblock, hswept, ← haddr, ← eraseAtRecovery_fblock u c]
    exact fblock_congr (by rw [startPage_blocks, State.bump_flash, State.bump_flash]) _
  have hcnt (k : Key) (hk : k ≠ 0xE0B01A) :
      u.recoveryEnded.cnt k = s.cnt k + (if k = 0xE0B00A then 1 else 0) + if k = s.sweptKey b then 1 else 0 := by
    rw [recoveryEnded_cnt, if_neg hk, hswept, State.cnt_bump, eraseAtRecovery_cnt, hframe.cnt (by simp)]
    rfl
  have hne := sweptKey_ne s b
  have hswept' : u.recoveryEnded.cnt (s.sweptKey b) = s.cnt (s.sweptKey b) + 1 := by
    rw [hcnt _ (by unfold State.sweptKey; split <;> decide), if_neg hne, if_pos rfl]
  have herased : u.recoveryEnded.cnt 0xE0B00A = s.cnt 0xE0B00A + 1 := by rw [hcnt _ (by decide), if_pos rfl, if_neg hne.symm]
  exact exists_next hexec ⟨by rw [hfblock]; rfl, by rw [hfblock, ← herases]; rfl, hswept', herased, (hframe.mono (by simp)).trans (recoveryEnded_frame _)⟩
    fun _ ⟨a, b, c, d, f⟩ => ⟨a, b, c, d, f.withQueue⟩

end

/-- Settles O34, row by row: what a row leaves follows from what its bookkeeping may change (`FlashWork`, `Applies`, `Sweeps`) and the records that it adds to the journal. -/
theorem programsDiscardsCheckpoints : Obligations.ProgramsDiscardsCheckpoints := by
  unfold Obligations.ProgramsDiscardsCheckpoints
  exact ⟨⟨fun _ _ => exec_pageProgramDone_stores, fun _ _ => exec_pageProgramDone_fails, fun _ _ _ _ => exec_pageProgramDone_retries,
    fun _ _ => exec_copyProgramDone_stores, fun _ _ _ => exec_copyProgramDone_releases, fun _ _ => exec_copyProgramDone_fails,
    fun _ _ _ => exec_journalPageProgrammed_reports, fun _ _ => exec_journalPageProgrammed_sets, fun _ _ => exec_journalPageProgrammed_discards,
    fun _ _ => exec_journalPageProgrammed_checkpoints, fun _ _ => exec_eraseDone_frees, fun _ _ => exec_eraseDone_retires,
    fun _ _ => exec_eraseDone_fails⟩,
    fun _ tenant _ _ hrun hpart => exec_discard_partial hrun hpart tenant, fun _ _ _ _ => exec_discard_queues, fun _ _ _ _ => exec_discard_waits,
    fun _ _ _ _ => exec_discard_takes, fun _ => exec_directoryCheckpoint_writes, fun _ => exec_directoryCheckpoint_idle,
    fun _ lost hrun hwindow hrec hprogs hpage => exec_powerLossRecovery_takes hrun hwindow hrec hprogs hpage lost,
    fun _ lost _ hrun hwindow hrec hprogs hpage => exec_powerLossRecovery_replays hrun hwindow hrec hprogs hpage lost,
    fun _ lost hrun hwindow hrec hprogs hpage => exec_powerLossRecovery_refuses hrun hwindow hrec hprogs hpage lost,
    fun _ lost _ hrun hwindow hrec hprogs hpage => exec_powerLossRecovery_erases hrun hwindow hrec hprogs hpage lost,
    fun _ _ => exec_flashChannelRetrain_keeps⟩

end Sys2Proof.Machine
end

section
/-! PROOF. Reads of flash blocks and of map pages (O32). -/

namespace Sys2Proof.Machine

/-! ### Map pages (R318) -/

theorem cachePage_applies (s : State) (p : Nat) : Applies s (s.cachePage p) := (Applies.refl s).cachePage p

theorem cachePage_fentry (s : State) (p b : Nat) : (s.cachePage p).fentry b = s.fentry b := by rw [fentry_eq, cachePage_map, ← fentry_eq]

/-- A map page is awaited no more. -/
def State.pageUnasked (s : State) (p : Nat) : State := { s with flash := { s.flash with asked := s.flash.asked.filter (· != p) } }

theorem not_mem_filter_ne (l : List Nat) (p : Nat) : p ∉ l.filter (· != p) := by simp

/-- What installing the flash copy of a map page does. -/
theorem mapFromFlash_reads (s : State) (p : Nat) : p ∉ (s.mapFromFlash p).flash.asked ∧ p ∈ (s.mapFromFlash p).flash.cache ∧
    (s.mapFromFlash p).flash.map = s.flash.map ∧ (s.mapFromFlash p).cnt 0xE0B018 = s.cnt 0xE0B018 + 1 ∧
    keepsBut [.flash, .link, .counts] s (s.mapFromFlash p) ∧ countsBut [0xE0B018, 0xE0F001, 0xE0F009] s (s.mapFromFlash p) := by
  obtain ⟨u, hu⟩ : ∃ u, u = (s.pageUnasked p).bump 0xE0B018 1 := ⟨_, rfl⟩
  have he : s.mapFromFlash p = u.cachePage p := hu ▸ rfl
  have hflash : u.flash = { s.flash with asked := s.flash.asked.filter (· != p) } := by
    rw [hu, State.bump_flash]
    rfl
  have hcnt (k : Key) : u.cnt k = s.cnt k + if k = 0xE0B018 then 1 else 0 := by
    rw [hu, State.cnt_bump]
    rfl
  have hframe : keepsBut [.flash, .link, .counts] s u :=
    hu ▸ ((with_flash_frame s _).trans' (bump_frame (s.pageUnasked p) 0xE0B018 1) (by simp) (by simp))
  have hcache := cachePage_applies u p
  rw [he]
  refine ⟨?_, cachePage_cached u p, ?_, ?_, hframe.trans hcache.frame, (countsBut_one hcnt).trans' hcache.counts (by simp) (by simp)⟩
  · rw [congrArg (·.asked) hcache.flash, hflash]
    exact not_mem_filter_ne _ _
  · rw [cachePage_map, hflash]
  · rw [hcache.counts _ (by decide), hcnt, if_pos rfl]

/-- The three answers of the search for a map page (R318). -/
theorem lookPage_cached {s : State} {p : Nat} (h : s.flash.cache.contains p = true) : s.lookPage p = (s.cachePage p, true) := by
  unfold State.lookPage
  exact if_pos h

theorem lookPage_flash {s : State} {p : Nat} (hcache : s.flash.cache.contains p = false) (hasked : s.flash.asked.contains p = false)
    (hhost : s.reg 0x703003 = 0 ∨ s.link.error = true) : s.lookPage p = ((s.bump 0xE0B014 1).mapFromFlash p, true) := by
  unfold State.lookPage
  have hslots : (s.bump 0xE0B014 1).reg 0x703003 = s.reg 0x703003 := (bump_frame _ _ _).reg (by simp) _
  rw [hcache, hasked, if_neg Bool.false_ne_true, if_neg Bool.false_ne_true]
  exact if_pos (by simpa [hslots] using hhost)

theorem lookPage_host {s : State} {p : Nat} (hcache : s.flash.cache.contains p = false) (hasked : s.flash.asked.contains p = false)
    (hslots : s.reg 0x703003 ≠ 0) (hlink : s.link.error = false) : s.lookPage p =
      (({ s.bump 0xE0B014 1 with flash := { s.flash with asked := s.flash.asked ++ [p] } } : State).hostAsk 1
        (s.reg 0x703002 + 4160 * (p % s.reg 0x703003), []) (s.reg 0x703002 + 4160 * (p % s.reg 0x703003) + 4096, []), false) := by
  unfold State.lookPage
  rw [hcache, hasked, if_neg Bool.false_ne_true, if_neg Bool.false_ne_true]
  exact if_neg (by simp [hlink]; exact hslots)

/-! ### A read whose map page is found (R319, R320, R326, R475) -/

theorem cnt_bumpIf_b2n (s : State) (b : Bool) (k j : Key) : (s.bumpIf b k).cnt j = s.cnt j + if j = k then b2n b else 0 := by
  cases b
  · simp [State.bumpIf, b2n]
  · exact State.cnt_bump s k j 1

/-- What a read counts before its block is decoded, and what a bulk read is charged (R417). -/
def State.readCounted (s : State) (tenant : Nat) (discarded : Bool) (ns : Nat) (suspended latency : Bool) : State :=
  let s := (s.bump 0xE0B001 1).bump 0xE0B002 4096
  let s := s.bumpIf discarded 0xE0B006
  let s := s.bumpIf (s.reg 0x602003 < ns) 0xE0A003
  if latency then s.bumpIf suspended 0xE0B013 else s.serveNow 2 (tenant, true, 1)

/-- What the decode of a block counts: the steps of its ladder, with the score of its channel, and its errors. -/
def State.readErrors (s : State) (a retries : Nat) (soft ok tagOk : Bool) : State :=
  let s := ((s.bump 0xE0B003 retries).score partFlash (blockChannel a) (b2n (0 < retries || soft))).bumpIf soft 0xE0B004
  (s.bumpIf (!(ok && tagOk)) 0xE0B005).bumpIf (ok && !tagOk) 0xE10010

/-- A block after one more read; a soft decode makes it due for a refresh (R320). -/
def readBlock (b : FBlock) (soft : Bool) : FBlock := { b with reads := b.reads + 1, due := b.due || soft }

/-- The decode of a block, which is one more read of its flash block. -/
def State.blockDecoded (s : State) (a retries : Nat) (soft ok tagOk : Bool) : State :=
  let u := s.readErrors a retries soft ok tagOk
  u.setFblock (readBlock (u.fblock a) soft)

section
variable (s : State) (tenant : Nat) (discarded : Bool) (ns : Nat) (suspended latency : Bool)

theorem serveNow_serves (res : Nat) (w : Want) : Serves s (s.serveNow res w) := (Serves.serveWant s res w).trans (.sleepQueue _ _ _ _)

theorem readCounted_cnt {k : Key} (hk : k ≠ 0xE0E008) : (s.readCounted tenant discarded ns suspended latency).cnt k =
    s.cnt k + (if k = 0xE0B001 then 1 else 0) + (if k = 0xE0B002 then 4096 else 0) + (if k = 0xE0B006 then b2n discarded else 0) +
      (if k = 0xE0A003 then b2n (s.reg 0x602003 < ns) else 0) + if k = 0xE0B013 then b2n (latency && suspended) else 0 := by
  have hreg : (((s.bump 0xE0B001 1).bump 0xE0B002 4096).bumpIf discarded 0xE0B006).reg 0x602003 = s.reg 0x602003 := by
    rw [(bumpIf_frame _ _ _).reg (by simp), (bump_frame _ _ _).reg (by simp), (bump_frame _ _ _).reg (by simp)]
  unfold State.readCounted
  dsimp only
  rw [hreg]
  cases latency
  · rw [if_neg (by simp), (serveNow_serves _ _ _).counts _ (by simpa using hk)]
    simp only [cnt_bumpIf_b2n, State.cnt_bump, Bool.false_and, show b2n false = 0 from rfl, ite_self, Nat.add_zero]
  · rw [if_pos rfl]
    simp only [cnt_bumpIf_b2n, State.cnt_bump, Bool.true_and]

theorem readCounted_frame : keepsBut [.counts, .sched, .regs] s (s.readCounted tenant discarded ns suspended latency) ∧
    (latency = true → keepsBut [.counts] s (s.readCounted tenant discarded ns suspended latency)) := by
  unfold State.readCounted
  extract_lets a b c
  have hc : keepsBut [.counts] s c :=
    (((bump_frame s _ _).trans (bump_frame _ _ _)).trans (bumpIf_frame _ _ _)).trans (bumpIf_frame _ _ _)
  cases latency
  · exact ⟨hc.trans' (serveNow_serves c 2 _).frame (by simp) (by simp), fun h => absurd h (by simp)⟩
  · exact ⟨(hc.trans (bumpIf_frame _ _ _)).mono (by simp), fun _ => hc.trans (bumpIf_frame _ _ _)⟩

end

section
variable (s : State) (a retries : Nat) (soft ok tagOk : Bool)

theorem readErrors_frame : keepsBut [.counts, .fault] s (s.readErrors a retries soft ok tagOk) :=
  (((((bump_frame s _ _).mono (by simp)).trans ((score_frame _ _ _ _).mono (by simp))).trans ((bumpIf_frame _ _ _).mono (by simp))).trans
    ((bumpIf_frame _ _ _).mono (by simp))).trans ((bumpIf_frame _ _ _).mono (by simp))

theorem blockDecoded_eq : s.blockDecoded a retries soft ok tagOk = (s.readErrors a retries soft ok tagOk).setFblock (readBlock (s.fblock a) soft) := by
  unfold State.blockDecoded
  dsimp only
  rw [fblock_congr (congrArg (·.blocks) (readErrors_frame s a retries soft ok tagOk .flash (by simp)))]

theorem blockDecoded_cnt (k : Key) : (s.blockDecoded a retries soft ok tagOk).cnt k =
    s.cnt k + (if k = 0xE0B003 then retries else 0) + (if k = 0xE0B004 then b2n soft else 0) + (if k = 0xE0B005 then b2n (!(ok && tagOk)) else 0) +
      if k = 0xE10010 then b2n (ok && !tagOk) else 0 := by
  unfold State.blockDecoded State.readErrors
  dsimp only
  rw [setFblock_cnt, cnt_bumpIf_b2n, cnt_bumpIf_b2n, cnt_bumpIf_b2n, (score_frame _ _ _ _).cnt (by simp), State.cnt_bump]

theorem blockDecoded_frame : keepsBut [.flash, .counts, .fault] s (s.blockDecoded a retries soft ok tagOk) :=
  ((readErrors_frame s a retries soft ok tagOk).mono (by simp)).trans ((setFblock_frame _ _).mono (by simp))

theorem blockDecoded_flash : (s.blockDecoded a retries soft ok tagOk).flash =
    { s.flash with blocks := (s.blockDecoded a retries soft ok tagOk).flash.blocks } := by
  have herrors : (s.readErrors a retries soft ok tagOk).flash = s.flash := readErrors_frame s a retries soft ok tagOk .flash (by simp)
  rw [blockDecoded_eq]
  unfold State.setFblock
  rw [herrors]

theorem blockDecoded_fblock (h : (s.fblock a).addr = a) : (s.blockDecoded a retries soft ok tagOk).fblock a = readBlock (s.fblock a) soft := by
  rw [blockDecoded_eq]
  exact (fblock_setFblock _ _ _).trans (if_pos h.symm)

end

/-- What follows once the map page is here. -/
def State.readFound (s : State) (tenant block retries : Nat) (soft ok tagOk : Bool) (ns : Nat) (suspended latency : Bool) : State :=
  let e := s.fentry block
  let u := s.readCounted tenant e.discarded ns suspended latency
  if e.mode == 0 then u else u.blockDecoded e.block retries soft ok tagOk

section
variable {s : State} {tenant block : Nat} (hrun : s.running = true) (hservice : s.windowIn 16 = false) (hrecovered : s.flash.recovering = false)
  (hregion : s.inRegion tenant block 1 = true) (retries ns : Nat) (soft ok tagOk suspended latency : Bool)
include hrun hservice hrecovered hregion

theorem exec_flashRead_found {u : State} (hlook : s.lookPage (mapPage block) = (u, true)) :
    exec (.flashRead tenant block retries soft ok tagOk ns suspended latency) s =
      .next { u.readFound tenant block retries soft ok tagOk ns suspended latency with pending := s.pending } := by
  change execFlashRead tenant block retries soft ok tagOk ns suspended latency s = _
  unfold execFlashRead
  rw [live_running hrun, if_neg (by simp [hservice, hrecovered, hregion]), hlook]
  rfl

theorem exec_flashRead_asked {u : State} (hlook : s.lookPage (mapPage block) = (u, false)) :
    exec (.flashRead tenant block retries soft ok tagOk ns suspended latency) s = .next { u with pending := s.pending } := by
  change execFlashRead tenant block retries soft ok tagOk ns suspended latency s = _
  unfold execFlashRead
  rw [live_running hrun, if_neg (by simp [hservice, hrecovered, hregion]), hlook]
  rfl


end

/-! ### What a read leaves (R319, R320, R326) -/

section
variable (s : State) (tenant : Nat) {block : Nat} (retries ns : Nat) (soft ok tagOk suspended latency : Bool)

theorem readFound_zero (hzero : (s.fentry block).mode = 0) : s.readFound tenant block retries soft ok tagOk ns suspended latency =
    s.readCounted tenant (s.fentry block).discarded ns suspended latency := if_pos (by simpa using hzero)

theorem readFound_decoded (hmode : (s.fentry block).mode ≠ 0) : s.readFound tenant block retries soft ok tagOk ns suspended latency =
    (s.readCounted tenant (s.fentry block).discarded ns suspended latency).blockDecoded (s.fentry block).block retries soft ok tagOk :=
  if_neg (by simpa using hmode)

theorem readCounted_flash (discarded : Bool) : (s.readCounted tenant discarded ns suspended latency).flash = s.flash :=
  (readCounted_frame s tenant discarded ns suspended latency).1 .flash (by simp)

theorem readFound_map : (s.readFound tenant block retries soft ok tagOk ns suspended latency).flash.map = s.flash.map := by
  by_cases hmode : (s.fentry block).mode = 0
  · rw [readFound_zero _ _ _ _ _ _ _ _ _ hmode, readCounted_flash]
  · rw [readFound_decoded _ _ _ _ _ _ _ _ _ hmode, blockDecoded_flash, readCounted_flash]

theorem readFound_cache : (s.readFound tenant block retries soft ok tagOk ns suspended latency).flash.cache = s.flash.cache := by
  by_cases hmode : (s.fentry block).mode = 0
  · rw [readFound_zero _ _ _ _ _ _ _ _ _ hmode, readCounted_flash]
  · rw [readFound_decoded _ _ _ _ _ _ _ _ _ hmode, blockDecoded_flash, readCounted_flash]

theorem readFound_frame : keepsBut [.flash, .counts, .fault, .sched, .regs] s (s.readFound tenant block retries soft ok tagOk ns suspended latency) ∧
    (latency = true → keepsBut [.flash, .counts, .fault] s (s.readFound tenant block retries soft ok tagOk ns suspended latency)) := by
  obtain ⟨hframe, hlatency⟩ := readCounted_frame s tenant (s.fentry block).discarded ns suspended latency
  by_cases hmode : (s.fentry block).mode = 0
  · rw [readFound_zero _ _ _ _ _ _ _ _ _ hmode]
    exact ⟨hframe.mono (by simp), fun h => (hlatency h).mono (by simp)⟩
  · rw [readFound_decoded _ _ _ _ _ _ _ _ _ hmode]
    exact ⟨hframe.trans' (blockDecoded_frame _ _ _ _ _ _) (by simp) (by simp),
      fun h => (hlatency h).trans' (blockDecoded_frame _ _ _ _ _ _) (by simp) (by simp)⟩

/-- The counters of the decode are others than those of the read itself. -/
theorem readFound_cnt {k : Key} (hdecode : k ∉ [0xE0B003, 0xE0B004, 0xE0B005, 0xE10010]) :
    (s.readFound tenant block retries soft ok tagOk ns suspended latency).cnt k =
      (s.readCounted tenant (s.fentry block).discarded ns suspended latency).cnt k := by
  simp only [List.mem_cons, List.not_mem_nil, or_false, not_or] at hdecode
  obtain ⟨hsteps, hsoft, hfailed, htag⟩ := hdecode
  by_cases hmode : (s.fentry block).mode = 0
  · rw [readFound_zero _ _ _ _ _ _ _ _ _ hmode]
  · rw [readFound_decoded _ _ _ _ _ _ _ _ _ hmode, blockDecoded_cnt, if_neg hsteps, if_neg hsoft, if_neg hfailed, if_neg htag]
    rfl

end

/-- A read whose map page is in the cache, before its block is decoded. -/
def State.readHere (s : State) (tenant block ns : Nat) (suspended latency : Bool) : State :=
  (s.cachePage (mapPage block)).readCounted tenant (s.fentry block).discarded ns suspended latency

section
variable (s : State) (tenant block ns : Nat) (suspended latency : Bool)

theorem readHere_flash : (s.readHere tenant block ns suspended latency).flash = { s.flash with
    cache := (s.cachePage (mapPage block)).flash.cache, hostSlots := (s.cachePage (mapPage block)).flash.hostSlots } :=
  (readCounted_flash _ _ _ _ _ _).trans (cachePage_flash _ _)

theorem readHere_frame : keepsBut [.flash, .link, .counts, .sched, .regs] s (s.readHere tenant block ns suspended latency) ∧
    (latency = true → keepsBut [.flash, .link, .counts] s (s.readHere tenant block ns suspended latency)) := by
  have hcache := (cachePage_applies s (mapPage block)).frame
  obtain ⟨hframe, hlatency⟩ := readCounted_frame (s.cachePage (mapPage block)) tenant (s.fentry block).discarded ns suspended latency
  exact ⟨(hcache.mono (by simp)).trans (hframe.mono (by simp)), fun h => hcache.trans ((hlatency h).mono (by simp))⟩

theorem readHere_cnt {k : Key} (hk : k ∉ [0xE0E008, 0xE0F001, 0xE0F009]) : (s.readHere tenant block ns suspended latency).cnt k =
    s.cnt k + (if k = 0xE0B001 then 1 else 0) + (if k = 0xE0B002 then 4096 else 0) + (if k = 0xE0B006 then b2n (s.fentry block).discarded else 0) +
      (if k = 0xE0A003 then b2n (s.reg 0x602003 < ns) else 0) + if k = 0xE0B013 then b2n (latency && suspended) else 0 := by
  have hcache := cachePage_applies s (mapPage block)
  unfold State.readHere
  rw [readCounted_cnt _ _ _ _ _ _ fun h => hk (by simp [h]), hcache.frame.reg (by simp), hcache.counts k fun h => hk (List.mem_cons_of_mem _ h)]

end

/-! ### The rows of a read -/

section
variable {s : State} {tenant block : Nat} (hrun : s.running = true) (hservice : s.windowIn 16 = false) (hrecovered : s.flash.recovering = false)
  (hregion : s.inRegion tenant block 1 = true) (retries ns : Nat) (soft ok tagOk suspended latency : Bool)
include hrun hservice hrecovered hregion

theorem exec_flashRead_decodes (hcache : s.flash.cache.contains (mapPage block) = true) (hmode : (s.fentry block).mode ≠ 0)
    (haddr : (s.fblock (s.fentry block).block).addr = (s.fentry block).block) :
    ∃ t, exec (.flashRead tenant block retries soft ok tagOk ns suspended latency) s = .next t ∧ t.cnt 0xE0B001 = s.cnt 0xE0B001 + 1 ∧
      t.cnt 0xE0B002 = s.cnt 0xE0B002 + 4096 ∧ t.cnt 0xE0B003 = s.cnt 0xE0B003 + retries ∧ t.cnt 0xE0B004 = s.cnt 0xE0B004 + b2n soft ∧
      t.cnt 0xE0B005 = s.cnt 0xE0B005 + b2n (!(ok && tagOk)) ∧ t.cnt 0xE0B006 = s.cnt 0xE0B006 + b2n (s.fentry block).discarded ∧
      t.cnt 0xE0A003 = s.cnt 0xE0A003 + b2n (s.reg 0x602003 < ns) ∧ t.cnt 0xE0B013 = s.cnt 0xE0B013 + b2n (latency && suspended) ∧
      t.cnt 0xE10010 = s.cnt 0xE10010 + b2n (ok && !tagOk) ∧
      t.fblock (s.fentry block).block = readBlock (s.fblock (s.fentry block).block) soft ∧
      t.flash.map = s.flash.map ∧ t.flash.stored = s.flash.stored ∧ keepsBut [.flash, .link, .counts, .fault, .sched, .regs] s t ∧
      (latency = true → keepsBut [.flash, .link, .counts, .fault] s t) := by
  have hexec := exec_flashRead_found hrun hservice hrecovered hregion retries ns soft ok tagOk suspended latency (lookPage_cached hcache)
  rw [readFound_decoded _ _ _ _ _ _ _ _ _ (by rw [cachePage_fentry]; exact hmode), cachePage_fentry] at hexec
  obtain ⟨v, hv⟩ : ∃ v, v = s.readHere tenant block ns suspended latency := ⟨_, rfl⟩
  obtain ⟨hframe, hlatency⟩ := readHere_frame s tenant block ns suspended latency
  have hflash := readHere_flash s tenant block ns suspended latency
  have hcntv {k : Key} (hk) := readHere_cnt s tenant block ns suspended latency (k := k) hk
  rw [← State.readHere, ← hv] at hexec
  rw [← hv] at hframe hlatency hflash hcntv
  have hblock : v.fblock (s.fentry block).block = s.fblock (s.fentry block).block := fblock_congr (congrArg (·.blocks) hflash) _
  have hdecoded := blockDecoded_frame v (s.fentry block).block retries soft ok tagOk
  have hsame := blockDecoded_flash v (s.fentry block).block retries soft ok tagOk
  have hcnt (k : Key) (hk : k ∉ [0xE0E008, 0xE0F001, 0xE0F009]) := (blockDecoded_cnt v (s.fentry block).block retries soft ok tagOk k).trans
    (congrArg (fun n => n + (if k = 0xE0B003 then retries else 0) + (if k = 0xE0B004 then b2n soft else 0) +
      (if k = 0xE0B005 then b2n (!(ok && tagOk)) else 0) + if k = 0xE10010 then b2n (ok && !tagOk) else 0) (hcntv hk))
  refine exists_next hexec ⟨by simp [hcnt], by simp [hcnt], by simp [hcnt], by simp [hcnt], by simp [hcnt], by simp [hcnt], by simp [hcnt], by simp [hcnt],
    by simp [hcnt], ?_, ?_, ?_, (hframe.mono (by simp)).trans (hdecoded.mono (by simp)), fun h => ((hlatency h).mono (by simp)).trans (hdecoded.mono (by simp))⟩
    fun _ ⟨a, b, c, d, e, f, g, h, i, j, k, l, m, n⟩ => ⟨a, b, c, d, e, f, g, h, i, j, k, l, m.withQueue, fun h => (n h).withQueue⟩
  · rw [blockDecoded_fblock _ _ _ _ _ _ (by rw [hblock]; exact haddr), hblock]
  · exact (congrArg (·.map) hsame).trans (congrArg (·.map) hflash)
  · exact (congrArg (·.stored) hsame).trans (congrArg (·.stored) hflash)

theorem exec_flashRead_zero (hcache : s.flash.cache.contains (mapPage block) = true) (hzero : (s.fentry block).mode = 0) :
    ∃ t, exec (.flashRead tenant block retries soft ok tagOk ns suspended latency) s = .next t ∧ t.cnt 0xE0B001 = s.cnt 0xE0B001 + 1 ∧
      t.cnt 0xE0B002 = s.cnt 0xE0B002 + 4096 ∧ t.cnt 0xE0B003 = s.cnt 0xE0B003 ∧ t.cnt 0xE0B006 = s.cnt 0xE0B006 + b2n (s.fentry block).discarded ∧
      t.flash.blocks = s.flash.blocks ∧ t.flash.map = s.flash.map ∧ keepsBut [.flash, .link, .counts, .sched, .regs] s t := by
  have hexec := exec_flashRead_found hrun hservice hrecovered hregion retries ns soft ok tagOk suspended latency (lookPage_cached hcache)
  rw [readFound_zero _ _ _ _ _ _ _ _ _ (by rw [cachePage_fentry]; exact hzero), cachePage_fentry] at hexec
  have hflash := readHere_flash s tenant block ns suspended latency
  have hcnt {k : Key} (hk) := readHere_cnt s tenant block ns suspended latency (k := k) hk
  exact exists_next hexec ⟨(hcnt (by decide)).trans (by simp), (hcnt (by decide)).trans (by simp), (hcnt (by decide)).trans (by simp),
    (hcnt (by decide)).trans (by simp), congrArg (·.blocks) hflash, congrArg (·.map) hflash, (readHere_frame s tenant block ns suspended latency).1⟩
    fun _ ⟨a, b, c, d, e, f, g⟩ => ⟨a, b, c, d, e, f, g.withQueue⟩

section
variable (hcache : s.flash.cache.contains (mapPage block) = false) (hasked : s.flash.asked.contains (mapPage block) = false)
include hcache hasked

theorem exec_flashRead_asks (hslots : s.reg 0x703003 ≠ 0) (hlink : s.link.error = false) :
    ∃ t a b, exec (.flashRead tenant block retries soft ok tagOk ns suspended latency) s = .next t ∧
      t.flash = { s.flash with asked := s.flash.asked ++ [mapPage block] } ∧
      t.link.toHost = s.link.toHost ++ [a, b] ∧ a.op = 1 ∧ a.addr = s.reg 0x703002 + 4160 * (mapPage block % s.reg 0x703003) ∧ b.op = 1 ∧
      b.addr = a.addr + 4096 ∧ t.cnt 0xE0B014 = s.cnt 0xE0B014 + 1 ∧ keepsBut [.flash, .link, .counts] s t ∧
      countsBut [0xE0B014, 0xE0F001, 0xE0F009] s t := by
  obtain ⟨x, hx⟩ : ∃ x, x = s.reg 0x703002 + 4160 * (mapPage block % s.reg 0x703003) := ⟨_, rfl⟩
  obtain ⟨u, hu⟩ : ∃ u : State, u = { s.bump 0xE0B014 1 with flash := { s.flash with asked := s.flash.asked ++ [mapPage block] } } := ⟨_, rfl⟩
  have hlook := lookPage_host hcache hasked hslots hlink
  rw [← hu, ← hx] at hlook
  have hcnt (k : Key) : u.cnt k = s.cnt k + if k = 0xE0B014 then 1 else 0 := hu ▸ State.cnt_bump s _ _ _
  have hframe : keepsBut [.flash, .link, .counts] s u := hu ▸ ((bump_frame s 0xE0B014 1).trans' (with_flash_frame _ _) (by simp) (by simp))
  have hhost := hostAsk_frame u 1 (x, []) (x + 4096, [])
  have hcounts := hostAsk_counts u 1 (x, []) (x + 4096, [])
  have hflash : (u.hostAsk 1 (x, []) (x + 4096, [])).flash = { s.flash with asked := s.flash.asked ++ [mapPage block] } :=
    (hhost .flash (by simp)).trans (by rw [hu])
  have hsent := hostAsk_toHost u 1 (x, []) (x + 4096, [])
  rw [show u.link.toHost = s.link.toHost by rw [hu]; rfl] at hsent
  have hasks : (u.hostAsk 1 (x, []) (x + 4096, [])).cnt 0xE0B014 = s.cnt 0xE0B014 + 1 := by rw [hcounts _ (by decide), hcnt, if_pos rfl]
  exact ⟨_, _, _, exec_flashRead_asked hrun hservice hrecovered hregion retries ns soft ok tagOk suspended latency hlook, hflash, hsent, rfl, hx, rfl, rfl,
    hasks, (hframe.trans (hhost.mono (by simp))).withQueue, ((countsBut_one hcnt).trans' hcounts (by simp) (by simp)).withQueue⟩

theorem exec_flashRead_installs (hhost : s.reg 0x703003 = 0 ∨ s.link.error = true) :
    ∃ t, exec (.flashRead tenant block retries soft ok tagOk ns suspended latency) s = .next t ∧ mapPage block ∈ t.flash.cache ∧
      t.cnt 0xE0B014 = s.cnt 0xE0B014 + 1 ∧ t.cnt 0xE0B018 = s.cnt 0xE0B018 + 1 ∧ t.cnt 0xE0B001 = s.cnt 0xE0B001 + 1 ∧ t.flash.map = s.flash.map ∧
      keepsBut [.flash, .link, .counts, .fault, .sched, .regs] s t := by
  obtain ⟨u, hu⟩ : ∃ u, u = (s.bump 0xE0B014 1).mapFromFlash (mapPage block) := ⟨_, rfl⟩
  obtain ⟨-, hcached, hmap, hread, hframe, hcounts⟩ := mapFromFlash_reads (s.bump 0xE0B014 1) (mapPage block)
  rw [← hu] at hcached hmap hread hframe hcounts
  have hcnt {k : Key} (hk : k ≠ 0xE0E008) (hdecode : k ∉ [0xE0B003, 0xE0B004, 0xE0B005, 0xE10010]) :=
    (readFound_cnt u tenant (block := block) retries ns soft ok tagOk suspended latency hdecode).trans (readCounted_cnt _ _ _ _ _ _ hk)
  refine exists_next (exec_flashRead_found hrun hservice hrecovered hregion retries ns soft ok tagOk suspended latency
    ((lookPage_flash hcache hasked hhost).trans (by rw [← hu]))) ⟨?_, ?_, ?_, ?_, ?_, ?_⟩ fun _ ⟨a, b, c, d, e, f⟩ => ⟨a, b, c, d, e, f.withQueue⟩
  · rwa [readFound_cache]
  · rw [hcnt (by decide) (by decide), hcounts _ (by decide)]
    simp
  · rw [hcnt (by decide) (by decide), hread, State.cnt_bump]
    rfl
  · rw [hcnt (by decide) (by decide), hcounts _ (by decide)]
    simp [State.cnt_bump]
  · rw [readFound_map, hmap, State.bump_flash]
  · exact (((bump_frame s _ _).mono (by simp)).trans (hframe.mono (by simp))).trans ((readFound_frame _ _ _ _ _ _ _ _ _).1.mono (by simp))

end

end

/-! ### Records of the host's slots (R317, R318) -/

/-- One entry of a record is taken into the map. -/
def entryTaken (page : Nat) (m : List (Nat × FEntry)) (x : W64 × Nat) : List (Nat × FEntry) :=
  if x.2 < 512 then setEntry m (512 * page + x.2) (entryOfBits x.1.toNat) else m

theorem entryIn_entryTaken (page : Nat) (m : List (Nat × FEntry)) (e : W64) {i : Nat} (hi : i < 512) (c : Nat) :
    entryIn (entryTaken page m (e, i)) c = if c = 512 * page + i then entryOfBits e.toNat else entryIn m c := by
  unfold entryTaken
  rw [if_pos hi, entryIn_setEntry]

/-- The entries of a record go to their places in the page, from place `k` on. -/
theorem foldl_entryTaken (page : Nat) (es : List W64) (m : List (Nat × FEntry)) {k : Nat} (hk : k + es.length ≤ 512) :
    (∀ j < k, entryIn ((es.zipIdx k).foldl (entryTaken page) m) (512 * page + j) = entryIn m (512 * page + j)) ∧
      ∀ i e, es[i]? = some e → entryIn ((es.zipIdx k).foldl (entryTaken page) m) (512 * page + (k + i)) = entryOfBits e.toNat := by
  induction es generalizing m k with
  | nil => exact ⟨fun _ _ => rfl, by simp⟩
  | cons x es ih =>
    rw [List.length_cons] at hk
    obtain ⟨hbelow, hat⟩ := ih (entryTaken page m (x, k)) (k := k + 1) (by omega)
    rw [List.zipIdx_cons, List.foldl_cons]
    refine ⟨fun j hj => ?_, fun i e he => ?_⟩
    · rw [hbelow j (by omega), entryIn_entryTaken _ _ _ (by omega), if_neg (by omega)]
    · cases i with
      | zero =>
        rw [List.getElem?_cons_zero] at he
        cases he
        change entryIn _ (512 * page + k) = _
        rw [hbelow k (by omega), entryIn_entryTaken _ _ _ (by omega), if_pos rfl]
      | succ i =>
        rw [List.getElem?_cons_succ] at he
        rw [show k + (i + 1) = k + 1 + i by omega]
        exact hat i e he

section
variable {s : State} {page : Nat} (hrun : s.running = true) (hasked : s.flash.asked.contains page = true)
include hrun hasked

theorem exec_coldMapRecord_taken {es : List W64} (hlen : es.length ≤ 512) :
    ∃ t, exec (.coldMapRecord page page ((lk s.flash.dirVer page).getD 0) true es) s = .next t ∧ page ∉ t.flash.asked ∧
      (∀ (i : Nat) (e : W64), es[i]? = some e → t.fentry (512 * page + i) = entryOfBits e.toNat) ∧ t.cnt 0xE0B015 = s.cnt 0xE0B015 + 1 ∧
      keepsBut [.flash, .link, .counts] s t ∧ countsBut [0xE0B015, 0xE0F001, 0xE0F009] s t := by
  obtain ⟨f, hf⟩ : ∃ f : FlashS, f = { s.flash with asked := s.flash.asked.filter (· != page), map := es.zipIdx.foldl (entryTaken page) s.flash.map } :=
    ⟨_, rfl⟩
  obtain ⟨u, hu⟩ : ∃ u : State, u = ({ s with flash := f } : State).bump 0xE0B015 1 := ⟨_, rfl⟩
  have hflash : u.flash = f := by rw [hu, State.bump_flash]
  have hcnt (k : Key) : u.cnt k = s.cnt k + if k = 0xE0B015 then 1 else 0 := hu ▸ State.cnt_bump _ _ _ _
  have hframe : keepsBut [.flash, .link, .counts] s u := hu ▸ ((with_flash_frame s f).trans' (bump_frame _ _ _) (by simp) (by simp))
  have hcache := cachePage_applies u page
  have hgone : page ∉ (u.cachePage page).flash.asked := by
    rw [congrArg (·.asked) hcache.flash, hflash, hf]
    exact not_mem_filter_ne _ _
  have hentries (i : Nat) (e : W64) (he : es[i]? = some e) : (u.cachePage page).fentry (512 * page + i) = entryOfBits e.toNat := by
    have hat := (foldl_entryTaken page es s.flash.map (k := 0) (by omega)).2 i e he
    rw [Nat.zero_add] at hat
    rw [cachePage_fentry, fentry_eq, hflash, hf, hat]
  have htaken : (u.cachePage page).cnt 0xE0B015 = s.cnt 0xE0B015 + 1 := by rw [hcache.counts _ (by decide), hcnt, if_pos rfl]
  change ∃ t, execColdMapRecord page page ((lk s.flash.dirVer page).getD 0) true es s = .next t ∧ _
  unfold execColdMapRecord
  refine exists_live hrun (u := u.cachePage page) ?_
    ⟨hgone, hentries, htaken, hframe.trans hcache.frame, (countsBut_one hcnt).trans' hcache.counts (by simp) (by simp)⟩
    fun _ ⟨a, b, c, f, g⟩ => ⟨a, b, c, f.withQueue, g⟩
  rw [hasked, if_neg (by simp), if_neg (by simp), if_neg (by simp), hu, hf]
  rfl

theorem exec_coldMapRecord_refused {version : Nat} {ok : Bool} (hbad : version ≠ (lk s.flash.dirVer page).getD 0 ∨ ok = false) (es : List W64) :
    ∃ t, exec (.coldMapRecord page page version ok es) s = .next t ∧ page ∉ t.flash.asked ∧ t.flash.map = s.flash.map ∧
      t.cnt 0xE0B016 = s.cnt 0xE0B016 + 1 ∧ t.cnt 0xE0B018 = s.cnt 0xE0B018 + 1 ∧ keepsBut [.flash, .link, .counts, .fault] s t := by
  obtain ⟨u, hu⟩ : ∃ u, u = (s.bump 0xE0B016 1).score partHost 0 1024 := ⟨_, rfl⟩
  have hflash : u.flash = s.flash := by rw [hu, State.score_flash, State.bump_flash]
  have hcnt (k : Key) : u.cnt k = s.cnt k + if k = 0xE0B016 then 1 else 0 := by rw [hu, (score_frame _ _ _ _).cnt (by simp), State.cnt_bump]
  have hframe : keepsBut [.counts, .fault] s u := hu ▸ ((bump_frame s _ _).trans' (score_frame _ _ _ _) (by simp) (by simp))
  obtain ⟨hgone, -, hmap, hread, hkeeps, hcounts⟩ := mapFromFlash_reads u page
  change ∃ t, execColdMapRecord page page version ok es s = .next t ∧ _
  unfold execColdMapRecord
  refine exists_live hrun (u := u.mapFromFlash page) ?_
    ⟨hgone, hmap.trans (by rw [hflash]), by rw [hcounts _ (by decide), hcnt, if_pos rfl], by rw [hread, hcnt]; rfl,
      (hframe.mono (by simp)).trans (hkeeps.mono (by simp))⟩ fun _ ⟨a, b, c, d, f⟩ => ⟨a, b, c, d, f.withQueue⟩
  rw [hasked, if_neg (by simp), if_neg (by simp), if_pos (by simpa using hbad), hu]

theorem exec_coldMapRecord_other {other : Nat} (hother : other ≠ page) (version : Nat) (ok : Bool) (es : List W64) :
    ∃ t, exec (.coldMapRecord page other version ok es) s = .next t ∧ page ∉ t.flash.asked ∧ t.flash.map = s.flash.map ∧
      t.cnt 0xE0B018 = s.cnt 0xE0B018 + 1 ∧ keepsBut [.flash, .link, .counts] s t ∧ countsBut [0xE0B018, 0xE0F001, 0xE0F009] s t := by
  obtain ⟨hgone, -, hmap, hread, hkeeps, hcounts⟩ := mapFromFlash_reads s page
  change ∃ t, execColdMapRecord page other version ok es s = .next t ∧ _
  unfold execColdMapRecord
  refine exists_live hrun (u := s.mapFromFlash page) ?_ ⟨hgone, hmap, hread, hkeeps, hcounts⟩ fun _ ⟨a, b, c, f, g⟩ => ⟨a, b, c, f.withQueue, g⟩
  rw [hasked, if_neg (by simp), if_pos (by simpa using hother)]

theorem exec_coldMapTimeout_reads :
    ∃ t, exec (.coldMapTimeout page) s = .next t ∧ page ∉ t.flash.asked ∧ t.flash.map = s.flash.map ∧ t.cnt 0xE0B017 = s.cnt 0xE0B017 + 1 ∧
      t.cnt 0xE0B018 = s.cnt 0xE0B018 + 1 ∧ keepsBut [.flash, .link, .counts] s t := by
  obtain ⟨hgone, -, hmap, hread, hkeeps, hcounts⟩ := mapFromFlash_reads (s.bump 0xE0B017 1) page
  change ∃ t, execColdMapTimeout page s = .next t ∧ _
  unfold execColdMapTimeout
  exact exists_live hrun (if_pos hasked) ⟨hgone, hmap.trans (by rw [State.bump_flash]), by rw [hcounts _ (by decide), State.cnt_bump_same],
    by rw [hread, State.cnt_bump]; rfl, ((bump_frame s _ _).mono (by simp)).trans hkeeps⟩ fun _ ⟨a, b, c, d, f⟩ => ⟨a, b, c, d, f.withQueue⟩

end

/-- Settles O32: a read goes on from what the search for its map page answers (`lookPage`), and a record that is refused or late has the flash copy installed
(`mapFromFlash_reads`). -/
theorem flashReadsAndMapPages : Obligations.FlashReadsAndMapPages := by
  unfold Obligations.FlashReadsAndMapPages
  exact ⟨fun _ _ _ retries ns soft ok tagOk susp lat hrun hservice hrec hregion =>
      exec_flashRead_decodes hrun hservice hrec hregion retries ns soft ok tagOk susp lat,
    fun _ _ _ retries ns soft ok tagOk susp lat hrun hservice hrec hregion =>
      exec_flashRead_zero hrun hservice hrec hregion retries ns soft ok tagOk susp lat,
    fun _ _ _ retries ns soft ok tagOk susp lat hrun hservice hrec hregion =>
      exec_flashRead_asks hrun hservice hrec hregion retries ns soft ok tagOk susp lat,
    fun _ _ _ retries ns soft ok tagOk susp lat hrun hservice hrec hregion =>
      exec_flashRead_installs hrun hservice hrec hregion retries ns soft ok tagOk susp lat,
    fun _ _ _ hrun hasked => exec_coldMapRecord_taken hrun hasked, fun _ _ _ _ es hrun hasked hbad => exec_coldMapRecord_refused hrun hasked hbad es,
    fun _ _ _ version ok es hrun hasked hother => exec_coldMapRecord_other hrun hasked hother version ok es, fun _ _ => exec_coldMapTimeout_reads⟩

end Sys2Proof.Machine
end
